-- ==== Sys2Proof/Word.lean ====
section
/-!
DEFINITION. The word types of the PJ9240 model.  Wire formats and memory images are strings of bytes (R6, R7);
a parameter value is at most 64 bits wide (R48).  Everything computed from bytes (fields, byte orders, checks)
stands in `Sys2Proof/Machine/Bits.lean`.
-/
namespace Sys2Proof

/-- One byte. -/
abbrev Byte := BitVec 8

/-- The stored value of a parameter (R48: at most 64 bits). -/
abbrev Value := BitVec 64

end Sys2Proof
end

