-- ==== Sys2Proof/Syntax.lean ====
section
/-!
DEFINITION. The commands of the PJ9240 line hub and their operands: what its mailboxes, ports, pins, supplies and timers
can do to it.  One constructor for each row of the spec's table of operations and events.
-/
namespace Sys2Proof

/-- A mailbox request as Horest consumes it (R39): the mailbox it came on, the line time of consumption (0: now),
the header fields, the payload bytes carried, and, on MB0, the tunnel entry that delivered it (1,024: none).
`command` is not here: the constructor names it. -/
structure Req where
  mb      : Nat
  time    : Nat
  seq     : Nat
  length  : Nat
  flags   : Nat
  txn     : Nat
  status  : Nat
  payload : List Byte
  entry   : Nat
deriving DecidableEq, Repr

/-- A cell (R103): the header fields, and the LEN payload bytes.  HCRC and the CRC-32C trailer are computed from these
(R104, R106), so a `Cell` is a cell whose checks hold. -/
structure Cell where
  cls     : Nat
  first   : Bool
  last    : Bool
  kind    : Nat
  dest    : Nat
  src     : Nat
  tid     : Nat
  seq     : Nat
  dup     : Bool
  rail    : Nat
  detour  : Bool
  hops    : Nat
  payload : List Byte
deriving DecidableEq, Repr

/-- A codeword of a lane, as a receiver that only keeps lock judges it (R80): its SYNC or POS, and whether it was uncorrectable. -/
structure Seen where
  lead : Nat
  bad  : Bool
deriving DecidableEq, Repr

/-- What a receiver that only keeps lock sees of one lane: the codewords it judged, oldest first (R80). -/
structure LaneRun where
  lane : Nat
  seen : List Seen
deriving DecidableEq, Repr

/-- The bit errors that MEASURE corrected on each lane (R87). -/
structure LaneErrs where
  errs0 : Nat
  errs1 : Nat
deriving DecidableEq, Repr

/-- The 108 bits of a side frame that a port received (R82). -/
structure SideFrame where
  port : Nat
  bits : Nat
deriving DecidableEq, Repr

/-- One codeword from each lane of a port, as the levels of its symbols in the order received (R68, R73, R75), and which of the blocks in
the pair are stall blocks (R99): nothing in a stall block tells it from a numbered block that holds only such flits (log 106). -/
structure Words where
  lane0 : List Int
  lane1 : List Int
  stall : List Bool
deriving DecidableEq, Repr

/-- A frame that the tunnel layer delivers to a local block (R125): the tunnel table index that received it, the source
node, whether it is a tunnel control cell (R128), and the frame's bytes. -/
structure Frame where
  entry   : Nat
  src     : Nat
  control : Bool
  bytes   : List Byte
deriving DecidableEq, Repr

/-- A READ frame, and whether the DRAM controller finds the bytes that it reads uncorrectable (R260). -/
structure ReadFrame where
  frame : Frame
  ecc   : Bool
deriving DecidableEq, Repr

/-- A received Ethernet frame: the bytes from destination address through FCS, whether the PCS and FEC reported no error
and the link held (R281), and the line time of its start delimiter in ns. -/
structure EthFrame where
  bytes : List Byte
  phyOk : Bool
  time  : Nat
deriving DecidableEq, Repr

/-- The kinds of PCIe request that reach a BAR (R257). -/
inductive PcieKind where
  /-- A posted memory write. -/
  | write
  /-- A memory read. -/
  | read
  /-- A configuration request at the request's address: with 4 bytes of data a write of the dword, else a read (R251). -/
  | config
  /-- An I/O or locked request, which the bridge does not support. -/
  | other
deriving DecidableEq, Repr

/-- A PCIe request (R257): the BAR it hit, the offset in that BAR, its length in bytes, the byte lanes enabled (one Bool
a byte), the data of a write, its tag, and the traffic's zero-length flush form. -/
structure PcieReq where
  kind  : PcieKind
  bar   : Nat
  addr  : Nat
  len   : Nat
  lanes : List Bool
  data  : List Byte
  tag   : Nat
deriving DecidableEq, Repr

/-- A control request at the service port (R307): bmRequestType, bRequest, wValue, wIndex and wLength. -/
structure Setup where
  type    : Nat
  request : Nat
  value   : Nat
  index   : Nat
  length  : Nat
deriving DecidableEq, Repr

/-- What the service port sees of its host (R306): SVC_VBUS, a suspended bus, the address it has been given, and whether its configuration and its
remote wakeup are set (log 133). -/
structure SvcBus where
  vbus       : Bool
  suspended  : Bool
  address    : Nat
  configured : Bool
  remote     : Bool
deriving DecidableEq, Repr

/-- What a bus reset at the service port meets (R308, R309): the stage of a control transfer (0 idle, 1 setup, 2 data, 3 status), its bRequest, and
whether a message is partly transferred on EP1 and on EP2 (log 25). -/
structure SvcCut where
  stage   : Nat
  request : Nat
  ep1     : Bool
  ep2     : Bool
deriving DecidableEq, Repr

/-- A PCIe link's speed and width (R250). -/
structure PcieRate where
  speed : Nat
  width : Nat
deriving DecidableEq, Repr

/-- What the two ends of a PCIe link agree on: the codes of Max_Payload_Size and Max_Read_Request_Size, and whether the link is in L1 (R250). -/
structure PcieSet where
  mps  : Nat
  mrrs : Nat
  l1   : Bool
deriving DecidableEq, Repr

/-- One fixed PDO of a partner's Source_Capabilities (R321): millivolts and milliamperes. -/
structure Pdos where
  pdos : List (Nat × Nat)
deriving DecidableEq, Repr

/-- A structured VDM response (R325): the step (0 Discover Identity SOP, 1 Discover Identity SOP', 2 Discover SVIDs,
3 Discover Modes, 4 Enter Mode, 5 DisplayPort Status), whether it was an ACK, and what it says: the cable's current in mA, whether the cable is
EPR capable, whether the DisplayPort SVID is listed, the pin assignments the partner supports (bits C and D), and HPD. -/
structure Vdm where
  step    : Nat
  ack     : Bool
  cableMa : Nat
  epr     : Bool
  dpSvid  : Bool
  pinC    : Bool
  pinD    : Bool
  hpd     : Bool
deriving DecidableEq, Repr

/-- The voltages of both inputs at a judgement (R345, R346), in mV: of the input that the command is about, and of the other one. -/
structure Inputs where
  mv    : Nat
  other : Nat
deriving DecidableEq, Repr

/-- A sample of a fuse channel's voltages (R350, R358), in mV. -/
structure FuseVolts where
  ch   : Nat
  vin  : Nat
  vout : Nat
deriving DecidableEq, Repr

/-- A sample of a fuse channel's voltages, in mV, and of its current, in mA (R350, R351). -/
structure FuseSample where
  ch   : Nat
  vin  : Nat
  vout : Nat
  mA   : Nat
deriving DecidableEq, Repr

/-- A sample of a fuse channel's output voltage and current (R351). -/
structure FuseOut where
  ch   : Nat
  vout : Nat
  mA   : Nat
deriving DecidableEq, Repr

/-- A sample of a fuse channel's current (R354). -/
structure FuseAmps where
  ch : Nat
  mA : Nat
deriving DecidableEq, Repr

/-- A point of a curve, and the current that has stood since its counter began to count (R353). -/
structure CurveHit where
  k  : Nat
  mA : Nat
deriving DecidableEq, Repr

/-- The condition of a tamper source (R424), and for how many ns it has held. -/
structure TamperSeen where
  src  : Nat
  held : Nat
deriving DecidableEq, Repr


/-- The commands of the hub: one constructor for each row of the table of operations and events, in its order. -/
inductive Instr where
  /-- IDENTIFY (R46). Returns the 64-byte identity payload in every state in which the mailbox is served. -/
  | identify (r : Req)
  /-- PARAM_GET (R49). Returns the value in force of 1 to 255 parameter items, each served on its own, with STAGED flagged. -/
  | paramGet (r : Req)
  /-- PARAM_SET (R50). Validates every item and applies all of them as one commit, or stages them in a transaction, or applies none if any item fails. -/
  | paramSet (r : Req)
  /-- PARAM_LIST (R51). Returns up to 254 parameter descriptors in PID order from START_PID. -/
  | paramList (r : Req)
  /-- SYSTEM_RESET (R47). Answers OK and starts a warm reset within 10 ms; through MB0 this is a line reset. -/
  | systemReset (r : Req)
  /-- ECHO (R47). Returns its payload unchanged. -/
  | echo (r : Req)
  /-- UNKNOWN_COMMAND (R40). A request with an unknown COMMAND code receives BAD_COMMAND and has no effect. -/
  | unknownCommand (cmd : Nat) (r : Req)
  /-- MSG_SHORT (R494). An MB0 frame or MB3 transfer of fewer than 16 bytes is discarded without response and counted in MG_MSG_SHORT. -/
  | msgShort (mb : Nat) (nbytes : Nat)
  /-- TXN_BEGIN (R56). Opens a transaction on the mailbox and assigns the next TXN_ID, or returns TXN_FULL. -/
  | txnBegin (r : Req)
  /-- TXN_COMMIT (R61). Validates and applies an OPEN transaction at once, answering OK or IN_PROGRESS. -/
  | txnCommit (r : Req)
  /-- TXN_COMMIT_AT (R58). Validates an OPEN transaction and schedules it for the first allotment cycle boundary at or after line time T. -/
  | txnCommitAt (r : Req)
  /-- TXN_ABORT (R55). Discards an OPEN transaction, or a SCHEDULED one at least 50 µs before its instant, releasing its locks; otherwise BUSY. -/
  | txnAbort (r : Req)
  /-- TXN_STATUS (R62). Returns the state, owner, staged counts and apply time of the named transaction. -/
  | txnStatus (r : Req)
  /-- TXN_TIMEOUT (R55). An OPEN transaction idle for MG_TXN_TIMEOUT is aborted and TXN_EXPIRED is delivered. -/
  | txnTimeout (mb : Nat)
  /-- TXN_SCHEDULED_APPLY (R55). At the instant of a SCHEDULED transaction, every touched block switches at its unit boundary and STEP_DONE and TXN_APPLIED follow. -/
  | txnScheduledApply (mb : Nat)
  /-- TXN_COMMIT_DONE (R61). A commit that needed more than 1 ms ends with STEP_DONE once every touched block has passed its boundary. -/
  | txnCommitDone (token : Nat)
  /-- STEP_STATUS (R66). Returns the state, percent and final status of a long operation by token. -/
  | stepStatus (r : Req)
  /-- STEP_CANCEL (R67). Stops a long operation at its next step boundary, ending it ABORTED, from the originating mailbox only. -/
  | stepCancel (r : Req)
  /-- LONG_OP_STEP (R64). Horest runs one step of at most 100 µs of a pending long operation, round robin, after serving one request per mailbox. -/
  | longOpStep (progress : Nat)
  /-- PAIR_TIMEOUT (R53). A staged first field not closed within MG_PAIR_TIMEOUT is discarded, a Lint record written and PAIR_DISCARDED delivered. -/
  | pairTimeout (pid : Nat) (inst : Nat)
  /-- DOORBELL (R37). A DOORBELL write tells Horest to examine the request ring of the mailbox. -/
  | doorbell (mb : Nat)
  /-- RING_POLL (R37). Horest examines each ring with RING_EN 1 at least every 1 ms. -/
  | ringPoll (mb : Nat)
  /-- MB_RESET (R38). Discards unconsumed requests and undelivered messages, aborts the open transaction and sets the ring indices to 0. -/
  | mbReset (mb : Nat)
  /-- RSP_HEAD_WRITE (R43). The host frees response slots; a held response, EVENT_OVERFLOW and queued events are placed in order. -/
  | rspHeadWrite (mb : Nat) (idx : Nat)
  /-- MB0_RETURN_SEND (R493). Once a return entry exists, MB0 sends its held response and queued events as MANAGEMENT frames. -/
  | mb0ReturnSend
  /-- INT_STATUS_CLEAR (R35). A write of 1 clears INT_STATUS bits and INT_N follows the AND with INT_MASK. -/
  | intStatusClear (mask : Nat)
  /-- INT_FORCE (R35). Writing 1 sets the same INT_STATUS bit for test, signalling MSI-X where enabled. -/
  | intForce (mask : Nat)
  /-- LTIME_READ (R34). Reading LTIME_NS_LO latches LTIME_NS_HI and LTIME_FRAC. -/
  | ltimeRead
  /-- REGISTER_WRITE (R34). A write to a host register or parameter with no behaviour of its own stores the value. -/
  | registerWrite (offset : Nat) (size : Nat) (value : Nat)
  /-- HEARTBEAT (R34). Horest increments HEARTBEAT every 1 ms while running. -/
  | heartbeat
  /-- TABLE_READ (R115). Returns COUNT entries of a table from INDEX. -/
  | tableRead (r : Req)
  /-- TABLE_WRITE (R116). Validates and writes COUNT entries of a table as one commit, or stages them. -/
  | tableWrite (r : Req)
  /-- TABLE_LOAD (R116). Starts loading table entries from the DRAM memory tunnel area against IMAGE_CRC, answering IN_PROGRESS. -/
  | tableLoad (r : Req)
  /-- TABLE_LOAD_DONE (R116). The table load ends and its outcome is delivered in STEP_DONE. -/
  | tableLoadDone (token : Nat)
  /-- TABLE_CLEAR (R116). Sets COUNT table entries to zero as a long operation ending in STEP_DONE. -/
  | tableClear (r : Req)
  /-- SIGNAL_DETECT (R85). Signal on both lanes for 100 µs takes a port in DETECT or silent DETECT to IDENT. -/
  | signalDetect (port : Nat)
  /-- IDENT_DONE (R88). Eight consecutive good TRAIN frames end IDENT; the partner check decides TRAIN with agreed mode and code, or HELD. -/
  | identDone (port : Nat) (repeats : Nat)
  /-- IDENT_TIMEOUT (R85). No good TRAIN frame for 2 ms returns the port from IDENT to DETECT. -/
  | identTimeout (port : Nat)
  /-- TRAIN_DONE (R85). Adaptation done with lock on both lanes takes the port to UP, or to MEASURE between AUTO ends with no stored choice. -/
  | trainDone (port : Nat)
  /-- TRAIN_TIMEOUT (R86). No lock 6 ms after TRAIN entry marks the mode failed and falls back, or with no lower mode counts a failure and waits 100 ms. -/
  | trainTimeout (port : Nat)
  /-- TRAIN_FAIL_WAIT_END (R86). The 100 ms idle wait ends, every failed mark clears and the port returns to DETECT. -/
  | trainFailWaitEnd (port : Nat)
  /-- TRAIN_SIGNAL_LOSS (R85). Amplitude below threshold for 200 ns in TRAIN returns the port to DETECT. -/
  | trainSignalLoss (port : Nat)
  /-- MEASURE_DONE (R87). With 2^30 bits counted per lane at both ends, the code is agreed, the stored choice recorded and LINK_UP delivered. -/
  | measureDone (port : Nat) (errs : LaneErrs)
  /-- MEASURE_TIMEOUT (R85). The partner's MEASURE_DONE not arriving within twice the measure time keeps the long code and brings the port UP. -/
  | measureTimeout (port : Nat)
  /-- MEASURE_ABANDON (R85). Loss of signal or lock during MEASURE abandons it and returns the port to DETECT. -/
  | measureAbandon (port : Nat)
  /-- CODEWORD_LOCK (R80). A lane gains codeword lock after the required run of valid codewords. -/
  | codewordLock (port : Nat) (run : LaneRun)
  /-- PORT_SIGNAL_LOSS (R93). Amplitude below threshold for 200 ns takes an UP port down, discards partial cells and returns it to DETECT. -/
  | portSignalLoss (port : Nat)
  /-- LOCK_LOSS (R80). A lane losing codeword lock takes the UP port down under R93. -/
  | lockLoss (port : Nat) (run : LaneRun)
  /-- HELD_SIGNAL_LOSS (R85). Loss of signal for 1 ms takes a HELD port to DETECT. -/
  | heldSignalLoss (port : Nat)
  /-- LN_ENABLE_WRITE (R85). Setting LN_ENABLE starts DETECT; clearing it sends GOING_DOWN if UP and powers the port down. -/
  | lnEnableWrite (port : Nat) (v : Nat)
  /-- LN_RETRAIN (R85). Writing LN_RETRAIN sends GOING_DOWN for 1 µs and returns the port to DETECT, clearing failed marks. -/
  | lnRetrain (port : Nat) (v : Nat)
  /-- TRAIN_FRAME_RX (R82). A good TRAIN side frame updates the partner's identity, capabilities and phase. -/
  | trainFrameRx (port : Nat) (frame : List Byte)
  /-- STATUS_FRAME_RX (R93). A STATUS side frame updates DARN_ON; two in a row with RX_DOWN or GOING_DOWN take the port down, silently if RESTING. -/
  | statusFrameRx (port : Nat) (frame : List Byte)
  /-- SIDE_FRAME_BAD (R83). A side frame with a failed SFCRC or reserved TYPE is discarded and counted in LN_SIDE_ERR. -/
  | sideFrameBad (f : SideFrame)
  /-- STATUS_TX (R84). The transmitter sends a STATUS frame at least once every 16 side frames, or every side frame while RX_DOWN or GOING_DOWN. -/
  | statusTx (port : Nat)
  /-- BLOCK_RX (R98). A received block is judged good or bad; the first bad block sends DARN_NAK and discards later numbered blocks. -/
  | blockRx (port : Nat) (words : Words)
  /-- DARN_ACK_TX (R98). The receiver sends DARN_ACK for the last good block every LN_DARN_ACK_INTERVAL blocks and at least every 1 µs. -/
  | darnAckTx (port : Nat)
  /-- DARN_NAK_REPEAT (R98). No DARN_REPLAY within LN_DARN_TIMEOUT resends the DARN_NAK and counts LN_DARN_NAK_TX. -/
  | darnNakRepeat (port : Nat)
  /-- DARN_ACK (R99). A received DARN_ACK frees stored blocks up to its BLOCK_SEQ. -/
  | darnAck (port : Nat) (seq : Nat)
  /-- DARN_NAK (R99). A received DARN_NAK in range starts a replay with a DARN_REPLAY block; one beyond the last sent takes the port down. -/
  | darnNak (port : Nat) (seq : Nat) (reason : Nat)
  /-- DARN_REPLAY (R98). A received DARN_REPLAY restarts acceptance at the named block and restores delineation. -/
  | darnReplay (port : Nat) (seq : Nat)
  /-- DARN_REPLAY_TIMEOUT (R99). The oldest stored block unacknowledged within LN_DARN_TIMEOUT is replayed as if NAKed. -/
  | darnReplayTimeout (port : Nat)
  /-- LINK_LOCAL_BAD (R96). A malformed link-local cell is discarded and counted in LN_LL_ERR. -/
  | linkLocalBad (port : Nat) (cell : Cell)
  /-- MARGIN_MEASURE (R100). Each lane in UP measures its eye every 100 ms and reports LN_MARGIN. -/
  | marginMeasure (port : Nat) (lane : Nat) (v : Nat) (h : Nat)
  /-- DEGRADE_WINDOW (R101). At the end of each 1 s window a degraded lane delivers LINK_DEGRADED and may retrain the port. -/
  | degradeWindow (port : Nat) (lane : Nat) (corrected : Nat) (bits : Nat) (uncorr : Nat)
  /-- TAIL_WAIT (R92). L0 UP for LN_TAIL_WAIT without L1 UP sets LN_TAIL and delivers TAIL_CHANGE. -/
  | tailWait
  /-- LINE_CELL_RX (R140). A checked cell from L0, L1 or TW has HOPS decremented and is routed by DEST_NODE, to the tunnel layer, onward, to TW or dropped. -/
  | lineCellRx (port : Nat) (cell : Cell)
  /-- TUNNEL_CELL_RX (R122). The tunnel layer takes a cell from a delivery queue, finds its context and classifies it in the duplicate window. -/
  | tunnelCellRx (out : Nat) (cls : Nat)
  /-- RESYNC_RX (R130). A RESYNC cell with a new tag clears the context and re-bases it and TUNNEL_RESYNC is delivered. -/
  | resyncRx (entry : Nat) (cell : Cell)
  /-- TUNNEL_CONTROL_RX (R128). A tunnel control cell is checked and handed on by SUBTYPE as a one-cell frame. -/
  | tunnelControlRx (entry : Nat) (cell : Cell)
  /-- GAP_WAIT_EXPIRE (R123). A missing SEQ of a protected tunnel is resolved lost TN_GAP_WAIT after a later SEQ was accepted. -/
  | gapWaitExpire (entry : Nat) (src : Nat)
  /-- REASM_TIMEOUT (R126). An open frame without its LAST cell within TN_REASM_TIMEOUT is discarded and DISCARDING set. -/
  | reasmTimeout (entry : Nat) (src : Nat)
  /-- FRAME_SEND (R118). A whole checked frame from a local block is policed, cut into cells, numbered and admitted, with a copy across TW if protected. -/
  | frameSend (out : Nat) (entry : Nat) (bytes : List Byte) (counted : Nat)
  /-- SHAPER_RELEASE (R180). A frame waiting in its block is admitted once its shaper bucket holds more than 0 tokens. -/
  | shaperRelease (entry : Nat)
  /-- DISCARD_ENTRY_EXPIRE (R162). A discard-table entry older than TN_REASM_TIMEOUT is removed. -/
  | discardEntryExpire (buf : Nat)
  /-- OUTPUT_CELL_SEND (R172). At a cell boundary the output scheduler picks the next eligible cell by step and input, or sends idle flits. -/
  | outputCellSend (out : Nat)
  /-- CREDIT_TX (R156). The receiving end sends a cumulative credit message after SW_CREDIT_INTERVAL flits freed and at least every 1 µs. -/
  | creditTx (port : Nat)
  /-- CREDIT_RX (R158). A received credit message updates CREDIT_LIMIT for its class unless older. -/
  | creditRx (port : Nat) (cls : Nat) (limit : Nat)
  /-- CREDIT_STALL (R160). A C2 or C3 cell waiting for credit for SW_CREDIT_STALL delivers CREDIT_STALL. -/
  | creditStall (port : Nat) (cls : Nat)
  /-- ALLOT_BOUNDARY (R173). At each allotment cycle boundary remaining allotments reload and pending level changes take effect. -/
  | allotBoundary
  /-- EPOCH_ARM (R181). Closing AL_EPOCH_ARM at a head checks the pair and sends an epoch with T_e and PLAN_ID. -/
  | epochArm (mb : Nat) (v : Nat)
  /-- EPOCH_COPY_TX (R182). Further epoch or cancel copies leave every AL_EPOCH_SPACING until AL_EPOCH_COPIES are sent. -/
  | epochCopyTx
  /-- EPOCH_CANCEL (R187). Writing AL_EPOCH_CANCEL at a head sends EPOCH_CANCEL copies and disarms its own epoch. -/
  | epochCancel (mb : Nat) (id : Nat)
  /-- EPOCH_RX (R185). A received epoch cell is checked, passed on, crossed to TW once and armed, ignored or discarded. -/
  | epochRx (port : Nat) (cell : Cell)
  /-- EPOCH_CANCEL_RX (R185). A received EPOCH_CANCEL for the armed epoch disarms it and delivers EPOCH_CANCELLED. -/
  | epochCancelRx (port : Nat) (cell : Cell)
  /-- EPOCH_SWAP (R186). At the armed boundary the active and shadow allotment tables exchange and EPOCH_APPLIED is delivered. -/
  | epochSwap
  /-- GOV_EVALUATE (R189). Every 100 µs the governor takes the demanded level and raises the level in force to it. -/
  | govEvaluate (power : Nat)
  /-- GOV_DWELL_EXPIRE (R190). The demanded level staying lower for AL_GOV_DWELL lowers the level in force by one. -/
  | govDwellExpire
  /-- DETOUR_CTRL_TX (R199). A hub sends DETOUR_CTRL on TW every fourth side frame and after any change of content. -/
  | detourCtrlTx
  /-- DETOUR_CTRL_RX (R199). A DETOUR_CTRL frame updates RL_TWIN_PORTS and arms or disarms detours. -/
  | detourCtrlRx (frame : List Byte)
  /-- DETOUR_RELEASE_START (R205). Port p UP for RL_DETOUR_RELEASE makes TW stop serving its VOQs. -/
  | detourReleaseStart (port : Nat)
  /-- DETOUR_QUIET_END (R205). After RL_DETOUR_QUIET output p takes its VOQs back and DETOUR_RELEASED is delivered. -/
  | detourQuietEnd (port : Nat)
  /-- LINE_STATE_TX (R213). Each UP port sends LINE_STATE at least once in every 64 side frames. -/
  | lineStateTx (port : Nat) (t : Nat)
  /-- LINE_STATE_RX (R207). A LINE_STATE frame may set the node ID, change time source, or hold the port on an ID conflict. -/
  | lineStateRx (port : Nat) (frame : List Byte)
  /-- RL_REENUMERATE (R209). Writing RL_REENUMERATE clears ID_VALID and takes the ID again. -/
  | rlReenumerate (mb : Nat) (v : Nat)
  /-- SYNC_TX (R213). Each UP port sends a SYNC frame at least once in every 16 side frames. -/
  | syncTx (port : Nat) (t : Nat)
  /-- SYNC_RX (R214). A SYNC on the source port corrects frequency, steps on offsets above 1 µs, and may reach LOCKED. -/
  | syncRx (port : Nat) (frame : List Byte) (t : Nat) (frac : Nat)
  /-- DELAY_REQ_TX (R213). Each UP port sends DELAY_REQ once in every 256 side frames. -/
  | delayReqTx (port : Nat) (t : Nat)
  /-- DELAY_REQ_RX (R213). A DELAY_REQ received records its time for the response. -/
  | delayReqRx (port : Nat) (frame : List Byte) (t : Nat) (frac : Nat)
  /-- DELAY_RESP_TX (R213). The port sends DELAY_RESP with its turnaround within 4 side frames of each DELAY_REQ. -/
  | delayRespTx (port : Nat) (t : Nat)
  /-- DELAY_RESP_RX (R214). A DELAY_RESP updates the averaged link delay. -/
  | delayRespRx (port : Nat) (frame : List Byte) (t : Nat) (frac : Nat)
  /-- HOLDOVER_EXPIRE (R216). RL_HOLDOVER_LIMIT in HOLDOVER takes head twin B to MASTER and other hubs to FREE. -/
  | holdoverExpire
  /-- RL_TIME_STEP (R221). Writing RL_TIME_STEP at head twin A adds a signed step to line time at the next allotment boundary. -/
  | rlTimeStep (mb : Nat) (v : Nat)
  /-- PPS_PULSE (R219). PPS_OUT rises at each whole second of line time, per RL_PPS_MODE. -/
  | ppsPulse
  /-- PPS_END (R219). PPS_OUT falls RL_PPS_WIDTH after it rose. -/
  | ppsEnd
  /-- TCAP_EDGE (R220). A selected edge on TCAP0 or TCAP1 is timestamped into its FIFO, or sets OVERFLOW. -/
  | tcapEdge (inp : Nat) (rising : Bool) (t : Nat)
  /-- TCAP_READ (R220). Reading RL_TCAP_READ returns and removes the oldest capture and clears OVERFLOW. -/
  | tcapRead (inp : Nat)
  /-- DE_DISPATCH (R231). The engine dispatches one queued event, looks it up in the active bank and runs the actions or the miss action. -/
  | deDispatch
  /-- DECISION_FRAME_RX (R232). An EVENT frame is queued as an event; a FORWARDED frame is written to the forward ring. -/
  | decisionFrameRx (f : Frame)
  /-- GPIO_EDGE (R237). A selected edge on an input pin is filtered, timestamped, queued as an event and reported as configured. -/
  | gpioEdge (pin : Nat) (rising : Bool) (t : Nat)
  /-- ACTUATE_RX (R238). A GPIO tunnel ACTUATE frame is checked and armed in the pin's queue, late-executed or dropped. -/
  | actuateRx (f : Frame)
  /-- EDGE_REPORT_RX (R230). A GPIO tunnel EDGE_REPORT counts as a GPIO-source event. -/
  | edgeReportRx (f : Frame)
  /-- ACTUATE_DUE (R239). An armed command reaches its due time and drives the pin. -/
  | actuateDue (pin : Nat)
  /-- PULSE_END (R239). The last covering pulse ends and the pin returns to IDLE_LEVEL. -/
  | pulseEnd (pin : Nat)
  /-- DE_BANK_LOAD (R244). Starts copying an image into the shadow bank, making it BUSY. -/
  | deBankLoad (r : Req)
  /-- DE_BANK_LOAD_DONE (R243). The bank copy ends, the bank becomes UNCHECKED and STEP_DONE reports OK or AUTH_FAIL. -/
  | deBankLoadDone (token : Nat)
  /-- DE_BANK_CHECK (R244). Starts checking the shadow bank, making it BUSY. -/
  | deBankCheck (r : Req)
  /-- DE_BANK_CHECK_DONE (R245). The check ends with the bank CHECKED with count and CRC, or FAILED with reason. -/
  | deBankCheckDone (token : Nat)
  /-- DE_BANK_STATUS (R244). Returns the state, count, CRC and failure of both banks. -/
  | deBankStatus (r : Req)
  /-- DE_LOOKUP (R244). Looks a key up in the active or shadow bank without acting, returning hashes and entry. -/
  | deLookup (r : Req)
  /-- APERTURE_REQUEST (R257). A PCIe request is matched to an aperture and sent as a window frame, answered locally, or refused. -/
  | apertureRequest (q : PcieReq)
  /-- WINDOW_WRITE_RX (R262). A posted WRITE frame is matched to a target window, guarded and performed, or its failure noted. -/
  | windowWriteRx (f : Frame)
  /-- WINDOW_WRITE_NP_RX (R264). A WRITE_NP frame is performed after earlier writes and answered with WRITE_ACK. -/
  | windowWriteNpRx (f : Frame)
  /-- WINDOW_READ_RX (R264). A READ frame is matched, guarded and performed at the target after earlier writes of the tunnel. -/
  | windowReadRx (f : ReadFrame)
  /-- TARGET_COMPLETION (R273). A target access completes and the far hub sends COMPLETION or WRITE_ACK with PRIOR_FAILS. -/
  | targetCompletion (id : Nat) (status : Nat) (data : List Byte)
  /-- WINDOW_COMPLETION_RX (R266). A COMPLETION ends an outstanding read towards the PCIe requester, fills a prefetch buffer or is late. -/
  | windowCompletionRx (f : Frame)
  /-- WINDOW_WRITE_ACK_RX (R274). A WRITE_ACK ends a WRITE_NP and releases later accesses of the aperture, logging a failure. -/
  | windowWriteAckRx (f : Frame)
  /-- WINDOW_FRAME_BAD (R259). A malformed window frame is discarded and counted in BR_FRAME_ERR. -/
  | windowFrameBad (f : Frame)
  /-- CPL_TIMEOUT (R265). A request with no reply within BR_CPL_TIMEOUT ends with the error response and CPL_EXPIRED. -/
  | cplTimeout (tag : Nat)
  /-- PREFETCH_EXPIRE (R268). A prefetch buffer is discarded 10 µs after it fills. -/
  | prefetchExpire (win : Nat)
  /-- NOTICE_SEND (R271). The far hub sends a write-error notice covering failures, at most one per BR_NOTICE_INTERVAL. -/
  | noticeSend (origin : Nat) (tid : Nat) (win : Nat)
  /-- WRITE_ERROR_NOTICE_RX (R272). A write-error notice is logged, WRITE_ERR set and WRITE_ERROR delivered. -/
  | writeErrorNoticeRx (cell : Cell)
  /-- PCIE_ISLAND_RESET (R254). PE_PERST_N, Hot Reset or Link Down at an endpoint resets I-PCIE only. -/
  | pcieIslandReset (cause : Nat)
  /-- PCIE_LINK (R279). The PCIe link comes up or goes down and PCIE_LINK is delivered. -/
  | pcieLink (up : Bool) (rate : PcieRate) (set : PcieSet)
  /-- INTX_DROP (R253). An INTx message from the downstream device is discarded and counted. -/
  | intxDrop
  /-- BR_LINK_RESET (R253). Writing BR_LINK_RESET at a root port pulses PE_PERST_N for 100 ms and retrains. -/
  | brLinkReset (mb : Nat) (v : Nat)
  /-- BR_PWERR_CLEAR (R272). Writing BR_PWERR_CLEAR clears every posted-write error log entry. -/
  | brPwerrClear (mb : Nat) (v : Nat)
  /-- BR_PWERR_OVERFLOW_READ (R9). Reading BR_PWERR_OVERFLOW returns and clears it. -/
  | brPwerrOverflowRead (mb : Nat)
  /-- ETH_FRAME_RX (R281). A received Ethernet frame is checked, timestamped, filtered and mapped to its tunnel, or dropped. -/
  | ethFrameRx (eth : Nat) (f : EthFrame)
  /-- PAUSE_EXPIRE (R286). The received pause time runs out and transmission resumes. -/
  | pauseExpire (eth : Nat)
  /-- ETH_RX_ADMIT (R284). The frame at the head of a receive buffer is admitted once space and its shaper allow, in arrival order. -/
  | ethRxAdmit (eth : Nat)
  /-- PAUSE_TX (R286). Occupancy crossing XOFF or XON sends PAUSE with quanta or 0. -/
  | pauseTx (eth : Nat)
  /-- PAUSE_REPEAT (R286). PAUSE is resent each time half of the pause time has passed above XOFF. -/
  | pauseRepeat (eth : Nat)
  /-- ETH_FRAME_TX (R289). A delivered frame is tagged by BINDING and sent by its port, or dropped. -/
  | ethFrameTx (f : Frame)
  /-- ETH_PORT_RESTART (R280). A write of EN_MODE or EN_ENABLE takes the port down and restarts it, discarding its transmit FIFO. -/
  | ethPortRestart (eth : Nat) (enable : Nat) (mode : Nat)
  /-- ETH_LINK (R291). An Ethernet port's link state changes and ETH_LINK is delivered. -/
  | ethLink (eth : Nat) (up : Bool)
  /-- TRANSFER (R295). A TRANSFER message queues a USB transfer on its port and endpoint, resuming the port if suspended. -/
  | transfer (f : Frame)
  /-- USB_TRANSFER_COMPLETE (R296). A USB transfer ends and a COMPLETION with its status is sent. -/
  | usbTransferComplete (up : Nat) (ep : Nat) (result : Nat) (data : List Byte)
  /-- POWER_ON (R297). PORT_CMD POWER_ON applies VBUS and clears a latched over-current. -/
  | powerOn (f : Frame)
  /-- POWER_OFF (R297). PORT_CMD POWER_OFF ends the port's transfers with ABORTED and removes VBUS. -/
  | powerOff (f : Frame)
  /-- RESET (R297). PORT_CMD RESET aborts transfers, resets and addresses the device, replying with the speed. -/
  | reset (f : Frame)
  /-- SUSPEND (R297). PORT_CMD SUSPEND suspends the port. -/
  | suspend (f : Frame)
  /-- RESUME (R297). PORT_CMD RESUME resumes the port. -/
  | resume (f : Frame)
  /-- STATUS (R297). PORT_CMD STATUS replies with the port speed. -/
  | status (f : Frame)
  /-- ABORT (R297). ABORT ends outstanding transfers of an endpoint or port with ABORTED and replies. -/
  | abort (f : Frame)
  /-- USB_MSG_BAD (R295). A malformed USB message is discarded and counted in US_MSG_ERR. -/
  | usbMsgBad (f : Frame)
  /-- US_RING_POLL (R300). Every US_RING_POLL the head reads REQ_PROD and takes request slots from the host ring. -/
  | usRingPoll
  /-- USB_OVERCURRENT (R301). OC_N low for US_OC_DEGLITCH removes port power, ends transfers and delivers USB_OVERCURRENT. -/
  | usbOvercurrent (up : Nat)
  /-- USB_IDLE_SUSPEND (R302). A port idle for the idle time is suspended and PORT_EVENT SUSPENDED sent. -/
  | usbIdleSuspend (up : Nat)
  /-- USB_REMOTE_WAKE (R302). A device remote wake resumes the port and sends REMOTE_WAKE. -/
  | usbRemoteWake (up : Nat)
  /-- USB_ATTACH (R309). A device attaches or detaches on a root port and PORT_EVENT and USB_ATTACH follow. -/
  | usbAttach (up : Nat) (attach : Bool) (speed : Nat)
  /-- BINDING_POLL (R303). The hub polls a bound interrupt endpoint at bInterval. -/
  | bindingPoll (idx : Nat)
  /-- USB_REPORT (R303). A bound report completes, queues a USB-source event and goes to the owning tunnel unless consumed. -/
  | usbReport (idx : Nat) (bytes : List Byte)
  /-- SOF_MICROFRAME (R304). Each microframe starts with the trim in force, locked to line time in mode 2. -/
  | sofMicroframe
  /-- USB_PORT_CONTROL (R45). Mailbox command controlling a USB port; its payload is named but not defined. -/
  | usbPortControl (r : Req)
  /-- SVC_ATTACH (R306). The service port connects its pull-up when enabled, SVC_VBUS present and I-USB powered. -/
  | svcAttach (bus : SvcBus := ⟨true, false, 0, false, false⟩)
  /-- SVC_REQUEST (R30). A bulk transfer on EP1 carries one MB3 request message. -/
  | svcRequest (bytes : List Byte)
  /-- REG_READ (R307). Vendor request returning a host register. -/
  | regRead (setup : Setup)
  /-- REG_WRITE (R307). Vendor request writing a host register at the status stage. -/
  | regWrite (setup : Setup) (value : Nat)
  /-- SVC_MB_RESET (R307). Vendor request resetting MB3 at the status stage. -/
  | svcMbReset
  /-- GET_IDENTITY (R307). Vendor request returning the IDENTIFY payload even when Horest is not ready. -/
  | getIdentity
  /-- SVC_BUS_RESET (R308). A bus reset abandons the control transfer and partial messages and delivers SVC_BUS_RESET. -/
  | svcBusReset (cut : SvcCut := ⟨0, 0, false, false⟩)
  /-- TC_ENABLE_WRITE (R315). Setting TC_ENABLE presents Rp; clearing it removes VBUS and VCONN and disables the port. -/
  | tcEnableWrite (tc : Nat) (v : Nat)
  /-- TC_TERMINATION (R315). A termination appears or disappears on a CC pin, starting or ending tCCDebounce. -/
  | tcTermination (tc : Nat) (cc1 : Nat) (cc2 : Nat)
  /-- TC_DEBOUNCE_DONE (R311). After tCCDebounce the port classifies the termination and attaches as source or accessory. -/
  | tcDebounceDone (tc : Nat)
  /-- TC_CC_OPEN (R317). CC opens on a sourcing port; above vSafe5V or in a transition the port detaches at once. -/
  | tcCcOpen (tc : Nat)
  /-- TC_PD_DEBOUNCE_DONE (R316). CC open for tPDDebounce at vSafe5V detaches the source. -/
  | tcPdDebounceDone (tc : Nat)
  /-- TC_VSAFE0 (R316). VBUS reaches vSafe0V and the port may apply VBUS to a new attach. -/
  | tcVsafe0 (tc : Nat)
  /-- TC_REQUEST_RX (R319). A sink's request is accepted, setting the fuse base and converter, or rejected. -/
  | tcRequestRx (tc : Nat) (pos : Nat) (mA : Nat)
  /-- TC_POWER_GOOD (R319). The converter reports power good and the port sends PS_RDY. -/
  | tcPowerGood (tc : Nat)
  /-- TC_EPR_ENTER_RX (R319). An EPR_Mode Enter request is accepted or answered Enter Failed. -/
  | tcEprEnterRx (tc : Nat) (pdp : Nat)
  /-- TC_PR_SWAP_RX (R320). A partner PR_Swap is accepted or rejected by role and TC_SINK_ALLOW. -/
  | tcPrSwapRx (tc : Nat)
  /-- TC_DR_SWAP_RX (R320). A partner DR_Swap is accepted when TC_DR_SWAP_ALLOW is 1, exiting Alt Mode first. -/
  | tcDrSwapRx (tc : Nat)
  /-- TC_VCONN_SWAP_RX (R320). A partner VCONN_Swap is always accepted. -/
  | tcVconnSwapRx (tc : Nat)
  /-- TC_HARD_RESET_RX (R323). A Hard Reset voids any swap and returns the port to its attach-time roles. -/
  | tcHardResetRx (tc : Nat)
  /-- TC_REOFFER (R322). A change of available power, limits or level re-sends Source_Capabilities within 1 ms. -/
  | tcReoffer (tc : Nat)
  /-- TC_SENDER_RESPONSE_TIMEOUT (R322). No acceptable request within tSenderResponse makes the port send Hard_Reset. -/
  | tcSenderResponseTimeout (tc : Nat)
  /-- TC_SINK_DISCONNECT (R315). VBUS below vSinkDisconnect in Sink role detaches the port. -/
  | tcSinkDisconnect (tc : Nat)
  /-- TC_VCONN_FAULT (R314). A VCONN overload over 1 ms turns the switch off and delivers TC_VCONN_FAULT. -/
  | tcVconnFault (tc : Nat)
  /-- TC_ERROR_RECOVERY_END (R315). After 25 ms with the channel closed and not latched the port presents Rp again. -/
  | tcErrorRecoveryEnd (tc : Nat)
  /-- TC_ALT_MODE (R325). Configure ACK switches the lane mux to DisplayPort, or a NAK leaves it on USB. -/
  | tcAltMode (tc : Nat) (ack : Bool)
  /-- TC_ATTENTION_RX (R325). DisplayPort Status or Attention passes HPD state to the head. -/
  | tcAttentionRx (tc : Nat) (hpd : Bool) (irq : Bool)
  /-- TC_SEND_HARD_RESET (R326). TC_PORT_CONTROL ACTION 1 sends Hard_Reset. -/
  | tcSendHardReset (r : Req)
  /-- TC_REQUEST_PR_SWAP (R326). TC_PORT_CONTROL ACTION 2 requests PR_Swap. -/
  | tcRequestPrSwap (r : Req)
  /-- TC_REQUEST_DR_SWAP (R326). TC_PORT_CONTROL ACTION 3 requests DR_Swap. -/
  | tcRequestDrSwap (r : Req)
  /-- TC_REQUEST_VCONN_SWAP (R326). TC_PORT_CONTROL ACTION 4 requests VCONN_Swap. -/
  | tcRequestVconnSwap (r : Req)
  /-- TC_REOFFER_CAPABILITIES (R326). TC_PORT_CONTROL ACTION 5 re-offers capabilities. -/
  | tcReofferCapabilities (r : Req)
  /-- TC_EXIT_ALT_MODE (R326). TC_PORT_CONTROL ACTION 6 exits Alt Mode. -/
  | tcExitAltMode (r : Req)
  /-- TC_PORT_STATUS (R326). Returns the port state, contract and cable ceiling. -/
  | tcPortStatus (r : Req)
  /-- DS_LINE_PACKET (R333). A line packet opens, extends, completes or abandons a frame in the head's store. -/
  | dsLinePacket (f : Frame)
  /-- DS_PPS_RX (R331). A PPS control cell stores a DSC PPS under its tag, or refuses it. -/
  | dsPpsRx (entry : Nat) (cell : Cell)
  /-- DS_FRAME_BOUNDARY (R340). At a frame boundary the head picks its next frame, finalises the signature and updates SAME, STALE and alarms. -/
  | dsFrameBoundary (head : Nat)
  /-- DS_UNDERRUN (R338). A pixel due but not in the line buffer fills the line with the fallback colour and counts an underrun. -/
  | dsUnderrun (head : Nat) (line : Nat) (pixel : Nat)
  /-- DS_HPD (R328). An HPD rise or lock-loss IRQ retrains the DisplayPort link. -/
  | dsHpd (head : Nat) (irq : Bool) (lanes : Nat) (rate : Nat)
  /-- DS_ROUTE_WRITE (R329). A DS_ROUTE write routes the head, entering or exiting Alt Mode. -/
  | dsRouteWrite (mb : Nat) (head : Nat) (v : Nat)
  /-- DS_SIGNATURE_READ (R342). Returns the last signature, counts and alarms of a head. -/
  | dsSignatureRead (r : Req)
  /-- DS_ALARM_CLEAR (R342). Clears the selected alarms of a head and sets their counts to 0. -/
  | dsAlarmClear (r : Req)
  /-- SUPPLY_SWITCH (R346). An input bad for 2 µs with the other good switches break-before-make and delivers SUPPLY_SWITCH. -/
  | supplySwitch (inp : Nat) (v : Inputs)
  /-- SUPPLY_BOTH_BAD (R346). The input in use is bad with the other not good and SUPPLY_BOTH_BAD is delivered. -/
  | supplyBothBad (v : Inputs)
  /-- SUPPLY_RETURN (R346). VMAIN good for FU_RETURN_DELAY switches back from VBACK. -/
  | supplyReturn
  /-- IDEAL_DIODE_OFF (R347). An input 20 mV below the common node turns its FET off within 0.3 µs. -/
  | idealDiodeOff (inp : Nat)
  /-- FUSE_RAMP_DONE (R350). The output reaching 90 % of input out of limit moves the channel from RAMP to ON. -/
  | fuseRampDone (f : FuseVolts)
  /-- FUSE_LIMIT_ENGAGE (R351). Current limit engages and the fault timer starts or resumes. -/
  | fuseLimitEngage (f : FuseSample)
  /-- FUSE_LIMIT_RELEASE (R351). Current limit releases and the fault timer pauses. -/
  | fuseLimitRelease (f : FuseOut)
  /-- FAULT_TIMER_CLEAR (R351). Out of limit for 1 ms returns the fault timer to 0. -/
  | faultTimerClear (ch : Nat)
  /-- FAULT_TIMER_TRIP (R351). The fault timer reaching FU_FAULT_TIME trips the channel. -/
  | faultTimerTrip (ch : Nat)
  /-- SOA_TRIP (R352). The SOA integrator reaching FU_SOA_BUDGET trips the channel. -/
  | soaTrip (ch : Nat)
  /-- CURVE_TRIP (R353). A curve point counter reaching its TIME trips the channel. -/
  | curveTrip (ch : Nat) (hit : CurveHit)
  /-- FAST_TRIP (R354). Current above the fast threshold pulls the gate down within 1 µs, recorded as a trip. -/
  | fastTrip (f : FuseAmps)
  /-- FUSE_BACKOFF_END (R356). The backoff wait ends; F0 ramps again and F1 to F4 return to OFF. -/
  | fuseBackoffEnd (ch : Nat)
  /-- FUSE_PG_ASSERT (R358). PG asserts after 1 ms of good output out of limit. -/
  | fusePgAssert (ch : Nat)
  /-- FUSE_PG_HOLD_END (R358). Still in limit at the end of the 100 µs PG hold deasserts PG. -/
  | fusePgHoldEnd (ch : Nat)
  /-- FUSE_RETRY_CLEAR (R356). PG held for FU_RETRY_CLEAR resets the trip count. -/
  | fuseRetryClear (ch : Nat)
  /-- FUSE_INPUT_LOST (R356). F0 input below FU_VIN_UV for 10 µs turns the gate off into NO_INPUT. -/
  | fuseInputLost (mv : Nat)
  /-- FUSE_INPUT_RESTORED (R356). F0 input at or above FU_VIN_UV for 100 ms ramps the channel again. -/
  | fuseInputRestored (mv : Nat)
  /-- FU_ENABLE_WRITE (R356). Writing FU_ENABLE starts F0 ramping or turns it off with discharge. -/
  | fuEnableWrite (mb : Nat) (v : Nat)
  /-- FUSE_RETRY (R357). Clears a latched channel to OFF, or resets the trip count of an unlatched one. -/
  | fuseRetry (r : Req)
  /-- SUPPLY_SKEW (R375). Supplies of a crossing differing by over 200 mV for two samples island-reset the further one. -/
  | supplySkew (cross : Nat) (mvA : Nat) (mvB : Nat)
  /-- SKEW_RELEASE (R375). The difference within 150 mV for 1 ms releases the island from skew reset. -/
  | skewRelease (cross : Nat) (mvA : Nat) (mvB : Nat)
  /-- SEAM_RESET (R371). One side of a crossing enters reset; the live side discards in-flight items and delivers SEAM_RESET. -/
  | seamReset (cross : Nat) (isl : Nat) (items : Nat)
  /-- SEAM_RELEASE (R372). On release both ends start empty and each Pulse Seam destination delivers one recheck pulse. -/
  | seamRelease (cross : Nat)
  /-- CLOCK_REQUEST (R370). An undelivered item for a clock-gated island restarts its clock within 1 µs. -/
  | clockRequest (isl : Nat)
  /-- AON_TRIM (R376). Every 1 s the I-AON oscillator is trimmed against the 32.768 kHz crystal. -/
  | aonTrim (present : Bool) (ppm : Int)
  /-- PWR_ENTER_RUN (R380). PWR_ENTER RUN exits DOZE, or disarms a fold-armed hub. -/
  | pwrEnterRun (r : Req)
  /-- PWR_ENTER_DOZE (R380). PWR_ENTER DOZE starts the DOZE entry sequence with the wake latch armed. -/
  | pwrEnterDoze (r : Req)
  /-- PWR_ENTER_REST (R380). PWR_ENTER REST starts REST entry at a tail, arms a fold, or is refused. -/
  | pwrEnterRest (r : Req)
  /-- PWR_ENTRY_DONE (R382). The last power switch of the entry opens and the wake latch disarms. -/
  | pwrEntryDone
  /-- FOLD_ARMED_ENTRY (R380). A fold-armed hub that has become tail with no transaction left enters REST. -/
  | foldArmedEntry
  /-- WAKE_EVENT (R383). An enabled wake source exits DOZE or REST, or aborts an entry in progress with WAKE_ABORT. -/
  | wakeEvent (code : Nat)
  /-- WAKE_OUT_END (R383). WAKE_OUT falls after PW_WAKE_OUT_WIDTH. -/
  | wakeOutEnd
  /-- PWR_STATUS (R381). Returns the power state, last wake, reset cause and last exit time. -/
  | pwrStatus (r : Req)
  /-- LINE_FOLD (R384). At a head, starts sending fold-armed PWR_ENTER REST to nodes of its rail from the highest ID down. -/
  | lineFold (r : Req)
  /-- FOLD_PACE (R384). Every PW_FOLD_PACE the head sends the next node its PWR_ENTER REST with FOLD. -/
  | foldPace
  /-- FOLD_TIMEOUT (R384). PW_FOLD_TIMEOUT passing ends LINE_FOLD with TIMEOUT. -/
  | foldTimeout
  /-- LINE_UNFOLD (R385). At a head, ends silent DETECT of L1 so that the rail wakes hop by hop. -/
  | lineUnfold (r : Req)
  /-- THERMAL_SHUTDOWN (R386). A sensor at 155 °C removes the core rails within 10 µs and enters THERMAL_OFF. -/
  | thermalShutdown (sensor : Nat) (reading : Int)
  /-- THERMAL_RESTART (R386). The I-AON sensor below 140 °C for 1 s restarts through a warm reset. -/
  | thermalRestart
  /-- RESET_N_PULSE (R388). RESET_N low 1 to 9 µs starts a warm reset at release. -/
  | resetNPulse (width : Nat)
  /-- RESET_N_LONG (R388). RESET_N low for 10 µs starts a cold reset held until release. -/
  | resetNLong
  /-- WARM_RESET (R388). A warm reset resets every island except I-AON, samples straps at release and boots. -/
  | warmReset (cause : Nat) (straps : Nat)
  /-- PW_ISLAND_RESET (R388). Writing PW_ISLAND_RESET resets one of islands 5 to 9, or receives DENIED. -/
  | pwIslandReset (mb : Nat) (isl : Nat)
  /-- TAG_FILL (R398). Closing AG_TAG_FILL writes COLOUR into every page of the range. -/
  | tagFill (mb : Nat) (v : Nat)
  /-- GUARD_DRAIN_TIMEOUT (R406). Older accesses remaining AG_DRAIN_TIMEOUT after a guard commit make it answer DRAIN_PENDING. -/
  | guardDrainTimeout
  /-- GUARD_DRAINED (R406). The last access of an older generation ends and GUARD_DRAINED is delivered. -/
  | guardDrained
  /-- DEBUG_ACCESS (R404). A debug master access is checked and denied by any locked region. -/
  | debugAccess (space : Nat) (addr : Nat) (len : Nat) (write : Bool) (data : List Byte)
  /-- AG_VIOL_CLEAR (R402). Writing AG_VIOL_CLEAR clears the violation log and imprecise slots. -/
  | agViolClear (mb : Nat) (v : Nat)
  /-- AG_VIOL_OVERFLOW_READ (R9). Reading AG_VIOL_OVERFLOW returns and clears it. -/
  | agViolOverflowRead (mb : Nat)
  /-- KEY_UPDATE_WRITE (R416). KEY_UPDATE with OP WRITE checks the package and commits a new key into the slot. -/
  | keyUpdateWrite (r : Req)
  /-- KEY_UPDATE_ERASE (R416). KEY_UPDATE with OP ERASE checks the package and commits the slot empty with the new counter. -/
  | keyUpdateErase (r : Req)
  /-- KEY_UPDATE_DONE (R417). The key update completes, KEY_CHANGED is delivered and affected tunnels change key. -/
  | keyUpdateDone (token : Nat)
  /-- KEY_STATUS (R418). Returns life-cycle, tamper, debug, measurement, public key and slot records. -/
  | keyStatus (r : Req)
  /-- LC_TRANSITION (R420). Programs the life-cycle fuse, Rinses keys and starts a warm reset. -/
  | lcTransition (r : Req)
  /-- DEBUG_UNLOCK (R422). Checks the unlock package, advances the debug counter, Rinses MEASURED keys and connects the debug port. -/
  | debugUnlock (r : Req)
  /-- DEBUG_UNLOCK_END (R423). The unlock DURATION elapsing disconnects the debug port and delivers DEBUG_UNLOCKED ended. -/
  | debugUnlockEnd
  /-- TAMPER_ALARM (R426). A tamper source alarm sets its latch bit, applies its policy and delivers TAMPER_ALARM. -/
  | tamperAlarm (a : TamperSeen)
  /-- TAMPER_CONDITION_END (R430). A tamper source's alarm condition ends and TAMPER_ALARM reports it. -/
  | tamperConditionEnd (src : Nat)
  /-- TAMPER_RINSE_DONE (R425). The NV Rinse of ZEROISE_ALL completes and any RESET follows. -/
  | tamperRinseDone
  /-- KY_TAMPER_CLEAR (R426). Writing KY_TAMPER_CLEAR on MB2 or MB3 clears latch bits whose condition has ended. -/
  | kyTamperClear (mb : Nat) (v : Nat)
  /-- BOOT_ROM_START (R438). After reset release the boot ROM reads the tamper latch, configuration and boot records and chooses an image. -/
  | bootRomStart
  /-- HOREST_START (R438). The checked image starts Horest, arms the watchdog and reaches HOREST_READY. -/
  | horestStart
  /-- FULL_SERVICE (R438). Horest has applied configuration, locked the guard, re-checked the bank and armed detours, and delivers BOOT. -/
  | fullService
  /-- WATCHDOG (R446). The watchdog count reaching MG_WDT_TIMEOUT writes a record and starts a warm reset. -/
  | watchdog (pc : Nat)
  /-- CONFIG_STORE_WRITE (R432). Horest writes changed N values to the configuration store within 1 s, at most once per second. -/
  | configStoreWrite
  /-- FW_STAGE_BEGIN (R441). Checks envelope and header and opens staging into a slot. -/
  | fwStageBegin (r : Req)
  /-- FW_STAGE_DATA (R442). Erases and programs image bytes at STAGED_BYTES. -/
  | fwStageData (r : Req)
  /-- FW_STAGE_END (R443). Reads the slot back and verifies hash and signature, making it STAGED or INVALID. -/
  | fwStageEnd (r : Req)
  /-- FW_STAGE_TIMEOUT (R441). A staging left without a command for MG_TXN_TIMEOUT is abandoned and the slot becomes INVALID. -/
  | fwStageTimeout
  /-- FW_ACTIVATE_PENDING (R444). FW_ACTIVATE mode 0 makes a STAGED slot PENDING. -/
  | fwActivatePending (r : Req)
  /-- FW_ACTIVATE_RESET (R444). FW_ACTIVATE mode 1 makes the slot PENDING and warm-resets within 10 ms. -/
  | fwActivateReset (r : Req)
  /-- FW_ACTIVATE_AT (R444). FW_ACTIVATE mode 2 makes the slot PENDING and schedules a warm reset at TIME. -/
  | fwActivateAt (r : Req)
  /-- FW_ACTIVATE_TIME_REACHED (R444). The scheduled activation boundary arrives and a warm reset starts. -/
  | fwActivateTimeReached
  /-- FW_ACTIVATE_CONFIRM (R444). FW_ACTIVATE mode 3 confirms the running TRIAL slot. -/
  | fwActivateConfirm (r : Req)
  /-- FW_ACTIVATE_FLOOR (R444). FW_ACTIVATE mode 4 raises the rollback floor from a CONFIRMED image. -/
  | fwActivateFloor (r : Req)
  /-- FW_ACTIVATE_CANCEL (R444). FW_ACTIVATE mode 5 returns a PENDING slot to STAGED and cancels its schedule. -/
  | fwActivateCancel (r : Req)
  /-- FW_CONFIRM_TIMER (R434). FULL_SERVICE held for MG_FW_CONFIRM_TIME confirms a TRIAL image. -/
  | fwConfirmTimer
  /-- FW_STATUS (R445). Returns the running slot, floor and state of every slot. -/
  | fwStatus (r : Req)
  /-- SENSOR_SAMPLE (R450). Sensors are read every 100 µs or 1 ms, and faulted sensors are set aside with SENSOR_FAULT. -/
  | sensorSample (kind : Nat) (idx : Nat) (value : Int)
  /-- SENSOR_READ (R451). Returns the values and flags of a range of sensors. -/
  | sensorRead (r : Req)
  /-- LOG_READ (R449). Returns a snapshot of Lint records in SEQ order from one copy. -/
  | logRead (r : Req)
  /-- LOG_CLEAR (R449). Clears the selected Lint log copies without resetting SEQ. -/
  | logClear (r : Req)
  /-- LINT_FLASH_WRITE (R448). Qualifying records are written to the flash mirror within the rate limit, deferred on VBACK. -/
  | lintFlashWrite
  /-- COUNTER_READ (R457). Returns one counter's flags, value and sample time. -/
  | counterRead (r : Req)
  /-- COUNTER_CLEAR_LIST (R458). COUNTER_CLEAR MODE 0 clears the listed counters one by one. -/
  | counterClearList (r : Req)
  /-- COUNTER_CLEAR_GROUPS (R458). COUNTER_CLEAR MODE 1 clears every counter of the groups in GROUP_MASK. -/
  | counterClearGroups (r : Req)
  /-- COUNTER_SELECT_REPLACE (R456). COUNTER_SELECT OP 0 replaces the enabled set. -/
  | counterSelectReplace (r : Req)
  /-- COUNTER_SELECT_ADD (R456). COUNTER_SELECT OP 1 adds IDs to the enabled set. -/
  | counterSelectAdd (r : Req)
  /-- COUNTER_SELECT_REMOVE (R456). COUNTER_SELECT OP 2 removes IDs from the enabled set. -/
  | counterSelectRemove (r : Req)
  /-- PRESS_STOP (R459). PRESS_CONTROL OP 0 stops Press. -/
  | pressStop (r : Req)
  /-- PRESS_START (R459). PRESS_CONTROL OP 1 starts Press at START with PERIOD and SLOTS. -/
  | pressStart (r : Req)
  /-- PRESS_READ (R459). PRESS_CONTROL OP 2 returns bytes of a DRAM Press record. -/
  | pressRead (r : Req)
  /-- PRESS_LATCH (R460). At each Press instant every enabled counter latches together and a record is written, or a gap counted. -/
  | pressLatch
  /-- BW_WINDOW_END (R461). At each bandwidth window boundary the last and peak window counters update. -/
  | bwWindowEnd (port : Nat)
  /-- SAMPLE_CAPTURE (R462). A watched counter passing a multiple of CT_SAMPLE_EVERY captures a cell header and delivers SAMPLE_READY. -/
  | sampleCapture (sampler : Nat) (hdr : Nat)
  /-- AON_POWER_UP (R483). I-AON out of power-on reset with a good input runs the DRAM_EN and PMIC_EN sequence to reset release. -/
  | aonPowerUp (main : Nat) (back : Nat) (straps : Nat)
  /-- PMIC_PG_TIMEOUT (R483). PMIC_PG not high within 100 ms drops both enables, logs and retries after 1 s. -/
  | pmicPgTimeout
  /-- PMIC_PG_FALL (R484). PMIC_PG falling for 10 µs with PMIC_EN high is a tamper source 2 alarm with reset. -/
  | pmicPgFall
  /-- POWER_FAIL (R486). VCOM below 7.0 V for 1 µs with no good input, or below 6.0 V, makes a cold reset and shutdown. -/
  | powerFail (mv : Nat)
  /-- SOURCE_CAPABILITIES_RX (R321). A port in Sink role receives the partner's Source_Capabilities and requests the highest fixed PDO of 20 V or less that offers TC_SINK_MAX_CURRENT, or 5 V. -/
  | sourceCapabilitiesRx (tc : Nat) (pdos : Pdos)
  /-- PS_RDY_RX (R320). The partner's PS_RDY completes a PR_Swap or a sink contract, so the port changes power role or drives TCn_SNK_EN and records the contract. -/
  | psRdyRx (tc : Nat)
  /-- T_SRC_RECOVER_END (R323). tSrcRecover of 700 ms ends after a Hard Reset discharge, and a port whose attach-time role is Source applies vSafe5V. -/
  | tSrcRecoverEnd (tc : Nat)
  /-- EPR_KEEPALIVE_RX (R319). An EPR_KeepAlive from the sink in EPR Mode is answered under PD Revision 3.1. -/
  | eprKeepaliveRx (tc : Nat)
  /-- UNSUPPORTED_PD_MESSAGE_RX (R310). A PD message that the port does not support arrives and is answered Not_Supported. -/
  | unsupportedPdMessageRx (tc : Nat) (msg : Nat)
  /-- STRUCTURED_VDM_RESPONSE_RX (R325). A Discover Identity (SOP or SOP'), Discover SVIDs, Discover Modes or Enter Mode response sets the cable ceiling or moves Alt Mode entry on towards Configure. -/
  | structuredVdmResponseRx (tc : Nat) (resp : Vdm)
  /-- TAG_FILL_DONE (R398). A page-colour fill of up to 64 µs completes, and the SPACE 0 checks waiting at the guard proceed under the filled colours. -/
  | tagFillDone
  /-- RESUME_RECOVERY_END (R302). The 20 ms of resume signalling and 10 ms of recovery, or the U3 exit, end and the waiting transfer starts on the resumed port. -/
  | resumeRecoveryEnd (up : Nat)
deriving DecidableEq, Repr

end Sys2Proof
end

