-- ==== Sys2Proof/WellFormed.lean ====
section
/-!
DEFINITION. Well-formedness of commands: every operand lies in the range its field has in the spec (four mailboxes R30,
three ports R68, ten switch ports R136, 1,024 tunnel entries R111, 4,095 node IDs R18, and so on).  An ill-formed
command names nothing the hub has.
-/
namespace Sys2Proof

/-- The header fields of a request fit the widths of R39. -/
def Req.wf (r : Req) : Bool :=
  r.mb < 4 && r.seq < 65536 && r.length < 65536 && r.flags < 65536 && r.txn < 2 ^ 32 && r.status < 2 ^ 32 && r.entry < 1025

/-- The fields of a cell fit the widths of R103, and the payload has LEN bytes. -/
def Cell.wf (c : Cell) : Bool :=
  c.cls < 4 && c.kind < 16 && c.dest < 4096 && c.src < 4096 && c.tid < 65536 && c.seq < 65536 && c.rail < 2 &&
    c.hops < 8192 && c.payload.length < 257

/-- Both lanes bring one codeword of 544 or 5,440 bits: as many symbols in NRZ, half as many in PAM4. -/
def Words.wf (w : Words) : Bool := w.lane0.length == w.lane1.length && [272, 544, 2720, 5440].contains w.lane0.length

/-- A delivered frame names an entry of the tunnel table, or 1,024 for none. -/
def Frame.wf (f : Frame) : Bool := f.entry < 1025 && f.src < 4096

/-- A READ frame's frame is well formed. -/
def ReadFrame.wf (f : ReadFrame) : Bool := f.frame.wf

/-- A port has two lanes. -/
def LaneRun.wf (r : LaneRun) : Bool := r.lane < 2

/-- A side frame of one of the three ports has 108 bits. -/
def SideFrame.wf (f : SideFrame) : Bool := f.port < 3 && f.bits < 2 ^ 108

/-- An Ethernet frame has at most 16,384 bytes on the wire. -/
def EthFrame.wf (f : EthFrame) : Bool := f.bytes.length < 16385

/-- A PCIe request stays within a 64-bit address space. -/
def PcieReq.wf (q : PcieReq) : Bool := q.addr < 2 ^ 64 && q.len < 4097 && q.bar < 6

/-- The response names one of the discovery steps of R325. -/
def Vdm.wf (v : Vdm) : Bool := v.step < 6

/-- The fields of a control request fit their widths. -/
def Setup.wf (q : Setup) : Bool := q.type < 256 && q.request < 256 && q.value < 65536 && q.index < 65536 && q.length < 65536

/-- A USB address has 7 bits. -/
def SvcBus.wf (b : SvcBus) : Bool := b.address < 128

/-- One of the four stages, and a bRequest of one byte. -/
def SvcCut.wf (c : SvcCut) : Bool := c.stage < 4 && c.request < 256

/-- There are five fuse channels. -/
def FuseVolts.wf (f : FuseVolts) : Bool := f.ch < 5

/-- There are five fuse channels. -/
def FuseSample.wf (f : FuseSample) : Bool := f.ch < 5

/-- There are five fuse channels. -/
def FuseOut.wf (f : FuseOut) : Bool := f.ch < 5

/-- There are five fuse channels. -/
def FuseAmps.wf (f : FuseAmps) : Bool := f.ch < 5

/-- A Source_Capabilities message holds at most seven fixed PDOs. -/
def Pdos.wf (p : Pdos) : Bool := p.pdos.length < 8

/-- The command is well formed. -/
def Instr.wf : Instr → Bool
  | .identify r => r.wf
  | .paramGet r => r.wf
  | .paramSet r => r.wf
  | .paramList r => r.wf
  | .systemReset r => r.wf
  | .echo r => r.wf
  | .unknownCommand cmd r => cmd < 65536 && r.wf
  | .msgShort mb _ => mb < 4
  | .txnBegin r => r.wf
  | .txnCommit r => r.wf
  | .txnCommitAt r => r.wf
  | .txnAbort r => r.wf
  | .txnStatus r => r.wf
  | .txnTimeout mb => mb < 4
  | .txnScheduledApply mb => mb < 4
  | .txnCommitDone token => token < 2 ^ 64
  | .stepStatus r => r.wf
  | .stepCancel r => r.wf
  | .longOpStep progress => progress < 100
  | .pairTimeout pid inst => pid < 65536 && inst < 65536
  | .doorbell mb => mb < 4
  | .ringPoll mb => mb < 4
  | .mbReset mb => mb < 4
  | .rspHeadWrite mb idx => mb < 4 && idx < 65536
  | .mb0ReturnSend => true
  | .intStatusClear mask => mask < 2 ^ 64
  | .intForce mask => mask < 2 ^ 64
  | .ltimeRead => true
  | .registerWrite _ _ value => value < 2 ^ 64
  | .heartbeat => true
  | .tableRead r => r.wf
  | .tableWrite r => r.wf
  | .tableLoad r => r.wf
  | .tableLoadDone token => token < 2 ^ 64
  | .tableClear r => r.wf
  | .signalDetect port => port < 3
  | .identDone port _ => port < 3
  | .identTimeout port => port < 3
  | .trainDone port => port < 3
  | .trainTimeout port => port < 3
  | .trainFailWaitEnd port => port < 3
  | .trainSignalLoss port => port < 3
  | .measureDone port _ => port < 3
  | .measureTimeout port => port < 3
  | .measureAbandon port => port < 3
  | .codewordLock port run => port < 3 && run.wf
  | .portSignalLoss port => port < 3
  | .lockLoss port run => port < 3 && run.wf
  | .heldSignalLoss port => port < 3
  | .lnEnableWrite port v => port < 3 && v < 2 ^ 64
  | .lnRetrain port v => port < 3 && v < 2 ^ 64
  | .trainFrameRx port _ => port < 3
  | .statusFrameRx port _ => port < 3
  | .sideFrameBad f => f.wf
  | .statusTx port => port < 3
  | .blockRx port words => port < 3 && words.wf
  | .darnAckTx port => port < 3
  | .darnNakRepeat port => port < 3
  | .darnAck port seq => port < 3 && seq < 65536
  | .darnNak port seq _ => port < 3 && seq < 65536
  | .darnReplay port seq => port < 3 && seq < 65536
  | .darnReplayTimeout port => port < 3
  | .linkLocalBad port cell => port < 3 && cell.wf
  | .marginMeasure port lane v _ => port < 3 && lane < 2 && v < 2 ^ 64
  | .degradeWindow port lane _ _ _ => port < 3 && lane < 2
  | .tailWait => true
  | .lineCellRx port cell => port < 3 && cell.wf
  | .tunnelCellRx out cls => out < 10 && cls < 4
  | .resyncRx entry cell => entry < 1024 && cell.wf
  | .tunnelControlRx entry cell => entry < 1024 && cell.wf
  | .gapWaitExpire entry _ => entry < 1024
  | .reasmTimeout entry _ => entry < 1024
  | .frameSend out entry _ _ => out < 10 && entry < 1024
  | .shaperRelease entry => entry < 1024
  | .discardEntryExpire buf => buf < 4
  | .outputCellSend out => out < 10
  | .creditTx port => port < 3
  | .creditRx port cls limit => port < 3 && cls < 4 && limit < 2 ^ 64
  | .creditStall port cls => port < 3 && cls < 4
  | .allotBoundary => true
  | .epochArm mb v => mb < 4 && v < 2 ^ 64
  | .epochCopyTx => true
  | .epochCancel mb id => mb < 4 && id < 2 ^ 64
  | .epochRx port cell => port < 3 && cell.wf
  | .epochCancelRx port cell => port < 3 && cell.wf
  | .epochSwap => true
  | .govEvaluate _ => true
  | .govDwellExpire => true
  | .detourCtrlTx => true
  | .detourCtrlRx _ => true
  | .detourReleaseStart port => port < 3
  | .detourQuietEnd port => port < 3
  | .lineStateTx port _ => port < 3
  | .lineStateRx port _ => port < 3
  | .rlReenumerate mb v => mb < 4 && v < 2 ^ 64
  | .syncTx port _ => port < 3
  | .syncRx port _ _ _ => port < 3
  | .delayReqTx port _ => port < 3
  | .delayReqRx port _ _ _ => port < 3
  | .delayRespTx port _ => port < 3
  | .delayRespRx port _ _ _ => port < 3
  | .holdoverExpire => true
  | .rlTimeStep mb v => mb < 4 && v < 2 ^ 64
  | .ppsPulse => true
  | .ppsEnd => true
  | .tcapEdge inp _ _ => inp < 2
  | .tcapRead inp => inp < 2
  | .deDispatch => true
  | .decisionFrameRx f => f.wf
  | .gpioEdge pin _ _ => pin < 32
  | .actuateRx f => f.wf
  | .edgeReportRx f => f.wf
  | .actuateDue pin => pin < 32
  | .pulseEnd pin => pin < 32
  | .deBankLoad r => r.wf
  | .deBankLoadDone token => token < 2 ^ 64
  | .deBankCheck r => r.wf
  | .deBankCheckDone token => token < 2 ^ 64
  | .deBankStatus r => r.wf
  | .deLookup r => r.wf
  | .apertureRequest q => q.wf
  | .windowWriteRx f => f.wf
  | .windowWriteNpRx f => f.wf
  | .windowReadRx f => f.wf
  | .targetCompletion id _ _ => id < 2 ^ 64
  | .windowCompletionRx f => f.wf
  | .windowWriteAckRx f => f.wf
  | .windowFrameBad f => f.wf
  | .cplTimeout _ => true
  | .prefetchExpire win => win < 64
  | .noticeSend _ _ win => win < 64
  | .writeErrorNoticeRx cell => cell.wf
  | .pcieIslandReset _ => true
  | .pcieLink _ _ _ => true
  | .intxDrop => true
  | .brLinkReset mb v => mb < 4 && v < 2 ^ 64
  | .brPwerrClear mb v => mb < 4 && v < 2 ^ 64
  | .brPwerrOverflowRead mb => mb < 4
  | .ethFrameRx eth f => eth < 4 && f.wf
  | .pauseExpire eth => eth < 4
  | .ethRxAdmit eth => eth < 4
  | .pauseTx eth => eth < 4
  | .pauseRepeat eth => eth < 4
  | .ethFrameTx f => f.wf
  | .ethPortRestart eth _ _ => eth < 4
  | .ethLink eth _ => eth < 4
  | .transfer f => f.wf
  | .usbTransferComplete up _ _ _ => up < 8
  | .powerOn f => f.wf
  | .powerOff f => f.wf
  | .reset f => f.wf
  | .suspend f => f.wf
  | .resume f => f.wf
  | .status f => f.wf
  | .abort f => f.wf
  | .usbMsgBad f => f.wf
  | .usRingPoll => true
  | .usbOvercurrent up => up < 8
  | .usbIdleSuspend up => up < 8
  | .usbRemoteWake up => up < 8
  | .usbAttach up _ _ => up < 8
  | .bindingPoll idx => idx < 65536
  | .usbReport idx _ => idx < 65536
  | .sofMicroframe => true
  | .usbPortControl r => r.wf
  | .svcAttach bus => bus.wf
  | .svcRequest _ => true
  | .regRead setup => setup.wf
  | .regWrite setup value => setup.wf && value < 2 ^ 64
  | .svcMbReset => true
  | .getIdentity => true
  | .svcBusReset cut => cut.wf
  | .tcEnableWrite tc v => tc < 4 && v < 2 ^ 64
  | .tcTermination tc _ _ => tc < 4
  | .tcDebounceDone tc => tc < 4
  | .tcCcOpen tc => tc < 4
  | .tcPdDebounceDone tc => tc < 4
  | .tcVsafe0 tc => tc < 4
  | .tcRequestRx tc _ _ => tc < 4
  | .tcPowerGood tc => tc < 4
  | .tcEprEnterRx tc _ => tc < 4
  | .tcPrSwapRx tc => tc < 4
  | .tcDrSwapRx tc => tc < 4
  | .tcVconnSwapRx tc => tc < 4
  | .tcHardResetRx tc => tc < 4
  | .tcReoffer tc => tc < 4
  | .tcSenderResponseTimeout tc => tc < 4
  | .tcSinkDisconnect tc => tc < 4
  | .tcVconnFault tc => tc < 4
  | .tcErrorRecoveryEnd tc => tc < 4
  | .tcAltMode tc _ => tc < 4
  | .tcAttentionRx tc _ _ => tc < 4
  | .tcSendHardReset r => r.wf
  | .tcRequestPrSwap r => r.wf
  | .tcRequestDrSwap r => r.wf
  | .tcRequestVconnSwap r => r.wf
  | .tcReofferCapabilities r => r.wf
  | .tcExitAltMode r => r.wf
  | .tcPortStatus r => r.wf
  | .dsLinePacket f => f.wf
  | .dsPpsRx entry cell => entry < 1024 && cell.wf
  | .dsFrameBoundary head => head < 2
  | .dsUnderrun head _ _ => head < 2
  | .dsHpd head _ _ _ => head < 2
  | .dsRouteWrite mb head v => mb < 4 && head < 2 && v < 2 ^ 64
  | .dsSignatureRead r => r.wf
  | .dsAlarmClear r => r.wf
  | .supplySwitch inp _ => inp < 2
  | .supplyBothBad _ => true
  | .supplyReturn => true
  | .idealDiodeOff inp => inp < 2
  | .fuseRampDone f => f.wf
  | .fuseLimitEngage f => f.wf
  | .fuseLimitRelease f => f.wf
  | .faultTimerClear ch => ch < 5
  | .faultTimerTrip ch => ch < 5
  | .soaTrip ch => ch < 5
  | .curveTrip ch _ => ch < 5
  | .fastTrip f => f.wf
  | .fuseBackoffEnd ch => ch < 5
  | .fusePgAssert ch => ch < 5
  | .fusePgHoldEnd ch => ch < 5
  | .fuseRetryClear ch => ch < 5
  | .fuseInputLost _ => true
  | .fuseInputRestored _ => true
  | .fuEnableWrite mb v => mb < 4 && v < 2 ^ 64
  | .fuseRetry r => r.wf
  | .supplySkew cross _ _ => cross < 24
  | .skewRelease cross _ _ => cross < 24
  | .seamReset cross isl _ => cross < 24 && isl < 12
  | .seamRelease cross => cross < 24
  | .clockRequest isl => isl < 12
  | .aonTrim _ _ => true
  | .pwrEnterRun r => r.wf
  | .pwrEnterDoze r => r.wf
  | .pwrEnterRest r => r.wf
  | .pwrEntryDone => true
  | .foldArmedEntry => true
  | .wakeEvent _ => true
  | .wakeOutEnd => true
  | .pwrStatus r => r.wf
  | .lineFold r => r.wf
  | .foldPace => true
  | .foldTimeout => true
  | .lineUnfold r => r.wf
  | .thermalShutdown sensor _ => sensor < 24
  | .thermalRestart => true
  | .resetNPulse _ => true
  | .resetNLong => true
  | .warmReset _ _ => true
  | .pwIslandReset mb isl => mb < 4 && isl < 12
  | .tagFill mb v => mb < 4 && v < 2 ^ 64
  | .guardDrainTimeout => true
  | .guardDrained => true
  | .debugAccess _ _ _ _ _ => true
  | .agViolClear mb v => mb < 4 && v < 2 ^ 64
  | .agViolOverflowRead mb => mb < 4
  | .keyUpdateWrite r => r.wf
  | .keyUpdateErase r => r.wf
  | .keyUpdateDone token => token < 2 ^ 64
  | .keyStatus r => r.wf
  | .lcTransition r => r.wf
  | .debugUnlock r => r.wf
  | .debugUnlockEnd => true
  | .tamperAlarm _ => true
  | .tamperConditionEnd _ => true
  | .tamperRinseDone => true
  | .kyTamperClear mb v => mb < 4 && v < 2 ^ 64
  | .bootRomStart => true
  | .horestStart => true
  | .fullService => true
  | .watchdog _ => true
  | .configStoreWrite => true
  | .fwStageBegin r => r.wf
  | .fwStageData r => r.wf
  | .fwStageEnd r => r.wf
  | .fwStageTimeout => true
  | .fwActivatePending r => r.wf
  | .fwActivateReset r => r.wf
  | .fwActivateAt r => r.wf
  | .fwActivateTimeReached => true
  | .fwActivateConfirm r => r.wf
  | .fwActivateFloor r => r.wf
  | .fwActivateCancel r => r.wf
  | .fwConfirmTimer => true
  | .fwStatus r => r.wf
  | .sensorSample _ idx _ => idx < 65536
  | .sensorRead r => r.wf
  | .logRead r => r.wf
  | .logClear r => r.wf
  | .lintFlashWrite => true
  | .counterRead r => r.wf
  | .counterClearList r => r.wf
  | .counterClearGroups r => r.wf
  | .counterSelectReplace r => r.wf
  | .counterSelectAdd r => r.wf
  | .counterSelectRemove r => r.wf
  | .pressStop r => r.wf
  | .pressStart r => r.wf
  | .pressRead r => r.wf
  | .pressLatch => true
  | .bwWindowEnd port => port < 3
  | .sampleCapture sampler _ => sampler < 4
  | .aonPowerUp _ _ _ => true
  | .pmicPgTimeout => true
  | .pmicPgFall => true
  | .powerFail _ => true
  | .sourceCapabilitiesRx tc pdos => tc < 4 && pdos.wf
  | .psRdyRx tc => tc < 4
  | .tSrcRecoverEnd tc => tc < 4
  | .eprKeepaliveRx tc => tc < 4
  | .unsupportedPdMessageRx tc _ => tc < 4
  | .structuredVdmResponseRx tc resp => tc < 4 && resp.wf
  | .tagFillDone => true
  | .resumeRecoveryEnd up => up < 8

end Sys2Proof
end

