-- ==== Sys2Proof/Decode.lean ====
section
/-!
DEFINITION. Command words.  The spec's table of operations and events gives no row a bit pattern: commands reach the hub as
messages, cells, pins and timers, whose byte layouts the meanings read (`Machine/Operands.lean`, `Machine/Cells.lean`).
-/
namespace Sys2Proof

/-- The command a word spells by the table's bits: the table gives none, so no word spells one. -/
def decodeTableWord (nbits w : Nat) : Option Instr :=
  match nbits, w with
  | _, _ => none

end Sys2Proof
end

