-- ==== Sys2Proof/Config.lean ====
section
/-!
DEFINITION. What an implementation fixes, and the free values: constants without a body, so that nothing can be proved of a value
of theirs.  The cryptographic primitives are here because the spec names them by outside standards; device ID, firmware version
and the like because each device carries its own.
-/
namespace Sys2Proof.Config

/-- The 256-bit device secret fused at manufacture (R410, log 5). -/
opaque deviceSecret : BitVec 256

/-- SHA-384 of the boot ROM, M_ROM (R410, log 5). -/
opaque romMeasure : BitVec 384

/-- The Avden firmware authority hash fused at manufacture (R440, log 5). -/
opaque firmwareAuthority : BitVec 384

/-- SHA-384 of FIPS 180-4, as R415 and R436 name it (log 6). -/
opaque sha384 : List Byte → BitVec 384

/-- ECDSA P-384 verification of R415: public key, message digest, signature (log 6). -/
opaque ecdsaVerify : List Byte → BitVec 384 → List Byte → Bool

/-- HKDF of R410, RFC 5869 over SHA-384: input key material, salt, info and the number of bytes (log 6). -/
opaque hkdf : List Byte → List Byte → List Byte → Nat → List Byte

/-- HMAC-SHA-384 of RFC 2104, as R413 names it: key and message (log 6). -/
opaque hmac384 : List Byte → List Byte → BitVec 384

/-- The P-384 public key X ‖ Y of a private scalar (R411, log 6). -/
opaque p384Public : Nat → BitVec 768

/-- The x-coordinate, 48 bytes, of ECDH between a private scalar and a public key (R410, log 6). -/
opaque p384Shared : Nat → List Byte → List Byte

/-- Unwrapping under RFC 3394 (R413, R416): key and wrapped key; none when the check value fails (log 6). -/
opaque unwrap : BitVec 256 → List Byte → Option (BitVec 256)

/-- Wrapping under RFC 3394 (R413): key and plain key (log 6). -/
opaque wrap : BitVec 256 → BitVec 256 → List Byte

/-- AES-256-GCM sealing of R132: key, IV, additional data and plaintext to ciphertext and 16-byte tag (log 6). -/
opaque gcmSeal : BitVec 256 → List Byte → List Byte → List Byte → List Byte

/-- AES-256-GCM opening of R134: key, IV, additional data, ciphertext with its tag; none when the tag fails (log 6). -/
opaque gcmOpen : BitVec 256 → List Byte → List Byte → List Byte → Option (List Byte)

/-- A value the spec leaves open, by the number of its use (log 7). -/
opaque free : Nat → Nat

/-- How many of n flits freed at once cross by the first of a pool's two Count Seams, by how many were freed before (R366, log 130). -/
opaque seamSplit : Nat → Nat → Nat

/-- How USB_PORT_CONTROL's payload is read (R45: the spec does not define it): a port and a PORT_CMD of R297, or none when the
payload is malformed (log 8). -/
opaque usbPortControl : List Byte → Option (Nat × Nat)

/-- VESA DSC 1.2a decoding of R331: the PPS, the DSC payloads of the frame's lines so far, this line's among them, and the pixel line; each
pixel as the 4-byte word of R331 (log 20). -/
opaque dscLine : List Byte → List (List Byte) → Nat → List Nat

end Sys2Proof.Config
end

