-- ==== Sys2Proof/Machine/Bits.lean ====
section
/-!
DEFINITION. Bit fields, byte orders, signs and the cyclic checks of the spec (R6, R7, R82, R104, R106, R339).
-/
namespace Sys2Proof.Machine

/-- Bits [lo + w − 1 : lo] of a value. -/
def bits (v lo w : Nat) : Nat := v / 2 ^ lo % 2 ^ w

/-- Bit i of a value. -/
def bit (v i : Nat) : Bool := Nat.testBit v i

/-- A Bool as a one-bit number. -/
def b2n (b : Bool) : Nat := if b then 1 else 0

/-- The value with bit i set or cleared. -/
def setBit (v i : Nat) (b : Bool) : Nat :=
  if bit v i = b then v else if b then v + 2 ^ i else v - 2 ^ i

/-- A byte from a number. -/
def byte (n : Nat) : Byte := BitVec.ofNat 8 n

/-- The number a string of bytes stands for, least significant byte first (R7). -/
def leNat : List Byte → Nat
  | [] => 0
  | b :: bs => b.toNat + 256 * leNat bs

/-- n bytes of a number, least significant byte first. -/
def leBytes : Nat → Nat → List Byte
  | 0, _ => []
  | n + 1, v => byte v :: leBytes n (v / 256)

/-- n bytes of a number, most significant byte first (R6). -/
def beBytes (n v : Nat) : List Byte := (leBytes n v).reverse

/-- The number a string of bytes stands for, most significant byte first. -/
def beNat (bs : List Byte) : Nat := leNat bs.reverse

/-- n bytes from offset o of a string, zeros past its end. -/
def slice (bs : List Byte) (o n : Nat) : List Byte :=
  let t := (bs.drop o).take n
  t ++ List.replicate (n - t.length) 0#8

/-- Little-endian field of n bytes at offset o. -/
def le (bs : List Byte) (o n : Nat) : Nat := leNat (slice bs o n)

/-- Wire-order field of n bytes at offset o. -/
def be (bs : List Byte) (o n : Nat) : Nat := beNat (slice bs o n)

/-- Byte i of a string, 0 past its end. -/
def byteAt (bs : List Byte) (i : Nat) : Nat := ((bs.drop i).headD 0#8).toNat

/-- Every byte of the string is 0. -/
def allZero (bs : List Byte) : Bool := bs.all (· == 0#8)

/-- The bytes, padded with zeros or cut to n. -/
def fit (n : Nat) (bs : List Byte) : List Byte := slice bs 0 n

/-- The signed number that a w-bit two's complement value stands for. -/
def toSigned (w v : Nat) : Int :=
  let m := v % 2 ^ w
  if 2 * m < 2 ^ w then m else (m : Int) - 2 ^ w

/-- The w-bit two's complement of a number. -/
def ofSigned (w : Nat) (i : Int) : Nat := (i % (2 ^ w : Int)).toNat

/-- One bit of a CRC that shifts left. -/
def crcBit (w poly c : Nat) (b : Bool) : Nat :=
  let top := bit c (w - 1)
  let s := c * 2 % 2 ^ w
  if top != b then s ^^^ poly else s

/-- The bits of a byte, most significant first. -/
def byteBits (b : Byte) : List Bool := [7, 6, 5, 4, 3, 2, 1, 0].map (bit b.toNat)

/-- A CRC without reflection over a string of bytes. -/
def crcBytes (w poly init : Nat) (bs : List Byte) : Nat :=
  bs.foldl (fun c b => (byteBits b).foldl (crcBit w poly) c) init

/-- HCRC (R104): CRC-16, polynomial 0x1021, initial value 0xFFFF. -/
def crc16 (bs : List Byte) : Nat := crcBytes 16 0x1021 0xFFFF bs

/-- One bit of a reflected CRC. -/
def crcRBit (poly c : Nat) : Nat := if c % 2 = 1 then (c / 2) ^^^ poly else c / 2

/-- One byte of a reflected CRC. -/
def crcRByte (poly c : Nat) (b : Byte) : Nat :=
  let x := c ^^^ b.toNat
  crcRBit poly (crcRBit poly (crcRBit poly (crcRBit poly (crcRBit poly (crcRBit poly (crcRBit poly (crcRBit poly x)))))))

/-- The running register of a reflected CRC over a string of bytes. -/
def crcRun (poly c : Nat) (bs : List Byte) : Nat := bs.foldl (crcRByte poly) c

/-- The reflected form of polynomial 0x1EDC_6F41. -/
def poly32c : Nat := 0x82F63B78

/-- The reflected form of polynomial 0x04C1_1DB7. -/
def poly32 : Nat := 0xEDB88320

/-- CRC-32C (R106): reflected, initial value and final XOR 0xFFFF_FFFF. -/
def crc32c (bs : List Byte) : Nat := crcRun poly32c 0xFFFFFFFF bs ^^^ 0xFFFFFFFF

/-- The CRC-32 of IEEE 802.3 (R339, and the FCS of R281). -/
def crc32 (bs : List Byte) : Nat := crcRun poly32 0xFFFFFFFF bs ^^^ 0xFFFFFFFF

/-- n zero bytes fed to a reflected CRC register, by squaring the map "one zero byte" over GF(2): the map is linear, so it is
held as the images of the 32 single bits. -/
def crcMapApply (m : List Nat) (c : Nat) : Nat :=
  (m.foldl (fun (a : Nat × Nat) x => (if a.2 % 2 = 1 then a.1 ^^^ x else a.1, a.2 / 2)) (0, c)).1

/-- The images of the 32 single bits under one zero byte. -/
def crcZeroMap (poly : Nat) : List Nat := (List.range 32).map (fun i => crcRByte poly (2 ^ i) 0#8)

/-- The register after n zero bytes; `fuel` bounds the binary digits of n. -/
def crcZeros : Nat → List Nat → Nat → Nat → Nat
  | 0, _, _, c => c
  | fuel + 1, m, n, c =>
    if n = 0 then c
    else crcZeros fuel (m.map (crcMapApply m)) (n / 2) (if n % 2 = 1 then crcMapApply m c else c)

/-- SFCRC (R82): CRC-8, polynomial 0x07, initial value 0, over the TYPE nibble and the payload. -/
def crc8 (type : Nat) (payload : List Byte) : Nat :=
  let c := [3, 2, 1, 0].foldl (fun c i => crcBit 8 0x07 c (bit type i)) 0
  payload.foldl (fun c b => (byteBits b).foldl (crcBit 8 0x07) c) c

/-- The ceiling of a / b. -/
def ceilDiv (a b : Nat) : Nat := (a + b - 1) / b

/-- The least multiple of m at or above n. -/
def roundUp (n m : Nat) : Nat := ceilDiv n m * m

/-- Addition that stops at the greatest w-bit number. -/
def satAdd (w a b : Nat) : Nat := min (a + b) (2 ^ w - 1)

end Sys2Proof.Machine
end

