-- ==== Sys2Proof/Machine/State.lean ====
section
/-!
DEFINITION. The state of one PJ9240 line hub, as plain data.  `State` is the queue of waiting commands and the hub;
`Hub` holds every register, buffer, counter, mode and pin the spec gives the hub, chapter by chapter.  Scalars that are
parameters (R467) live in one map keyed by PID and instance unless a structured field holds them and the parameter is
computed from it (`Machine/ParamRead.lean` says which).
-/
namespace Sys2Proof.Machine

/-- A finite map from numbers, kept in one canonical form: keys strictly rising, no entry equal to what an unlisted key
reads as (`Machine/Maps.lean`). -/
abbrev Map (α : Type) := List (Nat × α)

/-- Why a command can stop.  No command of this hub stops with a fault: the spec gives every row an effect. -/
inductive Fault where
deriving DecidableEq, Repr

/-- Why a command has no meaning. -/
inductive Refusal where
  /-- Raised by a dispatch arm whose command has no meaning in the model yet.  Safe: the machine stops. -/
  | notModelled (mnemonic : String)
deriving DecidableEq, Repr

/-- Time as the hub keeps it: nanoseconds since power-on, and line time as nanoseconds and a fraction in 2⁻¹⁶ ns (R212). -/
structure Clock where
  up   : Nat
  ns   : Nat
  frac : Nat
deriving DecidableEq, Repr

/-- What the hub shows the outside world, in the order it shows it (the model's own record, no register). -/
inductive Output where
  /-- A cell leaves a switch output (R136 number). -/
  | cell (out : Nat) (c : Cell)
  /-- A side frame leaves a line or twin port: TYPE and 12 payload bytes (R82). -/
  | side (port type : Nat) (payload : List Byte)
  /-- A block sent again, or an unnumbered DARN_REPLAY or stall block (`none`) (R99). -/
  | block (port : Nat) (num : Option Nat)
  /-- A codeword pair leaves a line or twin port: the levels of lane 0 and of lane 1, in the order sent (R68, R73, R75). -/
  | lanes (port : Nat) (lane0 lane1 : List Int)
  /-- A message placed for the host of a mailbox (R39). -/
  | message (mb : Nat) (bytes : List Byte)
  /-- A pin changes level: its name and level. -/
  | pin (name : String) (level : Bool)
  /-- A group of pads is driven, or goes to high impedance (R387): its name and its number. -/
  | pads (group : String) (n : Nat) (driven : Bool)
  /-- A GPIO pin is driven (`some`) or released. -/
  | gpio (pin : Nat) (level : Option Bool)
  /-- An MSI-X vector is signalled (R35). -/
  | msix (vector : Nat)
  /-- A PCIe transaction the hub starts at its port: the target access it belongs to, guard space (1 memory, 2 configuration), address
  and length, and data of a write. -/
  | pcie (id space : Nat) (write : Bool) (addr len : Nat) (data : List Byte)
  /-- A completion towards a PCIe requester: its tag, a status (0 successful, 1 Completer Abort, 2 Unsupported
  Request) and data. -/
  | completion (tag status : Nat) (data : List Byte)
  /-- An Ethernet frame leaves a port. -/
  | eth (port : Nat) (bytes : List Byte)
  /-- An Ethernet port's auto-negotiation advertises a PAUSE ability, as EN_PAUSE has it (R280). -/
  | ethPause (port ability : Nat)
  /-- A USB transfer starts, or a bus action is taken, on a host port. -/
  | usb (port : Nat) (what : String) (data : List Byte)
  /-- Bytes leave the USB service port's endpoint. -/
  | svc (ep : Nat) (bytes : List Byte)
  /-- A PD message or CC action of a Type-C port. -/
  | pd (port : Nat) (what : String) (args : List Nat)
  /-- A head starts a scan or changes what it shows. -/
  | display (head : Nat) (what : String) (args : List Nat)
  /-- What the debug master reads back (R404): whether the access was done, and data. -/
  | debug (ok : Bool) (data : List Byte)
  /-- A power request to the board's supplies or a fuse gate action. -/
  | power (what : String) (args : List Nat)
deriving DecidableEq, Repr

/-- The host registers that hold a value of their own (R34). -/
structure HostRegs where
  intStatus : Nat
  intMask   : Nat
  ltHi      : Nat
  ltFrac    : Nat
  heartbeat : Nat
  scratch   : Nat
  /-- INT_STATUS sources that have counted while I-MGMT's clock stood still (R369, R370). -/
  late      : Nat
  /-- The INT_N pin: true while it is driven low (R35). -/
  intLow    : Bool
deriving DecidableEq, Repr

/-- A message waiting at a mailbox whose transport is frames or transfers (R30): its bytes, and for MB0 the tunnel entry that
delivered it. -/
structure RawMsg where
  bytes : List Byte
  entry : Nat
deriving DecidableEq, Repr

/-- One mailbox (R34 to R43). -/
structure Mailbox where
  ringOrder : Nat
  ringEn    : Bool
  base      : Nat
  reqTail   : Nat
  reqHead   : Nat
  rspTail   : Nat
  rspHead   : Nat
  /-- Frames or transfers not yet consumed (MB0 and MB3). -/
  waiting   : List RawMsg
  /-- The response held under R41. -/
  held      : Option (List Byte)
  /-- The entry that delivered the request of the held response (MB0, R493). -/
  heldEntry : Nat
  /-- Events queued under R43, oldest first. -/
  events    : List (List Byte)
  /-- Events dropped and not yet reported by EVENT_OVERFLOW. -/
  overflow  : Nat
  /-- The most recent request (R42): its SEQUENCE, its instant of consumption and its stored response. -/
  lastSeq   : Option Nat
  lastAt    : Nat
  stored    : List Byte
deriving DecidableEq, Repr

/-- An open first field of a coupled pair (R52, R53). -/
structure OpenPair where
  pid   : Nat
  inst  : Nat
  value : Nat
  mb    : Nat
  since : Nat
deriving DecidableEq, Repr

/-- A parameter item (R48). -/
structure ParamItem where
  pid   : Nat
  inst  : Nat
  value : Nat
deriving DecidableEq, Repr

/-- A table entry to be written: its table, index and contents as a little-endian number. -/
structure TableItem where
  table : Nat
  index : Nat
  value : Nat
deriving DecidableEq, Repr

/-- A staged command other than a parameter or table write (R45: COUNTER_SELECT and PRESS_CONTROL). -/
structure StagedCmd where
  code    : Nat
  payload : List Byte
deriving DecidableEq, Repr

/-- When a SCHEDULED transaction applies (R55, R58): T, its boundary, and its step token. -/
structure Schedule where
  t       : Nat
  instant : Nat
  token   : Nat
deriving DecidableEq, Repr

/-- A transaction (R55, R56). -/
structure Txn where
  id      : Nat
  mb      : Nat
  sched   : Option Schedule
  items   : List ParamItem
  entries : List TableItem
  cmds    : List StagedCmd
  lastCmd : Nat
deriving DecidableEq, Repr

/-- A finished transaction as R62 keeps it. -/
structure TxnRecord where
  id        : Nat
  mb        : Nat
  committed : Bool
  items     : Nat
  bytes     : Nat
  applied   : Nat
deriving DecidableEq, Repr

/-- A unit of work that began before a commit which touches its block (R60): the scan of a head; a transfer by port, tunnel entry and REQ_ID; a
bridge access by the TAG it is out with, by the number of an access served here, or a part of a request that has not left. -/
inductive WorkUnit where
  | scan (head : Nat)
  | xfer (port entry id : Nat)
  | out (tag : Nat)
  | served (id : Nat)
  | piece (ap addr read part : Nat)
deriving DecidableEq, Repr

/-- The OK of a TXN_COMMIT that waits for the units it touched, for at most 1 ms (R61): mailbox, SEQ and TXN_ID of the request, the entry its
answer goes by, the instant of the commit, and the units not over yet. -/
structure Owed where
  mb    : Nat
  seq   : Nat
  txn   : Nat
  entry : Nat
  at_   : Nat
  units : List WorkUnit
deriving DecidableEq, Repr

/-- What a pending long operation still has to do when its end is reached (R64). -/
inductive Pending where
  /-- A commit waiting for its blocks' boundaries (R61): the units not over yet, and the line time it applied. -/
  | commit (txn : Nat) (units : List WorkUnit) (applied : Nat)
  /-- A scheduled commit (R55). -/
  | scheduled (txn : Nat)
  /-- TABLE_LOAD or TABLE_CLEAR (R116): the payload, the transaction or 0, and the MB0 entry that delivered the request. -/
  | tableLoad (payload : List Byte) (txn entry : Nat)
  | tableClear (payload : List Byte) (txn : Nat)
  /-- A decision bank copy or check (R243). -/
  | bankLoad (bank src offset length crc : Nat)
  | bankCheck (bank : Nat)
  /-- A key, life-cycle or debug-unlock package whose checks are still to run (R417, R420, R422). -/
  | keyUpdate (package : List Byte)
  | lifeCycle (package : List Byte)
  | debugUnlock (package : List Byte)
  /-- FW_STAGE_DATA's payload; the end of a staging. -/
  | fwData (payload : List Byte)
  | fwEnd (signature : List Byte)
  /-- A power-state entry (1 DOZE, 2 REST), a fold in progress at a head, an unfold. -/
  | power (target : Nat)
  | fold | unfold
deriving DecidableEq, Repr

/-- A pending long operation (R64, R66). -/
structure LongOp where
  token   : Nat
  cmd     : Nat
  mb      : Nat
  percent : Nat
  work    : Pending
deriving DecidableEq, Repr

/-- The outcome of a finished long operation (R66): 1 DONE, 2 CANCELLED, 3 FAILED. -/
structure OpRecord where
  token  : Nat
  mb     : Nat
  state  : Nat
  status : Nat
deriving DecidableEq, Repr

/-- Mailboxes, transactions and long operations (chapter 02). -/
structure Control where
  regs      : HostRegs
  mbs       : List Mailbox
  /-- The MB2 message windows, offsets 0x8000 to 0xFFFF. -/
  window    : List Host.Cell
  pairs     : List OpenPair
  txns      : List Txn
  owed      : List Owed
  doneTxns  : List TxnRecord
  nextTxn   : Nat
  ops       : List LongOp
  doneOps   : List OpRecord
  nextToken : Nat
deriving DecidableEq, Repr

/-! ## Line and twin ports (chapter 03) -/

/-- The states of R85. -/
inductive LnState where
  | disabled | detect | ident | train | measure | up | held | quiet
deriving DecidableEq, Repr

/-- The rate modes of R68. -/
abbrev Mode := Nat

/-- What the partner's last TRAIN frame said (R83). -/
structure TrainInfo where
  portId      : Nat
  nodeId      : Nat
  rateMax     : Nat
  code        : Nat
  phase       : Nat
  target      : Nat
  pass        : Bool
  done        : Bool
  hasStored   : Bool
  storedShort : Bool
  tag         : Nat
  stepping    : Nat
deriving DecidableEq, Repr

/-- A stored choice of code (R89). -/
structure StoredChoice where
  tag   : Nat
  mode  : Mode
  short : Bool
deriving DecidableEq, Repr

/-- Cell delineation at a receiver (R79): the flits of the cell begun (none at a cell boundary), whether the receiver hunts, and
the flit number of the begun cell's header since the port reached UP. -/
structure Delin where
  part    : List (List Byte)
  hunting : Bool
  head    : Nat
deriving DecidableEq, Repr

/-- A flit on its way to a lane: idle fill, a flit of a cell, or a flit of a link-local cell, which the replay memory holds as idle (R97). -/
inductive Flit where
  | idle
  | data (bytes : List Byte)
  | own (bytes : List Byte)
deriving DecidableEq, Repr

/-- A codeword as a lane's receiver judged it (R80): its SYNC or POS, the place in the side frame where it was due, and whether it was
uncorrectable. -/
structure Judged where
  lead : Nat
  due  : Nat
  bad  : Bool
deriving DecidableEq, Repr

/-- One lane of a receiver: the last codewords, newest first (R80), the place of the next codeword in the side frame, and the descrambler's
register (R76). -/
structure LaneRx where
  seen : List Judged
  pos  : Nat
  reg  : Nat
deriving DecidableEq, Repr

/-- The transmitter of a port (R76 to R81): the blocks of the codeword pair being filled, the place of the next codeword in the side frame,
the two scramblers' registers, the side frame being sent with those behind it, and the PRBS31 register of idle flits. -/
structure PortTx where
  blocks : List (List (List Byte))
  pos    : Nat
  reg0   : Nat
  reg1   : Nat
  frame  : Nat
  queue  : List Nat
  prbs   : Nat
deriving DecidableEq, Repr

/-- The training part of a port. -/
structure PortTrain where
  partner  : Option TrainInfo
  goodRun  : Nat
  /-- Uptime of the last good TRAIN frame, or of the entry into IDENT (R85). -/
  lastGood : Nat
  /-- RESULT of the own TRAIN frames: MEASURE_PASS and MEASURE_DONE (R83, R87). -/
  pass     : Bool
  done     : Bool
  failed   : List Mode
  stored   : Option StoredChoice
  target   : Mode
  /-- The code agreed before TRAIN, if one is (R87). -/
  agreed   : Option Bool
  lock0    : Bool
  lock1    : Bool
  laneMap  : Nat
  hold     : Nat
  silent   : Bool
  /-- The 100 ms wait after the last mode failed (R85). -/
  failWait : Bool
  /-- LN_RATE_MAX, LN_CODE and LN_DARN_EN as they stood at the last entry into IDENT (R91), and the two pool sizes (R152). -/
  rateMax  : Nat
  code     : Nat
  darnEn   : Nat
  preset0  : Nat
  preset1  : Nat
  poolC2   : Nat
  poolC3   : Nat
deriving DecidableEq, Repr

/-- The receiver of a port. -/
structure PortRx where
  lane0     : LaneRx
  lane1     : LaneRx
  /-- The bits of the side frame being received and the codeword pairs they came in (R81). -/
  side      : Nat
  sideN     : Nat
  /-- Whole side frames not yet taken by a later command. -/
  frames    : List Nat
  delin     : Delin
  /-- The delineation of the blocks that Darn discards, for their link-local cells (R97). -/
  stray     : Delin
  /-- Checked cells not yet taken by a later command. -/
  cells     : List Cell
  /-- Number of the next block to take, counted since UP. -/
  next      : Nat
  /-- Flit number after the last delivered cell (R98 rule 4). -/
  delivered : Nat
  /-- A DARN_NAK is outstanding since this instant. -/
  nakAt     : Option Nat
  nakReason : Nat
  /-- The delineation at the start of each of the last blocks, for the restore of R98 rule 3. -/
  starts    : List (Nat × Delin)
  /-- Blocks since the last DARN_ACK, and the partner's STATUS flags: DARN_ON, run of RX_DOWN or GOING_DOWN. -/
  sinceAck  : Nat
  darnOn    : Bool
  badRun    : Nat
  resting   : Bool
  /-- The instants of uncorrectable codewords, for UNCORR_1MS. -/
  uncorrAt  : List Nat
  /-- Lanes reported degraded (R101). -/
  degraded0 : Bool
  degraded1 : Bool
deriving DecidableEq, Repr

/-- The Darn transmitter of a port (R95, R99); `fill`: flits not yet in a block, fewer than eight unless the replay memory is full. -/
structure PortDarn where
  next    : Nat
  base    : Nat
  stored  : List (Nat × List Flit)
  fill    : List Flit
  oldAt   : Nat
  /-- Replays in a row from the same block. -/
  row     : Nat
  rowFrom : Nat
deriving DecidableEq, Repr

/-- Credit state of one class at one port (R156 to R158): S_c, the last CREDIT_LIMIT received, G_c, F_c, and F_c when a credit message last
went out. -/
structure Credit where
  sent  : Nat
  limit : Nat
  grant : Nat
  freed : Nat
  shown : Nat
  /-- CREDIT_STALL delivered and no credit since (R160). -/
  told  : Bool
deriving DecidableEq, Repr

/-- What the partner's LINE_STATE last said (R213). -/
structure LineState where
  idValid : Bool
  head    : Bool
  rail    : Nat
  nodeId  : Nat
  state   : Nat
  source  : Nat
  depth   : Nat
  tag     : Nat
deriving DecidableEq, Repr

/-- The line-time side channel of a port (R213, R214); delays in 2⁻¹⁶ ns. -/
structure PortTime where
  line    : Option LineState
  delays  : List Int
  syncSeq : Nat
  reqSeq  : Nat
  reqAt   : Option (Nat × Nat)
  answer  : Option (Nat × Nat)
deriving DecidableEq, Repr

/-- One of the ports L0, L1 and TW. -/
structure Port where
  state   : LnState
  since   : Nat
  rate    : Mode
  short   : Bool
  /-- GOING_DOWN is being sent (R84). -/
  leaving : Bool
  /-- RX_DOWN is being sent: the receiver has no lock (R93). -/
  rxDown  : Bool
  tx      : PortTx
  train   : PortTrain
  rx      : PortRx
  darn    : PortDarn
  c2      : Credit
  c3      : Credit
  time    : PortTime
deriving DecidableEq, Repr

/-! ## Switch core (chapter 05) -/

/-- A queued cell: the cell, the port it arrived on (R136), when it was queued, the number of the arrival whose storage it shares with its
other copies, and uptime and line time since which it has stood at its VOQ's head without credit (R160). -/
structure QCell where
  cell : Cell
  inp  : Nat
  at_  : Nat
  ref  : Nat
  wait : Option (Nat × Nat)
deriving DecidableEq, Repr

/-- A discard-table key (R162). -/
structure DiscardKey where
  src  : Nat
  tid  : Nat
  rail : Nat
  at_  : Nat
deriving DecidableEq, Repr

/-- The deficit round robin of one output (R175): the active list, front first, as flows and deficits. A flow is an entry number 0
to 255, or 256 for implicit C2 and 257 for implicit C3; `started`: the front flow has had its quantum. -/
structure Drr where
  flows   : List (Nat × Nat)
  started : Bool
deriving DecidableEq, Repr

/-- One switch output. -/
structure OutPort where
  /-- A cell is in transmission: the next cell boundary has not come. -/
  busy     : Bool
  lastInp  : Nat
  drr      : Drr
  /-- C3 line bytes, and line bytes of steps 1 to 3, sent in this cycle (R191). -/
  c3Sent   : Nat
  prioSent : Nat
  /-- How many turns each input has had while it could choose between this output's own queue and a detoured one (R202, TW). -/
  turn     : List Nat
deriving DecidableEq, Repr

/-- The cell that is being routed: its number, and whether its buffer has admitted it, once that is decided (R154, R159, R162): its copies
share one place in the buffer. -/
structure Arrival where
  ref : Nat
  ok  : Option Bool
deriving DecidableEq, Repr

/-- The switch core. -/
structure Switch where
  /-- VOQ of input i, output o, class c at key i × 40 + o × 4 + c, oldest first. -/
  voq     : Map (List QCell)
  /-- Delivery queue of local output o and class c at key o × 4 + c. -/
  dlv     : Map (List QCell)
  outs    : List OutPort
  /-- The discard table of each buffer, oldest first. -/
  discard : List (List DiscardKey)
  /-- Cells that have arrived or been built so far, and the one being routed (none between commands). -/
  nextRef : Nat
  arrival : Option Arrival
deriving DecidableEq, Repr

/-! ## Tunnels (chapter 04) -/

/-- The sending side of a tunnel entry (R114, R129). -/
structure TxState where
  seq    : Nat
  tag    : Nat
  resync : Bool
deriving DecidableEq, Repr

/-- An open frame (R124): its bytes, cells and flits so far, and the instant its FIRST cell was accepted. -/
structure OpenFrame where
  bytes : List Byte
  cells : Nat
  flits : Nat
  since : Nat
deriving DecidableEq, Repr

/-- A receive context (R121 to R126). -/
structure Ctx where
  entry   : Nat
  src     : Nat
  pool    : Bool
  based   : Bool
  high    : Nat
  next    : Nat
  /-- Bit b: SEQ H − b was accepted. -/
  window  : BitVec 1024
  /-- Cells accepted ahead of D, with their SEQ and instant. -/
  held    : List (Nat × Nat × Cell)
  /-- Ranges of missing SEQ values and the instant a later one was accepted. -/
  gaps    : List (Nat × Nat × Nat)
  frame   : Option OpenFrame
  discard : Bool
  tag     : Nat
  prevTag : Nat
  stale   : Nat
  lastCtr : Nat
  lastUse : Nat
deriving DecidableEq, Repr

/-- A frame waiting in its block for its shaper or for space (R153, R180). -/
structure WaitFrame where
  out     : Nat
  entry   : Nat
  control : Bool
  bytes   : List Byte
  counted : Nat
  policed : Bool
deriving DecidableEq, Repr

/-- A token bucket (R178, R180): what it lacks of BURST, in units of 1/8,000,000 byte (RATE × ns), and when that was computed.  A
bucket not listed is full. -/
structure Bucket where
  lack : Nat
  at_  : Nat
deriving DecidableEq, Repr

/-- Per-entry counters of R127. -/
structure EntryCount where
  cellsIn  : Nat
  cellsOut : Nat
  bytes    : Nat
  drops    : Nat
deriving DecidableEq, Repr

/-- The tunnel layer, with policers and shapers. -/
structure Tunnel where
  tx       : Map TxState
  ctxs     : List Ctx
  waiting  : List WaitFrame
  police   : Map Bucket
  shape    : Map Bucket
  counts   : Map EntryCount
  /-- RESYNC sequences sent since the last reset, encrypted frames sent in this crypto epoch (R129, R133). -/
  resyncs  : Nat
  frameCtr : Nat
  exhausted : Bool
  /-- When TUNNEL_AUTH_FAIL was last delivered for each entry, plus one. -/
  authAt   : Map Nat
deriving DecidableEq, Repr

/-! ## Allotment and governor (chapter 06) -/

/-- An epoch armed here (R185). -/
structure Armed where
  id       : Nat
  allot    : Bool
  decision : Bool
  te       : Nat
  plan     : Nat
  boundary : Nat
deriving DecidableEq, Repr

/-- Epoch or cancel copies this hub is sending (R182). -/
structure EpochTx where
  cancel  : Bool
  flags   : Nat
  id      : Nat
  te      : Nat
  plan    : Nat
  copy    : Nat
  left    : Nat
  nextAt  : Nat
deriving DecidableEq, Repr

/-- The budget governor (R189, R190). -/
structure Governor where
  level    : Nat
  demanded : Nat
  lowSince : Option Nat
  /-- The level the scheduler uses until the next allotment boundary. -/
  sched    : Nat
  cause    : Nat
  tempLvl  : Nat
  powLvl   : Nat
  tmax     : Int
  power    : Nat
  /-- AL_GOV_DE_CAP of the four levels, AL_GOV_IDLE_SUSPEND, AL_GOV_C3_CAP and AL_GOV_DWELL as the last evaluation read them (R470); empty before
  the first. -/
  caps     : List Nat
deriving DecidableEq, Repr

/-- Allotment, epochs and the governor. -/
structure Allot where
  /-- Remaining allotment of active entry n of output o at key o × 256 + n, where it differs from the entry's ALLOT. -/
  rem      : Map Int
  /-- The scaled ALLOT of an entry of a scaled output (R170), plus one. -/
  scaledTo : Map Nat
  armed    : Option Armed
  /-- Epochs and cancels whose copies are still owed, in the order sent. -/
  sending  : List EpochTx
  /-- The epoch last sent: its T_e, PLAN_ID and EPOCH_ID; how many epochs this boot has sent (R182), and the latest T_e of any. -/
  sentTe   : Nat
  sentPlan : Nat
  sentId   : Nat
  sent     : Nat
  lastTe   : Nat
  /-- (EPOCH_ID, SUBTYPE) pairs whose first copy has crossed TW (R184). -/
  crossed  : List (Nat × Nat)
  gov      : Governor
deriving DecidableEq, Repr

/-! ## Rails and line time (chapter 07) -/

/-- The time states of R216. -/
inductive TimeState where
  | free | acquire | locked | holdover | master
deriving DecidableEq, Repr

/-- The detour of a line port (R200 to R205). -/
structure Detour where
  armed     : Bool
  active    : Bool
  /-- When the release began (R205 step 1). -/
  releasing : Option Nat
  /-- Line time at which the port went down. -/
  downAt    : Nat
  /-- The going down that DETOUR_ACTIVE was last delivered for. -/
  told      : Nat
  /-- Cells detoured since the detour became active. -/
  cells     : Nat
  /-- Uptime at which the last of them left TW (R205 step 2). -/
  lastAt    : Nat
deriving DecidableEq, Repr

/-- A capture of TCAP (R220). -/
structure Capture where
  time   : Nat
  rising : Bool
deriving DecidableEq, Repr

/-- Rails, node ID and line time. -/
structure Rail where
  idValid   : Bool
  nodeId    : Nat
  detours   : List Detour
  twinFlags : Nat
  ts        : TimeState
  source    : Nat
  offset    : Int
  freq      : Int
  depth     : Nat
  masterTag : Nat
  inRun     : Nat
  holdAt    : Nat
  /-- Steps of line time that wait for an allotment cycle boundary, in the order written (R221). -/
  steps     : List Int
  tcap0     : List Capture
  tcap1     : List Capture
  tcapOver0 : Bool
  tcapOver1 : Bool
  pps       : Bool
  tail      : Bool
  /-- It has been told that TW does not train (R24). -/
  twinOut   : Bool
  /-- ID_OVERFLOW has been delivered for the 4,094 of the L0 partner (R209). -/
  overTold  : Bool
deriving DecidableEq, Repr

/-! ## Islands and counters (chapters 15 and 20) -/

/-- One clock island (R362). -/
structure Island where
  powered  : Bool
  clock    : Bool
  inReset  : Bool
  gradient : Bool
  skew     : Bool
  mhz      : Nat
  mv       : Nat
deriving DecidableEq, Repr

/-- A Count Seam (R366): the source's counter and the value the destination last took. -/
structure CountSeam where
  source : BitVec 16
  taken  : BitVec 16
deriving DecidableEq, Repr

/-- The Seams of a crossing (R363 to R368) that hold something between two commands: the Data Seam's items, oldest first, and those the source block
holds while the FIFO is full; the toggle without its acknowledge and the pending flag of the Pulse Seam; the Count Seams.  Items are MANAGEMENT
frames (crossing 9), pulses are doorbells (crossings 9, 13, 14 and 17), counts are freed credit flits, two Seams a pool (crossings 0 to 2), and raised
events (crossings 9, 13, 14 and 17); what crosses elsewhere is taken within the command that presents it, since its destination runs (log 130). -/
structure Crossing where
  items   : List RawMsg
  behind  : List RawMsg
  toggle  : Bool
  pending : Bool
  counts  : List CountSeam
  /-- Events raised for I-MGMT (R369), and the island whose reset the live side has seen and not its release (R371). -/
  raised  : CountSeam
  lost    : Option Nat
deriving DecidableEq, Repr

/-- The state of Press (R459, R460): whether it runs, its destination (0 DRAM, 1 tunnel), tunnel, first instant, period, slots,
the number of the instant, and the SEQ of the next record. -/
structure Press where
  running : Bool
  dest    : Nat
  tunnel  : Nat
  start   : Nat
  period  : Nat
  slots   : Nat
  base    : Nat
  k       : Nat
  seq     : Nat
  /-- Instants lost since the last record. -/
  gap     : Bool
  /-- A forward step of line time passed an instant that has no record yet (R217), and when PRESS_GAP was last delivered, plus one. -/
  stepped : Bool
  toldAt  : Nat
  /-- The record last begun is written no earlier than this instant, and the last of its posted writes at DEST 1 (R460). -/
  doneAt  : Nat
  tail    : List Byte
deriving DecidableEq, Repr

/-- The bandwidth windows of one port (R461): bytes in and out in the window that runs, the last whole window, the peak. -/
structure Bandwidth where
  curIn   : Nat
  curOut  : Nat
  lastIn  : Nat
  lastOut : Nat
  peakIn  : Nat
  peakOut : Nat
  /-- CT_BW_WINDOW was changed: both counters restart at the next boundary. -/
  restart : Bool
  /-- Line time of the port's last window boundary. -/
  endAt   : Nat
deriving DecidableEq, Repr

/-- A captured cell header of a sampler (R462). -/
structure Sample where
  header : Nat
  time   : Nat
deriving DecidableEq, Repr

/-- Counters that are not parameters. -/
structure Counters where
  /-- The enabled set, IDs rising (R455). -/
  enabled  : List Nat
  /-- Port events at key port × 32 + event (R454). -/
  events   : Map Nat
  /-- VOQ high-water marks at key input × 40 + output × 4 + class. -/
  marks    : Map Nat
  bw       : List Bandwidth
  press    : Press
  /-- Each sampler's ring of 16, oldest first. -/
  samples  : List (List Sample)
  /-- Each sampler has seen a crossing that it has not captured yet. -/
  wanted   : List Bool
deriving DecidableEq, Repr

/-! ## Window bridge and PCIe port (chapter 09) -/

/-- What an access was matched with, which it completes under (R60, R258, R275): the window table index, the entry's value, and the memory tunnel
area. -/
structure Match where
  win   : Nat
  entry : Nat
  base  : Nat
  size  : Nat
deriving DecidableEq, Repr

/-- One part of an inbound PCIe request (R257): its aperture, where it is in that aperture's addresses, its length, the data of a write,
for a read the number of the request and of the part, and what it was matched with. -/
structure Piece where
  ap    : Nat
  write : Bool
  addr  : Nat
  len   : Nat
  data  : List Byte
  read  : Nat
  part  : Nat
  seen  : Match
deriving DecidableEq, Repr

/-- A READ or WRITE_NP without its reply (R265): TAG, tunnel entry, tunnel offset of the first byte, the piece, PREFETCH asked and
whether what comes back of it may be kept (R268), when it was sent, and the TID and the far node it was sent to. -/
structure Outstanding where
  tag   : Nat
  entry : Nat
  off   : Nat
  piece : Piece
  pf    : Nat
  keep  : Bool
  at_   : Nat
  tid   : Nat
  node  : Nat
deriving DecidableEq, Repr

/-- An inbound read whose parts are not all back: its number, the requester's tag, how many parts have gone back, and each later part's
status and data once it is there. -/
structure InRead where
  id    : Nat
  tag   : Nat
  first : Nat
  parts : List (Option (Nat × List Byte))
deriving DecidableEq, Repr

/-- A prefetch buffer (R268): aperture, tunnel entry, tunnel offset of the first byte, bytes, which are read, and when it filled. -/
structure Prefetch where
  ap    : Nat
  entry : Nat
  off   : Nat
  data  : List Byte
  done  : List Bool
  at_   : Nat
deriving DecidableEq, Repr

/-- A posted-write error log entry (R272 to R274). -/
structure PwErr where
  tid    : Nat
  node   : Nat
  win    : Nat
  status : Nat
  count  : Nat
  noAddr : Bool
  flush  : Bool
  np     : Bool
  off    : Nat
  time   : Nat
deriving DecidableEq, Repr

/-- An access that waits for the PCIe link's answer at the far hub: its number, tunnel entry, originator, OP, TAG, OFFSET, LENGTH,
PREFETCH, window, LANES unit (1: none), the guard generation of its check (R405) and the tunnel's TID. -/
structure Target where
  id    : Nat
  entry : Nat
  src   : Nat
  op    : Nat
  tag   : Nat
  off   : Nat
  len   : Nat
  pf    : Nat
  win   : Nat
  unit  : Nat
  gen   : Nat
  tid   : Nat
deriving DecidableEq, Repr

/-- A write-error notice not yet sent (R270, R271), with the TID of the tunnel of the failed WRITEs. -/
structure Notice where
  origin : Nat
  tid    : Nat
  win    : Nat
  status : Nat
  count  : Nat
  off    : Nat
  time   : Nat
deriving DecidableEq, Repr

/-- A frame behind a write of its tunnel (R264), with what it was matched with, where it waited for a fill of page colours before (R398). -/
structure LateFrame where
  frame : Frame
  seen  : Option (Option Match)
deriving DecidableEq, Repr

/-- The bridge and its PCIe port. -/
structure Bridge where
  up      : Bool
  speed   : Nat
  width   : Nat
  /-- The link is in L1; Max_Payload_Size and Max_Read_Request_Size in bytes (R250). -/
  l1      : Bool
  mps     : Nat
  mrrs    : Nat
  /-- Advanced Error Reporting has logged an Unsupported Request (R257); it has logged a read answered with an error (R266). -/
  aerUr   : Bool
  aerRead : Bool
  /-- PE_PERST_N is driven high (R253). -/
  perstHi : Bool
  /-- BR_BAR2_SIZE and BR_PCIE_SUBSYS as read at reset release (R251). -/
  bar2    : Nat
  subsys  : Nat
  /-- The bases the host has given BAR0, BAR2 and BAR4 (R251). -/
  bars    : List Nat
  /-- Uptime at which the pulse on PE_PERST_N ends (R253). -/
  perst   : Option Nat
  nextTag : Nat
  nextId  : Nat
  out     : List Outstanding
  reads   : List InRead
  /-- Parts held behind a WRITE_NP of their aperture or the limit of 512, in order (R265, R274). -/
  held    : List Piece
  bufs    : List Prefetch
  log     : List PwErr
  targets : List Target
  /-- Frames of a tunnel behind a write that has not been performed (R264). -/
  behind  : List LateFrame
  /-- Failed WRITEs since the last reply, by originator × 65,536 + TID (R273). -/
  fails   : Map Nat
  notices : List Notice
  /-- Uptime plus one of the last notice, by originator × 65,536 + window (R271). -/
  noticed : Map Nat
  /-- Uptime plus one of the last PREFETCH_AUDIT and CPL_EXPIRED of each aperture (R279); apertures audited (R269). -/
  auditAt : Map Nat
  expiredAt : Map Nat
  audited : List Nat
  /-- The MSI-X table, 1,024 bytes (R251). -/
  msix    : List Host.Cell
  /-- READ frames whose bytes the DRAM controller finds uncorrectable (R260). -/
  ecc     : List Frame
deriving DecidableEq, Repr

/-! ## Access guard (chapter 17) -/

/-- An imprecise slot (R403): its key, the last reason, the refusals counted, those since the last event, and when that was delivered. -/
structure Imprecise where
  cls    : Nat
  idx    : Nat
  region : Nat
  reason : Nat
  count  : Nat
  since  : Nat
  toldAt : Nat
  /-- Access colour and page colour of the last refusal, and the line time of its check (R408). -/
  colour : Nat
  page   : Nat
  time   : Nat
deriving DecidableEq, Repr

/-- What a guard commit still has to answer when its older accesses have ended (R406): a response message with OK, or with
DRAIN_PENDING, and the MB0 entry it goes by; a STEP_DONE; or nothing, where the commit's command carries no answer of its own. -/
inductive DrainReply where
  | quiet
  | message (ok pending : List Byte) (entry : Nat)
  | step (token cmd : Nat)
deriving DecidableEq, Repr

/-- A commit whose older accesses have not all ended (R406): its generation, its instant, its mailbox, and its answer while it is owed. -/
structure Drain where
  gen   : Nat
  at_   : Nat
  mb    : Nat
  reply : Option DrainReply
deriving DecidableEq, Repr

/-- An access that waits at the guard while page colours are filled (R398): a window frame, a part of a PCIe request, or a debug access. -/
inductive Waiting where
  | frame (f : Frame) (m : Option Match)
  | piece (p : Piece)
  | debug (addr len : Nat) (write : Bool) (data : List Byte)
deriving DecidableEq, Repr

/-- The access guard. -/
structure Guard where
  /-- The page colours as runs: the first page of each run and its colour; pages before the first run are colour 0. -/
  colours : List (Nat × Nat)
  /-- The copies of the region table and the colours in the firmware data area (R407). -/
  copyRegions : Map Nat
  copyColours : List (Nat × Nat)
  /-- A commit has made the copies. -/
  copied  : Bool
  /-- The violation log, oldest first: AG_VIOL_INFO, AG_VIOL_ADDR, AG_VIOL_TIME (R402). -/
  log     : List (Nat × Nat × Nat)
  slots   : List Imprecise
  drains  : List Drain
  /-- Uptime at which the fill that runs ends. -/
  fillEnd : Option Nat
  waiting : List Waiting
deriving DecidableEq, Repr

/-! ## Decision engine (chapter 08) -/

/-- A decision bank's record (R243, R244): state code, entry count, CRC, failure reason and bucket. -/
structure Bank where
  state  : Nat
  count  : Nat
  crc    : Nat
  reason : Nat
  bucket : Nat
deriving DecidableEq, Repr

/-- An event (R230): the queue it is in, key, event time, CHAIN, ORIGIN kind and node. -/
structure DEvent where
  source : Nat
  key    : List Byte
  time   : Nat
  chain  : Nat
  origin : Nat
  node   : Nat
deriving DecidableEq, Repr

/-- An armed command of a pin (R239): due line time, mode (0 pulse, 1 set active, 2 set idle), width in µs. -/
structure PinCmd where
  due   : Nat
  mode  : Nat
  width : Nat
deriving DecidableEq, Repr

/-- A GPIO pin (R237, R239): the level last seen, armed commands by due time, the end of the latest pulse, the last set, an edge in the
glitch filter (its time and direction), and the uptimes plus one of the last ACTUATE_LATE, ACTUATE_EXPIRED and ACTUATE_DROPPED. -/
structure Pin where
  input   : Bool
  queue   : List PinCmd
  pulse   : Option Nat
  active  : Bool
  edge    : Option (Nat × Bool)
  late    : Nat
  expired : Nat
  dropped : Nat
  /-- The level driven, while the pin drives. -/
  shown   : Option Bool
deriving DecidableEq, Repr

/-- A key cache line (R242): the place of the entry, bucket × 4 + slot, and its PIN bit. -/
structure CacheLine where
  place : Nat
  pin   : Bool
deriving DecidableEq, Repr

/-- The decision engine. -/
structure Decision where
  banks  : List Bank
  /-- The ACTIVE bank, and the bank that was ACTIVE most recently. -/
  active : Option Nat
  recent : Nat
  /-- The four input queues (R231), oldest first; the source served last; the instant of the last dispatch plus one. -/
  queues : List (List DEvent)
  last   : Nat
  lastAt : Nat
  /-- Key cache sets by H0 mod 4,096, most recently used first. -/
  cache  : Map (List CacheLine)
  pins   : List Pin
  /-- The mode of each GPIO bank (R478): true 3.3 V, false 1.8 V. -/
  modes  : List Bool
  /-- Line time was stepped by the command that runs (R240). -/
  stepped : Bool
deriving DecidableEq, Repr

/-! ## Ethernet ports (chapter 10) -/

/-- A frame in a receive buffer: the tunnel entry it is mapped to, its bytes, and whether it has been policed. -/
structure EthHeld where
  entry   : Nat
  bytes   : List Byte
  policed : Bool
deriving DecidableEq, Repr

/-- An Ethernet port: its link and mode, receive buffer, transmit FIFO, the uptime until which a received PAUSE holds transmission, whether
PAUSE was sent and not lifted, when PAUSE was last sent, and the PAUSE ability its auto-negotiation advertises in mode 4 (R280). -/
structure EthPort where
  up      : Bool
  mode    : Nat
  rx      : List EthHeld
  tx      : List (List Byte)
  paused  : Option Nat
  xoff    : Bool
  pauseAt : Nat
  advert  : Option Nat
deriving DecidableEq, Repr

/-! ## Fuse channels (chapter 14) -/

/-- The states of R356. -/
inductive FuState where
  | off | ramp | on | limit | backoff | latched | noInput
deriving DecidableEq, Repr

/-- A fuse channel (R349 to R358): state, trip count, power good; current limit in force since; the fault timer's ns before that; when the
limit last released; since when the conditions of power good hold; when it asserted; the contract's base current (F1 to F4); the uptime a
backoff ends; FU_LAST_TRIP; input voltage, output voltage and current as last sampled; the SOA integrator in mW times ns and the eight curve counters in
µs (R352, R353), with the uptime at which they stood so. -/
structure Fuse where
  state  : FuState
  n      : Nat
  pg     : Bool
  limit  : Option Nat
  acc    : Nat
  outAt  : Nat
  goodAt : Option Nat
  pgAt   : Nat
  base   : Nat
  endAt  : Nat
  last   : Nat
  vin    : Nat
  vout   : Nat
  mA     : Nat
  soa    : Nat
  curve  : List Nat
  seenAt : Nat
deriving DecidableEq, Repr

/-! ## USB host complex (chapter 11) -/

/-- An outstanding transfer (R295): tunnel entry, REQ_ID, ENDPOINT, XTYPE, FLAGS, LENGTH, the 12 bytes of SETUP and EPINFO, OUT data, and
whether it has started. -/
structure Xfer where
  entry   : Nat
  id      : Nat
  ep      : Nat
  xtype   : Nat
  flags   : Nat
  len     : Nat
  setup   : List Byte
  data    : List Byte
  started : Bool
deriving DecidableEq, Repr

/-- A port of the root hub: the attached device's speed (0: none), VBUS wanted by POWER_ON (ports 4 to 7 start off, D0 to D3 on),
suspended, suspended by command, over-current latched, RESUME_COINCIDENT, addressed by a port reset, the instant resume signalling
began, the instant of its last activity, and its transfers in order. -/
structure UsbPort where
  speed      : Nat
  power      : Bool
  suspended  : Bool
  byCommand  : Bool
  oc         : Bool
  coincident : Bool
  /-- The resume that stands was begun by a device's wake (R302). -/
  woken      : Bool
  addressed  : Bool
  resume     : Option Nat
  lastAt     : Nat
  xfers      : List Xfer
  /-- The polls of bindings that run on it (R60, R303): entry, and the entry's value as the poll took it. -/
  polls      : List (Nat × Nat)
deriving DecidableEq, Repr

/-- The complex: its ports, the microframe number, the start of the present microframe in 1/960 ns of uptime, the trim in force (R304),
REQ_HEAD and RSP_TAIL as EP3 last reported them, what the service port sees of its host, and whether it has signalled remote wake since the bus
was suspended (R306). -/
structure Usb where
  ports : List UsbPort
  micro : Nat
  sofAt : Nat
  trim  : Int
  shown : Nat × Nat
  svc   : SvcBus
  woke  : Bool
deriving DecidableEq, Repr

/-! ## Type-C ports (chapter 12) -/

/-- The states of R315. -/
inductive TcState where
  | disabled | unattached | attachWait | attachedSrc | attachedSnk | accessory | errorRecovery | parked
deriving DecidableEq, Repr

/-- A Type-C port: its state and the instant its timer started; the terminations on CC1 and CC2 (0 open, 1 Rd, 2 Ra, 3 Rp, the model's
codes); orientation; VCONN on; data role DFP; attach-time role Sink; termination code of TC_ATTACH; VBUS wanted; VBUS not yet at vSafe0V;
TCn_SNK_EN; the contract's mV and mA, and EPR Mode; a contract under way; the cable's ceiling and EPR; Source_Capabilities or
EPR_Source_Capabilities last sent, and when, while no request has come; whether they are to be sent anew (R322); a swap in progress (1 PR, 2 DR,
3 VCONN) and whether this port asked for it; a Hard Reset's recovery; CC open since; Alt Mode pin assignment in force (0 none, 3 C, 4 D), the step of its entry, and the
pin chosen. -/
structure TcPort where
  state   : TcState
  since   : Nat
  cc1     : Nat
  cc2     : Nat
  flip    : Bool
  vconn   : Bool
  dfp     : Bool
  snk     : Bool
  term    : Nat
  vbus    : Bool
  dis     : Bool
  snkEn   : Bool
  mv      : Nat
  ma      : Nat
  epr     : Bool
  next    : Option (Nat × Nat)
  cableMa : Nat
  cableEpr : Bool
  offer   : List (Nat × Nat × Nat)
  offerAt : Option Nat
  due     : Bool
  swap    : Nat
  asked   : Bool
  recover : Bool
  openAt  : Option Nat
  alt     : Nat
  altStep : Nat
  altPin  : Nat
  /-- The voltage the port's converter was last commanded to, in mV (R317, R319). -/
  conv    : Nat
  /-- VCONN has been overloaded since the attach: the cable counts as having no e-marker (R314). -/
  vFault  : Bool
  /-- The port was UNATTACHED when the hub entered DOZE or REST, so that an attach wakes it (R324). -/
  wakes   : Bool
  /-- HPD as the last Status or Attention message gave it (R325). -/
  hpd     : Bool
deriving DecidableEq, Repr

/-! ## Display heads (chapter 13) -/

/-- A buffer of a frame store (R332, R333): FRAME and LIVE, geometry, complete, and the heads that have scanned it. -/
structure DsBuf where
  frame : Nat
  live  : Bool
  w     : Nat
  h     : Nat
  done  : Bool
  shown : List Nat
deriving DecidableEq, Repr

/-- A frame being received: its buffer, the next line, its PPS (DSC), and the DSC payloads of its lines so far. -/
structure DsOpen where
  buf   : Nat
  line  : Nat
  pps   : List Byte
  lines : List (List Byte)
deriving DecidableEq, Repr

/-- What a head scans: a buffer of a store (H0's or H1's) with its FRAME, whether this is the first scan of a frame flagged LIVE, and
the active size; or the fallback pattern (no buffer).  And the settings it began with (R60): DS_WATCH_ORIGIN, DS_WATCH_SIZE,
DS_FALLBACK_COLOUR, DS_PATTERN. -/
structure DsScan where
  store : Nat
  buf   : Option Nat
  frame : Nat
  fresh : Bool
  w     : Nat
  h     : Nat
  origin  : Nat
  size    : Nat
  colour  : Nat
  pattern : Nat
deriving DecidableEq, Repr

/-- A head with the store it owns: link up with lanes and rate; its buffers, the frame being received, the FRAME last opened, skipped or
abandoned, the newest complete frame's buffer; PPSs by tag; the scan in progress and its underruns (line and first pixel); the last
signature, SCAN_COUNT, its boundary's line time and frame; SAME, STALE and the two alarms; half refresh; the instants of the last
second's underruns and of the last DS_UNDERRUN_EVT, plus one; DS_ROUTE in force (R60). -/
structure Head where
  up      : Bool
  video   : Bool
  lanes   : Nat
  rate    : Nat
  bufs    : List DsBuf
  opened  : Option DsOpen
  last    : Option Nat
  newest  : Option Nat
  pps     : List (Nat × List Byte)
  scan    : Option DsScan
  under   : List (Nat × Nat)
  sig     : Option Nat
  scans   : Nat
  at_     : Nat
  frame   : Nat
  same    : Nat
  stale   : Nat
  frozen  : Bool
  starved : Bool
  half    : Bool
  recent  : List Nat
  toldAt  : Nat
  route   : Nat
deriving DecidableEq, Repr

/-! ## Power, keys and management (chapters 16, 18, 19) -/

/-- The power states of R378 with the transitions PW_STATE names. -/
inductive PState where
  | run | doze | rest | enterDoze | enterRest | exiting | thermalOff | off
deriving DecidableEq, Repr

/-- A LINE_FOLD in progress (R384): its token, FIRST_NODE, the next node to be sent PWR_ENTER, and when the next may go and the whole
times out. -/
structure Fold where
  token : Nat
  first : Nat
  next  : Nat
  sent  : Bool
  paceAt : Nat
  endAt : Nat
deriving DecidableEq, Repr

/-- The sleep sequencer, resets and the power pins. -/
structure Power where
  state    : PState
  /-- The state that held before the entry under way (R382), the entry's instant, token and mailbox. -/
  prior    : PState
  entryAt  : Nat
  token    : Nat
  /-- The effects of R379 have been applied for the entry under way (R382). -/
  quiet    : Bool
  /-- A latched wake event (R382): its code and line time. -/
  latched  : Option (Nat × Nat)
  /-- Fold-armed, with the token of the armed request (R380). -/
  armed    : Option Nat
  /-- Tokens of completed entries, told after the next return to RUN. -/
  done     : List Nat
  lastExit : Nat
  wakeOut  : Bool
  /-- Uptime of the last exit to RUN. -/
  outAt    : Nat
  /-- PW_WAKE_TIMER as the last accepted PWR_ENTER took it, and PW_WAKE_OUT_WIDTH as the last exit to RUN took it (R470). -/
  timer    : Nat
  width    : Nat
  fold     : Option Fold
  /-- The token of a LINE_UNFOLD that waits for the head's L1. -/
  unfold   : Option Nat
  /-- A warm reset that must start within 10 ms, with its cause (R47, R420, R444). -/
  resetDue : Option Nat
  /-- When the I-AON sensor last came below 140 °C in THERMAL_OFF (R386). -/
  coolAt   : Option Nat
  /-- DRAM_EN and PMIC_EN (R485), PMIC_PG, and when the power-up sequence last reached PMIC_EN. -/
  dramEn   : Bool
  pmicEn   : Bool
  pmicPg   : Bool
  pmicAt   : Nat
  /-- RESET_CAUSE is to be delivered when Horest is ready. -/
  tellCause : Bool
deriving DecidableEq, Repr

/-- A FABRIC slot (R413, R414): STATE 0 empty, 1 valid, 2 zeroised; POLICY; COUNTER; ACTIVE copy; the wrapped key of copies A and B. -/
structure KeySlot where
  state   : Nat
  policy  : Nat
  counter : Nat
  active  : Nat
  copyA   : List Byte
  copyB   : List Byte
deriving DecidableEq, Repr

/-- A row of the secure NV store (R413): its contents; of an alternating or commit row, its sequence number (0: never written) and tag; how often it was
written. -/
structure NvRow where
  data   : List Byte
  seq    : Nat
  tag    : List Byte
  writes : Nat
deriving DecidableEq, Repr

/-- Keys, life cycle and tamper.  Slots, debug counter and erase-intent are what the rows of the NV store hold, as read at the last start and written
since. -/
structure Keys where
  slots    : List KeySlot
  /-- The written rows of the NV store (R413). -/
  rows     : Map NvRow
  /-- SHA-384 of the provisioning authority's key, fused at entry into PROVISION (R420). -/
  auth     : Option (BitVec 384)
  secretOff : Bool
  debugCtr : Nat
  /-- Uptime at which a debug unlock ends (R423), and its DURATION. -/
  unlock   : Option Nat
  duration : Nat
  measured : Bool
  /-- A debug unlock has taken the MEASURED keys until the next warm or cold reset (R423). -/
  debugged : Bool
  /-- SESSION keys may not be derived until the next warm reset (R425). -/
  noSession : Bool
  hold     : Bool
  /-- The sources whose alarm condition is present, a bit each (KY_TAMPER_ACTIVE): what the pins and monitors see outlives every reset. -/
  alarms   : Nat
  /-- The erase-intent record (R421): the slots it names. -/
  erase    : List Nat
  /-- A policy is being applied: the source whose Rinse is under way (R425), and whether a reset follows. -/
  rinse    : Option (Nat × Bool)
  /-- Of each source's last alarm: the POLICY applied, the state at the alarm and its line time (R430). -/
  heard    : List (Nat × Nat × Nat)
deriving DecidableEq, Repr

/-- One of two alternating copies in flash (R432): sequence number (0: never written), CRC-32C and what it holds. -/
structure FlashCopy (α : Type) where
  seq  : Nat
  crc  : Nat
  data : α
deriving DecidableEq, Repr

/-- An image slot with its boot record (R434, R445): STATE code, TRIES_LEFT, the 136-byte envelope and 64-byte header, the image bytes
staged, MODE 2's TIME, and whether hash and signature verified. -/
structure FwSlot where
  state  : Nat
  tries  : Nat
  head   : List Byte
  image  : List Byte
  time   : Nat
  good   : Bool
deriving DecidableEq, Repr

/-- A sensor (R450): its last value, whether it was read and is faulted, when its value last changed, its neighbour's value then, and
since when its readings are plausible. -/
structure Sensor where
  value  : Int
  valid  : Bool
  fault  : Bool
  moved  : Nat
  other  : Int
  goodAt : Nat
deriving DecidableEq, Repr

/-- The management subsystem. -/
structure Mgmt where
  slots     : List FwSlot
  /-- The boot records in flash (R432, R434): of each slot STATE, TRIES_LEFT and MODE 2's TIME. -/
  records   : List (FlashCopy (List (Nat × Nat × Nat)))
  /-- M_IMAGE: the measurement of the image that was booted, kept in I-AON retention SRAM (R410, R439). -/
  mImage    : List Byte
  running   : Nat
  fallback  : Bool
  romHold   : Bool
  /-- The boot ROM has chosen and checked an image since the release. -/
  loaded    : Bool
  /-- The slot staged now and the instant of its last command (R441). -/
  staging   : Option (Nat × Nat)
  /-- The envelope and header that FW_STAGE_BEGIN gave; the slot itself changes at the first FW_STAGE_DATA (R442). -/
  stageHead : List Byte
  express   : Bool
  ready     : Bool
  /-- The guard's rules have been restored since the start (R407, R438). -/
  guarded   : Bool
  full      : Bool
  /-- Uptime of the last release, and of FULL_SERVICE. -/
  startAt   : Nat
  fullAt    : Nat
  /-- A value marked N changed since the configuration store was written, and when it was last written (R432). -/
  dirty     : Bool
  storedAt  : Nat
  /-- A fallback to be told after start: slot abandoned and slot booted. -/
  tellFall  : Option (Nat × Nat)
  wdtArmed  : Bool
  /-- Sensors at key kind × 256 + index. -/
  sensors   : Map Sensor
deriving DecidableEq, Repr

/-- The two inputs (R345 to R347): the input in use (0 VMAIN, 1 VBACK), the voltages last judged, whether each was judged good, and
since when VMAIN has been good again; each input's FET turned off by its ideal-diode controller; the uptime at which the last switch-over is through. -/
structure Supply where
  inUse   : Nat
  mainMv  : Nat
  backMv  : Nat
  mainOk  : Bool
  backOk  : Bool
  goodAt  : Nat
  mainCut : Bool
  backCut : Bool
  busyTo  : Nat
deriving DecidableEq, Repr

/-! ## Lint log (chapter 19) -/

/-- A Lint record (R447). -/
structure LintRec where
  time : Nat
  code : Nat
  sev  : Nat
  est  : Bool
  aon  : Bool
  fst  : Bool
  seq  : Nat
  args : List Byte
deriving DecidableEq, Repr

/-- The four copies of the Lint log (R448), newest first, and the writer of the flash mirror. -/
structure Lint where
  seq     : Nat
  /-- The next record is the first after a reset. -/
  fresh   : Bool
  sram    : List LintRec
  aon     : List LintRec
  dram    : List LintRec
  flash   : List LintRec
  /-- Qualifying records not yet in the flash mirror, oldest first. -/
  queue   : List LintRec
  /-- The second of uptime the rate limit counts in, and the records written in it. -/
  second  : Nat
  written : Nat
deriving DecidableEq, Repr

/-! ## The hub -/

/-- Everything the hub holds but the queue of waiting commands. -/
structure Hub where
  clk     : Clock
  /-- DV_STRAP_STATE [6:0] as last sampled (R20). -/
  straps  : Nat
  params  : Map Value
  /-- The configuration store in flash, two alternating copies: stored N values (R432). -/
  nvStore : List (FlashCopy (Map Value))
  /-- Table entries as little-endian numbers at key table ID × 65,536 + index (R115). -/
  tables  : Map Nat
  dram    : List Host.Cell
  /-- Host memory as far as the hub and its host have used it (MB1 rings). -/
  hostMem : List Host.Cell
  ctl     : Control
  ports   : List Port
  sw      : Switch
  tn      : Tunnel
  al      : Allot
  rl      : Rail
  lint    : Lint
  isl     : List Island
  /-- The 24 crossings of R368. -/
  seams   : List Crossing
  ct      : Counters
  /-- A host is attached at the USB service port (R306). -/
  svcHost : Bool
  ag      : Guard
  de      : Decision
  br      : Bridge
  eth     : List EthPort
  fu      : List Fuse
  usb     : Usb
  tc      : List TcPort
  ds      : List Head
  pw      : Power
  ky      : Keys
  mg      : Mgmt
  su      : Supply
  /-- Frames delivered to a local block and not yet taken by a later command: the switch port of the block and the frame. -/
  inbox   : List (Nat × Frame)
  /-- What the hub has shown outside, oldest first. -/
  outbox  : List Output
  /-- The counter that numbers free values (the model's own). -/
  free    : Nat
deriving DecidableEq, Repr

/-- The machine: the commands that wait, first in first out, and the hub. -/
structure State where
  pending : List Instr
  hub     : Hub
deriving DecidableEq, Repr

/-! ## Reset -/

/-- Credit state before a port is UP. -/
def Credit.reset : Credit := ⟨0, 0, 0, 0, 0, false⟩

/-- A lane before its first codeword. -/
def LaneRx.reset (seed : Nat) : LaneRx := ⟨[], 0, seed⟩

/-- A transmitter at the start of a side frame; PRBS31 starts at all ones (log 103). -/
def PortTx.reset : PortTx := ⟨[], 0, 0x7FFFFFFF, 0x2AAAAAAA, 0, [], 0x7FFFFFFF⟩

/-- A receiver before its first block. -/
def PortRx.reset : PortRx where
  lane0 := LaneRx.reset 0x7FFFFFFF
  lane1 := LaneRx.reset 0x2AAAAAAA
  side := 0
  sideN := 0
  frames := []
  delin := ⟨[], false, 0⟩
  stray := ⟨[], true, 0⟩
  cells := []
  next := 0
  delivered := 0
  nakAt := none
  nakReason := 0
  starts := []
  sinceAck := 0
  darnOn := false
  badRun := 0
  resting := false
  uncorrAt := []
  degraded0 := false
  degraded1 := false

/-- Training before any partner is known. -/
def PortTrain.reset : PortTrain where
  partner := none
  goodRun := 0
  lastGood := 0
  pass := false
  done := false
  failed := []
  stored := none
  target := 0
  agreed := none
  lock0 := false
  lock1 := false
  laneMap := 0
  hold := 0
  silent := false
  failWait := false
  rateMax := 1
  code := 0
  darnEn := 2
  preset0 := 0xFF
  preset1 := 0xFF
  poolC2 := 0x200000
  poolC3 := 0x200000

/-- A port after reset: nothing trained, nothing received. -/
def Port.reset : Port where
  state := .disabled
  since := 0
  rate := 0
  short := false
  leaving := false
  rxDown := false
  tx := PortTx.reset
  train := PortTrain.reset
  rx := PortRx.reset
  darn := ⟨0, 0, [], [], 0, 0, 0⟩
  c2 := Credit.reset
  c3 := Credit.reset
  time := ⟨none, [], 0, 0, none, none⟩

/-- A mailbox after reset; MB2 always holds four slots (R35). -/
def Mailbox.reset (order : Nat) : Mailbox :=
  ⟨order, false, 0, 0, 0, 0, 0, [], none, 1024, [], 0, none, 0, []⟩

/-- An output after reset. -/
def OutPort.reset : OutPort := ⟨false, 9, ⟨[], false⟩, 0, 0, []⟩

/-- Mailboxes, transactions and long operations after a cold reset. -/
def Control.reset : Control where
  regs := ⟨0, 0, 0, 0, 0, 0, 0, false⟩
  mbs := [Mailbox.reset 0, Mailbox.reset 0, Mailbox.reset 2, Mailbox.reset 0]
  window := []
  pairs := []
  txns := []
  doneTxns := []
  nextTxn := 1
  ops := []
  doneOps := []
  owed := []
  nextToken := 1

/-- The switch core after reset. -/
def Switch.reset : Switch := ⟨[], [], List.replicate 10 OutPort.reset, List.replicate 4 [], 0, none⟩

/-- The tunnel layer after reset. -/
def Tunnel.reset : Tunnel := ⟨[], [], [], [], [], [], 0, 0, false, []⟩

/-- The governor after reset. -/
def Governor.reset : Governor := ⟨0, 0, none, 0, 0, 0, 0, 0, 0, []⟩

/-- The allotment logic after reset. -/
def Allot.reset : Allot := ⟨[], [], none, [], 0, 0, 0, 0, 0, [], Governor.reset⟩

/-- A detour that is not armed. -/
def Detour.reset : Detour := ⟨false, false, none, 0, 0, 0, 0⟩

/-- Rails, ID and line time after reset. -/
def Rail.reset : Rail :=
  ⟨false, 0, [Detour.reset, Detour.reset], 0, .free, 0, 0, 0, 0xFFFF, 0, 0, 0, [], [], [], false, false, false, false, false, false⟩

/-- An island powered, clocked and out of reset, before its supply is read (log 9: 0 mV until the first sample). -/
def Island.run (mhz : Nat) : Island := ⟨true, true, false, false, false, mhz, 0⟩

/-- The bandwidth counters of a port after reset. -/
def Bandwidth.reset : Bandwidth := ⟨0, 0, 0, 0, 0, 0, false, 0⟩

/-- Press after reset: stopped. -/
def Press.reset : Press := ⟨false, 0, 0, 0, 0, 0, 0, 0, 0, false, false, 0, 0, []⟩

/-- The counters after reset. -/
def Counters.reset : Counters where
  enabled := []
  events := []
  marks := []
  bw := List.replicate 10 Bandwidth.reset
  press := Press.reset
  samples := List.replicate 4 []
  wanted := List.replicate 4 false
/-- The guard after a cold reset: open, no region, every page colour 0. -/
def Guard.reset : Guard := ⟨[], [], [], false, [], [], [], none, []⟩

/-- An empty bank. -/
def Bank.reset : Bank := ⟨0, 0, 0, 0, 0⟩

/-- A pin that is off. -/
def Pin.reset : Pin := ⟨false, [], none, false, none, 0, 0, 0, none⟩

/-- The decision engine after a cold reset. -/
def Decision.reset : Decision :=
  ⟨[Bank.reset, Bank.reset], none, 0, [[], [], [], []], 3, 0, [], List.replicate 32 Pin.reset, [false, false, false, false], false⟩
/-- The bridge after reset: no link, nothing outstanding. -/
def Bridge.reset : Bridge := 
  ⟨false, 0, 0, false, 128, 512, false, false, false, 34, 0, [0, 0, 0], none, 0, 0, [], [], [], [], [], [], [], [], [], [], [], [], [], [], []⟩
/-- An Ethernet port after reset. -/
def EthPort.reset : EthPort := ⟨false, 0, [], [], none, false, 0, none⟩
/-- A fuse channel off, at the base of 3,300 mA. -/
def Fuse.reset : Fuse := ⟨.off, 0, false, none, 0, 0, none, 0, 3300, 0, 0, 0, 0, 0, 0, List.replicate 8 0, 0⟩

/-- A root hub port with nothing attached. -/
def UsbPort.reset (power : Bool) : UsbPort := ⟨0, power, false, false, false, false, false, false, none, 0, [], []⟩

/-- The complex after reset. -/
def Usb.reset : Usb :=
  ⟨List.replicate 4 (UsbPort.reset true) ++ List.replicate 4 (UsbPort.reset false), 0, 0, 0, (0, 0), ⟨false, false, 0, false, false⟩, false⟩

/-- A port with the dead-battery Rd until the boot ROM applies the configuration store (R483). -/
def TcPort.reset : TcPort where
  state := .disabled
  since := 0
  cc1 := 0
  cc2 := 0
  flip := false
  vconn := false
  dfp := false
  snk := false
  term := 0
  vbus := false
  dis := false
  snkEn := false
  mv := 0
  ma := 0
  epr := false
  next := none
  cableMa := 3000
  cableEpr := false
  offer := []
  offerAt := none
  due := false
  swap := 0
  asked := false
  recover := false
  openAt := none
  alt := 0
  altStep := 0
  altPin := 0
  conv := 5000
  vFault := false
  wakes := false
  hpd := false
/-- An empty buffer. -/
def DsBuf.reset : DsBuf := ⟨0, false, 0, 0, false, []⟩

/-- A head after reset: no link, nothing stored. -/
def Head.reset : Head where
  up := false
  video := false
  lanes := 0
  rate := 0
  bufs := List.replicate 3 DsBuf.reset
  opened := none
  last := none
  newest := none
  pps := []
  scan := none
  under := []
  sig := none
  scans := 0
  at_ := 0
  frame := 0
  same := 0
  stale := 0
  frozen := false
  starved := false
  half := false
  recent := []
  toldAt := 0
  route := 0

/-- The sequencer in RUN. -/
def Power.reset : Power where
  state := .run
  prior := .run
  entryAt := 0
  token := 0
  quiet := false
  latched := none
  armed := none
  done := []
  lastExit := 0
  wakeOut := false
  outAt := 0
  timer := 0
  width := 0
  fold := none
  unfold := none
  resetDue := none
  coolAt := none
  dramEn := true
  pmicEn := true
  pmicPg := true
  pmicAt := 0
  tellCause := true

/-- A row never written. -/
def NvRow.blank : NvRow := ⟨[], 0, [], 0⟩

/-- An empty FABRIC slot. -/
def KeySlot.reset : KeySlot := ⟨0, 0, 0, 0, [], []⟩

/-- Keys of a device in BLANK: nothing loaded, nothing fused. -/
def Keys.reset : Keys := ⟨List.replicate 32 KeySlot.reset, [], none, false, 0, none, 0, false, false, false, false, 0, [], none, List.replicate 6 (0, 0, 0)⟩

/-- An empty image slot. -/
def FwSlot.reset : FwSlot := ⟨0, 0, [], [], 0, false⟩

/-- The management subsystem at a release: slot A holds the image the device was delivered with, CONFIRMED (log 13). -/
def Mgmt.reset : Mgmt where
  slots := [⟨5, 0, List.replicate 200 0#8, [], 0, true⟩, FwSlot.reset, FwSlot.reset]
  records := [⟨1, crc32c (leBytes 4 1 ++ 5#8 :: List.replicate 29 0#8), [(5, 0, 0), (0, 0, 0), (0, 0, 0)]⟩, ⟨0, 0, []⟩]
  mImage := List.replicate 48 0#8
  running := 0
  fallback := false
  romHold := false
  loaded := false
  staging := none
  stageHead := []
  express := false
  ready := false
  guarded := false
  full := false
  startAt := 0
  fullAt := 0
  dirty := false
  storedAt := 0
  tellFall := none
  wdtArmed := false
  sensors := []

/-- On VMAIN, with no voltage judged yet (log 14). -/
def Supply.reset : Supply := ⟨0, 0, 0, false, false, 0, false, false, 0⟩

/-- A crossing with both ends empty (R372). -/
def Crossing.reset : Crossing := ⟨[], [], false, false, List.replicate 4 ⟨0#16, 0#16⟩, ⟨0#16, 0#16⟩, none⟩

/-- The hub after reset. -/
def Hub.reset : Hub where
  clk := ⟨0, 0, 0⟩
  straps := 0
  params := []
  nvStore := List.replicate 2 ⟨0, 0, []⟩
  tables := []
  dram := []
  hostMem := []
  ctl := Control.reset
  ports := [Port.reset, Port.reset, Port.reset]
  sw := Switch.reset
  tn := Tunnel.reset
  al := Allot.reset
  rl := Rail.reset
  lint := ⟨0, true, [], [], [], [], [], 0, 0⟩
  isl := [161, 161, 161, 1250, 1066, 1000, 1000, 390, 250, 148, 800, 16].map Island.run
  seams := List.replicate 24 Crossing.reset
  ct := Counters.reset
  svcHost := false
  ag := Guard.reset
  de := Decision.reset
  br := Bridge.reset
  eth := List.replicate 4 EthPort.reset
  fu := List.replicate 5 Fuse.reset
  usb := Usb.reset
  tc := List.replicate 4 TcPort.reset
  ds := [{ Head.reset with route := 1 }, Head.reset]
  pw := Power.reset
  ky := Keys.reset
  mg := Mgmt.reset
  su := Supply.reset
  inbox := []
  outbox := []
  free := 0

/-- The machine right after reset. -/
def State.reset : State := ⟨[], Hub.reset⟩

end Sys2Proof.Machine
end

