-- ==== Sys2Proof/Machine/Maps.lean ====
section
/-!
DEFINITION. The canonical maps of `State`: reading, writing, and the form a write keeps; byte memories are the maps of bytes
whose unlisted address reads 0.
-/
namespace Sys2Proof.Machine

variable {α : Type} [DecidableEq α]

/-- What key k reads as; d where it is not listed. -/
def mget (d : α) : Map α → Nat → α
  | [], _ => d
  | (j, v) :: m, k => if k = j then v else mget d m k

/-- The map without key k. -/
def merase : Map α → Nat → Map α
  | [], _ => []
  | (j, v) :: m, k => if k = j then m else (j, v) :: merase m k

/-- The map with key k listed as v, keys rising. -/
def minsert : Map α → Nat → α → Map α
  | [], k, v => [(k, v)]
  | (j, w) :: m, k, v =>
    if k < j then (k, v) :: (j, w) :: m else if k = j then (k, v) :: m else (j, w) :: minsert m k v

/-- Write key k: an entry equal to what an unlisted key reads as is removed. -/
def mset (d : α) (m : Map α) (k : Nat) (v : α) : Map α :=
  if v = d then merase m k else minsert m k v

/-- Apply a function to one key. -/
def mmod (d : α) (m : Map α) (k : Nat) (f : α → α) : Map α := mset d m k (f (mget d m k))

/-- Keys strictly rise. -/
def mrising : Map α → Bool
  | [] => true
  | [_] => true
  | (j, _) :: (k, v) :: m => j < k && mrising ((k, v) :: m)

/-- The canonical form: keys strictly rise and no entry equals the unlisted value. -/
def mwf (d : α) (m : Map α) : Bool := mrising m && m.all (fun e => e.2 != d)

/-- What an unlisted byte of memory reads as (log 12). -/
def unlisted : Byte := 0#8

/-- The canonical form of a byte memory. -/
def Memory.wf (m : List Host.Cell) : Bool := mwf unlisted m

/-- One byte of memory. -/
def readByte (m : List Host.Cell) (a : Nat) : Byte := mget unlisted m a

/-- One byte written. -/
def writeByte (m : List Host.Cell) (a : Nat) (b : Byte) : List Host.Cell := mset unlisted m a b

/-- n bytes from address a. -/
def readMem (m : List Host.Cell) (a n : Nat) : List Byte := (List.range n).map (fun i => readByte m (a + i))

/-- Bytes written from address a on. -/
def writeMem : List Host.Cell → Nat → List Byte → List Host.Cell
  | m, _, [] => m
  | m, a, b :: bs => writeMem (writeByte m a b) (a + 1) bs

/-- [src, src + n) copied to [dst, dst + n): unlisted bytes of the source leave the destination unlisted. -/
def copyMem (m : List Host.Cell) (src dst n : Nat) : List Host.Cell :=
  m.filter (fun c => c.1 < dst) ++ ((m.filter (fun c => src ≤ c.1 && c.1 < src + n)).map (fun c => (c.1 - src + dst, c.2))) ++
    m.filter (fun c => dst + n ≤ c.1)

/-- The listed cells of [a, a + n), for sums over mostly unlisted ranges. -/
def cellsIn (m : List Host.Cell) (a n : Nat) : List Host.Cell := m.filter (fun c => a ≤ c.1 && c.1 < a + n)

/-- CRC-32C over [a, a + n) of memory: listed bytes enter one by one, the zeros between them by `crcZeros`. -/
def crcMem (m : List Host.Cell) (a n : Nat) : Nat :=
  let zm := crcZeroMap poly32c
  let r := (cellsIn m a n).foldl
    (fun (s : Nat × Nat) c => (crcRByte poly32c (crcZeros 33 zm (c.1 - s.2) s.1) c.2, c.1 + 1)) (0xFFFFFFFF, a)
  crcZeros 33 zm (a + n - r.2) r.1 ^^^ 0xFFFFFFFF

/-- Element i of a list of things of one kind, `d` past its end. -/
def nth {β : Type} (l : List β) (i : Nat) (d : β) : β := (l.drop i).headD d

/-- Element i replaced. -/
def modAt {β : Type} : List β → Nat → (β → β) → List β
  | [], _, _ => []
  | x :: l, 0, f => f x :: l
  | x :: l, i + 1, f => x :: modAt l i f

end Sys2Proof.Machine
end

