-- ==== Sys2Proof/Machine/ParamTable.lean ====
section
/-!
DEFINITION. The parameters of the hub (R467): PID, instances, access code, Kept through letters, WIDTH (R490), defaults (R12),
stated range (R50) and place in a coupled pair (R468).  One row for each row of the chapters' parameter tables.
-/
namespace Sys2Proof.Machine

/-- Access codes of R9, in the order of R51. -/
inductive Access where
  | rw | ro | w1c | rc | wo | st
deriving DecidableEq, Repr

/-- What a written value must satisfy on its own (R50): anything the WIDTH holds; a stated range; a stated list; the bits of a
field map (others Reserved); a range in steps. -/
inductive Check where
  | any
  | range (lo hi : Int)
  | list (vs : List Nat)
  | mask (m : Nat)
  | step (by_ lo hi : Nat)
deriving DecidableEq, Repr

/-- A parameter's description. `first`: its lowest instance; `count`: highest instance + 1; `kept`: [4] I, [3] W, [2] D, [1] S,
[0] N; `defaults`: by instance, the last one standing for the rest; `pair`: 0 none, 1 first field, 2 closing field; `mate`:
the other field's PID. -/
structure ParamDesc where
  pid      : Nat
  first    : Nat
  count    : Nat
  access   : Access
  kept     : Nat
  width    : Nat
  signed   : Bool
  defaults : List Nat
  check    : Check
  pair     : Nat
  mate     : Nat
deriving DecidableEq, Repr

/-! PIDs by name. -/
namespace P

/-- DV_STRAP_STATE, instances 0 to 0 (chapter 01). -/
def DV_STRAP_STATE : Nat := 0x0010
/-- MG_MB_MASK, instances 0 to 0 (chapter 02). -/
def MG_MB_MASK : Nat := 0x0F00
/-- MG_EVENT_MASK, instances 0 to 3 (chapter 02). -/
def MG_EVENT_MASK : Nat := 0x0F01
/-- MG_TXN_TIMEOUT, instances 0 to 0 (chapter 02). -/
def MG_TXN_TIMEOUT : Nat := 0x0F02
/-- MG_PAIR_TIMEOUT, instances 0 to 0 (chapter 02). -/
def MG_PAIR_TIMEOUT : Nat := 0x0F03
/-- MG_EVT_DROP, instances 0 to 3 (chapter 02). -/
def MG_EVT_DROP : Nat := 0x0F04
/-- MG_MSG_SHORT, instances 0 to 3 (chapter 02). -/
def MG_MSG_SHORT : Nat := 0x0F05
/-- LN_ENABLE, instances 0 to 2 (chapter 03). -/
def LN_ENABLE : Nat := 0x0100
/-- LN_RATE_MAX, instances 0 to 2 (chapter 03). -/
def LN_RATE_MAX : Nat := 0x0101
/-- LN_CODE, instances 0 to 2 (chapter 03). -/
def LN_CODE : Nat := 0x0102
/-- LN_DARN_EN, instances 0 to 2 (chapter 03). -/
def LN_DARN_EN : Nat := 0x0103
/-- LN_DARN_ACK_INTERVAL, instances 0 to 2 (chapter 03). -/
def LN_DARN_ACK_INTERVAL : Nat := 0x0104
/-- LN_DARN_TIMEOUT, instances 0 to 2 (chapter 03). -/
def LN_DARN_TIMEOUT : Nat := 0x0105
/-- LN_DARN_MAX_REPLAY, instances 0 to 2 (chapter 03). -/
def LN_DARN_MAX_REPLAY : Nat := 0x0106
/-- LN_TAIL_WAIT, instances 0 to 0 (chapter 03). -/
def LN_TAIL_WAIT : Nat := 0x0107
/-- LN_TX_PRESET, instances 0 to 5 (chapter 03). -/
def LN_TX_PRESET : Nat := 0x0108
/-- LN_DEGRADE_BER, instances 0 to 2 (chapter 03). -/
def LN_DEGRADE_BER : Nat := 0x0109
/-- LN_UNCORR_LIMIT, instances 0 to 2 (chapter 03). -/
def LN_UNCORR_LIMIT : Nat := 0x010A
/-- LN_DEGRADE_ACTION, instances 0 to 2 (chapter 03). -/
def LN_DEGRADE_ACTION : Nat := 0x010B
/-- LN_RETRAIN, instances 0 to 2 (chapter 03). -/
def LN_RETRAIN : Nat := 0x010C
/-- LN_STATE, instances 0 to 2 (chapter 03). -/
def LN_STATE : Nat := 0x0110
/-- LN_RATE, instances 0 to 2 (chapter 03). -/
def LN_RATE : Nat := 0x0111
/-- LN_CODE_ACTIVE, instances 0 to 2 (chapter 03). -/
def LN_CODE_ACTIVE : Nat := 0x0112
/-- LN_TAIL, instances 0 to 0 (chapter 03). -/
def LN_TAIL : Nat := 0x0113
/-- LN_PARTNER, instances 0 to 2 (chapter 03). -/
def LN_PARTNER : Nat := 0x0114
/-- LN_HOLD_REASON, instances 0 to 2 (chapter 03). -/
def LN_HOLD_REASON : Nat := 0x0115
/-- LN_LANE_MAP, instances 0 to 2 (chapter 03). -/
def LN_LANE_MAP : Nat := 0x0116
/-- LN_MARGIN, instances 0 to 5 (chapter 03). -/
def LN_MARGIN : Nat := 0x0117
/-- LN_PRE_BER, instances 0 to 5 (chapter 03). -/
def LN_PRE_BER : Nat := 0x0118
/-- LN_CW_CORRECTED, instances 0 to 5 (chapter 03). -/
def LN_CW_CORRECTED : Nat := 0x0120
/-- LN_CW_UNCORR, instances 0 to 5 (chapter 03). -/
def LN_CW_UNCORR : Nat := 0x0121
/-- LN_SYNC_ERR, instances 0 to 5 (chapter 03). -/
def LN_SYNC_ERR : Nat := 0x0122
/-- LN_SIDE_ERR, instances 0 to 2 (chapter 03). -/
def LN_SIDE_ERR : Nat := 0x0123
/-- LN_HCRC_ERR, instances 0 to 2 (chapter 03). -/
def LN_HCRC_ERR : Nat := 0x0124
/-- LN_CRC_ERR, instances 0 to 2 (chapter 03). -/
def LN_CRC_ERR : Nat := 0x0125
/-- LN_HUNT, instances 0 to 2 (chapter 03). -/
def LN_HUNT : Nat := 0x0126
/-- LN_RX_ABANDON, instances 0 to 2 (chapter 03). -/
def LN_RX_ABANDON : Nat := 0x0127
/-- LN_LL_ERR, instances 0 to 2 (chapter 03). -/
def LN_LL_ERR : Nat := 0x0128
/-- LN_DARN_NAK_TX, instances 0 to 2 (chapter 03). -/
def LN_DARN_NAK_TX : Nat := 0x0129
/-- LN_DARN_NAK_RX, instances 0 to 2 (chapter 03). -/
def LN_DARN_NAK_RX : Nat := 0x012A
/-- LN_DARN_REPLAY, instances 0 to 2 (chapter 03). -/
def LN_DARN_REPLAY : Nat := 0x012B
/-- LN_DARN_STALL, instances 0 to 2 (chapter 03). -/
def LN_DARN_STALL : Nat := 0x012C
/-- LN_DARN_EXHAUST, instances 0 to 2 (chapter 03). -/
def LN_DARN_EXHAUST : Nat := 0x012D
/-- LN_LINK_DOWN, instances 0 to 2 (chapter 03). -/
def LN_LINK_DOWN : Nat := 0x012E
/-- LN_TRAIN_FAIL, instances 0 to 2 (chapter 03). -/
def LN_TRAIN_FAIL : Nat := 0x012F
/-- TN_HOPS_DEFAULT, instances 0 to 0 (chapter 04). -/
def TN_HOPS_DEFAULT : Nat := 0x0200
/-- TN_GAP_WAIT, instances 0 to 0 (chapter 04). -/
def TN_GAP_WAIT : Nat := 0x0201
/-- TN_REASM_TIMEOUT, instances 0 to 0 (chapter 04). -/
def TN_REASM_TIMEOUT : Nat := 0x0202
/-- TN_CTX_IDLE, instances 0 to 0 (chapter 04). -/
def TN_CTX_IDLE : Nat := 0x0203
/-- TN_STALE_LIMIT, instances 0 to 0 (chapter 04). -/
def TN_STALE_LIMIT : Nat := 0x0204
/-- TN_RESYNC_COPIES, instances 0 to 0 (chapter 04). -/
def TN_RESYNC_COPIES : Nat := 0x0205
/-- TN_CTX_INUSE, instances 0 to 0 (chapter 04). -/
def TN_CTX_INUSE : Nat := 0x0210
/-- TN_NO_TUNNEL, instances 0 to 0 (chapter 04). -/
def TN_NO_TUNNEL : Nat := 0x0220
/-- TN_KIND_ERR, instances 0 to 0 (chapter 04). -/
def TN_KIND_ERR : Nat := 0x0221
/-- TN_DUP, instances 0 to 0 (chapter 04). -/
def TN_DUP : Nat := 0x0222
/-- TN_LATE, instances 0 to 0 (chapter 04). -/
def TN_LATE : Nat := 0x0223
/-- TN_STALE, instances 0 to 0 (chapter 04). -/
def TN_STALE : Nat := 0x0224
/-- TN_SEQ_JUMP, instances 0 to 0 (chapter 04). -/
def TN_SEQ_JUMP : Nat := 0x0225
/-- TN_REBASE, instances 0 to 0 (chapter 04). -/
def TN_REBASE : Nat := 0x0226
/-- TN_GAP_DROP, instances 0 to 0 (chapter 04). -/
def TN_GAP_DROP : Nat := 0x0227
/-- TN_FRAME_ERR, instances 0 to 0 (chapter 04). -/
def TN_FRAME_ERR : Nat := 0x0228
/-- TN_OVERSIZE, instances 0 to 0 (chapter 04). -/
def TN_OVERSIZE : Nat := 0x0229
/-- TN_TIMEOUT_DROP, instances 0 to 0 (chapter 04). -/
def TN_TIMEOUT_DROP : Nat := 0x022A
/-- TN_CTX_FULL, instances 0 to 0 (chapter 04). -/
def TN_CTX_FULL : Nat := 0x022B
/-- TN_ENTRY_DISCARD, instances 0 to 0 (chapter 04). -/
def TN_ENTRY_DISCARD : Nat := 0x022C
/-- TN_AUTH_FAIL, instances 0 to 0 (chapter 04). -/
def TN_AUTH_FAIL : Nat := 0x022D
/-- TN_CTR_REPLAY, instances 0 to 0 (chapter 04). -/
def TN_CTR_REPLAY : Nat := 0x022E
/-- TN_CTR_EXHAUST, instances 0 to 0 (chapter 04). -/
def TN_CTR_EXHAUST : Nat := 0x022F
/-- SW_FLOOR, instances 0 to 3 (chapter 05). -/
def SW_FLOOR : Nat := 0x0300
/-- SW_CREDIT_POOL, instances 0 to 1 (chapter 05). -/
def SW_CREDIT_POOL : Nat := 0x0301
/-- SW_CREDIT_INTERVAL, instances 0 to 0 (chapter 05). -/
def SW_CREDIT_INTERVAL : Nat := 0x0302
/-- SW_CREDIT_STALL, instances 0 to 0 (chapter 05). -/
def SW_CREDIT_STALL : Nat := 0x0303
/-- SW_REASM_LIMIT, instances 0 to 0 (chapter 05). -/
def SW_REASM_LIMIT : Nat := 0x0304
/-- SW_OCCUPANCY, instances 0 to 15 (chapter 05). -/
def SW_OCCUPANCY : Nat := 0x0310
/-- SW_CREDIT_AVAIL, instances 0 to 5 (chapter 05). -/
def SW_CREDIT_AVAIL : Nat := 0x0311
/-- SW_LAST_VICTIM, instances 0 to 3 (chapter 05). -/
def SW_LAST_VICTIM : Nat := 0x0312
/-- SW_HOPS_DROP, instances 0 to 2 (chapter 05). -/
def SW_HOPS_DROP : Nat := 0x0320
/-- SW_NOROUTE_DROP, instances 0 to 9 (chapter 05). -/
def SW_NOROUTE_DROP : Nat := 0x0321
/-- SW_BYPASS, instances 0 to 9 (chapter 05). -/
def SW_BYPASS : Nat := 0x0322
/-- SW_PUSHOUT, instances 0 to 15 (chapter 05). -/
def SW_PUSHOUT : Nat := 0x0323
/-- SW_FRAME_DISCARD, instances 0 to 3 (chapter 05). -/
def SW_FRAME_DISCARD : Nat := 0x0324
/-- SW_DISCARD_TABLE_FULL, instances 0 to 3 (chapter 05). -/
def SW_DISCARD_TABLE_FULL : Nat := 0x0325
/-- SW_OVERFLOW_DROP, instances 0 to 15 (chapter 05). -/
def SW_OVERFLOW_DROP : Nat := 0x0326
/-- SW_CREDIT_VIOL, instances 0 to 2 (chapter 05). -/
def SW_CREDIT_VIOL : Nat := 0x0327
/-- SW_INGRESS_DROP, instances 0 to 3 (chapter 05). -/
def SW_INGRESS_DROP : Nat := 0x0328
/-- AL_C0_RESERVE, instances 0 to 9 (chapter 06). -/
def AL_C0_RESERVE : Nat := 0x0400
/-- AL_BOOK_LIMIT, instances 0 to 0 (chapter 06). -/
def AL_BOOK_LIMIT : Nat := 0x0401
/-- AL_DEFAULT_WEIGHT, instances 0 to 0 (chapter 06). -/
def AL_DEFAULT_WEIGHT : Nat := 0x0402
/-- AL_DRR_QUANTUM, instances 0 to 0 (chapter 06). -/
def AL_DRR_QUANTUM : Nat := 0x0403
/-- AL_CLASS_RATE, instances 0 to 3 (chapter 06). -/
def AL_CLASS_RATE : Nat := 0x0404
/-- AL_CLASS_BURST, instances 0 to 3 (chapter 06). -/
def AL_CLASS_BURST : Nat := 0x0405
/-- AL_EPOCH_LEAD, instances 0 to 0 (chapter 06). -/
def AL_EPOCH_LEAD : Nat := 0x0408
/-- AL_EPOCH_COPIES, instances 0 to 0 (chapter 06). -/
def AL_EPOCH_COPIES : Nat := 0x0409
/-- AL_EPOCH_SPACING, instances 0 to 0 (chapter 06). -/
def AL_EPOCH_SPACING : Nat := 0x040A
/-- AL_EPOCH_PLAN, instances 0 to 0 (chapter 06). -/
def AL_EPOCH_PLAN : Nat := 0x040B
/-- AL_EPOCH_TIME, instances 0 to 0 (chapter 06). -/
def AL_EPOCH_TIME : Nat := 0x040C
/-- AL_EPOCH_ARM, instances 0 to 0 (chapter 06). -/
def AL_EPOCH_ARM : Nat := 0x040D
/-- AL_EPOCH_CANCEL, instances 0 to 0 (chapter 06). -/
def AL_EPOCH_CANCEL : Nat := 0x040E
/-- AL_EPOCH_SENT, instances 0 to 0 (chapter 06). -/
def AL_EPOCH_SENT : Nat := 0x040F
/-- AL_PLAN_ID_SHADOW, instances 0 to 0 (chapter 06). -/
def AL_PLAN_ID_SHADOW : Nat := 0x0410
/-- AL_PLAN_ID_ACTIVE, instances 0 to 0 (chapter 06). -/
def AL_PLAN_ID_ACTIVE : Nat := 0x0411
/-- AL_EPOCH_ARMED, instances 0 to 0 (chapter 06). -/
def AL_EPOCH_ARMED : Nat := 0x0412
/-- AL_EPOCH_ARMED_TIME, instances 0 to 0 (chapter 06). -/
def AL_EPOCH_ARMED_TIME : Nat := 0x0413
/-- AL_EPOCH_APPLIED, instances 0 to 0 (chapter 06). -/
def AL_EPOCH_APPLIED : Nat := 0x0414
/-- AL_EPOCH_APPLIED_TIME, instances 0 to 0 (chapter 06). -/
def AL_EPOCH_APPLIED_TIME : Nat := 0x0415
/-- AL_SHADOW_STATUS, instances 0 to 9 (chapter 06). -/
def AL_SHADOW_STATUS : Nat := 0x0418
/-- AL_ACTIVE_STATUS, instances 0 to 9 (chapter 06). -/
def AL_ACTIVE_STATUS : Nat := 0x0419
/-- AL_GOV_LEVEL, instances 0 to 0 (chapter 06). -/
def AL_GOV_LEVEL : Nat := 0x0420
/-- AL_GOV_T, instances 0 to 2 (chapter 06). -/
def AL_GOV_T : Nat := 0x0421
/-- AL_GOV_HYST, instances 0 to 0 (chapter 06). -/
def AL_GOV_HYST : Nat := 0x0422
/-- AL_GOV_VBACK_LEVEL, instances 0 to 0 (chapter 06). -/
def AL_GOV_VBACK_LEVEL : Nat := 0x0423
/-- AL_GOV_POWER_LIMIT, instances 0 to 0 (chapter 06). -/
def AL_GOV_POWER_LIMIT : Nat := 0x0424
/-- AL_GOV_FORCE, instances 0 to 0 (chapter 06). -/
def AL_GOV_FORCE : Nat := 0x0425
/-- AL_GOV_DWELL, instances 0 to 0 (chapter 06). -/
def AL_GOV_DWELL : Nat := 0x0426
/-- AL_GOV_DE_CAP, instances 0 to 3 (chapter 06). -/
def AL_GOV_DE_CAP : Nat := 0x0427
/-- AL_GOV_IDLE_SUSPEND, instances 0 to 0 (chapter 06). -/
def AL_GOV_IDLE_SUSPEND : Nat := 0x0428
/-- AL_GOV_C3_CAP, instances 0 to 0 (chapter 06). -/
def AL_GOV_C3_CAP : Nat := 0x0429
/-- AL_GOV_CAUSE, instances 0 to 0 (chapter 06). -/
def AL_GOV_CAUSE : Nat := 0x042A
/-- AL_GOV_TMAX, instances 0 to 0 (chapter 06). -/
def AL_GOV_TMAX : Nat := 0x042B
/-- AL_GOV_POWER_EST, instances 0 to 0 (chapter 06). -/
def AL_GOV_POWER_EST : Nat := 0x042C
/-- AL_POLICE_DROP, instances 0 to 0 (chapter 06). -/
def AL_POLICE_DROP : Nat := 0x0430
/-- AL_UNALLOTTED, instances 0 to 9 (chapter 06). -/
def AL_UNALLOTTED : Nat := 0x0431
/-- AL_GOV_DROP, instances 0 to 9 (chapter 06). -/
def AL_GOV_DROP : Nat := 0x0432
/-- AL_LATE_EPOCH, instances 0 to 0 (chapter 06). -/
def AL_LATE_EPOCH : Nat := 0x0433
/-- AL_EPOCH_STALE, instances 0 to 0 (chapter 06). -/
def AL_EPOCH_STALE : Nat := 0x0434
/-- AL_EPOCH_REPLACED, instances 0 to 0 (chapter 06). -/
def AL_EPOCH_REPLACED : Nat := 0x0435
/-- AL_EPOCH_BAD, instances 0 to 0 (chapter 06). -/
def AL_EPOCH_BAD : Nat := 0x0436
/-- RL_DETOUR_EN, instances 0 to 1 (chapter 07). -/
def RL_DETOUR_EN : Nat := 0x0500
/-- RL_DETOUR_ACCEPT, instances 0 to 0 (chapter 07). -/
def RL_DETOUR_ACCEPT : Nat := 0x0501
/-- RL_DETOUR_RELEASE, instances 0 to 0 (chapter 07). -/
def RL_DETOUR_RELEASE : Nat := 0x0502
/-- RL_DETOUR_QUIET, instances 0 to 0 (chapter 07). -/
def RL_DETOUR_QUIET : Nat := 0x0503
/-- RL_ID_MODE, instances 0 to 0 (chapter 07). -/
def RL_ID_MODE : Nat := 0x0504
/-- RL_NODE_ID_FIXED, instances 0 to 0 (chapter 07). -/
def RL_NODE_ID_FIXED : Nat := 0x0505
/-- RL_REENUMERATE, instances 0 to 0 (chapter 07). -/
def RL_REENUMERATE : Nat := 0x0506
/-- RL_TIME_SOURCE_MODE, instances 0 to 0 (chapter 07). -/
def RL_TIME_SOURCE_MODE : Nat := 0x0508
/-- RL_ASYM, instances 0 to 2 (chapter 07). -/
def RL_ASYM : Nat := 0x0509
/-- RL_HOLDOVER_LIMIT, instances 0 to 0 (chapter 07). -/
def RL_HOLDOVER_LIMIT : Nat := 0x050A
/-- RL_TIME_STEP, instances 0 to 0 (chapter 07). -/
def RL_TIME_STEP : Nat := 0x050B
/-- RL_FREQ_ADJ, instances 0 to 0 (chapter 07). -/
def RL_FREQ_ADJ : Nat := 0x050C
/-- RL_PPS_MODE, instances 0 to 0 (chapter 07). -/
def RL_PPS_MODE : Nat := 0x050D
/-- RL_PPS_WIDTH, instances 0 to 0 (chapter 07). -/
def RL_PPS_WIDTH : Nat := 0x050E
/-- RL_TCAP_EDGE, instances 0 to 1 (chapter 07). -/
def RL_TCAP_EDGE : Nat := 0x050F
/-- RL_TCAP_STATUS, instances 0 to 1 (chapter 07). -/
def RL_TCAP_STATUS : Nat := 0x0510
/-- RL_TCAP_READ, instances 0 to 1 (chapter 07). -/
def RL_TCAP_READ : Nat := 0x0511
/-- RL_TIME_STATE, instances 0 to 0 (chapter 07). -/
def RL_TIME_STATE : Nat := 0x0520
/-- RL_OFFSET, instances 0 to 0 (chapter 07). -/
def RL_OFFSET : Nat := 0x0521
/-- RL_LINK_DELAY, instances 0 to 2 (chapter 07). -/
def RL_LINK_DELAY : Nat := 0x0522
/-- RL_FREQ, instances 0 to 0 (chapter 07). -/
def RL_FREQ : Nat := 0x0523
/-- RL_DETOUR_STATE, instances 0 to 1 (chapter 07). -/
def RL_DETOUR_STATE : Nat := 0x0524
/-- RL_TWIN_PORTS, instances 0 to 0 (chapter 07). -/
def RL_TWIN_PORTS : Nat := 0x0525
/-- RL_DEPTH, instances 0 to 0 (chapter 07). -/
def RL_DEPTH : Nat := 0x0526
/-- RL_DETOUR_CELLS, instances 0 to 1 (chapter 07). -/
def RL_DETOUR_CELLS : Nat := 0x0530
/-- RL_DETOUR_TRANSIT, instances 0 to 0 (chapter 07). -/
def RL_DETOUR_TRANSIT : Nat := 0x0531
/-- RL_DETOUR_EXIT, instances 0 to 0 (chapter 07). -/
def RL_DETOUR_EXIT : Nat := 0x0532
/-- RL_DETOUR_DROP, instances 0 to 0 (chapter 07). -/
def RL_DETOUR_DROP : Nat := 0x0533
/-- RL_DETOUR_ERR, instances 0 to 0 (chapter 07). -/
def RL_DETOUR_ERR : Nat := 0x0534
/-- RL_TW_RAIL_ERR, instances 0 to 0 (chapter 07). -/
def RL_TW_RAIL_ERR : Nat := 0x0535
/-- RL_DARN_UNACKED, instances 0 to 2 (chapter 07). -/
def RL_DARN_UNACKED : Nat := 0x0536
/-- RL_TIME_STEPS, instances 0 to 0 (chapter 07). -/
def RL_TIME_STEPS : Nat := 0x0537
/-- DE_ENABLE, instances 0 to 0 (chapter 08). -/
def DE_ENABLE : Nat := 0x0600
/-- DE_BUCKET_ORDER, instances 0 to 1 (chapter 08). -/
def DE_BUCKET_ORDER : Nat := 0x0601
/-- DE_MISS_ACTION, instances 0 to 0 (chapter 08). -/
def DE_MISS_ACTION : Nat := 0x0602
/-- DE_FWD_TUNNEL, instances 0 to 0 (chapter 08). -/
def DE_FWD_TUNNEL : Nat := 0x0603
/-- DE_LATE_GRACE, instances 0 to 0 (chapter 08). -/
def DE_LATE_GRACE : Nat := 0x0604
/-- DE_EDGE_TUNNEL, instances 0 to 0 (chapter 08). -/
def DE_EDGE_TUNNEL : Nat := 0x0605
/-- DE_BANK_PLAN, instances 0 to 1 (chapter 08). -/
def DE_BANK_PLAN : Nat := 0x0606
/-- DE_FWD_RING_BASE, instances 0 to 0 (chapter 08). -/
def DE_FWD_RING_BASE : Nat := 0x0607
/-- DE_FWD_RING_SIZE, instances 0 to 0 (chapter 08). -/
def DE_FWD_RING_SIZE : Nat := 0x0608
/-- DE_FWD_READ, instances 0 to 0 (chapter 08). -/
def DE_FWD_READ : Nat := 0x0609
/-- DE_FWD_WRITE, instances 0 to 0 (chapter 08). -/
def DE_FWD_WRITE : Nat := 0x060A
/-- DE_GPIO_CFG, instances 0 to 31 (chapter 08). -/
def DE_GPIO_CFG : Nat := 0x0610
/-- DE_GPIO_LEVEL, instances 0 to 0 (chapter 08). -/
def DE_GPIO_LEVEL : Nat := 0x0611
/-- DE_BANK_STATE, instances 0 to 1 (chapter 08). -/
def DE_BANK_STATE : Nat := 0x0618
/-- DE_ACTIVE_BANK, instances 0 to 0 (chapter 08). -/
def DE_ACTIVE_BANK : Nat := 0x0619
/-- DE_LOOKUPS, instances 0 to 0 (chapter 08). -/
def DE_LOOKUPS : Nat := 0x0620
/-- DE_HITS, instances 0 to 0 (chapter 08). -/
def DE_HITS : Nat := 0x0621
/-- DE_CACHE_HITS, instances 0 to 0 (chapter 08). -/
def DE_CACHE_HITS : Nat := 0x0622
/-- DE_MISS, instances 0 to 0 (chapter 08). -/
def DE_MISS : Nat := 0x0623
/-- DE_EVENT_DROP, instances 0 to 3 (chapter 08). -/
def DE_EVENT_DROP : Nat := 0x0624
/-- DE_ACTION_ERR, instances 0 to 0 (chapter 08). -/
def DE_ACTION_ERR : Nat := 0x0625
/-- DE_CHAIN_STOP, instances 0 to 0 (chapter 08). -/
def DE_CHAIN_STOP : Nat := 0x0626
/-- DE_ACT_DONE, instances 0 to 31 (chapter 08). -/
def DE_ACT_DONE : Nat := 0x0627
/-- DE_ACT_LATE, instances 0 to 31 (chapter 08). -/
def DE_ACT_LATE : Nat := 0x0628
/-- DE_ACT_EXPIRED, instances 0 to 31 (chapter 08). -/
def DE_ACT_EXPIRED : Nat := 0x0629
/-- DE_ACT_DROP, instances 0 to 31 (chapter 08). -/
def DE_ACT_DROP : Nat := 0x062A
/-- DE_FWD_OVERFLOW, instances 0 to 0 (chapter 08). -/
def DE_FWD_OVERFLOW : Nat := 0x062B
/-- DE_SWAP_REFUSED, instances 0 to 0 (chapter 08). -/
def DE_SWAP_REFUSED : Nat := 0x062C
/-- DE_COUNT, instances 0 to 255 (chapter 08). -/
def DE_COUNT : Nat := 0x062D
/-- BR_BAR2_SIZE, instances 0 to 0 (chapter 09). -/
def BR_BAR2_SIZE : Nat := 0x0700
/-- BR_PCIE_SPEED_MAX, instances 0 to 0 (chapter 09). -/
def BR_PCIE_SPEED_MAX : Nat := 0x0701
/-- BR_PCIE_WIDTH_MAX, instances 0 to 0 (chapter 09). -/
def BR_PCIE_WIDTH_MAX : Nat := 0x0702
/-- BR_PCIE_SUBSYS, instances 0 to 0 (chapter 09). -/
def BR_PCIE_SUBSYS : Nat := 0x0703
/-- BR_ASPM_L1, instances 0 to 0 (chapter 09). -/
def BR_ASPM_L1 : Nat := 0x0704
/-- BR_LINK_RESET, instances 0 to 0 (chapter 09). -/
def BR_LINK_RESET : Nat := 0x0705
/-- BR_CPL_TIMEOUT, instances 0 to 0 (chapter 09). -/
def BR_CPL_TIMEOUT : Nat := 0x0706
/-- BR_ERR_RESPONSE, instances 0 to 0 (chapter 09). -/
def BR_ERR_RESPONSE : Nat := 0x0707
/-- BR_NOTICE_INTERVAL, instances 0 to 0 (chapter 09). -/
def BR_NOTICE_INTERVAL : Nat := 0x0708
/-- BR_PREFETCH_AUDIT, instances 0 to 0 (chapter 09). -/
def BR_PREFETCH_AUDIT : Nat := 0x0709
/-- BR_MEMT_BASE, instances 0 to 0 (chapter 09). -/
def BR_MEMT_BASE : Nat := 0x070A
/-- BR_MEMT_SIZE, instances 0 to 0 (chapter 09). -/
def BR_MEMT_SIZE : Nat := 0x070B
/-- BR_PCIE_LINK, instances 0 to 0 (chapter 09). -/
def BR_PCIE_LINK : Nat := 0x0710
/-- BR_PWERR_INFO, instances 0 to 15 (chapter 09). -/
def BR_PWERR_INFO : Nat := 0x0711
/-- BR_PWERR_OFFSET, instances 0 to 15 (chapter 09). -/
def BR_PWERR_OFFSET : Nat := 0x0712
/-- BR_PWERR_TIME, instances 0 to 15 (chapter 09). -/
def BR_PWERR_TIME : Nat := 0x0713
/-- BR_PWERR_USED, instances 0 to 0 (chapter 09). -/
def BR_PWERR_USED : Nat := 0x0714
/-- BR_PWERR_OVERFLOW, instances 0 to 0 (chapter 09). -/
def BR_PWERR_OVERFLOW : Nat := 0x0715
/-- BR_PWERR_CLEAR, instances 0 to 0 (chapter 09). -/
def BR_PWERR_CLEAR : Nat := 0x0716
/-- BR_PREFETCH_AUDIT_ADDR, instances 0 to 63 (chapter 09). -/
def BR_PREFETCH_AUDIT_ADDR : Nat := 0x0717
/-- BR_PREFETCH_DISCARD, instances 0 to 63 (chapter 09). -/
def BR_PREFETCH_DISCARD : Nat := 0x0720
/-- BR_PREFETCH_HIT, instances 0 to 63 (chapter 09). -/
def BR_PREFETCH_HIT : Nat := 0x0721
/-- BR_NO_WINDOW, instances 0 to 0 (chapter 09). -/
def BR_NO_WINDOW : Nat := 0x0722
/-- BR_WIN_FAIL, instances 0 to 63 (chapter 09). -/
def BR_WIN_FAIL : Nat := 0x0723
/-- BR_CPL_EXPIRED, instances 0 to 0 (chapter 09). -/
def BR_CPL_EXPIRED : Nat := 0x0724
/-- BR_CPL_LATE, instances 0 to 0 (chapter 09). -/
def BR_CPL_LATE : Nat := 0x0725
/-- BR_NO_RETURN, instances 0 to 0 (chapter 09). -/
def BR_NO_RETURN : Nat := 0x0726
/-- BR_FRAME_ERR, instances 0 to 0 (chapter 09). -/
def BR_FRAME_ERR : Nat := 0x0727
/-- BR_INTX_DROP, instances 0 to 0 (chapter 09). -/
def BR_INTX_DROP : Nat := 0x0728
/-- EN_ENABLE, instances 0 to 3 (chapter 10). -/
def EN_ENABLE : Nat := 0x0800
/-- EN_MODE, instances 0 to 3 (chapter 10). -/
def EN_MODE : Nat := 0x0801
/-- EN_MAX_FRAME, instances 0 to 3 (chapter 10). -/
def EN_MAX_FRAME : Nat := 0x0802
/-- EN_PVID, instances 0 to 3 (chapter 10). -/
def EN_PVID : Nat := 0x0803
/-- EN_PAUSE, instances 0 to 3 (chapter 10). -/
def EN_PAUSE : Nat := 0x0804
/-- EN_PAUSE_XON, instances 0 to 3 (chapter 10). -/
def EN_PAUSE_XON : Nat := 0x0805
/-- EN_PAUSE_XOFF, instances 0 to 3 (chapter 10). -/
def EN_PAUSE_XOFF : Nat := 0x0806
/-- EN_PAUSE_QUANTA, instances 0 to 3 (chapter 10). -/
def EN_PAUSE_QUANTA : Nat := 0x0807
/-- EN_LINK, instances 0 to 3 (chapter 10). -/
def EN_LINK : Nat := 0x0810
/-- EN_FILTER_LAST_TS, instances 0 to 63 (chapter 10). -/
def EN_FILTER_LAST_TS : Nat := 0x0811
/-- EN_RX_FRAMES, instances 0 to 3 (chapter 10). -/
def EN_RX_FRAMES : Nat := 0x0820
/-- EN_RX_BYTES, instances 0 to 3 (chapter 10). -/
def EN_RX_BYTES : Nat := 0x0821
/-- EN_RX_ERR, instances 0 to 3 (chapter 10). -/
def EN_RX_ERR : Nat := 0x0822
/-- EN_RX_RUNT, instances 0 to 3 (chapter 10). -/
def EN_RX_RUNT : Nat := 0x0823
/-- EN_RX_OVERSIZE, instances 0 to 3 (chapter 10). -/
def EN_RX_OVERSIZE : Nat := 0x0824
/-- EN_RX_FCS, instances 0 to 3 (chapter 10). -/
def EN_RX_FCS : Nat := 0x0825
/-- EN_RX_PAUSE, instances 0 to 3 (chapter 10). -/
def EN_RX_PAUSE : Nat := 0x0826
/-- EN_RX_NOMAP, instances 0 to 3 (chapter 10). -/
def EN_RX_NOMAP : Nat := 0x0827
/-- EN_RX_NOTUNNEL, instances 0 to 3 (chapter 10). -/
def EN_RX_NOTUNNEL : Nat := 0x0828
/-- EN_RX_FULL, instances 0 to 3 (chapter 10). -/
def EN_RX_FULL : Nat := 0x0829
/-- EN_TX_FRAMES, instances 0 to 3 (chapter 10). -/
def EN_TX_FRAMES : Nat := 0x082A
/-- EN_TX_BYTES, instances 0 to 3 (chapter 10). -/
def EN_TX_BYTES : Nat := 0x082B
/-- EN_TX_PAUSE, instances 0 to 3 (chapter 10). -/
def EN_TX_PAUSE : Nat := 0x082C
/-- EN_TX_DOWN, instances 0 to 3 (chapter 10). -/
def EN_TX_DOWN : Nat := 0x082D
/-- EN_TX_OVERSIZE, instances 0 to 3 (chapter 10). -/
def EN_TX_OVERSIZE : Nat := 0x082E
/-- EN_FILTER_HITS, instances 0 to 63 (chapter 10). -/
def EN_FILTER_HITS : Nat := 0x082F
/-- EN_FILTER_SHORT, instances 0 to 0 (chapter 10). -/
def EN_FILTER_SHORT : Nat := 0x0830
/-- US_PORT_ENABLE, instances 0 to 7 (chapter 11). -/
def US_PORT_ENABLE : Nat := 0x0900
/-- US_SPEED_MAX, instances 0 to 3 (chapter 11). -/
def US_SPEED_MAX : Nat := 0x0901
/-- US_OC_MODE, instances 0 to 0 (chapter 11). -/
def US_OC_MODE : Nat := 0x0902
/-- US_OC_DEGLITCH, instances 0 to 0 (chapter 11). -/
def US_OC_DEGLITCH : Nat := 0x0903
/-- US_IDLE_SUSPEND, instances 0 to 0 (chapter 11). -/
def US_IDLE_SUSPEND : Nat := 0x0904
/-- US_SOF_MODE, instances 0 to 0 (chapter 11). -/
def US_SOF_MODE : Nat := 0x0905
/-- US_SOF_TRIM, instances 0 to 0 (chapter 11). -/
def US_SOF_TRIM : Nat := 0x0906
/-- US_SOF_PHASE, instances 0 to 0 (chapter 11). -/
def US_SOF_PHASE : Nat := 0x0907
/-- US_RING_BASE, instances 0 to 0 (chapter 11). -/
def US_RING_BASE : Nat := 0x0908
/-- US_RING_ORDER, instances 0 to 0 (chapter 11). -/
def US_RING_ORDER : Nat := 0x0909
/-- US_RING_POLL, instances 0 to 0 (chapter 11). -/
def US_RING_POLL : Nat := 0x090A
/-- US_SVC_ENABLE, instances 0 to 0 (chapter 11). -/
def US_SVC_ENABLE : Nat := 0x090B
/-- US_PORT_STATUS, instances 0 to 7 (chapter 11). -/
def US_PORT_STATUS : Nat := 0x0910
/-- US_FRAME, instances 0 to 0 (chapter 11). -/
def US_FRAME : Nat := 0x0911
/-- US_XFER_DONE, instances 0 to 7 (chapter 11). -/
def US_XFER_DONE : Nat := 0x0920
/-- US_XFER_ERR, instances 0 to 7 (chapter 11). -/
def US_XFER_ERR : Nat := 0x0921
/-- US_OC_TRIPS, instances 0 to 7 (chapter 11). -/
def US_OC_TRIPS : Nat := 0x0922
/-- US_BIND_SHORT, instances 0 to 63 (chapter 11). -/
def US_BIND_SHORT : Nat := 0x0923
/-- US_MSG_ERR, instances 0 to 0 (chapter 11). -/
def US_MSG_ERR : Nat := 0x0924
/-- US_SVC_ABANDON, instances 0 to 0 (chapter 11). -/
def US_SVC_ABANDON : Nat := 0x0925
/-- TC_ENABLE, instances 0 to 3 (chapter 12). -/
def TC_ENABLE : Nat := 0x0A00
/-- TC_POWER_BUDGET, instances 0 to 0 (chapter 12). -/
def TC_POWER_BUDGET : Nat := 0x0A01
/-- TC_MAX_VOLTAGE, instances 0 to 3 (chapter 12). -/
def TC_MAX_VOLTAGE : Nat := 0x0A02
/-- TC_EPR_ENABLE, instances 0 to 3 (chapter 12). -/
def TC_EPR_ENABLE : Nat := 0x0A03
/-- TC_SINK_ALLOW, instances 0 to 3 (chapter 12). -/
def TC_SINK_ALLOW : Nat := 0x0A04
/-- TC_DR_SWAP_ALLOW, instances 0 to 3 (chapter 12). -/
def TC_DR_SWAP_ALLOW : Nat := 0x0A05
/-- TC_SINK_MAX_CURRENT, instances 0 to 3 (chapter 12). -/
def TC_SINK_MAX_CURRENT : Nat := 0x0A06
/-- TC_DP_PIN_PREF, instances 0 to 3 (chapter 12). -/
def TC_DP_PIN_PREF : Nat := 0x0A07
/-- TC_PORT_STATE, instances 0 to 3 (chapter 12). -/
def TC_PORT_STATE : Nat := 0x0A10
/-- TC_CONTRACT, instances 0 to 3 (chapter 12). -/
def TC_CONTRACT : Nat := 0x0A11
/-- TC_BUDGET_USED, instances 0 to 0 (chapter 12). -/
def TC_BUDGET_USED : Nat := 0x0A12
/-- TC_ATTACHES, instances 0 to 3 (chapter 12). -/
def TC_ATTACHES : Nat := 0x0A20
/-- TC_HARD_RESETS, instances 0 to 3 (chapter 12). -/
def TC_HARD_RESETS : Nat := 0x0A21
/-- TC_DETACH_TRANSITION, instances 0 to 3 (chapter 12). -/
def TC_DETACH_TRANSITION : Nat := 0x0A22
/-- TC_VCONN_TRIP, instances 0 to 3 (chapter 12). -/
def TC_VCONN_TRIP : Nat := 0x0A23
/-- DS_ROUTE, instances 0 to 1 (chapter 13). -/
def DS_ROUTE : Nat := 0x0C00
/-- DS_CLONE, instances 0 to 0 (chapter 13). -/
def DS_CLONE : Nat := 0x0C01
/-- DS_H_ACTIVE, instances 0 to 1 (chapter 13). -/
def DS_H_ACTIVE : Nat := 0x0C02
/-- DS_H_TOTAL, instances 0 to 1 (chapter 13). -/
def DS_H_TOTAL : Nat := 0x0C03
/-- DS_V_ACTIVE, instances 0 to 1 (chapter 13). -/
def DS_V_ACTIVE : Nat := 0x0C04
/-- DS_V_TOTAL, instances 0 to 1 (chapter 13). -/
def DS_V_TOTAL : Nat := 0x0C05
/-- DS_H_SYNC, instances 0 to 1 (chapter 13). -/
def DS_H_SYNC : Nat := 0x0C06
/-- DS_V_SYNC, instances 0 to 1 (chapter 13). -/
def DS_V_SYNC : Nat := 0x0C07
/-- DS_PIXEL_CLOCK, instances 0 to 1 (chapter 13). -/
def DS_PIXEL_CLOCK : Nat := 0x0C08
/-- DS_POLARITY, instances 0 to 1 (chapter 13). -/
def DS_POLARITY : Nat := 0x0C09
/-- DS_BPC, instances 0 to 1 (chapter 13). -/
def DS_BPC : Nat := 0x0C0A
/-- DS_LINK_MAX, instances 0 to 1 (chapter 13). -/
def DS_LINK_MAX : Nat := 0x0C0B
/-- DS_WATERMARK, instances 0 to 1 (chapter 13). -/
def DS_WATERMARK : Nat := 0x0C0C
/-- DS_FALLBACK_COLOUR, instances 0 to 1 (chapter 13). -/
def DS_FALLBACK_COLOUR : Nat := 0x0C0D
/-- DS_PATTERN, instances 0 to 1 (chapter 13). -/
def DS_PATTERN : Nat := 0x0C0E
/-- DS_SHED_HALF, instances 0 to 1 (chapter 13). -/
def DS_SHED_HALF : Nat := 0x0C0F
/-- DS_WATCH_ORIGIN, instances 0 to 1 (chapter 13). -/
def DS_WATCH_ORIGIN : Nat := 0x0C10
/-- DS_WATCH_SIZE, instances 0 to 1 (chapter 13). -/
def DS_WATCH_SIZE : Nat := 0x0C11
/-- DS_FREEZE_N, instances 0 to 1 (chapter 13). -/
def DS_FREEZE_N : Nat := 0x0C12
/-- DS_STARVE_M, instances 0 to 1 (chapter 13). -/
def DS_STARVE_M : Nat := 0x0C13
/-- DS_FREEZE_ACTION, instances 0 to 1 (chapter 13). -/
def DS_FREEZE_ACTION : Nat := 0x0C14
/-- DS_STARVE_ACTION, instances 0 to 1 (chapter 13). -/
def DS_STARVE_ACTION : Nat := 0x0C15
/-- DS_ALARM_LATCH, instances 0 to 1 (chapter 13). -/
def DS_ALARM_LATCH : Nat := 0x0C16
/-- DS_STATE, instances 0 to 1 (chapter 13). -/
def DS_STATE : Nat := 0x0C20
/-- DS_SIGNATURE, instances 0 to 1 (chapter 13). -/
def DS_SIGNATURE : Nat := 0x0C21
/-- DS_FRAMES_IN, instances 0 to 1 (chapter 13). -/
def DS_FRAMES_IN : Nat := 0x0C30
/-- DS_FRAMES_SHOWN, instances 0 to 1 (chapter 13). -/
def DS_FRAMES_SHOWN : Nat := 0x0C31
/-- DS_FRAME_SKIP, instances 0 to 1 (chapter 13). -/
def DS_FRAME_SKIP : Nat := 0x0C32
/-- DS_FRAME_SUPERSEDED, instances 0 to 1 (chapter 13). -/
def DS_FRAME_SUPERSEDED : Nat := 0x0C33
/-- DS_FRAME_INCOMPLETE, instances 0 to 1 (chapter 13). -/
def DS_FRAME_INCOMPLETE : Nat := 0x0C34
/-- DS_GEOMETRY_DROP, instances 0 to 1 (chapter 13). -/
def DS_GEOMETRY_DROP : Nat := 0x0C35
/-- DS_FORMAT_ERR, instances 0 to 1 (chapter 13). -/
def DS_FORMAT_ERR : Nat := 0x0C36
/-- DS_UNDERRUN, instances 0 to 1 (chapter 13). -/
def DS_UNDERRUN : Nat := 0x0C37
/-- DS_FROZEN_COUNT, instances 0 to 1 (chapter 13). -/
def DS_FROZEN_COUNT : Nat := 0x0C38
/-- DS_STARVED_COUNT, instances 0 to 1 (chapter 13). -/
def DS_STARVED_COUNT : Nat := 0x0C39
/-- DS_NOTIFY_FAIL, instances 0 to 1 (chapter 13). -/
def DS_NOTIFY_FAIL : Nat := 0x0C3A
/-- DS_CLONE_DROP, instances 0 to 0 (chapter 13). -/
def DS_CLONE_DROP : Nat := 0x0C3B
/-- FU_SUPPLY_UV, instances 0 to 1 (chapter 14). -/
def FU_SUPPLY_UV : Nat := 0x0B00
/-- FU_SUPPLY_OV, instances 0 to 1 (chapter 14). -/
def FU_SUPPLY_OV : Nat := 0x0B01
/-- FU_RETURN_DELAY, instances 0 to 0 (chapter 14). -/
def FU_RETURN_DELAY : Nat := 0x0B02
/-- FU_SUPPLY_STATE, instances 0 to 0 (chapter 14). -/
def FU_SUPPLY_STATE : Nat := 0x0B03
/-- FU_SUPPLY_MV, instances 0 to 1 (chapter 14). -/
def FU_SUPPLY_MV : Nat := 0x0B04
/-- FU_ENABLE, instances 0 to 0 (chapter 14). -/
def FU_ENABLE : Nat := 0x0B10
/-- FU_BASE, instances 0 to 0 (chapter 14). -/
def FU_BASE : Nat := 0x0B11
/-- FU_RAMP_LIMIT, instances 0 to 4 (chapter 14). -/
def FU_RAMP_LIMIT : Nat := 0x0B12
/-- FU_ILIM_MULT, instances 0 to 4 (chapter 14). -/
def FU_ILIM_MULT : Nat := 0x0B13
/-- FU_FAST_MULT, instances 0 to 4 (chapter 14). -/
def FU_FAST_MULT : Nat := 0x0B14
/-- FU_FAULT_TIME, instances 0 to 4 (chapter 14). -/
def FU_FAULT_TIME : Nat := 0x0B15
/-- FU_SOA_BUDGET, instances 0 to 4 (chapter 14). -/
def FU_SOA_BUDGET : Nat := 0x0B16
/-- FU_SOA_DECAY, instances 0 to 4 (chapter 14). -/
def FU_SOA_DECAY : Nat := 0x0B17
/-- FU_CURVE, instances 0 to 39 (chapter 14). -/
def FU_CURVE : Nat := 0x0B18
/-- FU_RETRIES, instances 0 to 4 (chapter 14). -/
def FU_RETRIES : Nat := 0x0B19
/-- FU_RETRY_CLEAR, instances 0 to 4 (chapter 14). -/
def FU_RETRY_CLEAR : Nat := 0x0B1A
/-- FU_VIN_UV, instances 0 to 0 (chapter 14). -/
def FU_VIN_UV : Nat := 0x0B1B
/-- FU_DISCHARGE, instances 0 to 0 (chapter 14). -/
def FU_DISCHARGE : Nat := 0x0B1C
/-- FU_STATE, instances 0 to 4 (chapter 14). -/
def FU_STATE : Nat := 0x0B20
/-- FU_LATCHED, instances 0 to 4 (chapter 14). -/
def FU_LATCHED : Nat := 0x0B21
/-- FU_BASE_ACTIVE, instances 0 to 4 (chapter 14). -/
def FU_BASE_ACTIVE : Nat := 0x0B22
/-- FU_CURRENT, instances 0 to 4 (chapter 14). -/
def FU_CURRENT : Nat := 0x0B23
/-- FU_VIN, instances 0 to 4 (chapter 14). -/
def FU_VIN : Nat := 0x0B24
/-- FU_VOUT, instances 0 to 4 (chapter 14). -/
def FU_VOUT : Nat := 0x0B25
/-- FU_SOA_LEVEL, instances 0 to 4 (chapter 14). -/
def FU_SOA_LEVEL : Nat := 0x0B26
/-- FU_LAST_TRIP, instances 0 to 4 (chapter 14). -/
def FU_LAST_TRIP : Nat := 0x0B27
/-- FU_TRIPS, instances 0 to 4 (chapter 14). -/
def FU_TRIPS : Nat := 0x0B30
/-- FU_FAST_TRIPS, instances 0 to 4 (chapter 14). -/
def FU_FAST_TRIPS : Nat := 0x0B31
/-- FU_SWITCHOVERS, instances 0 to 1 (chapter 14). -/
def FU_SWITCHOVERS : Nat := 0x0B32
/-- PW_ISLAND_STATE, instances 0 to 11 (chapter 15). -/
def PW_ISLAND_STATE : Nat := 0x1040
/-- PW_ISLAND_TEMP, instances 0 to 11 (chapter 15). -/
def PW_ISLAND_TEMP : Nat := 0x1041
/-- PW_ISLAND_MV, instances 0 to 11 (chapter 15). -/
def PW_ISLAND_MV : Nat := 0x1042
/-- PW_SEAM_DISCARD, instances 0 to 23 (chapter 15). -/
def PW_SEAM_DISCARD : Nat := 0x1043
/-- PW_SEAM_RESETS, instances 0 to 23 (chapter 15). -/
def PW_SEAM_RESETS : Nat := 0x1044
/-- PW_GRADIENT_ALARMS, instances 0 to 11 (chapter 15). -/
def PW_GRADIENT_ALARMS : Nat := 0x1045
/-- PW_SKEW_RESETS, instances 0 to 11 (chapter 15). -/
def PW_SKEW_RESETS : Nat := 0x1046
/-- PW_AON_TRIM_MODE, instances 0 to 0 (chapter 15). -/
def PW_AON_TRIM_MODE : Nat := 0x1047
/-- PW_AON_TRIM_STATE, instances 0 to 0 (chapter 15). -/
def PW_AON_TRIM_STATE : Nat := 0x1048
/-- PW_STATE, instances 0 to 0 (chapter 16). -/
def PW_STATE : Nat := 0x1000
/-- PW_WAKE_MASK, instances 0 to 1 (chapter 16). -/
def PW_WAKE_MASK : Nat := 0x1001
/-- PW_GPIO_WAKE, instances 0 to 1 (chapter 16). -/
def PW_GPIO_WAKE : Nat := 0x1002
/-- PW_WAKE_TIMER, instances 0 to 0 (chapter 16). -/
def PW_WAKE_TIMER : Nat := 0x1003
/-- PW_REST_EXIT, instances 0 to 0 (chapter 16). -/
def PW_REST_EXIT : Nat := 0x1004
/-- PW_WAKE_OUT_WIDTH, instances 0 to 0 (chapter 16). -/
def PW_WAKE_OUT_WIDTH : Nat := 0x1005
/-- PW_FOLD_PACE, instances 0 to 0 (chapter 16). -/
def PW_FOLD_PACE : Nat := 0x1006
/-- PW_FOLD_TIMEOUT, instances 0 to 0 (chapter 16). -/
def PW_FOLD_TIMEOUT : Nat := 0x1007
/-- PW_ISLAND_RESET, instances 0 to 0 (chapter 16). -/
def PW_ISLAND_RESET : Nat := 0x1008
/-- PW_RESET_CAUSE, instances 0 to 0 (chapter 16). -/
def PW_RESET_CAUSE : Nat := 0x1009
/-- PW_LAST_WAKE, instances 0 to 0 (chapter 16). -/
def PW_LAST_WAKE : Nat := 0x100A
/-- PW_ENTRIES, instances 0 to 1 (chapter 16). -/
def PW_ENTRIES : Nat := 0x1010
/-- PW_WAKE_ABORTS, instances 0 to 0 (chapter 16). -/
def PW_WAKE_ABORTS : Nat := 0x1011
/-- PW_GATED_DROP, instances 3 to 8 (chapter 16). -/
def PW_GATED_DROP : Nat := 0x1012
/-- PW_TSD_EVENTS, instances 0 to 0 (chapter 16). -/
def PW_TSD_EVENTS : Nat := 0x1013
/-- AG_LOCK, instances 0 to 0 (chapter 17). -/
def AG_LOCK : Nat := 0x0D00
/-- AG_GENERATION, instances 0 to 0 (chapter 17). -/
def AG_GENERATION : Nat := 0x0D01
/-- AG_DRAIN_TIMEOUT, instances 0 to 0 (chapter 17). -/
def AG_DRAIN_TIMEOUT : Nat := 0x0D02
/-- AG_ADMIN_MB, instances 0 to 0 (chapter 17). -/
def AG_ADMIN_MB : Nat := 0x0D03
/-- AG_TAG_BASE, instances 0 to 0 (chapter 17). -/
def AG_TAG_BASE : Nat := 0x0D04
/-- AG_TAG_FILL, instances 0 to 0 (chapter 17). -/
def AG_TAG_FILL : Nat := 0x0D05
/-- AG_TAG_PROBE, instances 0 to 0 (chapter 17). -/
def AG_TAG_PROBE : Nat := 0x0D06
/-- AG_TAG_PROBE_COLOUR, instances 0 to 0 (chapter 17). -/
def AG_TAG_PROBE_COLOUR : Nat := 0x0D07
/-- AG_DRAIN_STATE, instances 0 to 0 (chapter 17). -/
def AG_DRAIN_STATE : Nat := 0x0D08
/-- AG_VIOL_INFO, instances 0 to 15 (chapter 17). -/
def AG_VIOL_INFO : Nat := 0x0D10
/-- AG_VIOL_ADDR, instances 0 to 15 (chapter 17). -/
def AG_VIOL_ADDR : Nat := 0x0D11
/-- AG_VIOL_TIME, instances 0 to 15 (chapter 17). -/
def AG_VIOL_TIME : Nat := 0x0D12
/-- AG_VIOL_USED, instances 0 to 0 (chapter 17). -/
def AG_VIOL_USED : Nat := 0x0D13
/-- AG_VIOL_OVERFLOW, instances 0 to 0 (chapter 17). -/
def AG_VIOL_OVERFLOW : Nat := 0x0D14
/-- AG_VIOL_CLEAR, instances 0 to 0 (chapter 17). -/
def AG_VIOL_CLEAR : Nat := 0x0D15
/-- AG_IMPRECISE, instances 0 to 15 (chapter 17). -/
def AG_IMPRECISE : Nat := 0x0D16
/-- AG_IMPRECISE_COUNT, instances 0 to 15 (chapter 17). -/
def AG_IMPRECISE_COUNT : Nat := 0x0D17
/-- AG_DENIED, instances 1 to 6 (chapter 17). -/
def AG_DENIED : Nat := 0x0D20
/-- AG_DEBUG_DENIED, instances 0 to 0 (chapter 17). -/
def AG_DEBUG_DENIED : Nat := 0x0D21
/-- AG_OPEN_NOMATCH, instances 0 to 0 (chapter 17). -/
def AG_OPEN_NOMATCH : Nat := 0x0D22
/-- AG_IMPRECISE_LOST, instances 0 to 0 (chapter 17). -/
def AG_IMPRECISE_LOST : Nat := 0x0D23
/-- KY_LIFE_CYCLE, instances 0 to 0 (chapter 18). -/
def KY_LIFE_CYCLE : Nat := 0x0E00
/-- KY_TAMPER_POLICY, instances 0 to 5 (chapter 18). -/
def KY_TAMPER_POLICY : Nat := 0x0E01
/-- KY_TAMPER_DEGLITCH, instances 0 to 1 (chapter 18). -/
def KY_TAMPER_DEGLITCH : Nat := 0x0E02
/-- KY_TAMPER_LATCH, instances 0 to 0 (chapter 18). -/
def KY_TAMPER_LATCH : Nat := 0x0E03
/-- KY_TAMPER_ACTIVE, instances 0 to 0 (chapter 18). -/
def KY_TAMPER_ACTIVE : Nat := 0x0E04
/-- KY_TAMPER_CLEAR, instances 0 to 0 (chapter 18). -/
def KY_TAMPER_CLEAR : Nat := 0x0E05
/-- KY_DEBUG_STATE, instances 0 to 0 (chapter 18). -/
def KY_DEBUG_STATE : Nat := 0x0E06
/-- KY_CRYPTO_EPOCH, instances 0 to 0 (chapter 18). -/
def KY_CRYPTO_EPOCH : Nat := 0x0E07
/-- KY_NV_WRITES, instances 0 to 0 (chapter 18). -/
def KY_NV_WRITES : Nat := 0x0E08
/-- KY_TAMPER_EVENTS, instances 0 to 5 (chapter 18). -/
def KY_TAMPER_EVENTS : Nat := 0x0E10
/-- KY_AUTH_FAIL, instances 0 to 0 (chapter 18). -/
def KY_AUTH_FAIL : Nat := 0x0E11
/-- KY_REPLAY, instances 0 to 0 (chapter 18). -/
def KY_REPLAY : Nat := 0x0E12
/-- KY_NOKEY_DROP, instances 0 to 0 (chapter 18). -/
def KY_NOKEY_DROP : Nat := 0x0E13
/-- MG_FW_TRIAL_TRIES, instances 0 to 0 (chapter 19). -/
def MG_FW_TRIAL_TRIES : Nat := 0x0F10
/-- MG_FW_CONFIRM_TIME, instances 0 to 0 (chapter 19). -/
def MG_FW_CONFIRM_TIME : Nat := 0x0F11
/-- MG_WDT_TIMEOUT, instances 0 to 0 (chapter 19). -/
def MG_WDT_TIMEOUT : Nat := 0x0F12
/-- MG_LOG_FLASH_SEV, instances 0 to 0 (chapter 19). -/
def MG_LOG_FLASH_SEV : Nat := 0x0F13
/-- MG_LOG_FLASH_RATE, instances 0 to 0 (chapter 19). -/
def MG_LOG_FLASH_RATE : Nat := 0x0F14
/-- MG_LOG_MIRROR_EN, instances 0 to 0 (chapter 19). -/
def MG_LOG_MIRROR_EN : Nat := 0x0F15
/-- MG_BOOT_STATE, instances 0 to 0 (chapter 19). -/
def MG_BOOT_STATE : Nat := 0x0F20
/-- MG_ROLLBACK_FLOOR, instances 0 to 0 (chapter 19). -/
def MG_ROLLBACK_FLOOR : Nat := 0x0F21
/-- MG_LOG_SEQ, instances 0 to 0 (chapter 19). -/
def MG_LOG_SEQ : Nat := 0x0F22
/-- MG_LOG_FLASH_SKIP, instances 0 to 0 (chapter 19). -/
def MG_LOG_FLASH_SKIP : Nat := 0x0F23
/-- MG_WDT_RESETS, instances 0 to 0 (chapter 19). -/
def MG_WDT_RESETS : Nat := 0x0F24
/-- CT_PROFILE, instances 0 to 0 (chapter 20). -/
def CT_PROFILE : Nat := 0x1100
/-- CT_LIST_GEN, instances 0 to 0 (chapter 20). -/
def CT_LIST_GEN : Nat := 0x1101
/-- CT_ENABLED, instances 0 to 0 (chapter 20). -/
def CT_ENABLED : Nat := 0x1102
/-- CT_BW_WINDOW, instances 0 to 0 (chapter 20). -/
def CT_BW_WINDOW : Nat := 0x1103
/-- CT_PRESS_STATE, instances 0 to 0 (chapter 20). -/
def CT_PRESS_STATE : Nat := 0x1104
/-- CT_PRESS_WRITE, instances 0 to 0 (chapter 20). -/
def CT_PRESS_WRITE : Nat := 0x1105
/-- CT_PRESS_READ, instances 0 to 0 (chapter 20). -/
def CT_PRESS_READ : Nat := 0x1106
/-- CT_PRESS_LOST, instances 0 to 0 (chapter 20). -/
def CT_PRESS_LOST : Nat := 0x1107
/-- CT_SAMPLE_ID, instances 0 to 3 (chapter 20). -/
def CT_SAMPLE_ID : Nat := 0x1108
/-- CT_SAMPLE_EVERY, instances 0 to 3 (chapter 20). -/
def CT_SAMPLE_EVERY : Nat := 0x1109
/-- CT_SAMPLE_HDR, instances 0 to 63 (chapter 20). -/
def CT_SAMPLE_HDR : Nat := 0x110A
/-- CT_SAMPLE_LOST, instances 0 to 3 (chapter 20). -/
def CT_SAMPLE_LOST : Nat := 0x110B
end P

/-- The parameters of PID block 0x00. -/
def params00 : List ParamDesc := [
  ⟨P.DV_STRAP_STATE, 0, 1, .ro, 22, 4, false, [0], .any, 0, 0x0000⟩]

/-- The parameters of PID block 0x01. -/
def params01 : List ParamDesc := [
  ⟨P.LN_ENABLE, 0, 3, .rw, 31, 1, false, [1], (.range 0 1), 0, 0x0000⟩,
  ⟨P.LN_RATE_MAX, 0, 3, .rw, 31, 1, false, [1], (.range 1 4), 0, 0x0000⟩,
  ⟨P.LN_CODE, 0, 3, .rw, 31, 1, false, [0], (.range 0 2), 0, 0x0000⟩,
  ⟨P.LN_DARN_EN, 0, 3, .rw, 31, 1, false, [2], (.range 0 2), 0, 0x0000⟩,
  ⟨P.LN_DARN_ACK_INTERVAL, 0, 3, .rw, 31, 2, false, [32], (.range 8 1024), 0, 0x0000⟩,
  ⟨P.LN_DARN_TIMEOUT, 0, 3, .rw, 31, 2, false, [100], (.range 10 1000), 0, 0x0000⟩,
  ⟨P.LN_DARN_MAX_REPLAY, 0, 3, .rw, 31, 1, false, [8], (.range 1 64), 0, 0x0000⟩,
  ⟨P.LN_TAIL_WAIT, 0, 1, .rw, 31, 2, false, [100], (.range 10 10000), 0, 0x0000⟩,
  ⟨P.LN_TX_PRESET, 0, 6, .rw, 31, 1, false, [255], (.list [0, 1, 2, 3, 4, 5, 6, 7, 255]), 0, 0x0000⟩,
  ⟨P.LN_DEGRADE_BER, 0, 3, .rw, 31, 1, false, [7], (.range 5 12), 0, 0x0000⟩,
  ⟨P.LN_UNCORR_LIMIT, 0, 3, .rw, 31, 2, false, [100], (.range 1 65535), 0, 0x0000⟩,
  ⟨P.LN_DEGRADE_ACTION, 0, 3, .rw, 31, 1, false, [0], (.range 0 1), 0, 0x0000⟩,
  ⟨P.LN_RETRAIN, 0, 3, .wo, 0, 1, false, [0], (.range 0 1), 0, 0x0000⟩,
  ⟨P.LN_STATE, 0, 3, .ro, 4, 1, false, [0], .any, 0, 0x0000⟩,
  ⟨P.LN_RATE, 0, 3, .ro, 4, 1, false, [0], .any, 0, 0x0000⟩,
  ⟨P.LN_CODE_ACTIVE, 0, 3, .ro, 4, 1, false, [0], .any, 0, 0x0000⟩,
  ⟨P.LN_TAIL, 0, 1, .ro, 4, 1, false, [0], .any, 0, 0x0000⟩,
  ⟨P.LN_PARTNER, 0, 3, .ro, 4, 4, false, [0], .any, 0, 0x0000⟩,
  ⟨P.LN_HOLD_REASON, 0, 3, .ro, 4, 1, false, [0], .any, 0, 0x0000⟩,
  ⟨P.LN_LANE_MAP, 0, 3, .ro, 4, 1, false, [0], .any, 0, 0x0000⟩,
  ⟨P.LN_MARGIN, 0, 6, .ro, 4, 2, false, [0], .any, 0, 0x0000⟩,
  ⟨P.LN_PRE_BER, 0, 6, .ro, 4, 4, false, [0], .any, 0, 0x0000⟩,
  ⟨P.LN_CW_CORRECTED, 0, 6, .ro, 4, 8, false, [0], .any, 0, 0x0000⟩,
  ⟨P.LN_CW_UNCORR, 0, 6, .ro, 4, 8, false, [0], .any, 0, 0x0000⟩,
  ⟨P.LN_SYNC_ERR, 0, 6, .ro, 4, 8, false, [0], .any, 0, 0x0000⟩,
  ⟨P.LN_SIDE_ERR, 0, 3, .ro, 4, 8, false, [0], .any, 0, 0x0000⟩,
  ⟨P.LN_HCRC_ERR, 0, 3, .ro, 4, 8, false, [0], .any, 0, 0x0000⟩,
  ⟨P.LN_CRC_ERR, 0, 3, .ro, 4, 8, false, [0], .any, 0, 0x0000⟩,
  ⟨P.LN_HUNT, 0, 3, .ro, 4, 8, false, [0], .any, 0, 0x0000⟩,
  ⟨P.LN_RX_ABANDON, 0, 3, .ro, 4, 8, false, [0], .any, 0, 0x0000⟩,
  ⟨P.LN_LL_ERR, 0, 3, .ro, 4, 8, false, [0], .any, 0, 0x0000⟩,
  ⟨P.LN_DARN_NAK_TX, 0, 3, .ro, 4, 8, false, [0], .any, 0, 0x0000⟩,
  ⟨P.LN_DARN_NAK_RX, 0, 3, .ro, 4, 8, false, [0], .any, 0, 0x0000⟩,
  ⟨P.LN_DARN_REPLAY, 0, 3, .ro, 4, 8, false, [0], .any, 0, 0x0000⟩,
  ⟨P.LN_DARN_STALL, 0, 3, .ro, 4, 8, false, [0], .any, 0, 0x0000⟩,
  ⟨P.LN_DARN_EXHAUST, 0, 3, .ro, 4, 8, false, [0], .any, 0, 0x0000⟩,
  ⟨P.LN_LINK_DOWN, 0, 3, .ro, 4, 8, false, [0], .any, 0, 0x0000⟩,
  ⟨P.LN_TRAIN_FAIL, 0, 3, .ro, 4, 8, false, [0], .any, 0, 0x0000⟩]

/-- The parameters of PID block 0x02. -/
def params02 : List ParamDesc := [
  ⟨P.TN_HOPS_DEFAULT, 0, 1, .rw, 31, 2, false, [4200], (.range 1 8191), 0, 0x0000⟩,
  ⟨P.TN_GAP_WAIT, 0, 1, .rw, 31, 2, false, [20], (.range 1 1000), 0, 0x0000⟩,
  ⟨P.TN_REASM_TIMEOUT, 0, 1, .rw, 31, 4, false, [1000], (.range 10 100000), 0, 0x0000⟩,
  ⟨P.TN_CTX_IDLE, 0, 1, .rw, 31, 2, false, [10], (.range 1 10000), 0, 0x0000⟩,
  ⟨P.TN_STALE_LIMIT, 0, 1, .rw, 31, 2, false, [16], (.range 1 1024), 0, 0x0000⟩,
  ⟨P.TN_RESYNC_COPIES, 0, 1, .rw, 31, 1, false, [3], (.range 1 8), 0, 0x0000⟩,
  ⟨P.TN_CTX_INUSE, 0, 1, .ro, 4, 2, false, [0], .any, 0, 0x0000⟩,
  ⟨P.TN_NO_TUNNEL, 0, 1, .ro, 4, 8, false, [0], .any, 0, 0x0000⟩,
  ⟨P.TN_KIND_ERR, 0, 1, .ro, 4, 8, false, [0], .any, 0, 0x0000⟩,
  ⟨P.TN_DUP, 0, 1, .ro, 4, 8, false, [0], .any, 0, 0x0000⟩,
  ⟨P.TN_LATE, 0, 1, .ro, 4, 8, false, [0], .any, 0, 0x0000⟩,
  ⟨P.TN_STALE, 0, 1, .ro, 4, 8, false, [0], .any, 0, 0x0000⟩,
  ⟨P.TN_SEQ_JUMP, 0, 1, .ro, 4, 8, false, [0], .any, 0, 0x0000⟩,
  ⟨P.TN_REBASE, 0, 1, .ro, 4, 8, false, [0], .any, 0, 0x0000⟩,
  ⟨P.TN_GAP_DROP, 0, 1, .ro, 4, 8, false, [0], .any, 0, 0x0000⟩,
  ⟨P.TN_FRAME_ERR, 0, 1, .ro, 4, 8, false, [0], .any, 0, 0x0000⟩,
  ⟨P.TN_OVERSIZE, 0, 1, .ro, 4, 8, false, [0], .any, 0, 0x0000⟩,
  ⟨P.TN_TIMEOUT_DROP, 0, 1, .ro, 4, 8, false, [0], .any, 0, 0x0000⟩,
  ⟨P.TN_CTX_FULL, 0, 1, .ro, 4, 8, false, [0], .any, 0, 0x0000⟩,
  ⟨P.TN_ENTRY_DISCARD, 0, 1, .ro, 4, 8, false, [0], .any, 0, 0x0000⟩,
  ⟨P.TN_AUTH_FAIL, 0, 1, .ro, 4, 8, false, [0], .any, 0, 0x0000⟩,
  ⟨P.TN_CTR_REPLAY, 0, 1, .ro, 4, 8, false, [0], .any, 0, 0x0000⟩,
  ⟨P.TN_CTR_EXHAUST, 0, 1, .ro, 4, 8, false, [0], .any, 0, 0x0000⟩]

/-- The parameters of PID block 0x03. -/
def params03 : List ParamDesc := [
  ⟨P.SW_FLOOR, 0, 4, .rw, 31, 4, false, [262144], (.step 16 0 1048576), 0, 0x0000⟩,
  ⟨P.SW_CREDIT_POOL, 0, 2, .rw, 31, 4, false, [2097152], (.range 262144 4194304), 0, 0x0000⟩,
  ⟨P.SW_CREDIT_INTERVAL, 0, 1, .rw, 31, 2, false, [256], (.range 16 4096), 0, 0x0000⟩,
  ⟨P.SW_CREDIT_STALL, 0, 1, .rw, 31, 2, false, [10], (.range 1 1000), 0, 0x0000⟩,
  ⟨P.SW_REASM_LIMIT, 0, 1, .rw, 31, 4, false, [2097152], (.range 262144 6291456), 0, 0x0000⟩,
  ⟨P.SW_OCCUPANCY, 0, 16, .ro, 0, 8, false, [0], .any, 0, 0x0000⟩,
  ⟨P.SW_CREDIT_AVAIL, 0, 6, .ro, 0, 4, false, [0], .any, 0, 0x0000⟩,
  ⟨P.SW_LAST_VICTIM, 0, 4, .ro, 0, 8, false, [0], .any, 0, 0x0000⟩,
  ⟨P.SW_HOPS_DROP, 0, 3, .ro, 4, 8, false, [0], .any, 0, 0x0000⟩,
  ⟨P.SW_NOROUTE_DROP, 0, 10, .ro, 4, 8, false, [0], .any, 0, 0x0000⟩,
  ⟨P.SW_BYPASS, 0, 10, .ro, 4, 8, false, [0], .any, 0, 0x0000⟩,
  ⟨P.SW_PUSHOUT, 0, 16, .ro, 4, 8, false, [0], .any, 0, 0x0000⟩,
  ⟨P.SW_FRAME_DISCARD, 0, 4, .ro, 4, 8, false, [0], .any, 0, 0x0000⟩,
  ⟨P.SW_DISCARD_TABLE_FULL, 0, 4, .ro, 4, 8, false, [0], .any, 0, 0x0000⟩,
  ⟨P.SW_OVERFLOW_DROP, 0, 16, .ro, 4, 8, false, [0], .any, 0, 0x0000⟩,
  ⟨P.SW_CREDIT_VIOL, 0, 3, .ro, 4, 8, false, [0], .any, 0, 0x0000⟩,
  ⟨P.SW_INGRESS_DROP, 0, 4, .ro, 4, 8, false, [0], .any, 0, 0x0000⟩]

/-- The parameters of PID block 0x04. -/
def params04 : List ParamDesc := [
  ⟨P.AL_C0_RESERVE, 0, 10, .rw, 31, 4, false, [6400], (.range 0 409600), 0, 0x0000⟩,
  ⟨P.AL_BOOK_LIMIT, 0, 1, .rw, 31, 1, false, [96], (.range 50 100), 0, 0x0000⟩,
  ⟨P.AL_DEFAULT_WEIGHT, 0, 1, .rw, 31, 1, false, [16], (.range 1 255), 0, 0x0000⟩,
  ⟨P.AL_DRR_QUANTUM, 0, 1, .rw, 31, 4, false, [512], (.range 288 65536), 0, 0x0000⟩,
  ⟨P.AL_CLASS_RATE, 0, 4, .st, 31, 4, false, [0], (.range 0 268435455), 1, 0x0405⟩,
  ⟨P.AL_CLASS_BURST, 0, 4, .rw, 31, 4, false, [0], (.range 0 16777215), 2, 0x0404⟩,
  ⟨P.AL_EPOCH_LEAD, 0, 1, .rw, 31, 2, false, [2], (.range 2 60000), 0, 0x0000⟩,
  ⟨P.AL_EPOCH_COPIES, 0, 1, .rw, 31, 1, false, [4], (.range 1 8), 0, 0x0000⟩,
  ⟨P.AL_EPOCH_SPACING, 0, 1, .rw, 31, 2, false, [100], (.range 10 1000), 0, 0x0000⟩,
  ⟨P.AL_EPOCH_PLAN, 0, 1, .rw, 30, 8, false, [0], .any, 0, 0x0000⟩,
  ⟨P.AL_EPOCH_TIME, 0, 1, .st, 0, 8, false, [0], .any, 1, 0x040D⟩,
  ⟨P.AL_EPOCH_ARM, 0, 1, .wo, 0, 8, false, [0], (.mask 0x3), 2, 0x040C⟩,
  ⟨P.AL_EPOCH_CANCEL, 0, 1, .wo, 0, 8, false, [0], .any, 0, 0x0000⟩,
  ⟨P.AL_EPOCH_SENT, 0, 1, .ro, 6, 8, false, [0], .any, 0, 0x0000⟩,
  ⟨P.AL_PLAN_ID_SHADOW, 0, 1, .rw, 6, 8, false, [0], .any, 0, 0x0000⟩,
  ⟨P.AL_PLAN_ID_ACTIVE, 0, 1, .ro, 6, 8, false, [0], .any, 0, 0x0000⟩,
  ⟨P.AL_EPOCH_ARMED, 0, 1, .ro, 4, 8, false, [0], .any, 0, 0x0000⟩,
  ⟨P.AL_EPOCH_ARMED_TIME, 0, 1, .ro, 4, 8, false, [0], .any, 0, 0x0000⟩,
  ⟨P.AL_EPOCH_APPLIED, 0, 1, .ro, 6, 8, false, [0], .any, 0, 0x0000⟩,
  ⟨P.AL_EPOCH_APPLIED_TIME, 0, 1, .ro, 6, 8, false, [0], .any, 0, 0x0000⟩,
  ⟨P.AL_SHADOW_STATUS, 0, 10, .ro, 6, 8, false, [0], .any, 0, 0x0000⟩,
  ⟨P.AL_ACTIVE_STATUS, 0, 10, .ro, 4, 8, false, [0], .any, 0, 0x0000⟩,
  ⟨P.AL_GOV_LEVEL, 0, 1, .ro, 0, 1, false, [0], .any, 0, 0x0000⟩,
  ⟨P.AL_GOV_T, 0, 3, .rw, 31, 1, false, [135, 145, 150], (.range 60 150), 0, 0x0000⟩,
  ⟨P.AL_GOV_HYST, 0, 1, .rw, 31, 1, false, [5], (.range 1 20), 0, 0x0000⟩,
  ⟨P.AL_GOV_VBACK_LEVEL, 0, 1, .rw, 31, 1, false, [1], (.range 0 3), 0, 0x0000⟩,
  ⟨P.AL_GOV_POWER_LIMIT, 0, 1, .rw, 31, 2, false, [31000], (.range 10000 40000), 0, 0x0000⟩,
  ⟨P.AL_GOV_FORCE, 0, 1, .rw, 30, 1, false, [0], (.range 0 3), 0, 0x0000⟩,
  ⟨P.AL_GOV_DWELL, 0, 1, .rw, 31, 2, false, [100], (.range 10 10000), 0, 0x0000⟩,
  ⟨P.AL_GOV_DE_CAP, 0, 4, .rw, 31, 2, false, [25000, 20000, 12500, 5000], (.range 1 25000), 0, 0x0000⟩,
  ⟨P.AL_GOV_IDLE_SUSPEND, 0, 1, .rw, 31, 2, false, [10], (.range 1 1000), 0, 0x0000⟩,
  ⟨P.AL_GOV_C3_CAP, 0, 1, .rw, 31, 1, false, [25], (.range 0 100), 0, 0x0000⟩,
  ⟨P.AL_GOV_CAUSE, 0, 1, .ro, 0, 1, false, [0], .any, 0, 0x0000⟩,
  ⟨P.AL_GOV_TMAX, 0, 1, .ro, 0, 8, true, [0], .any, 0, 0x0000⟩,
  ⟨P.AL_GOV_POWER_EST, 0, 1, .ro, 0, 8, false, [0], .any, 0, 0x0000⟩,
  ⟨P.AL_POLICE_DROP, 0, 1, .ro, 4, 8, false, [0], .any, 0, 0x0000⟩,
  ⟨P.AL_UNALLOTTED, 0, 10, .ro, 4, 8, false, [0], .any, 0, 0x0000⟩,
  ⟨P.AL_GOV_DROP, 0, 10, .ro, 4, 8, false, [0], .any, 0, 0x0000⟩,
  ⟨P.AL_LATE_EPOCH, 0, 1, .ro, 4, 8, false, [0], .any, 0, 0x0000⟩,
  ⟨P.AL_EPOCH_STALE, 0, 1, .ro, 4, 8, false, [0], .any, 0, 0x0000⟩,
  ⟨P.AL_EPOCH_REPLACED, 0, 1, .ro, 4, 8, false, [0], .any, 0, 0x0000⟩,
  ⟨P.AL_EPOCH_BAD, 0, 1, .ro, 4, 8, false, [0], .any, 0, 0x0000⟩]

/-- The parameters of PID block 0x05. -/
def params05 : List ParamDesc := [
  ⟨P.RL_DETOUR_EN, 0, 2, .rw, 31, 1, false, [1], (.range 0 1), 0, 0x0000⟩,
  ⟨P.RL_DETOUR_ACCEPT, 0, 1, .rw, 31, 1, false, [1], (.range 0 1), 0, 0x0000⟩,
  ⟨P.RL_DETOUR_RELEASE, 0, 1, .rw, 31, 2, false, [1000], (.range 10 60000), 0, 0x0000⟩,
  ⟨P.RL_DETOUR_QUIET, 0, 1, .rw, 31, 1, false, [2], (.range 0 100), 0, 0x0000⟩,
  ⟨P.RL_ID_MODE, 0, 1, .rw, 31, 1, false, [0], (.range 0 1), 0, 0x0000⟩,
  ⟨P.RL_NODE_ID_FIXED, 0, 1, .rw, 31, 2, false, [0], (.range 1 4094), 0, 0x0000⟩,
  ⟨P.RL_REENUMERATE, 0, 1, .wo, 0, 1, false, [0], (.range 0 1), 0, 0x0000⟩,
  ⟨P.RL_TIME_SOURCE_MODE, 0, 1, .rw, 31, 1, false, [0], (.range 0 3), 0, 0x0000⟩,
  ⟨P.RL_ASYM, 0, 3, .rw, 31, 4, true, [0], (.range (-100000) 100000), 0, 0x0000⟩,
  ⟨P.RL_HOLDOVER_LIMIT, 0, 1, .rw, 31, 2, false, [10], (.range 1 3600), 0, 0x0000⟩,
  ⟨P.RL_TIME_STEP, 0, 1, .wo, 0, 8, true, [0], .any, 0, 0x0000⟩,
  ⟨P.RL_FREQ_ADJ, 0, 1, .rw, 6, 4, true, [0], (.range (-100000) 100000), 0, 0x0000⟩,
  ⟨P.RL_PPS_MODE, 0, 1, .rw, 31, 1, false, [1], (.range 0 2), 0, 0x0000⟩,
  ⟨P.RL_PPS_WIDTH, 0, 1, .rw, 31, 4, false, [10000], (.range 1 500000), 0, 0x0000⟩,
  ⟨P.RL_TCAP_EDGE, 0, 2, .rw, 31, 1, false, [1], (.range 0 3), 0, 0x0000⟩,
  ⟨P.RL_TCAP_STATUS, 0, 2, .ro, 4, 2, false, [0], .any, 0, 0x0000⟩,
  ⟨P.RL_TCAP_READ, 0, 2, .rc, 4, 8, false, [0], .any, 0, 0x0000⟩,
  ⟨P.RL_TIME_STATE, 0, 1, .ro, 4, 1, false, [0], .any, 0, 0x0000⟩,
  ⟨P.RL_OFFSET, 0, 1, .ro, 4, 8, true, [0], .any, 0, 0x0000⟩,
  ⟨P.RL_LINK_DELAY, 0, 3, .ro, 4, 8, false, [0], .any, 0, 0x0000⟩,
  ⟨P.RL_FREQ, 0, 1, .ro, 4, 8, true, [0], .any, 0, 0x0000⟩,
  ⟨P.RL_DETOUR_STATE, 0, 2, .ro, 4, 1, false, [0], .any, 0, 0x0000⟩,
  ⟨P.RL_TWIN_PORTS, 0, 1, .ro, 4, 1, false, [0], .any, 0, 0x0000⟩,
  ⟨P.RL_DEPTH, 0, 1, .ro, 4, 2, false, [65535], .any, 0, 0x0000⟩,
  ⟨P.RL_DETOUR_CELLS, 0, 2, .ro, 4, 8, false, [0], .any, 0, 0x0000⟩,
  ⟨P.RL_DETOUR_TRANSIT, 0, 1, .ro, 4, 8, false, [0], .any, 0, 0x0000⟩,
  ⟨P.RL_DETOUR_EXIT, 0, 1, .ro, 4, 8, false, [0], .any, 0, 0x0000⟩,
  ⟨P.RL_DETOUR_DROP, 0, 1, .ro, 4, 8, false, [0], .any, 0, 0x0000⟩,
  ⟨P.RL_DETOUR_ERR, 0, 1, .ro, 4, 8, false, [0], .any, 0, 0x0000⟩,
  ⟨P.RL_TW_RAIL_ERR, 0, 1, .ro, 4, 8, false, [0], .any, 0, 0x0000⟩,
  ⟨P.RL_DARN_UNACKED, 0, 3, .ro, 4, 8, false, [0], .any, 0, 0x0000⟩,
  ⟨P.RL_TIME_STEPS, 0, 1, .ro, 4, 8, false, [0], .any, 0, 0x0000⟩]

/-- The parameters of PID block 0x06. -/
def params06 : List ParamDesc := [
  ⟨P.DE_ENABLE, 0, 1, .rw, 31, 1, false, [1], (.range 0 1), 0, 0x0000⟩,
  ⟨P.DE_BUCKET_ORDER, 0, 2, .rw, 30, 1, false, [21], (.range 10 21), 0, 0x0000⟩,
  ⟨P.DE_MISS_ACTION, 0, 1, .rw, 31, 1, false, [1], (.range 0 1), 0, 0x0000⟩,
  ⟨P.DE_FWD_TUNNEL, 0, 1, .rw, 22, 2, false, [65535], .any, 0, 0x0000⟩,
  ⟨P.DE_LATE_GRACE, 0, 1, .rw, 31, 4, false, [1000], (.range 0 1000000), 0, 0x0000⟩,
  ⟨P.DE_EDGE_TUNNEL, 0, 1, .rw, 22, 2, false, [65535], .any, 0, 0x0000⟩,
  ⟨P.DE_BANK_PLAN, 0, 2, .rw, 30, 8, false, [0], .any, 0, 0x0000⟩,
  ⟨P.DE_FWD_RING_BASE, 0, 1, .st, 30, 8, false, [0], .any, 1, 0x0608⟩,
  ⟨P.DE_FWD_RING_SIZE, 0, 1, .rw, 30, 4, false, [0], .any, 2, 0x0607⟩,
  ⟨P.DE_FWD_READ, 0, 1, .rw, 30, 4, false, [0], .any, 0, 0x0000⟩,
  ⟨P.DE_FWD_WRITE, 0, 1, .ro, 30, 4, false, [0], .any, 0, 0x0000⟩,
  ⟨P.DE_GPIO_CFG, 0, 32, .rw, 31, 8, false, [0], .any, 0, 0x0000⟩,
  ⟨P.DE_GPIO_LEVEL, 0, 1, .ro, 0, 4, false, [0], .any, 0, 0x0000⟩,
  ⟨P.DE_BANK_STATE, 0, 2, .ro, 6, 1, false, [0], .any, 0, 0x0000⟩,
  ⟨P.DE_ACTIVE_BANK, 0, 1, .ro, 6, 2, false, [0], .any, 0, 0x0000⟩,
  ⟨P.DE_LOOKUPS, 0, 1, .ro, 4, 8, false, [0], .any, 0, 0x0000⟩,
  ⟨P.DE_HITS, 0, 1, .ro, 4, 8, false, [0], .any, 0, 0x0000⟩,
  ⟨P.DE_CACHE_HITS, 0, 1, .ro, 4, 8, false, [0], .any, 0, 0x0000⟩,
  ⟨P.DE_MISS, 0, 1, .ro, 4, 8, false, [0], .any, 0, 0x0000⟩,
  ⟨P.DE_EVENT_DROP, 0, 4, .ro, 4, 8, false, [0], .any, 0, 0x0000⟩,
  ⟨P.DE_ACTION_ERR, 0, 1, .ro, 4, 8, false, [0], .any, 0, 0x0000⟩,
  ⟨P.DE_CHAIN_STOP, 0, 1, .ro, 4, 8, false, [0], .any, 0, 0x0000⟩,
  ⟨P.DE_ACT_DONE, 0, 32, .ro, 4, 8, false, [0], .any, 0, 0x0000⟩,
  ⟨P.DE_ACT_LATE, 0, 32, .ro, 4, 8, false, [0], .any, 0, 0x0000⟩,
  ⟨P.DE_ACT_EXPIRED, 0, 32, .ro, 4, 8, false, [0], .any, 0, 0x0000⟩,
  ⟨P.DE_ACT_DROP, 0, 32, .ro, 4, 8, false, [0], .any, 0, 0x0000⟩,
  ⟨P.DE_FWD_OVERFLOW, 0, 1, .ro, 4, 8, false, [0], .any, 0, 0x0000⟩,
  ⟨P.DE_SWAP_REFUSED, 0, 1, .ro, 4, 8, false, [0], .any, 0, 0x0000⟩,
  ⟨P.DE_COUNT, 0, 256, .ro, 4, 8, false, [0], .any, 0, 0x0000⟩]

/-- The parameters of PID block 0x07. -/
def params07 : List ParamDesc := [
  ⟨P.BR_BAR2_SIZE, 0, 1, .rw, 31, 1, false, [34], (.range 30 36), 0, 0x0000⟩,
  ⟨P.BR_PCIE_SPEED_MAX, 0, 1, .rw, 31, 1, false, [5], (.range 1 5), 0, 0x0000⟩,
  ⟨P.BR_PCIE_WIDTH_MAX, 0, 1, .rw, 31, 1, false, [8], (.list [1, 2, 4, 8]), 0, 0x0000⟩,
  ⟨P.BR_PCIE_SUBSYS, 0, 1, .rw, 31, 4, false, [0], (.mask 0xFFFFFFFF), 0, 0x0000⟩,
  ⟨P.BR_ASPM_L1, 0, 1, .rw, 31, 1, false, [1], (.range 0 1), 0, 0x0000⟩,
  ⟨P.BR_LINK_RESET, 0, 1, .wo, 0, 1, false, [0], (.range 0 1), 0, 0x0000⟩,
  ⟨P.BR_CPL_TIMEOUT, 0, 1, .rw, 31, 4, false, [4000], (.range 100 100000), 0, 0x0000⟩,
  ⟨P.BR_ERR_RESPONSE, 0, 1, .rw, 31, 1, false, [0], (.range 0 1), 0, 0x0000⟩,
  ⟨P.BR_NOTICE_INTERVAL, 0, 1, .rw, 31, 2, false, [10], (.range 1 1000), 0, 0x0000⟩,
  ⟨P.BR_PREFETCH_AUDIT, 0, 1, .rw, 31, 1, false, [0], (.range 0 1), 0, 0x0000⟩,
  ⟨P.BR_MEMT_BASE, 0, 1, .st, 31, 8, false, [1207959552], .any, 1, 0x070B⟩,
  ⟨P.BR_MEMT_SIZE, 0, 1, .rw, 31, 8, false, [2147483648], .any, 2, 0x070A⟩,
  ⟨P.BR_PCIE_LINK, 0, 1, .ro, 0, 2, false, [0], .any, 0, 0x0000⟩,
  ⟨P.BR_PWERR_INFO, 0, 16, .ro, 4, 8, false, [0], .any, 0, 0x0000⟩,
  ⟨P.BR_PWERR_OFFSET, 0, 16, .ro, 4, 8, false, [0], .any, 0, 0x0000⟩,
  ⟨P.BR_PWERR_TIME, 0, 16, .ro, 4, 8, false, [0], .any, 0, 0x0000⟩,
  ⟨P.BR_PWERR_USED, 0, 1, .ro, 4, 1, false, [0], .any, 0, 0x0000⟩,
  ⟨P.BR_PWERR_OVERFLOW, 0, 1, .rc, 4, 8, false, [0], .any, 0, 0x0000⟩,
  ⟨P.BR_PWERR_CLEAR, 0, 1, .wo, 0, 1, false, [0], (.range 0 1), 0, 0x0000⟩,
  ⟨P.BR_PREFETCH_AUDIT_ADDR, 0, 64, .ro, 4, 8, false, [0], .any, 0, 0x0000⟩,
  ⟨P.BR_PREFETCH_DISCARD, 0, 64, .ro, 4, 8, false, [0], .any, 0, 0x0000⟩,
  ⟨P.BR_PREFETCH_HIT, 0, 64, .ro, 4, 8, false, [0], .any, 0, 0x0000⟩,
  ⟨P.BR_NO_WINDOW, 0, 1, .ro, 4, 8, false, [0], .any, 0, 0x0000⟩,
  ⟨P.BR_WIN_FAIL, 0, 64, .ro, 4, 8, false, [0], .any, 0, 0x0000⟩,
  ⟨P.BR_CPL_EXPIRED, 0, 1, .ro, 4, 8, false, [0], .any, 0, 0x0000⟩,
  ⟨P.BR_CPL_LATE, 0, 1, .ro, 4, 8, false, [0], .any, 0, 0x0000⟩,
  ⟨P.BR_NO_RETURN, 0, 1, .ro, 4, 8, false, [0], .any, 0, 0x0000⟩,
  ⟨P.BR_FRAME_ERR, 0, 1, .ro, 4, 8, false, [0], .any, 0, 0x0000⟩,
  ⟨P.BR_INTX_DROP, 0, 1, .ro, 4, 8, false, [0], .any, 0, 0x0000⟩]

/-- The parameters of PID block 0x08. -/
def params08 : List ParamDesc := [
  ⟨P.EN_ENABLE, 0, 4, .rw, 31, 1, false, [0], (.range 0 1), 0, 0x0000⟩,
  ⟨P.EN_MODE, 0, 4, .rw, 31, 1, false, [1], (.range 0 4), 0, 0x0000⟩,
  ⟨P.EN_MAX_FRAME, 0, 4, .rw, 31, 2, false, [9216], (.range 64 9216), 0, 0x0000⟩,
  ⟨P.EN_PVID, 0, 4, .rw, 31, 2, false, [1], (.range 1 4094), 0, 0x0000⟩,
  ⟨P.EN_PAUSE, 0, 4, .rw, 31, 1, false, [0], (.mask 0x3), 0, 0x0000⟩,
  ⟨P.EN_PAUSE_XON, 0, 4, .st, 31, 4, false, [65536], .any, 1, 0x0806⟩,
  ⟨P.EN_PAUSE_XOFF, 0, 4, .rw, 31, 4, false, [131072], .any, 2, 0x0805⟩,
  ⟨P.EN_PAUSE_QUANTA, 0, 4, .rw, 31, 2, false, [65535], (.range 1 65535), 0, 0x0000⟩,
  ⟨P.EN_LINK, 0, 4, .ro, 0, 1, false, [0], .any, 0, 0x0000⟩,
  ⟨P.EN_FILTER_LAST_TS, 0, 64, .ro, 4, 8, false, [0], .any, 0, 0x0000⟩,
  ⟨P.EN_RX_FRAMES, 0, 4, .ro, 4, 8, false, [0], .any, 0, 0x0000⟩,
  ⟨P.EN_RX_BYTES, 0, 4, .ro, 4, 8, false, [0], .any, 0, 0x0000⟩,
  ⟨P.EN_RX_ERR, 0, 4, .ro, 4, 8, false, [0], .any, 0, 0x0000⟩,
  ⟨P.EN_RX_RUNT, 0, 4, .ro, 4, 8, false, [0], .any, 0, 0x0000⟩,
  ⟨P.EN_RX_OVERSIZE, 0, 4, .ro, 4, 8, false, [0], .any, 0, 0x0000⟩,
  ⟨P.EN_RX_FCS, 0, 4, .ro, 4, 8, false, [0], .any, 0, 0x0000⟩,
  ⟨P.EN_RX_PAUSE, 0, 4, .ro, 4, 8, false, [0], .any, 0, 0x0000⟩,
  ⟨P.EN_RX_NOMAP, 0, 4, .ro, 4, 8, false, [0], .any, 0, 0x0000⟩,
  ⟨P.EN_RX_NOTUNNEL, 0, 4, .ro, 4, 8, false, [0], .any, 0, 0x0000⟩,
  ⟨P.EN_RX_FULL, 0, 4, .ro, 4, 8, false, [0], .any, 0, 0x0000⟩,
  ⟨P.EN_TX_FRAMES, 0, 4, .ro, 4, 8, false, [0], .any, 0, 0x0000⟩,
  ⟨P.EN_TX_BYTES, 0, 4, .ro, 4, 8, false, [0], .any, 0, 0x0000⟩,
  ⟨P.EN_TX_PAUSE, 0, 4, .ro, 4, 8, false, [0], .any, 0, 0x0000⟩,
  ⟨P.EN_TX_DOWN, 0, 4, .ro, 4, 8, false, [0], .any, 0, 0x0000⟩,
  ⟨P.EN_TX_OVERSIZE, 0, 4, .ro, 4, 8, false, [0], .any, 0, 0x0000⟩,
  ⟨P.EN_FILTER_HITS, 0, 64, .ro, 4, 8, false, [0], .any, 0, 0x0000⟩,
  ⟨P.EN_FILTER_SHORT, 0, 1, .ro, 4, 8, false, [0], .any, 0, 0x0000⟩]

/-- The parameters of PID block 0x09. -/
def params09 : List ParamDesc := [
  ⟨P.US_PORT_ENABLE, 0, 8, .rw, 31, 1, false, [1], (.range 0 1), 0, 0x0000⟩,
  ⟨P.US_SPEED_MAX, 0, 4, .rw, 31, 1, false, [5], (.range 3 5), 0, 0x0000⟩,
  ⟨P.US_OC_MODE, 0, 1, .rw, 31, 1, false, [0], (.range 0 1), 0, 0x0000⟩,
  ⟨P.US_OC_DEGLITCH, 0, 1, .rw, 31, 2, false, [100], (.range 10 10000), 0, 0x0000⟩,
  ⟨P.US_IDLE_SUSPEND, 0, 1, .rw, 31, 2, false, [50], (.range 0 60000), 0, 0x0000⟩,
  ⟨P.US_SOF_MODE, 0, 1, .rw, 31, 1, false, [2], (.range 0 2), 0, 0x0000⟩,
  ⟨P.US_SOF_TRIM, 0, 1, .rw, 31, 2, true, [0], (.range (-480) 480), 0, 0x0000⟩,
  ⟨P.US_SOF_PHASE, 0, 1, .rw, 31, 8, false, [0], (.range 0 124999), 0, 0x0000⟩,
  ⟨P.US_RING_BASE, 0, 1, .st, 30, 8, false, [0], .any, 1, 0x0909⟩,
  ⟨P.US_RING_ORDER, 0, 1, .rw, 30, 1, false, [0], (.range 0 10), 2, 0x0908⟩,
  ⟨P.US_RING_POLL, 0, 1, .rw, 31, 2, false, [10], (.range 1 1000), 0, 0x0000⟩,
  ⟨P.US_SVC_ENABLE, 0, 1, .rw, 31, 1, false, [1], (.range 0 1), 0, 0x0000⟩,
  ⟨P.US_PORT_STATUS, 0, 8, .ro, 0, 2, false, [0], .any, 0, 0x0000⟩,
  ⟨P.US_FRAME, 0, 1, .ro, 0, 2, false, [0], .any, 0, 0x0000⟩,
  ⟨P.US_XFER_DONE, 0, 8, .ro, 4, 8, false, [0], .any, 0, 0x0000⟩,
  ⟨P.US_XFER_ERR, 0, 8, .ro, 4, 8, false, [0], .any, 0, 0x0000⟩,
  ⟨P.US_OC_TRIPS, 0, 8, .ro, 4, 8, false, [0], .any, 0, 0x0000⟩,
  ⟨P.US_BIND_SHORT, 0, 64, .ro, 4, 8, false, [0], .any, 0, 0x0000⟩,
  ⟨P.US_MSG_ERR, 0, 1, .ro, 4, 8, false, [0], .any, 0, 0x0000⟩,
  ⟨P.US_SVC_ABANDON, 0, 1, .ro, 4, 8, false, [0], .any, 0, 0x0000⟩]

/-- The parameters of PID block 0x0A. -/
def params0A : List ParamDesc := [
  ⟨P.TC_ENABLE, 0, 4, .rw, 31, 1, false, [1], (.range 0 1), 0, 0x0000⟩,
  ⟨P.TC_POWER_BUDGET, 0, 1, .rw, 31, 4, false, [400000], (.range 60000 960000), 0, 0x0000⟩,
  ⟨P.TC_MAX_VOLTAGE, 0, 4, .rw, 31, 2, false, [48000], (.list [5000, 9000, 15000, 20000, 28000, 36000, 48000]), 0, 0x0000⟩,
  ⟨P.TC_EPR_ENABLE, 0, 4, .rw, 31, 1, false, [1], (.range 0 1), 0, 0x0000⟩,
  ⟨P.TC_SINK_ALLOW, 0, 4, .rw, 31, 1, false, [0], (.range 0 1), 0, 0x0000⟩,
  ⟨P.TC_DR_SWAP_ALLOW, 0, 4, .rw, 31, 1, false, [0], (.range 0 1), 0, 0x0000⟩,
  ⟨P.TC_SINK_MAX_CURRENT, 0, 4, .rw, 31, 2, false, [3000], (.range 500 5000), 0, 0x0000⟩,
  ⟨P.TC_DP_PIN_PREF, 0, 4, .rw, 31, 1, false, [0], (.range 0 3), 0, 0x0000⟩,
  ⟨P.TC_PORT_STATE, 0, 4, .ro, 0, 2, false, [0], .any, 0, 0x0000⟩,
  ⟨P.TC_CONTRACT, 0, 4, .ro, 0, 8, false, [0], .any, 0, 0x0000⟩,
  ⟨P.TC_BUDGET_USED, 0, 1, .ro, 0, 8, false, [0], .any, 0, 0x0000⟩,
  ⟨P.TC_ATTACHES, 0, 4, .ro, 4, 8, false, [0], .any, 0, 0x0000⟩,
  ⟨P.TC_HARD_RESETS, 0, 4, .ro, 4, 8, false, [0], .any, 0, 0x0000⟩,
  ⟨P.TC_DETACH_TRANSITION, 0, 4, .ro, 4, 8, false, [0], .any, 0, 0x0000⟩,
  ⟨P.TC_VCONN_TRIP, 0, 4, .ro, 4, 8, false, [0], .any, 0, 0x0000⟩]

/-- The parameters of PID block 0x0B. -/
def params0B : List ParamDesc := [
  ⟨P.FU_SUPPLY_UV, 0, 2, .rw, 31, 2, false, [8600], (.range 7000 9000), 0, 0x0000⟩,
  ⟨P.FU_SUPPLY_OV, 0, 2, .rw, 31, 2, false, [16800], (.range 16200 18000), 0, 0x0000⟩,
  ⟨P.FU_RETURN_DELAY, 0, 1, .rw, 31, 2, false, [100], (.range 10 10000), 0, 0x0000⟩,
  ⟨P.FU_SUPPLY_STATE, 0, 1, .ro, 14, 1, false, [0], .any, 0, 0x0000⟩,
  ⟨P.FU_SUPPLY_MV, 0, 2, .ro, 0, 8, false, [0], .any, 0, 0x0000⟩,
  ⟨P.FU_ENABLE, 0, 1, .rw, 31, 1, false, [1], (.range 0 1), 0, 0x0000⟩,
  ⟨P.FU_BASE, 0, 1, .rw, 31, 2, false, [10000], (.range 500 20000), 0, 0x0000⟩,
  ⟨P.FU_RAMP_LIMIT, 0, 5, .rw, 31, 4, false, [4000, 1000], .any, 0, 0x0000⟩,
  ⟨P.FU_ILIM_MULT, 0, 5, .st, 31, 1, false, [32], (.range 17 60), 1, 0x0B14⟩,
  ⟨P.FU_FAST_MULT, 0, 5, .rw, 31, 1, false, [48], (.range 32 64), 2, 0x0B13⟩,
  ⟨P.FU_FAULT_TIME, 0, 5, .rw, 31, 1, false, [10], (.range 1 250), 0, 0x0000⟩,
  ⟨P.FU_SOA_BUDGET, 0, 5, .rw, 31, 2, false, [1000, 200], (.range 0 10000), 0, 0x0000⟩,
  ⟨P.FU_SOA_DECAY, 0, 5, .rw, 31, 4, false, [10000], (.range 100 100000), 0, 0x0000⟩,
  ⟨P.FU_CURVE, 0, 40, .rw, 31, 8, false, [19791239299968, 20890730927744, 23089747183296, 24189256811072, 26388279366624, 28587302422176, 30786325607728, 32985348843280, 19791239299968, 20890730927744, 23089747183296, 24189256811072, 26388279366624, 28587302422176, 30786325607728, 32985348843280, 19791239299968, 20890730927744, 23089747183296, 24189256811072, 26388279366624, 28587302422176, 30786325607728, 32985348843280, 19791239299968, 20890730927744, 23089747183296, 24189256811072, 26388279366624, 28587302422176, 30786325607728, 32985348843280, 19791239299968, 20890730927744, 23089747183296, 24189256811072, 26388279366624, 28587302422176, 30786325607728, 32985348843280], .any, 0, 0x0000⟩,
  ⟨P.FU_RETRIES, 0, 5, .rw, 31, 1, false, [3], (.range 0 7), 0, 0x0000⟩,
  ⟨P.FU_RETRY_CLEAR, 0, 5, .rw, 31, 2, false, [1000], (.range 100 60000), 0, 0x0000⟩,
  ⟨P.FU_VIN_UV, 0, 1, .rw, 31, 2, false, [36000], (.range 20000 56000), 0, 0x0000⟩,
  ⟨P.FU_DISCHARGE, 0, 1, .rw, 31, 1, false, [1], (.range 0 1), 0, 0x0000⟩,
  ⟨P.FU_STATE, 0, 5, .ro, 14, 2, false, [0], .any, 0, 0x0000⟩,
  ⟨P.FU_LATCHED, 0, 5, .ro, 14, 1, false, [0], .any, 0, 0x0000⟩,
  ⟨P.FU_BASE_ACTIVE, 0, 5, .ro, 0, 8, false, [0], .any, 0, 0x0000⟩,
  ⟨P.FU_CURRENT, 0, 5, .ro, 0, 8, false, [0], .any, 0, 0x0000⟩,
  ⟨P.FU_VIN, 0, 5, .ro, 0, 8, false, [0], .any, 0, 0x0000⟩,
  ⟨P.FU_VOUT, 0, 5, .ro, 0, 8, false, [0], .any, 0, 0x0000⟩,
  ⟨P.FU_SOA_LEVEL, 0, 5, .ro, 0, 8, false, [0], .any, 0, 0x0000⟩,
  ⟨P.FU_LAST_TRIP, 0, 5, .ro, 14, 8, false, [0], .any, 0, 0x0000⟩,
  ⟨P.FU_TRIPS, 0, 5, .ro, 14, 8, false, [0], .any, 0, 0x0000⟩,
  ⟨P.FU_FAST_TRIPS, 0, 5, .ro, 14, 8, false, [0], .any, 0, 0x0000⟩,
  ⟨P.FU_SWITCHOVERS, 0, 2, .ro, 14, 8, false, [0], .any, 0, 0x0000⟩]

/-- The parameters of PID block 0x0C. -/
def params0C : List ParamDesc := [
  ⟨P.DS_ROUTE, 0, 2, .rw, 31, 1, false, [1, 0], (.range 0 5), 0, 0x0000⟩,
  ⟨P.DS_CLONE, 0, 1, .rw, 31, 1, false, [0], (.range 0 1), 0, 0x0000⟩,
  ⟨P.DS_H_ACTIVE, 0, 2, .st, 31, 2, false, [1920], .any, 1, 0x0C03⟩,
  ⟨P.DS_H_TOTAL, 0, 2, .rw, 31, 2, false, [2200], .any, 2, 0x0C02⟩,
  ⟨P.DS_V_ACTIVE, 0, 2, .st, 31, 2, false, [1080], .any, 1, 0x0C05⟩,
  ⟨P.DS_V_TOTAL, 0, 2, .rw, 31, 2, false, [1125], .any, 2, 0x0C04⟩,
  ⟨P.DS_H_SYNC, 0, 2, .rw, 31, 4, false, [5767212], (.mask 0xFFFFFFFF), 0, 0x0000⟩,
  ⟨P.DS_V_SYNC, 0, 2, .rw, 31, 4, false, [262149], (.mask 0xFFFFFFFF), 0, 0x0000⟩,
  ⟨P.DS_PIXEL_CLOCK, 0, 2, .rw, 31, 4, false, [148500], (.range 25000 600000), 0, 0x0000⟩,
  ⟨P.DS_POLARITY, 0, 2, .rw, 31, 1, false, [3], (.mask 0x3), 0, 0x0000⟩,
  ⟨P.DS_BPC, 0, 2, .rw, 31, 1, false, [10], (.list [8, 10]), 0, 0x0000⟩,
  ⟨P.DS_LINK_MAX, 0, 2, .rw, 31, 1, false, [68], .any, 0, 0x0000⟩,
  ⟨P.DS_WATERMARK, 0, 2, .rw, 31, 1, false, [2], (.range 1 3), 0, 0x0000⟩,
  ⟨P.DS_FALLBACK_COLOUR, 0, 2, .rw, 31, 4, false, [0], (.mask 0x3FFFFFFF), 0, 0x0000⟩,
  ⟨P.DS_PATTERN, 0, 2, .rw, 31, 1, false, [1], (.range 0 1), 0, 0x0000⟩,
  ⟨P.DS_SHED_HALF, 0, 2, .rw, 31, 1, false, [1], (.range 0 1), 0, 0x0000⟩,
  ⟨P.DS_WATCH_ORIGIN, 0, 2, .st, 31, 4, false, [0], (.mask 0xFFFFFFFF), 1, 0x0C11⟩,
  ⟨P.DS_WATCH_SIZE, 0, 2, .rw, 31, 4, false, [0], (.mask 0xFFFFFFFF), 2, 0x0C10⟩,
  ⟨P.DS_FREEZE_N, 0, 2, .rw, 31, 1, false, [3], (.range 1 255), 0, 0x0000⟩,
  ⟨P.DS_STARVE_M, 0, 2, .rw, 31, 1, false, [6], (.range 1 255), 0, 0x0000⟩,
  ⟨P.DS_FREEZE_ACTION, 0, 2, .rw, 31, 1, false, [14], .any, 0, 0x0000⟩,
  ⟨P.DS_STARVE_ACTION, 0, 2, .rw, 31, 1, false, [14], .any, 0, 0x0000⟩,
  ⟨P.DS_ALARM_LATCH, 0, 2, .rw, 31, 1, false, [0], (.mask 0x3), 0, 0x0000⟩,
  ⟨P.DS_STATE, 0, 2, .ro, 0, 1, false, [0], .any, 0, 0x0000⟩,
  ⟨P.DS_SIGNATURE, 0, 2, .ro, 0, 8, false, [0], .any, 0, 0x0000⟩,
  ⟨P.DS_FRAMES_IN, 0, 2, .ro, 4, 8, false, [0], .any, 0, 0x0000⟩,
  ⟨P.DS_FRAMES_SHOWN, 0, 2, .ro, 4, 8, false, [0], .any, 0, 0x0000⟩,
  ⟨P.DS_FRAME_SKIP, 0, 2, .ro, 4, 8, false, [0], .any, 0, 0x0000⟩,
  ⟨P.DS_FRAME_SUPERSEDED, 0, 2, .ro, 4, 8, false, [0], .any, 0, 0x0000⟩,
  ⟨P.DS_FRAME_INCOMPLETE, 0, 2, .ro, 4, 8, false, [0], .any, 0, 0x0000⟩,
  ⟨P.DS_GEOMETRY_DROP, 0, 2, .ro, 4, 8, false, [0], .any, 0, 0x0000⟩,
  ⟨P.DS_FORMAT_ERR, 0, 2, .ro, 4, 8, false, [0], .any, 0, 0x0000⟩,
  ⟨P.DS_UNDERRUN, 0, 2, .ro, 4, 8, false, [0], .any, 0, 0x0000⟩,
  ⟨P.DS_FROZEN_COUNT, 0, 2, .ro, 4, 8, false, [0], .any, 0, 0x0000⟩,
  ⟨P.DS_STARVED_COUNT, 0, 2, .ro, 4, 8, false, [0], .any, 0, 0x0000⟩,
  ⟨P.DS_NOTIFY_FAIL, 0, 2, .ro, 4, 8, false, [0], .any, 0, 0x0000⟩,
  ⟨P.DS_CLONE_DROP, 0, 1, .ro, 4, 8, false, [0], .any, 0, 0x0000⟩]

/-- The parameters of PID block 0x0D. -/
def params0D : List ParamDesc := [
  ⟨P.AG_LOCK, 0, 1, .ro, 4, 1, false, [0], .any, 0, 0x0000⟩,
  ⟨P.AG_GENERATION, 0, 1, .ro, 4, 4, false, [0], .any, 0, 0x0000⟩,
  ⟨P.AG_DRAIN_TIMEOUT, 0, 1, .rw, 31, 2, false, [50], (.range 1 900), 0, 0x0000⟩,
  ⟨P.AG_ADMIN_MB, 0, 1, .rw, 31, 1, false, [3], (.mask 0xF), 0, 0x0000⟩,
  ⟨P.AG_TAG_BASE, 0, 1, .st, 0, 4, false, [0], (.range 0 1048575), 1, 0x0D05⟩,
  ⟨P.AG_TAG_FILL, 0, 1, .wo, 0, 8, false, [0], .any, 2, 0x0D04⟩,
  ⟨P.AG_TAG_PROBE, 0, 1, .rw, 4, 4, false, [0], (.range 0 1048575), 0, 0x0000⟩,
  ⟨P.AG_TAG_PROBE_COLOUR, 0, 1, .ro, 0, 1, false, [0], .any, 0, 0x0000⟩,
  ⟨P.AG_DRAIN_STATE, 0, 1, .ro, 4, 8, false, [0], .any, 0, 0x0000⟩,
  ⟨P.AG_VIOL_INFO, 0, 16, .ro, 4, 8, false, [0], .any, 0, 0x0000⟩,
  ⟨P.AG_VIOL_ADDR, 0, 16, .ro, 4, 8, false, [0], .any, 0, 0x0000⟩,
  ⟨P.AG_VIOL_TIME, 0, 16, .ro, 4, 8, false, [0], .any, 0, 0x0000⟩,
  ⟨P.AG_VIOL_USED, 0, 1, .ro, 4, 1, false, [0], .any, 0, 0x0000⟩,
  ⟨P.AG_VIOL_OVERFLOW, 0, 1, .rc, 4, 8, false, [0], .any, 0, 0x0000⟩,
  ⟨P.AG_VIOL_CLEAR, 0, 1, .wo, 0, 1, false, [0], (.range 0 1), 0, 0x0000⟩,
  ⟨P.AG_IMPRECISE, 0, 16, .ro, 4, 8, false, [0], .any, 0, 0x0000⟩,
  ⟨P.AG_IMPRECISE_COUNT, 0, 16, .ro, 4, 8, false, [0], .any, 0, 0x0000⟩,
  ⟨P.AG_DENIED, 1, 7, .ro, 4, 8, false, [0], .any, 0, 0x0000⟩,
  ⟨P.AG_DEBUG_DENIED, 0, 1, .ro, 4, 8, false, [0], .any, 0, 0x0000⟩,
  ⟨P.AG_OPEN_NOMATCH, 0, 1, .ro, 4, 8, false, [0], .any, 0, 0x0000⟩,
  ⟨P.AG_IMPRECISE_LOST, 0, 1, .ro, 4, 8, false, [0], .any, 0, 0x0000⟩]

/-- The parameters of PID block 0x0E. -/
def params0E : List ParamDesc := [
  ⟨P.KY_LIFE_CYCLE, 0, 1, .ro, 31, 1, false, [0], .any, 0, 0x0000⟩,
  ⟨P.KY_TAMPER_POLICY, 0, 6, .rw, 31, 4, false, [17, 17, 17, 1, 0, 0], .any, 0, 0x0000⟩,
  ⟨P.KY_TAMPER_DEGLITCH, 0, 2, .rw, 31, 2, false, [10], (.range 1 1000), 0, 0x0000⟩,
  ⟨P.KY_TAMPER_LATCH, 0, 1, .ro, 14, 1, false, [0], .any, 0, 0x0000⟩,
  ⟨P.KY_TAMPER_ACTIVE, 0, 1, .ro, 0, 1, false, [0], .any, 0, 0x0000⟩,
  ⟨P.KY_TAMPER_CLEAR, 0, 1, .wo, 0, 1, false, [0], (.mask 0x3F), 0, 0x0000⟩,
  ⟨P.KY_DEBUG_STATE, 0, 1, .ro, 0, 8, false, [0], .any, 0, 0x0000⟩,
  ⟨P.KY_CRYPTO_EPOCH, 0, 1, .ro, 31, 2, false, [0], .any, 0, 0x0000⟩,
  ⟨P.KY_NV_WRITES, 0, 1, .ro, 31, 8, false, [0], .any, 0, 0x0000⟩,
  ⟨P.KY_TAMPER_EVENTS, 0, 6, .ro, 14, 8, false, [0], .any, 0, 0x0000⟩,
  ⟨P.KY_AUTH_FAIL, 0, 1, .ro, 4, 8, false, [0], .any, 0, 0x0000⟩,
  ⟨P.KY_REPLAY, 0, 1, .ro, 4, 8, false, [0], .any, 0, 0x0000⟩,
  ⟨P.KY_NOKEY_DROP, 0, 1, .ro, 4, 8, false, [0], .any, 0, 0x0000⟩]

/-- The parameters of PID block 0x0F. -/
def params0F : List ParamDesc := [
  ⟨P.MG_MB_MASK, 0, 1, .rw, 4, 1, false, [15], (.mask 0xF), 0, 0x0000⟩,
  ⟨P.MG_EVENT_MASK, 0, 4, .rw, 4, 4, false, [262143], (.mask 0x3FFFF), 0, 0x0000⟩,
  ⟨P.MG_TXN_TIMEOUT, 0, 1, .rw, 4, 4, false, [10000], (.range 100 600000), 0, 0x0000⟩,
  ⟨P.MG_PAIR_TIMEOUT, 0, 1, .rw, 4, 2, false, [1000], (.range 10 60000), 0, 0x0000⟩,
  ⟨P.MG_EVT_DROP, 0, 4, .rc, 0, 8, false, [0], .any, 0, 0x0000⟩,
  ⟨P.MG_MSG_SHORT, 0, 4, .ro, 4, 8, false, [0], .any, 0, 0x0000⟩,
  ⟨P.MG_FW_TRIAL_TRIES, 0, 1, .rw, 31, 1, false, [3], (.range 1 7), 0, 0x0000⟩,
  ⟨P.MG_FW_CONFIRM_TIME, 0, 1, .rw, 31, 2, false, [60], (.range 0 3600), 0, 0x0000⟩,
  ⟨P.MG_WDT_TIMEOUT, 0, 1, .rw, 31, 2, false, [1000], (.range 100 60000), 0, 0x0000⟩,
  ⟨P.MG_LOG_FLASH_SEV, 0, 1, .rw, 31, 1, false, [2], (.range 0 5), 0, 0x0000⟩,
  ⟨P.MG_LOG_FLASH_RATE, 0, 1, .rw, 31, 2, false, [16], (.range 1 256), 0, 0x0000⟩,
  ⟨P.MG_LOG_MIRROR_EN, 0, 1, .rw, 31, 1, false, [1], (.range 0 1), 0, 0x0000⟩,
  ⟨P.MG_BOOT_STATE, 0, 1, .ro, 4, 8, false, [0], .any, 0, 0x0000⟩,
  ⟨P.MG_ROLLBACK_FLOOR, 0, 1, .ro, 31, 1, false, [0], .any, 0, 0x0000⟩,
  ⟨P.MG_LOG_SEQ, 0, 1, .ro, 15, 4, false, [0], .any, 0, 0x0000⟩,
  ⟨P.MG_LOG_FLASH_SKIP, 0, 1, .ro, 4, 8, false, [0], .any, 0, 0x0000⟩,
  ⟨P.MG_WDT_RESETS, 0, 1, .ro, 14, 8, false, [0], .any, 0, 0x0000⟩]

/-- The parameters of PID block 0x10. -/
def params10 : List ParamDesc := [
  ⟨P.PW_STATE, 0, 1, .ro, 0, 1, false, [0], .any, 0, 0x0000⟩,
  ⟨P.PW_WAKE_MASK, 0, 2, .rw, 31, 1, false, [248, 255], (.mask 0xFF), 0, 0x0000⟩,
  ⟨P.PW_GPIO_WAKE, 0, 2, .rw, 31, 4, false, [0], (.mask 0xFFFFFFFF), 0, 0x0000⟩,
  ⟨P.PW_WAKE_TIMER, 0, 1, .rw, 30, 4, false, [0], (.range 0 4294967295), 0, 0x0000⟩,
  ⟨P.PW_REST_EXIT, 0, 1, .rw, 31, 1, false, [1], (.range 0 1), 0, 0x0000⟩,
  ⟨P.PW_WAKE_OUT_WIDTH, 0, 1, .rw, 31, 4, false, [1000], (.range 10 100000), 0, 0x0000⟩,
  ⟨P.PW_FOLD_PACE, 0, 1, .rw, 31, 2, false, [10], (.range 1 10000), 0, 0x0000⟩,
  ⟨P.PW_FOLD_TIMEOUT, 0, 1, .rw, 31, 2, false, [60], (.range 1 3600), 0, 0x0000⟩,
  ⟨P.PW_ISLAND_RESET, 0, 1, .wo, 0, 1, false, [0], (.range 5 9), 0, 0x0000⟩,
  ⟨P.PW_RESET_CAUSE, 0, 1, .ro, 14, 1, false, [1], .any, 0, 0x0000⟩,
  ⟨P.PW_LAST_WAKE, 0, 1, .ro, 14, 1, false, [0], .any, 0, 0x0000⟩,
  ⟨P.PW_ENTRIES, 0, 2, .ro, 14, 8, false, [0], .any, 0, 0x0000⟩,
  ⟨P.PW_WAKE_ABORTS, 0, 1, .ro, 14, 8, false, [0], .any, 0, 0x0000⟩,
  ⟨P.PW_GATED_DROP, 3, 9, .ro, 4, 8, false, [0], .any, 0, 0x0000⟩,
  ⟨P.PW_TSD_EVENTS, 0, 1, .ro, 14, 8, false, [0], .any, 0, 0x0000⟩,
  ⟨P.PW_ISLAND_STATE, 0, 12, .ro, 0, 4, false, [0], .any, 0, 0x0000⟩,
  ⟨P.PW_ISLAND_TEMP, 0, 12, .ro, 0, 8, true, [0], .any, 0, 0x0000⟩,
  ⟨P.PW_ISLAND_MV, 0, 12, .ro, 0, 8, false, [0], .any, 0, 0x0000⟩,
  ⟨P.PW_SEAM_DISCARD, 0, 24, .ro, 4, 8, false, [0], .any, 0, 0x0000⟩,
  ⟨P.PW_SEAM_RESETS, 0, 24, .ro, 4, 8, false, [0], .any, 0, 0x0000⟩,
  ⟨P.PW_GRADIENT_ALARMS, 0, 12, .ro, 4, 8, false, [0], .any, 0, 0x0000⟩,
  ⟨P.PW_SKEW_RESETS, 0, 12, .ro, 4, 8, false, [0], .any, 0, 0x0000⟩,
  ⟨P.PW_AON_TRIM_MODE, 0, 1, .rw, 31, 1, false, [1], (.range 0 1), 0, 0x0000⟩,
  ⟨P.PW_AON_TRIM_STATE, 0, 1, .ro, 14, 4, false, [0], .any, 0, 0x0000⟩]

/-- The parameters of PID block 0x11. -/
def params11 : List ParamDesc := [
  ⟨P.CT_PROFILE, 0, 1, .rw, 31, 1, false, [0], (.range 0 1), 0, 0x0000⟩,
  ⟨P.CT_LIST_GEN, 0, 1, .ro, 31, 1, false, [0], .any, 0, 0x0000⟩,
  ⟨P.CT_ENABLED, 0, 1, .ro, 31, 8, false, [0], .any, 0, 0x0000⟩,
  ⟨P.CT_BW_WINDOW, 0, 1, .rw, 31, 4, false, [1000], (.range 1 1000000), 0, 0x0000⟩,
  ⟨P.CT_PRESS_STATE, 0, 1, .ro, 4, 8, false, [0], .any, 0, 0x0000⟩,
  ⟨P.CT_PRESS_WRITE, 0, 1, .ro, 4, 4, false, [0], .any, 0, 0x0000⟩,
  ⟨P.CT_PRESS_READ, 0, 1, .rw, 4, 4, false, [0], .any, 0, 0x0000⟩,
  ⟨P.CT_PRESS_LOST, 0, 1, .ro, 4, 8, false, [0], .any, 0, 0x0000⟩,
  ⟨P.CT_SAMPLE_ID, 0, 4, .rw, 31, 8, false, [0], .any, 0, 0x0000⟩,
  ⟨P.CT_SAMPLE_EVERY, 0, 4, .rw, 31, 8, false, [65536], (.range 1 4294967296), 0, 0x0000⟩,
  ⟨P.CT_SAMPLE_HDR, 0, 64, .ro, 4, 8, false, [0], .any, 0, 0x0000⟩,
  ⟨P.CT_SAMPLE_LOST, 0, 4, .ro, 4, 8, false, [0], .any, 0, 0x0000⟩]

/-- The parameters of one PID block. -/
def paramsOf (block : Nat) : List ParamDesc :=
  match block with
  | 0x00 => params00
  | 0x01 => params01
  | 0x02 => params02
  | 0x03 => params03
  | 0x04 => params04
  | 0x05 => params05
  | 0x06 => params06
  | 0x07 => params07
  | 0x08 => params08
  | 0x09 => params09
  | 0x0A => params0A
  | 0x0B => params0B
  | 0x0C => params0C
  | 0x0D => params0D
  | 0x0E => params0E
  | 0x0F => params0F
  | 0x10 => params10
  | 0x11 => params11
  | _ => []

/-- Every parameter in order of PID. -/
def allParams : List ParamDesc := params00 ++ params01 ++ params02 ++ params03 ++ params04 ++ params05 ++ params06 ++ params07 ++ params08 ++ params09 ++ params0A ++ params0B ++ params0C ++ params0D ++ params0E ++ params0F ++ params10 ++ params11

/-- The description of a PID; none for an unassigned one (R465). -/
def descOf (pid : Nat) : Option ParamDesc := (paramsOf (pid / 256)).find? (fun d => d.pid == pid)

/-- The default of an instance (R12). -/
def ParamDesc.default (d : ParamDesc) (inst : Nat) : Nat :=
  (d.defaults.drop inst).headD (d.defaults.getLastD 0)

/-- The default of a parameter instance by PID. -/
def paramDefault (pid inst : Nat) : Nat := ((descOf pid).map (fun d => d.default inst)).getD 0

/-- A counter parameter: 48 bits, saturating (R453). -/
def counterMax : Nat := 2 ^ 48 - 1

end Sys2Proof.Machine
end

