-- ==== Sys2Proof/Machine/Ops.lean ====
section
/-!
DEFINITION. The named operations every block uses: parameters and counters, tables, time, output, interrupt bits, events and
Lint records, and how a command's body becomes a step.
-/
namespace Sys2Proof.Machine

/-! ## Status codes -/

/-- The status codes of R44. -/
inductive Status where
  | ok | inProgress | busy | denied | badCommand | badParam | range | conflict | noTxn | txnFull | noResource | timeout
  | aborted | lateEpoch | wakeAbort | powerState | authFail | replay | drainPending | internal
deriving DecidableEq, Repr

/-- The code of a status (R44). -/
def Status.code : Status → Nat
  | .ok => 0x00 | .inProgress => 0x01 | .busy => 0x02 | .denied => 0x03 | .badCommand => 0x04 | .badParam => 0x05
  | .range => 0x06 | .conflict => 0x07 | .noTxn => 0x08 | .txnFull => 0x09 | .noResource => 0x0A | .timeout => 0x0B
  | .aborted => 0x0C | .lateEpoch => 0x0D | .wakeAbort => 0x0E | .powerState => 0x0F | .authFail => 0x10
  | .replay => 0x11 | .drainPending => 0x12 | .internal => 0x13

/-! ## Parameters -/

/-- The key of a parameter instance. -/
def pkey (pid inst : Nat) : Nat := pid * 65536 + inst

/-- The stored value of a parameter instance. -/
def Hub.pget (h : Hub) (pid inst : Nat) : Nat :=
  (mget (BitVec.ofNat 64 (paramDefault pid inst)) h.params (pkey pid inst)).toNat

/-- A parameter instance set. -/
def Hub.pset (h : Hub) (pid inst v : Nat) : Hub :=
  { h with params := mset (BitVec.ofNat 64 (paramDefault pid inst)) h.params (pkey pid inst) (BitVec.ofNat 64 v) }

/-- A counter raised by n: 48 bits, saturating (R453). -/
def Hub.bumpBy (h : Hub) (pid inst n : Nat) : Hub := h.pset pid inst (satAdd 48 (h.pget pid inst) n)

/-- A counter raised by 1. -/
def Hub.bump (h : Hub) (pid inst : Nat) : Hub := h.bumpBy pid inst 1

/-- A parameter read as a signed number of its width. -/
def Hub.pgetSigned (h : Hub) (pid inst : Nat) : Int :=
  toSigned (8 * ((descOf pid).map (·.width)).getD 8) (h.pget pid inst)

/-! ## Tables -/

/-- The key of a table entry. -/
def tkey (table index : Nat) : Nat := table * 65536 + index

/-- A table entry as a little-endian number. -/
def Hub.tget (h : Hub) (table index : Nat) : Nat := mget 0 h.tables (tkey table index)

/-- A table entry written. -/
def Hub.tset (h : Hub) (table index v : Nat) : Hub := { h with tables := mset 0 h.tables (tkey table index) v }

/-! ## Straps and role (R20) -/

/-- STRAP_FAULT: ROLE HEAD with PE_MODE root port (R20, R22). -/
def Hub.strapFault (h : Hub) : Bool := bit h.straps 0 && !bit h.straps 2

/-- HEAD role: a combination that R20 gives it to.  On a strap fault the hub keeps the rail whole (R22): both line ports come up as a node's do
(log 29). -/
def Hub.isHead (h : Hub) : Bool := bit h.straps 0 && bit h.straps 2

/-- TWIN_SEL strap: twin B, on rail B. -/
def Hub.isTwinB (h : Hub) : Bool := bit h.straps 1

/-- PE_MODE strap: the PCIe port is an endpoint. -/
def Hub.isEndpoint (h : Hub) : Bool := bit h.straps 2

/-- The hub's own rail: 0 A, 1 B (R14). -/
def Hub.rail (h : Hub) : Nat := b2n h.isTwinB

/-! ## Ports -/

/-- Port p: 0 L0, 1 L1, 2 TW. -/
def Hub.port (h : Hub) (p : Nat) : Port := nth h.ports p Port.reset

/-- Port p changed. -/
def Hub.modPort (h : Hub) (p : Nat) (f : Port → Port) : Hub := { h with ports := modAt h.ports p f }

/-- Port p is UP. -/
def Hub.portUp (h : Hub) (p : Nat) : Bool := (h.port p).state == .up

/-! ## Time -/

/-- Head twin A keeps line time itself (R215). -/
def Hub.timeMaster (h : Hub) : Bool := h.isHead && !h.isTwinB

/-- The frequency correction in force, in ppb (R212): RL_FREQ_ADJ at the master (R221), else what the source taught. -/
def Hub.freqNow (h : Hub) : Int := if h.timeMaster then h.pgetSigned P.RL_FREQ_ADJ 0 else h.rl.freq

/-- 2⁻¹⁶ ns of line time that the counter has counted in n ns of uptime at a correction of f ppb (R212). -/
def lineTicks (f : Int) (n : Nat) : Nat := ((n : Int) * 65536 * (1000000000 + f) / 1000000000).toNat

/-- The clock n nanoseconds on: line time advances in steps of 2⁻¹⁶ ns at the rate its correction sets (R212). -/
def Hub.clockAfter (h : Hub) (n : Nat) : Clock :=
  let f := h.freqNow
  let v := h.clk.ns * 65536 + h.clk.frac + (lineTicks f (h.clk.up + n) - lineTicks f h.clk.up)
  ⟨h.clk.up + n, v / 65536, v % 65536⟩

/-- n nanoseconds pass. -/
def Hub.advance (h : Hub) (n : Nat) : Hub := { h with clk := h.clockAfter n }

/-- Uptime reaches t, if it has not passed it: a timer's command acts at its timer's instant (log 2). -/
def Hub.until (h : Hub) (t : Nat) : Hub := if h.clk.up < t then h.advance (t - h.clk.up) else h

/-- Line time reaches t, if it has not passed it; uptime moves by the time that takes at the correction in force, in whole ns. -/
def Hub.untilLine (h : Hub) (t : Nat) : Hub :=
  if h.clk.ns < t then
    let n := ((t * 65536 - (h.clk.ns * 65536 + h.clk.frac) : Nat) : Int) * 1000000000 / (65536 * (1000000000 + h.freqNow))
    { h with clk := ⟨h.clk.up + n.toNat, t, 0⟩ }
  else h

/-- The first allotment cycle boundary at or after line time t (R165). -/
def boundaryAt (t : Nat) : Nat := roundUp t 10240

/-- Milliseconds and microseconds in nanoseconds. -/
def ms (n : Nat) : Nat := n * 1000000

def us (n : Nat) : Nat := n * 1000

/-! ## Output and pins -/

/-- The hub shows something outside. -/
def Hub.out (h : Hub) (o : Output) : Hub := { h with outbox := h.outbox ++ [o] }

/-- A free value: the next of `Config.free` (log 7). -/
def Hub.fresh (h : Hub) : Nat × Hub := (Config.free h.free, { h with free := h.free + 1 })

/-- n bytes of free value. -/
def Hub.freeBytes (h : Hub) (n : Nat) : List Byte × Hub := (leBytes n h.fresh.1, h.fresh.2)

/-! ## Islands and Seams (R362 to R372) -/

/-- Island i. -/
def Hub.island (h : Hub) (i : Nat) : Island := nth h.isl i (Island.run 0)

/-- Island i changed. -/
def Hub.modIsland (h : Hub) (i : Nat) (f : Island → Island) : Hub := { h with isl := modAt h.isl i f }

/-- An island runs: powered, clocked and out of reset. -/
def Hub.running (h : Hub) (i : Nat) : Bool := (h.island i).powered && (h.island i).clock && !(h.island i).inReset

/-- An island works: powered and out of reset. -/
def Hub.works (h : Hub) (isl : Nat) : Bool := (h.island isl).powered && !(h.island isl).inReset

/-- An island is clock-gated: its Seam ends keep their state (R370). -/
def Hub.clockGated (h : Hub) (i : Nat) : Bool := (h.island i).powered && !(h.island i).clock && !(h.island i).inReset

/-- The Seams of crossing x. -/
def Hub.seam (h : Hub) (x : Nat) : Crossing := nth h.seams x Crossing.reset

/-- The Seams of crossing x changed. -/
def Hub.modSeam (h : Hub) (x : Nat) (f : Crossing → Crossing) : Hub := { h with seams := modAt h.seams x f }

/-- Entries of a Data Seam (R364): 16 on the cell paths of the line and twin ports and on the DRAM request paths, 8 elsewhere. -/
def seamDepth (x : Nat) : Nat := if [0, 1, 2, 3, 10, 11, 12].contains x then 16 else 8

/-- An item is presented to a Data Seam (R364): the FIFO takes it, or it waits at the source while the FIFO is full. -/
def Crossing.put (d : Nat) (c : Crossing) (m : RawMsg) : Crossing :=
  if c.items.length < d && c.behind.isEmpty then { c with items := c.items ++ [m] } else { c with behind := c.behind ++ [m] }

/-- A pulse is presented (R365): it launches the toggle, or while that is unacknowledged merges into the pending flag. -/
def Crossing.pulse (c : Crossing) : Crossing := if c.toggle then { c with pending := true } else { c with toggle := true }

/-- The acknowledge returns (R365): a pending pulse is launched. -/
def Crossing.ack (c : Crossing) : Crossing := { c with toggle := c.pending, pending := false }

/-- n increments of a Count Seam's source (R366). -/
def CountSeam.add (n : Nat) (k : CountSeam) : CountSeam := { k with source := k.source + BitVec.ofNat 16 n }

/-- What the destination of a Count Seam has not taken yet: the difference modulo 65,536 (R366). -/
def CountSeam.due (k : CountSeam) : Nat := (k.source - k.taken).toNat

/-- The destination takes the difference. -/
def CountSeam.take (k : CountSeam) : CountSeam := { k with taken := k.source }

/-- The crossing by which the doorbell of a mailbox reaches I-MGMT (R368, R369): MB0 from I-CORE, MB1 from I-PCIE, MB2 from I-AON, MB3 from I-USB. -/
def bellCrossing (m : Nat) : Nat := nth [9, 13, 17, 14] m 9

/-- The crossing by which an event raised outside I-MGMT reaches it, by its SOURCE (R43, R369): the bridge's, that of USB and Type-C, that of I-AON for
supplies, tamper and power, and I-CORE's for the others. -/
def eventCrossing (source : Nat) : Nat :=
  if source = 0x07 then 13 else if source = 0x09 || source = 0x0A then 14 else if source = 0x0B || source = 0x0E || source = 0x10 then 17 else 9

/-- An event is raised for I-MGMT while its clock stands still: its Seam counts it and asks for the clock (R369, R370); its content waits with
the mailboxes (log 130). -/
def Hub.countRaised (h : Hub) (source : Nat) : Hub :=
  if h.clockGated 10 then h.modSeam (eventCrossing source) (fun c => { c with raised := c.raised.add 1 }) else h

/-- A crossing holds something that its destination has not seen (R370). -/
def Crossing.waits (c : Crossing) : Bool := !c.items.isEmpty || c.toggle || c.raised.due != 0 || c.counts.any (fun k => k.due != 0)

/-! ## Interrupt bits (R35) -/

/-- INT_STATUS bits by their names. -/
def intRail : Nat := 15
def intHorest : Nat := 14
def intTamper : Nat := 13
def intSupply : Nat := 12
def intBudget : Nat := 11
def intLink : Nat := 10
def intGuard : Nat := 9
def intWriteErr : Nat := 8

/-- The INT_STATUS bits that exist: 15 to 0 but 0, 3, 4 and 7 (R35). -/
def intBits : Nat := 0xFF66

/-- The hub's registers changed. -/
def Hub.modRegs (h : Hub) (f : HostRegs → HostRegs) : Hub := { h with ctl := { h.ctl with regs := f h.ctl.regs } }

/-- INT_STATUS bits set; on an endpoint a bit that rises with its mask bit set signals its MSI-X vector (R35). -/
def Hub.raiseNow (h : Hub) (m : Nat) : Hub :=
  let old := h.ctl.regs.intStatus
  let new := (old ||| m) &&& intBits
  let h' := h.modRegs (fun r => { r with intStatus := new })
  let rose := (List.range 16).filter (fun n => bit new n && !bit old n && bit h.ctl.regs.intMask n)
  if h.isEndpoint then rose.foldl (fun h n => h.out (.msix n)) h' else h'

/-- INT_STATUS sources: I-MGMT takes them at once, or while its clock stands still when it runs again (R369, R370). -/
def Hub.raise (h : Hub) (m : Nat) : Hub :=
  if h.clockGated 10 then h.modRegs (fun r => { r with late := r.late ||| (m &&& intBits) }) else h.raiseNow m

/-! ## Lint records (R447, R448) -/

/-- The oldest of a newest-first list beyond n are gone. -/
def keep {β : Type} (n : Nat) (l : List β) : List β := l.take n

/-- A Lint record written to the SRAM and I-AON copies, to the DRAM mirror while it is on, and to the flash queue when its severity
qualifies; a queue of 256 deferred records is full (R448). -/
def Hub.lintRec (h : Hub) (code sev : Nat) (args : List Byte) (aon : Bool) : Hub :=
  let l := h.lint
  let r : LintRec := ⟨h.clk.ns, code, sev, false, aon, l.fresh, l.seq, fit 16 args⟩
  let q := h.pget P.MG_LOG_FLASH_SEV 0 ≤ sev
  let room := l.queue.length < 256
  let l := { l with seq := (l.seq + 1) % 2 ^ 32, fresh := false, sram := keep 4096 (r :: l.sram), aon := keep 64 (r :: l.aon),
                    dram := if h.pget P.MG_LOG_MIRROR_EN 0 = 1 then keep 1048576 (r :: l.dram) else l.dram,
                    queue := if q && room then l.queue ++ [r] else l.queue }
  let h := { h with lint := l }
  if q && !room then h.bump P.MG_LOG_FLASH_SKIP 0 else h

/-- A Lint record as its 32 bytes (R447). -/
def LintRec.bytes (r : LintRec) : List Byte :=
  leBytes 8 r.time ++ leBytes 2 r.code ++ [byte (r.code / 256), byte (r.sev + 8 * b2n r.est + 16 * b2n r.aon + 32 * b2n r.fst)] ++
    leBytes 4 r.seq ++ fit 16 r.args

/-! ## Events (R43, R492) -/

/-- The events of the hub: name, code and ARGS as the owning chapters list them. -/
inductive Ev where
  /-- LINK_UP, code 0x0101. ARGS: [0] port; [1] mode 1 to 4; [2] code: 1 short, 2 long; [3] Darn on. -/
  | linkUp
  /-- LINK_DOWN, code 0x0102. ARGS: [0] port; [1] cause: 0 signal loss, 1 lock loss, 2 RX_DOWN, 3 GOING_DOWN, 4 Darn exhausted, 5 Darn protocol error, 6 retrain, 7 disable. -/
  | linkDown
  /-- LINK_HELD, code 0x0103. ARGS: [0] port; [1] LN_HOLD_REASON; [2:3] partner node ID; [4] partner PORT_ID byte. -/
  | linkHeld
  /-- LINK_DEGRADED, code 0x0104. ARGS: [0] port; [1] lane; [4:7] corrected bits in the window; [8:11] uncorrectable codewords. -/
  | linkDegraded
  /-- TAIL_CHANGE, code 0x0105. ARGS: [0] new LN_TAIL. -/
  | tailChange
  /-- DARN_EXHAUSTED, code 0x0106. ARGS: [0] port; [2:3] BLOCK_SEQ of the block replayed. -/
  | darnExhausted
  /-- TUNNEL_AUTH_FAIL, code 0x0201. ARGS: [0:1] entry index; [2:3] SRC_NODE; [4:11] FRAME_CTR. -/
  | tunnelAuthFail
  /-- TUNNEL_RESYNC, code 0x0202. ARGS: [0:1] entry index; [2:3] SRC_NODE; [4:7] new RESYNC_TAG; [8:9] cells discarded, saturating. -/
  | tunnelResync
  /-- TUNNEL_CTR_EXHAUST, code 0x0203. ARGS: [0:1] entry index. -/
  | tunnelCtrExhaust
  /-- CREDIT_STALL, code 0x0301. ARGS: [0] port; [1] class; [2:9] line time at which the wait began. -/
  | creditStall
  /-- EPOCH_APPLIED, code 0x0401. ARGS: [0:3] EPOCH_ID; [4] flags applied; [8:15] line time of the boundary. -/
  | epochApplied
  /-- LATE_EPOCH, code 0x0402. ARGS: STATUS 0x0D; [0:3] EPOCH_ID; [8:15] T_e. -/
  | lateEpoch
  /-- EPOCH_PLAN_MISMATCH, code 0x0403. ARGS: [0:3] EPOCH_ID; [4:7] PLAN_ID received; [8:11] AL_PLAN_ID_SHADOW. -/
  | epochPlanMismatch
  /-- EPOCH_CANCELLED, code 0x0404. ARGS: [0:3] EPOCH_ID. -/
  | epochCancelled
  /-- ALLOT_SCALED, code 0x0405. ARGS: [0] output; [1] mode; [4:7] booking; [8:11] capacity. -/
  | allotScaled
  /-- BUDGET_LEVEL, code 0x0406. ARGS: [0] new level; [1] previous level; [2] cause bits as AL_GOV_CAUSE; [4:5] maximum temperature in °C, signed; [8:11] power estimate in mW. -/
  | budgetLevel
  /-- DETOUR_ARMED, code 0x0501. ARGS: [0] port; [1] 1 armed, 0 disarmed. -/
  | detourArmed
  /-- DETOUR_ACTIVE, code 0x0502. ARGS: [0] port; [8:15] line time the port went down, or line time of arming for a port already down when armed (R204). -/
  | detourActive
  /-- DETOUR_RELEASED, code 0x0503. ARGS: [0] port; [4:11] cells detoured, saturating. -/
  | detourReleased
  /-- NODE_ID_SET, code 0x0504. ARGS: [0:1] ID; [2] source: 0 L0, 1 TW, 2 fixed. -/
  | nodeIdSet
  /-- NODE_ID_CONFLICT, code 0x0505. ARGS: [0] port, 0xFF for a fixed value out of range; [2:3] partner ID; [4:5] own ID. -/
  | nodeIdConflict
  /-- ID_OVERFLOW, code 0x0506. ARGS: [0:1] partner ID. -/
  | idOverflow
  /-- TIME_STATE, code 0x0507. ARGS: [0] new state; [1] source; [8:15] offset in ps, signed. -/
  | timeState
  /-- TIME_STEP, code 0x0508. ARGS: [0:7] step in ns, signed. -/
  | timeStep
  /-- DE_BANK_SWAPPED, code 0x0601. ARGS: [0] new active bank; [4:7] DE_BANK_PLAN; [8:15] line time of the boundary. -/
  | deBankSwapped
  /-- DE_SWAP_REFUSED, code 0x0602. ARGS: [0] shadow state; [4:7] PLAN_ID received; [8:11] DE_BANK_PLAN of the shadow. -/
  | deSwapRefused
  /-- ACTUATE_LATE, code 0x0603. ARGS: [0] pin; [8:15] lateness in ns. -/
  | actuateLate
  /-- ACTUATE_EXPIRED, code 0x0604. ARGS: [0] pin; [8:15] lateness in ns. -/
  | actuateExpired
  /-- ACTUATE_DROPPED, code 0x0605. ARGS: [0] pin; [1] cause: 0 not output, 1 queue full, 2 beyond range, 3 power state. -/
  | actuateDropped
  /-- DE_FWD_READY, code 0x0606. ARGS: [0:3] DE_FWD_WRITE. -/
  | deFwdReady
  /-- WRITE_ERROR, code 0x0701. ARGS: [0] log index, 0xFF if the log was full; [1] STATUS; [2:3] far node; [4:5] TID; [8:15] OFFSET. -/
  | writeError
  /-- PREFETCH_AUDIT, code 0x0702. ARGS: [0] aperture; [8:15] offset of the first unread byte. -/
  | prefetchAudit
  /-- PCIE_LINK, code 0x0703. ARGS: [0] 1 up, 0 down; [1] speed 1 to 5; [2] width. -/
  | pcieLink
  /-- CPL_EXPIRED, code 0x0704. ARGS: [0] aperture; [2:3] TAG; [8:15] OFFSET. -/
  | cplExpired
  /-- ETH_LINK, code 0x0801. ARGS: [0] port; [1] 1 up, 0 down; [2] EN_MODE. -/
  | ethLink
  /-- USB_ATTACH, code 0x0901. ARGS: [0] port; [1] 1 attach, 0 detach; [2] speed. -/
  | usbAttach
  /-- USB_OVERCURRENT, code 0x0902. ARGS: [0] port; [1] 0 OC_N, 1 fuse channel; [2] ganged. -/
  | usbOvercurrent
  /-- USB_REMOTE_WAKE, code 0x0903. ARGS: [0] port; [1] RESUME_COINCIDENT. -/
  | usbRemoteWake
  /-- USB_RING, code 0x0904. ARGS: [0:3] CPL_PROD. -/
  | usbRing
  /-- SVC_BUS_RESET, code 0x0905. ARGS: [0] stage: 0 idle, 1 setup, 2 data, 3 status; [1] bRequest. -/
  | svcBusReset
  /-- TC_ATTACH, code 0x0A01. ARGS: [0] port; [1] 1 attach, 0 detach; [2] cause: 0 normal, 1 fuse trip, 2 during transition, 3 parked; [3] termination: 0 sink, 1 sink with cable, 2 audio, 3 debug honoured, 4 debug refused, 5 source. -/
  | tcAttach
  /-- TC_CONTRACT, code 0x0A02. ARGS: [0] port; [1] role: 0 source, 1 sink; [2] EPR; [4:7] mV; [8:11] mA. -/
  | tcContract
  /-- TC_HARD_RESET, code 0x0A03. ARGS: [0] port; [1] 0 none, 1 PR_Swap voided, 2 DR_Swap voided; [2] 1 sent, 0 received. -/
  | tcHardReset
  /-- TC_ALT_MODE, code 0x0A04. ARGS: [0] port; [1] 1 entered, 0 exited, 2 refused; [2] pin assignment: 3 C, 4 D. -/
  | tcAltMode
  /-- TC_VCONN_FAULT, code 0x0A05. ARGS: [0] port. -/
  | tcVconnFault
  /-- SUPPLY_SWITCH, code 0x0B01. ARGS: [0] now in use: 0 VMAIN, 1 VBACK; [1] cause: 0 VMAIN undervoltage, 1 VMAIN overvoltage, 2 VMAIN returned, 3 VBACK bad; [4:5] VMAIN mV; [6:7] VBACK mV. -/
  | supplySwitch
  /-- FUSE_TRIP, code 0x0B02. ARGS: [0] channel; [1] cause: 0 fast, 1 SOA, 2 fault timer, 3 curve; [2] curve point; [3] n after the trip; [4:7] current in mA; [8:11] backoff in ms, 0 when latched. -/
  | fuseTrip
  /-- FUSE_LATCHED, code 0x0B03. ARGS: [0] channel; [1] trips. -/
  | fuseLatched
  /-- FUSE_INPUT, code 0x0B04. ARGS: [0] channel; [1] 1 input lost, 0 restored; [2:3] input mV. -/
  | fuseInput
  /-- SUPPLY_BOTH_BAD, code 0x0B05. ARGS: [0:1] VMAIN mV; [2:3] VBACK mV. -/
  | supplyBothBad
  /-- DS_ALARM, code 0x0C01. ARGS: [0] head; [1] ALARMS after the change; [2] 1 raised, 0 cleared; [3] SAME; [4] STALE; [8:11] SIGNATURE. -/
  | dsAlarm
  /-- DS_UNDERRUN_EVT, code 0x0C02. ARGS: [0] head; [2:3] line; [4:7] underruns in the last second. -/
  | dsUnderrunEvt
  /-- DS_LINK, code 0x0C03. ARGS: [0] head; [1] 1 up, 0 down; [2] cause: 0 HPD, 1 training failed, 2 bandwidth; [3] lanes; [4] rate 1 to 4. -/
  | dsLink
  /-- GUARD_VIOLATION, code 0x0D01. ARGS: [0] 0 precise, 1 imprecise; [1] reason; [2] INIT_CLASS; [3] region, 0xFF none; [4:5] INIT_INDEX; [6] access colour; [7] page colour; [8:15] precise: address; imprecise: [8:11] count since the last event. -/
  | guardViolation
  /-- GUARD_DRAINED, code 0x0D02. ARGS: [0:3] generation; [4:7] time from the commit instant in µs. -/
  | guardDrained
  /-- GUARD_LOCKED, code 0x0D03. ARGS: [0:3] AG_GENERATION; [4] regions valid. -/
  | guardLocked
  /-- TAMPER_ALARM, code 0x0E01. ARGS: [0] source; [1] POLICY applied; [2] 1 raised, 0 condition ended; [3] state at the alarm: 0 RUN, 1 DOZE, 2 REST, 3 start-up; [8:15] line time of the alarm. -/
  | tamperAlarm
  /-- KEY_CHANGED, code 0x0E02. ARGS: [0] slot; [1] STATE; [4:7] POLICY; [8:15] COUNTER. -/
  | keyChanged
  /-- LC_CHANGED, code 0x0E03. ARGS: [0] new state; [1] previous state. -/
  | lcChanged
  /-- DEBUG_UNLOCKED, code 0x0E04. ARGS: [0] 1 unlocked, 0 ended; [1] end cause: 0 duration, 1 reset, 2 REST, 3 tamper; [4:7] DURATION. -/
  | debugUnlocked
  /-- TAMPER_HOLD, code 0x0E05. ARGS: [0:3] KY_TAMPER_LATCH. -/
  | tamperHold
  /-- BOOT, code 0x0F01. ARGS: [0] slot; [1] BOOT_SRC; [2] flags as FW_STATUS FLAGS; [4:7] HOREST_VERSION; [8:11] PW_RESET_CAUSE; [12:15] time to FULL_SERVICE in µs. -/
  | boot
  /-- FW_STAGED, code 0x0F02. ARGS: [0] slot; [1] 1 STAGED, 0 INVALID; [8:15] COUNTER. -/
  | fwStaged
  /-- FW_ACTIVATED, code 0x0F03. ARGS: [0] slot; [1] MODE; [8:15] TIME. -/
  | fwActivated
  /-- FW_FALLBACK, code 0x0F04. ARGS: [0] slot abandoned; [1] slot booted. -/
  | fwFallback
  /-- FW_CONFIRMED, code 0x0F05. ARGS: [0] slot; [8:15] COUNTER. -/
  | fwConfirmed
  /-- WATCHDOG, code 0x0F06. ARGS: [8:15] program counter. -/
  | watchdog
  /-- SENSOR_FAULT, code 0x0F07. ARGS: [0] kind; [1] index; [2] 1 faulted, 0 restored; [4:7] last VALUE. -/
  | sensorFault
  /-- STEP_DONE, code 0x0F10. ARGS: [0:3] step token; [4:5] command. -/
  | stepDone
  /-- TXN_EXPIRED, code 0x0F11. ARGS: [0:3] TXN_ID. -/
  | txnExpired
  /-- PAIR_DISCARDED, code 0x0F12. ARGS: [0:1] PID; [2:3] instance. -/
  | pairDiscarded
  /-- EVENT_OVERFLOW, code 0x0F13. ARGS: [0:3] events dropped. -/
  | eventOverflow
  /-- TXN_APPLIED, code 0x0F14. ARGS: [0:3] TXN_ID; [8:15] line time of the switch. -/
  | txnApplied
  /-- POWER_STATE, code 0x1001. ARGS: [0] new PW_STATE [3:0]; [1] previous; [8:15] line time. -/
  | powerState
  /-- POWER_WAKE, code 0x1002. ARGS: [0] source code of R383; [1] state woken from; [8:15] line time of the wake event. -/
  | powerWake
  /-- RESET_CAUSE, code 0x1003. ARGS: [0:3] PW_RESET_CAUSE; [8:15] line time of the AON record. -/
  | resetCause
  /-- THERMAL_SHUTDOWN, code 0x1004. ARGS: [0] sensor; [1:2] reading in °C, signed. -/
  | thermalShutdown
  /-- SEAM_RESET, code 0x1021. ARGS: [0] crossing; [1] island reset, as in R362; [2] 1 reset, 0 released; [4:5] items discarded, saturating; [8:11] last Count Seam value seen, for the crossing's first Count Seam. -/
  | seamReset
  /-- GRADIENT_ALARM, code 0x1022. ARGS: [0] hot island; [1] other island; [2] 1 raised, 0 cleared; [4:5] difference in °C. -/
  | gradientAlarm
  /-- SUPPLY_SKEW, code 0x1023. ARGS: [0] island reset; [1] neighbour; [2:3] difference in mV; [4] 1 reset, 0 released. -/
  | supplySkew
  /-- PRESS_GAP, code 0x1101. ARGS: [0:3] SEQ of the next record; [4:7] CT_PRESS_LOST, low 32 bits. -/
  | pressGap
  /-- SAMPLE_READY, code 0x1102. ARGS: [0] sampler; [1] entries held. -/
  | sampleReady
deriving DecidableEq, Repr

/-- The event code; its upper byte is the SOURCE block (R464). -/
def Ev.code : Ev → Nat
  | .linkUp => 0x0101
  | .linkDown => 0x0102
  | .linkHeld => 0x0103
  | .linkDegraded => 0x0104
  | .tailChange => 0x0105
  | .darnExhausted => 0x0106
  | .tunnelAuthFail => 0x0201
  | .tunnelResync => 0x0202
  | .tunnelCtrExhaust => 0x0203
  | .creditStall => 0x0301
  | .epochApplied => 0x0401
  | .lateEpoch => 0x0402
  | .epochPlanMismatch => 0x0403
  | .epochCancelled => 0x0404
  | .allotScaled => 0x0405
  | .budgetLevel => 0x0406
  | .detourArmed => 0x0501
  | .detourActive => 0x0502
  | .detourReleased => 0x0503
  | .nodeIdSet => 0x0504
  | .nodeIdConflict => 0x0505
  | .idOverflow => 0x0506
  | .timeState => 0x0507
  | .timeStep => 0x0508
  | .deBankSwapped => 0x0601
  | .deSwapRefused => 0x0602
  | .actuateLate => 0x0603
  | .actuateExpired => 0x0604
  | .actuateDropped => 0x0605
  | .deFwdReady => 0x0606
  | .writeError => 0x0701
  | .prefetchAudit => 0x0702
  | .pcieLink => 0x0703
  | .cplExpired => 0x0704
  | .ethLink => 0x0801
  | .usbAttach => 0x0901
  | .usbOvercurrent => 0x0902
  | .usbRemoteWake => 0x0903
  | .usbRing => 0x0904
  | .svcBusReset => 0x0905
  | .tcAttach => 0x0A01
  | .tcContract => 0x0A02
  | .tcHardReset => 0x0A03
  | .tcAltMode => 0x0A04
  | .tcVconnFault => 0x0A05
  | .supplySwitch => 0x0B01
  | .fuseTrip => 0x0B02
  | .fuseLatched => 0x0B03
  | .fuseInput => 0x0B04
  | .supplyBothBad => 0x0B05
  | .dsAlarm => 0x0C01
  | .dsUnderrunEvt => 0x0C02
  | .dsLink => 0x0C03
  | .guardViolation => 0x0D01
  | .guardDrained => 0x0D02
  | .guardLocked => 0x0D03
  | .tamperAlarm => 0x0E01
  | .keyChanged => 0x0E02
  | .lcChanged => 0x0E03
  | .debugUnlocked => 0x0E04
  | .tamperHold => 0x0E05
  | .boot => 0x0F01
  | .fwStaged => 0x0F02
  | .fwActivated => 0x0F03
  | .fwFallback => 0x0F04
  | .fwConfirmed => 0x0F05
  | .watchdog => 0x0F06
  | .sensorFault => 0x0F07
  | .stepDone => 0x0F10
  | .txnExpired => 0x0F11
  | .pairDiscarded => 0x0F12
  | .eventOverflow => 0x0F13
  | .txnApplied => 0x0F14
  | .powerState => 0x1001
  | .powerWake => 0x1002
  | .resetCause => 0x1003
  | .thermalShutdown => 0x1004
  | .seamReset => 0x1021
  | .gradientAlarm => 0x1022
  | .supplySkew => 0x1023
  | .pressGap => 0x1101
  | .sampleReady => 0x1102

/-- The fixed severity of an event (R492). -/
def Ev.severity : Ev → Nat
  | .linkUp | .tailChange | .tunnelResync | .epochApplied | .epochCancelled | .detourArmed | .detourReleased | .nodeIdSet | .timeState | .deBankSwapped | .deFwdReady | .pcieLink | .ethLink | .usbAttach | .usbRemoteWake | .usbRing | .tcAttach | .tcContract | .tcAltMode | .guardDrained | .guardLocked | .stepDone | .txnApplied | .powerState | .powerWake | .sampleReady => 0
  | .budgetLevel | .timeStep | .svcBusReset | .tcHardReset | .dsLink | .keyChanged | .lcChanged | .boot | .fwStaged | .fwActivated | .fwConfirmed | .txnExpired | .pairDiscarded | .resetCause => 1
  | .linkDown | .linkHeld | .linkDegraded | .creditStall | .lateEpoch | .epochPlanMismatch | .allotScaled | .detourActive | .deSwapRefused | .actuateLate | .writeError | .prefetchAudit | .cplExpired | .usbOvercurrent | .tcVconnFault | .supplySwitch | .fuseTrip | .fuseInput | .dsAlarm | .dsUnderrunEvt | .guardViolation | .debugUnlocked | .sensorFault | .eventOverflow | .seamReset | .gradientAlarm | .pressGap => 2
  | .darnExhausted | .tunnelAuthFail | .tunnelCtrExhaust | .nodeIdConflict | .idOverflow | .actuateExpired | .actuateDropped | .fuseLatched | .fwFallback | .watchdog | .supplySkew => 3
  | .supplyBothBad | .tamperAlarm | .tamperHold | .thermalShutdown => 4

/-- A 16-byte ARGS field: values at (offset, size), little-endian, zeros elsewhere. -/
def fields (n : Nat) (fs : List (Nat × Nat × Nat)) : List Byte :=
  fs.foldl (fun b f => b.take f.1 ++ leBytes f.2.1 f.2.2 ++ b.drop (f.1 + f.2.1)) (List.replicate n 0#8)

/-- A message (R39): the 16-byte header and the payload. -/
def message (cmd seq flags txn status : Nat) (payload : List Byte) : List Byte :=
  leBytes 2 cmd ++ leBytes 2 seq ++ leBytes 2 payload.length ++ leBytes 2 flags ++ leBytes 4 txn ++ leBytes 4 status ++ payload

/-- Mailbox m. -/
def Hub.mb (h : Hub) (m : Nat) : Mailbox := nth h.ctl.mbs m (Mailbox.reset 0)

/-- Mailbox m changed. -/
def Hub.modMb (h : Hub) (m : Nat) (f : Mailbox → Mailbox) : Hub := { h with ctl := { h.ctl with mbs := modAt h.ctl.mbs m f } }

/-- NODE_INFO ID_VALID: in HEAD role the ID is 0 and always valid (R207). -/
def Hub.idValid (h : Hub) : Bool := h.isHead || h.rl.idValid

/-- The slots of a ring (R35): 2^RING_ORDER for 1 to 8, other values as 1; MB2 four. -/
def Hub.ringSize (h : Hub) (m : Nat) : Nat :=
  if m = 2 then 4 else
    let o := (h.mb m).ringOrder
    if 1 ≤ o && o ≤ 8 then 2 ^ o else 2

/-- Entries between a producer and a consumer index (R37). -/
def ringUsed (producer consumer : Nat) : Nat := (producer + 65536 - consumer) % 65536

/-- A response slot of mailbox m is free and messages can be placed there now, while I-MGMT has its clock (R370). MB1 and MB2 need their ring served: with RING_EN 0 their responses
and events wait (DESIGN CHOICE: R35 names only the requests; log 118). MB0 never takes a message here: its messages leave on the return entry
(R493); MB3 has no ring, and takes a message while the host has configured the service port and its bus is not suspended (R30, R306). -/
def Hub.canPlace (h : Hub) (m : Nat) : Bool :=
  !h.clockGated 10 && match m with
  | 1 | 2 => (h.mb m).ringEn && ringUsed (h.mb m).rspTail (h.mb m).rspHead < h.ringSize m
  | 3 => h.svcHost && h.usb.svc.configured && !h.usb.svc.suspended
  | _ => false

/-- The bytes of a message written to response slot RSP_TAIL, and RSP_TAIL advanced (R36, R37). -/
def Hub.placeRing (h : Hub) (m : Nat) (bs : List Byte) : Hub :=
  let b := h.mb m
  let slot := b.rspTail % h.ringSize m
  let h := match m with
    | 1 => { h with hostMem := writeMem h.hostMem (b.base + (h.ringSize 1 + slot) * 4096) bs }
    | 2 => { h with ctl := { h.ctl with window := writeMem h.ctl.window (0xC000 + slot * 4096) bs } }
    | _ => h
  (h.modMb m (fun b => { b with rspTail := (b.rspTail + 1) % 65536 })).out (.message m bs)

/-- The path of a mailbox exists (R30): MB0 once the hub has joined the line, which is when it holds its ID (log 116), MB1 at an endpoint, MB2
always, MB3 with a host at the service port. -/
def Hub.pathExists (h : Hub) (m : Nat) : Bool :=
  match m with
  | 0 => h.idValid
  | 1 => h.isEndpoint
  | 2 => true
  | _ => h.svcHost

/-- An event message placed on mailbox m, or queued (R43): up to 64, a further one dropped, counted and reported later. -/
def Hub.placeEvent (h : Hub) (m : Nat) (bs : List Byte) : Hub :=
  if h.canPlace m && (h.mb m).held.isNone && (h.mb m).events.isEmpty && (h.mb m).overflow == 0 then
    (h.placeRing m bs).raise (2 ^ (4 + m))
  else if (h.mb m).events.length < 64 then h.modMb m (fun b => { b with events := b.events ++ [bs] })
  else (h.modMb m (fun b => { b with overflow := b.overflow + 1 })).bump P.MG_EVT_DROP m

/-- The event message (R43). -/
def Hub.eventBytes (h : Hub) (code sev status : Nat) (args : List Byte) : List Byte :=
  message 0x01FF 0 2 0 0 (leBytes 2 code ++ [byte (code / 256), byte sev] ++ leBytes 4 status ++ leBytes 8 h.clk.ns ++ fit 16 args)

/-- An event delivered to every mailbox whose path exists and whose MG_EVENT_MASK has the SOURCE's bit (R43), with a severity and
a STATUS word given. -/
def Hub.deliver (h : Hub) (e : Ev) (sev status : Nat) (args : List Byte) : Hub :=
  [0, 1, 2, 3].foldl (fun g m =>
    if g.pathExists m && bit (g.pget P.MG_EVENT_MASK m) (e.code / 256) then
      g.placeEvent m (h.eventBytes e.code sev status args)
    else g) (h.countRaised (e.code / 256))

/-- An event delivered and written as a Lint record of the same code (R102, R135, R194 and the other blocks' event rules). -/
def Hub.event (h : Hub) (e : Ev) (args : List (Nat × Nat × Nat)) : Hub :=
  (h.lintRec e.code e.severity (fields 16 args) false).deliver e e.severity 0 (fields 16 args)

/-- An event whose LINE_TIME, in the message and in the Lint record, is that of an instant before (R408, R430). -/
def Hub.eventAt (h : Hub) (t : Nat) (e : Ev) (args : List (Nat × Nat × Nat)) : Hub :=
  let now := h.clk.ns
  let h := ({ h with clk := { h.clk with ns := t } } : Hub).event e args
  { h with clk := { h.clk with ns := now } }

/-- The form of an event that reports a cleared, ended or restored condition: severity 0 (R492). -/
def Hub.eventClear (h : Hub) (e : Ev) (args : List (Nat × Nat × Nat)) : Hub :=
  (h.lintRec e.code 0 (fields 16 args) false).deliver e 0 0 (fields 16 args)

/-- An event delivered without a Lint record of its own (chapter 02's codes). -/
def Hub.notify (h : Hub) (e : Ev) (status : Nat) (args : List (Nat × Nat × Nat)) : Hub :=
  h.deliver e e.severity status (fields 16 args)

/-- STEP_DONE on the originating mailbox, whatever its mask (R65); while the mailbox's path does not exist it waits there (log 116). -/
def Hub.stepDone (h : Hub) (m token cmd status : Nat) (args : List (Nat × Nat × Nat)) : Hub :=
  h.placeEvent m (h.eventBytes Ev.stepDone.code 0 status (fields 16 ([(0, 4, token), (4, 2, cmd)] ++ args)))

/-! ## Counters of GROUP 1 and 3 (R453, R454) -/

/-- The samplers that watch a counter see it pass a multiple of CT_SAMPLE_EVERY (R462): one that still waits for its capture loses the
crossing. -/
def Hub.sampleSeen (h : Hub) (id old new : Nat) : Hub :=
  [0, 1, 2, 3].foldl (fun h s =>
    let every := max 1 (h.pget P.CT_SAMPLE_EVERY s)
    if h.pget P.CT_SAMPLE_ID s ≠ id || old / every = new / every then h
    else if (h.ct.wanted.drop s).headD false then h.bump P.CT_SAMPLE_LOST s
    else { h with ct := { h.ct with wanted := h.ct.wanted.set s true } }) h

/-- A port event counted n times while its counter is enabled. -/
def Hub.portEv (h : Hub) (port ev n : Nat) : Hub :=
  let id := 0x10000000 + port * 256 + ev
  if h.ct.enabled.contains id then
    let old := mget 0 h.ct.events (port * 32 + ev)
    let new := satAdd 48 old n
    ({ h with ct := { h.ct with events := mset 0 h.ct.events (port * 32 + ev) new } } : Hub).sampleSeen id old new
  else h

/-- The high-water mark of a VOQ, while enabled. -/
def Hub.mark (h : Hub) (inp out cls flits : Nat) : Hub :=
  if h.ct.enabled.contains (0x30000000 + inp * 256 + out * 16 + cls) then
    { h with ct := { h.ct with marks := mmod 0 h.ct.marks (inp * 40 + out * 4 + cls) (max flits) } }
  else h

/-- Line bytes of the bandwidth window of a port (R461), while one of its counters is enabled. -/
def Hub.bwAdd (h : Hub) (port : Nat) (isOut : Bool) (n : Nat) : Hub :=
  let base := 0x40000000 + port * 256 + (if isOut then 16 else 0)
  let f := fun (b : Bandwidth) => if isOut then { b with curOut := b.curOut + n } else { b with curIn := b.curIn + n }
  if h.ct.enabled.contains base || h.ct.enabled.contains (base + 1) then
    { h with ct := { h.ct with bw := modAt h.ct.bw port f } }
  else h

/-! ## What the governor's evaluation has read (R470) -/

/-- The value of a governor parameter that the last evaluation read, at its place in the governor's record; the value in force before the first
evaluation. -/
def Hub.govNow (h : Hub) (k pid inst : Nat) : Nat := (h.al.gov.caps[k]?).getD (h.pget pid inst)

end Sys2Proof.Machine
end

