-- ==== Sys2Proof/Machine/Operands.lean ====
section
/-!
DEFINITION. What a command of a mailbox is to its meaning: the request as consumed (R39), its payload's fields, the answer it gets
(R41, R44), and long operations (R64 to R67).
-/
namespace Sys2Proof.Machine

/-- A consumed request: its mailbox, header fields and LENGTH payload bytes, and on MB0 the tunnel entry that delivered it. -/
structure Request where
  mb      : Nat
  cmd     : Nat
  seq     : Nat
  txn     : Nat
  payload : List Byte
  entry   : Nat
deriving DecidableEq, Repr

/-- How a command is answered. -/
inductive Reply where
  /-- A final response: status, detail (R44) and payload. -/
  | done (status : Status) (detail : Nat) (payload : List Byte)
  /-- IN_PROGRESS with a step token (R65). -/
  | long (token : Nat)
  /-- The OK of a commit, owed until these units are over or 1 ms has passed (R61). -/
  | held (txn : Nat) (units : List WorkUnit)
deriving DecidableEq, Repr

/-- OK with a payload. -/
def Reply.ok (payload : List Byte) : Reply := .done .ok 0 payload

/-- A status alone. -/
def Reply.err (s : Status) : Reply := .done s 0 []

/-- A status with a detail. -/
def Reply.at (s : Status) (detail : Nat) : Reply := .done s detail []

/-- Little-endian field of n bytes at offset o of a request's payload. -/
def Request.arg (r : Request) (o n : Nat) : Nat := le r.payload o n

/-- The payload has n bytes. -/
def Request.has (r : Request) (n : Nat) : Bool := r.payload.length == n

/-! ## Long operations -/

/-- A long operation starts (R64, R65), or finds 16 pending. -/
def Hub.startOp (h : Hub) (mb cmd : Nat) (work : Pending) : Hub × Reply :=
  if 16 ≤ h.ctl.ops.length then (h, .err .busy)
  else
    let t := h.ctl.nextToken
    ({ h with ctl := { h.ctl with nextToken := if t + 1 < 2 ^ 32 then t + 1 else 1, ops := h.ctl.ops ++ [⟨t, cmd, mb, 0, work⟩] } }, .long t)

/-- The units that commits wait for, with those that f lets go taken out (R60, R61). -/
def Hub.keepUnits (h : Hub) (f : WorkUnit → Bool) : Hub :=
  { h with ctl := { h.ctl with
      owed := h.ctl.owed.map (fun o => { o with units := o.units.filter f })
      ops := h.ctl.ops.map (fun o => match o.work with
        | .commit t us at_ => { o with work := .commit t (us.filter f) at_ }
        | _ => o) } }

/-- A unit of work is over: the commits that touched its block wait for it no longer (R60). -/
def Hub.unitOver (h : Hub) (u : WorkUnit) : Hub := h.keepUnits (fun x => x != u)

/-- The pending operation of a token. -/
def Hub.op (h : Hub) (token : Nat) : Option LongOp := h.ctl.ops.find? (fun o => o.token == token)

/-- The pending operation that a test picks. -/
def Hub.opWhere (h : Hub) (f : LongOp → Bool) : Option LongOp := h.ctl.ops.find? f

/-- What STEP_STATUS calls an outcome (R66): 1 DONE, 2 CANCELLED, 3 FAILED.  Every operation that ends with ABORTED is CANCELLED, whatever ended it
(DESIGN CHOICE, log 121). -/
def outcomeState (s : Status) : Nat := match s with | .ok => 1 | .aborted => 2 | _ => 3

/-- A long operation ends: its outcome is kept among the last 16 and STEP_DONE goes to its mailbox (R65, R66). -/
def Hub.endOp (h : Hub) (token : Nat) (status : Status) (detail : Nat) (args : List (Nat × Nat × Nat)) : Hub :=
  match h.op token with
  | none => h
  | some o =>
    let word := status.code + detail * 65536
    let h := { h with ctl := { h.ctl with ops := h.ctl.ops.filter (fun x => x.token != token),
                                          doneOps := keep 16 (⟨token, o.mb, outcomeState status, word⟩ :: h.ctl.doneOps) } }
    h.stepDone o.mb token o.cmd word args

/-- What a pending operation still has to do is changed. -/
def Hub.modOp (h : Hub) (token : Nat) (f : LongOp → LongOp) : Hub :=
  { h with ctl := { h.ctl with ops := h.ctl.ops.map (fun o => if o.token = token then f o else o) } }

end Sys2Proof.Machine
end

