-- ==== Sys2Proof/Machine/Derive.lean ====
section
/-!
DEFINITION. The keys that come from the device secret (R410 to R412), over the primitives of `Config`.
-/
namespace Sys2Proof.Machine

/-- SHA-384 as 48 bytes. -/
def sha384 (b : List Byte) : List Byte := beBytes 48 (Config.sha384 b).toNat

/-- The ASCII bytes of an info string (R410). -/
def ascii (s : String) : List Byte := s.toList.map (fun c => byte c.toNat)

/-- An absent salt (R410). -/
def noSalt : List Byte := List.replicate 48 0#8

/-- The device secret as input key material. -/
def secretBytes : List Byte := beBytes 32 Config.deviceSecret.toNat

/-- A 256-bit key from its bytes, most significant first. -/
def keyOf (b : List Byte) : BitVec 256 := BitVec.ofNat 256 (beNat b)

/-- The bytes of a 256-bit key, most significant first. -/
def keyBytes (k : BitVec 256) : List Byte := beBytes 32 k.toNat

/-- The storage key. -/
def storageKey : BitVec 256 := keyOf (Config.hkdf secretBytes noSalt (ascii "PJ storage") 32)

/-- The NV MAC key, which tags the rows of R413. -/
def nvMacKey : List Byte := Config.hkdf secretBytes noSalt (ascii "PJ nv mac") 48

/-- The order of the P-384 group, as FIPS 186 gives it (log 5). -/
def p384Order : Nat := 0xFFFFFFFFFFFFFFFFFFFFFFFFFFFFFFFFFFFFFFFFFFFFFFFFC7634D81F4372DDF581A0DB248B0A77AECEC196ACCC52973

/-- The device's private scalar (R411). -/
def deviceScalar : Nat := beNat (Config.hkdf secretBytes noSalt (ascii "PJ device") 48) % (p384Order - 1) + 1

/-- The device public key, X ‖ Y (R411). -/
def devicePubkey : List Byte := beBytes 96 (Config.p384Public deviceScalar).toNat

/-- The 16-byte device ID: the first bytes of SHA-384 of the public key (R411). -/
def deviceId : List Byte := (sha384 devicePubkey).take 16

/-- The device ID as a number, first byte most significant. -/
def deviceNat : Nat := beNat deviceId

/-- M_ROM. -/
def romMeasure : List Byte := beBytes 48 Config.romMeasure.toNat

/-- The MEASURED root of an image measurement in a life-cycle state. -/
def measuredRoot (image : List Byte) (lc : Nat) : List Byte :=
  Config.hkdf secretBytes (sha384 (romMeasure ++ image)) (ascii "PJ measured" ++ [byte lc]) 48

/-- The provisioning transport key of a signer: from the x-coordinate of ECDH, salted with DEVICE_ID. -/
def transportKey (signer : List Byte) : BitVec 256 := keyOf (Config.hkdf (Config.p384Shared deviceScalar signer) deviceId (ascii "PJ transport") 32)

/-- The SESSION key of a TID from a FABRIC slot's key (R412). -/
def sessionKey (slot : BitVec 256) (tid : Nat) : BitVec 256 :=
  keyOf (Config.hkdf (keyBytes slot) noSalt (ascii "PJ tunnel" ++ beBytes 2 tid) 32)

end Sys2Proof.Machine
end

