-- ==== Sys2Proof/Machine/Coding.lean ====
section
/-!
DEFINITION. What stands on a lane: symbols and levels (R68), the codewords of the short and the long code (R73 to R75), the scrambler
(R76), blocks and idle flits in a codeword (R77, R78), and the bits of side frames (R81, R82).  A codeword is a number whose most
significant bit is sent first.
-/
namespace Sys2Proof.Machine

/-! ## Lanes (R68, R90) -/

/-- The bit rate of a lane, in bits per second (R68). -/
def laneRate (m : Mode) : Nat :=
  match m with
  | 1 => 106250000000 | 2 => 53125000000 | 3 => 25781250000 | _ => 10312500000

/-- The short-codeword time of a mode in 10 ps (R68): blocks leave at one per this time on average (R77). -/
def codewordTime (m : Mode) : Nat :=
  match m with
  | 1 => 512 | 2 => 1024 | 3 => 2110 | _ => 5275

/-- The time of one side frame in 10 ps (R81): nine blocks with the short code, three codeword pairs of ten blocks with the long code. -/
def sideTime (m : Mode) (short : Bool) : Nat := (if short then 9 else 30) * codewordTime m

/-- F1 and F2 are PAM4, F3 and F4 NRZ. -/
def isPam4 (m : Mode) : Bool := m ≤ 2

/-- The PAM4 level of two bits, the first sent the more significant: Gray coded. -/
def pamLevel (two : Nat) : Int :=
  match two with
  | 0 => -3 | 1 => -1 | 3 => 1 | _ => 3

/-- The two bits of a PAM4 level. -/
def pamBits (l : Int) : Nat := if l = -3 then 0 else if l = -1 then 1 else if l = 1 then 3 else 2

/-- The n most significant bits first, as the levels a lane sends: two bits a symbol in PAM4, one in NRZ, where 1 is the high level
(written 1, the low −1). -/
def levelsOf (pam : Bool) : Nat → Nat → List Int
  | 0, _ => []
  | 1, w => [if bit w 0 then 1 else -1]
  | n + 2, w =>
    if pam then pamLevel (bits w n 2) :: levelsOf pam n w
    else (if bit w (n + 1) then 1 else -1) :: levelsOf pam (n + 1) w

/-- The number that a lane's levels spell, the first symbol most significant. -/
def bitsOf (pam : Bool) (ls : List Int) : Nat :=
  ls.foldl (fun w l => if pam then w * 4 + pamBits l else w * 2 + (if 0 < l then 1 else 0)) 0

/-! ## Scrambler and PRBS31 (R76, R78) -/

/-- n bits of the sequence x³¹ + x²⁸ + 1 from a register of 31 bits: the register after them, and the bits, the first most significant
(log 103). -/
def prbs : Nat → Nat → Nat × Nat
  | 0, s => (s, 0)
  | n + 1, s =>
    let r := prbs n s
    let b := b2n (bit r.1 30 != bit r.1 27)
    ((r.1 * 2 + b) % 2 ^ 31, r.2 * 2 + b)

/-- The scrambler's seed of a lane. -/
def scrSeed (lane : Nat) : Nat := if lane = 0 then 0x7FFFFFFF else 0x2AAAAAAA

/-! ## Arithmetic in GF(2^m) -/

/-- The product of two polynomials over GF(2) modulo one of degree m; `fuel` bounds the bits of b. -/
def gfMul (m poly : Nat) : Nat → Nat → Nat → Nat
  | 0, _, _ => 0
  | fuel + 1, a, b =>
    let a2 := if bit a (m - 1) then (a * 2) ^^^ poly else a * 2
    (if b % 2 = 1 then a else 0) ^^^ gfMul m poly fuel a2 (b / 2)

/-- The remainder of the n-bit polynomial v modulo one of degree m over GF(2), v's bit n − 1 first. -/
def gfRem (m poly : Nat) : Nat → Nat → Nat → Nat
  | 0, _, r => r
  | n + 1, v, r =>
    let r2 := r * 2 + b2n (bit v n)
    gfRem m poly n v (if bit r2 m then r2 ^^^ poly else r2)

/-! ## The short code (R73, R74) -/

/-- x¹² + x⁶ + x⁴ + x + 1, the minimal polynomial of α. -/
def bchPoly : Nat := 0x1053

/-- The minimal polynomial of α³. -/
def bchPoly3 : Nat := 0x145B

/-- The generator polynomial: their product, of degree 24. -/
def bchGen : Nat := 0x141DF9D

/-- A product in GF(2¹²). -/
def mul12 (a b : Nat) : Nat := gfMul 12 bchPoly 12 a b

/-- A codeword's 542 bits below SYNC: 518 message bits (SIDE and PAYLOAD) and their remainder (R74). -/
def bchEncode (msg : Nat) : Nat := msg * 2 ^ 24 + gfRem 24 bchGen 542 (msg * 2 ^ 24) 0

/-- The value of an n-bit polynomial at x in GF(2¹²), bit n − 1 the highest-order coefficient. -/
def eval12 (x v : Nat) : Nat → Nat → Nat
  | 0, r => r
  | n + 1, r => eval12 x v n (mul12 r x ^^^ b2n (bit v n))

/-- The positions whose α^i solves s·X² + s²·X + t = 0: the two errors of a word with syndromes S1 = s and S3 + S1³ = t. -/
def bchRoots (s s2 t : Nat) : Nat → Nat → Nat → List Nat
  | 0, _, _ => []
  | fuel + 1, i, x =>
    let v := mul12 (mul12 s x ^^^ s2) x ^^^ t
    (if v = 0 then [i] else []) ++ bchRoots s s2 t fuel (i + 1) (mul12 x 2)

/-- The positions in error of a 542-bit word: none when it is no codeword and no pattern of up to 2 errors explains it (R74). -/
def bchErrors (w : Nat) : Option (List Nat) :=
  let s1 := eval12 2 w 542 0
  let s3 := eval12 8 w 542 0
  let s2 := mul12 s1 s1
  if s1 = 0 && s3 = 0 then some []
  else if s1 = 0 then none
  else
    let t := s3 ^^^ mul12 s2 s1
    let r := bchRoots s1 s2 t 542 0 1
    if t = 0 then (if r.length = 1 then some r else none) else if r.length = 2 then some r else none

/-- What a lane's decoder says of one codeword (R74, R75). -/
inductive Decoded where
  /-- No error. -/
  | clean
  /-- Errors corrected. -/
  | corrected
  /-- Uncorrectable: the payload is not used. -/
  | uncorrectable
deriving DecidableEq, Repr

/-- What a lane's decoder makes of a codeword: its message, or none when it is uncorrectable, and the bits corrected. -/
structure Decode where
  msg   : Option Nat
  fixed : Nat
deriving DecidableEq, Repr

/-- The verdict on a codeword. -/
def Decode.verdict (d : Decode) : Decoded :=
  match d.msg with
  | none => .uncorrectable
  | some _ => if d.fixed = 0 then .clean else .corrected

/-- Decoding of the short code. -/
def bchDecode (w : Nat) : Decode :=
  match bchErrors w with
  | none => ⟨none, 0⟩
  | some es => ⟨some (es.foldl (fun w i => w ^^^ 2 ^ i) w / 2 ^ 24), es.length⟩

/-! ## The long code (R75) -/

/-- The field polynomial x¹⁰ + x³ + 1 of IEEE 802.3 Clause 91 (log 104). -/
def rsPoly : Nat := 0x409

/-- A product in GF(2¹⁰). -/
def mul10 (a b : Nat) : Nat := gfMul 10 rsPoly 10 a b

/-- A power in GF(2¹⁰). -/
def pow10 (a : Nat) : Nat → Nat
  | 0 => 1
  | n + 1 => mul10 (pow10 a n) a

/-- The inverse in GF(2¹⁰), a^1022 by squaring. -/
def inv10 (a : Nat) : Nat :=
  (List.replicate 9 ()).foldl (fun r _ => mul10 (mul10 r r) (mul10 a a)) 1

/-- Sum of two polynomials over GF(2¹⁰), lowest coefficient first. -/
def polyAdd : List Nat → List Nat → List Nat
  | [], q => q
  | p, [] => p
  | a :: p, b :: q => (a ^^^ b) :: polyAdd p q

/-- A polynomial times a constant. -/
def polyScale (c : Nat) (p : List Nat) : List Nat := p.map (mul10 c)

/-- Product of two polynomials. -/
def polyMul : List Nat → List Nat → List Nat
  | [], _ => []
  | a :: p, q => polyAdd (polyScale a q) (0 :: polyMul p q)

/-- The value of a polynomial at x. -/
def polyEval (x : Nat) : List Nat → Nat
  | [] => 0
  | a :: p => a ^^^ mul10 x (polyEval x p)

/-- The generator polynomial: the product of x − α^j, j from 0 to 29, lowest coefficient first (log 104). -/
def rsGen : List Nat :=
  ((List.range 30).foldl (fun (s : List Nat × Nat) _ => (polyMul s.1 [s.2, 1], mul10 s.2 2)) ([1], 1)).1

/-- A number of n symbols of 10 bits cut into them, the most significant first. -/
def symbols (n v : Nat) : List Nat := (List.range n).map (fun i => bits v (10 * (n - 1 - i)) 10)

/-- The number that symbols spell. -/
def ofSymbols (l : List Nat) : Nat := l.foldl (fun v s => v * 1024 + s) 0

/-- One message symbol enters the encoder's 30 parity symbols, the highest-order one first. -/
def rsStep (g : List Nat) (par : List Nat) (s : Nat) : List Nat :=
  let f := s ^^^ par.headD 0
  polyAdd (par.drop 1 ++ [0]) (polyScale f g)

/-- A codeword of 5,440 bits: 514 message symbols (POS, SIDE, PAYLOAD) and 30 parity symbols. -/
def rsEncode (msg : Nat) : Nat :=
  let g := (rsGen.take 30).reverse
  msg * 2 ^ 300 + ofSymbols ((symbols 514 msg).foldl (rsStep g) (List.replicate 30 0))

/-- Syndrome j: the received polynomial at α^j, the first symbol its highest-order coefficient. -/
def rsSyndromes (l : List Nat) : List Nat :=
  ((List.range 30).foldl (fun (s : List Nat × Nat) _ => (s.1 ++ [l.foldl (fun v c => mul10 v s.2 ^^^ c) 0], mul10 s.2 2)) ([], 1)).1

/-- The state of the search for the error locator: the locator, the one before the last change of length, the length, the steps since
that change and the discrepancy then. -/
structure Locator where
  c   : List Nat
  b   : List Nat
  len : Nat
  m   : Nat
  d   : Nat
deriving DecidableEq, Repr

/-- One step of the search with the first n + 1 syndromes. -/
def Locator.step (synd : List Nat) (s : Locator) (n : Nat) : Locator :=
  let d := (List.range (s.len + 1)).foldl (fun v i => v ^^^ mul10 ((s.c.drop i).headD 0) (if i ≤ n then (synd.drop (n - i)).headD 0 else 0)) 0
  if d = 0 then { s with m := s.m + 1 }
  else
    let c := polyAdd s.c (List.replicate s.m 0 ++ polyScale (mul10 d (inv10 s.d)) s.b)
    if 2 * s.len ≤ n then ⟨c, s.c, n + 1 - s.len, 1, d⟩ else { s with c := c, m := s.m + 1 }

/-- Errors of a word of 544 symbols, as exponents of its coefficients and the values to add; none when it has more than 15 or no
codeword is near (R75). -/
def rsErrors (synd : List Nat) : Option (List (Nat × Nat)) :=
  let s := (List.range 30).foldl (Locator.step synd) ⟨[1], [1], 0, 1, 1⟩
  let omega := (polyMul synd s.c).take 30
  let deriv := (List.range 30).map (fun i => if i % 2 = 0 then (s.c.drop (i + 1)).headD 0 else 0)
  -- 2⁻¹ = α^1022, so the inverse of α^i is reached by multiplying with it i times
  let half := inv10 2
  let found := ((List.range 544).foldl (fun (r : List (Nat × Nat) × Nat × Nat) i =>
    let (l, x, y) := r
    let l := if polyEval y s.c = 0 then l ++ [(i, mul10 x (mul10 (polyEval y omega) (inv10 (polyEval y deriv))))] else l
    (l, mul10 x 2, mul10 y half)) ([], 1, 1)).1
  if s.len ≤ 15 && found.length = s.len && found.all (fun e => e.2 != 0) then some found else none

/-- Bits set in a number of 10 bits. -/
def ones10 (v : Nat) : Nat := ((List.range 10).filter (bit v)).length

/-- Decoding of the long code: bit errors are counted within the corrected symbols (R87). -/
def rsDecode (w : Nat) : Decode :=
  let synd := rsSyndromes (symbols 544 w)
  if synd.all (· == 0) then ⟨some (w / 2 ^ 300), 0⟩
  else match rsErrors synd with
    | none => ⟨none, 0⟩
    | some es => ⟨some (es.foldl (fun w e => w ^^^ (e.2 * 2 ^ (10 * e.1))) w / 2 ^ 300), (es.map (fun e => ones10 e.2)).sum⟩

/-! ## Codewords (R73, R75 to R77) -/

/-- Bits of a codeword. -/
def wordBits (short : Bool) : Nat := if short then 544 else 5440

/-- Blocks of a codeword pair (R77). -/
def wordBlocks (short : Bool) : Nat := if short then 1 else 10

/-- Side-channel bits of a codeword. -/
def wordSide (short : Bool) : Nat := if short then 6 else 18

/-- Codewords of one lane in a side frame (R81). -/
def sideWords (short : Bool) : Nat := if short then 9 else 3

/-- The two bits in front: SYNC by place in the side frame, or POS. -/
def leadOf (short : Bool) (pos : Nat) : Nat := if short then (if pos = 0 then 2 else 1) else pos

/-- Flits as payload bits: flit byte 0 first, most significant bit first (R77). -/
def flitBits (fs : List (List Byte)) : Nat := beNat ((fs.map (fit 16)).flatten)

/-- n flits of payload bits. -/
def flitsOfBits (n v : Nat) : List (List Byte) := (List.range n).map (fun i => beBytes 16 (bits v (128 * (n - 1 - i)) 128))

/-- A lane's codeword at place `pos` of its side frame, before scrambling: its side bits and its payload flits. -/
def encodeWord (short : Bool) (pos side : Nat) (fs : List (List Byte)) : Nat :=
  let pay := flitBits fs
  if short then leadOf short pos * 2 ^ 542 + bchEncode (side * 2 ^ 512 + pay)
  else rsEncode (leadOf short pos * 2 ^ 5138 + side * 2 ^ 5120 + pay)

/-- Every bit but SYNC or POS is scrambled (R76): the register after the codeword, and the word. -/
def scramble (short : Bool) (reg w : Nat) : Nat × Nat :=
  let n := wordBits short - 2
  let r := prbs n reg
  (r.1, w ^^^ r.2)

/-- A codeword without scrambling, decoded: the verdict, the side bits as received or corrected, and the payload flits, none when they
may not be used. -/
structure LaneWord where
  lead    : Nat
  verdict : Decoded
  fixed   : Nat
  side    : Nat
  flits   : List (List Byte)
deriving DecidableEq, Repr

/-- The codeword read (R73 to R75, R77): side bits of an uncorrectable codeword are taken as they stand (log 105), and SYNC or POS is the
one received, also where the long code corrects it (log 151). -/
def decodeWord (short : Bool) (w : Nat) : LaneWord :=
  let body := wordBits short - 2
  let d := if short then bchDecode (w % 2 ^ body) else rsDecode w
  let lead := w / 2 ^ body
  let raw := if short then w % 2 ^ body / 2 ^ 24 else w / 2 ^ 300
  let m := d.msg.getD raw
  let n := 4 * wordBlocks short
  ⟨lead, d.verdict, d.fixed, bits m (128 * n) (wordSide short),
    match d.msg with
    | some m => flitsOfBits n m
    | none => List.replicate n []⟩

/-! ## Side frames (R81, R82) -/

/-- A side frame's 108 bits: TYPE, payload and SFCRC. -/
def sideFrame (type : Nat) (payload : List Byte) : Nat :=
  type % 16 * 2 ^ 104 + beNat (fit 12 payload) * 256 + crc8 (type % 16) (fit 12 payload)

/-- TYPE of a side frame. -/
def sideType (f : Nat) : Nat := bits f 104 4

/-- Its 12 payload bytes. -/
def sidePayload (f : Nat) : List Byte := beBytes 12 (bits f 8 96)

/-- The types that are not reserved. -/
def sideTypes : List Nat := [0, 1, 2, 4, 5, 6, 7, 8]

/-- A side frame that is not discarded (R83): its SFCRC holds and its TYPE is not reserved. -/
def sideGood (f : Nat) : Bool := crc8 (sideType f) (sidePayload f) == bits f 0 8 && sideTypes.contains (sideType f)

/-- The bits of a side frame that one lane's codeword carries at place `pos` (R81): lane 0 the upper, lane 1 the lower. -/
def sideBits (short : Bool) (f pos lane : Nat) : Nat :=
  let k := wordSide short
  bits f (108 - 2 * k * (pos + 1) + (if lane = 0 then k else 0)) k

/-- A side frame so far with the bits of one codeword pair behind it. -/
def sideAppend (short : Bool) (acc upper lower : Nat) : Nat :=
  let k := wordSide short
  (acc * 2 ^ k + upper) * 2 ^ k + lower

end Sys2Proof.Machine
end

