-- ==== Sys2Proof/Machine/Cells.lean ====
section
/-!
DEFINITION. The cell on the wire (R103 to R107), side frames (R82), and the tunnel table's entries (R109, R111).
-/
namespace Sys2Proof.Machine

/-- Flits of a cell (R105). -/
def cellFlits (c : Cell) : Nat := if c.payload.length = 0 then 1 else 1 + ceilDiv (c.payload.length + 4) 16

/-- Line bytes of a cell (R166). -/
def lineBytes (c : Cell) : Nat := 16 * cellFlits c

/-- Header bits [127:16] of a cell as a number (R103), reserved bits 0. -/
def headerTop (c : Cell) : Nat :=
  let w (v n acc : Nat) : Nat := acc * 2 ^ n + v % 2 ^ n
  let a := w c.kind 4 (w (b2n c.last) 1 (w (b2n c.first) 1 (w c.cls 2 0)))
  let a := w c.tid 16 (w c.src 12 (w c.dest 12 a))
  let a := w (b2n c.detour) 1 (w c.rail 1 (w (b2n c.dup) 1 (w c.seq 16 a)))
  w 0 23 (w c.payload.length 9 (w c.hops 13 a))

/-- The 16 header bytes, HCRC in the last two (R104). -/
def headerBytes (c : Cell) : List Byte :=
  let b := beBytes 14 (headerTop c)
  b ++ beBytes 2 (crc16 b)

/-- The cell as flits: header, payload, pad and trailer (R105, R106). -/
def cellWire (c : Cell) : List Byte :=
  if c.payload.length = 0 then headerBytes c
  else
    let n := 16 * (cellFlits c - 1)
    headerBytes c ++ fit (n - 4) c.payload ++ beBytes 4 (crc32c c.payload)

/-- A string cut into flits of 16 bytes; `fuel` bounds their number. -/
def cutFlits : Nat → List Byte → List (List Byte)
  | 0, _ => []
  | fuel + 1, bs => if bs.isEmpty then [] else fit 16 bs :: cutFlits fuel (bs.drop 16)

/-- The flits of a cell. -/
def flitsOf (c : Cell) : List (List Byte) := cutFlits 18 (cellWire c)

/-- What a flit says when it is read as a header: the fields, and LEN. -/
structure Header where
  cell : Cell
  len  : Nat
deriving DecidableEq, Repr

/-- The header fields of a 128-bit header (R103). -/
def headerOf (f : List Byte) : Header :=
  let v := be f 0 16
  let fld (hi lo : Nat) := bits v lo (hi - lo + 1)
  ⟨⟨fld 127 126, bit v 125, bit v 124, fld 123 120, fld 119 108, fld 107 96, fld 95 80, fld 79 64, bit v 63, fld 62 62, bit v 61,
    fld 60 48, []⟩, fld 47 39⟩

/-- The header check of R79: HCRC, reserved bits, LEN and KIND. -/
def headerGood (f : List Byte) : Bool :=
  let v := be f 0 16
  crc16 (f.take 14) == be f 14 2 && bits v 16 23 == 0 && bits v 39 9 ≤ 256 && bits v 120 4 ≤ 6

/-- A link-local message (R96, R155): KIND 6, DEST_NODE 0xFFE, LEN 8. -/
def linkLocal (own : Nat) (payload : List Byte) : Cell :=
  ⟨0, true, true, 6, 0xFFE, own, 0, 0, false, 0, false, 0, payload⟩

/-! ## Tunnel table entries (R111) -/

/-- The directions of R111. -/
inductive Dir where
  | rx | tx | both | reserved
deriving DecidableEq, Repr

/-- A tunnel table entry's fields. -/
structure TEntry where
  valid    : Bool
  type     : Nat
  dir      : Dir
  cls      : Nat
  prot     : Bool
  mcast    : Bool
  enc      : Bool
  peer     : Nat
  tid      : Nat
  binding  : Nat
  hopsInit : Nat
  keySlot  : Nat
  colour   : Nat
  maxFrame : Nat
  params   : Nat
deriving DecidableEq, Repr

/-- The direction of a code. -/
def Dir.ofCode (n : Nat) : Dir := if n = 0 then .rx else if n = 1 then .tx else if n = 2 then .both else .reserved

/-- The direction receives. -/
def Dir.receives (d : Dir) : Bool := d == .rx || d == .both

/-- The direction sends. -/
def Dir.sends (d : Dir) : Bool := d == .tx || d == .both

/-- The entry a little-endian 256-bit number stands for. -/
def TEntry.ofNat (v : Nat) : TEntry where
  valid := bit v 31
  type := bits v 28 3
  dir := Dir.ofCode (bits v 26 2)
  cls := bits v 24 2
  prot := bit v 23
  mcast := bit v 22
  enc := bit v 21
  peer := bits v 0 12
  tid := bits v 32 16
  binding := bits v 48 16
  hopsInit := bits v 64 13
  keySlot := bits v 80 5
  colour := bits v 88 8
  maxFrame := bits v 96 16
  params := bits v 128 128

/-- Tunnel types by code (R109). -/
def tDisplay : Nat := 0
def tWindow : Nat := 1
def tEthernet : Nat := 2
def tUsb : Nat := 3
def tDecision : Nat := 4
def tManagement : Nat := 5
def tGpio : Nat := 6

/-- The data KIND of a type (R109). -/
def dataKind (t : Nat) : Nat := if t = tDecision then 4 else if t = tManagement then 3 else 0

/-- The largest frame of a type (R109). -/
def largestFrame (t : Nat) : Nat :=
  if t = tDisplay || t = tUsb then 16384 else if t = tWindow then 4352 else if t = tEthernet then 9216
  else if t = tManagement then 4096 else 256

/-- The class is allowed for the type (R109). -/
def classAllowed (t c : Nat) : Bool :=
  if t = tDisplay then c == 1 else if t = tWindow || t = tEthernet then c == 2 || c == 3 else if t = tUsb then c == 1 || c == 2
  else if t = tManagement then c == 0 || c == 3 else c == 0

/-- The type allows any-source receive (R109). -/
def anySource (t : Nat) : Bool := 4 ≤ t && t ≤ 6

/-- MAX_FRAME, 0 selecting the type's largest (R111). -/
def TEntry.limit (e : TEntry) : Nat := if e.maxFrame = 0 then largestFrame e.type else e.maxFrame

/-- The local output that serves a type (R143). -/
def typeOutput (t : Nat) : Nat :=
  if t = tDisplay then 6 else if t = tWindow then 3 else if t = tEthernet then 4 else if t = tUsb then 5
  else if t = tManagement then 8 else 7

/-- Tunnel table entry i. -/
def Hub.tun (h : Hub) (i : Nat) : TEntry := TEntry.ofNat (h.tget 1 i)

/-- The listed entries of one table with their indexes (an unlisted entry is all zeros). -/
def Hub.tableRows (h : Hub) (table : Nat) : List (Nat × Nat) :=
  (h.tables.filter (fun e => e.1 / 65536 == table)).map (fun e => (e.1 % 65536, e.2))

/-- The valid tunnel entries with their indexes. -/
def Hub.tuns (h : Hub) : List (Nat × TEntry) :=
  ((h.tableRows 1).map (fun e => (e.1, TEntry.ofNat e.2))).filter (fun e => e.2.valid)

/-- The valid RX or BOTH entry of a TID (R112 keeps it single). -/
def Hub.rxEntry (h : Hub) (tid : Nat) : Option (Nat × TEntry) := h.tuns.find? (fun e => e.2.dir.receives && e.2.tid == tid)

/-- The valid MCAST RX entry of a TID. -/
def Hub.mcastEntry (h : Hub) (tid : Nat) : Option (Nat × TEntry) :=
  h.tuns.find? (fun e => e.2.dir == .rx && e.2.mcast && e.2.tid == tid)

/-- The return entry for MB0's events (R493): the valid MANAGEMENT entry with DIR TX or BOTH of lowest index. -/
def Hub.managementEntry (h : Hub) : Option (Nat × TEntry) := h.tuns.find? (fun e => e.2.type == tManagement && e.2.dir.sends)

/-! ## Entry counters (R127) -/

/-- No counts. -/
def EntryCount.zero : EntryCount := ⟨0, 0, 0, 0⟩

/-- Entry i's counters changed, each saturating at 48 bits. -/
def Hub.count (h : Hub) (i : Nat) (f : EntryCount → EntryCount) : Hub :=
  { h with tn := { h.tn with counts := mmod EntryCount.zero h.tn.counts i f } }

/-- n cells dropped of entry i. -/
def Hub.countDrops (h : Hub) (i n : Nat) : Hub := h.count i (fun c => { c with drops := satAdd 48 c.drops n })

/-- n dropped cells of a TID, when the hub holds an entry for it (R163). -/
def Hub.countTidDrops (h : Hub) (tid n : Nat) : Hub :=
  match h.tuns.find? (fun e => e.2.tid == tid) with
  | some e => h.countDrops e.1 n
  | none => h

end Sys2Proof.Machine
end

