-- ==== Sys2Proof/Machine/Switch.lean ====
section
/-!
DEFINITION. The switch core: buffers, admission and push-out (R151 to R163), queues (R146, R147), the output scheduler
(R171 to R175, R191, R192) and what an output sends, with the cell's Darn blocks and credit (R95, R97, R157, R202).
-/
namespace Sys2Proof.Machine

/-! ## Queues and occupancy -/

/-- The VOQ of an input, output and class, oldest first. -/
def Hub.voq (h : Hub) (inp out cls : Nat) : List QCell := mget [] h.sw.voq (inp * 40 + out * 4 + cls)

/-- A VOQ replaced. -/
def Hub.setVoq (h : Hub) (inp out cls : Nat) (q : List QCell) : Hub :=
  { h with sw := { h.sw with voq := mset [] h.sw.voq (inp * 40 + out * 4 + cls) q } }

/-- The delivery queue of a local output and class. -/
def Hub.dlv (h : Hub) (out cls : Nat) : List QCell := mget [] h.sw.dlv (out * 4 + cls)

/-- A delivery queue replaced. -/
def Hub.setDlv (h : Hub) (out cls : Nat) (q : List QCell) : Hub :=
  { h with sw := { h.sw with dlv := mset [] h.sw.dlv (out * 4 + cls) q } }

/-- Flits of a queue. -/
def qFlits (q : List QCell) : Nat := (q.map (fun c => cellFlits c.cell)).sum

/-- The buffer an input's cells occupy: its own for L0, L1 and TW, else the shared buffer (R151). -/
def bufOf (inp : Nat) : Nat := if inp < 3 then inp else 3

/-- Flits of reassembly storage held for entries of one class (R153). -/
def Hub.reasm (h : Hub) (cls : Nat) : Nat :=
  (h.tn.ctxs.map (fun x => if (h.tun x.entry).cls = cls then
    (x.held.map (fun c => cellFlits c.2.2)).sum + (match x.frame with | some f => f.flits | none => 0) else 0)).sum

/-- Flits of queued cells, the copies of one arrival counted once. -/
def sharedFlits (q : List QCell) : Nat :=
  (q.foldl (fun (s : List Nat × Nat) c => if s.1.contains c.ref then s else (c.ref :: s.1, s.2 + cellFlits c.cell)) ([], 0)).2

/-- Occupancy of a buffer by one class, in flits (R151). -/
def Hub.occ (h : Hub) (buf cls : Nat) : Nat :=
  sharedFlits ((h.sw.voq.filter (fun e => bufOf (e.1 / 40) = buf && e.1 % 4 = cls)).flatMap (·.2)) +
    (if buf = 3 then (h.sw.dlv.map (fun e => if e.1 % 4 = cls then qFlits e.2 else 0)).sum + h.reasm cls else 0)

/-- Flits of the whole buffer (8 MiB). -/
def bufFlits : Nat := 524288

/-- The C2 or C3 pool of a line or twin input, in flits (R152). -/
def Hub.pool (h : Hub) (p cls : Nat) : Nat := (if cls = 2 then (h.port p).train.poolC2 else (h.port p).train.poolC3) / 16

/-- The area that classes share under the floors of R154: the whole shared buffer, or the uncredited area of a line input. -/
def Hub.area (h : Hub) (buf : Nat) : Nat := if buf = 3 then bufFlits else bufFlits - h.pool buf 2 - h.pool buf 3

/-- The classes that share it. -/
def areaClasses (buf : Nat) : List Nat := if buf = 3 then [0, 1, 2, 3] else [0, 1]

/-- The floor of a class, in flits. -/
def Hub.floor (h : Hub) (cls : Nat) : Nat := h.pget P.SW_FLOOR cls / 16

/-- n flits of class cls are admitted (R154): within the floor, or in unreserved free space. -/
def Hub.admits (h : Hub) (buf cls n : Nat) : Bool :=
  let cs := areaClasses buf
  let used := (cs.map (h.occ buf)).sum
  let reserved := (cs.map (fun k => h.floor k - h.occ buf k)).sum
  (h.occ buf cls + n ≤ h.floor cls && used + n ≤ h.area buf) || used + reserved + n ≤ h.area buf

/-! ## Push-out (R161, R162) -/

/-- The queues of a buffer that hold cells of one class: VOQs by output then input, then delivery queues. The Bool says whether
it is a delivery queue. -/
def Hub.queuesOf (h : Hub) (buf cls : Nat) : List (Bool × Nat × Nat) :=
  let ins := if buf = 3 then [3, 4, 5, 6, 7, 8, 9] else [buf]
  (List.range 10).flatMap (fun o => ins.map (fun i => (false, i, o))) ++
    (if buf = 3 then [3, 4, 5, 6, 7, 8, 9].map (fun o => (true, 0, o)) else []) |>.filter
      (fun q => !(if q.1 then h.dlv q.2.2 cls else h.voq q.2.1 q.2.2 cls).isEmpty)

/-- The contents of such a queue. -/
def Hub.queue (h : Hub) (q : Bool × Nat × Nat) (cls : Nat) : List QCell := if q.1 then h.dlv q.2.2 cls else h.voq q.2.1 q.2.2 cls

/-- Such a queue replaced. -/
def Hub.setQueue (h : Hub) (q : Bool × Nat × Nat) (cls : Nat) (l : List QCell) : Hub :=
  if q.1 then h.setDlv q.2.2 cls l else h.setVoq q.2.1 q.2.2 cls l

/-- The victim queue (R161 rule 2): most flits, the first of equals. -/
def Hub.fullest (h : Hub) (buf cls : Nat) : Option (Bool × Nat × Nat) :=
  (h.queuesOf buf cls).foldl (fun best q =>
    match best with
    | none => some q
    | some b => if qFlits (h.queue b cls) < qFlits (h.queue q cls) then some q else some b) none

/-- Whether a queued cell has a victim's key (R162). -/
def sameKey (a b : Cell) : Bool := a.src == b.src && a.tid == b.tid && a.rail == b.rail

/-- The entries of a buffer's discard table that have not timed out (R162 rule 4). -/
def Hub.discardLive (h : Hub) (buf : Nat) : List DiscardKey :=
  (nth h.sw.discard buf []).filter (fun k => h.clk.up < k.at_ + us (h.pget P.TN_REASM_TIMEOUT 0))

/-- A key entered in a buffer's discard table of 64; the oldest live one goes when it is full (R162 rules 2, 4 and 5). -/
def Hub.discardPut (h : Hub) (buf : Nat) (c : Cell) : Hub :=
  let t := h.discardLive buf
  let k : DiscardKey := ⟨c.src, c.tid, c.rail, h.clk.up⟩
  let full := 64 ≤ t.length
  let h := { h with sw := { h.sw with discard := modAt h.sw.discard buf (fun _ => (if full then t.drop 1 else t) ++ [k]) } }
  if full then h.bump P.SW_DISCARD_TABLE_FULL buf else h

/-- The record of SW_LAST_VICTIM (R163). -/
def victimWord (c : Cell) : Nat :=
  c.tid * 2 ^ 48 + c.src * 2 ^ 36 + c.dest * 2 ^ 24 + c.rail * 4 + c.cls

/-- The victim class (R161 rule 1): the greatest class above c whose occupancy exceeds its floor.  Where that class holds only reassembly
storage, whose cells are never victims, there is no victim (R163). -/
def Hub.victimClass (h : Hub) (buf cls : Nat) : Option Nat :=
  ((areaClasses buf).reverse.filter (fun k => cls < k && h.floor k < h.occ buf k)).head?

/-- One victim removed with the rest of its frame; none when no victim exists. -/
def Hub.pushOne (h : Hub) (buf cls : Nat) : Option Hub := do
  let k ← h.victimClass buf cls
  let q ← h.fullest buf k
  let l := h.queue q k
  let v ← l.getLast?
  let rest := l.dropLast
  let gone := rest.filter (fun c => sameKey c.cell v.cell)
  let h := h.setQueue q k (rest.filter (fun c => !sameKey c.cell v.cell))
  let h := (h.bump P.SW_PUSHOUT (buf * 4 + k)).bumpBy P.SW_FRAME_DISCARD buf gone.length
  let h := (h.portEv v.inp 10 1).countTidDrops v.cell.tid (gone.length + 1)
  let h := h.pset P.SW_LAST_VICTIM buf (victimWord v.cell)
  some (if v.cell.last then h else h.discardPut buf v.cell)

/-- Victims removed until n flits of class cls fit, or none is left (R161). -/
def Hub.pushOut : Nat → Nat → Nat → Nat → Hub → Hub
  | 0, _, _, _, h => h
  | fuel + 1, buf, cls, n, h =>
    if h.admits buf cls n then h
    else match h.pushOne buf cls with
      | some h' => Hub.pushOut fuel buf cls n h'
      | none => h

/-- Every queued cell of the hub, counted: a bound on victims. -/
def Hub.queued (h : Hub) : Nat := (h.sw.voq.map (fun e => e.2.length)).sum + (h.sw.dlv.map (fun e => e.2.length)).sum

/-- Space for n flits of class cls made in a buffer, if it can be (R154, R161). -/
def Hub.makeRoom (h : Hub) (buf cls n : Nat) : Hub × Bool :=
  let h := Hub.pushOut (h.queued + 1) buf cls n h
  (h, h.admits buf cls n)

/-- The discard table's answer to an arriving cell (R162 rules 3 and 4): whether it may enter. -/
def Hub.discardCheck (h : Hub) (buf : Nat) (c : Cell) : Hub × Bool :=
  let live := h.discardLive buf
  let hit := live.any (fun k => k.src == c.src && k.tid == c.tid && k.rail == c.rail)
  let without := live.filter (fun k => !(k.src == c.src && k.tid == c.tid && k.rail == c.rail))
  let put (l : List DiscardKey) (h : Hub) : Hub := { h with sw := { h.sw with discard := modAt h.sw.discard buf (fun _ => l) } }
  if !hit then (put live h, true)
  else if c.first then (put without h, true)
  else (((put (if c.last then without else live) h).bump P.SW_FRAME_DISCARD buf).countTidDrops c.tid 1, false)

/-! ## Scheduler -/

/-- Output o. -/
def Hub.outp (h : Hub) (o : Nat) : OutPort := nth h.sw.outs o OutPort.reset

/-- Output o changed. -/
def Hub.modOut (h : Hub) (o : Nat) (f : OutPort → OutPort) : Hub := { h with sw := { h.sw with outs := modAt h.sw.outs o f } }

/-- The island behind a local output (chapter 01's table), 12 for none. -/
def outIsland (o : Nat) : Nat :=
  match o with
  | 3 => 6 | 4 => 7 | 5 => 8 | 6 => 9 | 7 => 5 | 8 => 10 | 9 => 4 | _ => 12

/-- n flits of a pool of port p freed, the first `part` of them by the pool's first Count Seam (R366, R369). -/
def Hub.countFreed (h : Hub) (p cls n part : Nat) : Hub :=
  let k := 2 * (cls - 2)
  h.modSeam p (fun c => { c with counts := modAt (modAt c.counts k (CountSeam.add part)) (k + 1) (CountSeam.add (n - part)) })

/-- The local output's island is powered down (R378, R191); BR still passes frames to MX (R278). -/
def Hub.outGated (h : Hub) (o : Nat) : Bool := 4 ≤ o && !(h.island (outIsland o)).powered

/-- Capacity of an output per allotment cycle at a mode (R166). -/
def capacity (out : Nat) (mode : Mode) : Nat :=
  if 3 ≤ out then 409600
  else match mode with
    | 1 => 256000 | 2 => 128000 | 3 => 62080 | 4 => 24832 | _ => 256000

/-- An allotment entry's fields (R167). -/
structure AEntry where
  valid  : Bool
  byCls  : Bool
  cls    : Nat
  weight : Nat
  tid    : Nat
  allot  : Nat
deriving DecidableEq, Repr

/-- The allotment entry a number stands for. -/
def AEntry.ofNat (v : Nat) : AEntry := ⟨bit v 7, bit v 6, bits v 0 2, bits v 8 8, bits v 16 16, bits v 32 20⟩

/-- The INDEX of active entry n of an output (R167). -/
def activeIndex (out n : Nat) : Nat := 4096 + out * 256 + n

/-- The INDEX of shadow entry n of an output. -/
def shadowIndex (out n : Nat) : Nat := out * 256 + n

/-- Active entry n of an output. -/
def Hub.aent (h : Hub) (out n : Nat) : AEntry := AEntry.ofNat (h.tget 0x20 (activeIndex out n))

/-- The listed valid entries of an output's copy that starts at INDEX `base`. -/
def Hub.aents (h : Hub) (base : Nat) : List (Nat × AEntry) :=
  (((h.tableRows 0x20).filter (fun e => base ≤ e.1 && e.1 < base + 256)).map (fun e => (e.1 - base, AEntry.ofNat e.2))).filter
    (fun e => e.2.valid)

/-- The entry a cell belongs to (R173): the tunnel entry of its class and TID, failing that its class entry. -/
def Hub.entryOf (h : Hub) (out : Nat) (c : Cell) : Option (Nat × AEntry) :=
  let es := h.aents (activeIndex out 0)
  match es.find? (fun e => !e.2.byCls && e.2.cls == c.cls && e.2.tid == c.tid) with
  | some e => some e
  | none => es.find? (fun e => e.2.byCls && e.2.cls == c.cls)

/-- The ALLOT in force of an active entry: scaled (R170), or its own. -/
def Hub.allotOf (h : Hub) (out n : Nat) : Nat :=
  match mget 0 h.al.scaledTo (out * 256 + n) with
  | 0 => (h.aent out n).allot
  | v + 1 => v

/-- Remaining allotment of an active entry (R173). -/
def Hub.remaining (h : Hub) (out n : Nat) : Int :=
  mget (h.allotOf out n : Int) h.al.rem (out * 256 + n)

/-- Remaining allotment set. -/
def Hub.setRemaining (h : Hub) (out n : Nat) (v : Int) : Hub :=
  { h with al := { h.al with rem := mset (h.allotOf out n : Int) h.al.rem (out * 256 + n) v } }

/-- The flow of step 4 a cell joins (R174, R175): its entry, or 256 and 257 for the implicit ones. -/
def Hub.flowOf (h : Hub) (out : Nat) (c : Cell) : Nat :=
  match h.entryOf out c with
  | some e => if c.cls = 1 then 256 else e.1
  | none => if c.cls = 3 then 257 else 256

/-- The weight of a flow. -/
def Hub.flowWeight (h : Hub) (out flow : Nat) : Nat :=
  let w := if flow < 256 then (h.aent out flow).weight else 0
  if w = 0 then h.pget P.AL_DEFAULT_WEIGHT 0 else w

/-- Credit of one class at a port. -/
def Port.credit (p : Port) (cls : Nat) : Credit := if cls = 2 then p.c2 else p.c3

/-- Credit of one class at a port changed. -/
def Port.modCredit (p : Port) (cls : Nat) (f : Credit → Credit) : Port :=
  if cls = 2 then { p with c2 := f p.c2 } else { p with c3 := f p.c3 }

/-- Credit held in flits: (CREDIT_LIMIT − S_c) mod 2³² (R158). -/
def Credit.avail (c : Credit) : Nat := (c.limit + 2 ^ 32 - c.sent % 2 ^ 32) % 2 ^ 32

/-- A C2 or C3 cell has credit (R158). -/
def Credit.covers (c : Credit) (n : Nat) : Bool := n ≤ c.avail && c.avail < 2 ^ 31

/-- Detour state of line port p. -/
def Hub.detour (h : Hub) (p : Nat) : Detour := nth h.rl.detours p Detour.reset

/-- Detour state of line port p changed. -/
def Hub.modDetour (h : Hub) (p : Nat) (f : Detour → Detour) : Hub := { h with rl := { h.rl with detours := modAt h.rl.detours p f } }

/-- TW serves the VOQs of output p now: its detour is active and no release is under way (R202, R205). -/
def Hub.twServes (h : Hub) (p : Nat) : Bool := (h.detour p).active && (h.detour p).releasing.isNone

/-- The outputs whose VOQs an output serves, its own first. -/
def Hub.served (h : Hub) (out : Nat) : List Nat :=
  if out = 2 then 2 :: [0, 1].filter h.twServes
  else if out < 2 && (h.detour out).active then [] else [out]

/-- The head cell of a VOQ is eligible for an output (R171): credit for C2 and C3 on a line or twin output, space in the shared
buffer for C2 and C3 at a local output, unless the cell is to be dropped there. -/
def Hub.eligible (h : Hub) (out : Nat) (c : Cell) : Bool :=
  if c.cls < 2 then true
  else if out < 3 then ((h.port out).credit c.cls).covers (cellFlits c)
  else h.outGated out || !(h.discardCheck 3 c).2 || (h.makeRoom 3 c.cls (cellFlits c)).2

/-- A candidate of the scheduler: the queue's output, input, and head cell. -/
abbrev Cand := Nat × Nat × QCell

/-- The eligible head of one input and class: of the served queues that hold one, the one whose turn it is (R202). -/
def Hub.headOf (h : Hub) (out inp cls : Nat) : Option (Cand × Bool) :=
  let cs := (h.served out).filterMap (fun q => match h.voq inp q cls with
    | c :: _ => if h.eligible out c.cell then some (q, inp, c) else none
    | [] => none)
  match cs with
  | [] => none
  | [c] => some (c, false)
  | c :: _ => some (nth cs (nth (h.outp out).turn inp 0 % cs.length) c, true)

/-- The inputs in round robin, starting after the one served last (R148). -/
def Hub.inputs (h : Hub) (out : Nat) : List Nat := (List.range 10).map (fun i => (i + (h.outp out).lastInp + 1) % 10)

/-- The eligible heads of a class in round robin order. -/
def Hub.heads (h : Hub) (out cls : Nat) : List (Cand × Bool) := (h.inputs out).filterMap (fun i => h.headOf out i cls)

/-- The candidate belongs to an entry with remaining allotment above 0. -/
def Hub.hasAllot (h : Hub) (out : Nat) (c : Cand) : Bool :=
  match h.entryOf out c.2.2.cell with
  | some e => 0 < h.remaining out e.1
  | none => false

/-- A C3 cell may go at CONSERVE (R191). -/
def Hub.c3Allowed (h : Hub) (out : Nat) : Bool :=
  h.al.gov.sched = 0 ||
    (h.outp out).c3Sent * 100 < h.govNow 5 P.AL_GOV_C3_CAP 0 * (capacity out (h.port out).rate - (h.outp out).prioSent)

/-- The candidates of step 4 (R172, R174, R175): C1 cells without an entry, C2 and C3 cells, input by input in round robin (R148); an
input's own classes follow one another (log 113). -/
def Hub.step4 (h : Hub) (out : Nat) : List (Cand × Bool) :=
  (h.inputs out).flatMap (fun i =>
    (h.headOf out i 1).toList.filter (fun c => (h.entryOf out c.1.2.2.cell).isNone) ++ (h.headOf out i 2).toList ++
      (if h.c3Allowed out then (h.headOf out i 3).toList else []))

/-- The active list brought up to date (R175): flows without an eligible head leave with deficit 0, new ones join at the back; flows that
join at one instant do so in the candidates' order. -/
def refreshFlows (d : Drr) (present : List Nat) : Drr :=
  let kept := d.flows.filter (fun f => present.contains f.1)
  let new := present.filter (fun f => !(kept.any (fun g => g.1 == f)))
  let fresh := new.eraseDups.map (fun f => (f, 0))
  ⟨kept ++ fresh, d.started && (d.flows.head?.map (·.1)) == (kept.head?.map (·.1))⟩

/-- One choice of deficit round robin (R175): the front flow gets its quantum on reaching the front, sends while its deficit covers
the cell, and goes to the back when it does not. -/
def Hub.drrPick : Nat → Nat → List (Cand × Bool) → Drr → Hub → Option ((Cand × Bool) × Drr)
  | 0, _, _, _, _ => none
  | fuel + 1, out, cs, d, h =>
    match d.flows with
    | [] => none
    | (f, def_) :: rest =>
      let def_ := if d.started then def_ else def_ + h.pget P.AL_DRR_QUANTUM 0 * h.flowWeight out f
      match cs.find? (fun c => h.flowOf out c.1.2.2.cell == f) with
      | none => Hub.drrPick fuel out cs ⟨rest, false⟩ h
      | some c =>
        let n := lineBytes c.1.2.2.cell
        if n ≤ def_ then some (c, ⟨(f, def_ - n) :: rest, true⟩)
        else Hub.drrPick fuel out cs ⟨rest ++ [(f, def_)], false⟩ h

/-- The active list of an output as its queues now stand (R175): brought up to date whenever a cell enters or leaves a queue that the output
serves.  While the budget level keeps step 4 from running no flow has an eligible head. -/
def Hub.refreshOut (h : Hub) (out : Nat) : Hub :=
  let present := if 2 ≤ h.al.gov.sched then [] else (h.step4 out).map (fun c => h.flowOf out c.1.2.2.cell)
  h.modOut out (fun o => { o with drr := refreshFlows o.drr present })

/-- What the scheduler chose: the candidate, whether the alternation of R202 moves on, and the step. -/
structure Choice where
  cand : Cand
  alt  : Bool
  step : Nat
  drr  : Drr
deriving Repr

/-- The scheduler's choice at a cell boundary (R172, with the budget level's limits of R191 and R192). -/
def Hub.choose (h : Hub) (out : Nat) : Option Choice :=
  let d := (h.outp out).drr
  let lvl := h.al.gov.sched
  match h.heads out 0 with
  | c :: _ => some ⟨c.1, c.2, 1, d⟩
  | [] =>
    match (h.heads out 1).filter (fun c => h.hasAllot out c.1 && (lvl < 3 || c.1.2.2.cell.dup)) with
    | c :: _ => some ⟨c.1, c.2, 2, d⟩
    | [] =>
      match (if lvl < 3 then (h.heads out 2).filter (fun c => h.hasAllot out c.1) else []) with
      | c :: _ => some ⟨c.1, c.2, 3, d⟩
      | [] =>
        if 2 ≤ lvl then none
        else
          let cs := h.step4 out
          let d := refreshFlows d (cs.map (fun c => h.flowOf out c.1.2.2.cell))
          (Hub.drrPick ((d.flows.length + 1) * (lineBytes' + 2)) out cs d h).map (fun r => ⟨r.1.1, r.1.2, 4, r.2⟩)
where
  /-- A flow reaches the cost of the largest cell (288 line bytes) within this many turns. -/
  lineBytes' : Nat := 288

end Sys2Proof.Machine
end

