-- ==== Sys2Proof/Machine/Fabric.lean ====
section
/-!
DEFINITION. Cells through the hub: an input's queue (R139 to R162), an output's cell boundary (R171 to R175, R191, R192, R202), what
leaves a line port with its Darn blocks and credit (R95, R97, R157), and routing (R140, R141, R201).
-/
namespace Sys2Proof.Machine

/-! ## Identity -/

/-- The own node ID. -/
def Hub.ownId (h : Hub) : Nat := if h.isHead then 0 else h.rl.nodeId

/-- The hub terminates and originates tunnels: an ID is held (R210), no strap fault (R22), no tamper-hold (R427), no ROM-hold (R437),
and Horest has started (R428, R439). -/
def Hub.tunnels (h : Hub) : Bool := h.idValid && !h.strapFault && !h.ky.hold && !h.mg.romHold && h.mg.ready

/-! ## What a line port sends -/

/-- Darn runs for what port p sends: on here (R94, LN_DARN_EN as taken at IDENT) and in the partner's STATUS frames. -/
def Hub.darnOn (h : Hub) (p : Nat) : Bool :=
  let q := h.port p
  (q.train.darnEn == 1 || (q.train.darnEn == 2 && q.short)) && q.rx.darnOn

/-- The 16 bytes of a flit as it goes to the lanes: byte 0 of an idle flit is 0xFF, the rest comes from the port's PRBS31 (R78), which runs
on by the bits each idle flit takes from it (log 154). -/
def Flit.send (reg : Nat) (f : Flit) : Nat × List Byte :=
  match f with
  | .idle => let r := prbs 120 reg; (r.1, 0xFF#8 :: beBytes 15 r.2)
  | .data bs => (reg, bs)
  | .own bs => (reg, bs)

/-- What the replay memory holds of a flit (R97). -/
def Flit.kept (f : Flit) : Flit :=
  match f with
  | .own _ => .idle
  | f => f

/-- The code a port's lanes run: the short code before TRAIN and in HELD, the agreed one in TRAIN, the long one where MEASURE is to decide
(R85, R87). -/
def Port.rxShort (q : Port) : Bool :=
  match q.state with
  | .up => q.short
  | .train | .measure => q.train.agreed.getD false
  | _ => true

/-- The mode a port's lanes run at. -/
def Port.rxMode (q : Port) : Mode :=
  match q.state with
  | .up => q.rate
  | .train | .measure => q.train.target
  | _ => 4

/-- The transmitter of a port is on (R85, R86, R495): off when DISABLED or QUIET, in silent DETECT and in the 100 ms wait with no mode
left. -/
def Port.sends (q : Port) : Bool :=
  match q.state with
  | .disabled | .quiet => false
  | .detect => !q.train.silent
  | .train => !q.train.failWait
  | _ => true

/-- A block joins the codeword pair being filled; a full pair leaves with its bits of the side frame (R76, R77, R81).  With no side frame
waiting an IDLE frame is sent. -/
def PortTx.block (t : PortTx) (pam short : Bool) (fs : List Flit) : PortTx × Option (List Int × List Int) :=
  let r := fs.foldl (fun (s : Nat × List (List Byte)) f => ((f.send s.1).1, s.2 ++ [(f.send s.1).2])) (t.prbs, [])
  let bs := t.blocks ++ [r.2]
  if bs.length < wordBlocks short then ({ t with blocks := bs, prbs := r.1 }, none)
  else
    let frame := if t.pos = 0 then t.queue.headD 0 else t.frame
    let queue := if t.pos = 0 then t.queue.drop 1 else t.queue
    let word (lane : Nat) (reg : Nat) (take : List (List Byte) → List (List Byte)) : Nat × Nat :=
      scramble short (if t.pos = 0 then scrSeed lane else reg)
        (encodeWord short t.pos (sideBits short frame t.pos lane) (bs.flatMap take))
    let w0 := word 0 t.reg0 (·.take 4)
    let w1 := word 1 t.reg1 (·.drop 4)
    (⟨[], (t.pos + 1) % sideWords short, w0.1, w1.1, frame, queue, r.1⟩,
      some (levelsOf pam (wordBits short) w0.2, levelsOf pam (wordBits short) w1.2))

/-- A block of eight flits leaves port p. -/
def Hub.sendBlock (h : Hub) (p : Nat) (fs : List Flit) : Hub :=
  let q := h.port p
  let r := q.tx.block (isPam4 q.rxMode) q.rxShort fs
  let h := h.modPort p (fun q => { q with tx := r.1 })
  match r.2 with
  | none => h
  | some l => h.out (.lanes p l.1 l.2)

/-- The replay memory of port p is full: only stall blocks leave (R99 rule 4). -/
def Hub.darnFull (h : Hub) (p : Nat) : Bool := h.darnOn p && 8192 ≤ (h.port p).darn.stored.length

/-- Whole blocks leave port p: each takes the next BLOCK_SEQ and, with Darn on, a place in the replay memory (R95), while one is free
(R99 rule 4); `fuel` bounds their number. -/
def Hub.cutBlocks : Nat → Nat → Hub → Hub
  | 0, _, h => h
  | fuel + 1, p, h =>
    let d := (h.port p).darn
    if d.fill.length < 8 || h.darnFull p then h
    else
      let b := d.fill.take 8
      let h := h.modPort p (fun q => { q with darn :=
        { d with fill := d.fill.drop 8, next := d.next + 1,
                 stored := if h.darnOn p then d.stored ++ [(d.next, b.map Flit.kept)] else d.stored,
                 oldAt := if d.stored.isEmpty then h.clk.up else d.oldAt } })
      Hub.cutBlocks fuel p (h.sendBlock p b)

/-- Flits leave port p, or wait while the replay memory is full. -/
def Hub.putFlits (h : Hub) (p : Nat) (fs : List Flit) : Hub :=
  let h := h.modPort p (fun q => { q with darn := { q.darn with fill := q.darn.fill ++ fs } })
  Hub.cutBlocks ((h.port p).darn.fill.length / 8) p h

/-- An unnumbered block leaves port p: it takes no BLOCK_SEQ and no place in the replay memory (R95). -/
def Hub.unnumbered (h : Hub) (p : Nat) (fs : List Flit) : Hub :=
  (h.out (.block p none)).sendBlock p (fs ++ List.replicate (8 - fs.length) .idle)

/-- A block of idle flits leaves port p behind the cells begun: numbered in UP, a stall block while the replay memory is full (R95, R99). -/
def Hub.idleBlock (h : Hub) (p : Nat) : Hub :=
  if !h.portUp p then h.sendBlock p (List.replicate 8 .idle)
  else if h.darnFull p then h.unnumbered p []
  else h.putFlits p (List.replicate (8 - (h.port p).darn.fill.length % 8) .idle)

/-- Idle blocks leave port p until every side frame that waits there has left whole (R81); `fuel` bounds their number. -/
def Hub.flushSide : Nat → Nat → Hub → Hub
  | 0, _, h => h
  | fuel + 1, p, h =>
    let t := (h.port p).tx
    if t.queue.isEmpty && t.pos = 0 && t.blocks.isEmpty then h else Hub.flushSide fuel p (h.idleBlock p)

/-- The side frames that wait at port p leave now, with idle blocks. -/
def Hub.flushSides (h : Hub) (p : Nat) : Hub :=
  let q := h.port p
  Hub.flushSide ((q.tx.queue.length + 1) * sideWords q.rxShort * wordBlocks q.rxShort) p h

/-- A side frame leaves port p where its transmitter is on: in UP with the blocks that follow, else at once with idle blocks (R81, R82,
log 160). -/
def Hub.sendSide (h : Hub) (p type : Nat) (payload : List Byte) : Hub :=
  if !(h.port p).sends then h
  else
    let h := (h.out (.side p type payload)).modPort p (fun q => { q with tx := { q.tx with queue := q.tx.queue ++ [sideFrame type payload] } })
    if h.portUp p then h else h.flushSides p

/-- A link-local message of this hub (R96), with its rail (R17). -/
def Hub.localCell (h : Hub) (payload : List Byte) : Cell := { linkLocal h.ownId payload with rail := h.rail }

/-- A link-local message leaves port p (R96, R155): in a stall block while the replay memory is full (R99 rule 4). -/
def Hub.sendLinkLocal (h : Hub) (p : Nat) (payload : List Byte) : Hub :=
  let c := h.localCell payload
  let fs := (flitsOf c).map Flit.own
  let h := h.out (.cell p c)
  let h := if h.darnFull p then (h.bump P.LN_DARN_STALL p).unnumbered p fs else h.putFlits p fs
  h.portEv p 18 1

/-- A cell leaves line or twin port p. -/
def Hub.lineOut (h : Hub) (p : Nat) (c : Cell) : Hub :=
  let n := cellFlits c
  let h := (h.out (.cell p c)).putFlits p ((flitsOf c).map Flit.data)
  let h := if 2 ≤ c.cls then h.modPort p (fun q => q.modCredit c.cls (fun k => { k with sent := (k.sent + n) % 2 ^ 32 })) else h
  let h := if c.detour then h.portEv p 21 1 else h
  (((h.portEv p 1 1).portEv p 3 n).portEv p (4 + c.cls) 1).bwAdd p true (16 * n)

/-! ## An output's cell boundary -/

/-- CREDIT_LIMIT of a class: G_c + F_c (R156). -/
def Credit.newLimit (c : Credit) : Nat := (c.grant + c.freed) % 2 ^ 32

/-- A credit message for class k leaves port p (R155, R156). -/
def Hub.creditSend (h : Hub) (p k : Nat) : Hub :=
  let h := (h.sendLinkLocal p ([byte (0x10 + k), 0#8, 0#8, 0#8] ++ beBytes 4 (((h.port p).credit k).newLimit))).portEv p 15 1
  h.modPort p (fun q => q.modCredit k (fun c => { c with shown := c.freed }))

/-- The port's island, while it runs, adds the differences of a pool's two Count Seams to F_c (R366, R369). -/
def Hub.takeFreed (h : Hub) (p k : Nat) : Hub :=
  if h.running p then
    let i := 2 * (k - 2)
    let n := (((h.seam p).counts.drop i).take 2).map CountSeam.due
    (h.modSeam p (fun c => { c with counts := modAt (modAt c.counts i CountSeam.take) (i + 1) CountSeam.take })).modPort p
      (fun q => q.modCredit k (fun c => { c with freed := (c.freed + n.sum) % 2 ^ 32 }))
  else h

/-- n flits of a pool come free at line input p, counted across its crossing (R369): after SW_CREDIT_INTERVAL of them a credit message goes out
(R156). -/
def Hub.creditFree (h : Hub) (p k n : Nat) : Hub :=
  let h := (h.countFreed p k n (Config.seamSplit ((h.port p).credit k).freed n % (n + 1))).takeFreed p k
  let c := (h.port p).credit k
  if h.portUp p && h.pget P.SW_CREDIT_INTERVAL 0 ≤ (c.freed + 2 ^ 32 - c.shown) % 2 ^ 32 then h.creditSend p k else h

/-- Some VOQ of an input holds a copy of an arrival. -/
def Hub.holdsRef (h : Hub) (inp ref : Nat) : Bool := h.sw.voq.any (fun e => e.1 / 40 == inp && e.2.any (fun c => c.ref == ref))

/-- A copy has left the VOQs of an input: its space comes free with the last copy, and while the cell is being routed not at all. -/
def Hub.freed (h : Hub) (inp : Nat) (c : QCell) : Hub :=
  if inp < 3 && 2 ≤ c.cell.cls && (h.sw.arrival.map (·.ref)) != some c.ref && !h.holdsRef inp c.ref then
    h.creditFree inp c.cell.cls (cellFlits c.cell)
  else h

/-- A cell that arrived on input inp, or was built behind it, is routed by f; of a pool cell that no VOQ holds afterwards the space is free
at once (R156). -/
def Hub.arriving (h : Hub) (inp : Nat) (c : Cell) (f : Hub → Hub) : Hub :=
  if (h.island 3).inReset then h else
  let ref := h.sw.nextRef
  let h := f { h with sw := { h.sw with nextRef := ref + 1, arrival := some ⟨ref, none⟩ } }
  let ok := match h.sw.arrival with | some a => a.ok != some false | none => true
  let h := { h with sw := { h.sw with arrival := none } }
  if ok then h.freed inp ⟨c, inp, 0, ref, none⟩ else h

/-- A cell is dropped for want of a route (R140, R202): counted at its arrival port, and if this hub built it in its entry's Drops (R127). -/
def Hub.noRoute (h : Hub) (inp : Nat) (c : Cell) : Hub :=
  let h := (h.bump P.SW_NOROUTE_DROP inp).portEv inp 13 1
  if 3 ≤ inp && c.kind ≠ 2 && c.kind ≠ 5 then h.countTidDrops c.tid 1 else h

/-- A cell for a local output whose island is powered down is dropped (R192, R378). -/
def Hub.gatedDrop (h : Hub) (o : Nat) : Hub :=
  if h.al.gov.level = 3 then (h.bump P.AL_GOV_DROP o).portEv o 22 1 else h.bump P.PW_GATED_DROP o

/-- A cell crosses to local output o: into its delivery queue, or dropped where the output's island is gated (R378, R192) or the shared
buffer has no room (R154, R161). -/
def Hub.toLocal (h : Hub) (o inp ref : Nat) (c : Cell) : Hub :=
  if h.outGated o then (h.gatedDrop o).countTidDrops c.tid 1
  else
    let r := h.discardCheck 3 c
    if !r.2 then r.1
    else
      let m := r.1.makeRoom 3 c.cls (cellFlits c)
      let h := m.1
      if m.2 then
        let h := h.setDlv o c.cls (h.dlv o c.cls ++ [⟨c, inp, h.clk.up, ref, none⟩])
        (((h.portEv o 1 1).portEv o 3 (cellFlits c)).portEv o (4 + c.cls) 1).bwAdd o true (lineBytes c)
      else (((h.bump P.SW_OVERFLOW_DROP (12 + c.cls)).portEv inp 11 1).countTidDrops c.tid 1)

/-- NO_DETOUR of the detour table (R206): of the valid entries of port p whose range holds dest, the first decides. -/
def Hub.noDetour (h : Hub) (p dest : Nat) : Bool :=
  match (h.tableRows 0x50).find? (fun e => bit e.2 7 && b2n (bit e.2 6) == p && bits e.2 16 12 ≤ dest && dest ≤ bits e.2 32 12) with
  | some e => bit e.2 5
  | none => false

/-- A cell may take the detour of port p (R201). -/
def Hub.detourable (h : Hub) (p inp : Nat) (c : Cell) : Bool := !c.dup && c.kind != 5 && inp != 2 && !h.noDetour p c.dest

/-- Cells at the heads of the VOQs of output q that no rule lets leave: dropped with a count each. -/
def Hub.dropHeads (h : Hub) (q cls : Nat) (bad : Nat → Cell → Bool) (note : Nat → Cell → Hub → Hub) : Hub :=
  (List.range 10).foldl (fun h i =>
    let l := h.voq i q cls
    let gone := l.takeWhile (fun c => bad i c.cell)
    if gone.isEmpty then h
    else gone.foldl (fun h c => note i c.cell (h.freed i c)) (h.setVoq i q cls (l.drop gone.length))) h

/-- Heads that may not be sent leave the VOQs an output serves: excluded cells of a detoured port (R202), C1 cells with DUP clear at
SURVIVE (R192). -/
def Hub.cleanHeads (h : Hub) (out : Nat) : Hub :=
  let h := (h.served out).foldl (fun h q =>
    if q = out then h
    else [0, 1, 2, 3].foldl (fun h k => h.dropHeads q k (fun i c => !h.detourable q i c) (fun i c h => h.noRoute i c)) h) h
  if h.al.gov.sched = 3 then
    (h.served out).foldl (fun h q => h.dropHeads q 1 (fun _ c => !c.dup)
      (fun _ c h => ((h.bump P.AL_GOV_DROP out).portEv out 22 1).countTidDrops c.tid 1)) h
  else h

/-- A cell chosen from the VOQ of output q leaves on output out (q is out, or a detoured port served by TW). -/
def Hub.emit (h : Hub) (out q inp : Nat) (qc : QCell) : Hub :=
  let c := qc.cell
  if out < 3 then
    if q = out then h.lineOut out c
    else
      let h := (h.bump P.RL_DETOUR_CELLS q).modDetour q (fun d => { d with cells := d.cells + 1, lastAt := h.clk.up })
      h.lineOut 2 { c with detour := true }
  else h.toLocal out inp qc.ref c

/-- What a choice charges (R173, R174, R191). -/
def Hub.charge (h : Hub) (out step : Nat) (c : Cell) : Hub :=
  let n := lineBytes c
  let h :=
    if step = 2 || step = 3 then
      match h.entryOf out c with
      | some e => h.setRemaining out e.1 (h.remaining out e.1 - n)
      | none => h
    else h
  let h := if step = 4 then h.portEv out 23 1 else h.modOut out (fun o => { o with prioSent := o.prioSent + n })
  let h := if step = 4 && c.cls = 3 then h.modOut out (fun o => { o with c3Sent := o.c3Sent + n }) else h
  if step = 4 && c.cls = 1 then h.bump P.AL_UNALLOTTED out else h

/-- The alternation of R202 moves on for one input of an output. -/
def bumpTurn (l : List Nat) (inp : Nat) : List Nat :=
  modAt (l ++ List.replicate (10 - l.length) 0) inp (· + 1)

/-- Output out can send now: a line or twin port must be UP. -/
def Hub.outOpen (h : Hub) (out : Nat) : Bool := !(h.island 3).inReset && (3 ≤ out || h.portUp out)

/-- One cell boundary of an output: the scheduler's choice leaves, or idle flits do (R172). The Bool says whether a cell left. -/
def Hub.sendOne (h : Hub) (out : Nat) : Hub × Bool :=
  if !h.outOpen out then (h, false)
  else if out < 3 && h.darnFull out then ((h.bump P.LN_DARN_STALL out).unnumbered out [], false)
  else
    let h := h.cleanHeads out
    let lacks := out < 3 && [2, 3].any (fun k => (h.served out).any (fun q => (List.range 10).any (fun i =>
      match h.voq i q k with
      | c :: _ => !h.eligible out c.cell
      | [] => false)))
    let h := if lacks then h.portEv out 14 1 else h
    match h.choose out with
    | none =>
      let n := if out < 3 then 8 - (h.port out).darn.fill.length % 8 else 0
      let h := h.modOut out (fun o => { o with busy := false, drr := ⟨[], false⟩ })
      (if out < 3 then (h.putFlits out (List.replicate n .idle)).portEv out 17 n else h, false)
    | some ch =>
      let (q, inp, qc) := ch.cand
      let c := qc.cell
      let h := h.setVoq inp q c.cls ((h.voq inp q c.cls).drop 1)
      let h := h.charge out ch.step c
      let h := (h.modOut out (fun o =>
        { o with busy := true, lastInp := inp, drr := ch.drr, turn := if ch.alt then bumpTurn o.turn inp else o.turn })).refreshOut out
      ((h.freed inp qc).emit out q inp qc, true)

/-- The output that serves the VOQs of output o now. -/
def Hub.server (h : Hub) (o : Nat) : Nat := if o < 2 && (h.detour o).active then 2 else o

/-- Output o is idle and every VOQ it serves is empty (R144). -/
def Hub.idleOut (h : Hub) (o : Nat) : Bool :=
  !(h.outp o).busy && (h.served o).all (fun q => [0, 1, 2, 3].all (fun k => (List.range 10).all (fun i => (h.voq i q k).isEmpty)))

/-! ## Entering a queue -/

/-- A cell is appended to the VOQ of its input, output and class; with the output idle and its VOQs empty it takes the bypass (R144,
R146). -/
def Hub.append (h : Hub) (inp out : Nat) (c : Cell) : Hub :=
  let s := h.server out
  let idle := h.idleOut s
  let q := h.voq inp out c.cls ++ [⟨c, inp, h.clk.up, ((h.sw.arrival.map (·.ref)).getD 0), none⟩]
  let h := (h.setVoq inp out c.cls q).refreshOut s
  if idle then
    let r := h.sendOne s
    if r.2 then (r.1.bump P.SW_BYPASS inp).portEv inp 8 1
    else (r.1.portEv inp 9 1).mark inp out c.cls (qFlits q)
  else (h.portEv inp 9 1).mark inp out c.cls (qFlits q)

/-- Whether a cell from a line or twin input gets a place in its buffer: pools for C2 and C3 (R159), admission and push-out for C0 and C1
(R154, R161, R162). -/
def Hub.admitLine (h : Hub) (inp : Nat) (c : Cell) : Hub × Bool :=
  let n := cellFlits c
  if 2 ≤ c.cls then
    if h.pool inp c.cls < h.occ inp c.cls + n then ((h.bump P.SW_CREDIT_VIOL inp).countTidDrops c.tid 1, false) else (h, true)
  else
    let r := h.discardCheck inp c
    if !r.2 then r
    else
      let m := r.1.makeRoom inp c.cls n
      if m.2 then m
      else (((m.1.bump P.SW_OVERFLOW_DROP (inp * 4 + c.cls)).portEv inp 11 1).countTidDrops c.tid 1, false)

/-- Whether a cell enters the buffer of its input: a local input's is admitted with its whole frame (R153). -/
def Hub.takeIn (h : Hub) (inp : Nat) (c : Cell) : Hub × Bool := if inp < 3 then h.admitLine inp c else h.discardCheck 3 c

/-- A copy of the cell that is being routed enters the queue of its input for an output, if the buffer takes the cell: that is decided at its
first copy. -/
def Hub.enqueue (h : Hub) (inp out : Nat) (c : Cell) : Hub :=
  match h.sw.arrival.bind (·.ok) with
  | some ok => if ok then h.append inp out c else h
  | none =>
    let r := h.takeIn inp c
    let h := { r.1 with sw := { r.1.sw with arrival := r.1.sw.arrival.map (fun a => { a with ok := some r.2 }) } }
    if r.2 then h.append inp out c else h

/-- A cell routed to line port p (R140): out of p, into its detour, or dropped. -/
def Hub.routeTo (h : Hub) (inp p : Nat) (c : Cell) : Hub :=
  if h.portUp p then h.enqueue inp p c
  else if (h.detour p).active && h.detourable p inp c then h.enqueue inp p c
  else h.noRoute inp c

/-- The line port towards a node (R140). -/
def Hub.towards (h : Hub) (dest : Nat) : Nat := if h.ownId < dest then 1 else 0

/-! ## Cells of the hub's own tunnels (R117, R119, R141) -/

/-- The outputs of a cell this hub builds: by node, or for 0xFFF every line port that is UP. -/
def Hub.ownOutputs (h : Hub) (dest : Nat) : List Nat :=
  if dest = 0xFFF then [0, 1].filter h.portUp else [h.towards dest]

/-- A cell this hub builds is routed as if it had arrived on local port inp (R141). -/
def Hub.routeOwn (h : Hub) (inp : Nat) (c : Cell) : Hub :=
  h.arriving inp c (fun h =>
    if c.dest = 0xFFF then
      (if (h.ownOutputs c.dest).isEmpty then h.noRoute inp c else (h.ownOutputs c.dest).foldl (fun h p => h.enqueue inp p c) h)
    else h.routeTo inp (h.towards c.dest) c)

/-- The copy of a protected cell for the twin's rail crosses TW (R117); with TW down it has no usable output (R24, log 16). -/
def Hub.routeCopy (h : Hub) (inp : Nat) (c : Cell) : Hub :=
  let c := { c with rail := 1 - c.rail }
  if h.portUp 2 then h.arriving inp c (fun h => h.enqueue inp 2 c) else h.noRoute inp c

end Sys2Proof.Machine
end

