-- ==== Sys2Proof/Machine/Tunnel.lean ====
section
/-!
DEFINITION. The tunnel layer: policing and shaping (R176 to R180), sending with RESYNC (R117, R118, R129, R141, R153), encryption
(R131 to R134, R412), receive contexts, frame assembly and delivery (R120 to R128, R130).
-/
namespace Sys2Proof.Machine

/-! ## Secure NV rows and session keys -/

/-- NV row r. -/
def Hub.nvAt (h : Hub) (r : Nat) : NvRow := mget NvRow.blank h.ky.rows r

/-- One write of NV row r, and KY_NV_WRITES as the highest count (R413). -/
def Hub.nvPut (h : Hub) (r : Nat) (data : List Byte) (seq : Nat) (tag : List Byte) : Hub :=
  let n := (h.nvAt r).writes + 1
  let h := { h with ky := { h.ky with rows := mset NvRow.blank h.ky.rows r ⟨data, seq, tag, n⟩ } }
  h.pset P.KY_NV_WRITES 0 (max n (h.pget P.KY_NV_WRITES 0))

/-- A row without sequence number and tag is written. -/
def Hub.nvRow (h : Hub) (r : Nat) (data : List Byte) : Hub := h.nvPut r data 0 []

/-- The 12-byte tag of a row: HMAC-SHA-384 under the NV MAC key over contents and sequence number, truncated (R413, log 141). -/
def nvTag (data : List Byte) (seq : Nat) : List Byte := (beBytes 48 (Config.hmac384 nvMacKey (data ++ leBytes 4 seq)).toNat).take 12

/-- A row counts as written: its tag holds (R413). -/
def NvRow.good (r : NvRow) : Bool := r.seq != 0 && r.tag == nvTag r.data r.seq

/-- Of the alternating rows r and r + 1, the one that governs: the valid one with the higher sequence number (R413). -/
def Hub.nvGoverns (h : Hub) (r : Nat) : Option Nat :=
  let a := h.nvAt r
  let b := h.nvAt (r + 1)
  if a.good && !(b.good && a.seq < b.seq) then some r else if b.good then some (r + 1) else none

/-- What a pair of alternating rows holds. -/
def Hub.nvBody (h : Hub) (r : Nat) : Option (List Byte) := (h.nvGoverns r).map (fun g => (h.nvAt g).data)

/-- A write to a pair of alternating rows goes to the one that does not govern, with the next sequence number (R413). -/
def Hub.nvPair (h : Hub) (r : Nat) (data : List Byte) : Hub :=
  let g := h.nvGoverns r
  let seq := (g.map (fun g => (h.nvAt g).seq)).getD 0 + 1
  h.nvPut (if g = some r then r + 1 else r) data seq (nvTag data seq)

/-- FABRIC slot k. -/
def Hub.slot (h : Hub) (k : Nat) : KeySlot := nth h.ky.slots k KeySlot.reset

/-- The wrapped key in force of a slot. -/
def KeySlot.wrapped (s : KeySlot) : List Byte := if s.active = 0 then s.copyA else s.copyB

/-- The life-cycle state (R419). -/
def Hub.lc (h : Hub) : Nat := h.pget P.KY_LIFE_CYCLE 0

/-- The plain key of a valid slot (R413): none when the slot is not valid or the device secret is off. -/
def Hub.slotKey (h : Hub) (k : Nat) : Option (BitVec 256) :=
  if (h.slot k).state = 1 && !h.ky.secretOff then Config.unwrap storageKey (h.slot k).wrapped else none

/-- The SESSION key of a tunnel (R410, R412): none without a valid slot, or after a volatile zeroisation (R425). -/
def Hub.sessionKey (h : Hub) (slot tid : Nat) : Option (BitVec 256) :=
  if h.ky.noSession then none
  else (h.slotKey slot).map (fun k => Machine.sessionKey k tid)

/-- A reset, or a frame count that has reached 2⁴⁸: the crypto epoch advances and the count starts at 0, or no further encrypted frame is sent
(R133). -/
def Hub.nextEpoch (h : Hub) : Hub :=
  let epoch := h.pget P.KY_CRYPTO_EPOCH 0
  if h.ky.secretOff then h
  else if epoch = 0xFFFF then { h with tn := { h.tn with exhausted := true } }
  else
    let h := (h.pset P.KY_CRYPTO_EPOCH 0 (epoch + 1)).nvPair 192 (leBytes 2 (epoch + 1))
    { h with tn := { h.tn with frameCtr := 0 } }

/-- The next FRAME_CTR (R133): none once the crypto epochs are used up. -/
def Hub.nextCtr (h : Hub) : Option Nat × Hub :=
  let n := h.tn.frameCtr
  if h.tn.exhausted then (none, h)
  else
    let ctr := h.pget P.KY_CRYPTO_EPOCH 0 * 2 ^ 48 + n
    (some ctr, if n + 1 < 2 ^ 48 then { h with tn := { h.tn with frameCtr := n + 1 } } else h.nextEpoch)

/-! ## Buckets -/

/-- What a bucket lacks now: it gains RATE × ns (R178). -/
def Bucket.lackNow (b : Bucket) (rate now : Nat) : Nat := b.lack - rate * (now - b.at_)

/-- A bucket that lacks n now. -/
def Bucket.of (n now : Nat) : Bucket := if n = 0 then ⟨0, 0⟩ else ⟨n, now⟩

/-- Units of a byte. -/
def bucketUnit : Nat := 8000000

/-- RATE_CTRL and BURST of an entry of table 0x21 or 0x22 (R177): ENABLE, RATE, BURST. -/
def rateOf (v : Nat) : Bool × Nat × Nat := (bit v 31, bits v 0 28, bits v 32 24)

/-- The policer of a frame of counted length n on entry i (R176 to R179): whether it passes. -/
def Hub.police (h : Hub) (i : Nat) (e : TEntry) (n : Nat) : Hub × Bool :=
  let (en, r, b) := rateOf (h.tget 0x21 i)
  let cr := h.pget P.AL_CLASS_RATE e.cls
  let (rate, burst, key) := if en then (r, b, i) else (cr, h.pget P.AL_CLASS_BURST e.cls, 1024 + i)
  if n = 0 || (!en && cr = 0) then (h, true)
  else
    let lack := (mget ⟨0, 0⟩ h.tn.police key).lackNow rate h.clk.up
    let need := n * bucketUnit
    let ok := lack + need ≤ burst * bucketUnit
    let lack := if ok then lack + need else lack
    ({ h with tn := { h.tn with police := mset ⟨0, 0⟩ h.tn.police key (Bucket.of lack h.clk.up) } }, ok)

/-- Entry i has a shaper in effect (R180). -/
def Hub.shaped (h : Hub) (i : Nat) (e : TEntry) : Bool := 2 ≤ e.cls && (rateOf (h.tget 0x22 i)).1

/-- The shaper of entry i holds more than 0 tokens. -/
def Hub.shaperOpen (h : Hub) (i : Nat) (e : TEntry) : Bool :=
  !h.shaped i e ||
    let (_, r, b) := rateOf (h.tget 0x22 i)
    (mget ⟨0, 0⟩ h.tn.shape i).lackNow r h.clk.up < b * bucketUnit

/-- The shaper pays for a frame of counted length n (R180); it may fall below 0. -/
def Hub.shaperPay (h : Hub) (i : Nat) (e : TEntry) (n : Nat) : Hub :=
  if h.shaped i e then
    let r := (rateOf (h.tget 0x22 i)).2.1
    let lack := (mget ⟨0, 0⟩ h.tn.shape i).lackNow r h.clk.up + n * bucketUnit
    { h with tn := { h.tn with shape := mset ⟨0, 0⟩ h.tn.shape i (Bucket.of lack h.clk.up) } }
  else h

/-! ## Cutting and sending -/

/-- A string cut into pieces of 256 bytes (R118); `fuel` bounds their number. -/
def cutFrame : Nat → List Byte → List (List Byte)
  | 0, _ => []
  | fuel + 1, bs => if bs.length ≤ 256 then [bs] else bs.take 256 :: cutFrame fuel (bs.drop 256)

/-- The pieces of a frame: for an ENCRYPT tunnel the 16-byte tag rides in the last cell when that carries 240 bytes or fewer, else
in a cell of its own (R131). -/
def pieces (enc : Bool) (body tag : List Byte) : List (List Byte) :=
  let ps := cutFrame 70 body
  if !enc then ps
  else if (ps.getLastD []).length ≤ 240 then ps.dropLast ++ [ps.getLastD [] ++ tag] else ps ++ [tag]

/-- The lengths of the pieces of a frame of n bytes. -/
def pieceSizes (enc : Bool) (n : Nat) : List Nat :=
  let body := if enc then n + 8 else n
  let full := (body - 1) / 256
  let r := body - 256 * full
  List.replicate full 256 ++ (if !enc then [r] else if r ≤ 240 then [r + 16] else [r, 16])

/-- Cells a frame of n bytes is cut into. -/
def cellsOf (e : TEntry) (control : Bool) (n : Nat) : Nat := (pieceSizes (e.enc && !control) n).length

/-- The sending state of entry i; an entry that has sent nothing since reset owes a RESYNC (R129). -/
def Hub.txState (h : Hub) (i : Nat) : TxState := mget ⟨0, 0, true⟩ h.tn.tx i

/-- The sending state set. -/
def Hub.setTx (h : Hub) (i : Nat) (t : TxState) : Hub := { h with tn := { h.tn with tx := mset ⟨0, 0, true⟩ h.tn.tx i t } }

/-- DEST_NODE of an entry's cells (R117). -/
def TEntry.dest (e : TEntry) : Nat := if e.mcast then 0xFFF else e.peer

/-- One cell of entry i is built and routed, with its protected copy (R117); the sequence number moves on. -/
def Hub.emitCell (h : Hub) (o i : Nat) (e : TEntry) (kind : Nat) (first last : Bool) (bs : List Byte) : Hub :=
  let t := h.txState i
  let hops := if e.hopsInit = 0 then h.pget P.TN_HOPS_DEFAULT 0 else e.hopsInit
  let c : Cell := ⟨e.cls, first, last, kind, e.dest, h.ownId, e.tid, t.seq, e.prot, h.rail, false, hops, bs⟩
  let h := h.setTx i { t with seq := (t.seq + 1) % 65536 }
  let h := h.count i (fun k => { k with cellsOut := satAdd 48 k.cellsOut 1 })
  let h := ((h.portEv o 0 1).portEv o 2 (cellFlits c)).bwAdd o false (lineBytes c)
  let h := h.routeOwn o c
  if e.prot then h.routeCopy o c else h

/-- The pieces of one frame are sent. -/
def Hub.emitPieces (h : Hub) (o i : Nat) (e : TEntry) (kind : Nat) (ps : List (List Byte)) : Hub :=
  (List.range ps.length).foldl (fun h k => h.emitCell o i e kind (k = 0) (k + 1 = ps.length) (nth ps k [])) h

/-- The RESYNC sequence of entry i (R129): one tag, TN_RESYNC_COPIES cells. -/
def Hub.sendResync (h : Hub) (o i : Nat) (e : TEntry) : Hub :=
  let n := h.tn.resyncs + 1
  let tag := h.pget P.KY_CRYPTO_EPOCH 0 * 65536 + n % 65536
  let h := { h with tn := { h.tn with resyncs := n } }
  let h := h.setTx i ⟨(h.txState i).seq, tag, false⟩
  let body := [0#8, 1#8, 0#8, 0#8] ++ beBytes 4 tag
  (List.range (h.pget P.TN_RESYNC_COPIES 0)).foldl (fun h _ => h.emitCell o i e 1 true true body) h

/-- Flits of a cell with n payload bytes. -/
def flitsFor (n : Nat) : Nat := 1 + ceilDiv (n + 4) 16

/-- How many places each of an entry's cells takes in the shared buffer: one, shared by the copies for both line ports, and one for the copy
that crosses TW. -/
def Hub.copies (h : Hub) (e : TEntry) : Nat := 1 + b2n (e.prot && h.portUp 2)

/-- Flits a frame needs in the shared buffer, with the RESYNC sequence it owes (R153). -/
def Hub.needFlits (h : Hub) (i : Nat) (e : TEntry) (control : Bool) (n : Nat) : Nat :=
  let own := ((pieceSizes (e.enc && !control) n).map flitsFor).sum
  let rs := if (h.txState i).resync then 2 * h.pget P.TN_RESYNC_COPIES 0 else 0
  (own + rs) * h.copies e

/-- How an attempt to send a frame ends. -/
inductive Sent where
  | sent | dropped | noRoom
deriving DecidableEq, Repr

/-- A policed frame is encrypted, cut and admitted whole, or not (R131, R133, R153, R425). -/
def Hub.trySend (h : Hub) (w : WaitFrame) (e : TEntry) : Hub × Sent :=
  let i := w.entry
  let enc := e.enc && !w.control
  let n := cellsOf e w.control w.bytes.length
  let m := h.makeRoom 3 e.cls (h.needFlits i e w.control w.bytes.length)
  if !m.2 then
    if e.cls < 2 then ((m.1.bump P.SW_INGRESS_DROP e.cls).countDrops i n, .dropped) else (m.1, .noRoom)
  else
    let h := m.1
    let kind := if w.control then 1 else dataKind e.type
    let done (h : Hub) (ps : List (List Byte)) : Hub × Sent :=
      let h := if (h.txState i).resync then h.sendResync w.out i e else h
      let h := h.emitPieces w.out i e kind ps
      ((h.count i (fun k => { k with bytes := satAdd 48 k.bytes w.counted })).shaperPay i e w.counted, .sent)
    if !enc then done h (pieces false w.bytes [])
    else match h.sessionKey e.keySlot e.tid with
      | none => ((h.bump P.KY_NOKEY_DROP 0).countDrops i n, .dropped)
      | some key =>
        match h.nextCtr with
        | (none, h) => (((h.bump P.TN_CTR_EXHAUST 0).countDrops i n).event .tunnelCtrExhaust [(0, 2, i)], .dropped)
        | (some ctr, h) =>
          let iv := beBytes 2 h.ownId ++ beBytes 2 e.tid ++ beBytes 8 ctr
          let aad := beBytes 2 e.dest ++ beBytes 2 h.ownId ++ beBytes 2 e.tid ++ beBytes 8 ctr
          let sealed := Config.gcmSeal key iv aad w.bytes
          done h (pieces true (beBytes 8 ctr ++ sealed.take w.bytes.length) (slice sealed w.bytes.length 16))

/-- Frames that wait in their blocks are sent in order while their shapers and the buffer let them; later frames of an entry stay
behind an earlier one (R153, R180).  A frame whose destination has meanwhile become this hub is dropped whole (R141). -/
def Hub.releaseAux : List WaitFrame → List Nat → Hub → Hub
  | [], _, h => h
  | w :: ws, blocked, h =>
    let e := h.tun w.entry
    let stay (h : Hub) : Hub := { h with tn := { h.tn with waiting := h.tn.waiting ++ [w] } }
    let n := cellsOf e w.control w.bytes.length
    if blocked.contains w.entry then Hub.releaseAux ws blocked (stay h)
    else if !(e.valid && e.dir.sends && h.tunnels) then
      Hub.releaseAux ws blocked (h.countDrops w.entry n)
    else if !e.mcast && e.peer = h.ownId then
      Hub.releaseAux ws blocked ((h.countDrops w.entry n).bumpBy P.SW_NOROUTE_DROP w.out n)
    else if !h.shaperOpen w.entry e then Hub.releaseAux ws (w.entry :: blocked) (stay h)
    else match h.trySend w e with
      | (h, .noRoom) => Hub.releaseAux ws (w.entry :: blocked) (stay h)
      | (h, _) => Hub.releaseAux ws blocked h

/-- The waiting frames tried again. -/
def Hub.releaseWaiting (h : Hub) : Hub := Hub.releaseAux h.tn.waiting [] { h with tn := { h.tn with waiting := [] } }

/-- A block at local switch port o offers a frame, or a tunnel control cell, to tunnel entry i (R141, R176, R180, R153). The frame must
be one the entry can send: valid, DIR TX or BOTH, at least one byte, at most MAX_FRAME. -/
def Hub.frameSend (h : Hub) (o i : Nat) (control : Bool) (bytes : List Byte) (counted : Nat) : Hub :=
  let e := h.tun i
  let n := cellsOf e control bytes.length
  if !(e.valid && e.dir.sends && h.tunnels) || bytes.isEmpty || (!control && e.limit < bytes.length) then h
  else if !e.mcast && e.peer = h.ownId then (h.countDrops i n).bumpBy P.SW_NOROUTE_DROP o n
  else
    let p := h.police i e counted
    if !p.2 then (p.1.bump P.AL_POLICE_DROP 0).countDrops i n
    else
      let w : WaitFrame := ⟨o, i, control, bytes, counted, true⟩
      let h := p.1
      let behind := h.tn.waiting.any (fun x => x.entry == i)
      let hold : Hub := { h with tn := { h.tn with waiting := h.tn.waiting ++ [w] } }
      if behind || !h.shaperOpen i e then hold
      else match h.trySend w e with
        | (h, .noRoom) => { h with tn := { h.tn with waiting := h.tn.waiting ++ [w] } }
        | (h, _) => h

/-- RESYNC of an entry that became valid or changed, sent at once when the hub can send (R113, R129). -/
def Hub.resyncNow (h : Hub) (i : Nat) : Hub :=
  let e := h.tun i
  let h := h.setTx i ⟨0, (h.txState i).tag, true⟩
  if !(e.valid && e.dir.sends && h.tunnels) || (!e.mcast && e.peer = h.ownId) then h
  else
    let m := h.makeRoom 3 e.cls (2 * h.pget P.TN_RESYNC_COPIES 0 * h.copies e)
    if m.2 then m.1.sendResync (typeOutput e.type) i e else m.1

/-! ## Receive contexts -/

/-- A new context, unbased (R122). -/
def Ctx.new (entry src : Nat) (pool : Bool) (now : Nat) : Ctx := ⟨entry, src, pool, false, 0, 0, 0#1024, [], [], none, false, 0, 0, 0, 0, now⟩

/-- The context of a source at an entry. -/
def Hub.ctx (h : Hub) (i src : Nat) : Option Ctx := h.tn.ctxs.find? (fun x => x.entry == i && x.src == src)

/-- A context stored: replaced, or added. -/
def Hub.putCtx (h : Hub) (x : Ctx) : Hub :=
  let same := fun (y : Ctx) => y.entry == x.entry && y.src == x.src
  { h with tn := { h.tn with ctxs := if h.tn.ctxs.any same then h.tn.ctxs.map (fun y => if same y then x else y)
                                     else h.tn.ctxs ++ [x] } }

/-- The pool context idle longest (R121). -/
def Hub.idlest (h : Hub) : Option Ctx :=
  (h.tn.ctxs.filter (·.pool)).foldl (fun b x => match b with
    | none => some x
    | some y => if x.lastUse < y.lastUse then some x else some y) none

/-- Cells a context holds, its open frame's included. -/
def Ctx.cells (x : Ctx) : Nat := x.held.length + (match x.frame with | some f => f.cells | none => 0)

/-- The context for a cell of entry i (R121): dedicated, or from the pool of 256.  One taken from another source keeps its RX_LAST_CTR
(R134: only R113 or a reset returns that to 0). -/
def Hub.takeCtx (h : Hub) (i src : Nat) (e : TEntry) : Hub × Option Ctx :=
  match h.ctx i src with
  | some x => (h, some x)
  | none =>
    if e.peer ≠ 0xFFF then (h, some (Ctx.new i src false h.clk.up))
    else if (h.tn.ctxs.filter (·.pool)).length < 256 then (h, some (Ctx.new i src true h.clk.up))
    else match h.idlest with
      | none => (h, none)
      | some x =>
        if x.lastUse + ms (h.pget P.TN_CTX_IDLE 0) ≤ h.clk.up then
          ({ h with tn := { h.tn with ctxs := h.tn.ctxs.filter (fun y => !(y.entry == x.entry && y.src == x.src)) } }.countDrops
            x.entry x.cells, some { Ctx.new i src true h.clk.up with lastCtr := x.lastCtr })
        else (h, none)

/-- The counted length of a delivered frame (R110, R259, R295, R330). -/
def countedOf (type : Nat) (bs : List Byte) : Nat :=
  if type = tDisplay then bs.length - 16
  else if type = tWindow then
    let op := byteAt bs 0
    if op = 1 || op = 2 || op = 4 then be bs 4 2 else 0
  else if type = tUsb then bs.length - 32 - (if byteAt bs 6 = 1 && (byteAt bs 0 = 1 || byteAt bs 0 = 2) then 2 * byteAt bs 20 else 0)
  else bs.length

/-- A frame reaches the block of its entry's type: MANAGEMENT frames the requests of MB0 (R30, R494), or while I-MGMT has no
clock its Data Seam (R370); while I-MGMT is away the Seam refuses them (R371); others reach the block's inbox. -/
def Hub.deliverFrame (h : Hub) (i : Nat) (e : TEntry) (src : Nat) (control : Bool) (bs : List Byte) : Hub :=
  let h := h.count i (fun k => { k with bytes := satAdd 48 k.bytes (if control then 0 else countedOf e.type bs) })
  if e.type = tManagement && !control then
    if bs.length < 16 then h.bump P.MG_MSG_SHORT 0
    else if !h.works 10 then h.countDrops i 1
    else if h.clockGated 10 then h.modSeam 9 (fun c => c.put (seamDepth 9) ⟨bs, i⟩)
    else h.modMb 0 (fun m => { m with waiting := m.waiting ++ [⟨bs, i⟩] })
  else { h with inbox := h.inbox ++ [(typeOutput e.type, ⟨i, src, control, bs⟩)] }

/-- A closed frame is checked and delivered (R125, R134). -/
def Hub.closeFrame (h : Hub) (x : Ctx) (e : TEntry) (f : OpenFrame) : Hub × Ctx :=
  let i := x.entry
  let bs := f.bytes
  if (if e.enc then e.limit + 24 else e.limit) < bs.length then ((h.bump P.TN_OVERSIZE 0).countDrops i f.cells, x)
  else if !e.enc then (h.deliverFrame i e x.src false bs, x)
  else
    let ctr := be bs 0 8
    match h.sessionKey e.keySlot e.tid with
    | none => ((h.bump P.KY_NOKEY_DROP 0).countDrops i f.cells, x)
    | some key =>
      if ctr ≤ x.lastCtr || bs.length < 24 then ((h.bump P.TN_CTR_REPLAY 0).countDrops i f.cells, x)
      else
        let iv := beBytes 2 x.src ++ beBytes 2 e.tid ++ beBytes 8 ctr
        let dest := if e.mcast then 0xFFF else h.ownId
        let aad := beBytes 2 dest ++ beBytes 2 x.src ++ beBytes 2 e.tid ++ beBytes 8 ctr
        match Config.gcmOpen key iv aad (bs.drop 8) with
        | some plain => (h.deliverFrame i e x.src false (fit (bs.length - 24) plain), { x with lastCtr := ctr })
        | none =>
          let h := (h.bump P.TN_AUTH_FAIL 0).countDrops i f.cells
          let last := mget 0 h.tn.authAt i
          if last = 0 || last - 1 + 1000000000 ≤ h.clk.up then
            ({ h with tn := { h.tn with authAt := mset 0 h.tn.authAt i (h.clk.up + 1) } }.event .tunnelAuthFail
              [(0, 2, i), (2, 2, x.src), (4, 8, ctr)], x)
          else (h, x)

/-- The open frame is discarded with one count (R124). -/
def Hub.dropFrame (h : Hub) (x : Ctx) (pid : Nat) : Hub × Ctx :=
  match x.frame with
  | none => (h, x)
  | some f => ((h.bump pid 0).countDrops x.entry f.cells, { x with frame := none })

/-- A tunnel control cell is well formed (R128); a RESYNC_TAG other than 0 without RESYNC counts as a nonzero reserved field (log 159). -/
def controlGood (c : Cell) : Bool :=
  let p := c.payload
  let sub := byteAt p 0
  let fl := byteAt p 1
  8 ≤ p.length && (sub = 0 || (0x10 ≤ sub && sub ≤ 0x7F)) && fl < 2 && be p 2 2 = 0 && (fl = 1 || be p 4 4 = 0)

/-- The cell is a RESYNC (R128, R129). -/
def isResync (c : Cell) : Bool := c.kind == 1 && c.first && c.last && controlGood c && byteAt c.payload 1 % 2 == 1

/-- The cell at the delivery point is taken (R124, R128); a RESYNC that meets the window has no effect beyond its SEQ (R130).
MAX_FRAME does not bound a control cell (log 158). -/
def Hub.atD (h : Hub) (x : Ctx) (e : TEntry) (at_ : Nat) (c : Cell) : Hub × Ctx :=
  let i := x.entry
  if isResync c then (h, x)
  else if c.kind = 1 then
    if !controlGood c then ((h.bump P.TN_KIND_ERR 0).countDrops i 1, x)
    else if !(c.first && c.last) then ((h.bump P.TN_FRAME_ERR 0).countDrops i 1, x)
    else
      let r := h.dropFrame x P.TN_FRAME_ERR
      let x := { r.2 with discard := false }
      if byteAt c.payload 0 = 0 then (r.1, x) else (r.1.deliverFrame i e x.src true c.payload, x)
  else if c.first then
    let r := h.dropFrame x P.TN_FRAME_ERR
    let x := { r.2 with discard := false }
    let f : OpenFrame := ⟨c.payload, 1, cellFlits c, at_⟩
    if c.last then r.1.closeFrame x e f else (r.1, { x with frame := some f })
  else match x.frame with
    | some f =>
      let f : OpenFrame := ⟨f.bytes ++ c.payload, f.cells + 1, f.flits + cellFlits c, f.since⟩
      if c.last then h.closeFrame { x with frame := none } e f else (h, { x with frame := some f })
    | none =>
      if x.discard then (h.countDrops i 1, x) else ((h.bump P.TN_FRAME_ERR 0).countDrops i 1, x)

/-- s − r modulo 65,536. -/
def seqDist (s r : Nat) : Nat := (s + 65536 - r % 65536) % 65536

/-- How far the delivery point may pass a missing value now (R123): to the first unresolved one. 0: it must wait. -/
def Hub.lostRun (h : Hub) (x : Ctx) (e : TEntry) : Nat :=
  let toEnd := seqDist (x.high + 1) x.next
  let toHeld := x.held.foldl (fun b c => min b (seqDist c.1 x.next)) toEnd
  let wait := us (h.pget P.TN_GAP_WAIT 0)
  let byTime :=
    if !e.prot then toEnd
    else match x.gaps.find? (fun g => seqDist x.next g.1 ≤ seqDist g.2.1 g.1) with
      | some g => if g.2.2 + wait ≤ h.clk.up then seqDist (g.2.1 + 1) x.next else 0
      | none => toEnd
  let back := seqDist x.high x.next
  let byWindow := if 1024 ≤ back then back - 1023 else 0
  min toHeld (max byTime byWindow)

/-- The delivery point set; gaps wholly behind it are forgotten. -/
def Ctx.moveD (x : Ctx) (d : Nat) : Ctx := { x with next := d, gaps := x.gaps.filter (fun g => seqDist g.2.1 d < 32768) }

/-- The delivery point advances past accepted and lost values (R124). -/
def Hub.advanceD : Nat → Ctx → TEntry → Hub → Hub × Ctx
  | 0, x, _, h => (h, x)
  | fuel + 1, x, e, h =>
    if x.next = (x.high + 1) % 65536 then (h, { x with gaps := [] })
    else match x.held.find? (fun c => c.1 == x.next) with
      | some (s, t, c) =>
        let x := { x with held := x.held.filter (fun c => c.1 != s) }.moveD ((s + 1) % 65536)
        let r := h.atD x e t c
        Hub.advanceD fuel r.2 e r.1
      | none =>
        let n := h.lostRun x e
        if n = 0 then (h, x)
        else
          let r := h.dropFrame x P.TN_GAP_DROP
          Hub.advanceD fuel ({ r.2 with discard := true }.moveD ((x.next + n) % 65536)) e r.1

/-- Acceptance of a cell by a context, and what it lets the delivery point do. -/
def Hub.accept (h : Hub) (x : Ctx) (e : TEntry) (c : Cell) : Hub :=
  let h := h.count x.entry (fun k => { k with cellsIn := satAdd 48 k.cellsIn 1 })
  let x := { x with held := x.held ++ [(c.seq, h.clk.up, c)], stale := 0 }
  let r := Hub.advanceD (2 * x.held.length + x.gaps.length + 4) x e h
  r.1.putCtx r.2

/-- A RESYNC with a new tag (R130). -/
def Hub.takeResync (h : Hub) (x : Ctx) (tag : Nat) (c : Cell) : Hub :=
  let n := x.cells
  let h := (h.bumpBy P.TN_ENTRY_DISCARD 0 n).count x.entry (fun k =>
    { k with cellsIn := satAdd 48 k.cellsIn 1, drops := satAdd 48 k.drops n })
  let x := { x with based := true, high := c.seq, next := (c.seq + 1) % 65536, window := 1#1024, held := [], gaps := [],
                    frame := none, discard := false, prevTag := x.tag, tag := tag, stale := 0 }
  (h.putCtx x).event .tunnelResync [(0, 2, x.entry), (2, 2, x.src), (4, 4, tag), (8, 2, min n 65535)]

/-- A context becomes unbased after a stale run and loses its frame and cells (R122). -/
def Hub.rebase (h : Hub) (x : Ctx) : Hub :=
  let h := (h.bump P.TN_REBASE 0).countDrops x.entry x.cells
  h.putCtx { x with based := false, held := [], gaps := [], frame := none, stale := 0 }

/-- A cell meets its receive context (R121, R122, R130).  A value of the window that was never missing, below the first one the context took, is
late (log 157). -/
def Hub.receive (h : Hub) (i : Nat) (e : TEntry) (c : Cell) : Hub :=
  match h.takeCtx i c.src e with
  | (h, none) => (h.bump P.TN_CTX_FULL 0).countDrops i 1
  | (h, some x) =>
    let x := { x with lastUse := h.clk.up }
    let h := h.putCtx x
    let tag := be c.payload 4 4
    if isResync c && tag ≠ x.tag && tag ≠ x.prevTag then h.takeResync x tag c
    else if !x.based then
      if c.first || isResync c then
        h.accept { x with based := true, high := c.seq, next := c.seq, window := 1#1024, gaps := [], held := [] } e c
      else h.countDrops i 1
    else
      let d := seqDist c.seq x.high
      let b := seqDist x.high c.seq
      if 1 ≤ d && d ≤ 32767 then
        let h := if 1024 < d then h.bump P.TN_SEQ_JUMP 0 else h
        let gaps := if e.prot && 2 ≤ d then x.gaps ++ [((x.high + 1) % 65536, (c.seq + 65535) % 65536, h.clk.up)] else x.gaps
        let w := if d < 1024 then x.window <<< d ||| 1#1024 else 1#1024
        h.accept { x with high := c.seq, window := w, gaps := gaps } e c
      else if b ≤ 1023 then
        if x.window.getLsbD b then (h.bump P.TN_DUP 0).putCtx { x with stale := 0 }
        else if x.next ≠ (x.high + 1) % 65536 && seqDist c.seq x.next ≤ seqDist x.high x.next then
          h.accept { x with window := x.window ||| (1#1024 <<< b) } e c
        else ((h.bump P.TN_LATE 0).countDrops i 1).putCtx { x with stale := 0 }
      else
        let h := (h.bump P.TN_STALE 0).countDrops i 1
        if h.pget P.TN_STALE_LIMIT 0 ≤ x.stale + 1 then h.rebase x else h.putCtx { x with stale := x.stale + 1 }

/-- Every receive context of an entry is discarded (R113). -/
def Hub.discardEntry (h : Hub) (i : Nat) : Hub :=
  let mine := h.tn.ctxs.filter (fun x => x.entry == i)
  let n := (mine.map Ctx.cells).sum
  let h := { h with tn := { h.tn with ctxs := h.tn.ctxs.filter (fun x => x.entry != i) } }
  if n = 0 then h else (h.bumpBy P.TN_ENTRY_DISCARD 0 n).countDrops i n

/-- The head of a delivery queue is not held back by the budget level (R171, R191, R192); its allotment was charged when it crossed to the
output (log 114). -/
def Hub.levelOpen (h : Hub) (o : Nat) (c : Cell) : Bool :=
  let lvl := h.al.gov.sched
  let listed := (h.entryOf o c).isSome
  if c.cls = 0 || lvl = 0 then true
  else if lvl = 1 then c.cls ≠ 3 || h.c3Allowed o
  else if lvl = 2 then c.cls ≠ 3 && listed
  else c.cls = 1 && c.dup && listed

/-- A head that R172 takes before those of class `cls` waits in a delivery queue of output o: C0 before all, C1 before C2 and C3 (log 114). -/
def Hub.earlierHead (h : Hub) (o cls : Nat) : Bool :=
  (List.range (min cls 2)).any (fun k => match h.dlv o k with
    | q :: _ => h.levelOpen o q.cell
    | [] => false)

/-- The tunnel layer takes the oldest cell of a delivery queue (R147, R153, R122): not while reassembly storage is at its limit, nor while the
budget level holds the cell back or a head of its output goes first (R171, R172), nor without an ID (R210).  The cell goes to the entry that holds
its TID now (log 155). -/
def Hub.tunnelTake (h : Hub) (o cls : Nat) : Hub :=
  match h.dlv o cls with
  | [] => h
  | q :: rest =>
    let c := q.cell
    if h.pget P.SW_REASM_LIMIT 0 ≤ 16 * ([0, 1, 2, 3].map h.reasm).sum || !h.levelOpen o c || h.earlierHead o cls then h
    else
      let h := h.setDlv o cls rest
      match (if c.dest = 0xFFF then h.mcastEntry c.tid else h.rxEntry c.tid), h.tunnels with
      | some (i, _), false => (h.bump P.TN_NO_TUNNEL 0).countDrops i 1
      | none, false => h.bump P.TN_NO_TUNNEL 0
      | holder, true =>
        if c.kind = 2 then { h with inbox := h.inbox ++ [(3, ⟨1024, c.src, true, c.payload⟩)] }
        else match holder with
          | none => h.bump P.TN_NO_TUNNEL 0
          | some (i, e) => h.receive i e c

/-- TN_GAP_WAIT of a context's oldest gap passes (R123). -/
def Hub.gapExpire (h : Hub) (i src : Nat) : Hub :=
  match h.ctx i src with
  | none => h
  | some x =>
    match x.gaps with
    | [] => h
    | g :: _ =>
      let h := h.until (g.2.2 + us (h.pget P.TN_GAP_WAIT 0))
      let r := Hub.advanceD (2 * x.held.length + x.gaps.length + 4) x (h.tun i) h
      r.1.putCtx r.2

/-- TN_REASM_TIMEOUT of an open frame passes (R126). -/
def Hub.reasmTimeout (h : Hub) (i src : Nat) : Hub :=
  match h.ctx i src with
  | none => h
  | some x =>
    match x.frame with
    | none => h
    | some f =>
      let h := h.until (f.since + us (h.pget P.TN_REASM_TIMEOUT 0))
      let r := h.dropFrame x P.TN_TIMEOUT_DROP
      r.1.putCtx { r.2 with discard := true }

/-- The context that the tunnel state table shows for entry i (R114): of several the one used last (log 15). -/
def Hub.shownCtx (h : Hub) (i : Nat) : Option Ctx :=
  (h.tn.ctxs.filter (fun x => x.entry == i)).foldl (fun b x => match b with
    | none => some x
    | some y => if y.lastUse ≤ x.lastUse then some x else some y) none

/-- What the retention SRAM keeps of a context: the fields of the tunnel state table.  Cells, open frame and duplicate window are lost; what lay
between the delivery point and H is missing anew (R389, log 171). -/
def Ctx.retained (x : Ctx) (now : Nat) : Ctx :=
  { x with window := 0#1024, held := [], frame := none, discard := x.discard || x.frame.isSome, stale := 0,
           gaps := if !x.based || x.next = (x.high + 1) % 65536 then [] else [(x.next, x.high, now)] }

/-- The tunnel state table entry of index i as a little-endian number (R114). -/
def Hub.tunnelState (h : Hub) (i : Nat) : Nat :=
  let e := h.tun i
  let t := mget ⟨0, 0, false⟩ h.tn.tx i
  let tx := if e.valid && e.dir.sends then leBytes 2 t.seq else [0#8, 0#8]
  let txTag := if e.valid && e.dir.sends then leBytes 4 t.tag else leBytes 4 0
  match h.shownCtx i with
  | none => leNat (tx ++ leBytes 10 0 ++ txTag ++ leBytes 16 0)
  | some x =>
    let fl := b2n x.based + 2 * b2n x.frame.isSome + 4 * b2n (!x.gaps.isEmpty) + 8 * b2n x.discard
    leNat (tx ++ leBytes 2 x.high ++ leBytes 2 x.next ++ leBytes 1 fl ++ [0#8] ++ leBytes 4 x.tag ++ txTag ++ leBytes 8 x.lastCtr ++
      leBytes 4 x.prevTag ++ leBytes 4 0)

end Sys2Proof.Machine
end

