-- ==== Sys2Proof/Machine/Route.lean ====
section
/-!
DEFINITION. The express decision: where a checked cell that arrives on L0, L1 or TW goes (R26, R119, R120, R139 to R143, R196 to R202).
-/
namespace Sys2Proof.Machine

/-- A copy is forwarded with HOPS one lower, or counted in SW_HOPS_DROP when its hops have run out (R139). -/
def Hub.forward (h : Hub) (inp : Nat) (c : Cell) (f : Cell → Hub → Hub) : Hub :=
  if c.hops ≤ 1 then (h.bump P.SW_HOPS_DROP inp).portEv inp 12 1 else f { c with hops := c.hops - 1 } h

/-- Line port p can take the cell: it is UP, or its detour is active and open to the cell (R140, R201). -/
def Hub.canRoute (h : Hub) (inp p : Nat) (c : Cell) : Bool := h.portUp p || ((h.detour p).active && h.detourable p inp c)

/-- A copy forwarded to line port p, or dropped for want of a route (R139, R140). -/
def Hub.forwardTo (h : Hub) (inp p : Nat) (c : Cell) : Hub :=
  if h.canRoute inp p c then h.forward inp c (fun c h => h.enqueue inp p c) else h.noRoute inp c

/-- A cell is discarded with a count. -/
def Hub.discard (h : Hub) (pid : Nat) : Hub := h.bump pid 0

/-- The cell reaches the tunnel layer (R120, R143): to the local output of its entry's type, across to the twin, or discarded.  An entry that
only sends does not keep a protected 0xFFF cell from crossing (log 156); a cell of an entry that cannot receive now counts among its Drops (R127). -/
def Hub.deliverLocal (h : Hub) (p : Nat) (c : Cell) : Hub :=
  if c.kind = 2 then h.enqueue p 3 c
  else
    let holder := if c.dest = 0xFFF then h.mcastEntry c.tid else h.rxEntry c.tid
    let found := if h.tunnels && h.pget P.AG_LOCK 0 = 1 then holder else none
    match found with
    | none =>
      let cross := p ≠ 2 && h.portUp 2 && !c.detour &&
        (if c.dest = 0xFFF then c.dup && (h.rxEntry c.tid).isNone else true)
      if cross then h.forward p c (fun c h => h.enqueue p 2 c)
      else
        let h := if c.dest = 0xFFF then h else h.discard P.TN_NO_TUNNEL
        match holder with | some (i, _) => h.countDrops i 1 | none => h
    | some (i, e) =>
      if e.peer ≠ 0xFFF && e.peer ≠ c.src then (h.discard P.TN_NO_TUNNEL).countDrops i 1
      else if c.kind ≠ 1 && c.kind ≠ dataKind e.type then (h.discard P.TN_KIND_ERR).countDrops i 1
      else if c.kind ≠ 1 && c.payload.length = 0 then (h.discard P.TN_FRAME_ERR).countDrops i 1
      else h.enqueue p (typeOutput e.type) c

/-- Routing by DEST_NODE of a cell with a single destination (R140). -/
def Hub.routeSingle (h : Hub) (p : Nat) (c : Cell) : Hub :=
  if c.dest = h.ownId then h.deliverLocal p c else h.forwardTo p (h.towards c.dest) c

/-- The twin reports its line port p UP (R199). -/
def Hub.twinUp (h : Hub) (p : Nat) : Bool := h.portUp 2 && bit h.rl.twinFlags (6 - p)

/-- A drop-and-continue cell from a line port (R119, R140): a local copy, and a copy out of the other line port. -/
def Hub.routeMulticast (h : Hub) (p : Nat) (c : Cell) : Hub := (h.deliverLocal p c).forwardTo p (1 - p) c

/-- A copy out of every line port that is UP. -/
def Hub.allLines (h : Hub) (p : Nat) (c : Cell) : Hub :=
  ([0, 1].filter h.portUp).foldl (fun g q => g.forward p c (fun c g => g.enqueue p q c)) h

/-- A cell with DETOUR 0 from TW, other than an epoch (R196, R198). -/
def Hub.fromTwin (h : Hub) (c : Cell) : Hub :=
  if c.src = h.ownId then
    if c.rail ≠ h.rail then h.discard P.RL_TW_RAIL_ERR
    else if c.dest = 0xFFF then h.allLines 2 c
    else h.routeSingle 2 c
  else if c.dest = 0xFFF then h.deliverLocal 2 c
  else h.routeSingle 2 c

/-- A cell that leaves by a path of R201, counted when it does leave. -/
def Hub.carry (h : Hub) (p out pid : Nat) (c : Cell) : Hub := h.forward p c (fun c h => (h.bump pid 0).enqueue p out c)

/-- A cell with DETOUR set from TW (R201). -/
def Hub.detourFromTwin (h : Hub) (c : Cell) : Hub :=
  if c.rail = h.rail then
    let c := { c with detour := false }
    if c.dest = 0xFFF then (h.deliverLocal 2 c).allLines 2 c
    else h.routeSingle 2 c
  else if c.dest = 0xFFF then
    let qs := [0, 1].filter (fun q => h.portUp q && !h.twinUp q)
    if qs.isEmpty then h.discard P.RL_DETOUR_DROP
    else qs.foldl (fun g q => g.forward 2 c (fun c g => g.enqueue 2 q c)) h
  else if c.dest = h.ownId || !h.portUp (h.towards c.dest) then h.discard P.RL_DETOUR_DROP
  else h.forward 2 c (fun c g => g.enqueue 2 (h.towards c.dest) c)

/-- A cell with DETOUR set from line port p (R201). -/
def Hub.detourFromLine (h : Hub) (p : Nat) (c : Cell) : Hub :=
  if c.rail = h.rail then h.discard P.RL_DETOUR_ERR
  else if c.dest = 0xFFF then
    if h.portUp 2 && !h.twinUp p then h.carry p 2 P.RL_DETOUR_EXIT c
    else if h.portUp (1 - p) then h.carry p (1 - p) P.RL_DETOUR_TRANSIT c
    else h.discard P.RL_DETOUR_DROP
  else if h.portUp 2 && (c.dest = h.ownId || h.twinUp (1 - p)) then h.carry p 2 P.RL_DETOUR_EXIT c
  else if c.dest = h.ownId || !h.portUp (h.towards c.dest) then h.discard P.RL_DETOUR_DROP
  else h.carry p (h.towards c.dest) P.RL_DETOUR_TRANSIT c

/-- Where a checked cell of KIND 0 to 4 that arrives on port p goes. -/
def Hub.routeCell (h : Hub) (p : Nat) (c : Cell) : Hub :=
  if !h.idValid then
    if p = 2 then h.noRoute 2 c else h.forwardTo p (1 - p) c
  else if c.detour then (if p = 2 then h.detourFromTwin c else h.detourFromLine p c)
  else if p = 2 then h.fromTwin c
  else if c.dest = 0xFFF then h.routeMulticast p c
  else h.routeSingle p c

/-- Arrival counts of a port (R454, R461). -/
def Hub.countIn (h : Hub) (p : Nat) (c : Cell) : Hub := ((h.portEv p 0 1).portEv p 2 (cellFlits c)).bwAdd p false (lineBytes c)

end Sys2Proof.Machine
end

