-- ==== Sys2Proof/Machine/Allot.lean ====
section
/-!
DEFINITION. Allotment tables, booking and scaling (R165 to R170, R173, R186), epochs (R181 to R187), and the budget governor (R189 to
R191).
-/
namespace Sys2Proof.Machine

/-! ## Booking (R169, R170) -/

/-- The booking of an output's copy that starts at INDEX base: its C0 reserve and every valid ALLOT. -/
def Hub.booking (h : Hub) (out base : Nat) : Nat := h.pget P.AL_C0_RESERVE out + ((h.aents base).map (fun e => e.2.allot)).sum

/-- A booking is above AL_BOOK_LIMIT of the capacity at LN_RATE_MAX, or of a local output's (R169). -/
def Hub.overBooked (h : Hub) (out booked : Nat) : Bool :=
  h.pget P.AL_BOOK_LIMIT 0 * capacity out (h.pget P.LN_RATE_MAX out) < booked * 100

/-- The shadow booking of an output is computed anew and reported in AL_SHADOW_STATUS (R169). -/
def Hub.shadowReport (h : Hub) (out : Nat) : Hub :=
  let b := h.booking out (shadowIndex out 0)
  h.pset P.AL_SHADOW_STATUS out (b * 2 ^ 32 + b2n (h.overBooked out b))

/-- The active booking of an output reported in AL_ACTIVE_STATUS, with SCALED (R170). -/
def Hub.activeReport (h : Hub) (out : Nat) (scaled : Bool) : Hub :=
  let b := h.booking out (activeIndex out 0)
  h.pset P.AL_ACTIVE_STATUS out (b * 2 ^ 32 + 2 * b2n scaled + b2n (h.overBooked out b))

/-- The ALLOT an entry gets when the booking exceeds the capacity K (R170): R the reserve, S1 and S2 the C1 and C2 sums. -/
def scaledAllot (k r s1 s2 cls allot : Nat) : Nat :=
  let v :=
    if r + s1 ≤ k then (if cls = 1 then allot else allot * (k - r - s1) / s2)
    else if cls = 1 then allot * (k - r) / s1 else 0
  if r + s1 ≤ k && cls = 1 then v else v / 16 * 16

/-- An output's capacity is in use: a local output, or a line or twin port that is UP. -/
def Hub.inUse (h : Hub) (out : Nat) : Bool := 3 ≤ out || h.portUp out

/-- The active booking compared with the capacity in use, and the allotments scaled or whole (R170).  A line or twin output that is not UP has
no mode in use: its allotments are whole until its next LINK_UP. -/
def Hub.rescale (h : Hub) (out : Nat) : Hub :=
  let es := h.aents (activeIndex out 0)
  let sum := fun (k : Nat) => ((es.filter (fun e => e.2.cls == k)).map (fun e => e.2.allot)).sum
  let r := h.pget P.AL_C0_RESERVE out
  let k := capacity out (h.port out).rate
  let booked := h.booking out (activeIndex out 0)
  let cleared := h.al.scaledTo.filter (fun e => e.1 / 256 != out)
  if booked ≤ k || !h.inUse out then ({ h with al := { h.al with scaledTo := cleared } }).activeReport out false
  else
    let tbl := es.foldl (fun m e => mset 0 m (out * 256 + e.1) (scaledAllot k r (sum 1) (sum 2) e.2.cls e.2.allot + 1)) cleared
    (({ h with al := { h.al with scaledTo := tbl } }).activeReport out true).event .allotScaled
      [(0, 1, out), (1, 1, (h.port out).rate), (4, 4, booked), (8, 4, k)]

/-- Active and shadow tables exchange (R186): plan IDs with them, remaining allotments reloaded, deficits cleared, R170 applied. -/
def Hub.swapAllot (h : Hub) : Hub :=
  let half (lo : Nat) : List (Nat × Nat) := (h.tables.filter (fun e => tkey 0x20 lo ≤ e.1 && e.1 < tkey 0x20 (lo + 2560)))
  let other := h.tables.filter (fun e => e.1 / 65536 != 0x20)
  let moved := (half 4096).map (fun (e : Nat × Nat) => (e.1 - 4096, e.2)) ++ (half 0).map (fun (e : Nat × Nat) => (e.1 + 4096, e.2))
  let plan := h.pget P.AL_PLAN_ID_SHADOW 0
  let fresh (o : OutPort) : OutPort := { o with drr := ⟨[], false⟩ }
  let tables := moved.foldl (fun (m : Map Nat) (e : Nat × Nat) => minsert m e.1 e.2) other
  let h : Hub := { h with tables := tables, al := { h.al with rem := [] },
                          sw := { h.sw with outs := h.sw.outs.map fresh } }
  let h := (h.pset P.AL_PLAN_ID_SHADOW 0 (h.pget P.AL_PLAN_ID_ACTIVE 0)).pset P.AL_PLAN_ID_ACTIVE 0 plan
  (List.range 10).foldl (fun h o => (h.shadowReport o).rescale o) h

/-- At an allotment boundary every remaining allotment reloads, keeping a debt (R173); the cycle's counts start anew and the
scheduler takes the budget level in force (R190). -/
def Hub.reload (h : Hub) : Hub :=
  let keepDebt := h.al.rem.filter (fun e => e.2 < 0)
  let fresh (o : OutPort) : OutPort := { o with c3Sent := 0, prioSent := 0 }
  let h1 : Hub := { h with al := { h.al with rem := [], gov := { h.al.gov with sched := h.al.gov.level } },
                           sw := { h.sw with outs := h.sw.outs.map fresh } }
  keepDebt.foldl (fun g e => g.setRemaining (e.1 / 256) (e.1 % 256) ((g.allotOf (e.1 / 256) (e.1 % 256) : Int) + e.2)) h1

/-! ## Epochs -/

/-- What a loss of I-CORE's state leaves of the allotment logic: the hub has not been reset, so its count of epochs, and what it knows of those
it sent, go on (R182, R187). -/
def Allot.afterLoss (a : Allot) : Allot :=
  { Allot.reset with sent := a.sent, sentId := a.sentId, sentTe := a.sentTe, sentPlan := a.sentPlan, lastTe := a.lastTe }

/-- The hub is synchronised (R217). -/
def Hub.synced (h : Hub) : Bool := h.rl.ts == .master || h.rl.ts == .locked || h.rl.ts == .holdover

/-- An epoch cell (R183). -/
def Hub.epochCell (h : Hub) (sub flags copy id te plan : Nat) : Cell :=
  ⟨0, true, true, 5, 0xFFF, 0, 0, 0, false, h.rail, false, h.pget P.TN_HOPS_DEFAULT 0,
    [byte sub, byte flags, byte copy, 0#8] ++ beBytes 4 id ++ beBytes 8 te ++ beBytes 4 plan ++ beBytes 4 0⟩

/-- What an epoch cell says (R183). -/
structure EpochMsg where
  sub   : Nat
  flags : Nat
  copy  : Nat
  id    : Nat
  te    : Nat
  plan  : Nat
deriving DecidableEq, Repr

/-- The fields of an epoch payload. -/
def EpochMsg.of (p : List Byte) : EpochMsg := ⟨byteAt p 0, byteAt p 1, byteAt p 2, be p 4 4, be p 8 8, be p 16 4⟩

/-- An epoch cell is acted on here (R183): a KIND 5 cell that fails these is counted in AL_EPOCH_BAD. -/
def epochGood (c : Cell) : Bool :=
  let p := c.payload
  let m := EpochMsg.of p
  c.src = 0 && p.length = 24 && (m.sub = 1 || m.sub = 2) && m.flags < 4 && byteAt p 3 = 0 && m.id ≠ 0 && be p 20 4 = 0

/-- Flags of an epoch as AL_EPOCH_ARM has them. -/
def epochFlags (allot decision : Bool) : Nat := b2n allot + 2 * b2n decision

/-- Nothing armed. -/
def Hub.disarm (h : Hub) : Hub := { h with al := { h.al with armed := none } }

/-- An epoch is armed for a boundary: in time for B(T_e), or late for the first boundary at least 1 µs away (R185). -/
def Hub.armAt (h : Hub) (allot decision : Bool) (m : EpochMsg) : Hub :=
  let b := boundaryAt m.te
  let inTime := h.clk.ns + 1000 ≤ b
  let at_ := if inTime || !h.synced then b else boundaryAt (h.clk.ns + 1000)
  let h := { h with al := { h.al with armed := some ⟨m.id, allot, decision, m.te, m.plan, at_⟩ } }
  if inTime || !h.synced then h
  else
    let args := fields 16 [(0, 4, m.id), (8, 8, m.te)]
    ((h.bump P.AL_LATE_EPOCH 0).lintRec Ev.lateEpoch.code 2 args false).deliver .lateEpoch 2 Status.lateEpoch.code args

/-- An EPOCH meets the IDLE state of R185. -/
def Hub.armIdle (h : Hub) (m : EpochMsg) : Hub :=
  if m.id = h.pget P.AL_EPOCH_APPLIED 0 then h
  else if m.te + 1000000000 < h.clk.ns then h.bump P.AL_EPOCH_STALE 0
  else
    let decision := bit m.flags 1
    let shadow := h.pget P.AL_PLAN_ID_SHADOW 0
    if bit m.flags 0 && m.plan ≠ 0 && m.plan ≠ shadow then
      let h := h.event .epochPlanMismatch [(0, 4, m.id), (4, 4, m.plan), (8, 4, shadow)]
      if decision then h.armAt false true m else h
    else h.armAt (bit m.flags 0) decision m

/-- An EPOCH or EPOCH_CANCEL is acted on (R185). -/
def Hub.epochAct (h : Hub) (m : EpochMsg) : Hub :=
  match h.al.armed with
  | some a =>
    if m.sub = 2 then (if a.id = m.id then h.disarm.event .epochCancelled [(0, 4, m.id)] else h)
    else if a.id = m.id then h
    else (h.disarm.bump P.AL_EPOCH_REPLACED 0).armIdle m
  | none => if m.sub = 2 then h else h.armIdle m

/-- A KIND 5 cell that arrives on a port is passed on, crossed once and acted on (R142, R182 to R185, R198, R210). -/
def Hub.epochArrive (h : Hub) (p : Nat) (c : Cell) : Hub :=
  let h := h.portEv p 20 1
  let m := EpochMsg.of c.payload
  let good := epochGood c
  let h :=
    if p = 2 then (if h.isHead && good then (if h.portUp 1 then h.enqueue 2 1 c else h) else h)
    else
      let h := h.forwardTo p (1 - p) c
      let key := (m.id, m.sub)
      if good && !h.al.crossed.contains key then
        let h := { h with al := { h.al with crossed := h.al.crossed ++ [key] } }
        if h.portUp 2 && h.idValid then h.forward p c (fun c h => h.enqueue p 2 c) else h
      else h
  if !good then h.bump P.AL_EPOCH_BAD 0 else h.epochAct m

/-- One copy of an epoch or cancel goes out of L1 and across TW (R182, R187): it enters the shared buffer like a C0 frame of a local port
(R153, R154), by input 8.  The copies after it stay owed. -/
def Hub.epochOut (h : Hub) (t : EpochTx) : Hub :=
  let c := h.epochCell (if t.cancel then 2 else 1) t.flags t.copy t.id t.te t.plan
  let m := h.makeRoom 3 0 (cellFlits c)
  let h :=
    if m.2 then
      m.1.arriving 8 c (fun h => [1, 2].foldl (fun h p => if h.portUp p then h.enqueue 8 p c else h.noRoute 8 c) h)
    else m.1.bump P.SW_INGRESS_DROP 0
  if t.left ≤ 1 then h
  else
    let next := { t with copy := t.copy + 1, left := t.left - 1, nextAt := h.clk.ns + us (h.pget P.AL_EPOCH_SPACING 0) }
    { h with al := { h.al with sending := h.al.sending ++ [next] } }

/-- The owed copy that is due first. -/
def Hub.epochNext (h : Hub) : Option EpochTx :=
  h.al.sending.foldl (fun b t => match b with
    | none => some t
    | some x => if t.nextAt < x.nextAt then some t else some x) none

/-- The owed copy that is due first goes out at its time. -/
def Hub.epochCopy (h : Hub) : Hub :=
  match h.epochNext with
  | none => h
  | some t =>
    let h := h.untilLine t.nextAt
    ({ h with al := { h.al with sending := h.al.sending.erase t } }).epochOut t

/-- Why a closing write of AL_EPOCH_ARM fails (R181, R182), or nothing. -/
def Hub.epochRefusal (h : Hub) (te v : Nat) : Option Status :=
  if !h.isHead then some .denied
  else if v = 0 || 4 ≤ v then some .badParam
  else if te < h.clk.ns + ms (max 2 (h.pget P.AL_EPOCH_LEAD 0)) then some .lateEpoch
  else if h.clk.ns + 60000000000 < te then some .range
  else if h.clk.ns < h.al.lastTe then some .busy
  else if 65535 ≤ h.al.sent then some .noResource
  else none

/-- An epoch is sent: its ID, its first copy, and the hub's own arming (R181, R182). -/
def Hub.epochSend (h : Hub) (te v : Nat) : Hub :=
  let n := h.al.sent + 1
  let id := h.pget P.KY_CRYPTO_EPOCH 0 * 65536 + n
  let plan := h.pget P.AL_EPOCH_PLAN 0
  let h := h.pset P.AL_EPOCH_SENT 0 id
  let h := { h with al := { h.al with sent := n, sentTe := te, sentPlan := plan, sentId := id, lastTe := max te h.al.lastTe } }
  (h.epochOut ⟨false, v, id, te, plan, 1, h.pget P.AL_EPOCH_COPIES 0, h.clk.ns⟩).epochAct ⟨1, v, 1, id, te, plan⟩

/-- Why a write of AL_EPOCH_CANCEL fails (R187), or nothing. -/
def Hub.cancelRefusal (h : Hub) (id : Nat) : Option Status :=
  if !h.isHead then some .denied
  else if h.al.sent = 0 || id ≠ h.al.sentId then some .badParam
  else if h.al.sentTe < h.clk.ns + 1500000 then some .busy
  else none

/-- EPOCH_CANCEL cells are sent and the own epoch is disarmed (R187). -/
def Hub.cancelSend (h : Hub) (id : Nat) : Hub :=
  (h.epochOut ⟨true, 0, id, h.al.sentTe, h.al.sentPlan, 1, h.pget P.AL_EPOCH_COPIES 0, h.clk.ns⟩).epochAct
    ⟨2, 0, 1, id, h.al.sentTe, h.al.sentPlan⟩

/-- Synchronisation is reached: the due-in-time test of a held epoch is made anew (R185). -/
def Hub.epochSynced (h : Hub) : Hub :=
  match h.al.armed with
  | none => h
  | some a => if h.clk.ns + 1000 ≤ a.boundary then h else h.disarm.armAt a.allot a.decision ⟨1, 0, 1, a.id, a.te, a.plan⟩

/-! ## Budget governor (R189 to R191) -/

/-- Running on VBACK alone (R25, R346). -/
def Hub.onVback (h : Hub) : Bool := h.su.inUse == 1

/-- The temperature sensors of an island (R450). -/
def sensorsOf (isl : Nat) : List Nat :=
  match isl with
  | 3 => [0, 1, 2, 3, 4, 5] | 0 => [6, 7] | 1 => [8, 9] | 2 => [10, 11] | 4 => [12, 13] | 5 => [14, 15] | 6 => [16, 17]
  | 10 => [18, 19] | 7 => [20] | 8 => [21] | 9 => [22] | 11 => [23] | _ => []

/-- A sensor; unread sensors are neither valid nor faulted. -/
def Hub.sensor (h : Hub) (kind idx : Nat) : Sensor := mget ⟨0, false, false, 0, 0, 0⟩ h.mg.sensors (kind * 256 + idx)

/-- The greatest of a list of readings. -/
def maxReading (l : List Int) : Option Int := l.foldl (fun b v => match b with | none => some v | some w => some (max v w)) none

/-- The greatest reading of an island's sensors in service, in m°C. -/
def Hub.islandMax (h : Hub) (isl : Nat) : Option Int :=
  maxReading (((sensorsOf isl).map (h.sensor 0)).filterMap (fun s => if s.valid && !s.fault then some s.value else none))

/-- The maximum junction temperature in m°C (R189, R450): faulted sensors are left out. 0 before any reading (log 9). -/
def Hub.tmax (h : Hub) : Int := (maxReading ((List.range 12).filterMap h.islandMax)).getD 0

/-- The temperature of an island in m°C (R374, R450): an island whose sensors are all out counts as the hottest of the others. -/
def Hub.islandTemp (h : Hub) (isl : Nat) : Int :=
  let all := (sensorsOf isl).map (h.sensor 0)
  match h.islandMax isl with
  | some v => v
  | none => if all.any (·.fault) then h.tmax else 0

/-- The thermal demand (R189): k at or above its threshold, kept until hysteresis below it. -/
def Hub.tempDemand (h : Hub) (t : Int) : Nat :=
  let th := fun (k : Nat) => 1000 * (h.pget P.AL_GOV_T (k - 1) : Int)
  let hyst := 1000 * (h.pget P.AL_GOV_HYST 0 : Int)
  ([1, 2, 3].filter (fun k => th k ≤ t || (k ≤ h.al.gov.tempLvl && th k - hyst ≤ t))).foldl max 0

/-- The power demand (R189). -/
def Hub.powerDemand (h : Hub) (p : Nat) : Nat :=
  let lim := h.pget P.AL_GOV_POWER_LIMIT 0
  let th := fun (k : Nat) => if k = 1 then 100 * lim else 110 * lim
  ([1, 2].filter (fun k => th k ≤ 100 * p || (k ≤ h.al.gov.powLvl && th k - 5 * lim ≤ 100 * p))).foldl max 0

/-- A gradient alarm stands on some island (R374). -/
def Hub.anyGradient (h : Hub) : Bool := h.isl.any (·.gradient)

/-- The demands by input: temperature, power, VBACK, gradient, FORCE. -/
def Hub.demands (h : Hub) : List Nat :=
  [h.al.gov.tempLvl, h.al.gov.powLvl, if h.onVback then h.pget P.AL_GOV_VBACK_LEVEL 0 else 0, b2n h.anyGradient, h.pget P.AL_GOV_FORCE 0]

/-- The governor's record changed. -/
def Hub.modGov (h : Hub) (f : Governor → Governor) : Hub := { h with al := { h.al with gov := f h.al.gov } }

/-- The level in force changes (R190). -/
def Hub.setLevel (h : Hub) (l : Nat) : Hub :=
  let old := h.al.gov.level
  let ds := h.demands
  let cause := if l = 0 then 0 else ((List.range 5).map (fun i => if l ≤ nth ds i 0 then 2 ^ i else 0)).sum
  let h := h.modGov (fun g => { g with level := l, cause := cause })
  if l = old then h
  else (h.raise (2 ^ intBudget)).event .budgetLevel
    [(0, 1, l), (1, 1, old), (2, 1, cause), (4, 2, ofSigned 16 (h.al.gov.tmax / 1000)), (8, 4, h.al.gov.power)]

/-- One evaluation (R189, R190): the parameters written since the last one take effect (R470), the demanded level is the highest demand, and the
level in force rises to it at once. -/
def Hub.govEvaluate (h : Hub) (power : Nat) : Hub :=
  let t := h.tmax
  let caps := (List.range 4).map (h.pget P.AL_GOV_DE_CAP) ++ [P.AL_GOV_IDLE_SUSPEND, P.AL_GOV_C3_CAP, P.AL_GOV_DWELL].map (fun p => h.pget p 0)
  let h := h.modGov (fun g => { g with tmax := t, power := power, caps := caps, tempLvl := h.tempDemand t, powLvl := h.powerDemand power })
  let d := h.demands.foldl max 0
  let lvl := h.al.gov.level
  let since := if d < lvl then (match h.al.gov.lowSince with | some s => some s | none => some h.clk.up) else none
  (h.modGov (fun g => { g with demanded := d, lowSince := since })).setLevel (max d lvl)

/-- AL_GOV_DWELL of a lower demand passes: the level in force falls by one (R190). -/
def Hub.govDwell (h : Hub) : Hub :=
  match h.al.gov.lowSince with
  | none => h
  | some s =>
    let h := h.until (s + ms (h.govNow 6 P.AL_GOV_DWELL 0))
    let l := h.al.gov.level - 1
    (h.modGov (fun g => { g with lowSince := if g.demanded < l then some h.clk.up else none })).setLevel l

/-- The clock of an island under the budget level and a gradient alarm (R191, R193), given its full clock. -/
def Hub.clockLimit (h : Hub) (isl full : Nat) : Nat :=
  let g := (h.island isl).gradient
  let lvl := h.al.gov.level
  if isl = 5 then (if lvl = 3 then 500 else if lvl = 2 || g then 750 else full)
  else if isl = 10 then (if lvl = 3 then 200 else if lvl = 2 || g then 400 else full)
  else full

end Sys2Proof.Machine
end

