-- ==== Sys2Proof/Machine/Line.lean ====
section
/-!
DEFINITION. Line and twin ports: training (R85 to R91), going up and down (R92, R93, R203, R495), side frames (R82 to R84), received
blocks with delineation (R77 to R79) and Darn (R94 to R99), credit messages (R155 to R160), monitoring (R100, R101).
-/
namespace Sys2Proof.Machine

/-! ## Identity on the wire -/

/-- The PORT_ID byte (R83). -/
def Hub.portId (h : Hub) (p : Nat) : Nat := p * 64 + h.rail * 32 + b2n h.isHead * 16 + b2n h.idValid * 8

/-! ## Training (R85 to R91) -/

/-- The training part of port p changed. -/
def Hub.modTrain (h : Hub) (p : Nat) (f : PortTrain → PortTrain) : Hub := h.modPort p (fun q => { q with train := f q.train })

/-- The receiver of port p changed. -/
def Hub.modRx (h : Hub) (p : Nat) (f : PortRx → PortRx) : Hub := h.modPort p (fun q => { q with rx := f q.rx })

/-- The Darn transmitter of port p changed. -/
def Hub.modDarn (h : Hub) (p : Nat) (f : PortDarn → PortDarn) : Hub := h.modPort p (fun q => { q with darn := f q.darn })

/-- The state of port p. -/
def Hub.lnState (h : Hub) (p : Nat) : LnState := (h.port p).state

/-- A port enters a state now. -/
def Hub.enter (h : Hub) (p : Nat) (s : LnState) : Hub := h.modPort p (fun q => { q with state := s, since := h.clk.up })

/-- The fastest mode that R86 allows, if one is left. -/
def PortTrain.pick (t : PortTrain) : Option Mode :=
  let partnerMax := match t.partner with | some i => max i.rateMax i.target | none => 0
  [1, 2, 3, 4].find? (fun m => t.rateMax ≤ m && partnerMax ≤ m && !t.failed.contains m)

/-- The target mode a port shows. -/
def PortTrain.shown (t : PortTrain) : Mode := (t.pick).getD 4

/-- A stored choice of this end for the partner and mode (R89). -/
def PortTrain.storedFor (t : PortTrain) (m : Mode) : Option StoredChoice :=
  match t.stored, t.partner with
  | some s, some i => if s.tag = i.tag && s.mode = m then some s else none
  | _, _ => none

/-- The code both ends agree before TRAIN: short, long, or none when MEASURE must decide (R87, R89). -/
def PortTrain.agree (t : PortTrain) (m : Mode) : Option Bool :=
  match t.partner with
  | none => some false
  | some i =>
    if t.code = 2 || i.code = 2 then some false
    else if t.code = 1 || i.code = 1 then some true
    else match t.storedFor m with
      | some s => if i.hasStored && i.storedShort == s.short then some s.short else none
      | none => none

/-- The training phase a state shows (R83); READY once a code is agreed and both lanes lock. -/
def phaseOf (q : Port) : Nat :=
  match q.state with
  | .train => if q.train.agreed.isSome && q.train.lock0 && q.train.lock1 then 3 else 1
  | .measure => 2
  | .up => 3
  | _ => 0

/-- A TRAIN frame leaves port p (R83): the model shows one at each change of what it says. -/
def Hub.sendTrain (h : Hub) (p : Nat) : Hub :=
  let q := h.port p
  let t := q.train
  let m := if q.state = .train || q.state = .measure then t.target else t.shown
  let s := t.storedFor m
  let has := s.isSome
  let short := match s with | some s => s.short | none => false
  h.sendSide p 1 ([byte (h.portId p)] ++ beBytes 2 h.ownId ++
    [byte (t.rateMax * 16 + t.code * 4), byte (phaseOf q * 16 + m),
     byte (b2n t.pass * 128 + b2n t.done * 64 + b2n has * 32 + b2n short * 16)] ++
    beBytes 2 (deviceNat % 65536) ++ [1#8, 0#8, 0#8, 0#8])

/-- What a partner showed of a training that is over no longer counts (R86): its target, phase and results. -/
def PortTrain.forget (t : PortTrain) : PortTrain :=
  { t with goodRun := 0, lock0 := false, lock1 := false, silent := false, failWait := false, agreed := none, pass := false, done := false,
           partner := t.partner.map (fun i => { i with phase := 0, target := 0, pass := false, done := false, hasStored := false,
                                                       storedShort := false }) }

/-- The lanes of port p start to look for codewords anew (R80). -/
def Hub.relock (h : Hub) (p : Nat) : Hub :=
  h.modRx p (fun r => { r with lane0 := PortRx.reset.lane0, lane1 := PortRx.reset.lane1, side := 0, sideN := 0 })

/-- DETECT, transmitting at F4 (R85). -/
def Hub.toDetect (h : Hub) (p : Nat) : Hub :=
  let h := ((h.enter p .detect).modTrain p (fun t => { t.forget with hold := 0 })).relock p
  (h.modPort p (fun q => { q with leaving := false })).sendTrain p

/-- IDENT: LN_RATE_MAX, LN_CODE, LN_DARN_EN, LN_TX_PRESET and the pool sizes take effect here (R91, R152). -/
def Hub.toIdent (h : Hub) (p : Nat) : Hub :=
  let get := fun pid => h.pget pid p
  let h := ((h.enter p .ident).modTrain p (fun t =>
    { t.forget with
             lastGood := h.clk.up, rateMax := get P.LN_RATE_MAX, code := get P.LN_CODE, darnEn := get P.LN_DARN_EN,
             preset0 := h.pget P.LN_TX_PRESET (2 * p), preset1 := h.pget P.LN_TX_PRESET (2 * p + 1),
             poolC2 := h.pget P.SW_CREDIT_POOL 0, poolC3 := h.pget P.SW_CREDIT_POOL 1 })).relock p
  h.sendTrain p

/-- A STATUS frame leaves port p (R83, R84): RX_DOWN and GOING_DOWN as they are set, RESTING with the latter. -/
def Hub.sendStatus (h : Hub) (p : Nat) (resting : Bool) : Hub :=
  let q := h.port p
  let on := q.train.darnEn == 1 || (q.train.darnEn == 2 && q.short)
  let fl := b2n q.rxDown * 128 + b2n q.leaving * 64 + b2n on * 32 + b2n resting * 16
  h.sendSide p 2 ([byte fl] ++ beBytes 2 (min (q.rx.uncorrAt.filter (fun t => h.clk.up < t + ms 1)).length 0xFFFF) ++ List.replicate 9 0#8)

/-- n STATUS frames, one in every side frame (R84), with idle blocks behind the cells begun. -/
def Hub.sendStatuses (h : Hub) (p : Nat) (resting : Bool) (n : Nat) : Hub :=
  ((List.range n).foldl (fun h _ => h.sendStatus p resting) h).flushSides p

/-- The partner check of R88: 0 passes, else LN_HOLD_REASON; where more than one case holds, the first of port type, rail, node ID and head
ID (log 108). -/
def Hub.partnerCheck (h : Hub) (p : Nat) (i : TrainInfo) : Nat :=
  let port := i.portId / 64
  let rail := b2n (bit i.portId 5)
  let head := bit i.portId 4
  let valid := bit i.portId 3
  let own := h.ownId
  if (p = 0 && port ≠ 1) || (p = 1 && port ≠ 0) || (p = 2 && port ≠ 2) then 1
  else if (p < 2 && rail ≠ h.rail) || (p = 2 && rail = h.rail) then 2
  else if valid && h.idValid &&
      ((p = 0 && i.nodeId + 1 ≠ own) || (p = 1 && i.nodeId ≠ own + 1) || (p = 2 && i.nodeId ≠ own)) then 3
  else if valid && h.idValid && p = 0 && head && i.nodeId ≠ 0 then 4
  else 0

/-- A port is held out of service (R23, R85, R209). -/
def Hub.hold (h : Hub) (p reason : Nat) : Hub :=
  let i := (h.port p).train.partner
  let nid := match i with | some i => i.nodeId | none => 0
  let pid := match i with | some i => i.portId | none => 0
  let h := (h.enter p .held).modTrain p (fun t => { t with hold := reason })
  (h.raise (2 ^ intLink)).event .linkHeld [(0, 1, p), (1, 1, reason), (2, 2, nid), (4, 1, pid)]

/-- What a receiver keeps as its port enters UP (R80): lanes that go on in the same code keep their place and history, a change of code
starts them anew at the next side frame (R85). -/
def PortRx.atUp (r : PortRx) (same : Bool) : PortRx :=
  let n := { PortRx.reset with cells := r.cells, frames := r.frames }
  if same then { n with lane0 := r.lane0, lane1 := r.lane1, side := r.side, sideN := r.sideN } else n

/-- A port reaches UP (R85, R95, R156, R157, R170): counters of credit and blocks start at 0, no mode stays failed.  A pool that holds more
than its size now starts with G_c below 0, modulo 2³² (R156). -/
def Hub.linkUp (h : Hub) (p : Nat) (short : Bool) : Hub :=
  let g := fun (k : Nat) => (h.pool p k + 2 ^ 32 - h.occ p k) % 2 ^ 32
  let q := h.port p
  let same := q.rxShort == short
  let cr (k : Nat) : Credit := ⟨0, 0, g k, 0, 0, false⟩
  let h := h.modPort p (fun q =>
    { q with state := .up, since := h.clk.up, rate := q.train.target, short := short, leaving := false, rxDown := false,
             tx := { PortTx.reset with prbs := q.tx.prbs },
             train := { q.train with failed := [], silent := false, failWait := false, hold := 0 },
             rx := q.rx.atUp same, darn := Port.reset.darn, c2 := cr 2, c3 := cr 3 })
  let h : Hub := if p = 2 then { h with rl := { h.rl with twinOut := false } } else h
  let on := q.train.darnEn == 1 || (q.train.darnEn == 2 && short)
  let h := h.modOut p (fun o => { o with busy := false })
  let h := (h.raise (2 ^ intLink)).event .linkUp [(0, 1, p), (1, 1, q.train.target), (2, 1, if short then 1 else 2), (3, 1, b2n on)]
  h.rescale p

/-- What leaving UP does (R93, R203): partial cells and unacknowledged blocks are lost, credit and the side channel forgotten. -/
def Hub.leaveUp (h : Hub) (p : Nat) : Hub :=
  let q := h.port p
  let h := h.bump P.LN_LINK_DOWN p
  let h := if q.rx.delin.part.isEmpty then h else h.bump P.LN_RX_ABANDON p
  let h := h.bumpBy P.RL_DARN_UNACKED p q.darn.stored.length
  let h := (h.pset P.LN_MARGIN (2 * p) 0).pset P.LN_MARGIN (2 * p + 1) 0
  let h := h.modPort p (fun q => { q with rate := 0, short := false, leaving := false, rxDown := false, tx := { PortTx.reset with prbs := q.tx.prbs },
                                          rx := { Port.reset.rx with cells := q.rx.cells, frames := q.rx.frames },
                                          darn := Port.reset.darn, c2 := Credit.reset, c3 := Credit.reset,
                                          time := { q.time with line := none, reqAt := none, answer := none } })
  let h := h.modOut p (fun o => { o with busy := false, drr := ⟨[], false⟩ })
  let h := if p < 2 then h.modDetour p (fun d => { d with downAt := h.clk.ns, releasing := none }) else h
  let h : Hub := if p = 0 then { h with rl := { h.rl with overTold := false } } else h
  h.raise (2 ^ intLink)

/-- A port leaves UP and LINK_DOWN is delivered (R93, R102). The port's next state is the caller's. -/
def Hub.linkDown (h : Hub) (p cause : Nat) : Hub :=
  if (h.port p).state ≠ .up then h else (h.leaveUp p).event .linkDown [(0, 1, p), (1, 1, cause)]

/-- The port goes down to DETECT (R93), in silence after RESTING (R495).  A receiver without signal or lock sets RX_DOWN in the port's
STATUS frames first: the two that take the partner down (R93, log 107). -/
def Hub.portDown (h : Hub) (p cause : Nat) (silent : Bool) : Hub :=
  if (h.port p).state ≠ .up then h
  else
    let h := if cause < 2 then (h.modPort p (fun q => { q with rxDown := true })).sendStatuses p false 2 else h
    let h := h.linkDown p cause
    if silent then ((h.enter p .detect).modTrain p (fun t => { t.forget with silent := true })).relock p
    else h.toDetect p

/-- The port is powered off by its role: L0 at a head (R21). -/
def Hub.portAbsent (h : Hub) (p : Nat) : Bool := p = 0 && h.isHead

/-- Signal on both lanes for 100 µs (R85): DETECT, silent or not, to IDENT. -/
def Hub.signalDetect (h : Hub) (p : Nat) : Hub :=
  if h.portAbsent p then h
  else match h.lnState p with
    | .detect => h.toIdent p
    | _ => h

/-- A port in IDENT has received its last good TRAIN frame `n` times more in a row: R83 has the partner repeat it (log 37). -/
def Hub.trainRepeats (h : Hub) (p n : Nat) : Hub :=
  h.modTrain p (fun t => if t.partner.isSome then { t with goodRun := t.goodRun + n } else t)

/-- Eight good TRAIN frames in a row (R85): the partner check, then TRAIN with the agreed mode and code, or HELD. -/
def Hub.identDone (h : Hub) (p : Nat) : Hub :=
  let q := h.port p
  match q.state, q.train.partner with
  | .ident, some i =>
    if q.train.goodRun < 8 then h
    else
      let r := h.partnerCheck p i
      if r ≠ 0 then h.hold p r
      else match q.train.pick with
        | none => h
        | some m =>
          let h := ((h.enter p .train).modTrain p (fun t =>
            { t with target := m, agreed := t.agree m, lock0 := false, lock1 := false })).relock p
          h.sendTrain p
  | _, _ => h

/-- TW does not train (R24): told once until it is UP, in a LINK_DOWN of port 2 (log 111). -/
def Hub.twinFails (h : Hub) (cause : Nat) : Hub :=
  if h.rl.twinOut then h
  else (({ h with rl := { h.rl with twinOut := true } } : Hub).raise (2 ^ intLink)).event .linkDown [(0, 1, 2), (1, 1, cause)]

/-- 2 ms without a good TRAIN frame in IDENT, from the last one or from the entry (R85); a TW that finds none does not train (R24). -/
def Hub.identTimeout (h : Hub) (p : Nat) : Hub :=
  let q := h.port p
  if q.state = .ident then
    let h := (h.until (q.train.lastGood + ms 2)).toDetect p
    if p = 2 then h.twinFails 1 else h
  else h

/-- Adaptation done in TRAIN (R85): UP with the agreed code once the partner is READY, or MEASURE. -/
def Hub.trainDone (h : Hub) (p : Nat) : Hub :=
  let q := h.port p
  if q.state = .train && !q.train.failWait && q.train.lock0 && q.train.lock1 then
    match q.train.agreed, q.train.partner with
    | some short, some i => if i.phase = 3 then h.linkUp p short else h.sendTrain p
    | none, some _ => ((h.enter p .measure).modTrain p (fun t => { t with pass := false, done := false })).sendTrain p
    | _, none => h
  else h

/-- 6 ms in TRAIN without lock (R85, R86); a TW with no mode left does not train (R24). -/
def Hub.trainTimeout (h : Hub) (p : Nat) : Hub :=
  let q := h.port p
  if q.state = .train && !q.train.failWait && !(q.train.lock0 && q.train.lock1) then
    let h := h.until (q.since + ms 6)
    let h := h.modTrain p (fun t => { t with failed := t.target :: t.failed })
    match (h.port p).train.pick with
    | some _ => h.toIdent p
    | none =>
      let h := (h.bump P.LN_TRAIN_FAIL p).modPort p (fun q => { q with since := h.clk.up, train := { q.train with failWait := true } })
      if p = 2 then h.twinFails 1 else h
  else h

/-- The 100 ms wait of the "No lower mode" row ends (R86). -/
def Hub.failWaitEnd (h : Hub) (p : Nat) : Hub :=
  let q := h.port p
  if q.state = .train && q.train.failWait then
    ((h.until (q.since + ms 100)).modTrain p (fun t => { t with failed := [] })).toDetect p
  else h

/-- The measure time of R87 in ns. -/
def measureTime (m : Mode) : Nat := if m = 1 then 10100000 else if m = 2 then 20200000 else if m = 3 then 41600000 else 104100000

/-- MEASURE passes on a lane with at most 4 bit errors corrected in 2³⁰ bits (R87). -/
def measurePass (errs0 errs1 : Nat) : Bool := errs0 ≤ 4 && errs1 ≤ 4

/-- MEASURE ends once both ends are done (R85, R87, R89): short when both pass; the outcome is the stored choice. -/
def Hub.measureEnd (h : Hub) (p : Nat) : Hub :=
  let t := (h.port p).train
  match t.partner with
  | some i =>
    if (h.port p).state = .measure && t.done && i.done then
      let short := t.pass && i.pass
      (h.modTrain p (fun t => { t with stored := some ⟨i.tag, t.target, short⟩ })).linkUp p short
    else h
  | none => h

/-- 2³⁰ bits are counted on each lane, with the bit errors corrected (R87): shown in RESULT (R83). -/
def Hub.measureDone (h : Hub) (p errs0 errs1 : Nat) : Hub :=
  if (h.port p).state = .measure then
    ((h.modTrain p (fun t => { t with done := true, pass := measurePass errs0 errs1 })).sendTrain p).measureEnd p
  else h

/-- The partner's MEASURE_DONE does not arrive within twice the measure time (R85): the long code; an older stored choice stays (R89).
Where the partner has shown it, nothing is timed out. -/
def Hub.measureTimeout (h : Hub) (p : Nat) : Hub :=
  let q := h.port p
  let shown := match q.train.partner with | some i => i.done | none => false
  if q.state = .measure && !shown then (h.until (q.since + 2 * measureTime q.train.target)).linkUp p false else h

/-- Loss of signal or lock in MEASURE (R85): an older stored choice stays (R89). -/
def Hub.measureAbandon (h : Hub) (p : Nat) : Hub := if h.lnState p = .measure then h.toDetect p else h

/-- Signal loss for 200 ns in TRAIN: no mode is marked failed (R85); the wait with no mode left goes on (R86). -/
def Hub.trainSignalLoss (h : Hub) (p : Nat) : Hub :=
  if h.lnState p = .train && !(h.port p).train.failWait then h.toDetect p else h

/-- Lane `lane` has lock: in UP both have. -/
def Hub.locked (h : Hub) (p lane : Nat) : Bool :=
  let q := h.port p
  q.state == .up || (if lane = 0 then q.train.lock0 else q.train.lock1)

/-- A lane's lock while the port trains; a TRAIN frame shows the phase where that changes it (R83, R85). -/
def Hub.setLock (h : Hub) (p lane : Nat) (on : Bool) : Hub :=
  let was := phaseOf (h.port p)
  let h := h.modTrain p (fun t => if lane = 0 then { t with lock0 := on } else { t with lock1 := on })
  if phaseOf (h.port p) = was then h else h.sendTrain p

/-- A lane gains codeword lock (R80). -/
def Hub.lockGained (h : Hub) (p lane : Nat) : Hub :=
  match h.lnState p with
  | .train | .measure => h.setLock p lane true
  | _ => h

/-- A lane loses codeword lock (R80): an UP port goes down, MEASURE is abandoned. -/
def Hub.lockLost (h : Hub) (p lane : Nat) : Hub :=
  match h.lnState p with
  | .up => h.portDown p 1 (h.port p).rx.resting
  | .measure => h.measureAbandon p
  | _ => h.setLock p lane false

/-- The place of the next codeword in its side frame: counted on while the lane has lock, else as its SYNC or POS says. -/
def LaneRx.place (l : LaneRx) (short locked : Bool) (lead : Nat) : Nat :=
  if locked then l.pos
  else if short then (if lead = 2 then 0 else l.pos)
  else if lead < 3 then lead else l.pos

/-- One codeword judged (R80); as many are kept as the criteria look back on. -/
def LaneRx.judge (l : LaneRx) (short locked : Bool) (lead : Nat) (bad : Bool) : LaneRx :=
  let at_ := l.place short locked lead
  { l with seen := (⟨lead, at_, bad⟩ :: l.seen).take 72, pos := (at_ + 1) % sideWords short }

/-- Lock is gained (R80): the last 64 with a valid SYNC and 0b10 every ninth, or the last 8 decoded with POS running. -/
def LaneRx.gains (l : LaneRx) (short : Bool) : Bool :=
  if short then
    let w := l.seen.take 64
    w.length == 64 && w.all (fun j => j.lead == 1 || j.lead == 2) &&
      (List.range 9).any (fun r => (w.zipIdx.all (fun e => (e.1.lead == 2) == (e.2 % 9 == r))))
  else
    let w := l.seen.take 8
    w.length == 8 && w.all (fun j => !j.bad && j.lead < 3) &&
      (w.zip (w.drop 1)).all (fun e => e.1.lead == (e.2.lead + 1) % 3)

/-- Lock is lost (R80). -/
def LaneRx.loses (l : LaneRx) (short : Bool) : Bool :=
  if short then
    8 ≤ ((l.seen.take 16).filter (fun j => j.lead == 0 || j.lead == 3)).length ||
      (match l.seen.filter (fun j => j.lead == 2) with
       | a :: b :: _ => a.due != 0 && b.due != 0
       | _ => false)
  else
    4 ≤ ((l.seen.take 8).filter (·.bad)).length ||
      (match l.seen with
       | a :: b :: _ => a.lead != a.due && b.lead != b.due
       | _ => false)

/-- The receiver of one lane. -/
def PortRx.lane (r : PortRx) (lane : Nat) : LaneRx := if lane = 0 then r.lane0 else r.lane1

/-- The receiver of one lane replaced. -/
def PortRx.setLane (r : PortRx) (lane : Nat) (l : LaneRx) : PortRx := if lane = 0 then { r with lane0 := l } else { r with lane1 := l }

/-- A lane's lock after what it saw (R80). -/
def Hub.relockLane (h : Hub) (p lane : Nat) : Hub :=
  let short := (h.port p).rxShort
  let l := (h.port p).rx.lane lane
  if h.locked p lane then (if l.loses short then h.lockLost p lane else h)
  else if l.gains short then h.lockGained p lane else h

/-- A run of codewords that a lane saw, oldest first, and what it does to the lane's lock (R80). -/
def Hub.laneSaw (h : Hub) (p lane : Nat) (seen : List Seen) : Hub :=
  let short := (h.port p).rxShort
  let on := h.locked p lane
  let l := seen.foldl (fun (l : LaneRx) w => l.judge short on w.lead w.bad) ((h.port p).rx.lane lane)
  (h.modRx p (fun r => r.setLane lane l)).relockLane p lane

/-- Signal loss for 1 ms in HELD (R85). -/
def Hub.heldLoss (h : Hub) (p : Nat) : Hub := if h.lnState p = .held then (h.advance (ms 1)).toDetect p else h

/-- GOING_DOWN is sent for 1 µs in every side frame, where the port is UP or HELD (R84, R85). -/
def Hub.goingDown (h : Hub) (p : Nat) (resting : Bool) : Hub :=
  let q := h.port p
  if q.state = .up || q.state = .held then
    ((h.modPort p (fun q => { q with leaving := true })).sendStatuses p resting
      (ceilDiv 100000 (sideTime q.rxMode q.rxShort))).advance 1000
  else h

/-- LN_ENABLE written (R85): 1 starts DETECT from DISABLED and ends silent DETECT (R495), 0 powers the port down; ignored for a head's L0
(R21). -/
def Hub.lnEnable (h : Hub) (p v : Nat) : Hub :=
  let h := h.pset P.LN_ENABLE p v
  if h.portAbsent p then h
  else if v = 1 then
    match h.lnState p with
    | .disabled => h.toDetect p
    | .detect => if (h.port p).train.silent then h.toDetect p else h
    | _ => h
  else if h.lnState p = .disabled then h
  else (((if h.portUp p then h.goingDown p false else h).linkDown p 7).enter p .disabled).modTrain p (fun t =>
    { t.forget with hold := 0, partner := none })

/-- LN_RETRAIN written with 1 (R85, R86, R495): failed marks clear; UP and HELD go to DETECT, silent DETECT ends. -/
def Hub.lnRetrain (h : Hub) (p : Nat) : Hub :=
  if h.portAbsent p then h
  else
    let h := h.modTrain p (fun t => { t with failed := [] })
    match h.lnState p with
    | .up => ((h.goingDown p false).linkDown p 6).toDetect p
    | .held => (h.goingDown p false).toDetect p
    | .detect => if (h.port p).train.silent then h.toDetect p else h
    | _ => h

/-- A side frame that waits at a port is taken by its command. -/
def Hub.takeSide (h : Hub) (p type : Nat) (payload : List Byte) : Hub :=
  h.modRx p (fun r => { r with frames := r.frames.erase (sideFrame type payload) })

/-- A side frame with a failed SFCRC or a reserved TYPE, or a DETOUR_CTRL on a line port (R199), is discarded and counted (R83); it ends a run
of good TRAIN frames (R85).  A head's L0 is ignored (R21). -/
def Hub.sideBad (h : Hub) (p frame : Nat) : Hub :=
  let h := h.modRx p (fun r => { r with frames := r.frames.erase frame })
  if h.portAbsent p || (sideGood frame && !(sideType frame = 8 && p < 2)) then h
  else (h.bump P.LN_SIDE_ERR p).modTrain p (fun t => { t with goodRun := 0 })

/-- A good TRAIN frame (R83): identity, capabilities and phase of the partner. -/
def Hub.trainFrame (h : Hub) (p : Nat) (f : List Byte) : Hub :=
  let b := byteAt f
  let i : TrainInfo := ⟨b 0, be f 1 2 % 4096, bits (b 3) 4 4, bits (b 3) 2 2, bits (b 4) 4 4, bits (b 4) 0 4, bit (b 5) 7, bit (b 5) 6,
    bit (b 5) 5, bit (b 5) 4, be f 6 2, b 8⟩
  let h := h.takeSide p 1 f
  if h.portAbsent p || h.lnState p = .disabled || h.lnState p = .quiet then h
  else (h.modTrain p (fun t => { t with partner := some i, goodRun := t.goodRun + 1, lastGood := h.clk.up })).measureEnd p

/-- A STATUS frame (R83, R93, R94): DARN_ON, and two in a row with RX_DOWN or GOING_DOWN take an UP port down. -/
def Hub.statusFrame (h : Hub) (p : Nat) (f : List Byte) : Hub :=
  let h := h.takeSide p 2 f
  if !h.portUp p then h
  else
    let fl := byteAt f 0
    let bad := bit fl 7 || bit fl 6
    let resting := bit fl 4
    let run := if bad then (h.port p).rx.badRun + 1 else 0
    let h := h.modRx p (fun r => { r with darnOn := bit fl 5, badRun := run, resting := resting })
    let h := if bit fl 5 then h else (h.modDarn p (fun d => { d with stored := [] })).putFlits p []
    if 2 ≤ run then h.portDown p (if bit fl 6 then 3 else 2) resting else h

/-! ## Received blocks (R77 to R79, R98) -/

/-- The cell that a run of flits spells: header of the first, payload behind it; none when a payload flit is damaged (held as []) or
CRC-32C fails (R106). -/
def cellOf (fs : List (List Byte)) : Option Cell :=
  match fs with
  | [] => none
  | f :: rest =>
    let hd := headerOf f
    if hd.len = 0 then some hd.cell
    else if rest.any (·.isEmpty) then none
    else
      let bs := rest.flatten
      let pay := bs.take hd.len
      if be bs (bs.length - 4) 4 = crc32c pay then some { hd.cell with payload := pay } else none

/-- Flits of the cell a header begins (R105). -/
def headerFlits (f : List Byte) : Nat :=
  let n := (headerOf f).len
  if n = 0 then 1 else flitsFor n

/-- What the receiver has found while it reads the flits of one block. -/
structure Scan where
  delin : Delin
  /-- Cells that checked, with the number of their last flit. -/
  cells : List (Nat × Cell)
  hunts : Nat
  /-- Cells whose CRC-32C failed or that held a damaged flit: the number of the header flit. -/
  badCrc : List Nat
  badHeader : Bool
deriving DecidableEq, Repr

/-- One flit with its number; `ok`: its codeword decoded (R79). -/
def Scan.step (s : Scan) (num : Nat) (ok : Bool) (f : List Byte) : Scan :=
  let d := s.delin
  let finish (part : List (List Byte)) (head : Nat) : Scan :=
    match cellOf part with
    | some c => { s with delin := ⟨[], false, head⟩, cells := s.cells ++ [(num, c)] }
    | none => { s with delin := ⟨[], false, head⟩, badCrc := s.badCrc ++ [head] }
  let begin : Scan :=
    if headerFlits f = 1 then finish [f] num else { s with delin := ⟨[f], false, num⟩ }
  match d.part with
  | [] =>
    if ok && byteAt f 0 = 0xFF && !d.hunting then s
    else if ok && headerGood f then begin
    else if d.hunting then s
    else { s with delin := ⟨[], true, num⟩, hunts := s.hunts + 1, badHeader := true }
  | hd :: _ =>
    let part := d.part ++ [if ok then f else []]
    if part.length = headerFlits hd then finish part d.head else { s with delin := ⟨part, false, d.head⟩ }

/-- A received block (R77): the verdicts on the codewords that hold it, whether one of them is uncorrectable with an invalid SYNC or POS, whether
the block is a numbered one (R95), and its eight flits. -/
structure Block where
  lane0    : Decoded
  lane1    : Decoded
  leadBad  : Bool
  numbered : Bool
  flits    : List (List Byte)
deriving DecidableEq, Repr

/-- The lane of flit i of a block decoded (R77). -/
def blockFlitOk (b : Block) (i : Nat) : Bool := (if i < 4 then b.lane0 else b.lane1) != .uncorrectable

/-- The eight flits of a block read from a delineation; `base` numbers its first flit. -/
def scanBlock (d : Delin) (b : Block) (base : Nat) : Scan :=
  (List.range 8).foldl (fun s i => s.step (base + i) (blockFlitOk b i) (nth b.flits i [])) ⟨d, [], 0, [], false⟩

/-- The link-local cells that were found. -/
def Scan.locals (s : Scan) : List Cell := (s.cells.map (·.2)).filter (fun c => c.kind == 6)

/-- A block that is not taken in order, read for its link-local cells (R97): the delineation goes on from the block before, and starts
anew at a link-local header in flit 0, where a DARN_REPLAY stands (R99). -/
def strayBlock (d : Delin) (b : Block) : Scan :=
  let f := nth b.flits 0 []
  let at0 := blockFlitOk b 0 && headerGood f && (headerOf f).cell.kind == 6
  scanBlock (if at0 then ⟨[], false, 0⟩ else d) b 0

/-- With Darn on (R79, R98): the flits in order up to the first that does not decode or check, then a hunt for link-local cells alone. -/
structure DarnScan where
  good  : Scan
  stray : Scan
  /-- A flit of a codeword that was uncorrectable stands where the good run ends. -/
  undec : Bool
deriving DecidableEq, Repr

/-- The good run has ended. -/
def DarnScan.failed (s : DarnScan) : Bool := s.undec || s.good.badHeader || !s.good.badCrc.isEmpty

/-- One flit with Darn on. -/
def DarnScan.step (s : DarnScan) (num : Nat) (ok : Bool) (f : List Byte) : DarnScan :=
  if s.failed then { s with stray := s.stray.step num ok f }
  else if !ok then { s with undec := true }
  else { s with good := s.good.step num true f }

/-- A block with Darn on. -/
def darnScan (d : Delin) (b : Block) (base : Nat) : DarnScan :=
  (List.range 8).foldl (fun s i => s.step (base + i) (blockFlitOk b i) (nth b.flits i []))
    ⟨⟨d, [], 0, [], false⟩, ⟨⟨[], true, 0⟩, [], 0, [], false⟩, false⟩

/-- Flit 0 of the block is a DARN_REPLAY (R99). -/
def Block.isReplay (b : Block) : Bool :=
  blockFlitOk b 0 && headerGood (nth b.flits 0 []) && (headerOf (nth b.flits 0 [])).cell.kind == 6 && byteAt (nth b.flits 1 []) 0 == 3

/-- Codeword counters of one lane (R100's group). -/
def Hub.countLane (h : Hub) (p lane : Nat) (v : Decoded) (syncBad : Bool) : Hub :=
  let i := 2 * p + lane
  let h := match v with
    | .clean => h
    | .corrected => h.bump P.LN_CW_CORRECTED i
    | .uncorrectable => h.bump P.LN_CW_UNCORR i
  if syncBad then h.bump P.LN_SYNC_ERR i else h

/-- A DARN_NAK for the next block (R96, R98). -/
def Hub.sendNak (h : Hub) (p : Nat) : Hub :=
  let r := (h.port p).rx
  let h := (h.bump P.LN_DARN_NAK_TX p).modRx p (fun r => { r with nakAt := some h.clk.up })
  h.sendLinkLocal p ([2#8, byte r.nakReason] ++ beBytes 2 (r.next % 65536) ++ beBytes 4 0)

/-- A DARN_ACK for the last good block of the unbroken run (R96, R98). -/
def Hub.sendAck (h : Hub) (p : Nat) : Hub :=
  let r := (h.port p).rx
  if r.next = 0 then h
  else
    let h := h.modRx p (fun r => { r with sinceAck := 0 })
    h.sendLinkLocal p ([1#8, 0#8] ++ beBytes 2 ((r.next - 1) % 65536) ++ beBytes 4 0)

/-- Checked cells wait at the port for the command that takes each. -/
def Hub.takeCells (h : Hub) (p : Nat) (cs : List Cell) : Hub := h.modRx p (fun r => { r with cells := r.cells ++ cs })

/-- A block that Darn does not take in order: its link-local cells are acted on (R97). -/
def Hub.discardBlock (h : Hub) (p : Nat) (b : Block) : Hub :=
  let s := strayBlock (h.port p).rx.stray b
  (h.takeCells p s.locals).modRx p (fun r => { r with stray := s.delin })

/-- A numbered block with Darn on (R98).  A block is judged as it arrives: one whose last cell is still open counts as good until that
cell's CRC-32C fails (log 152). -/
def Hub.darnBlock (h : Hub) (p : Nat) (b : Block) : Hub :=
  let r := (h.port p).rx
  if r.nakAt.isSome then h.discardBlock p b
  else
    let n := r.next
    let d := darnScan r.delin b (8 * n)
    let s := d.good
    let starts := (r.starts ++ [(n, r.delin)]).drop (r.starts.length + 1 - 4)
    let new := s.cells.filter (fun c => r.delivered < c.1 + 1)
    let h := (h.takeCells p (new.map (·.2) ++ d.stray.locals)).bumpBy P.LN_CRC_ERR p s.badCrc.length
    let h := h.modRx p (fun r => { r with starts := starts, delivered := new.foldl (fun m c => max m (c.1 + 1)) r.delivered })
    if d.failed then
      let whole := d.undec || s.badHeader
      let first := if whole then n else (s.badCrc.map (· / 8)).foldl min n
      let reason := if d.undec then (if b.leadBad then 3 else 0) else if s.badHeader then 1 else 2
      (h.modRx p (fun r => { r with next := first, nakReason := reason, stray := d.stray.delin })).sendNak p
    else
      let h := h.modRx p (fun r => { r with next := n + 1, delin := s.delin, sinceAck := r.sinceAck + 1 })
      if h.pget P.LN_DARN_ACK_INTERVAL p ≤ (h.port p).rx.sinceAck then h.sendAck p else h

/-- A block without Darn (R79, R94): damaged cells are counted and gone; each hunt adds one to LN_HCRC_ERR, for the cells lost while it
lasted cannot be told apart (log 109). -/
def Hub.plainBlock (h : Hub) (p : Nat) (b : Block) : Hub :=
  let r := (h.port p).rx
  let s := scanBlock r.delin b (8 * r.next)
  let h := (h.bumpBy P.LN_HUNT p s.hunts).bumpBy P.LN_HCRC_ERR p s.hunts
  let h := h.bumpBy P.LN_CRC_ERR p s.badCrc.length
  (h.takeCells p (s.cells.map (·.2))).modRx p (fun r => { r with delin := s.delin, next := r.next + 1 })


/-- A checked cell is taken from those waiting at its port, if it is there. -/
def Hub.takeCell (h : Hub) (p : Nat) (c : Cell) : Hub := h.modRx p (fun r => { r with cells := r.cells.erase c })

/-- Credit and Darn messages of the last form that waits at a port are taken as their command handles them. -/
def Hub.takeLocal (h : Hub) (p sub : Nat) : Hub :=
  match (h.port p).rx.cells.find? (fun c => c.kind == 6 && byteAt c.payload 0 == sub) with
  | some c => h.takeCell p c
  | none => h

/-- A link-local cell is well formed (R96, R155); a REASON that the table does not list is taken as malformed (log 110). -/
def localGood (c : Cell) : Bool :=
  let b := byteAt c.payload
  let sub := b 0
  c.dest = 0xFFE && c.tid = 0 && c.seq = 0 && c.cls = 0 && c.payload.length = 8 &&
    (if sub = 0x12 || sub = 0x13 then be c.payload 1 3 = 0
     else if sub = 2 then b 1 ≤ 3 && be c.payload 4 4 = 0
     else (sub = 1 || sub = 3) && b 1 = 0 && be c.payload 4 4 = 0)

/-- A DARN_REPLAY for the block the receiver waits for (R98 rule 3): acceptance restarts with delineation restored. -/
def Hub.darnReplay (h : Hub) (p seq : Nat) : Hub :=
  let h := h.takeLocal p 3
  let r := (h.port p).rx
  if r.nakAt.isSome && r.next % 65536 = seq % 65536 then
    let d := match r.starts.find? (fun s => s.1 == r.next) with | some s => s.2 | none => ⟨[], false, 8 * r.next⟩
    h.modRx p (fun r => { r with nakAt := none, delin := d, stray := ⟨[], true, 0⟩, starts := r.starts.filter (fun s => s.1 < r.next) })
  else h

/-- A REPLAY block of a codeword pair with more blocks behind it acts as it comes (R98 rule 3): the blocks behind it in the pair are n,
n + 1 and so on. -/
def Hub.replayBlock (h : Hub) (p : Nat) (b : Block) : Hub :=
  match cellOf ((b.flits.take 2)) with
  | some c => if localGood c then h.darnReplay p (be c.payload 2 2) else h
  | none => h

/-- A block received in UP (R77, R98). -/
def Hub.blockIn (h : Hub) (p : Nat) (b : Block) : Hub :=
  if !h.portUp p then h
  else if !h.darnOn p then h.plainBlock p b
  else if b.numbered && !b.isReplay then h.darnBlock p b
  else if b.isReplay && 1 < wordBlocks (h.port p).rxShort then (h.discardBlock p b).replayBlock p b
  else h.discardBlock p b

/-- A codeword of one lane, in the order its symbols came: descrambled, decoded, judged and counted (R73 to R76, R80). -/
def Hub.laneWord (h : Hub) (p lane : Nat) (w : Nat) : Hub × LaneWord :=
  let q := h.port p
  let short := q.rxShort
  let on := h.locked p lane
  let l := q.rx.lane lane
  let at_ := l.place short on (w / 2 ^ (wordBits short - 2))
  let u := scramble short (if at_ = 0 then scrSeed lane else l.reg) w
  let d := decodeWord short u.2
  let h := h.modRx p (fun r => r.setLane lane { (l.judge short on d.lead (d.verdict == .uncorrectable)) with reg := u.1 })
  let bad := d.verdict == .uncorrectable
  let h := if on then
      (h.countLane p lane d.verdict (if short then d.lead == 0 || d.lead == 3 else d.lead == 3)).modRx p (fun r =>
        { r with uncorrAt := r.uncorrAt.filter (fun t => h.clk.up < t + ms 1) ++ (if bad then [h.clk.up] else []) })
    else h
  (h, d)

/-- The side bits of a codeword pair, with lane 0 at place `pos` (R81): a whole side frame waits for its command; an IDLE frame says
nothing. -/
def Hub.sideIn (h : Hub) (p pos upper lower : Nat) : Hub :=
  let short := (h.port p).rxShort
  h.modRx p (fun r =>
    let r := if pos = 0 then { r with side := 0, sideN := 0 } else r
    let f := sideAppend short r.side upper lower
    let n := r.sideN + 1
    if n < sideWords short then { r with side := f, sideN := n }
    else { r with side := 0, sideN := 0, frames := if sideGood f && sideType f = 0 then r.frames else r.frames ++ [f] })

/-- The codeword of logical lane `lane` from the levels at the pins, with inversion and exchange of the lanes undone (R69): bits 0 and 1 of
the map are the inversion of lanes 0 and 1, bit 2 their exchange. -/
def pinWord (w : Words) (pam : Bool) (map lane : Nat) : Nat :=
  let ls := if (lane = 0) == bit map 2 then w.lane1 else w.lane0
  bitsOf pam (if bit map lane then ls.map (fun l => -l) else ls)

/-- A codeword is the first of a side frame of its lane (R73, R76): SYNC 0b10, and it decodes behind the lane's seed. -/
def frameStart (lane w : Nat) : Bool :=
  w / 2 ^ 542 == 2 && (decodeWord true (scramble true (scrSeed lane) w).2).verdict != .uncorrectable

/-- What the receiver detects of inversion and exchange during IDENT (R69): the map that makes a codeword pair the first of a side frame on
both lanes, if one does (log 161). -/
def detectMap (w : Words) : Option Nat := (List.range 8).find? (fun m => frameStart 0 (pinWord w false m 0) && frameStart 1 (pinWord w false m 1))

/-- LN_LANE_MAP of a port as a codeword pair finds it. -/
def Port.mapFor (q : Port) (w : Words) : Nat := if q.state = .ident then (detectMap w).getD q.train.laneMap else q.train.laneMap

/-- A codeword pair arrives (R68, R69, R73 to R81): inversion and exchange of the lanes are detected in IDENT and undone, each lane is read,
its lock judged, and in UP the blocks are taken.  Levels of another length than a codeword's are none; a port that is DISABLED or QUIET has
no receiver, nor has a head's L0 (R21). -/
def Hub.blockRx (h : Hub) (p : Nat) (w : Words) : Hub :=
  let q := h.port p
  let short := q.rxShort
  let pam := isPam4 q.rxMode
  let n := wordBits short / (if pam then 2 else 1)
  if h.portAbsent p || q.state = .disabled || q.state = .quiet || w.lane0.length ≠ n || w.lane1.length ≠ n then h
  else
    let map := q.mapFor w
    let h := h.modTrain p (fun t => { t with laneMap := map })
    let w0 := pinWord w pam map 0
    let w1 := pinWord w pam map 1
    let at_ := q.rx.lane0.place short (h.locked p 0) (w0 / 2 ^ (wordBits short - 2))
    let a := h.laneWord p 0 w0
    let b := a.1.laneWord p 1 w1
    let h := ((b.1.sideIn p at_ a.2.side b.2.side).relockLane p 0).relockLane p 1
    let leadBad (d : LaneWord) : Bool := d.verdict == .uncorrectable && (d.lead == 3 || (short && d.lead == 0))
    (List.range (wordBlocks short)).foldl (fun h k => h.blockIn p
      ⟨a.2.verdict, b.2.verdict, leadBad a.2 || leadBad b.2, !(nth w.stall k false),
       (a.2.flits.drop (4 * k)).take 4 ++ (b.2.flits.drop (4 * k)).take 4⟩) h

/-! ## Darn messages (R96, R99) -/

/-- The block in progress is finished (R99 rule 2), at a cell boundary with idle flits (R78). -/
def Hub.finishBlock (h : Hub) (p : Nat) : Hub :=
  let n := (h.port p).darn.fill.length
  if n = 0 || h.darnFull p then h else h.putFlits p (List.replicate (8 - n % 8) .idle)

/-- The DARN_REPLAY message: its block is not numbered, so nothing enters the replay memory (R95, R96). -/
def Hub.sendReplay (h : Hub) (p n : Nat) : Hub :=
  let c := h.localCell ([3#8, 0#8] ++ beBytes 2 (n % 65536) ++ beBytes 4 0)
  (((h.out (.cell p c)).unnumbered p ((flitsOf c).map Flit.own))).portEv p 18 1

/-- A stored block leaves again (R99). -/
def Hub.resend (h : Hub) (p : Nat) (b : Nat × List Flit) : Hub := (h.out (.block p (some (b.1 % 65536)))).sendBlock p b.2

/-- Behind the block in progress, blocks n onwards are sent again after a DARN_REPLAY block, unless LN_DARN_MAX_REPLAY replays from n had no
effect (R99). -/
def Hub.replay (h : Hub) (p n : Nat) : Hub :=
  let d := (h.port p).darn
  let again := 0 < d.row && d.rowFrom = n
  if again && h.pget P.LN_DARN_MAX_REPLAY p ≤ d.row then
    ((h.bump P.LN_DARN_EXHAUST p).event .darnExhausted [(0, 1, p), (2, 2, n % 65536)]).portDown p 4 false
  else
    let h := (h.bump P.LN_DARN_REPLAY p).finishBlock p
    let h := h.modDarn p (fun d => { d with row := if again then d.row + 1 else 1, rowFrom := n, oldAt := h.clk.up })
    let h := h.sendReplay p n
    let bs := (h.port p).darn.stored.filter (fun b => n ≤ b.1)
    (bs.foldl (fun h b => h.resend p b) h).portEv p 19 bs.length

/-- Stored blocks before n are freed (R99 rules 1 and 2): LN_DARN_TIMEOUT of the block that is then the oldest runs from here (log 153), and
an acknowledgement past the block of a run of replays ends the run. -/
def Hub.freeBlocks (h : Hub) (p n : Nat) : Hub :=
  h.modDarn p (fun d =>
    let rest := d.stored.filter (fun b => n ≤ b.1)
    { d with stored := rest, oldAt := if rest.length = d.stored.length then d.oldAt else h.clk.up,
             row := if d.rowFrom < n then 0 else d.row })

/-- A DARN_ACK (R99 rule 1). -/
def Hub.darnAck (h : Hub) (p seq : Nat) : Hub :=
  let h := h.takeLocal p 1
  match (h.port p).darn.stored.find? (fun b => b.1 % 65536 == seq % 65536) with
  | some b => (h.freeBlocks p (b.1 + 1)).putFlits p []
  | none => h

/-- A DARN_NAK (R99 rules 2 and 3). -/
def Hub.darnNak (h : Hub) (p seq : Nat) : Hub :=
  let h := h.takeLocal p 2
  if !h.portUp p then h
  else
    let d := (h.port p).darn
    match d.stored.find? (fun b => b.1 % 65536 == seq % 65536) with
    | some b => (((h.bump P.LN_DARN_NAK_RX p).freeBlocks p b.1).replay p b.1).putFlits p []
    | none => if seqDist seq d.next < 32768 then h.portDown p 5 false else h

/-- LN_DARN_TIMEOUT without a DARN_REPLAY (R98 rule 5). -/
def Hub.nakRepeat (h : Hub) (p : Nat) : Hub :=
  match (h.port p).rx.nakAt with
  | some t => if h.portUp p then (h.until (t + us (h.pget P.LN_DARN_TIMEOUT p))).sendNak p else h
  | none => h

/-- LN_DARN_TIMEOUT without an acknowledgement of the oldest block (R99 rule 5). -/
def Hub.replayTimeout (h : Hub) (p : Nat) : Hub :=
  let d := (h.port p).darn
  match d.stored with
  | b :: _ => if h.portUp p then (h.until (d.oldAt + us (h.pget P.LN_DARN_TIMEOUT p))).replay p b.1 else h
  | [] => h

/-! ## Credit messages (R156, R158, R160) -/

/-- Credit messages for both classes leave port p (R155, R156). -/
def Hub.creditTx (h : Hub) (p : Nat) : Hub :=
  if !h.portUp p then h
  else [2, 3].foldl (fun h k => h.creditSend p k) h

/-- A credit message (R158): a limit older than the one held is ignored; new credit ends a told stall (R160). -/
def Hub.creditRx (h : Hub) (p cls limit : Nat) : Hub :=
  if !(h.portUp p && (cls = 2 || cls = 3)) then h
  else
    let h := (h.takeLocal p (0x10 + cls)).portEv p 16 1
    let l := limit % 2 ^ 32
    h.modPort p (fun q => q.modCredit cls (fun c =>
      if (l + 2 ^ 32 - c.limit) % 2 ^ 32 < 2 ^ 31 then { c with limit := l, told := c.told && l = c.limit } else c))

/-- The heads of one class that wait for a port's credit, with uptime and line time since which each has. -/
def Hub.creditHeads (h : Hub) (p cls : Nat) : List (Nat × Nat) :=
  (h.served p).flatMap (fun q => (List.range 10).filterMap (fun i => match h.voq i q cls with
    | c :: _ => if h.eligible p c.cell then none else some (c.wait.getD (h.clk.up, h.clk.ns))
    | [] => none))

/-- SW_CREDIT_STALL passes for a head cell without credit (R160): told once until credit arrives. -/
def Hub.creditStall (h : Hub) (p cls : Nat) : Hub :=
  let c := (h.port p).credit cls
  match h.creditHeads p cls with
  | [] => h
  | w :: ws =>
    if !h.portUp p || c.told then h
    else
      let began := ws.foldl (fun b x => if x.1 < b.1 then x else b) w
      let h := h.until (began.1 + ms (h.pget P.SW_CREDIT_STALL 0))
      (h.modPort p (fun q => q.modCredit cls (fun c => { c with told := true }))).event .creditStall
        [(0, 1, p), (1, 1, cls), (2, 8, began.2)]

/-- The cell at the head of a VOQ for a line or twin output, of a class with credit, notes since when it has waited for credit there (R160):
on a port that is UP, a detoured output's on TW. -/
def Hub.noteWaits (h : Hub) : Hub :=
  let mark (e : Nat × List QCell) : Nat × List QCell :=
    let out := e.1 / 4 % 10
    match e.2 with
    | c :: cs =>
      if out < 3 && 2 ≤ e.1 % 4 then
        let s := h.server out
        let w := if h.portUp s && !h.eligible s c.cell then some (c.wait.getD (h.clk.up, h.clk.ns)) else none
        (e.1, { c with wait := w } :: cs)
      else e
    | [] => e
  { h with sw := { h.sw with voq := h.sw.voq.map mark } }

/-! ## Monitoring (R100, R101) and the tail (R92) -/

/-- An eye measurement of a lane (R100). -/
def Hub.margin (h : Hub) (p lane v w : Nat) : Hub :=
  if h.portUp p then h.pset P.LN_MARGIN (2 * p + lane) (v % 256 * 256 + w % 256) else h

/-- A 1 s window of a lane ends (R100, R101). -/
def Hub.degradeWindow (h : Hub) (p lane corrected nbits uncorr : Nat) : Hub :=
  if !h.portUp p then h
  else
    let h := h.pset P.LN_PRE_BER (2 * p + lane) (min corrected 0xFFFFFFFF)
    let nbits := min nbits (laneRate (h.port p).rate)
    let bad := nbits < corrected * 10 ^ h.pget P.LN_DEGRADE_BER p || h.pget P.LN_UNCORR_LIMIT p < uncorr
    let was := if lane = 0 then (h.port p).rx.degraded0 else (h.port p).rx.degraded1
    let h := h.modRx p (fun r => if lane = 0 then { r with degraded0 := bad } else { r with degraded1 := bad })
    if bad && !was then
      let h := h.event .linkDegraded [(0, 1, p), (1, 1, lane), (4, 4, min corrected 0xFFFFFFFF), (8, 4, min uncorr 0xFFFFFFFF)]
      if h.pget P.LN_DEGRADE_ACTION p = 1 then
        (((h.modTrain p (fun t => { t with stored := none })).goingDown p false).portDown p 6 false)
      else h
    else h

/-- LN_TAIL (R92): at a head while L1 is not UP. -/
def Hub.isTail (h : Hub) : Bool := if h.isHead then !h.portUp 1 else h.rl.tail

/-- LN_TAIL_WAIT passes with L0 UP and L1 not (R92). -/
def Hub.tailWait (h : Hub) : Hub :=
  if !h.isHead && h.portUp 0 && !h.portUp 1 && !h.rl.tail then
    let h := h.until ((h.port 0).since + ms (h.pget P.LN_TAIL_WAIT 0))
    ({ h with rl := { h.rl with tail := true } }).event .tailChange [(0, 1, 1)]
  else h

end Sys2Proof.Machine
end

