-- ==== Sys2Proof/Machine/Rail.lean ====
section
/-!
DEFINITION. Rails: detour control and release (R199 to R206, R497), node IDs (R207 to R210), line time (R212 to R221).
-/
namespace Sys2Proof.Machine

/-- The rail part changed. -/
def Hub.modRail (h : Hub) (f : Rail → Rail) : Hub := { h with rl := f h.rl }

/-! ## Detour control -/

/-- FLAGS of the DETOUR_CTRL frame this hub sends (R199). -/
def Hub.detourFlags (h : Hub) : Nat :=
  b2n (h.pget P.RL_DETOUR_ACCEPT 0 = 1 && h.idValid) * 128 + b2n (h.portUp 0) * 64 + b2n (h.portUp 1) * 32 +
    b2n (h.detour 0).active * 16 + b2n (h.detour 1).active * 8

/-- A DETOUR_CTRL frame leaves TW (R199). -/
def Hub.detourCtrlTx (h : Hub) : Hub :=
  if h.portUp 2 then h.sendSide 2 8 (byte h.detourFlags :: List.replicate 11 0#8) else h

/-- A DETOUR_CTRL frame arrives on TW (R199). -/
def Hub.detourCtrlRx (h : Hub) (f : List Byte) : Hub :=
  if h.portUp 2 then h.modRail (fun r => { r with twinFlags := byteAt f 0 }) else h

/-- The detour of port p may be armed (R200). -/
def Hub.detourArms (h : Hub) (p : Nat) : Bool :=
  h.pget P.RL_DETOUR_EN p = 1 && h.idValid && h.portUp 2 && bit h.rl.twinFlags 7 && !h.portAbsent p

/-- TW's alternation between its own VOQs and those of a detoured output starts anew, with its own (R202). -/
def Hub.freshTurns (h : Hub) : Hub := h.modOut 2 (fun o => { o with turn := [] })

/-- Detours follow their conditions (R200, R204, R497): armed and disarmed, active while armed with the port down. -/
def Hub.settleDetour (h : Hub) (p : Nat) : Hub :=
  let arms := h.detourArms p
  let d := h.detour p
  let h :=
    if arms = d.armed then h
    else ((h.modDetour p (fun d => { d with armed := arms })).raise (2 ^ intRail)).event .detourArmed [(0, 1, p), (1, 1, b2n arms)]
  if !arms then h.modDetour p (fun d => { d with active := false, releasing := none })
  else if !h.portUp p && (!d.active || d.told ≠ d.downAt) then
    let at_ := if d.armed then d.downAt else h.clk.ns
    let h := h.modDetour p (fun d =>
      { d with active := true, releasing := none, told := d.downAt, cells := if d.active then d.cells else 0 })
    (((if d.active then h else h.freshTurns).raise (2 ^ intRail))).event .detourActive [(0, 1, p), (8, 8, at_)]
  else h

/-- Every cell queued for an output that cannot send it is dropped (R202). -/
def Hub.purge (h : Hub) (q : Nat) : Hub :=
  if h.portUp q || (q < 2 && (h.detour q).active) then h
  else
    let mine := h.sw.voq.filter (fun e => e.1 / 4 % 10 == q)
    if mine.isEmpty then h
    else
      let h : Hub := { h with sw := { h.sw with voq := h.sw.voq.filter (fun e => e.1 / 4 % 10 != q) } }
      mine.foldl (fun h e => e.2.foldl (fun h c => (h.noRoute (e.1 / 40) c.cell).freed (e.1 / 40) c) h) h

/-- Port p has been UP for RL_DETOUR_RELEASE: TW stops serving its VOQs (R205 step 1). -/
def Hub.releaseStart (h : Hub) (p : Nat) : Hub :=
  let d := h.detour p
  if d.active && d.releasing.isNone && h.portUp p then
    let h := h.until ((h.port p).since + ms (h.pget P.RL_DETOUR_RELEASE 0))
    h.modDetour p (fun d => { d with releasing := some h.clk.up })
  else h

/-- RL_DETOUR_QUIET passes after the last detoured cell left TW, or has passed when the release begins: output p takes its VOQs back (R205
steps 2 and 3). -/
def Hub.quietEnd (h : Hub) (p : Nat) : Hub :=
  let d := h.detour p
  match d.releasing with
  | some t =>
    if d.active && h.portUp p then
      let h := h.until (if d.cells = 0 then t else max t (d.lastAt + us (h.pget P.RL_DETOUR_QUIET 0)))
      let h := h.modDetour p (fun d => { d with active := false, releasing := none })
      (h.raise (2 ^ intRail)).event .detourReleased [(0, 1, p), (4, 8, d.cells)]
    else h
  | none => h

/-! ## Node IDs (R207 to R209) -/

/-- The ID is taken: source 0 L0, 1 TW, 2 fixed. -/
def Hub.takeId (h : Hub) (id src : Nat) : Hub :=
  (h.modRail (fun r => { r with idValid := true, nodeId := id })).event .nodeIdSet [(0, 2, id), (2, 1, src)]

/-- R208: a fixed value, or a conflict when it is out of range. -/
def Hub.fixedId (h : Hub) : Hub :=
  let v := h.pget P.RL_NODE_ID_FIXED 0
  if 1 ≤ v && v ≤ 4094 then h.takeId v 2
  else h.event .nodeIdConflict [(0, 1, 0xFF), (4, 2, v)]

/-- A FIXED hub without an ID takes it when its rail starts (R208): at a reset release, an exit from REST (R383) and a restart of I-CORE. -/
def Hub.rejoin (h : Hub) : Hub := if !h.isHead && !h.rl.idValid && h.pget P.RL_ID_MODE 0 = 1 then h.fixedId else h

/-- R207: the ID by hop count from the L0 partner, else the twin's; a partner at 4,094 leaves the hub without one, told once (R209). -/
def Hub.hopId (h : Hub) : Hub :=
  if h.isHead || h.rl.idValid || h.pget P.RL_ID_MODE 0 ≠ 0 then h
  else
    match (if h.portUp 0 then (h.port 0).time.line else none) with
    | some l =>
      if l.idValid && l.nodeId ≤ 4093 then h.takeId (l.nodeId + 1) 0
      else if l.idValid && l.nodeId = 4094 then
        (if h.rl.overTold then h else (h.modRail (fun r => { r with overTold := true })).event .idOverflow [(0, 2, 4094)])
      else fromTwin (h.modRail (fun r => { r with overTold := false }))
    | none => fromTwin h
where
  /-- Step 2 of R207. -/
  fromTwin (h : Hub) : Hub :=
    match (if h.portUp 2 then (h.port 2).time.line else none) with
    | some l => if l.idValid then h.takeId l.nodeId 1 else h
    | none => h

/-- RL_REENUMERATE (R209). -/
def Hub.reenumerate (h : Hub) : Hub :=
  if h.isHead then h
  else
    let h := h.modRail (fun r => { r with idValid := false, nodeId := 0, overTold := false })
    if h.pget P.RL_ID_MODE 0 = 1 then h.fixedId else h.hopId

/-- The partner's ID on a port contradicts the own ID (R209). -/
def Hub.idConflicts (h : Hub) (p : Nat) (l : LineState) : Bool :=
  l.idValid && h.idValid &&
    (if p = 0 then l.nodeId + 1 != h.ownId else if p = 1 then l.nodeId != h.ownId + 1 else l.nodeId != h.ownId)

/-! ## Line time -/

/-- Line time as a count of 2⁻¹⁶ ns. -/
def Hub.lineFrac (h : Hub) : Int := (h.clk.ns : Int) * 65536 + h.clk.frac

/-- A port offers time (R215). -/
def Hub.offers (h : Hub) (p : Nat) : Bool :=
  match (if h.portUp p then (h.port p).time.line else none) with
  | some l =>
    let good := l.state = 4 || l.state = 2
    if p = 0 then good else p = 2 && good && (l.source = 1 || l.source = 2)
  | none => false

/-- The first offering source in the hub's order (R215), under RL_TIME_SOURCE_MODE. -/
def Hub.pickSource (h : Hub) : Option Nat :=
  let mode := h.pget P.RL_TIME_SOURCE_MODE 0
  let order := if h.isHead then [2] else if h.isTwinB then [2, 0] else [0, 2]
  let order := if mode = 1 then order.filter (· == 0) else if mode = 2 then order.filter (· == 2) else if mode = 3 then [] else order
  order.find? h.offers

/-- The source code of R213: 0 none, 1 MASTER, 2 L0, 3 TW. -/
def sourceCode (p : Nat) : Nat := if p = 0 then 2 else 3

/-- The port of a source code. -/
def sourcePort (c : Nat) : Option Nat := if c = 2 then some 0 else if c = 3 then some 2 else none

/-- The state code of R216. -/
def TimeState.code : TimeState → Nat
  | .free => 0 | .acquire => 1 | .locked => 2 | .holdover => 3 | .master => 4

/-- A value in 2⁻¹⁶ ns as picoseconds. -/
def toPs (v : Int) : Int := v * 1000 / 65536

/-- DEPTH as sent (R213). -/
def Hub.depthFrom (h : Hub) (p : Nat) : Nat :=
  match (h.port p).time.line with
  | some l => min (l.depth + 1) 0xFFFE
  | none => 0xFFFE

/-- The time state or the source changes: TIME_STATE is delivered (R216), and an armed epoch is judged anew when synchronisation is
reached (R185). -/
def Hub.setTime (h : Hub) (ts : TimeState) (src depth tag : Nat) : Hub :=
  if h.rl.ts == ts && h.rl.source == src then h.modRail (fun r => { r with depth := depth, masterTag := tag })
  else
    let was := h.synced
    let h := h.modRail (fun r => { r with ts := ts, source := src, depth := depth, masterTag := tag })
    let h := h.event .timeState [(0, 1, ts.code), (1, 1, src), (8, 8, ofSigned 64 h.rl.offset)]
    if h.synced && !was then h.epochSynced else h

/-- The master tag a partner sends. -/
def Hub.tagFrom (h : Hub) (p : Nat) : Nat := match (h.port p).time.line with | some l => l.tag | none => 0

/-- The low bits of the own device ID, as MASTER_TAG (R213). -/
def ownTag : Nat := deviceNat % 2 ^ 32

/-- TW does not train, as was told, or is held out of service (R24). -/
def Hub.twinLost (h : Hub) : Bool := h.rl.twinOut || h.lnState 2 == .held

/-- The time state follows its sources (R215, R216), apart from what a SYNC decides.  RL_TIME_SOURCE_MODE 3 keeps the hub FREE (log 112);
head twin B that cannot follow its twin runs rail B on its own (R24). -/
def Hub.settleTime (h : Hub) : Hub :=
  if h.pget P.RL_TIME_SOURCE_MODE 0 = 3 then h.setTime .free 0 0xFFFF 0
  else if h.timeMaster then (if h.rl.ts == .master then h else h.setTime .master 1 0 ownTag)
  else
    match h.rl.ts, h.pickSource with
    | .free, none => if h.isHead && h.twinLost then h.setTime .master 1 0 ownTag else h
    | .acquire, none => h.setTime .free 0 0xFFFF 0
    | .acquire, some p =>
      if sourceCode p = h.rl.source then h.setTime .acquire (sourceCode p) (h.depthFrom p) (h.tagFrom p) else h.setTime .free 0 0xFFFF 0
    | .locked, none =>
      let h := h.modRail (fun r => { r with holdAt := h.clk.up })
      h.setTime .holdover 0 h.rl.depth h.rl.masterTag
    | .locked, some p => h.setTime .locked (sourceCode p) (h.depthFrom p) (h.tagFrom p)
    | .holdover, some p => h.setTime .locked (sourceCode p) (h.depthFrom p) (h.tagFrom p)
    | .master, some p => if h.isHead && p = 2 then h.setTime .locked 3 (h.depthFrom 2) (h.tagFrom 2) else h
    | _, _ => h

/-- TW has not come up since it was enabled, in DETECT or DISABLED. -/
def Hub.twinSilent (h : Hub) : Bool := (h.lnState 2 == .detect || h.lnState 2 == .disabled) && !h.rl.twinOut

/-- RL_HOLDOVER_LIMIT passes in HOLDOVER (R216), or for a TW without any signal, which then does not train (R24, log 111). -/
def Hub.holdoverExpire (h : Hub) : Hub :=
  if h.rl.ts == .holdover then
    let h := h.until (h.rl.holdAt + 1000000000 * h.pget P.RL_HOLDOVER_LIMIT 0)
    if h.isHead && h.isTwinB then h.setTime .master 1 0 ownTag else h.setTime .free 0 0xFFFF 0
  else if h.twinSilent then (h.until ((h.port 2).since + 1000000000 * h.pget P.RL_HOLDOVER_LIMIT 0)).twinFails 0
  else h

/-- A boundary that a forward step from o to n (in ns) passes moves to the first after it (R217). -/
def movedBoundary (o n b : Nat) : Nat := if o < b && b ≤ n then boundaryAt n else b

/-- Line time moves by a number of 2⁻¹⁶ ns at once (R217): a step.  What a forward step passes takes effect at the first boundary after it:
an armed epoch, scheduled commits, and the Press instant. -/
def Hub.stepTime (h : Hub) (d : Int) : Hub :=
  let v := (h.lineFrac + d).toNat
  let n := ceilDiv v 65536
  let p := h.ct.press
  let passed := p.running && h.clk.ns < p.start + p.k * us p.period && p.start + p.k * us p.period ≤ v / 65536
  let h : Hub := { h with
    clk := { h.clk with ns := v / 65536, frac := v % 65536 }
    de := { h.de with stepped := h.de.stepped || 0 < d }
    ct := { h.ct with press := { p with stepped := p.stepped || passed } }
    al := { h.al with armed := h.al.armed.map (fun a => { a with boundary := movedBoundary h.clk.ns n a.boundary }) }
    ctl := { h.ctl with txns := h.ctl.txns.map (fun t =>
      { t with sched := t.sched.map (fun x => { x with instant := movedBoundary h.clk.ns n x.instant }) }) } }
  (h.bump P.RL_TIME_STEPS 0).event .timeStep [(0, 8, ofSigned 64 (d / 65536))]

/-- The mean of the link delays held, in 2⁻¹⁶ ns (R214). -/
def PortTime.delay (t : PortTime) : Int := if t.delays.isEmpty then 0 else t.delays.sum / t.delays.length

/-- The time part of port p changed. -/
def Hub.modTime (h : Hub) (p : Nat) (f : PortTime → PortTime) : Hub := h.modPort p (fun q => { q with time := f q.time })

/-- A local pin instant: line time reaches it, and goes back for none (R212). -/
def Hub.atPin (h : Hub) (t frac : Nat) : Hub :=
  let g := h.untilLine t
  { g with clk := { g.clk with frac := if h.clk.ns < t then frac % 65536 else if h.clk.ns = t then max h.clk.frac (frac % 65536) else h.clk.frac } }

/-- 1 µs and 10 ns in 2⁻¹⁶ ns. -/
def oneMicro : Int := 65536000
def tenNano : Int := 655360

/-- A SYNC on the source port (R214, R216): the offset is measured, taken up by frequency (a free value within ±200 ppm) or by a
step above 1 µs. -/
def Hub.syncRx (h : Hub) (p : Nat) (f : List Byte) (t frac : Nat) : Hub :=
  if !h.portUp p then h
  else
    let h := h.atPin t frac
    let q := h.port p
    let asym := h.pgetSigned P.RL_ASYM p * 65536 / 2000
    let o := (be f 0 8 : Int) * 65536 + be f 8 2 + q.time.delay + asym - ((t : Int) * 65536 + frac)
    if h.timeMaster || h.pickSource ≠ some p then h
    else
      let h := h.modRail (fun r => { r with offset := -(toPs o) })
      match h.rl.ts with
      | .free =>
        if h.pget P.RL_TIME_SOURCE_MODE 0 ≠ 3 && 16 ≤ q.time.delays.length then ((h.stepTime o).modRail (fun r => { r with inRun := 0 })).setTime .acquire (sourceCode p) (h.depthFrom p) (h.tagFrom p)
        else h
      | .acquire =>
        if oneMicro < o || o < -oneMicro then (h.stepTime o).modRail (fun r => { r with inRun := 0 })
        else
          let r := h.fresh
          let h := r.2.modRail (fun x => { x with freq := (r.1 % 400001 : Nat) - 200000 })
          let run := if o ≤ tenNano && -tenNano ≤ o then h.rl.inRun + 1 else 0
          let h := h.modRail (fun r => { r with inRun := run })
          if 64 ≤ run then h.setTime .locked (sourceCode p) (h.depthFrom p) (h.tagFrom p) else h
      | .locked =>
        if oneMicro < o || o < -oneMicro then h.stepTime o
        else
          let r := h.fresh
          r.2.modRail (fun x => { x with freq := (r.1 % 400001 : Nat) - 200000 })
      | _ => h

/-- A SYNC leaves port p (R213). -/
def Hub.syncTx (h : Hub) (p t : Nat) : Hub :=
  if !h.portUp p then h
  else
    let h := h.untilLine t
    let q := h.port p
    let valid := h.rl.ts == .master || h.rl.ts == .locked
    (h.modTime p (fun x => { x with syncSeq := (x.syncSeq + 1) % 256 })).sendSide p 4
      (beBytes 8 h.clk.ns ++ beBytes 2 h.clk.frac ++ [byte q.time.syncSeq, byte (128 * b2n valid)])

/-- A DELAY_REQ leaves port p (R213, R214). -/
def Hub.delayReqTx (h : Hub) (p t : Nat) : Hub :=
  if !h.portUp p then h
  else
    let h := h.untilLine t
    let s := ((h.port p).time.reqSeq + 1) % 256
    (h.modTime p (fun x => { x with reqSeq := s, reqAt := some (s, h.clk.ns * 65536 + h.clk.frac) })).sendSide p 5
      (byte s :: List.replicate 11 0#8)

/-- A DELAY_REQ arrives (R213). -/
def Hub.delayReqRx (h : Hub) (p : Nat) (f : List Byte) (t frac : Nat) : Hub :=
  if !h.portUp p then h else (h.atPin t frac).modTime p (fun x => { x with answer := some (byteAt f 0, t * 65536 + frac) })

/-- The DELAY_RESP to the last DELAY_REQ leaves port p with its turnaround (R213). -/
def Hub.delayRespTx (h : Hub) (p t : Nat) : Hub :=
  match (if h.portUp p then (h.port p).time.answer else none) with
  | none => h
  | some (s, rx) =>
    let h := h.untilLine t
    let turn := h.clk.ns * 65536 + h.clk.frac - rx
    (h.modTime p (fun x => { x with answer := none })).sendSide p 6
      ([byte s, 0#8] ++ beBytes 4 (turn / 65536) ++ beBytes 2 (turn % 65536) ++ beBytes 4 0)

/-- A DELAY_RESP arrives (R214): d = ((t6 − t3) − TURN) / 2, over the last 64. -/
def Hub.delayRespRx (h : Hub) (p : Nat) (f : List Byte) (t frac : Nat) : Hub :=
  match (if h.portUp p then (h.port p).time.reqAt else none) with
  | none => h
  | some (s, t3) =>
    if byteAt f 0 ≠ s then h
    else
      let h := h.atPin t frac
      let turn : Int := (be f 2 4 * 65536 + be f 6 2 : Nat)
      let d := (((t * 65536 + frac : Nat) : Int) - t3 - turn) / 2
      h.modTime p (fun x => { x with reqAt := none, delays := (x.delays ++ [d]).drop (x.delays.length + 1 - 64) })

/-- A LINE_STATE frame leaves port p (R213). -/
def Hub.lineStateTx (h : Hub) (p t : Nat) : Hub :=
  if !h.portUp p then h
  else
    let h := h.untilLine t
    h.sendSide p 7 ([byte (b2n h.idValid * 128 + b2n h.isHead * 64 + h.rail * 32)] ++ beBytes 2 h.ownId ++
      [byte (h.rl.ts.code * 16 + h.rl.source)] ++ beBytes 2 h.rl.depth ++ beBytes 4 h.rl.masterTag ++ beBytes 2 0)

/-- A LINE_STATE frame arrives (R207, R209, R215): identity of the partner, its time, and what follows. -/
def Hub.lineStateRx (h : Hub) (p : Nat) (f : List Byte) : Hub :=
  if !h.portUp p then h
  else
    let b := byteAt f
    let l : LineState := ⟨bit (b 0) 7, bit (b 0) 6, b2n (bit (b 0) 5), be f 1 2 % 4096, b 3 / 16, b 3 % 16, be f 4 2, be f 6 4⟩
    let h := h.modTime p (fun x => { x with line := some l })
    if h.idConflicts p l then
      let h := ((h.leaveUp p).enter p .held).modTrain p (fun t => { t with hold := 3 })
      h.event .nodeIdConflict [(0, 1, p), (2, 2, l.nodeId), (4, 2, h.ownId)]
    else h.hopId

/-! ## Pins (R219, R220) -/

/-- PPS_OUT driven. -/
def Hub.setPps (h : Hub) (b : Bool) : Hub :=
  if h.rl.pps = b then h else (h.modRail (fun r => { r with pps := b })).out (.pin "PPS_OUT" b)

/-- A whole second of line time (R219). -/
def Hub.ppsPulse (h : Hub) : Hub :=
  let h := h.untilLine (roundUp (h.clk.ns + 1) 1000000000)
  let mode := h.pget P.RL_PPS_MODE 0
  if mode = 2 || (mode = 1 && h.synced) then h.setPps true else h

/-- RL_PPS_WIDTH after the rise (R219). -/
def Hub.ppsEnd (h : Hub) : Hub :=
  if h.rl.pps then (h.untilLine (h.clk.ns / 1000000000 * 1000000000 + us (h.pget P.RL_PPS_WIDTH 0))).setPps false else h

/-- The captures of an input, and its OVERFLOW. -/
def Rail.tcap (r : Rail) (i : Nat) : List Capture × Bool := if i = 0 then (r.tcap0, r.tcapOver0) else (r.tcap1, r.tcapOver1)

/-- The captures of an input set. -/
def Rail.setTcap (r : Rail) (i : Nat) (l : List Capture) (o : Bool) : Rail :=
  if i = 0 then { r with tcap0 := l, tcapOver0 := o } else { r with tcap1 := l, tcapOver1 := o }

/-- An edge on TCAP0 or TCAP1 (R220). -/
def Hub.tcapEdge (h : Hub) (i : Nat) (rising : Bool) (t : Nat) : Hub :=
  let h := h.untilLine t
  let sel := h.pget P.RL_TCAP_EDGE i
  if !(if rising then bit sel 0 else bit sel 1) then h
  else
    let c := h.rl.tcap i
    h.modRail (fun r => if 16 ≤ c.1.length then r.setTcap i c.1 true else r.setTcap i (c.1 ++ [⟨t, rising⟩]) c.2)

/-- RL_TCAP_READ (R220): the oldest capture is removed and OVERFLOW clears. -/
def Hub.tcapRead (h : Hub) (i : Nat) : Hub := h.modRail (fun r => r.setTcap i ((r.tcap i).1.drop 1) false)

/-- RL_TCAP_STATUS (R220). -/
def Hub.tcapStatus (h : Hub) (i : Nat) : Nat :=
  let c := h.rl.tcap i
  c.1.length + 256 * b2n c.2 + 512 * b2n (match c.1 with | x :: _ => x.rising | [] => false)

end Sys2Proof.Machine
end

