-- ==== Sys2Proof/Machine/Decision.lean ====
section
/-!
DEFINITION. The decision engine (chapter 08): hashes, placement and lookup (R224 to R229), events (R230 to R232), actions (R233 to
R236), GPIO pins and timed actuation (R237 to R240), the key cache (R242), and banks (R243 to R247).
-/
namespace Sys2Proof.Machine

/-- The engine changed. -/
def Hub.modDe (h : Hub) (f : Decision → Decision) : Hub := { h with de := f h.de }

/-- Bank b. -/
def Hub.bank (h : Hub) (b : Nat) : Bank := nth h.de.banks b Bank.reset

/-- Bank b changed. -/
def Hub.modBank (h : Hub) (b : Nat) (f : Bank → Bank) : Hub := h.modDe (fun d => { d with banks := modAt d.banks b f })

/-- Pin n. -/
def Hub.pin (h : Hub) (n : Nat) : Pin := nth h.de.pins n Pin.reset

/-- Pin n changed. -/
def Hub.modPin (h : Hub) (n : Nat) (f : Pin → Pin) : Hub := h.modDe (fun d => { d with pins := modAt d.pins n f })

/-- The memory tunnel area holds [o, o + n) (R275). -/
def Hub.inMemt (h : Hub) (o n : Nat) : Bool := o + n ≤ h.pget P.BR_MEMT_SIZE 0

/-- The DRAM address of an offset in the memory tunnel area. -/
def Hub.memt (h : Hub) (o : Nat) : Nat := h.pget P.BR_MEMT_BASE 0 + o

/-! ## Hashes, placement, lookup -/

/-- H0 of a padded key (R227). -/
def hash0 (k : List Byte) : Nat := crcRun poly32c 0xFFFFFFFF k ^^^ 0xFFFFFFFF

/-- H1 of a padded key (R227). -/
def hash1 (k : List Byte) : Nat := crcRun poly32c 0 k.reverse ^^^ 0xFFFFFFFF

/-- The candidate buckets under an order (R228). -/
def bucketsOf (order : Nat) (k : List Byte) : Nat × Nat :=
  let b0 := hash0 k % 2 ^ order
  let b1 := hash1 k % 2 ^ order
  (b0, if b1 = b0 then b0 ^^^ 1 else b1)

/-- The DRAM address of a bank (R276). -/
def bankBase (b : Nat) : Nat := 0x20000000 * b

/-- The 64 bytes of slot s of a bucket of bank b. -/
def Hub.slotBytes (h : Hub) (b bucket s : Nat) : List Byte := readMem h.dram (bankBase b + bucket * 256 + s * 64) 64

/-- A slot matches a padded key from a source (R229). -/
def slotMatches (e k : List Byte) (source : Nat) : Bool :=
  let mask := byteAt e 57
  bit (byteAt e 56) 7 && e.take 32 == k && (mask == 0 || bit mask source)

/-- A lookup's answer: bucket, whether it is b1, slot, and the entry. -/
structure Found where
  bucket : Nat
  second : Bool
  slot   : Nat
  entry  : List Byte
deriving DecidableEq, Repr

/-- The lookup of R229: slots 0 to 3 of b0, then of b1. -/
def Hub.lookup (h : Hub) (b : Nat) (k : List Byte) (source : Nat) : Option Found :=
  let bs := bucketsOf (h.pget P.DE_BUCKET_ORDER b) k
  ([0, 1, 2, 3, 4, 5, 6, 7].map (fun i =>
    let bk := if i < 4 then bs.1 else bs.2
    (⟨bk, decide (4 ≤ i), i % 4, h.slotBytes b bk (i % 4)⟩ : Found))).find? (fun f => slotMatches f.entry k source)

/-- A hit enters the key cache, or moves to the front of its set (R242): the Bool says whether it was served from the cache.  In a full set it
replaces the least recently used entry; a pinned entry replaces only a pinned one, and there are at most four of these in a set. -/
def Hub.cacheHit (h : Hub) (k : List Byte) (f : Found) : Hub × Bool :=
  let set := hash0 k % 4096
  let ways := mget [] h.de.cache set
  let place := f.bucket * 4 + f.slot
  let pin := bit (byteAt f.entry 56) 6
  let rest := ways.filter (fun w => w.place != place)
  let put (l : List CacheLine) : Hub := h.modDe (fun d => { d with cache := mset [] d.cache set l })
  if ways.any (fun w => w.place == place) then (put (⟨place, pin⟩ :: rest), true)
  else
    let pinned := ways.filter (fun w => w.pin)
    if ways.length < 8 && (!pin || pinned.length < 4) then (put (⟨place, pin⟩ :: ways), false)
    else match (if pin then pinned else ways).getLast? with
      | some w => (put (⟨place, pin⟩ :: ways.filter (fun x => x != w)), false)
      | none => (h, false)

/-! ## Events -/

/-- An event enters its queue (R231), or is dropped. -/
def Hub.pushEvent (h : Hub) (e : DEvent) : Hub :=
  let q := nth h.de.queues e.source []
  if h.pget P.DE_ENABLE 0 = 0 || !h.works 5 || 1024 ≤ q.length then h.bump P.DE_EVENT_DROP e.source
  else h.modDe (fun d => { d with queues := modAt d.queues e.source (· ++ [e]) })

/-! ## Pins -/

/-- The fields of DE_GPIO_CFG (R237). -/
structure PinCfg where
  glitch  : Nat
  idle    : Bool
  hold    : Bool
  report  : Bool
  toDe    : Bool
  falling : Bool
  rising  : Bool
  dir     : Nat
deriving DecidableEq, Repr

/-- The configuration a value stands for. -/
def PinCfg.of (v : Nat) : PinCfg := ⟨bits v 8 8, bit v 7, bit v 6, bit v 5, bit v 4, bit v 3, bit v 2, bits v 0 2⟩

/-- The configuration of pin n. -/
def Hub.pinCfg (h : Hub) (n : Nat) : PinCfg := PinCfg.of (h.pget P.DE_GPIO_CFG n)

/-- I-DEC drives its pins: it is powered and, after a reset, the boot ROM has applied the configuration store to it (R387, R438). -/
def Hub.pinsLive (h : Hub) : Bool := (h.island 5).powered && (h.mg.loaded || h.mg.romHold)

/-- The level pin n drives (R239, R240, R387): none while it is no output; while I-DEC does not drive its pins, the last level of one with HOLD. -/
def Hub.pinDrive (h : Hub) (n : Nat) : Option Bool :=
  let c := h.pinCfg n
  let p := h.pin n
  if c.dir ≠ 2 then none
  else if !h.pinsLive then (if c.hold then p.shown else none)
  else some (c.idle != (p.pulse.isSome || p.active))

/-- Pin n follows its level. -/
def Hub.showPin (h : Hub) (n : Nat) : Hub :=
  let l := h.pinDrive n
  if l = (h.pin n).shown then h else (h.modPin n (fun p => { p with shown := l })).out (.gpio n l)

/-- Every pin follows its level. -/
def Hub.showPins (h : Hub) : Hub := (List.range 32).foldl Hub.showPin h

/-- An actuation event, delivered at most once per second per pin (R248): `told` is the uptime plus one of the last. -/
def Hub.actEvent (h : Hub) (n : Nat) (told : Nat) (mark : Nat → Pin → Pin) (e : Ev) (args : List (Nat × Nat × Nat)) : Hub :=
  if told = 0 || told - 1 + ms 1000 ≤ h.clk.up then (h.modPin n (mark (h.clk.up + 1))).event e args else h

/-- A command dropped (R239, R240): 0 not output, 1 queue full, 2 beyond range, 3 power state. -/
def Hub.actDrop (h : Hub) (n cause : Nat) : Hub :=
  (h.bump P.DE_ACT_DROP n).actEvent n (h.pin n).dropped (fun t p => { p with dropped := t }) .actuateDropped [(0, 1, n), (1, 1, cause)]

/-- A command executes on pin n at line time `at_` (R239). -/
def Hub.actRun (h : Hub) (n : Nat) (c : PinCmd) (at_ : Nat) : Hub :=
  let stop := at_ + 1000 * c.width
  let h := h.modPin n (fun p =>
    if c.mode = 0 then { p with pulse := some (match p.pulse with | some e => max e stop | none => stop) }
    else { p with active := c.mode = 1 })
  (h.bump P.DE_ACT_DONE n).showPin n

/-- A command placed in a queue by due time. -/
def insertCmd (c : PinCmd) : List PinCmd → List PinCmd
  | [] => [c]
  | d :: ds => if c.due < d.due then c :: d :: ds else d :: insertCmd c ds

/-- A command is armed on pin n (R239, R240). -/
def Hub.arm (h : Hub) (n : Nat) (c : PinCmd) : Hub :=
  let t := h.clk.ns
  let late := t - c.due
  if (h.pinCfg n).dir ≠ 2 then h.actDrop n 0
  else if c.due < t then
    if late ≤ us (h.pget P.DE_LATE_GRACE 0) then
      (((h.actRun n c t).bump P.DE_ACT_LATE n)).actEvent n (h.pin n).late (fun t p => { p with late := t }) .actuateLate [(0, 1, n), (8, 8, late)]
    else
      (h.bump P.DE_ACT_EXPIRED n).actEvent n (h.pin n).expired (fun t p => { p with expired := t }) .actuateExpired [(0, 1, n), (8, 8, late)]
  else if 2 ^ 40 < c.due - t then h.actDrop n 2
  else if 16 ≤ (h.pin n).queue.length then h.actDrop n 1
  else h.modPin n (fun p => { p with queue := insertCmd c p.queue })

/-- The first armed command of pin n reaches its due time. -/
def Hub.actDue (h : Hub) (n : Nat) : Hub :=
  match (h.pin n).queue with
  | [] => h
  | c :: cs => ((h.untilLine c.due).modPin n (fun p => { p with queue := cs })).actRun n c c.due

/-- The latest pulse of pin n ends. -/
def Hub.pulseEnd (h : Hub) (n : Nat) : Hub :=
  match (h.pin n).pulse with
  | none => h
  | some e => ((h.untilLine e).modPin n (fun p => { p with pulse := none })).showPin n

/-- Armed commands whose due time a forward step passed execute at once and count as late (R240). -/
def Hub.afterStep (h : Hub) : Hub :=
  if !h.de.stepped then h
  else
    (List.range 32).foldl (fun h n =>
      let q := (h.pin n).queue
      let passed := q.takeWhile (fun c => c.due < h.clk.ns)
      if passed.isEmpty then h
      else passed.foldl (fun h c => (h.actRun n c h.clk.ns).bump P.DE_ACT_LATE n) (h.modPin n (fun p => { p with queue := q.drop passed.length })))
      (h.modDe (fun d => { d with stepped := false }))

/-- Entry into DOZE or REST discards every armed command (R240).  A pulse that is running ends with them, uncounted because it has executed
(log 125); a pin with HOLD keeps the level it shows. -/
def Hub.dropArmed (h : Hub) : Hub :=
  (List.range 32).foldl (fun h n =>
    let h := (h.pin n).queue.foldl (fun h _ => h.actDrop n 3) (h.modPin n (fun p => { p with queue := [], pulse := none }))
    if (h.pinCfg n).hold then h else h.showPin n) h

/-! ## Frames the engine sends -/

/-- A frame of an action leaves by tunnel entry i, when that is a valid sending entry of the type (R233); else the action counts as an
error. -/
def Hub.deSend (h : Hub) (i type : Nat) (bytes : List Byte) : Hub :=
  let e := h.tun i
  if i < 1024 && e.valid && e.dir.sends && e.type = type then h.frameSend 7 i false bytes bytes.length else h.bump P.DE_ACTION_ERR 0

/-- A DECISION frame (R232). -/
def decisionFrame (sub flags : Nat) (e : DEvent) (chain tag : Nat) (literal key : List Byte) : List Byte :=
  [byte sub, byte flags, byte key.length, byte e.origin] ++ beBytes 2 e.node ++ [byte chain, 0#8] ++ beBytes 8 e.time ++ beBytes 4 tag ++
    beBytes 4 0 ++ fit 8 literal ++ key

/-- A GPIO frame (R238). -/
def gpioFrame (sub pin mode width time : Nat) : List Byte :=
  [byte sub, byte pin, byte mode, 0#8] ++ beBytes 4 width ++ beBytes 8 time

/-- FORWARD_EVENT (R235); with no tunnel set nothing is sent.  CHAIN stops at 15, as its field does. -/
def Hub.forwardEvent (h : Hub) (e : DEvent) (miss : Bool) (tag reason : Nat) : Hub :=
  let i := h.pget P.DE_FWD_TUNNEL 0
  if i = 0xFFFF then h
  else h.deSend i tDecision (decisionFrame 2 (b2n miss) e (min 15 (e.chain + 1)) tag [byte reason] e.key)

/-- One action of a hit (R226, R233 to R236); `tag` is the entry's. -/
def Hub.action (h : Hub) (e : DEvent) (a : List Byte) (tag : Nat) : Hub :=
  let op := byteAt a 0
  if op = 1 then
    if e.chain = 15 then h.bump P.DE_CHAIN_STOP 0
    else
      let lit := byteAt a 1 % 2 == 1
      let l := slice a 4 8
      h.deSend (le a 2 2) tDecision (decisionFrame 1 (if lit then 2 else 0) e (e.chain + 1) tag l (if lit then l else e.key))
  else if op = 2 then
    let n := byteAt a 1 % 32
    let mode := bits (byteAt a 1) 5 2
    let due := (e.time + le a 4 5) % 2 ^ 64
    if le a 2 2 = 0xFFFF then h.arm n ⟨due, mode, le a 9 3⟩ else h.deSend (le a 2 2) tGpio (gpioFrame 1 n mode (le a 9 3) due)
  else if op = 3 then h.forwardEvent e false tag (byteAt a 1)
  else if op = 4 then h.bump P.DE_COUNT (le a 2 2)
  else h

/-- The next source to serve in round robin (R231). -/
def Hub.nextSource (h : Hub) : Option Nat :=
  ((List.range 4).map (fun i => (h.de.last + 1 + i) % 4)).find? (fun s => !(nth h.de.queues s []).isEmpty)

/-- The time between two dispatches at the rate cap of the level in force (R191, R231), in ns. -/
def Hub.dispatchGap (h : Hub) : Nat := ceilDiv 1000000 (max 1 (h.govNow h.al.gov.level P.AL_GOV_DE_CAP h.al.gov.level))

/-- One event is dispatched: one lookup in the active bank, then its actions or the miss action (R231, R233, R235). -/
def Hub.dispatch (h : Hub) : Hub :=
  if !h.works 5 then h
  else match h.nextSource with
  | none => h
  | some s =>
    match nth h.de.queues s [] with
    | [] => h
    | e :: rest =>
      let h := if h.de.lastAt = 0 then h else h.until (h.de.lastAt - 1 + h.dispatchGap)
      let h := h.modDe (fun d => { d with queues := modAt d.queues s (fun _ => rest), last := s, lastAt := h.clk.up + 1 })
      let h := h.bump P.DE_LOOKUPS 0
      let k := fit 32 e.key
      match h.de.active.bind (fun b => h.lookup b k e.source) with
      | none =>
        let h := h.bump P.DE_MISS 0
        if h.pget P.DE_MISS_ACTION 0 = 1 then h.forwardEvent e true 0 0 else h
      | some f =>
        let c := (h.bump P.DE_HITS 0).cacheHit k f
        let h := if c.2 then c.1.bump P.DE_CACHE_HITS 0 else c.1
        let tag := le f.entry 60 4
        (h.action e (slice f.entry 32 12) tag).action e (slice f.entry 44 12) tag

/-! ## Frames the engine receives -/

/-- The inbox without a frame. -/
def Hub.takeFrame (h : Hub) (port : Nat) (f : Frame) : Hub := { h with inbox := h.inbox.erase (port, f) }

/-- A DECISION frame is well formed (R232). -/
def decisionGood (b : List Byte) : Bool :=
  let n := byteAt b 2
  (byteAt b 0 == 1 || byteAt b 0 == 2) && byteAt b 1 < 4 && 1 ≤ n && n ≤ 32 && b.length == 32 + n && byteAt b 3 < 4 && byteAt b 4 < 16 &&
    byteAt b 6 < 16 && byteAt b 7 == 0 && be b 20 4 == 0

/-- A FORWARDED frame enters the forward ring (R235). -/
def Hub.ringPut (h : Hub) (b : List Byte) : Hub :=
  let size := h.pget P.DE_FWD_RING_SIZE 0
  let w := h.pget P.DE_FWD_WRITE 0
  let used := (w + 2 ^ 32 - h.pget P.DE_FWD_READ 0) % 2 ^ 32
  if size = 0 then h.bump P.DE_ACTION_ERR 0
  else if used = size then h.bump P.DE_FWD_OVERFLOW 0
  else
    let at_ := h.memt (h.pget P.DE_FWD_RING_BASE 0) + 64 * (w % size)
    let h : Hub := { h with dram := writeMem h.dram at_ (fit 64 b) }
    let h := h.pset P.DE_FWD_WRITE 0 ((w + 1) % 2 ^ 32)
    if used = 0 then h.event .deFwdReady [(0, 4, (w + 1) % 2 ^ 32)] else h

/-- A DECISION frame is taken (R232, R235). -/
def Hub.decisionRx (h : Hub) (f : Frame) : Hub :=
  let h := h.takeFrame 7 f
  let b := f.bytes
  if f.control || !decisionGood b then h.bump P.DE_ACTION_ERR 0
  else if byteAt b 0 = 2 then h.ringPut b
  else h.pushEvent ⟨0, b.drop 32, be b 8 8, byteAt b 6, byteAt b 3, be b 4 2⟩

/-- A GPIO frame is well formed (R238). -/
def gpioGood (b : List Byte) : Bool :=
  let mode := byteAt b 2
  let w := be b 4 4
  b.length == 16 && byteAt b 1 < 32 && byteAt b 3 == 0 &&
    (if byteAt b 0 = 1 then (mode == 0 && 1 ≤ w && w < 2 ^ 24) || ((mode == 1 || mode == 2) && w == 0)
     else byteAt b 0 == 2 && (mode == 1 || mode == 2) && w == 0)

/-- A GPIO frame is taken: a command for a pin, or an edge elsewhere (R230, R238). -/
def Hub.gpioRx (h : Hub) (f : Frame) : Hub :=
  let h := h.takeFrame 7 f
  let b := f.bytes
  if f.control || !gpioGood b then h.bump P.DE_ACTION_ERR 0
  else if byteAt b 0 = 1 then h.arm (byteAt b 1) ⟨be b 8 8, byteAt b 2, be b 4 4⟩
  else h.pushEvent ⟨3, [byte (byteAt b 1), byte (byteAt b 2)], be b 8 8, 0, 3, f.src⟩

/-! ## Edges (R237) -/

/-- A kept edge of pin n at line time t: an event, a report, or neither.  While I-DEC is gated the event is dropped and counted (R231) and no
report is sent. -/
def Hub.keepEdge (h : Hub) (n t : Nat) (rising : Bool) : Hub :=
  let c := h.pinCfg n
  let code := if rising then 1 else 2
  if !(if rising then c.rising else c.falling) then h
  else
    let h := if c.toDe then h.pushEvent ⟨3, [byte n, byte code], t, 0, 3, h.ownId⟩ else h
    let i := h.pget P.DE_EDGE_TUNNEL 0
    if c.report && i ≠ 0xFFFF && h.works 5 then h.deSend i tGpio (gpioFrame 2 n code 0 t) else h

/-- An edge in the glitch filter of pin n whose time has passed is kept. -/
def Hub.edgeDue (h : Hub) (n : Nat) : Hub :=
  match (h.pin n).edge with
  | none => h
  | some (t, r) =>
    if t + 10 * (h.pinCfg n).glitch ≤ h.clk.ns then (h.modPin n (fun p => { p with edge := none })).keepEdge n t r else h

/-- An edge at input pin n at line time t: an edge that the opposite one follows within GLITCH × 10 ns goes with it. -/
def Hub.gpioEdge (h : Hub) (n : Nat) (rising : Bool) (t : Nat) : Hub :=
  let h := (h.untilLine t).modPin n (fun p => { p with input := rising })
  let c := h.pinCfg n
  if c.dir ≠ 1 then h
  else if c.glitch = 0 then h.keepEdge n t rising
  else match (h.pin n).edge with
    | some (t0, r0) =>
      if r0 ≠ rising && t ≤ t0 + 10 * c.glitch then h.modPin n (fun p => { p with edge := none })
      else ((h.modPin n (fun p => { p with edge := none })).keepEdge n t0 r0).modPin n (fun p => { p with edge := some (t, rising) })
    | none => h.modPin n (fun p => { p with edge := some (t, rising) })

/-- Edges of every pin whose filter time has passed. -/
def Hub.edgesDue (h : Hub) : Hub :=
  if h.de.pins.any (fun p => p.edge.isSome) then (List.range 32).foldl Hub.edgeDue h else h

/-- DE_GPIO_LEVEL: the present level of each pin; an input its last edge's level, low before any (log 17). -/
def Hub.gpioLevel (h : Hub) : Nat :=
  ((List.range 32).map (fun n => let p := h.pin n; if p.shown.getD p.input then 2 ^ n else 0)).sum

/-! ## Banks -/

/-- The shadow bank (R224). -/
def Hub.shadow (h : Hub) : Nat := match h.de.active with | some a => 1 - a | none => h.de.recent

/-- An action is valid (R245 rule 2), and whether its reserved fields are 0 (rule 1). -/
def actionCheck (a : List Byte) : Bool × Bool :=
  let op := byteAt a 0
  if op = 0 then (true, allZero (a.drop 1))
  else if op = 1 then (true, byteAt a 1 < 2)
  else if op = 2 then
    let mode := bits (byteAt a 1) 5 2
    let w := le a 9 3
    (mode < 3 && (if mode = 0 then 1 ≤ w else w == 0), byteAt a 1 < 128)
  else if op = 3 then (true, allZero (a.drop 2))
  else if op = 4 then (le a 2 2 < 256, byteAt a 1 == 0 && allZero (a.drop 4))
  else (false, true)

/-- The valid slots of a bank in address order: bucket and slot. -/
def Hub.validSlots (h : Hub) (b : Nat) : List (Nat × Nat) :=
  let n := 2 ^ h.pget P.DE_BUCKET_ORDER b * 256
  ((cellsIn h.dram (bankBase b) n).filter (fun c => c.1 % 64 == 56 && bit c.2.toNat 7)).map
    (fun c => let o := c.1 - bankBase b; (o / 256, o % 256 / 64))

/-- The rule of R245 a valid slot breaks, or nothing. -/
def Hub.slotFault (h : Hub) (b bucket s : Nat) : Option Nat :=
  let e := h.slotBytes b bucket s
  let k := e.take 32
  let a0 := actionCheck (slice e 32 12)
  let a1 := actionCheck (slice e 44 12)
  let bs := bucketsOf (h.pget P.DE_BUCKET_ORDER b) k
  let twin := [bs.1, bs.2].any (fun bk => [0, 1, 2, 3].any (fun t =>
    !(bk == bucket && t == s) && bit (byteAt (h.slotBytes b bk t) 56) 7 && (h.slotBytes b bk t).take 32 == k))
  if byteAt e 56 % 64 ≠ 0 || 16 ≤ byteAt e 57 || le e 58 2 ≠ 0 || !a0.2 || !a1.2 then some 1
  else if !a0.1 || !a1.1 then some 2
  else if bucket ≠ bs.1 && bucket ≠ bs.2 then some 3
  else if twin then some 4
  else none

/-- The first fault of a bank: reason and bucket (R245). -/
def Hub.bankFault (h : Hub) (b : Nat) : Option (Nat × Nat) :=
  (h.validSlots b).findSome? (fun s => (h.slotFault b s.1 s.2).map (fun r => (r, s.1)))

/-- A bank checked (R243, R245); `good` is the state of one that passes. -/
def Hub.bankChecked (h : Hub) (b good : Nat) : Hub :=
  match h.bankFault b with
  | some (r, bk) => h.modBank b (fun k => { k with state := 5, reason := r, bucket := bk })
  | none => h.modBank b (fun k => { k with state := good, count := (h.validSlots b).length, crc := crcMem h.dram (bankBase b) 0x20000000,
                                           reason := 0, bucket := 0 })

/-- The bank load or check that runs. -/
def Hub.bankOp (h : Hub) : Option LongOp :=
  h.opWhere (fun o => match o.work with | .bankLoad .. => true | .bankCheck _ => true | _ => false)

/-- Whether a bank command may start (R244). -/
def Hub.bankRefusal (h : Hub) : Option Status :=
  if h.bankOp.isSome then some .busy
  else if (match h.al.armed with | some a => a.decision | none => false) then some .denied
  else if !h.works 5 then some .powerState
  else none

/-- A bank command starts on the shadow. -/
def Hub.startBank (h : Hub) (r : Request) (work : Pending) : Hub × Reply :=
  match h.bankRefusal with
  | some s => (h, .err s)
  | none =>
    match h.startOp r.mb r.cmd work with
    | (h', .long t) => (h'.modBank h.shadow (fun k => { k with state := 2 }), .long t)
    | x => x

/-- DE_BANK_LOAD (R244). -/
def Hub.bankLoad (h : Hub) (r : Request) : Hub × Reply :=
  let off := r.arg 8 4
  let n := r.arg 12 4
  if !r.has 24 || r.arg 20 4 ≠ 0 then (h, .err .badParam)
  else if off % 256 ≠ 0 || n % 256 ≠ 0 || 0x20000000 < off + n || !h.inMemt (r.arg 0 8) n then (h, .err .range)
  else h.startBank r (.bankLoad h.shadow (r.arg 0 8) off n (r.arg 16 4))

/-- DE_BANK_CHECK (R244). -/
def Hub.bankCheck (h : Hub) (r : Request) : Hub × Reply :=
  if !r.has 4 || r.arg 0 4 ≠ 0 then (h, .err .badParam) else h.startBank r (.bankCheck h.shadow)

/-- A bank copy ends (R243, R244): the bytes stay whatever the CRC says. -/
def Hub.bankLoadDone (h : Hub) (token : Nat) : Hub :=
  match h.op token with
  | some ⟨_, _, _, _, .bankLoad b src off n crc⟩ =>
    let good := crcMem h.dram (h.memt src) n = crc
    let h : Hub := { h with dram := copyMem h.dram (h.memt src) (bankBase b + off) n }
    (h.modBank b (fun k => { k with state := 1 })).endOp token (if good then .ok else .authFail) 0 []
  | _ => h

/-- A bank check ends (R243, R245). -/
def Hub.bankCheckDone (h : Hub) (token : Nat) : Hub :=
  match h.op token with
  | some ⟨_, _, _, _, .bankCheck b⟩ => (h.bankChecked b 3).endOp token .ok 0 []
  | _ => h

/-- DE_BANK_STATUS (R244). -/
def Hub.bankStatus (h : Hub) (r : Request) : Hub × Reply :=
  if !r.has 0 then (h, .err .badParam)
  else
    (h, .ok ([0, 1].flatMap (fun b =>
      let k := h.bank b
      [byte k.state, byte (b2n (h.de.active == some b)), byte k.reason, 0#8] ++ leBytes 4 k.count ++ leBytes 4 k.crc ++ leBytes 4 k.bucket)))

/-- DE_LOOKUP (R244): where nothing is found, WHERE, BUCKET and ENTRY are free values (log 7). -/
def Hub.deLookup (h : Hub) (r : Request) : Hub × Reply :=
  let n := r.arg 1 1
  if !r.has 36 || r.arg 3 1 ≠ 0 then (h, .err .badParam)
  else if 1 < r.arg 0 1 || n = 0 || 32 < n || 3 < r.arg 2 1 then (h, .err .range)
  else
    let k := fit 32 (slice r.payload 4 n)
    let bank := if r.arg 0 1 = 1 then some h.shadow else h.de.active
    let hashes := leBytes 4 (hash0 k) ++ leBytes 4 (hash1 k)
    match bank.bind (fun b => h.lookup b k (r.arg 2 1)) with
    | some f => (h, .ok ([1#8, byte (b2n f.second * 16 + f.slot), 0#8, 0#8] ++ hashes ++ leBytes 4 f.bucket ++ f.entry))
    | none =>
      let a := h.freeBytes 1
      let b := a.2.freeBytes 68
      (b.2, .ok ([0#8, (a.1.headD 0#8) &&& 0x13#8, 0#8, 0#8] ++ hashes ++ b.1))

/-- A check of bank b that runs ends ABORTED. -/
def Hub.checkAborted (h : Hub) (b : Nat) : Hub :=
  match h.opWhere (fun o => match o.work with | .bankCheck k => k == b | _ => false) with
  | some o => h.endOp o.token .aborted 0 []
  | none => h

/-- Bank b is written (R243, R277), or its order (R249): it is UNCHECKED, a running check of it ends ABORTED.  A load goes on. -/
def Hub.bankWritten (h : Hub) (b : Nat) : Hub := (h.checkAborted b).modBank b (fun k => { k with state := 1 })

/-- A load of the shadow bank runs. -/
def Hub.bankLoading (h : Hub) : Bool := (h.opWhere (fun o => match o.work with | .bankLoad .. => true | _ => false)).isSome

/-- The swap boundary of an epoch with SWAP_DECISION (R246, R247). -/
def Hub.bankSwap (h : Hub) (plan boundary : Nat) : Hub :=
  let s := h.shadow
  let own := h.pget P.DE_BANK_PLAN s
  if (h.bank s).state = 3 && (plan = 0 || plan = own) then
    let h := match h.de.active with | some a => h.modBank a (fun k => { k with state := 3 }) | none => h
    let h := (h.modBank s (fun k => { k with state := 4 })).modDe (fun d => { d with active := some s, recent := s, cache := [] })
    h.event .deBankSwapped [(0, 1, s), (4, 4, own), (8, 8, boundary)]
  else (h.bump P.DE_SWAP_REFUSED 0).event .deSwapRefused [(0, 1, (h.bank s).state), (4, 4, plan), (8, 4, own)]

/-- The pins after a reset of the engine: armed commands and set levels are gone, what the pin shows follows its configuration. -/
def freshPins (ps : List Pin) : List Pin := ps.map (fun p => { Pin.reset with input := p.input, shown := p.shown })

/-- A warm reset of the engine (R243): contents stay, the active bank waits for its re-check, queues, cache and pins start anew. -/
def Hub.deWarm (h : Hub) : Hub :=
  let again := fun (b : Nat) (k : Bank) => if h.de.active = some b then k else if k.state = 3 || k.state = 2 then { k with state := 1 } else k
  (h.modDe (fun d => { Decision.reset with banks := [again 0 (h.bank 0), again 1 (h.bank 1)], active := d.active, recent := d.recent,
                                           pins := freshPins d.pins, modes := d.modes })).showPins

/-- An island reset of the engine (R249: DE_BANK_STATE and DE_ACTIVE_BANK list no I): both banks are EMPTY and none is ACTIVE, a load or check
that runs ends ABORTED (log 126), queues, cache and pins start anew; the shadow is still the bank ACTIVE most recently (R224). -/
def Hub.deIslandReset (h : Hub) : Hub :=
  let h := match h.bankOp with | some o => h.endOp o.token .aborted 0 [] | none => h
  (h.modDe (fun d => { Decision.reset with recent := d.recent, pins := freshPins d.pins, modes := d.modes })).showPins

/-- The mode of each GPIO bank as I-DEC powers up (R478): 3.3 V with its supply above 2.5 V, else 1.8 V.  The supply in mV is a free value: the
board sets it (log 127). -/
def Hub.gpioModes (h : Hub) : Hub :=
  [0, 1, 2, 3].foldl (fun h k =>
    let v := h.fresh
    v.2.modDe (fun d => { d with modes := modAt d.modes k (fun _ => decide (2500 < v.1)) })) h

/-- I-DEC powers up: its banks take their modes and the pins drive again (R240, R478). -/
def Hub.dePowerUp (h : Hub) : Hub := h.gpioModes.showPins

/-- I-DEC is gated: queues are gone, every pin without HOLD goes to high impedance (R240). -/
def Hub.dePowerDown (h : Hub) : Hub := (h.modDe (fun d => { d with queues := [[], [], [], []] })).showPins

/-- The re-check of the active bank during boot (R243). -/
def Hub.deRecheck (h : Hub) : Hub :=
  match h.de.active with
  | none => h
  | some a =>
    let h := h.bankChecked a 4
    if (h.bank a).state = 5 then h.modDe (fun d => { d with active := none }) else h

end Sys2Proof.Machine
end

