-- ==== Sys2Proof/Machine/Guard.lean ====
section
/-!
DEFINITION. The access guard (chapter 17): colours, regions, the check of R399, its records (R400 to R404), generations and
drains (R405 to R407).
-/
namespace Sys2Proof.Machine

/-- The guard changed. -/
def Hub.modGuard (h : Hub) (f : Guard → Guard) : Hub := { h with ag := f h.ag }

/-! ## Page colours (R398) -/

/-- Pages of the 4 GiB DRAM. -/
def pages : Nat := 1048576

/-- The colour of a page: that of the last run that starts at or before it. -/
def colourAt (runs : List (Nat × Nat)) (p : Nat) : Nat := ((runs.filter (fun r => r.1 ≤ p)).getLast?.map (·.2)).getD 0

/-- Runs in their one form: a run of the colour before it is no run. -/
def joinRuns (before : Nat) : List (Nat × Nat) → List (Nat × Nat)
  | [] => []
  | (s, c) :: rs => if c = before then joinRuns before rs else (s, c) :: joinRuns c rs

/-- n pages from page a take colour c. -/
def fillRuns (runs : List (Nat × Nat)) (a n c : Nat) : List (Nat × Nat) :=
  let tail := if a + n < pages then [(a + n, colourAt runs (a + n))] else []
  joinRuns 0 (runs.filter (fun r => r.1 < a) ++ [(a, c)] ++ tail ++ runs.filter (fun r => a + n < r.1))

/-- The mailbox may write guard rules (AG_ADMIN_MB). -/
def Hub.guardAdmin (h : Hub) (mb : Nat) : Bool := bit (h.pget P.AG_ADMIN_MB 0) mb

/-! ## Regions (R395) -/

/-- A region entry's fields. -/
structure Region where
  valid  : Bool
  lock   : Bool
  space  : Nat
  perms  : Nat
  colour : Nat
  base   : Nat
  limit  : Nat
deriving DecidableEq, Repr

/-- The region a number stands for. -/
def Region.ofNat (v : Nat) : Region :=
  ⟨bit v 31, bit v 30, bits v 28 2, bits v 20 4, bits v 8 8, bits v 64 64, bits v 128 64⟩

/-- The region entry at an index. -/
def Hub.region (h : Hub) (i : Nat) : Region := Region.ofNat (h.tget 0x11 i)

/-- Why a write of region entry i fails (R396), or nothing: the mailbox first, then the entry's lock, its form and its range. -/
def Hub.regionRefusal (h : Hub) (mb i v : Nat) : Option Status :=
  let r := Region.ofNat v
  let reserved := bits v 0 8 + bits v 16 4 + bits v 24 4 + bits v 32 32 + bits v 192 64
  if !h.guardAdmin mb then some .denied
  else if (h.region i).lock then some .denied
  else if r.valid && (reserved ≠ 0 || r.limit < r.base || r.base % 4096 ≠ 0 || (r.limit + 1) % 4096 ≠ 0) then some .badParam
  else if (r.space = 0 && 2 ^ 32 ≤ r.limit) || (r.space = 2 && 0x7FFF < r.limit) then some .range
  else none

/-! ## The check (R392, R399) -/

/-- An access the guard checks (R391, R393). -/
structure GAccess where
  space  : Nat
  addr   : Nat
  len    : Nat
  write  : Bool
  cls    : Nat
  idx    : Nat
  colour : Nat
deriving DecidableEq, Repr

/-- The class is privileged. -/
def GAccess.priv (a : GAccess) : Bool := a.cls == 0 || a.cls == 2 || a.cls == 5

/-- The colours match (R392); `required` is a page's or a region's. -/
def colourMatch (required access : Nat) : Bool := required == 0 || access == 0xFF || required == access

/-- The region allows the access's direction at its privilege: P_R, P_W, U_R, U_W at bits 3 to 0 of `perms`. -/
def Region.allows (r : Region) (a : GAccess) : Bool :=
  bit r.perms ((if a.priv then 2 else 0) + (if a.write then 0 else 1))

/-- The valid regions of the access's space that contain a page, indexes rising. -/
def Hub.regionsAt (h : Hub) (space page : Nat) : List (Nat × Region) :=
  ((h.tableRows 0x11).map (fun e => (e.1, Region.ofNat e.2))).filter
    (fun r => r.2.valid && r.2.space == space && r.2.base ≤ page * 4096 && page * 4096 + 4095 ≤ r.2.limit)

/-- The lowest region of a list that fails a test. -/
def firstRegion (l : List (Nat × Region)) (bad : Region → Bool) : Option Nat := (l.find? (fun r => bad r.2)).map (·.1)

/-- The colour of a page of a space. -/
def Hub.pageColour (h : Hub) (space page : Nat) : Nat := if space = 0 then colourAt h.ag.colours page else 0

/-- The tests of R399 on one page: the reason code and the region it names, or nothing. -/
def Hub.checkPage (h : Hub) (a : GAccess) (page : Nat) : Option (Nat × Nat) :=
  let m := h.regionsAt a.space page
  if !a.priv && 0xFE ≤ a.colour then some (6, 0xFF)
  else if a.cls = 5 && m.any (·.2.lock) then some (5, (firstRegion m (·.lock)).getD 0xFF)
  else if m.isEmpty && !a.priv && h.pget P.AG_LOCK 0 = 1 then some (1, 0xFF)
  else if m.any (fun r => !r.2.allows a) then some (2, (firstRegion m (fun r => !r.allows a)).getD 0xFF)
  else if m.any (fun r => !colourMatch r.2.colour a.colour) then some (3, (firstRegion m (fun r => !colourMatch r.colour a.colour)).getD 0xFF)
  else if !colourMatch (h.pageColour a.space page) a.colour then some (4, 0xFF)
  else none

/-- The pages an access touches. -/
def GAccess.pages (a : GAccess) : List Nat :=
  (List.range ((a.addr + a.len - 1) / 4096 + 1 - a.addr / 4096)).map (· + a.addr / 4096)

/-- A refusal: reason, region and page. -/
structure Refused where
  reason : Nat
  region : Nat
  page   : Nat
deriving DecidableEq, Repr

/-- The first page refused. -/
def Hub.checkPages (h : Hub) (a : GAccess) : List Nat → Option Refused
  | [] => none
  | p :: ps => match h.checkPage a p with
    | some (r, g) => some ⟨r, g, p⟩
    | none => h.checkPages a ps

/-! ## Records (R401 to R404) -/

/-- GUARD_VIOLATION; its LINE_TIME is the line time of the check (R408). -/
def Hub.violation (h : Hub) (a : GAccess) (r : Refused) (imprecise : Bool) (last : Nat × Nat × Nat) : Hub :=
  h.event .guardViolation [(0, 1, b2n imprecise), (1, 1, r.reason), (2, 1, a.cls), (3, 1, r.region), (4, 2, a.idx % 1024), (6, 1, a.colour),
    (7, 1, h.pageColour a.space r.page), last]

/-- AG_VIOL_INFO of a refusal (R402). -/
def Hub.violInfo (h : Hub) (a : GAccess) (r : Refused) : Nat :=
  2 ^ 63 + a.colour * 2 ^ 48 + r.region * 2 ^ 40 + h.pageColour a.space r.page * 2 ^ 32 + a.idx % 1024 * 2 ^ 22 + a.cls * 2 ^ 19 +
    r.reason * 2 ^ 16 + a.space * 2 ^ 14 + b2n a.priv * 2 ^ 13 + b2n a.write * 2 ^ 12 + (a.len - 1) % 4096

/-- A precise refusal's record (R402). -/
def Hub.precise (h : Hub) (a : GAccess) (r : Refused) : Hub :=
  let addr := max a.addr (r.page * 4096)
  let h := if h.ag.log.length < 16 then h.modGuard (fun g => { g with log := g.log ++ [(h.violInfo a r, addr, h.clk.ns)] })
    else h.bump P.AG_VIOL_OVERFLOW 0
  h.violation a r false (8, 8, addr)

/-- An imprecise refusal's record (R403): its slot counts, and the event follows at most once per 1 ms. -/
def Hub.imprecise (h : Hub) (a : GAccess) (r : Refused) : Hub :=
  let mine := fun (s : Imprecise) => s.cls == a.cls && s.idx == a.idx && s.region == r.region
  match h.ag.slots.find? mine with
  | none =>
    if 16 ≤ h.ag.slots.length then h.bump P.AG_IMPRECISE_LOST 0
    else (h.modGuard (fun g => { g with slots := g.slots ++ [⟨a.cls, a.idx, r.region, r.reason, 1, 0, h.clk.up, a.colour, h.pageColour a.space r.page, h.clk.ns⟩] })).violation a r true (8, 4, 1)
  | some s =>
    let due := s.toldAt + ms 1 ≤ h.clk.up
    let s' : Imprecise := { s with reason := r.reason, count := satAdd 48 s.count 1, since := if due then 0 else s.since + 1,
                                   toldAt := if due then h.clk.up else s.toldAt, colour := a.colour, page := h.pageColour a.space r.page, time := h.clk.ns }
    let h := h.modGuard (fun g => { g with slots := g.slots.map (fun x => if mine x then s' else x) })
    if due then h.violation a r true (8, 4, s.since + 1) else h

/-- One check with its counts and record (R400, R401): whether the access may reach its target. -/
def Hub.guard (h : Hub) (a : GAccess) (posted : Bool) : Hub × Bool :=
  match h.checkPages a a.pages with
  | none =>
    let open_ := !a.priv && h.pget P.AG_LOCK 0 = 0 && a.pages.any (fun p => (h.regionsAt a.space p).isEmpty)
    (if open_ then h.bump P.AG_OPEN_NOMATCH 0 else h, true)
  | some r =>
    let h := (h.bump P.AG_DENIED r.reason).raise (2 ^ intGuard)
    let h := if r.reason = 5 then h.bump P.AG_DEBUG_DENIED 0 else h
    (if posted then h.imprecise a r else h.precise a r, false)

/-- A fill of page colours runs and the access must wait for it (R398). -/
def Hub.fillHolds (h : Hub) (space : Nat) : Bool := space == 0 && h.ag.fillEnd.isSome

/-- Events of imprecise slots whose 1 ms has passed with refusals untold (R403), with the line time of the slot's last check (R408). -/
def Hub.tellImprecise (h : Hub) : Hub :=
  h.ag.slots.foldl (fun h s =>
    if 0 < s.since && s.toldAt + ms 1 ≤ h.clk.up then
      let h := h.modGuard (fun g => { g with slots := g.slots.map (fun x => if x = s then { x with since := 0, toldAt := h.clk.up } else x) })
      h.eventAt s.time .guardViolation [(0, 1, 1), (1, 1, s.reason), (2, 1, s.cls), (3, 1, s.region), (4, 2, s.idx % 1024), (6, 1, s.colour), (7, 1, s.page), (8, 4, s.since)]
    else h) h

/-- AG_VIOL_CLEAR (R402, R403). -/
def Hub.violClear (h : Hub) : Hub := h.modGuard (fun g => { g with log := [], slots := [] })

/-! ## Generations (R405 to R407) -/

/-- A guard change is committed: the generation rises and the copies in DRAM follow (R405, R407). -/
def Hub.guardCommit (h : Hub) : Hub :=
  let h := h.pset P.AG_GENERATION 0 ((h.pget P.AG_GENERATION 0 + 1) % 2 ^ 32)
  h.modGuard (fun g => { g with copyRegions := h.tables.filter (fun e => e.1 / 65536 = 0x11), copyColours := g.colours, copied := true })

/-- The guard after a reset or REST: only the copies in DRAM are left (R389, R407). -/
def Guard.afterLoss (g : Guard) : Guard := { Guard.reset with copyRegions := g.copyRegions, copyColours := g.copyColours, copied := g.copied }

/-- A fill begins (R398): 16,384 pages a microsecond, behind a fill that still runs. -/
def Hub.startFill (h : Hub) (a n c : Nat) : Hub :=
  h.modGuard (fun g => { g with colours := fillRuns g.colours a n c,
                                fillEnd := some (max h.clk.up (g.fillEnd.getD 0) + ceilDiv (1000 * n) 16384) })

/-- AG_LOCK is set (R400): a commit, and GUARD_LOCKED. -/
def Hub.guardLock (h : Hub) : Hub :=
  let h := (h.pset P.AG_LOCK 0 1).guardCommit
  h.event .guardLocked [(0, 4, h.pget P.AG_GENERATION 0), (4, 1, ((h.tableRows 0x11).filter (fun e => bit e.2 31)).length)]

/-- AG_IMPRECISE of a slot (R403). -/
def Imprecise.word (s : Imprecise) : Nat :=
  2 ^ 63 + s.region * 2 ^ 40 + s.idx % 1024 * 2 ^ 22 + s.cls * 2 ^ 19 + s.reason * 2 ^ 16

end Sys2Proof.Machine
end

