-- ==== Sys2Proof/Machine/Bridge.lean ====
section
/-!
DEFINITION. The window bridge (chapter 09): apertures and what they send (R257, R261, R264 to R269), target windows and what they do
(R257, R258, R262 to R264, R277, R278), posted-write errors (R270 to R274), and the PCIe port's link (R253, R254).
-/
namespace Sys2Proof.Machine

/-- The bridge changed. -/
def Hub.modBr (h : Hub) (f : Bridge → Bridge) : Hub := { h with br := f h.br }

/-! ## Windows -/

/-- A window table entry's fields (R255). -/
structure Window where
  valid  : Bool
  isAp   : Bool
  sel    : Nat
  lanes  : Bool
  unit   : Nat
  sef    : Bool
  posted : Bool
  sizes  : Nat
  colour : Nat
  tunnel : Nat
  base   : Nat
  limit  : Nat
  trans  : Nat
deriving DecidableEq, Repr

/-- The window a number stands for. -/
def Window.ofNat (v : Nat) : Window :=
  ⟨bit v 31, bit v 30, bits v 28 2, bit v 27, bits v 25 2, bit v 24, bit v 23, bits v 18 5, bits v 8 8, bits v 32 16, bits v 64 64,
    bits v 128 64, bits v 192 64⟩

/-- Window table entry i. -/
def Hub.win (h : Hub) (i : Nat) : Window := Window.ofNat (h.tget 0x10 i)

/-- An access matched with window table entry i as it stands. -/
def Hub.matchOf (h : Hub) (i : Nat) : Match := ⟨i, h.tget 0x10 i, h.pget P.BR_MEMT_BASE 0, h.pget P.BR_MEMT_SIZE 0⟩

/-- The window an access was matched with. -/
def Match.window (m : Match) : Window := Window.ofNat m.entry

/-- The memory tunnel area of the match holds [o, o + n) (R275). -/
def Match.holds (m : Match) (o n : Nat) : Bool := o + n ≤ m.size

/-- The valid windows of one kind, indexes rising. -/
def Hub.wins (h : Hub) (isAp : Bool) : List (Nat × Window) :=
  ((h.tableRows 0x10).map (fun e => (e.1, Window.ofNat e.2))).filter (fun w => w.2.valid && w.2.isAp == isAp)

/-- Bytes of a unit with LANES 1; 1 with LANES 0. -/
def Window.unitBytes (w : Window) : Nat := if w.lanes then (if w.unit = 0 then 2 else if w.unit = 1 then 4 else 8) else 1

/-- The single sizes a target window allows (R255). -/
def Window.allowed (w : Window) : List Nat := [0, 1, 2, 3].filterMap (fun i => if bit w.sizes i then some (2 ^ i) else none)

/-- Why a window entry that sets VALID is refused (R256), or nothing. -/
def Hub.windowRefusal (h : Hub) (v : Nat) : Option Status :=
  let w := Window.ofNat v
  let onlyTarget := w.lanes || w.unit ≠ 0 || w.sizes ≠ 0
  let bad :=
    bits v 16 2 ≠ 0 || bits v 0 8 ≠ 0 || bits v 48 16 ≠ 0 || (w.isAp && 2 ≤ w.sel) || (w.unit = 3) ||
    (w.isAp && onlyTarget) || (!w.isAp && w.posted) || (w.isAp && w.sel = 1 && w.tunnel ≠ 0) ||
    w.base % 4096 ≠ 0 || w.trans % 4096 ≠ 0 || (w.limit + 1) % 4096 ≠ 0 || w.limit < w.base ||
    (!w.isAp && w.sizes = 0) || (w.lanes && w.allowed.any (fun s => s < w.unitBytes)) ||
    (!w.isAp && w.sel = 3 && (h.isEndpoint || w.lanes || bit w.sizes 3 || bit w.sizes 4 || 0x7FFF < w.limit)) ||
    (!w.isAp && w.sel = 2 && 0x20000000 ≤ w.trans + (w.limit - w.base)) ||
    (w.isAp && h.isEndpoint && 2 ^ h.br.bar2 ≤ w.limit)
  if !w.valid then none else if bad then some .badParam else none

/-- The bytes of each unit of u reversed (R263). -/
def swapUnits (u : Nat) : Nat → List Byte → List Byte
  | 0, bs => bs
  | fuel + 1, bs => if u ≤ 1 || bs.isEmpty then bs else (bs.take u).reverse ++ swapUnits u fuel (bs.drop u)

/-! ## The sizes of R262 -/

/-- The steps of an access cut into allowed sizes, ascending; none where a size smaller than any allowed is needed and may not be
widened. -/
def cutSizes (allowed : List Nat) (widen : Bool) : Nat → Nat → Nat → Option (List (Nat × Nat))
  | 0, _, _ => some []
  | fuel + 1, pos, stop =>
    if stop ≤ pos then some []
    else
      match (allowed.filter (fun s => pos + s ≤ stop && pos % s == 0)).getLast? with
      | some s => (cutSizes allowed widen fuel (pos + s) stop).map ((pos, s) :: ·)
      | none =>
        match allowed.head? with
        | some s =>
          let a := pos / s * s
          if widen then (cutSizes allowed widen fuel (a + s) stop).map ((a, s) :: ·) else none
        | none => none

/-- A burst cut into transactions of at most `most` bytes that do not cross 4 KiB. -/
def cutBurst (most : Nat) : Nat → Nat → Nat → List (Nat × Nat)
  | 0, _, _ => []
  | fuel + 1, pos, stop =>
    if stop ≤ pos then []
    else
      let next := min stop (min (pos + max 1 most) ((pos / 4096 + 1) * 4096))
      (pos, next - pos) :: cutBurst most fuel next stop

/-- How a window performs [off, off + len) (R262), bursts in transactions of at most `most` bytes; none fails with SIZE. -/
def Window.convert (w : Window) (most off len : Nat) (write : Bool) : Option (List (Nat × Nat)) :=
  let single := (len == 1 || len == 2 || len == 4 || len == 8) && off % len == 0
  let bursts := bit w.sizes 4
  if w.lanes && (off % w.unitBytes ≠ 0 || len % w.unitBytes ≠ 0) then none
  else if single && w.allowed.contains len then some [(off, len)]
  else if !single && bursts then some (cutBurst most 66 off (off + len))
  else cutSizes w.allowed (!write && w.sef) 4097 off (off + len)

/-! ## Posted-write errors at the originator (R272 to R274) -/

/-- An error log entry (R272); its index, or 0xFF when the log is full. -/
def Hub.logPw (h : Hub) (e : PwErr) : Hub × Nat :=
  let n := h.br.log.length
  if n < 16 then (h.modBr (fun b => { b with log := b.log ++ [e] }), n) else (h.bump P.BR_PWERR_OVERFLOW 0, 0xFF)

/-- A log entry with its interrupt and event. -/
def Hub.writeError (h : Hub) (e : PwErr) : Hub :=
  let r := h.logPw e
  (r.1.raise (2 ^ intWriteErr)).event .writeError
    [(0, 1, r.2), (1, 1, e.status), (2, 2, e.node), (4, 2, e.tid), (8, 8, e.off)]

/-- A write-error notice (R270, R272). -/
def Hub.noticeRx (h : Hub) (c : Cell) : Hub :=
  let h := (h.takeFrame 3 ⟨1024, c.src, true, c.payload⟩).setDlv 3 0 ((h.dlv 3 0).filter (fun q => q.cell != c))
  let b := c.payload
  if b.length ≠ 24 || c.kind ≠ 2 then h.bump P.BR_FRAME_ERR 0
  else
    let noAddr := byteAt b 4 % 2 == 1
    h.writeError ⟨c.tid, c.src, byteAt b 1, byteAt b 0, be b 2 2, noAddr, false, false, be b 8 8, be b 16 8⟩

/-! ## Prefetch (R267 to R269) -/

/-- The prefetch buffer of an aperture. -/
def Hub.buf (h : Hub) (ap : Nat) : Option Prefetch := h.br.bufs.find? (fun b => b.ap == ap)

/-- The offset of the first unread byte. -/
def Prefetch.firstUnread (b : Prefetch) : Option Nat := (b.done.findIdx? (fun d => !d)).map (b.off + ·)

/-- A buffer is discarded (R268, R269). -/
def Hub.dropBuf (h : Hub) (ap : Nat) : Hub :=
  match h.buf ap with
  | none => h
  | some b =>
    let h := h.modBr (fun r => { r with bufs := r.bufs.filter (fun x => x.ap != ap) })
    match b.firstUnread with
    | none => h
    | some o =>
      let h := h.bump P.BR_PREFETCH_DISCARD ap
      if h.pget P.BR_PREFETCH_AUDIT 0 = 1 && !h.br.audited.contains ap then
        let told := mget 0 h.br.auditAt ap
        let h := (h.modBr (fun r => { r with audited := ap :: r.audited })).pset P.BR_PREFETCH_AUDIT_ADDR ap o
        if told = 0 || told - 1 + ms 1000 ≤ h.clk.up then
          (h.modBr (fun r => { r with auditAt := mset 0 r.auditAt ap (h.clk.up + 1) })).event .prefetchAudit [(0, 1, ap), (8, 8, o)]
        else h
      else h

/-- 10 µs after it filled a buffer is discarded. -/
def Hub.prefetchExpire (h : Hub) (ap : Nat) : Hub :=
  match h.buf ap with
  | none => h
  | some b => (h.until (b.at_ + us 10)).dropBuf ap

/-- What has been read ahead through an aperture is void (R268): its buffer, and what a READ that is outstanding asked beyond its bytes. -/
def Hub.forgetAhead (h : Hub) (ap : Nat) : Hub :=
  (h.dropBuf ap).modBr (fun b => { b with out := b.out.map (fun o => if o.piece.ap = ap then { o with keep := false } else o) })

/-- PREFETCH of a READ (R267): the least of 1,024, the bytes up to LIMIT and the bytes up to the next 4 KiB boundary. -/
def prefetchAsk (w : Window) (addr len : Nat) : Nat :=
  if !w.sef then 0
  else min (min 1024 (w.limit + 1 - (addr + len))) (min ((4096 - (addr + len) % 4096) % 4096) (4096 - len))

/-! ## Inbound reads and their answers (R266) -/

/-- What a part of a read answers: completion status (0 successful, 1 Completer Abort, 2 Unsupported Request) and data. -/
def Hub.errorAnswer (h : Hub) (len : Nat) : Nat × List Byte :=
  if h.isEndpoint && h.pget P.BR_ERR_RESPONSE 0 = 0 then (0, List.replicate len 0xFF#8) else (1, [])

/-- The parts of a read that can go back in order go back. -/
def Hub.flushRead (h : Hub) (id : Nat) : Hub :=
  match h.br.reads.find? (fun r => r.id == id) with
  | none => h
  | some r =>
    let ready := r.parts.takeWhile Option.isSome
    let rest := r.parts.drop ready.length
    let h := ready.foldl (fun h p => match p with | some x => h.out (.completion r.tag x.1 x.2) | none => h) h
    h.modBr (fun b => { b with reads := if rest.isEmpty then b.reads.filter (fun x => x.id != id)
                                        else b.reads.map (fun x => if x.id = id then { x with first := x.first + ready.length, parts := rest } else x) })

/-- A part of a read is answered. -/
def Hub.answerPart (h : Hub) (p : Piece) (a : Nat × List Byte) : Hub :=
  if p.write then h
  else (h.modBr (fun b => { b with reads := b.reads.map (fun r =>
    if r.id = p.read then { r with parts := modAt r.parts (p.part - r.first) (fun _ => some a) } else r) })).flushRead p.read

/-- A part of a read ends with an error (R266): AER logs it. -/
def Hub.failPart (h : Hub) (p : Piece) : Hub :=
  if p.write then h else (h.modBr (fun b => { b with aerRead := true })).answerPart p (h.errorAnswer p.len)

/-! ## Apertures -/

/-- Requests that wait for a reply on an aperture's WRITE_NP (R274). -/
def Hub.npWaits (h : Hub) (ap : Nat) : Bool := h.br.out.any (fun o => o.piece.write && o.piece.ap == ap)

/-- A tag no outstanding request uses, the next in turn. -/
def Hub.pickTag (h : Hub) : Nat :=
  (((List.range 513).map (fun i => (h.br.nextTag + i) % 65536)).find? (fun t => !h.br.out.any (fun o => o.tag == t))).getD h.br.nextTag

/-- A window frame (R259). -/
def windowFrame (op flags tag len pf off status fails : Nat) (data : List Byte) : List Byte :=
  [byte op, byte flags] ++ beBytes 2 tag ++ beBytes 2 len ++ beBytes 2 pf ++ beBytes 8 off ++ [byte status, 0#8] ++ beBytes 2 fails ++
    beBytes 4 0 ++ data

/-- A READ or WRITE_NP is sent and waits for its reply (R265). -/
def Hub.sendNp (h : Hub) (w : Window) (p : Piece) (off pf : Nat) : Hub :=
  let t := h.pickTag
  let h := h.modBr (fun b => { b with nextTag := (t + 1) % 65536, out := b.out ++ [⟨t, w.tunnel, off, p, pf, true, h.clk.up, (h.tun w.tunnel).tid, (h.tun w.tunnel).peer⟩] })
  if p.write then h.frameSend 3 w.tunnel false (windowFrame 2 0 t p.len 0 off 0 0 p.data) p.len
  else h.frameSend 3 w.tunnel false (windowFrame 3 0 t p.len pf off 0 0 []) 0

/-- A part that no aperture takes (R257): a read gets Unsupported Request, AER logs a write. -/
def Hub.refusePart (h : Hub) (p : Piece) : Hub :=
  let h := h.bump P.BR_NO_WINDOW 0
  if p.write then h.modBr (fun b => { b with aerUr := true }) else h.answerPart p (2, [])

/-- An access to the local memory tunnel area (SEL 1), at the address it was matched with: class 4 at the guard (R391, R401).
While AG_LOCK is 0 class 4 cannot initiate (R400): the part is refused as one no aperture takes (log 163). -/
def Hub.localPiece (h : Hub) (w : Window) (p : Piece) : Hub :=
  let o := w.trans + (p.addr - w.base)
  if !p.seen.holds o p.len then h.refusePart p
  else if h.pget P.AG_LOCK 0 = 0 then h.refusePart p
  else if h.fillHolds 0 then h.modGuard (fun g => { g with waiting := g.waiting ++ [.piece p] })
  else
    let a := p.seen.base + o
    let g := h.guard ⟨0, a, p.len, p.write, 4, p.ap, w.colour⟩ p.write
    if !g.2 then g.1.failPart p
    else if p.write then { g.1 with dram := writeMem g.1.dram a p.data }
    else g.1.answerPart p (0, readMem g.1.dram a p.len)

/-- A part goes to the tunnel of its aperture (SEL 0): R261, R267, R268, R274. -/
def Hub.tunnelPiece (h : Hub) (w : Window) (p : Piece) : Hub :=
  let e := h.tun w.tunnel
  let off := w.trans + (p.addr - w.base)
  let bothWays := e.valid && e.type == tWindow && e.dir == .both
  let oneWay := e.valid && e.type == tWindow && e.dir == .tx && e.mcast && p.write && w.posted
  if !(w.tunnel < 1024 && (bothWays || oneWay)) then h.refusePart p
  else if p.write then
    let h := h.forgetAhead p.ap
    if w.posted then h.frameSend 3 w.tunnel false (windowFrame 1 0 0 p.len 0 off 0 0 p.data) p.len else h.sendNp w p off 0
  else
    match h.buf p.ap with
    | some b =>
      let inside := b.off ≤ off && off + p.len ≤ b.off + b.data.length
      let apart := off + p.len ≤ b.off || b.off + b.data.length ≤ off
      if inside then
        let i := off - b.off
        let seen := (List.range b.done.length).map (fun k => nth b.done k false || (i ≤ k && k < i + p.len))
        let h := h.modBr (fun r => { r with bufs := r.bufs.map (fun x => if x.ap = p.ap then { x with done := seen } else x) })
        (h.bump P.BR_PREFETCH_HIT p.ap).answerPart p (0, slice b.data i p.len)
      else (if apart then h else h.dropBuf p.ap).sendNp w p off (prefetchAsk w p.addr p.len)
    | none => h.sendNp w p off (prefetchAsk w p.addr p.len)

/-- A part must wait: behind a WRITE_NP of its aperture, or for one of the 512 places (R265, R274). -/
def Hub.pieceHolds (h : Hub) (w : Window) (p : Piece) : Bool :=
  w.sel == 0 && (h.npWaits p.ap || ((!p.write || !w.posted) && 512 ≤ h.br.out.length))

/-- A part of a request is served by the aperture entry it was matched with. -/
def Hub.servePiece (h : Hub) (p : Piece) : Hub :=
  let w := p.seen.window
  if !(w.valid && w.isAp) then h.refusePart p else if w.sel = 1 then h.localPiece w p else h.tunnelPiece w p

/-- A part arrives: in order behind held parts of its aperture. -/
def Hub.offerPiece (h : Hub) (p : Piece) : Hub :=
  if h.br.held.any (fun q => q.ap == p.ap) || h.pieceHolds p.seen.window p then h.modBr (fun b => { b with held := b.held ++ [p] })
  else h.servePiece p

/-- Held parts are tried in order; one that still waits keeps the later ones of its aperture behind it. -/
def Hub.releaseHeldAux : List Piece → List Nat → Hub → Hub
  | [], _, h => h
  | p :: ps, blocked, h =>
    if blocked.contains p.ap || h.pieceHolds p.seen.window p then
      Hub.releaseHeldAux ps (p.ap :: blocked) (h.modBr (fun b => { b with held := b.held ++ [p] }))
    else Hub.releaseHeldAux ps blocked (h.servePiece p)

/-- Held parts tried again. -/
def Hub.releaseHeld (h : Hub) : Hub := Hub.releaseHeldAux h.br.held [] (h.modBr (fun b => { b with held := [] }))

/-- A range cut at aperture limits (R257): address, length and the aperture of each part. -/
def cutApertures (aps : List (Nat × Window)) : Nat → Nat → Nat → List (Nat × Nat × Option Nat)
  | 0, _, _ => []
  | fuel + 1, a, n =>
    if n = 0 then []
    else match aps.find? (fun w => w.2.base ≤ a && a ≤ w.2.limit) with
      | some w =>
        let k := min n (w.2.limit + 1 - a)
        (a, k, some w.1) :: cutApertures aps fuel (a + k) (n - k)
      | none =>
        let k := ((aps.filter (fun w => a < w.2.base)).map (fun w => w.2.base - a)).foldl min n
        (a, k, none) :: cutApertures aps fuel (a + k) (n - k)

/-- The runs of enabled bytes of a write (R262): offset and bytes. -/
def laneRuns : List (Bool × Byte) → Nat → List (Nat × List Byte)
  | [], _ => []
  | (true, b) :: l, i => match laneRuns l (i + 1) with
    | (j, bs) :: rs => if j = i + 1 then (i, b :: bs) :: rs else (i, [b]) :: (j, bs) :: rs
    | [] => [(i, [b])]
  | (false, _) :: l, i => laneRuns l (i + 1)

/-- A memory request meets the apertures (R257). -/
def Hub.inbound (h : Hub) (q : PcieReq) : Hub :=
  let aps := h.wins true
  if q.kind = .write then
    let lanes := q.lanes ++ List.replicate (q.data.length - q.lanes.length) true
    (laneRuns (lanes.zip q.data) 0).foldl (fun h r =>
      (cutApertures aps 130 (q.addr + r.1) r.2.length).foldl (fun h c =>
        let p : Piece := ⟨c.2.2.getD 64, true, c.1, c.2.1, slice r.2 (c.1 - (q.addr + r.1)) c.2.1, 0, 0, h.matchOf (c.2.2.getD 64)⟩
        match c.2.2 with | some _ => h.offerPiece p | none => h.refusePart p) h) h
  else
    let n := max 1 q.len
    let cuts := cutApertures aps 130 q.addr n
    let id := h.br.nextId
    let h := h.modBr (fun b => { b with nextId := id + 1, reads := b.reads ++ [⟨id, q.tag, 0, cuts.map (fun _ => none)⟩] })
    (List.range cuts.length).foldl (fun h k =>
      let c := nth cuts k (0, 0, none)
      let p : Piece := ⟨c.2.2.getD 64, false, c.1, c.2.1, [], id, k, h.matchOf (c.2.2.getD 64)⟩
      match c.2.2 with | some _ => h.offerPiece p | none => h.refusePart p) h

/-! ## Replies at the originator -/

/-- A request ends by timeout or a change of its entry (R265, R266, R274). -/
def Hub.endRequest (h : Hub) (o : Outstanding) : Hub :=
  let h := (h.modBr (fun b => { b with out := b.out.filter (fun x => x.tag != o.tag) })).bump P.BR_CPL_EXPIRED 0
  let told := mget 0 h.br.expiredAt o.piece.ap
  let h := if told = 0 || told - 1 + ms 1000 ≤ h.clk.up then
      (h.modBr (fun r => { r with expiredAt := mset 0 r.expiredAt o.piece.ap (h.clk.up + 1) })).event .cplExpired
        [(0, 1, o.piece.ap), (2, 2, o.tag), (8, 8, o.off)]
    else h
  let h := if o.piece.write then h.writeError ⟨o.tid, o.node, 0xFF, 8, 0, false, false, true, o.off, h.clk.ns⟩
    else h.failPart o.piece
  h.releaseHeld

/-- BR_CPL_TIMEOUT of a request passes. -/
def Hub.cplTimeout (h : Hub) (tag : Nat) : Hub :=
  match h.br.out.find? (fun o => o.tag == tag) with
  | none => h
  | some o => (h.until (o.at_ + us (h.pget P.BR_CPL_TIMEOUT 0))).endRequest o

/-- A tunnel entry changed under R113: its requests end, its prefetch buffers go (R265, R268). -/
def Hub.bridgeEntryChanged (h : Hub) (i : Nat) : Hub :=
  let h := (h.br.bufs.filter (fun b => b.entry == i)).foldl (fun h b => h.dropBuf b.ap) h
  (h.br.out.filter (fun o => o.entry == i)).foldl Hub.endRequest h

/-- A window frame's data length fits its OP, and no reserved value is used (R259, R260). -/
def windowGood (b : List Byte) : Bool :=
  let op := byteAt b 0
  let n := be b 4 2
  let pf := be b 6 2
  let reply := op == 4 || op == 5
  let carries := op == 1 || op == 2 || op == 4
  1 ≤ op && op ≤ 5 && 24 ≤ b.length && b.length == 24 + (if carries then n else 0) &&
    byteAt b 1 < (if reply then 2 else 1) && (op != 1 || be b 2 2 == 0) &&
    (if op = 5 then n == 0 else if op = 4 then n ≤ 4096 else 1 ≤ n && n ≤ 4096) && (if op = 3 then pf ≤ 1024 else pf == 0) &&
    (if reply then byteAt b 16 ≤ 9 else byteAt b 16 == 0) && byteAt b 17 == 0 && (reply || be b 18 2 == 0) && be b 20 4 == 0

/-- A malformed window frame (R259). -/
def Hub.windowBad (h : Hub) (f : Frame) : Hub := (h.takeFrame 3 f).bump P.BR_FRAME_ERR 0

/-- Failures a reply tells of are logged before its data goes on (R273). -/
def Hub.priorFails (h : Hub) (f : Frame) : Hub :=
  if byteAt f.bytes 1 % 2 = 1 then
    (h.logPw ⟨(h.tun f.entry).tid, f.src, 0xFF, 0, be f.bytes 18 2, false, true, false, be f.bytes 8 8, h.clk.ns⟩).1
  else h

/-- A COMPLETION (R266, R268, R273). -/
def Hub.completionRx (h : Hub) (f : Frame) : Hub :=
  let b := f.bytes
  if f.control || !windowGood b || byteAt b 0 ≠ 4 then h.windowBad f
  else
    let h := h.takeFrame 3 f
    match h.br.out.find? (fun o => o.tag == be b 2 2 && o.entry == f.entry && !o.piece.write) with
    | none => h.bump P.BR_CPL_LATE 0
    | some o =>
      let data := b.drop 24
      if byteAt b 16 = 0 && data.length < o.piece.len then h.bump P.BR_FRAME_ERR 0
      else
        let h := (h.priorFails f).modBr (fun r => { r with out := r.out.filter (fun x => x.tag != o.tag) })
        let h := if byteAt b 16 = 0 then h.answerPart o.piece (0, data.take o.piece.len) else h.failPart o.piece
        let extra := (data.drop o.piece.len).take o.pf
        let h := if byteAt b 16 = 0 && o.keep && !extra.isEmpty then
            (h.dropBuf o.piece.ap).modBr (fun r => { r with bufs := r.bufs ++
              [⟨o.piece.ap, o.entry, o.off + o.piece.len, extra, extra.map (fun _ => false), h.clk.up⟩] })
          else h
        h.releaseHeld

/-- A WRITE_ACK (R273, R274). -/
def Hub.ackRx (h : Hub) (f : Frame) : Hub :=
  let b := f.bytes
  if f.control || !windowGood b || byteAt b 0 ≠ 5 then h.windowBad f
  else
    let h := h.takeFrame 3 f
    match h.br.out.find? (fun o => o.tag == be b 2 2 && o.entry == f.entry && o.piece.write) with
    | none => h.bump P.BR_CPL_LATE 0
    | some o =>
      let h := (h.priorFails f).modBr (fun r => { r with out := r.out.filter (fun x => x.tag != o.tag) })
      let h := if byteAt b 16 = 0 then h
        else h.writeError ⟨(h.tun f.entry).tid, f.src, 0xFF, byteAt b 16, 0, false, false, true, o.off, h.clk.ns⟩
      h.releaseHeld

/-! ## Target windows -/

/-- Failed WRITEs of an originator on a tunnel since its last reply (R273). -/
def failKey (src tid : Nat) : Nat := src * 65536 + tid

/-- A reply to a READ or WRITE_NP (R261, R264, R273). -/
def Hub.reply (h : Hub) (entry src op tag off status : Nat) (data : List Byte) : Hub :=
  if (h.tun entry).dir ≠ .both then h.bump P.BR_NO_RETURN 0
  else
    let n := mget 0 h.br.fails (failKey src (h.tun entry).tid)
    let h := h.modBr (fun b => { b with fails := mset 0 b.fails (failKey src (h.tun entry).tid) 0 })
    let d := if op = 3 then data else []
    h.frameSend 3 entry false (windowFrame (if op = 3 then 4 else 5) (b2n (0 < n)) tag d.length 0 off status (min n 65535) d) d.length

/-- A target access ends other than OK: a status to a request that has a reply, a notice for a WRITE, with the TID its tunnel had (R258, R270,
R271, R273). -/
def Hub.targetFail (h : Hub) (entry src tid op tag off win status : Nat) : Hub :=
  let h := if win < 64 then h.bump P.BR_WIN_FAIL win else h
  if op ≠ 1 then h.reply entry src op tag off status []
  else
    let mine := fun (n : Notice) => n.origin == src && n.tid == tid && n.win == win
    h.modBr (fun b =>
      { b with fails := mmod 0 b.fails (failKey src tid) (· + 1),
               notices := if b.notices.any mine then b.notices.map (fun n => if mine n then { n with count := min 65535 (n.count + 1) } else n)
                          else b.notices ++ [⟨src, tid, win, status, 1, if status = 2 then 0 else off, h.clk.ns⟩] })

/-- The target window of an access (R257): the lowest that holds it whole. -/
def Hub.targetWin (h : Hub) (entry off len : Nat) : Option (Nat × Window) :=
  (h.wins false).find? (fun w => w.2.tunnel == entry && w.2.base ≤ off && off + len ≤ w.2.limit + 1)

/-- The guard space and local address of a byte at tunnel offset `off` of a matched window (R263, R276, R393). -/
def Hub.localAddr (h : Hub) (m : Match) (off : Nat) : Nat × Nat :=
  let w := m.window
  let a := w.trans + (off - w.base)
  if w.sel = 0 then (1, a) else if w.sel = 1 then (0, m.base + a) else if w.sel = 2 then (0, bankBase h.shadow + a) else (2, a)

/-- The link state fails an access (R260, R278). -/
def Hub.noLink (h : Hub) (w : Window) : Bool :=
  if w.sel = 1 then false
  else if !h.works 6 then true
  else if w.sel = 2 then !h.works 5
  else !h.br.up

/-- The extra bytes a READ gets (R267): within the window, the area and whole units. -/
def Match.extraBytes (m : Match) (off len pf : Nat) : Nat :=
  let w := m.window
  let room := if w.sel = 1 then m.size - (w.trans + (off + len - w.base)) else 4096
  let n := if w.sef then min (min pf (w.limit + 1 - (off + len))) (min room (4096 - len)) else 0
  n / w.unitBytes * w.unitBytes

/-- How the extra bytes are read, when the window's sizes allow it. -/
def Match.extraSteps (m : Match) (most off len pf : Nat) : List (Nat × Nat) :=
  let n := m.extraBytes off len pf
  if n = 0 then [] else (m.window.convert most (off + len) n false).getD []

/-- Transactions go out on the PCIe link, which leaves L1 for them (R250, R262). -/
def Hub.pcieOut (h : Hub) (id space : Nat) (w : Window) (write : Bool) (off : Nat) (data : List Byte) (steps : List (Nat × Nat)) : Hub :=
  steps.foldl (fun h s => h.out (.pcie id space write (w.trans + (s.1 - w.base)) s.2 (if write then slice data (s.1 - off) s.2 else [])))
    (h.modBr (fun r => { r with nextId := id + 1, l1 := false }))

/-- A window access that has passed its checks is performed (R262, R263, R277); `steps` are its sizes in tunnel offsets, `extra` how what a READ
gets beyond its bytes is read.  A READ of DRAM bytes that are `bad` ends with POISONED (R260). -/
def Hub.perform (h : Hub) (f : Frame) (m : Match) (steps extra : List (Nat × Nat)) (bad : Bool) : Hub :=
  let b := f.bytes
  let w := m.window
  let (op, tag, len, off) := (byteAt b 0, be b 2 2, be b 4 2, be b 8 8)
  let u := w.unitBytes
  let tid := (h.tun f.entry).tid
  let more := (extra.map (·.2)).sum
  if w.sel = 1 || w.sel = 2 then
    let a := (h.localAddr m off).2
    if op = 3 then
      if bad then h.targetFail f.entry f.src tid op tag off m.win 9
      else h.reply f.entry f.src op tag off 0 (swapUnits u 4097 (readMem h.dram a (len + more)))
    else if w.sel = 2 && h.bankLoading then h.targetFail f.entry f.src tid op tag off m.win 6
    else
      let h := if w.sel = 2 then h.bankWritten h.shadow else h
      let h : Hub := { h with dram := writeMem h.dram a (swapUnits u 4097 (b.drop 24)) }
      if op = 2 then h.reply f.entry f.src op tag off 0 [] else h
  else
    let id := h.br.nextId
    let h := h.pcieOut id (if w.sel = 0 then 1 else 2) w (op != 3) off (swapUnits u 4097 (b.drop 24)) (steps ++ extra)
    if op = 3 || w.sel = 3 then
      h.modBr (fun r => { r with targets := r.targets ++ [⟨id, f.entry, f.src, op, tag, off, len, more, m.win, u, h.pget P.AG_GENERATION 0, tid⟩] })
    else if op = 2 then h.reply f.entry f.src op tag off 0 [] else h

/-- What a frame's access is matched with (R257): the lowest window that holds it whole. -/
def Hub.matched (h : Hub) (f : Frame) : Option Match := (h.targetWin f.entry (be f.bytes 8 8) (be f.bytes 4 2)).map (fun w => h.matchOf w.1)

/-- A well-formed WRITE, WRITE_NP or READ with its match is checked and performed (R257, R258, R262, R278).  A READ and the extra bytes it gets
are one access of the guard (log 162). -/
def Hub.targetRun (h : Hub) (f : Frame) (m : Option Match) (bad : Bool) : Hub :=
  let b := f.bytes
  let (op, tag, len, off) := (byteAt b 0, be b 2 2, be b 4 2, be b 8 8)
  let tid := (h.tun f.entry).tid
  match m with
  | none => h.targetFail f.entry f.src tid op tag off 0xFF 1
  | some m =>
    let w := m.window
    let most := if op = 3 then h.br.mrrs else h.br.mps
    if w.sel = 1 && !m.holds (w.trans + (off - w.base)) len then h.targetFail f.entry f.src tid op tag off 0xFF 1
    else if h.noLink w then h.targetFail f.entry f.src tid op tag off m.win 7
    else match w.convert most off len (op ≠ 3) with
      | none => h.targetFail f.entry f.src tid op tag off m.win 3
      | some steps =>
        let colour := if w.colour = 0 then (h.tun f.entry).colour else w.colour
        let a := h.localAddr m off
        let extra := if op = 3 then m.extraSteps most off len (be b 6 2) else []
        let g := h.guard ⟨a.1, a.2, len + (extra.map (·.2)).sum, op ≠ 3, 3, f.entry, colour⟩ (op = 1)
        if !g.2 then g.1.targetFail f.entry f.src tid op tag off m.win 2
        else g.1.perform f m steps extra bad

/-- The same; what the DRAM controller said of the frame's bytes is used up. -/
def Hub.targetAs (h : Hub) (f : Frame) (m : Option Match) : Hub :=
  if h.br.ecc.contains f then (h.modBr (fun r => { r with ecc := r.ecc.erase f })).targetRun f m true else h.targetRun f m false

/-- The access goes to DRAM. -/
def Match.inDram (m : Match) : Bool := m.window.sel == 1 || m.window.sel == 2

/-- A frame in its turn is performed, or waits for a fill of page colours, in order behind the frames of its tunnel that wait for it (R398). -/
def Hub.targetTurn (h : Hub) (f : Frame) (m : Option Match) : Hub :=
  let waits := h.ag.waiting.any (fun x => match x with | .frame g _ => g.entry == f.entry | _ => false)
  if waits || (m.any Match.inDram && h.fillHolds 0) then h.modGuard (fun g => { g with waiting := g.waiting ++ [.frame f m] })
  else h.targetAs f m

/-- A frame of a tunnel must wait behind a write of the tunnel not yet performed, or behind a frame that waits for one (R264). -/
def Hub.frameHolds (h : Hub) (f : Frame) : Bool :=
  h.br.behind.any (fun g => g.frame.entry == f.entry) || h.br.targets.any (fun t => t.entry == f.entry && t.op ≠ 3)

/-- A request frame of a tunnel arrives (R264); `ecc`: the DRAM controller finds the bytes a READ reads uncorrectable. -/
def Hub.targetRx (h : Hub) (f : Frame) (ecc : Bool) : Hub :=
  let b := f.bytes
  if f.control || !windowGood b || 3 < byteAt b 0 then h.windowBad f
  else
    let h := h.takeFrame 3 f
    let h := if ecc then h.modBr (fun r => { r with ecc := f :: r.ecc }) else h
    if h.frameHolds f then h.modBr (fun r => { r with behind := r.behind ++ [⟨f, none⟩] }) else h.targetTurn f (h.matched f)

/-- Frames behind a performed write run in order until another must wait. -/
def Hub.runBehind : Nat → Nat → Hub → Hub
  | 0, _, h => h
  | fuel + 1, entry, h =>
    if h.br.targets.any (fun t => t.entry == entry && t.op ≠ 3) then h
    else match h.br.behind.find? (fun l => l.frame.entry == entry) with
      | none => h
      | some l =>
        let h := h.modBr (fun r => { r with behind := r.behind.erase l })
        Hub.runBehind fuel entry (h.targetTurn l.frame (l.seen.getD (h.matched l.frame)))

/-- The PCIe link answers a target access (R264, R273); `status` is a code of R260. -/
def Hub.targetDone (h : Hub) (id status : Nat) (data : List Byte) : Hub :=
  match h.br.targets.find? (fun t => t.id == id) with
  | none => h
  | some t =>
    let h := h.modBr (fun r => { r with targets := r.targets.filter (fun x => x.id != id) })
    let h :=
      if status ≠ 0 then h.targetFail t.entry t.src t.tid t.op t.tag t.off t.win status
      else if t.op = 1 then h
      else h.reply t.entry t.src t.op t.tag t.off 0 (swapUnits t.unit 4097 (fit (t.len + t.pf) data))
    Hub.runBehind (h.br.behind.length + 1) t.entry h

/-- A write-error notice leaves (R270, R271). -/
def Hub.noticeSend (h : Hub) (origin tid win : Nat) : Hub :=
  match h.br.notices.find? (fun n => n.origin == origin && n.win == win && n.tid == tid) with
  | none => h
  | some n =>
    let key := origin * 65536 + win
    let last := mget 0 h.br.noticed key
    let h := if last = 0 then h else h.until (last - 1 + us (h.pget P.BR_NOTICE_INTERVAL 0))
    let h := h.modBr (fun b => { b with notices := b.notices.erase n, noticed := mset 0 b.noticed key (h.clk.up + 1) })
    let body := [byte n.status, byte n.win] ++ beBytes 2 n.count ++ [byte (b2n (n.status == 2)), 0#8, 0#8, 0#8] ++ beBytes 8 n.off ++ beBytes 8 n.time
    let c : Cell := ⟨0, true, true, 2, origin, h.ownId, tid, 0, false, h.rail, false, h.pget P.TN_HOPS_DEFAULT 0, body⟩
    let m := h.makeRoom 3 0 (cellFlits c)
    if !h.tunnels then h
    else if m.2 then m.1.routeOwn 3 c
    else m.1.bump P.SW_INGRESS_DROP 0

/-! ## The port's link (R253, R254, R279) -/

/-- Target accesses that wait for the link end with NO_LINK. -/
def Hub.failTargets (h : Hub) : Hub := h.br.targets.foldl (fun h t => h.targetDone t.id 7 []) h

/-- The bridge after an island reset of I-PCIE (R254): what it held is gone, the window table stays. -/
def Hub.bridgeReset (h : Hub) : Hub :=
  let h := h.br.bufs.foldl (fun h b => h.dropBuf b.ap) h
  h.modBr (fun b => { Bridge.reset with bar2 := b.bar2, subsys := b.subsys, nextTag := b.nextTag, nextId := b.nextId, perst := b.perst,
                                        perstHi := b.perstHi })

/-- PE_PERST_N of a root port is driven (R253). -/
def Hub.setPerst (h : Hub) (high : Bool) : Hub :=
  if h.isEndpoint || h.br.perstHi = high then h
  else (h.modBr (fun b => { b with perstHi := high })).out (.pin "PE_PERST_N" high)

/-- The width a link comes up with: at most BR_PCIE_WIDTH_MAX lanes, and of the supported widths (R250). -/
def Hub.linkWidth (h : Hub) (width : Nat) : Nat := ([8, 4, 2, 1].find? (fun n => n ≤ width && n ≤ h.pget P.BR_PCIE_WIDTH_MAX 0)).getD 1

/-- The link comes up or goes down; on a strap fault the port stays in electrical idle (R22). -/
def Hub.linkChange (h : Hub) (up : Bool) (speed width : Nat) : Hub :=
  if up && (!h.works 6 || h.strapFault) then h
  else
    let speed := if up then max 1 (min speed (h.pget P.BR_PCIE_SPEED_MAX 0)) else speed
    let width := if up then h.linkWidth width else width
    let h := ((h.modBr (fun b => { b with up := up, speed := if up then speed else 0, width := if up then width else 0, l1 := false })).raise
      (2 ^ intLink)).event .pcieLink [(0, 1, b2n up), (1, 1, speed), (2, 1, width)]
    if up then h else h.failTargets

/-- The link enters or leaves L1, which it enters only while BR_ASPM_L1 advertises it (R250). -/
def Hub.linkPower (h : Hub) (l1 : Bool) : Hub := h.modBr (fun b => { b with l1 := l1 && b.up && h.pget P.BR_ASPM_L1 0 == 1 })

/-- Max_Payload_Size and Max_Read_Request_Size of the link as its codes give them (R250): 128 × 2^n bytes, at most 512 and 4,096. -/
def Hub.linkSizes (h : Hub) (mps mrrs : Nat) : Hub := h.modBr (fun b => { b with mps := 128 * 2 ^ min 2 mps, mrrs := 128 * 2 ^ min 5 mrrs })

/-- BR_LINK_RESET at a root port (R253). -/
def Hub.linkReset (h : Hub) : Hub :=
  if h.isEndpoint then h
  else
    let h := (h.setPerst false).modBr (fun b => { b with perst := some (h.clk.up + ms 100) })
    if h.br.up then h.linkChange false 0 0 else h

/-- The pulse on PE_PERST_N ends; the pin stays low while I-PCIE is not powered (R253). -/
def Hub.perstEnd (h : Hub) : Hub :=
  match h.br.perst with
  | some t =>
    if t ≤ h.clk.up then
      let h := h.modBr (fun b => { b with perst := none })
      if h.works 6 then h.setPerst true else h
    else h
  | none => h

/-- An INTx message from the downstream device (R253). -/
def Hub.intx (h : Hub) : Hub := if h.isEndpoint then h else h.bump P.BR_INTX_DROP 0

/-- BR_PWERR_INFO of an entry. -/
def PwErr.word (e : PwErr) : Nat :=
  e.tid * 2 ^ 48 + e.node * 2 ^ 36 + e.win * 2 ^ 28 + e.status * 2 ^ 20 + e.count * 16 + b2n e.noAddr * 8 + b2n e.flush * 4 + b2n e.np * 2 + 1

/-! ## Guarded accesses that waited, and drains (R398, R406) -/

/-- The firmware data area (R276, R431): the image copy at its start, guard and configuration copies and Horest's data, the Lint mirror. -/
def fwArea : Nat := 0xFC000000
def fwCopies : Nat := 0xFD000000
def lintMirror : Nat := 0xFE000000

/-- A byte of the Lint mirror: record SEQ stands at its place modulo the 1,048,576 records (log 79). -/
def Hub.mirrorByte (h : Hub) (o : Nat) : Byte :=
  match h.lint.dram.find? (fun r => r.seq % 1048576 == o / 32) with
  | some r => nth r.bytes (o % 32) 0#8
  | none => 0#8

/-- DRAM as the debug master reads it.  How the guard and configuration copies and Horest's data lie in their part of the firmware data area the spec
does not say: a byte of it is a free value (log 79). -/
def Hub.debugRead (h : Hub) (a n : Nat) : List Byte × Hub :=
  if a + n ≤ fwCopies then (readMem h.dram a n, h)
  else
    let r := h.freeBytes n
    ((List.range n).map (fun i =>
      if a + i < fwCopies then readByte h.dram (a + i) else if a + i < lintMirror then nth r.1 i 0#8 else h.mirrorByte (a + i - lintMirror)), r.2)

/-- DRAM as the debug master writes it: what it writes above the image copy reaches none of the copies that Horest keeps there (log 79). -/
def Hub.debugWrite (h : Hub) (a : Nat) (d : List Byte) : Hub := { h with dram := writeMem h.dram a (d.take (fwCopies - a)) }

/-- A debug access of SPACE 0 that waited (R404). -/
def Hub.debugRun (h : Hub) (a n : Nat) (wr : Bool) (d : List Byte) : Hub :=
  let g := h.guard ⟨0, a, n, wr, 5, 0, 0xFE⟩ false
  if !g.2 then g.1.out (.debug false (if wr then [] else List.replicate n 0#8))
  else if wr then (g.1.debugWrite a d).out (.debug true [])
  else
    let r := g.1.debugRead a n
    r.2.out (.debug true r.1)

/-- The fill of page colours ends: the accesses that waited proceed in order under the filled colours. -/
def Hub.fillDone (h : Hub) : Hub :=
  match h.ag.fillEnd with
  | none => h
  | some t =>
    let w := h.ag.waiting
    let h := (h.until t).modGuard (fun g => { g with fillEnd := none, waiting := [] })
    w.foldl (fun h x => match x with
      | .frame f m => if h.frameHolds f then h.modBr (fun r => { r with behind := r.behind ++ [⟨f, some m⟩] }) else h.targetAs f m
      | .piece p => h.servePiece p
      | .debug a n wr d => h.debugRun a n wr d) h

/-- How many commits ago a generation was current. -/
def Hub.genAge (h : Hub) (gen : Nat) : Nat := (h.pget P.AG_GENERATION 0 + 2 ^ 32 - gen) % 2 ^ 32

/-- Accesses of a generation older than `gen` are in flight (R405). -/
def Hub.olderInFlight (h : Hub) (gen : Nat) : Bool := h.br.targets.any (fun t => h.genAge gen < h.genAge t.gen)

/-- The newest generation whose older accesses have all ended (R406). -/
def Hub.drainedGen (h : Hub) : Nat :=
  (h.pget P.AG_GENERATION 0 + 2 ^ 32 - (h.br.targets.map (fun t => h.genAge t.gen)).foldl max 0) % 2 ^ 32

end Sys2Proof.Machine
end

