-- ==== Sys2Proof/Machine/Fuse.lean ====
section
/-!
DEFINITION. The 12 V inputs (R345 to R348) and the fuse channels (R349 to R359) of chapter 14.  Voltages and currents are analog: commands carry their
samples, and between two samples each stands at the last one (log 134).
-/
namespace Sys2Proof.Machine

/-! ## The 12 V inputs -/

/-- The supply part changed. -/
def Hub.modSu (h : Hub) (f : Supply → Supply) : Hub := { h with su := f h.su }

/-- A voltage of input i judged (R345): outside its limits bad, well inside good, between as before. -/
def Hub.judge (h : Hub) (i mv : Nat) : Bool :=
  let uv := h.pget P.FU_SUPPLY_UV i
  let ov := h.pget P.FU_SUPPLY_OV i
  if mv < uv || ov < mv then false
  else if uv + 300 ≤ mv && mv + 300 ≤ ov then true
  else if i = 0 then h.su.mainOk else h.su.backOk

/-- Input i is judged good (R345). -/
def Hub.inputOk (h : Hub) (i : Nat) : Bool := if i = 0 then h.su.mainOk else h.su.backOk

/-- A voltage of input i seen. -/
def Hub.seeInput (h : Hub) (i mv : Nat) : Hub :=
  let ok := h.judge i mv
  h.modSu (fun s => if i = 0 then { s with mainMv := mv, mainOk := ok, goodAt := if ok && s.mainOk then s.goodAt else h.clk.up }
    else { s with backMv := mv, backOk := ok })

/-- The switch-over of R346 onto an input, with the cause of SUPPLY_SWITCH.  Its make comes at most 2 µs after it is qualified (R348); how soon is a free
value, and until then FU_SUPPLY_STATE shows it (log 136). -/
def Hub.switchOver (h : Hub) (to_ cause : Nat) : Hub :=
  let r := h.fresh
  let h := r.2.modSu (fun s => { s with busyTo := h.clk.up + 1 + r.1 % us 2 })
  let h := h.modSu (fun s => if to_ = 0 then { s with inUse := 0, mainCut := false } else { s with inUse := 1, backCut := false })
  let h := (h.out (.power "SUPPLY" [to_])).bump P.FU_SWITCHOVERS to_
  (h.raise (2 ^ intSupply)).event .supplySwitch [(0, 1, to_), (1, 1, cause), (4, 2, h.su.mainMv), (6, 2, h.su.backMv)]

/-- Both inputs are bad: no switch (R346). -/
def Hub.bothBad (h : Hub) : Hub := h.event .supplyBothBad [(0, 2, h.su.mainMv), (2, 2, h.su.backMv)]

/-- Input i has been bad for 2 µs, at `mv`, the other at `other` (R346). -/
def Hub.inputBad (h : Hub) (i mv other : Nat) : Hub :=
  let tooHigh := h.pget P.FU_SUPPLY_OV i < mv
  let h := (h.seeInput i mv).seeInput (1 - i) other
  if h.inputOk i || h.su.inUse ≠ i then h
  else if !h.inputOk (1 - i) then h.bothBad
  else if i = 0 then h.switchOver 1 (b2n tooHigh) else h.switchOver 0 3

/-- VMAIN has been good for FU_RETURN_DELAY, by its samples (R345, R346). -/
def Hub.supplyReturn (h : Hub) : Hub :=
  if h.su.inUse = 0 || !h.su.mainOk then h else (h.until (h.su.goodAt + ms (h.pget P.FU_RETURN_DELAY 0))).switchOver 0 2

/-- An ideal-diode controller turns its FET off (R347). -/
def Hub.diodeOff (h : Hub) (i : Nat) : Hub :=
  (h.modSu (fun s => if i = 0 then { s with mainCut := true } else { s with backCut := true })).out (.power "FET_OFF" [i])

/-- The thresholds of input i have changed: the voltage it was last seen at, if any, is judged anew (R345). -/
def Hub.rejudge (h : Hub) (i : Nat) : Hub :=
  let mv := if i = 0 then h.su.mainMv else h.su.backMv
  if mv = 0 then h else h.seeInput i mv

/-- FU_SUPPLY_STATE. -/
def Hub.supplyState (h : Hub) : Nat := h.su.inUse + 2 * b2n h.su.mainOk + 4 * b2n h.su.backOk + 8 * b2n (h.clk.up < h.su.busyTo)

/-! ## Fuse channels -/

/-- Channel c: F0 to F4. -/
def Hub.fuse (h : Hub) (c : Nat) : Fuse := nth h.fu c Fuse.reset

/-- Channel c changed. -/
def Hub.modFuse (h : Hub) (c : Nat) (f : Fuse → Fuse) : Hub := { h with fu := modAt h.fu c f }

/-- The base current in force (R349). -/
def Hub.baseOf (h : Hub) (c : Nat) : Nat := if c = 0 then h.pget P.FU_BASE 0 else (h.fuse c).base

/-- The gate is on. -/
def FuState.gate (s : FuState) : Bool := s == .ramp || s == .on || s == .limit

/-! ## The limit in force, the SOA integrator and the curve counters (R350 to R354)

Samples come each µs of uptime.  Currents are in sixteenths of a mA, the integrator in mW times ns. -/

/-- The current limit in force (R350): in RAMP the lower of FU_RAMP_LIMIT and FU_ILIM_MULT times the base. -/
def Hub.fuseLimit (h : Hub) (c : Nat) : Nat :=
  let l := h.pget P.FU_ILIM_MULT c * h.baseOf c
  if (h.fuse c).state = .ramp then min l (16 * h.pget P.FU_RAMP_LIMIT c) else l

/-- The current of a channel: in current limit the limit in force, to which its gate driver regulates it; else as last sampled. -/
def Hub.fuseCurrent (h : Hub) (c : Nat) : Nat := if (h.fuse c).limit.isSome then h.fuseLimit c else 16 * (h.fuse c).mA

/-- The output stands at 90 % of the input or above. -/
def Fuse.outGood (f : Fuse) : Bool := 9 * f.vin ≤ 10 * f.vout

/-- The multiples of `n` µs of uptime since the channel's integrator and counters were brought up. -/
def Hub.samplesSince (h : Hub) (c n : Nat) : Nat := h.clk.up / us n - (h.fuse c).seenAt / us n

/-- One mJ of the integrator. -/
def soaUnit : Nat := 10 ^ 9

/-- FU_SOA_BUDGET in units of the integrator. -/
def Hub.soaBudget (h : Hub) (c : Nat) : Nat := soaUnit * h.pget P.FU_SOA_BUDGET c

/-- What a sample adds to the integrator in current limit (R352). -/
def Hub.soaRise (h : Hub) (c : Nat) : Nat := ((h.fuse c).vin - (h.fuse c).vout) * h.fuseCurrent c / 16

/-- The integrator now: in current limit it has risen at each sample, below a budget that has not tripped; else it has fallen at FU_SOA_DECAY. -/
def Hub.soaNow (h : Hub) (c : Nat) : Nat :=
  let f := h.fuse c
  if h.soaBudget c = 0 then 0
  else if f.limit.isSome then min (f.soa + h.samplesSince c 1 * h.soaRise c) (max f.soa (h.soaBudget c - 1))
  else f.soa - h.samplesSince c 1 * (h.pget P.FU_SOA_DECAY c * us 1)

/-- The sample at which the integrator reaches a budget that is not 0, in current limit. -/
def Hub.soaAt (h : Hub) (c : Nat) : Option Nat :=
  let f := h.fuse c
  if h.soaBudget c = 0 || f.limit.isNone || (h.soaRise c = 0 && f.soa < h.soaBudget c) then none
  else some (us (f.seenAt / us 1 + (h.soaBudget c - f.soa + h.soaRise c - 1) / h.soaRise c))

/-- Curve point k of channel c: its MULT, 0 for a point that is off, and its TIME in µs. -/
def Hub.curvePoint (h : Hub) (c k : Nat) : Nat × Nat :=
  let v := h.pget P.FU_CURVE (8 * c + k)
  (bits v 40 8, bits v 0 32)

/-- The curve is evaluated at point k: the point is enabled, and the channel is in ON or LIMIT (R353). -/
def Hub.curveRuns (h : Hub) (c k : Nat) : Bool :=
  (h.curvePoint c k).1 != 0 && ((h.fuse c).state == .on || (h.fuse c).state == .limit)

/-- The current is at or above point k's multiple of the base. -/
def Hub.curveOver (h : Hub) (c k : Nat) : Bool := (h.curvePoint c k).1 * h.baseOf c ≤ h.fuseCurrent c

/-- Counter k now: it has risen by 1 at each sample, below a TIME that has not tripped, or fallen by 1 once in 8 samples (R353). -/
def Hub.curveNow (h : Hub) (c k : Nat) : Nat :=
  let v := nth (h.fuse c).curve k 0
  if !h.curveRuns c k then v
  else if h.curveOver c k then min (v + h.samplesSince c 1) (max v ((h.curvePoint c k).2 - 1))
  else v - h.samplesSince c 8

/-- The integrator and the counters brought to the present instant. -/
def Hub.fuseSense (h : Hub) (c : Nat) : Hub :=
  h.modFuse c (fun f => { f with soa := h.soaNow c, curve := (List.range 8).map (h.curveNow c), seenAt := h.clk.up })

/-- The sample at which counter k reaches its TIME. -/
def Hub.curveAt (h : Hub) (c k : Nat) : Option Nat :=
  let f := h.fuse c
  if k < 8 && h.curveRuns c k && h.curveOver c k then some (us (f.seenAt / us 1 + ((h.curvePoint c k).2 - nth f.curve k 0))) else none

/-- All channels' integrators and counters brought to the present instant, before something they count with changes. -/
def Hub.fusesSense (h : Hub) : Hub := (List.range 5).foldl Hub.fuseSense h

/-- A sample of a channel's voltages. -/
def Hub.fuseVolts (h : Hub) (c vin vout : Nat) : Hub := (h.fuseSense c).modFuse c (fun f => { f with vin := vin, vout := vout })

/-- A sample of a channel's current. -/
def Hub.fuseAmps (h : Hub) (c mA : Nat) : Hub := (h.fuseSense c).modFuse c (fun f => { f with mA := mA })

/-- The base of F1 to F4 changes: no timer and no counter is reset (R349). -/
def Hub.setBase (h : Hub) (c mA : Nat) : Hub := (h.fuseSense c).modFuse c (fun f => { f with base := mA })

/-- The code of R356. -/
def FuState.code : FuState → Nat
  | .off => 0 | .ramp => 1 | .on => 2 | .limit => 3 | .backoff => 4 | .latched => 5 | .noInput => 6

/-- FU_STATE: the trip count is 3 bits wide and stops at 7. -/
def Fuse.word (f : Fuse) : Nat := f.state.code + 16 * b2n f.pg + 32 * b2n f.limit.isSome + 64 * min 7 f.n

/-- Entry into RAMP: gate on, the curve counters at 0, fault timer and power good from the start. -/
def Hub.fuseRamp (h : Hub) (c : Nat) : Hub :=
  ((h.fuseSense c).modFuse c (fun f =>
    { f with state := .ramp, pg := false, limit := none, acc := 0, goodAt := none, curve := List.replicate 8 0 })).out (.power "FU_GATE" [c, 1])

/-- The gate turns off. -/
def Hub.fuseGateLow (h : Hub) (c : Nat) (s : FuState) : Hub :=
  ((h.fuseSense c).modFuse c (fun f => { f with state := s, pg := false, limit := none, acc := 0, goodAt := none, mA := 0 })).out (.power "FU_GATE" [c, 0])

/-- The gate turns off and the discharge path is enabled as R355 says. -/
def Hub.fuseGateOff (h : Hub) (c : Nat) (s : FuState) : Hub :=
  let h := h.fuseGateLow c s
  if c ≠ 0 || h.pget P.FU_DISCHARGE 0 = 1 then h.out (.power "FU_DIS" [c]) else h

/-- F0's input is good (R356). -/
def Hub.vinGood (h : Hub) : Bool := h.pget P.FU_VIN_UV 0 ≤ (h.fuse 0).vin

/-- F0 in OFF with FU_ENABLE 1 and its input good ramps (R356). -/
def Hub.fuseKick (h : Hub) : Hub :=
  if (h.fuse 0).state = .off && h.pget P.FU_ENABLE 0 = 1 && h.vinGood then h.fuseRamp 0 else h

/-- FU_ENABLE written (R356). -/
def Hub.fuEnable (h : Hub) (v : Nat) : Hub :=
  let s := (h.fuse 0).state
  if v = 1 then h.fuseKick else if s = .off || s = .latched then h else h.fuseGateOff 0 .off

/-- A Type-C port applies or removes VBUS at its channel (R356).  A channel that backs off has its gate off already, and stays in BACKOFF until
its wait ends, which R315 waits for (DEDUCED, log 135). -/
def Hub.fuseVbus (h : Hub) (c : Nat) (on : Bool) : Hub :=
  let s := (h.fuse c).state
  if on then (if s = .off then h.fuseRamp c else h)
  else if s.gate then h.fuseGateOff c .off else h

/-- A trip at the channel's current (R355, R356): cause 0 fast, 1 SOA, 2 fault timer, 3 curve with its point.  The Bool says whether there was a trip. -/
def Hub.fuseTripOf (h : Hub) (c cause point : Nat) : Hub × Bool :=
  let f := h.fuse c
  if !f.state.gate then (h, false)
  else
    let mA := h.fuseCurrent c / 16
    let n := f.n + 1
    let latched := h.pget P.FU_RETRIES c < n
    let wait := if latched then 0 else 100 * 2 ^ (n - 1)
    let h := h.fuseGateOff c (if latched then .latched else .backoff)
    let word := h.clk.ns / 1000 % 2 ^ 48 * 65536 + min 255 (mA / 100) * 256 + point * 16 + cause
    let h := h.modFuse c (fun f => { f with n := n, endAt := h.clk.up + ms wait, last := word })
    let h := h.bump P.FU_TRIPS c
    let h := if cause = 0 then h.bump P.FU_FAST_TRIPS c else h
    let h := (h.raise (2 ^ intSupply)).event .fuseTrip [(0, 1, c), (1, 1, cause), (2, 1, point), (3, 1, n), (4, 4, mA), (8, 4, wait)]
    (if latched then h.event .fuseLatched [(0, 1, c), (1, 1, n)] else h, true)

/-- Out of limit in ON, the output at 90 % of the input or above starts power good's 1 ms; below it, power good drops and its 1 ms starts anew
(R358). -/
def Fuse.judgeOut (f : Fuse) (now : Nat) : Fuse :=
  if f.state ≠ .on || f.limit.isSome then f
  else if f.outGood then { f with goodAt := some (f.goodAt.getD now) }
  else { f with pg := false, goodAt := none }

/-- A sample of the output: in RAMP and out of limit, ON once it has reached 90 % of the input (R350). -/
def Hub.fuseOutput (h : Hub) (c vin vout : Nat) : Hub :=
  (h.fuseVolts c vin vout).modFuse c (fun f =>
    let f : Fuse := if f.state = .ramp && f.limit.isNone && f.outGood then { f with state := .on } else f
    f.judgeOut h.clk.up)

/-- The fault timer returns to 0 once the channel has stayed out of limit for 1 ms (R351). -/
def Fuse.settleTimer (f : Fuse) (now : Nat) : Fuse := if f.limit.isNone && f.outAt + ms 1 ≤ now then { f with acc := 0 } else f

/-- The current has reached the limit in force, which the gate driver keeps it to (R350, R351, R355, R358). -/
def Hub.fuseLimitEngage (h : Hub) (c vin vout mA : Nat) : Hub :=
  let h := (h.fuseVolts c vin vout).fuseAmps c mA
  let f := h.fuse c
  if !(f.state = .ramp || f.state = .on) || f.limit.isSome || 16 * mA < h.fuseLimit c then h
  else h.modFuse c (fun f =>
    let f := f.settleTimer h.clk.up
    { f with state := if f.state = .on then .limit else .ramp, limit := some h.clk.up, goodAt := none, mA := h.fuseLimit c / 16 })

/-- The current has fallen below the limit in force: the fault timer pauses (R351); power good kept within its hold stays (R358). -/
def Hub.fuseLimitRelease (h : Hub) (c vout mA : Nat) : Hub :=
  let h := h.fuseVolts c (h.fuse c).vin vout
  match (h.fuse c).limit with
  | none => h.fuseAmps c mA
  | some t =>
    if h.fuseLimit c ≤ 16 * mA then h
    else h.modFuse c (fun f =>
      let f : Fuse := { f with state := if f.state = .limit then .on else f.state, limit := none, acc := f.acc + (h.clk.up - t), outAt := h.clk.up,
                               pg := f.pg && h.clk.up ≤ t + us 100, goodAt := none, mA := mA }
      f.judgeOut h.clk.up)

/-- 1 ms out of limit (R351). -/
def Hub.faultTimerClear (h : Hub) (c : Nat) : Hub :=
  let f := h.fuse c
  if f.limit.isSome then h else (h.until (f.outAt + ms 1)).modFuse c (fun f => { f with acc := 0 })

/-- The instant the fault timer reaches FU_FAULT_TIME, while the channel is in limit. -/
def Hub.faultAt (h : Hub) (c : Nat) : Option Nat :=
  (h.fuse c).limit.map (fun t => t + (ms (h.pget P.FU_FAULT_TIME c) - (h.fuse c).acc))

/-- Power good has held its conditions for 1 ms (R358). -/
def Hub.fusePgAssert (h : Hub) (c : Nat) : Hub :=
  let f := h.fuse c
  match f.goodAt with
  | some t =>
    if f.state = .on && !f.pg then
      let h := h.until (t + ms 1)
      h.modFuse c (fun f => { f with pg := true, pgAt := h.clk.up })
    else h
  | none => h

/-- Still in limit at the end of the 100 µs hold (R358). -/
def Hub.fusePgHoldEnd (h : Hub) (c : Nat) : Hub :=
  match (h.fuse c).limit with
  | none => h
  | some t => (h.until (t + us 100)).modFuse c (fun f => { f with pg := false })

/-- Power good held for FU_RETRY_CLEAR (R356). -/
def Hub.fuseRetryClear (h : Hub) (c : Nat) : Hub :=
  let f := h.fuse c
  if f.state = .on && f.pg then (h.until (f.pgAt + ms (h.pget P.FU_RETRY_CLEAR c))).modFuse c (fun f => { f with n := 0 }) else h

/-- The backoff wait ends (R356). -/
def Hub.fuseBackoffEnd (h : Hub) (c : Nat) : Hub :=
  if (h.fuse c).state ≠ .backoff then h
  else
    let h := h.until (h.fuse c).endAt
    if c = 0 then h.fuseRamp 0 else h.modFuse c (fun f => { f with state := .off })

/-- F0's input has been below FU_VIN_UV for 10 µs (R356). -/
def Hub.fuseInputLost (h : Hub) (mv : Nat) : Hub :=
  let h := h.fuseVolts 0 mv (h.fuse 0).vout
  if h.vinGood || !(h.fuse 0).state.gate then h
  else
    (h.fuseGateLow 0 .noInput).event .fuseInput [(0, 1, 0), (1, 1, 1), (2, 2, mv)]

/-- F0's input has been at or above FU_VIN_UV for 100 ms (R356). -/
def Hub.fuseInputRestored (h : Hub) (mv : Nat) : Hub :=
  let h := h.fuseVolts 0 mv (h.fuse 0).vout
  if !h.vinGood then h
  else if (h.fuse 0).state = .noInput && h.pget P.FU_ENABLE 0 = 1 then
    (h.eventClear .fuseInput [(0, 1, 0), (1, 1, 0), (2, 2, mv)]).fuseRamp 0
  else h.fuseKick

/-- FUSE_RETRY (R357). -/
def Hub.fuseRetry (h : Hub) (r : Request) : Hub × Reply :=
  let c := r.arg 0 1
  if !r.has 4 || r.arg 1 3 ≠ 0 then (h, .err .badParam)
  else if 4 < c then (h, .err .range)
  else if (h.fuse c).state = .latched then
    let h := h.modFuse c (fun f => { f with state := .off, n := 0 })
    (if c = 0 then h.fuseKick else h, .ok [])
  else (h.modFuse c (fun f => { f with n := 0 }), .ok [])

/-- A cold reset: gates low, counts and latches clear (R356). -/
def Hub.fuseCold (h : Hub) : Hub := { h with fu := h.fu.map (fun f => { Fuse.reset with vin := f.vin }) }

end Sys2Proof.Machine
end

