-- ==== Sys2Proof/Machine/Usb.lean ====
section
/-!
DEFINITION. The USB host complex (chapter 11): ports and transfers (R292 to R299), the head's host rings (R300), over-current (R301),
suspend and resume (R302), event bindings (R303), the bus interval (R304), gating (R305), and the service port's reports (R306, R308).
-/
namespace Sys2Proof.Machine

/-- The complex changed. -/
def Hub.modUsbc (h : Hub) (f : Usb → Usb) : Hub := { h with usb := f h.usb }

/-- Root hub port p. -/
def Hub.usbp (h : Hub) (p : Nat) : UsbPort := nth h.usb.ports p (UsbPort.reset false)

/-- Root hub port p changed. -/
def Hub.modUsb (h : Hub) (p : Nat) (f : UsbPort → UsbPort) : Hub := h.modUsbc (fun u => { u with ports := modAt u.ports p f })

/-- Type-C port n. -/
def Hub.tcp (h : Hub) (n : Nat) : TcPort := nth h.tc n TcPort.reset

/-- Type-C port n changed. -/
def Hub.modTc (h : Hub) (n : Nat) (f : TcPort → TcPort) : Hub := { h with tc := modAt h.tc n f }

/-- The island of the complex. -/
def usbIsland : Nat := 8

/-- A port D0 to D3 serves a device while its Type-C port is attached as DFP (R293); P4 to P7 always may. -/
def Hub.usbServes (h : Hub) (p : Nat) : Bool :=
  4 ≤ p || (((h.tcp p).state == .attachedSrc || (h.tcp p).state == .attachedSnk) && (h.tcp p).dfp)

/-- US_PORT_ENABLE as the bus sees it: transfers begun while it was 1 end under it (R60). -/
def Hub.usbEnabled (h : Hub) (p : Nat) : Bool := h.pget P.US_PORT_ENABLE p = 1 || (h.usbp p).xfers.any (·.started)

/-- VBUS is wanted at a Type-C port: its state machine wants it, vSafe0V has been reached since the last detach (R316), and the USB
side has not turned the port off (R297, R301), and the hub has its core rails (R386). -/
def Hub.vbusWanted (h : Hub) (n : Nat) : Bool :=
  let t := h.tcp n
  let u := h.usbp n
  t.vbus && !t.dis && h.pw.state != .thermalOff && h.pw.state != .off && (t.state == .accessory || (u.power && !u.oc && h.usbEnabled n))

/-- The channel of a Type-C port follows what is wanted. -/
def Hub.vbusLevel (h : Hub) (n : Nat) : Hub := h.fuseVbus (n + 1) (h.vbusWanted n)

/-- A port is powered: its channel's gate is on, or its power enable is high. -/
def Hub.usbPowered (h : Hub) (p : Nat) : Bool :=
  if p < 4 then (h.fuse (p + 1)).state.gate || (h.tcp p).state == .attachedSnk
  else (h.usbp p).power && !(h.usbp p).oc && h.works usbIsland

/-- The fastest speed a port can run (R292, R293). -/
def Hub.usbTop (h : Hub) (p : Nat) : Nat := if 4 ≤ p || (h.tcp p).alt = 3 then 3 else h.pget P.US_SPEED_MAX p

/-- The owning tunnel of a port (R298). -/
def Hub.usbOwner (h : Hub) (p : Nat) : Option Nat :=
  (h.tuns.find? (fun e => e.2.type == tUsb && bit e.2.binding p)).map (·.1)

/-- The entry is a HOST one (R298). -/
def Hub.hostEntry (h : Hub) (i : Nat) : Bool := (h.tun i).type == tUsb && bit (h.tun i).binding 15

/-! ## Messages (R295) -/

/-- A message in wire order. -/
def usbMessage (op flags id port ep xtype status len : Nat) (setup : List Byte) (time : Nat) (data : List Byte) : List Byte :=
  [byte op, byte flags] ++ beBytes 2 id ++ [byte port, byte ep, byte xtype, byte status] ++ beBytes 4 len ++ fit 12 setup ++ beBytes 8 time ++ data

/-- A message sent on a USB tunnel. -/
def Hub.usbSend (h : Hub) (i : Nat) (b : List Byte) : Hub := h.frameSend 5 i false b (countedOf tUsb b)

/-- PORT_EVENT on the owning tunnel. -/
def Hub.portEvent (h : Hub) (p code flags : Nat) : Hub :=
  match h.usbOwner p with
  | none => h
  | some i => h.usbSend i (usbMessage 5 flags 0xFFFF p 0 code 0 (h.usbp p).speed [] h.clk.ns [])

/-- A transfer ends: COMPLETION with its status and data, counted (R296). -/
def Hub.complete (h : Hub) (p : Nat) (x : Xfer) (status len : Nat) (data : List Byte) : Hub :=
  let h := if status = 0 || status = 2 then h.bump P.US_XFER_DONE p else h.bump P.US_XFER_ERR p
  h.usbSend x.entry (usbMessage 2 x.flags x.id p x.ep x.xtype status len x.setup h.clk.ns data)

/-- Transfers of a port that the test picks end with a status and no data. -/
def Hub.endXfers (h : Hub) (p status : Nat) (pick : Xfer → Bool) : Hub :=
  let xs := (h.usbp p).xfers
  (xs.filter pick).foldl (fun h x => h.complete p x status 0 []) (h.modUsb p (fun u => { u with xfers := xs.filter (fun x => !pick x) }))

/-- The endpoint whose transfers run one after another: a control transfer to endpoint 0 waits for the one before it whatever its direction
(R299). -/
def Xfer.lane (x : Xfer) : Nat := if bits x.ep 0 4 = 0 then 0 else x.ep

/-- A transfer as it goes to the bus: endpoint, type, FLAGS with SHORT_OK and ZLP, LENGTH, SETUP, EPINFO and OUT data (R295). -/
def Xfer.request (x : Xfer) : List Byte := [byte x.ep, byte x.xtype, byte x.flags] ++ beBytes 4 x.len ++ x.setup ++ x.data

/-- Transfers of an addressed, powered, running port start: one at a time for each endpoint (R299). -/
def Hub.startXfers (h : Hub) (p : Nat) : Hub :=
  let u := h.usbp p
  if u.suspended || u.resume.isSome then h
  else
    let r := u.xfers.foldl (fun (a : List Xfer × List Nat × Hub) x =>
      if a.2.1.contains x.lane || x.started then (a.1 ++ [x], x.lane :: a.2.1, a.2.2)
      else (a.1 ++ [{ x with started := true }], x.lane :: a.2.1, a.2.2.out (.usb p "TRANSFER" x.request)))
      ([], [], h)
    r.2.2.modUsb p (fun u => { u with xfers := r.1 })

/-- Resume signalling begins. -/
def Hub.resumePort (h : Hub) (p : Nat) : Hub :=
  if (h.usbp p).resume.isSome then h
  else (h.modUsb p (fun u => { u with resume := some h.clk.up })).out (.usb p "RESUME" [])

/-- The hub resumes a port.  Resume signalling that a device's wake began within the last 1 ms is that resume, and coincident with it: REMOTE_WAKE,
already sent, is sent with FLAGS bit 2 set (R302; log 165). -/
def Hub.hubResume (h : Hub) (p : Nat) : Hub :=
  let u := h.usbp p
  match u.resume with
  | none => h.resumePort p
  | some t => if u.woken && !u.coincident && h.clk.up ≤ t + ms 1 then (h.modUsb p (fun u => { u with coincident := true })).portEvent p 3 4 else h

/-- The port is suspended, by command or because it was idle. -/
def Hub.suspendPort (h : Hub) (p : Nat) (byCommand : Bool) : Hub :=
  (h.modUsb p (fun u => { u with suspended := true, byCommand := byCommand, polls := [], coincident := false, woken := false, resume := none })).out (.usb p "SUSPEND" [])

/-- An isochronous message (XTYPE 1), its NPKT, and the bytes of its length list. -/
def isoList (b : List Byte) : Nat := if byteAt b 6 = 1 then 2 * byteAt b 20 else 0

/-- A TRANSFER, PORT_CMD or ABORT is well formed: no reserved value, and DATA as long as the message says. -/
def usbGood (b : List Byte) : Bool :=
  let op := byteAt b 0
  let flags := byteAt b 1
  let ep := byteAt b 5
  let xt := byteAt b 6
  let n := b.length - 32
  let info := be b 20 4
  32 ≤ b.length && b.length ≤ 16384 && byteAt b 4 < 8 && byteAt b 7 = 0 && be b 24 8 = 0 &&
    (if op = 1 then
      flags < 4 && bits ep 4 3 = 0 && xt < 4 && (xt = 0 || allZero (slice b 12 8)) &&
        (if xt = 1 then bits info 16 8 = 0 && bits info 14 1 = 0 else bits info 27 5 = 0 && bits info 8 8 = 0) &&
        n = isoList b + (if bit ep 7 then 0 else be b 8 4)
     else if op = 3 then flags = 0 && bits ep 4 3 = 0 && 1 ≤ xt && xt < 7 && allZero (slice b 12 8) && n = 0
     else op = 6 && flags = 0 && allZero (slice b 12 8) && (ep = 0xFF || bits ep 4 3 = 0) && n = 0)

/-- PORT_REPLY to a message (R296, R297). -/
def Hub.portReply (h : Hub) (f : Frame) (status : Nat) : Hub :=
  let b := f.bytes
  let p := byteAt b 4
  h.usbSend f.entry (usbMessage 4 0 (be b 2 2) p (byteAt b 5) (byteAt b 6) status (h.usbp p).speed [] 0 [])

/-- The entry's PORT_MASK admits the port, and the port may be used. -/
def Hub.usbAllowed (h : Hub) (f : Frame) : Bool := bit (h.tun f.entry).binding (byteAt f.bytes 4) && h.pget P.US_PORT_ENABLE (byteAt f.bytes 4) = 1

/-! ## Event bindings (R303) -/

/-- The valid bindings. -/
def Hub.bindings (h : Hub) : List (Nat × Nat) := (h.tableRows 0x40).filter (fun e => bit e.2 7)

/-- Port and endpoint of a binding. -/
def bindPort (v : Nat) : Nat := bits v 8 3
def bindEp (v : Nat) : Nat := bits v 16 4

/-- Why a binding that sets VALID is refused, or nothing. -/
def Hub.bindingRefusal (h : Hub) (i v : Nat) : Option Status :=
  if !bit v 7 then none
  else if bits v 0 5 ≠ 0 || bits v 11 5 ≠ 0 || bits v 20 4 ≠ 0 || bits v 75 5 ≠ 0 || bits v 80 48 ≠ 0 || bindEp v = 0 || bits v 48 8 = 0 ||
      32 < bits v 48 8 || bits v 64 11 = 0 || 1024 < bits v 64 11 || bits v 56 8 = 0 ||
      h.bindings.any (fun e => e.1 != i && bindPort e.2 == bindPort v && bindEp e.2 == bindEp v) then some .badParam
  else none

/-- The endpoint is held by a binding. -/
def Hub.bound (h : Hub) (p ep : Nat) : Bool := h.bindings.any (fun e => bindPort e.2 == p && bindEp e.2 + 128 == ep)

/-- A binding v is polled: its device is addressed and powered, and the port is not suspended by command (R303). -/
def Hub.polls (h : Hub) (v : Nat) : Bool :=
  let p := bindPort v
  let u := h.usbp p
  bit v 7 && h.works usbIsland && u.addressed && h.usbPowered p && h.usbServes p && !(u.suspended && u.byCommand)

/-- The value of binding i under which its poll runs: a poll completes under the entry it began with (R60). -/
def Hub.pollOf (h : Hub) (i : Nat) : Nat :=
  (((h.usb.ports.flatMap UsbPort.polls).find? (fun e => e.1 == i)).map (·.2)).getD (h.tget 0x40 i)

/-- The poll of binding i is over. -/
def Hub.endPoll (h : Hub) (i : Nat) : Hub :=
  h.modUsbc (fun c => { c with ports := c.ports.map (fun u => { u with polls := u.polls.filter (fun e => e.1 != i) }) })

/-- One poll of a binding's endpoint begins. -/
def Hub.bindingPoll (h : Hub) (i : Nat) : Hub :=
  let v := h.tget 0x40 i
  if h.polls v then
    ((h.endPoll i).modUsb (bindPort v) (fun u => { u with polls := u.polls ++ [(i, v)] })).out (.usb (bindPort v) "POLL" [byte (bindEp v)])
  else h

/-- A report of a binding completes. -/
def Hub.usbReport (h : Hub) (i : Nat) (b : List Byte) : Hub :=
  let v := h.pollOf i
  if !h.polls v then h
  else
    let h := h.endPoll i
    let p := bindPort v
    let o := bits v 32 16
    let n := bits v 48 8
    let h' := if bit v 5 && byteAt b 0 ≠ bits v 24 8 then h
      else if b.length < o + n then h.bump P.US_BIND_SHORT i
      else h.pushEvent ⟨1, slice b o n, h.clk.ns, 0, 1, h.ownId⟩
    if bit v 6 then h'
    else match h.usbOwner p with
      | none => h'
      | some t =>
        let info := List.replicate 8 0#8 ++ beBytes 4 (bits v 64 11 * 65536 + bits v 56 8)
        h'.usbSend t (usbMessage 2 8 0xFFFF p (128 + bindEp v) 3 0 b.length info h.clk.ns b)

/-! ## Transfers -/

/-- Why a well-formed TRANSFER does not run (R294, R296, R299, R303), as a STATUS code, or nothing. -/
def Hub.xferRefusal (h : Hub) (f : Frame) : Option Nat :=
  let b := f.bytes
  let p := byteAt b 4
  let ep := byteAt b 5
  let xt := byteAt b 6
  let u := h.usbp p
  let info := be b 20 4
  if !h.usbAllowed f || h.bound p ep then some 10
  else if (xt = 0 && byteAt b 12 = 0 && byteAt b 13 = 5) || (bits ep 0 4 = 0 && xt ≠ 0) || (xt = 1 && (bits info 24 8 = 0 || 64 < bits info 24 8)) then some 9
  else if !u.addressed || u.speed = 0 || !h.usbPowered p || !h.usbServes p then some 8
  else if xt = 1 && !bit info 15 && 8192 ≤ (bits info 0 14 + 16384 - h.usb.micro % 16384) % 16384 then some 11
  else if 64 ≤ u.xfers.length || 256 ≤ (h.usb.ports.map (fun q => q.xfers.length)).sum then some 13
  else none

/-- A TRANSFER (R295, R302). -/
def Hub.usbTransfer (h : Hub) (f : Frame) : Hub :=
  let b := f.bytes
  let p := byteAt b 4
  let x : Xfer := ⟨f.entry, be b 2 2, byteAt b 5, byteAt b 6, byteAt b 1, be b 8 4, slice b 12 12, b.drop 32, false⟩
  match h.xferRefusal f with
  | some s => h.complete p x s 0 []
  | none =>
    let h := h.modUsb p (fun u => { u with xfers := u.xfers ++ [x] })
    if (h.usbp p).suspended then h.hubResume p else h.startXfers p

/-- A started transfer of an endpoint ends on the bus: 0 OK, 1 STALL, 2 SHORT, 3 BABBLE, 4 XACT_ERR, 5 DISCONNECTED (R296).  How much of
a failed OUT transfer went out is a free value (log 7). -/
def Hub.usbDone (h : Hub) (p ep result : Nat) (data : List Byte) : Hub :=
  match (h.usbp p).xfers.find? (fun x => x.ep == ep && x.started) with
  | none => h
  | some x =>
    if 5 < result then h
    else
      let h := h.modUsb p (fun u => { u with xfers := u.xfers.erase x })
      let iso := if x.xtype = 1 then 2 * byteAt x.setup 8 else 0
      let h :=
        if bit x.ep 7 then
          let got := data.length - iso
          let st := if result = 0 || result = 2 then (if x.len < got then 3 else if got < x.len && !bit x.flags 0 then 2 else 0) else result
          h.complete p x st (min got x.len) (data.take (iso + x.len))
        else if result = 0 then h.complete p x 0 x.len []
        else let r := h.fresh; r.2.complete p x result (r.1 % (x.len + 1)) []
      h.startXfers p

/-! ## Port commands (R297) -/

/-- POWER_ON: in ganged mode one of ports 4 to 7 powers all four (R301); a latched channel keeps VBUS off. -/
def Hub.powerOnPort (h : Hub) (p : Nat) : Hub × Nat :=
  if p < 4 && (h.fuse (p + 1)).state = .latched then (h, 6)
  else
    let ps := if 4 ≤ p && h.pget P.US_OC_MODE 0 = 1 then [4, 5, 6, 7] else [p]
    let h := ps.foldl (fun h p => h.modUsb p (fun u => { u with power := true, oc := false })) h
    if p < 4 then (h.vbusLevel p, 0) else (h.out (.usb p "POWER_ON" []), 0)

/-- VBUS of a port goes, and with it its device; its transfers end with a status. -/
def Hub.powerOffPort (h : Hub) (p status : Nat) : Hub :=
  let h := h.endXfers p status (fun _ => true)
  let h := h.modUsb p (fun u => { u with power := false, suspended := false, byCommand := false, addressed := false, polls := [], speed := 0, resume := none })
  if p < 4 then h.vbusLevel p else h.out (.usb p "POWER_OFF" [])

/-- RESET: the device of port p answers at address p + 1 afterwards (R294). -/
def Hub.resetPort (h : Hub) (p : Nat) : Hub × Nat :=
  let h := h.endXfers p 7 (fun _ => true)
  if (h.usbp p).speed = 0 || !h.usbPowered p || !h.usbServes p then (h, 8)
  else
    ((h.modUsb p (fun u => { u with addressed := true, polls := [], suspended := false, byCommand := false, resume := none })).out (.usb p "RESET" [byte (p + 1)]), 0)

/-- A PORT_CMD by its code on an allowed port: the status of its reply. -/
def Hub.portCmd (h : Hub) (p cmd : Nat) : Hub × Nat :=
  let u := h.usbp p
  let live := u.addressed && h.usbPowered p && h.usbServes p
  if cmd = 1 then h.powerOnPort p
  else if cmd = 2 then (h.powerOffPort p 7, 0)
  else if cmd = 3 then h.resetPort p
  else if cmd = 4 then (if live then (h.suspendPort p true, 0) else (h, 8))
  else if cmd = 5 then (if live then (if u.suspended then h.hubResume p else h, 0) else (h, 8))
  else (h, 0)

/-! ## Frames that arrive -/

/-- The completion ring of the head holds a place (R300, R37). -/
def Hub.hostRing (h : Hub) : Nat × Nat := (h.memt (h.pget P.US_RING_BASE 0), 2 ^ h.pget P.US_RING_ORDER 0)

/-- A 4-byte index of the host ring. -/
def Hub.ringIndex (h : Hub) (o : Nat) : Nat := leNat (readMem h.dram (h.hostRing.1 + o) 4)

/-- A host-ring index written. -/
def Hub.setRingIndex (h : Hub) (o v : Nat) : Hub := { h with dram := writeMem h.dram (h.hostRing.1 + o) (leBytes 4 v) }

/-- Slot bytes (R300). -/
def hostSlot : Nat := 16448

/-- A message from a node enters the completion ring, or waits while the ring is full. -/
def Hub.hostPut (h : Hub) (f : Frame) : Hub :=
  let r := h.hostRing
  let prod := h.ringIndex 8
  let used := (prod + 2 ^ 32 - h.ringIndex 12) % 2 ^ 32
  if h.pget P.US_RING_ORDER 0 = 0 || 16384 < f.bytes.length then (h.takeFrame 5 f).bump P.US_MSG_ERR 0
  else if r.2 ≤ used then h
  else
    let at_ := r.1 + 64 + r.2 * hostSlot + prod % r.2 * hostSlot
    let h := h.takeFrame 5 f
    let h : Hub := { h with dram := writeMem h.dram at_ (leBytes 2 f.entry ++ leBytes 2 f.bytes.length ++ leBytes 4 0 ++ f.bytes) }
    let h := h.setRingIndex 8 ((prod + 1) % 2 ^ 32)
    if used = 0 then h.event .usbRing [(0, 4, (prod + 1) % 2 ^ 32)] else h

/-- A message delivered while I-USB is gated (R305, R192). -/
def Hub.usbRefuse (h : Hub) (f : Frame) : Hub :=
  let h := h.takeFrame 5 f
  if h.al.gov.level = 3 then h.bump P.AL_GOV_DROP 5 else h.bump P.US_MSG_ERR 0

/-- A message delivered to the complex. -/
def Hub.usbRx (h : Hub) (f : Frame) : Hub :=
  let b := f.bytes
  let p := byteAt b 4
  if !h.works usbIsland then h.usbRefuse f
  else if h.hostEntry f.entry && !f.control then h.hostPut f
  else
    let h := h.takeFrame 5 f
    if f.control || !usbGood b then h.bump P.US_MSG_ERR 0
    else
      let h := h.modUsb p (fun u => { u with lastAt := h.clk.up })
      if byteAt b 0 = 1 then h.usbTransfer f
      else if !h.usbAllowed f then h.portReply f 10
      else if byteAt b 0 = 6 then
        ((h.endXfers p 7 (fun x => byteAt b 5 == 0xFF || x.ep == byteAt b 5)).portReply f 0).startXfers p
      else let r := h.portCmd p (byteAt b 6); r.1.portReply f r.2

/-- The frames waiting at US for the completion ring enter it as it has room (R147, R300). -/
def Hub.hostIntake (h : Hub) : Hub :=
  ((h.inbox.filter (fun e => e.1 == 5 && h.hostEntry e.2.entry && !e.2.control)).map (·.2)).foldl
    (fun h f => if h.works usbIsland then h.hostPut f else h.usbRefuse f) h

/-- One request slot of the host ring. -/
def Hub.hostTake (h : Hub) : Hub :=
  let r := h.hostRing
  let cons := h.ringIndex 4
  let at_ := r.1 + 64 + cons % r.2 * hostSlot
  let i := leNat (readMem h.dram at_ 2)
  let n := leNat (readMem h.dram (at_ + 2) 2)
  let h := h.setRingIndex 4 ((cons + 1) % 2 ^ 32)
  if i < 1024 && (h.tun i).valid && h.hostEntry i && n ≤ 16384 then h.usbSend i (readMem h.dram (at_ + 8) n) else h.bump P.US_MSG_ERR 0

/-- n request slots are taken. -/
def Hub.hostTakeN : Nat → Hub → Hub
  | 0, h => h
  | n + 1, h => hostTakeN n h.hostTake

/-- REQ_PROD is read (R300). -/
def Hub.ringPoll (h : Hub) : Hub :=
  if !h.isHead || h.pget P.US_RING_ORDER 0 = 0 || !h.works usbIsland then h
  else hostTakeN (min h.hostRing.2 ((h.ringIndex 0 + 2 ^ 32 - h.ringIndex 4) % 2 ^ 32)) h

/-- The pair of R300 closed, whatever the ORDER: the four indices are 0.  With ORDER 0 the base need not lie in the memory tunnel area, and then
there are no indices. -/
def Hub.ringClosed (h : Hub) : Hub :=
  if h.pget P.BR_MEMT_SIZE 0 < h.pget P.US_RING_BASE 0 + 16 then h else [0, 4, 8, 12].foldl (fun h o => h.setRingIndex o 0) h

/-! ## Over-current, suspend, wake, attach -/

/-- An over-current of ports (R301): cause 0 OC_N, 1 fuse channel. -/
def Hub.usbOc (h : Hub) (ps : List Nat) (p cause ganged : Nat) : Hub :=
  let h := ps.foldl (fun h p =>
    let h := (h.modUsb p (fun u => { u with oc := true })).out (.usb p "POWER_OFF" [])
    let h := (h.endXfers p 6 (fun _ => true)).portEvent p 4 0
    (h.modUsb p (fun u => { u with suspended := false, byCommand := false, addressed := false, polls := [], speed := 0, resume := none })).bump P.US_OC_TRIPS p) h
  (h.raise (2 ^ intLink)).event .usbOvercurrent [(0, 1, p), (1, 1, cause), (2, 1, ganged)]

/-- OC_N of ports 4 to 7 low for US_OC_DEGLITCH, or the over-current of a port D0 to D3 (R301). -/
def Hub.usbOvercurrent (h : Hub) (p : Nat) : Hub :=
  let ganged := h.pget P.US_OC_MODE 0 = 1
  if !h.works usbIsland then h
  else if p < 4 then h.usbOc [p] p 1 0
  else if !ganged then h.usbOc [p] p 0 0
  else if p = 4 then h.usbOc [4, 5, 6, 7] 4 0 1
  else h

/-- The idle time of R302 in ms; 0 turns it off. -/
def Hub.idleTime (h : Hub) : Nat :=
  let t := h.pget P.US_IDLE_SUSPEND 0
  if h.al.gov.level = 0 then t else min t (h.govNow 4 P.AL_GOV_IDLE_SUSPEND 0)

/-- An idle port is suspended (R302). -/
def Hub.usbIdle (h : Hub) (p : Nat) : Hub :=
  let u := h.usbp p
  if h.idleTime = 0 || !h.works usbIsland || u.speed = 0 || !h.usbPowered p || u.suspended || !u.xfers.isEmpty ||
      h.bindings.any (fun e => bindPort e.2 == p) then h
  else ((h.until (u.lastAt + ms h.idleTime)).suspendPort p false).portEvent p 5 0

/-- Resume signalling stands on a port: 20 ms from its start, or until a SuperSpeed device has left U3 (R302). -/
def Hub.resuming (h : Hub) (p : Nat) : Bool :=
  match (h.usbp p).resume with | some t => 4 ≤ (h.usbp p).speed || h.clk.up < t + ms 20 | none => false

/-- A device signals remote wake (R302): one that meets resume signalling is satisfied by it; in the recovery after that nothing is asleep. -/
def Hub.usbWake (h : Hub) (p : Nat) : Hub :=
  let u := h.usbp p
  let co := h.resuming p
  if !h.works usbIsland || !u.suspended || (u.resume.isSome && !co) then h
  else
    let h := if co then h.modUsb p (fun u => { u with coincident := true }) else (h.resumePort p).modUsb p (fun u => { u with woken := true })
    (h.portEvent p 3 (if co then 4 else 0)).event .usbRemoteWake [(0, 1, p), (1, 1, b2n co)]

/-- 20 ms of resume and 10 ms of recovery end, or a SuperSpeed device has left U3, for which R302 states no time: the port runs and its transfers
start. -/
def Hub.resumeEnd (h : Hub) (p : Nat) : Hub :=
  match (h.usbp p).resume with
  | none => h
  | some t =>
    let h := if 4 ≤ (h.usbp p).speed then h else h.until (t + ms 30)
    ((h.modUsb p (fun u =>
      { u with suspended := false, byCommand := false, woken := false, resume := none })).portEvent p 6 0).startXfers p

/-- The device of a port is gone: its transfers end DISCONNECTED (R296, R316). -/
def Hub.usbDetach (h : Hub) (p : Nat) : Hub :=
  if (h.usbp p).speed = 0 then h
  else
    let h := (h.endXfers p 5 (fun _ => true)).modUsb p (fun u =>
      { u with speed := 0, addressed := false, polls := [], suspended := false, byCommand := false, resume := none })
    ((h.portEvent p 2 0).raise (2 ^ intLink)).event .usbAttach [(0, 1, p), (1, 1, 0), (2, 1, 0)]

/-- A device attaches to or detaches from a port (R309): it runs at its own speed or the port's fastest. -/
def Hub.usbAttach (h : Hub) (p : Nat) (attach : Bool) (speed : Nat) : Hub :=
  if !attach then h.usbDetach p
  else if !h.works usbIsland || !h.usbServes p || !h.usbPowered p || h.pget P.US_PORT_ENABLE p = 0 || (h.usbp p).speed ≠ 0 || speed = 0 || 5 < speed then h
  else
    let s := min speed (h.usbTop p)
    let h := h.modUsb p (fun u => { u with speed := s, addressed := false, polls := [], suspended := false })
    ((h.portEvent p 1 0).raise (2 ^ intLink)).event .usbAttach [(0, 1, p), (1, 1, 1), (2, 1, s)]

/-- US_PORT_ENABLE written (R309: 1, port may be powered and used): 0 ends the transfers that have not begun. -/
def Hub.usbEnable (h : Hub) (p v : Nat) : Hub :=
  if v = 0 then h.endXfers p 7 (fun x => !x.started) else if p < 4 then (h.modUsb p (fun u => { u with power := true })).vbusLevel p else h

/-- A port whose US_PORT_ENABLE is 0 is off, once the transfers begun before that have ended (R60). -/
def Hub.usbLevel (h : Hub) (p : Nat) : Hub := if (h.usbp p).power && !h.usbEnabled p then h.powerOffPort p 7 else h

/-! ## Bus interval (R304) -/

/-- An untrimmed microframe in 1/960 ns; a step of trim is 125 of them. -/
def microLen : Int := 120000000

/-- A number between bounds. -/
def clampInt (lo hi x : Int) : Int := max lo (min hi x)

/-- The trim a mode holds: mode 0 none, mode 1 as written, mode 2 the last in force. -/
def Hub.sofTrim (h : Hub) : Int :=
  let m := h.pget P.US_SOF_MODE 0
  if m = 0 then 0 else if m = 1 then toSigned 16 (h.pget P.US_SOF_TRIM 0) else h.usb.trim

/-- A microframe starts.  Locked to a synchronised line time, it takes the steps that bring the next start to its place in line time, rounded down,
so that the trim alternates between the two steps that adjoin what the clocks' rates ask for; at most 480 steps (log 166). -/
def Hub.sof (h : Hub) : Hub :=
  if !h.works usbIsland then h
  else
    let u := h.usb
    let now : Int := h.clk.up * 960
    let start : Int := if u.sofAt = 0 then now else u.sofAt
    let len := microLen + 125 * h.sofTrim
    let locked := h.pget P.US_SOF_MODE 0 = 2 && h.rl.ts ≠ .free && h.rl.ts ≠ .acquire
    let lead : Int := ((h.clk.ns * 65536 + h.clk.frac) * 960 / 65536 : Nat) - now
    let place := ((u.micro + 1) % 8 : Int) * microLen + h.pget P.US_SOF_PHASE 0 * 960
    let err := (start + microLen + lead - place) % (8 * microLen)
    let off := if err ≤ 4 * microLen then -err else 8 * microLen - err
    let trim := if locked then clampInt (-480) 480 (off / 125) else h.sofTrim
    let next := start + (if locked then microLen + 125 * trim else len)
    (h.until (next.toNat / 960)).modUsbc (fun u => { u with micro := u.micro + 1, sofAt := next.toNat, trim := trim })

/-! ## Gating and the service port -/

/-- I-USB is about to be gated: every outstanding transfer ends with POWER_STATE (R305). -/
def Hub.usbEnd (h : Hub) : Hub := [0, 1, 2, 3, 4, 5, 6, 7].foldl (fun h p => h.endXfers p 12 (fun _ => true)) h

/-- Before I-USB is gated: transfers end POWER_STATE and VBUS leaves P4 to P7 (R305), which a port that had it gets back with I-USB; a port that an
over-current turned off stays off.  US_FRAME and US_PORT_STATUS go back to their defaults. -/
def Hub.usbGate (h : Hub) : Hub :=
  [0, 1, 2, 3, 4, 5, 6, 7].foldl (fun h p =>
    let h := h.modUsb p (fun u => { UsbPort.reset (u.power && !u.oc) with lastAt := u.lastAt })
    if p < 4 then h else h.out (.usb p "POWER_OFF" [])) (h.usbEnd.modUsbc (fun u => { u with micro := 0, sofAt := 0 }))

/-- I-USB is powered again: VBUS returns to the ports of P4 to P7 that had it, and their devices attach afresh (R305). -/
def Hub.usbPowerUp (h : Hub) : Hub :=
  [4, 5, 6, 7].foldl (fun h p => if (h.usbp p).power then h.out (.usb p "POWER_ON" []) else h) h

/-- The complex after a reset of I-USB; SVC_VBUS is the board's. -/
def Hub.usbReset (h : Hub) : Hub := { h with usb := { Usb.reset with svc := { Usb.reset.svc with vbus := h.usb.svc.vbus } }, svcHost := false }

/-- The service port's pull-up is connected: US_SVC_ENABLE is 1, SVC_VBUS present and I-USB powered (R306). -/
def Hub.svcPulled (h : Hub) : Bool := h.pget P.US_SVC_ENABLE 0 = 1 && h.usb.svc.vbus && h.works usbIsland

/-- What the service port sees of its host (R306): a port whose pull-up is not connected has no address and no configuration. -/
def Hub.svcAttach (h : Hub) (b : SvcBus) : Hub :=
  let h := h.modUsbc (fun u => { u with svc := b, woke := u.woke && b.suspended })
  if h.svcPulled then { h with svcHost := true } else h

/-- A message waits for EP2 (R306). -/
def Hub.svcQueued (h : Hub) : Bool := (h.mb 3).held.isSome || !(h.mb 3).events.isEmpty || (h.mb 3).overflow != 0

/-- The pull-up follows what it depends on; a suspended port with remote wakeup enabled signals it once a message is queued; EP3 tells the host
when MB3's indices change (R306). -/
def Hub.svcLevel (h : Hub) : Hub :=
  let h : Hub := if h.svcPulled then { h with svcHost := true }
    else { h with svcHost := false, usb := { h.usb with svc := { Usb.reset.svc with vbus := h.usb.svc.vbus } } }
  let v := h.usb.svc
  if v.suspended then
    if v.remote && h.svcQueued && !h.usb.woke then (h.modUsbc (fun u => { u with woke := true })).out (.usb 8 "REMOTE_WAKE" []) else h
  else
    let now := ((h.mb 3).reqHead, (h.mb 3).rspTail)
    if v.configured && h.usb.shown ≠ now then
      (h.modUsbc (fun u => { u with shown := now })).out (.svc 3 (leBytes 4 now.1 ++ leBytes 4 now.2))
    else h

/-- A bus reset at the service port (R308): the control transfer it meets has no effect, partly transferred messages are discarded and counted, and
the device is in the Default state at address 0. -/
def Hub.svcBusReset (h : Hub) (c : SvcCut) : Hub :=
  if !h.svcHost then h
  else
    let h := h.modUsbc (fun u => { u with svc := { Usb.reset.svc with vbus := u.svc.vbus }, woke := false })
    (h.bumpBy P.US_SVC_ABANDON 0 (b2n c.ep1 + b2n c.ep2)).event .svcBusReset [(0, 1, c.stage), (1, 1, if c.stage = 0 then 0 else c.request)]

/-- US_PORT_STATUS. -/
def Hub.usbStatus (h : Hub) (p : Nat) : Nat :=
  let u := h.usbp p
  u.speed + 16 * b2n (u.speed ≠ 0) + 32 * b2n (h.usbPowered p) + 64 * b2n u.suspended + 128 * b2n u.oc + 256 * b2n u.coincident

end Sys2Proof.Machine
end

