-- ==== Sys2Proof/Machine/TypeC.lean ====
section
/-!
DEFINITION. The Type-C ports (chapter 12): attach and accessories (R311 to R313), VCONN and cables (R314), the state machine (R315 to
R317), the node budget and capabilities (R318 to R322), swaps (R320), Hard Reset (R323), parking (R324), Alt Mode (R325) and
TC_PORT_CONTROL (R326).
-/
namespace Sys2Proof.Machine

/-- The code of R315. -/
def TcState.code : TcState → Nat
  | .disabled => 0 | .unattached => 1 | .attachWait => 2 | .attachedSrc => 3 | .attachedSnk => 4 | .accessory => 5 | .errorRecovery => 6 | .parked => 7

/-- Attached as Source or Sink. -/
def TcPort.attached (t : TcPort) : Bool := t.state == .attachedSrc || t.state == .attachedSnk

/-- TC_PORT_STATE. -/
def TcPort.word (t : TcPort) : Nat :=
  t.state.code + 16 * b2n t.flip + 32 * b2n t.vconn + 64 * b2n (t.alt ≠ 0) + 128 * b2n t.dfp + 256 * b2n t.snk

/-- TC_CONTRACT. -/
def TcPort.contract (t : TcPort) : Nat := t.mv * 2 ^ 32 + t.ma

/-- A PD message or CC action of port n. -/
def Hub.pd (h : Hub) (n : Nat) (what : String) (args : List Nat) : Hub := h.out (.pd n what args)

/-- PD protocol hardware of the ports answers while I-USB works. -/
def Hub.pdWorks (h : Hub) : Bool := h.works usbIsland

/-- TC_ATTACH, which also sets LINK (R327). -/
def Hub.tcAttach (h : Hub) (n attach cause term : Nat) : Hub :=
  (h.raise (2 ^ intLink)).event .tcAttach [(0, 1, n), (1, 1, attach), (2, 1, cause), (3, 1, term)]

/-! ## Budget and capabilities (R318, R319) -/

/-- A port's charge in mW. -/
def TcPort.charge (t : TcPort) : Nat :=
  if t.state = .attachedSnk then 0 else if t.state = .attachedSrc && t.mv ≠ 0 then t.mv * t.ma / 1000 else 15000

/-- TC_BUDGET_USED. -/
def Hub.tcUsed (h : Hub) : Nat := (h.tc.map TcPort.charge).sum

/-- The available power of port n in mW. -/
def Hub.tcAvailable (h : Hub) (n : Nat) : Nat := h.pget P.TC_POWER_BUDGET 0 - (h.tcUsed - (h.tcp n).charge)

/-- The current of a PDO of mv, in mA. -/
def Hub.pdoCurrent (h : Hub) (n mv : Nat) : Nat := min 5000 (min (h.tcp n).cableMa (h.tcAvailable n * 1000 / mv / 10 * 10))

/-- The PDOs a port offers now, as position, mV and mA; the EPR ones too in EPR Mode.  The 5 V one is always among them (DEDUCED, log 138). -/
def Hub.pdos (h : Hub) (n : Nat) (epr : Bool) : List (Nat × Nat × Nat) :=
  let all := [(1, 5000), (2, 9000), (3, 15000), (4, 20000)] ++ (if epr then [(5, 28000), (6, 36000), (7, 48000)] else [])
  (all.map (fun x => (x.1, x.2, h.pdoCurrent n x.2))).filter (fun x =>
    x.1 = 1 || x.2.1 ≤ h.pget P.TC_MAX_VOLTAGE n && 500 ≤ x.2.2 && (x.2.1 ≤ 20000 || h.al.gov.level < 2))

/-- EPR Mode may be entered or kept (R319). -/
def Hub.eprAllowed (h : Hub) (n : Nat) : Bool :=
  h.pget P.TC_EPR_ENABLE n = 1 && (h.tcp n).cableEpr && h.al.gov.level < 2 && (h.pdos n false).contains (4, 20000, 5000)

/-- Source_Capabilities, or EPR_Source_Capabilities in EPR Mode, is sent (R319, R322). -/
def Hub.tcOffer (h : Hub) (n : Nat) : Hub :=
  let epr := (h.tcp n).epr
  let l := h.pdos n epr
  (h.modTc n (fun t => { t with offer := l, offerAt := some h.clk.up, due := false })).pd n (if epr then "EPR_Source_Capabilities" else "Source_Capabilities")
    (l.flatMap (fun x => [x.2.1, x.2.2]))

/-! ## Alt Mode (R325) -/

/-- A head is routed to port n (R329). -/
def Hub.routedHead (h : Hub) (n : Nat) : Option Nat := [0, 1].find? (fun d => (nth h.ds d Head.reset).route == n + 2)

/-- The head is powered and routed, and the port is attached as DFP. -/
def Hub.altAllowed (h : Hub) (n : Nat) : Bool :=
  (h.routedHead n).isSome && (h.tcp n).attached && (h.tcp n).dfp && h.pdWorks && h.works 9

/-- Alt Mode entry begins with Discover Identity. -/
def Hub.altStart (h : Hub) (n : Nat) : Hub :=
  if h.altAllowed n && (h.tcp n).alt = 0 && (h.tcp n).altStep = 0 then
    (h.modTc n (fun t => { t with altStep := 1 })).pd n "Discover_Identity_SOP" []
  else h

/-- Entry is refused: the mux stays on USB. -/
def Hub.altRefused (h : Hub) (n : Nat) : Hub :=
  (h.modTc n (fun t => { t with altStep := 0 })).event .tcAltMode [(0, 1, n), (1, 1, 2), (2, 1, (h.tcp n).altPin)]

/-- The mode ends, with Exit Mode or, at a detach, without a message; the lane mux returns to USB, a detach on the USB port (R293). -/
def Hub.altExit (h : Hub) (n : Nat) (message : Bool) : Hub :=
  let t := h.tcp n
  let h := h.modTc n (fun t => { t with alt := 0, altStep := 0 })
  if t.alt = 0 then h
  else
    let h := if message then h.pd n "Exit_Mode" [] else h
    (h.usbDetach n).event .tcAltMode [(0, 1, n), (1, 1, 0), (2, 1, t.alt)]

/-- The pin assignment chosen from TC_DP_PIN_PREF and what the partner offers. -/
def pinChoice (pref : Nat) (c d : Bool) : Option Nat :=
  match pref with
  | 0 => if c then some 3 else if d then some 4 else none
  | 1 => if d then some 4 else if c then some 3 else none
  | 2 => if c then some 3 else none
  | _ => if d then some 4 else none

/-! ## The converter -/

/-- The converter of a port is commanded to a voltage (R317, R319). -/
def Hub.converter (h : Hub) (n mv : Nat) : Hub := (h.modTc n (fun t => { t with conv := mv })).pd n "Converter" [mv]

/-- VBUS is about to be applied at vSafe5V: a converter that a contract left elsewhere goes back to 5 V first (R311, R315, R323). -/
def Hub.safe5 (h : Hub) (n : Nat) : Hub := if (h.tcp n).conv = 5000 then h else h.converter n 5000

/-! ## Detach -/

/-- The contract and everything under way are void. -/
def TcPort.void (t : TcPort) : TcPort :=
  { t with mv := 0, ma := 0, epr := false, next := none, offer := [], offerAt := none, due := false, openAt := none }

/-- VBUS off, the discharge on until vSafe0V, the channel's base back to 3,300 mA (R316, R349). -/
def Hub.vbusOff (h : Hub) (n : Nat) : Hub :=
  ((h.modTc n (fun t => { t with vbus := false, dis := true })).setBase (n + 1) 3300).vbusLevel n

/-- A port leaves its attached state: VBUS and VCONN off, the contract void, Alt Mode ended, the USB port's transfers DISCONNECTED
(R316). -/
def Hub.tcLeave (h : Hub) (n : Nat) (s : TcState) : Hub :=
  let src := (h.tcp n).state != .attachedSnk
  let h := h.altExit n false
  let h := if (h.tcp n).snkEn then h.pd n "SNK_EN" [0] else h
  let h := if src then h.vbusOff n else h
  let h := h.usbDetach n
  h.modTc n (fun t => { t.void with state := s, vconn := false, dfp := false, snk := false, snkEn := false, swap := 0, recover := false,
                                    cableMa := 3000, cableEpr := false, vFault := false, hpd := false, since := h.clk.up })

/-- A detach with its event. -/
def Hub.tcDetach (h : Hub) (n cause : Nat) (s : TcState) : Hub := (h.tcLeave n s).tcAttach n 0 cause (h.tcp n).term

/-! ## State machine -/

/-- Debug is allowed by the life-cycle state (R312): BLANK, RETURN, or PROVISION or FIELD with an unlock in force. -/
def Hub.debugAllowed (h : Hub) : Bool :=
  h.lc = 0 || h.lc = 3 || ((h.lc = 1 || h.lc = 2) && h.ky.unlock.isSome)

/-- TC_ENABLE written (R315). -/
def Hub.tcEnable (h : Hub) (n v : Nat) : Hub :=
  if v = 1 then
    if (h.tcp n).state = .disabled then (h.modTc n (fun t => { t with state := .unattached, since := h.clk.up })).pd n "Rp" [] else h
  else if (h.tcp n).state = .disabled then h
  else
    let h := (h.tcLeave n .disabled).vbusOff n
    (if (h.fuse (n + 1)).state = .backoff then h.modFuse (n + 1) (fun f => { f with state := .off }) else h).pd n "CC_open" []

/-- tCCDebounce has passed (R311): the termination is classified. -/
def Hub.tcDebounced (h : Hub) (n : Nat) : Hub :=
  let t := h.tcp n
  if t.state ≠ .attachWait then h
  else
    let h := h.until (t.since + ms 150)
    let cc := (t.cc1, t.cc2)
    let isSink := cc = (1, 0) || cc = (0, 1) || cc = (1, 2) || cc = (2, 1)
    let cable := cc = (1, 2) || cc = (2, 1)
    if isSink then
      let term := b2n cable
      let h := h.safe5 n
      let h := h.modTc n (fun t => { t with state := .attachedSrc, since := h.clk.up, flip := t.cc2 == 1, vconn := cable, dfp := true, snk := false,
                                            term := term, vbus := true, cableMa := 3000, cableEpr := false })
      ((h.bump P.TC_ATTACHES n).vbusLevel n).tcAttach n 1 0 term
    else if cc = (2, 2) || cc = (1, 1) then
      let term := if cc = (2, 2) then 2 else if h.debugAllowed then 3 else 4
      let h := h.modTc n (fun t => { t with state := .accessory, since := h.clk.up, term := term, vbus := term == 3 })
      let h := if term = 3 then ((h.safe5 n).vbusLevel n).pd n "Debug_port_on_SBU" [] else h
      (h.bump P.TC_ATTACHES n).tcAttach n 1 0 term
    else h.modTc n (fun t => { t with state := .unattached })

/-- Above vSafe5V, or in a transition (R317): a contract above 5 V, a voltage change under way, or VBUS of a contract that is void still on its way
down. -/
def TcPort.high (t : TcPort) : Bool := 5000 < t.mv || t.next.isSome || (t.dis && 5000 < t.conv)

/-- CC opens on a sourcing port (R316); above vSafe5V the gate goes first, then the converter goes to 5 V, then the discharge (R317). -/
def Hub.tcOpen (h : Hub) (n : Nat) : Hub :=
  let t := h.tcp n
  if t.state ≠ .attachedSrc then h
  else if t.high then
    let h := if (h.fuse (n + 1)).state.gate then h.fuseGateLow (n + 1) .off else h
    (((h.converter n 5000).out (.power "FU_DIS" [n + 1])).bump P.TC_DETACH_TRANSITION n).tcDetach n 2 .unattached
  else if t.openAt.isSome then h
  else h.modTc n (fun t => { t with openAt := some h.clk.up })

/-- CC has been open for tPDDebounce (R316). -/
def Hub.tcOpenDone (h : Hub) (n : Nat) : Hub :=
  let t := h.tcp n
  match t.openAt with
  | none => h
  | some s => if t.state ≠ .attachedSrc then h else (h.until (s + ms 15)).tcDetach n 0 .unattached

/-- The terminations on the CC pins change. -/
def Hub.tcTerminate (h : Hub) (n cc1 cc2 : Nat) : Hub :=
  let t := h.tcp n
  let seen := fun (c : Nat) => c = 1 || c = 2
  let any := seen cc1 || seen cc2
  let h := h.modTc n (fun t => { t with cc1 := cc1, cc2 := cc2 })
  match t.state with
  | .unattached => if any then h.modTc n (fun t => { t with state := .attachWait, since := h.clk.up }) else h
  | .attachWait => h.modTc n (fun t => { t with state := if any then .attachWait else .unattached, since := h.clk.up })
  | .accessory => if (cc1 = 2 && cc2 = 2) || (cc1 = 1 && cc2 = 1) then h else h.tcDetach n 0 .unattached
  | .attachedSrc =>
    if (if t.flip then cc2 else cc1) = 1 then h.modTc n (fun t => { t with openAt := none }) else h.tcOpen n
  | _ => h

/-- VBUS reaches vSafe0V (R316): a new attach may get VBUS. -/
def Hub.tcVsafe0 (h : Hub) (n : Nat) : Hub :=
  (h.modTc n (fun t => { t with dis := false, since := if t.recover then h.clk.up else t.since })).vbusLevel n

/-- VBUS of a sourcing port has come up: the cable is asked first (R314), else the capabilities are sent. -/
def Hub.tcVbusUp (h : Hub) (n : Nat) : Hub :=
  let t := h.tcp n
  if t.state ≠ .attachedSrc || !h.pdWorks then h
  else if t.vconn && !t.vFault then h.pd n "Discover_Identity_SOP'" [] else h.tcOffer n

/-- A sample of a channel's output (R350): of a Type-C port that leaves RAMP, VBUS is up. -/
def Hub.fuseUp (h : Hub) (c vin vout : Nat) : Hub :=
  let was := (h.fuse c).state
  let h := h.fuseOutput c vin vout
  if c ≠ 0 && was = .ramp && (h.fuse c).state = .on then h.tcVbusUp (c - 1) else h

/-- The channel of an attached sourcing port trips (R315): the port opens CC and recovers. -/
def Hub.tcTrip (h : Hub) (n : Nat) : Hub :=
  if (h.tcp n).state ≠ .attachedSrc then h
  else ((h.tcDetach n 1 .errorRecovery).pd n "CC_open" [])

/-- A trip of a channel with what follows at its Type-C and USB port (R301, R315, R355). -/
def Hub.fuseTrip (h : Hub) (c cause point : Nat) : Hub :=
  let r := h.fuseTripOf c cause point
  if !r.2 || c = 0 then r.1
  else (r.1.usbOc [c - 1] (c - 1) 1 0).tcTrip (c - 1)

/-- The current passes the fast-trip comparator's threshold, FU_FAST_MULT times the base, while the gate is on (R354). -/
def Hub.fastTrip (h : Hub) (c mA : Nat) : Hub :=
  if 16 * mA ≤ h.pget P.FU_FAST_MULT c * h.baseOf c || !(h.fuse c).state.gate then h
  else ((h.fuseAmps c mA).modFuse c (fun f => { f with limit := none })).fuseTrip c 0 0

/-- The SOA integrator of a channel in current limit reaches its budget (R352). -/
def Hub.soaTrip (h : Hub) (c : Nat) : Hub :=
  match h.soaAt c with
  | some t => ((h.until t).fuseTrip c 1 0).modFuse c (fun f => { f with soa := h.soaBudget c })
  | none => h

/-- The counter of an enabled curve point reaches its TIME in ON or LIMIT, the current at `mA` (R353); in current limit the current is the limit's. -/
def Hub.curveTrip (h : Hub) (c k mA : Nat) : Hub :=
  let h := h.fuseAmps c mA
  match h.curveAt c k with
  | some t => (((h.until t).fuseTrip c 3 k)).modFuse c (fun f => { f with curve := modAt f.curve k (fun _ => (h.curvePoint c k).2) })
  | none => h

/-- 25 ms have passed with the channel closed and not latched (R315). -/
def Hub.tcRecovered (h : Hub) (n : Nat) : Hub :=
  let t := h.tcp n
  if t.state ≠ .errorRecovery || (h.fuse (n + 1)).state ≠ .off then h
  else ((h.until (t.since + ms 25)).modTc n (fun t => { t with state := .unattached })).pd n "Rp" []

/-- I-AON starts with a source at the port (R313, R315). -/
def Hub.tcAonStart (h : Hub) (n : Nat) : Hub :=
  let t := h.tcp n
  if h.pget P.TC_ENABLE n = 1 && (t.cc1 = 3 || t.cc2 = 3) then
    ((h.modTc n (fun t => { t with state := .attachedSnk, since := h.clk.up, flip := t.cc2 == 3, dfp := false, snk := true, term := 5, snkEn := true })).pd n
      "SNK_EN" [1]).tcAttach n 1 0 5
  else h

/-! ## Swaps that this port asked for

The partner's Accept or Reject has no row of its own: the next PD message of the partner shows that the swap is over.  PS_RDY says that a PR_Swap
took place, and any other message that it did not; of a DR_Swap or VCONN_Swap a free value says it (log 19). -/

/-- The data role changes: a detach on the USB port (R293). -/
def Hub.drFlip (h : Hub) (n : Nat) : Hub := ((h.usbDetach n).modTc n (fun t => { t with dfp := !t.dfp })).altStart n

/-- A DR_Swap or VCONN_Swap that this port asked for has been answered. -/
def Hub.tcSwapped (h : Hub) (n : Nat) : Hub :=
  let w := (h.tcp n).swap
  if w = 2 || w = 3 then
    let r := h.fresh
    let h := r.2.modTc n (fun t => { t with swap := 0, asked := false })
    if r.1 % 2 = 0 then h
    else if w = 2 then h.drFlip n
    else h.modTc n (fun t => { t with vconn := !t.vconn })
  else h

/-- A message of the partner other than PS_RDY: a swap that this port asked for is over. -/
def Hub.tcAnswered (h : Hub) (n : Nat) : Hub :=
  let t := h.tcp n
  if t.swap = 1 && t.asked then h.modTc n (fun t => { t with swap := 0, asked := false }) else h.tcSwapped n

/-! ## PD messages -/

/-- A sink's Request (R319). -/
def Hub.tcRequest (h : Hub) (n pos mA : Nat) : Hub :=
  let h := h.tcAnswered n
  let t := h.tcp n
  if t.state ≠ .attachedSrc || !h.pdWorks || t.recover then h
  else match t.offer.find? (fun x => x.1 == pos) with
    | none => h.pd n "Reject" []
    | some (_, mv, top) =>
      if top < mA then h.pd n "Reject" []
      else
        let h := (h.modTc n (fun t => { t with next := some (mv, mA), offerAt := none })).setBase (n + 1) (mA * 110 / 100)
        (h.pd n "Accept" []).converter n mv

/-- The converter reports power good (R319): PS_RDY, and the contract stands. -/
def Hub.tcPowerGood (h : Hub) (n : Nat) : Hub :=
  let t := h.tcp n
  match t.next with
  | some (mv, ma) =>
    if t.state ≠ .attachedSrc then h
    else
      let h := (h.modTc n (fun t => { t with next := none, mv := mv, ma := ma })).pd n "PS_RDY" []
      (h.event .tcContract [(0, 1, n), (1, 1, 0), (2, 1, b2n t.epr), (4, 4, mv), (8, 4, ma)]).altStart n
  | none => h

/-- EPR_Mode (Enter) (R319). -/
def Hub.tcEprEnter (h : Hub) (n : Nat) : Hub :=
  let h := h.tcAnswered n
  if (h.tcp n).state ≠ .attachedSrc || !h.pdWorks then h
  else if h.eprAllowed n then ((h.modTc n (fun t => { t with epr := true })).pd n "EPR_Mode_Enter_Succeeded" []).tcOffer n
  else h.pd n "EPR_Mode_Enter_Failed" []

/-- The partner's PR_Swap (R320). -/
def Hub.tcPrSwap (h : Hub) (n : Nat) : Hub :=
  let h := h.tcAnswered n
  let t := h.tcp n
  if !t.attached || !h.pdWorks then h
  else if (if t.state = .attachedSrc then h.pget P.TC_SINK_ALLOW n = 1 else !t.snk) then
    let h := (h.modTc n (fun t => { t with swap := 1, asked := false, offerAt := none })).pd n "Accept" []
    if t.state = .attachedSrc then (h.vbusOff n).pd n "PS_RDY" [] else h
  else h.pd n "Reject" []

/-- The partner's DR_Swap: Alt Mode ends first (R320). -/
def Hub.tcDrSwap (h : Hub) (n : Nat) : Hub :=
  let h := h.tcAnswered n
  if !(h.tcp n).attached || !h.pdWorks then h
  else if h.pget P.TC_DR_SWAP_ALLOW n = 1 then ((h.altExit n true).pd n "Accept" []).drFlip n
  else h.pd n "Reject" []

/-- The partner's VCONN_Swap is always accepted (R320). -/
def Hub.tcVconnSwap (h : Hub) (n : Nat) : Hub :=
  let h := h.tcAnswered n
  if !(h.tcp n).attached || !h.pdWorks then h
  else (h.pd n "Accept" []).modTc n (fun t => { t with vconn := !t.vconn })

/-- The partner's PS_RDY (R315, R320, R321).  A PR_Swap that this port asked for in Source role has been accepted: it has turned VBUS off and
said so. -/
def Hub.tcPsRdy (h : Hub) (n : Nat) : Hub :=
  let h := h.tcSwapped n
  let t := h.tcp n
  if !t.attached || !h.pdWorks then h
  else if t.swap = 1 then
    if t.state = .attachedSrc then
      let h := if t.vbus then (h.vbusOff n).pd n "PS_RDY" [] else h
      ((h.modTc n (fun t => { t.void with state := .attachedSnk, swap := 0, asked := false, snkEn := true })).pd n "Rd" []).pd n "SNK_EN" [1]
    else
      let h := (h.modTc n (fun t => { t.void with state := .attachedSrc, swap := 0, asked := false, snkEn := false, vbus := true })).pd n "SNK_EN" [0]
      (((h.pd n "Rp" []).safe5 n).vbusLevel n).pd n "PS_RDY" []
  else match t.state, t.next with
    | .attachedSnk, some (mv, ma) =>
      let h := (h.modTc n (fun t => { t with next := none, mv := mv, ma := ma, snkEn := true })).pd n "SNK_EN" [1]
      h.event .tcContract [(0, 1, n), (1, 1, 1), (2, 1, 0), (4, 4, mv), (8, 4, ma)]
    | _, _ => h

/-- Source_Capabilities at a sink (R321): the highest fixed PDO of 20 V or less with the wanted current, else the 5 V one. -/
def Hub.tcSourceCaps (h : Hub) (n : Nat) (pdos : List (Nat × Nat)) : Hub :=
  let h := h.tcAnswered n
  let want := h.pget P.TC_SINK_MAX_CURRENT n
  if (h.tcp n).state ≠ .attachedSnk || !h.pdWorks then h
  else
    let good := pdos.filter (fun x => x.1 ≤ 20000 && want ≤ x.2)
    let best : Nat × Nat := good.foldl (fun (a : Nat × Nat) x => if a.1 ≤ x.1 then (x.1, want) else a) (0, 0)
    let pick := if best.1 ≠ 0 then best else (5000, min want (((pdos.find? (fun x => x.1 == 5000)).map (·.2)).getD 0))
    (h.modTc n (fun t => { t with next := some pick })).pd n "Request" [pick.1, pick.2]

/-- EPR_KeepAlive (R319). -/
def Hub.tcKeepAlive (h : Hub) (n : Nat) : Hub :=
  let h := h.tcAnswered n
  if (h.tcp n).epr && h.pdWorks then h.pd n "EPR_KeepAlive_Ack" [] else h

/-- The sink capabilities a port sends (R310): 5 V, and 9, 15 and 20 V while it may become a sink, at the current it requests. -/
def Hub.sinkCaps (h : Hub) (n : Nat) : List Nat :=
  (if h.pget P.TC_SINK_ALLOW n = 1 then [5000, 9000, 15000, 20000] else [5000]).flatMap (fun mv => [mv, h.pget P.TC_SINK_MAX_CURRENT n])

/-- A control message that no row of its own brings: Get_Sink_Cap, message 8 of the PD standard, is answered with the sink capabilities (log 169),
and one that is not supported with Not_Supported (R310). -/
def Hub.tcUnsupported (h : Hub) (n msg : Nat) : Hub :=
  let h := h.tcAnswered n
  if !(h.tcp n).attached || !h.pdWorks then h
  else if msg = 8 then h.pd n "Sink_Capabilities" (h.sinkCaps n)
  else h.pd n "Not_Supported" [msg]

/-- A structured VDM response (R314, R325). -/
def Hub.tcVdm (h : Hub) (n : Nat) (v : Vdm) : Hub :=
  let h := h.tcAnswered n
  let t := h.tcp n
  if !t.attached || !h.pdWorks then h
  else if v.step = 1 then
    if t.state ≠ .attachedSrc || !t.vconn || t.vFault then h
    else (h.modTc n (fun t => { t with cableMa := if v.ack && 5000 ≤ v.cableMa then 5000 else 3000,
                                       cableEpr := v.ack && 5000 ≤ v.cableMa && v.epr })).tcOffer n
  else if !h.altAllowed n then h
  else if v.step = 0 && t.altStep = 1 then
    if v.ack then (h.modTc n (fun t => { t with altStep := 2 })).pd n "Discover_SVIDs" [] else h.modTc n (fun t => { t with altStep := 0 })
  else if v.step = 2 && t.altStep = 2 then
    if v.ack && v.dpSvid then (h.modTc n (fun t => { t with altStep := 3 })).pd n "Discover_Modes" [0xFF01]
    else h.modTc n (fun t => { t with altStep := 0 })
  else if v.step = 3 && t.altStep = 3 then
    match (if v.ack then pinChoice (h.pget P.TC_DP_PIN_PREF n) v.pinC v.pinD else none) with
    | some p => (h.modTc n (fun t => { t with altStep := 4, altPin := p })).pd n "Enter_Mode" [0xFF01]
    | none => h.modTc n (fun t => { t with altStep := 0 })
  else if v.step = 4 && t.altStep = 4 then
    if v.ack then (h.modTc n (fun t => { t with altStep := 5 })).pd n "DisplayPort_Status" [] else h.altRefused n
  else if v.step = 5 && t.altStep = 5 then
    (h.modTc n (fun t => { t with altStep := 6, hpd := v.ack && v.hpd })).pd n "DisplayPort_Configure" [t.altPin]
  else h

/-- HPD goes to the head that is routed to a port in Alt Mode (R325). -/
def Hub.hpdOut (h : Hub) (n : Nat) : Hub :=
  match h.routedHead n with
  | some d => h.out (.display d "HPD" [b2n (h.tcp n).hpd])
  | none => h

/-- The answer to DisplayPort Configure (R325): ACK switches the lane mux, which is a detach on the USB port (R293); HPD that a Status or Attention
message gave before goes to the head. -/
def Hub.tcConfigured (h : Hub) (n : Nat) (ack : Bool) : Hub :=
  let t := h.tcp n
  if t.altStep ≠ 6 || !h.altAllowed n then h
  else if ack then
    let h := (h.usbDetach n).modTc n (fun t => { t with alt := t.altPin, altStep := 0 })
    let h := h.event .tcAltMode [(0, 1, n), (1, 1, 1), (2, 1, t.altPin)]
    if t.hpd then h.hpdOut n else h
  else h.altRefused n

/-- A Hard Reset received, or sent (R323). -/
def Hub.tcHardReset (h : Hub) (n : Nat) (sent : Bool) : Hub :=
  let t := h.tcp n
  if !t.attached || !h.pdWorks then h
  else
    let voided := if t.swap = 1 || t.swap = 2 then t.swap else 0
    let back := voided ≠ 0
    let src := t.state = .attachedSrc
    let h := h.altExit n true
    let h := if sent then h.pd n "Hard_Reset" [] else h
    let h := if src then h.vbusOff n else h
    let toSrc := if back then !t.snk else src
    let h := if back && t.snkEn then h.pd n "SNK_EN" [0] else h
    let h := if (t.state == .attachedSrc) == toSrc then h else h.pd n (if toSrc then "Rp" else "Rd") []
    let h := h.modTc n (fun t => { t.void with state := if toSrc then .attachedSrc else .attachedSnk, dfp := toSrc, swap := 0, asked := false,
                                               recover := toSrc, since := h.clk.up, dis := t.dis, snkEn := if back || src then false else t.snkEn })
    let h := if t.dfp ≠ toSrc || src then h.usbDetach n else h
    (h.bump P.TC_HARD_RESETS n).event .tcHardReset [(0, 1, n), (1, 1, voided), (2, 1, b2n sent)]

/-- tSrcRecover of 700 ms after vSafe0V ends (R323). -/
def Hub.tcRecoverEnd (h : Hub) (n : Nat) : Hub :=
  let t := h.tcp n
  if !t.recover || t.dis then h
  else (((h.until (t.since + ms 700)).safe5 n).modTc n (fun t => { t with recover := false, vbus := true })).vbusLevel n

/-- A re-offer may go out: capabilities have been sent since VBUS came up and the cable was asked (R314), and a swap, Hard Reset or transition in
progress goes first (R322). -/
def Hub.tcCanOffer (h : Hub) (n : Nat) : Bool :=
  let t := h.tcp n
  t.state == .attachedSrc && h.pdWorks && !t.offer.isEmpty && t.swap == 0 && !t.recover && t.next.isNone

/-- What R322 names makes a re-offer due: the PDO under contract has less current than was offered, TC_MAX_VOLTAGE or TC_EPR_ENABLE changed, or the
level passed the limit of R319. -/
def Hub.tcWatch (old h : Hub) (n : Nat) : Hub :=
  let t := h.tcp n
  let at_ := fun (l : List (Nat × Nat × Nat)) => ((l.find? (fun x => x.2.1 == t.mv)).map (·.2.2)).getD 0
  let less := t.mv ≠ 0 && at_ (h.pdos n t.epr) < at_ t.offer
  let changed := [P.TC_MAX_VOLTAGE, P.TC_EPR_ENABLE].any (fun p => old.pget p n != h.pget p n)
  let level := decide (old.al.gov.level < 2) != decide (h.al.gov.level < 2)
  if t.state = .attachedSrc && !t.due && !t.offer.isEmpty && (less || changed || level) then h.modTc n (fun t => { t with due := true }) else h

/-- Capabilities are offered anew (R322). -/
def Hub.tcOfferAnew (h : Hub) (n : Nat) : Hub :=
  let t := h.tcp n
  if !h.tcCanOffer n then h
  else if t.epr && !h.eprAllowed n then
    ((h.modTc n (fun t => { t with epr := false })).pd n "EPR_Mode_Exit" []).tcOffer n
  else h.tcOffer n

/-- A re-offer that is due goes out within 1 ms (R322). -/
def Hub.tcReoffer (h : Hub) (n : Nat) : Hub := if (h.tcp n).due then h.tcOfferAnew n else h

/-- No acceptable request within tSenderResponse (R322). -/
def Hub.tcNoResponse (h : Hub) (n : Nat) : Hub :=
  match (h.tcp n).offerAt with
  | none => h
  | some t => (h.until (t + ms 30)).tcHardReset n true

/-- VBUS below vSinkDisconnect (R315). -/
def Hub.tcSinkGone (h : Hub) (n : Nat) : Hub :=
  if (h.tcp n).state ≠ .attachedSnk then h else ((h.tcDetach n 0 .unattached).pd n "Rp" [])

/-- A VCONN overload for over 1 ms (R314): the cable counts as having no e-marker until detach, and a port that waited for its answer offers without it. -/
def Hub.tcVconnFault (h : Hub) (n : Nat) : Hub :=
  if !(h.tcp n).vconn then h
  else
    let h := h.modTc n (fun t => { t with vconn := false, vFault := true, cableMa := 3000, cableEpr := false })
    let h := (h.bump P.TC_VCONN_TRIP n).event .tcVconnFault [(0, 1, n)]
    if (h.tcp n).offer.isEmpty && (h.fuse (n + 1)).state == .on then h.tcVbusUp n else h

/-- A Debug Accessory is honoured while debug is allowed, and only then (R312): as that begins it gets VBUS and the debug port, as it ends they go, and
the accessory stays reported (DEDUCED, log 137). -/
def Hub.tcDebugLevel (h : Hub) (n : Nat) : Hub :=
  let t := h.tcp n
  if t.state = .accessory && t.term = 3 && !h.debugAllowed then
    ((h.vbusOff n).modTc n (fun t => { t with term := 4 })).pd n "Debug_port_off" []
  else if t.state = .accessory && t.term = 4 && h.debugAllowed then
    (((h.safe5 n).modTc n (fun t => { t with term := 3, vbus := true })).vbusLevel n).pd n "Debug_port_on_SBU" []
  else h

/-- Entry into DOZE or REST, or SURVIVE, parks a sourcing port (R324). -/
def Hub.tcPark (h : Hub) (n : Nat) : Hub :=
  if (h.tcp n).state ≠ .attachedSrc then h else (h.tcDetach n 3 .parked).pd n "CC_open" []

/-- A parked port presents Rp again (R315). -/
def Hub.tcUnpark (h : Hub) (n : Nat) : Hub :=
  if (h.tcp n).state ≠ .parked then h else (h.modTc n (fun t => { t with state := .unattached })).pd n "Rp" []

/-! ## Commands (R326) -/

/-- TC_PORT_CONTROL: what is not possible in the present state is CONFLICT. -/
def Hub.tcControl (h : Hub) (r : Request) : Hub × Reply :=
  let n := r.arg 0 1
  let a := r.arg 1 1
  let t := h.tcp n
  if !r.has 4 || r.arg 2 2 ≠ 0 || a = 0 || 6 < a then (h, .err .badParam)
  else if 3 < n then (h, .err .range)
  else if !t.attached || !h.pdWorks || (a ≠ 1 && (t.swap ≠ 0 || t.recover || t.next.isSome)) then (h, .err .conflict)
  else if a = 1 then (h.tcHardReset n true, .ok [])
  else if a = 2 then
    if t.state = .attachedSnk && t.snk then (h, .err .conflict)
    else ((h.modTc n (fun t => { t with swap := 1, asked := true, offerAt := none })).pd n "PR_Swap" [], .ok [])
  else if a = 3 then (((h.altExit n true).modTc n (fun t => { t with swap := 2, asked := true })).pd n "DR_Swap" [], .ok [])
  else if a = 4 then ((h.modTc n (fun t => { t with swap := 3, asked := true })).pd n "VCONN_Swap" [], .ok [])
  else if a = 5 then (if h.tcCanOffer n then (h.tcOfferAnew n, .ok []) else (h, .err .conflict))
  else if t.alt ≠ 0 then (h.altExit n true, .ok [])
  else (h, .err .conflict)

/-- TC_PORT_STATUS. -/
def Hub.tcStatus (h : Hub) (r : Request) : Hub × Reply :=
  let n := r.arg 0 1
  let t := h.tcp n
  if !r.has 1 then (h, .err .badParam)
  else if 3 < n then (h, .err .range)
  else (h, .ok (leBytes 4 t.word ++ leBytes 8 t.contract ++ leBytes 2 t.cableMa ++ leBytes 2 0))

end Sys2Proof.Machine
end

