-- ==== Sys2Proof/Machine/Display.lean ====
section
/-!
DEFINITION. The display heads (chapter 13): outputs and routing (R328, R329), line packets and PPS (R330, R331), frame stores (R332 to
R335), timing (R336, R337), underrun (R338), signatures and alarms (R339 to R342).
-/
namespace Sys2Proof.Machine

/-- Head d. -/
def Hub.head (h : Hub) (d : Nat) : Head := nth h.ds d Head.reset

/-- Head d changed. -/
def Hub.modHead (h : Hub) (d : Nat) (f : Head → Head) : Hub := { h with ds := modAt h.ds d f }

/-- H1 shows H0's store (R335). -/
def Hub.clone (h : Hub) : Bool := h.pget P.DS_CLONE 0 = 1

/-- The store a head scans. -/
def Hub.storeOf (h : Hub) (d : Nat) : Nat := if d = 1 && h.clone then 0 else d

/-- The active size that a head's parameters hold. -/
def Hub.activeSize (h : Hub) (d : Nat) : Nat × Nat := (h.pget P.DS_H_ACTIVE d, h.pget P.DS_V_ACTIVE d)

/-- The geometry of a store: its owner's active size in force (R332), which changes at the owner's frame boundary (R60, R336); while the store is
cloned it changes at the commit (R335). -/
def Hub.geometry (h : Hub) (d : Nat) : Nat × Nat :=
  if h.clone then h.activeSize d
  else match (h.head d).scan with
    | some s => (s.w, s.h)
    | none => h.activeSize d

/-- DS_ROUTE in force: it changes at a frame boundary of the head (R60). -/
def Hub.routeOf (h : Hub) (d : Nat) : Nat := (h.head d).route

/-- Bytes of a buffer, to 4 KiB (R332). -/
def bufBytes (w v : Nat) : Nat := roundUp (w * v * 4) 4096

/-- Buffers in a store (R332). -/
def bufCount (w v : Nat) : Nat := if 3 * bufBytes w v ≤ 0x4000000 then 3 else 2

/-- The DRAM address of a pixel (R276, R332). -/
def pixelAt (store buf w v x y : Nat) : Nat := 0x40000000 + store * 0x4000000 + buf * bufBytes w v + (y * w + x) * 4

/-- DS_ALARMS bits. -/
def Head.alarms (d : Head) : Nat := b2n d.frozen + 2 * b2n d.starved

/-- DS_STATE. -/
def Hub.headState (h : Hub) (d : Nat) : Nat :=
  let x := h.head d
  let g := h.geometry (h.storeOf d)
  b2n x.up + 2 * b2n x.video + 4 * b2n x.frozen + 8 * b2n x.starved + 16 * b2n x.half + 32 * bufCount g.1 g.2

/-! ## Alarms (R340, R341) -/

/-- DS_ALARM. -/
def Hub.dsAlarmEvent (h : Hub) (d raised : Nat) : List Byte :=
  let x := h.head d
  fields 16 [(0, 1, d), (1, 1, x.alarms), (2, 1, raised), (3, 1, x.same), (4, 1, x.stale), (8, 4, x.sig.getD 0)]

/-- The NOTIFY cell of R341 on the head's DISPLAY entry. -/
def Hub.dsNotify (h : Hub) (d : Nat) : Hub :=
  let x := h.head d
  match h.tuns.find? (fun e => e.2.type == tDisplay && e.2.dir.receives && e.2.binding % 2 == d) with
  | some (i, e) =>
    if e.dir = .both then
      h.frameSend 6 i true ([0x11#8] ++ List.replicate 7 0#8 ++ [byte d, byte x.alarms, byte x.same, byte x.stale]) 0
    else h.bump P.DS_NOTIFY_FAIL d
  | none => h.bump P.DS_NOTIFY_FAIL d

/-- An alarm is raised or cleared: the actions its register selects that act on a change. -/
def Hub.dsAlarm (h : Hub) (d pid : Nat) (raised : Bool) : Hub :=
  let a := h.pget pid d
  let args := h.dsAlarmEvent d (b2n raised)
  let sev := if raised then Ev.dsAlarm.severity else 0
  let h := if bit a 3 then h.lintRec Ev.dsAlarm.code sev args false else h
  let h := if bit a 2 then h.deliver .dsAlarm sev 0 args else h
  if bit a 4 then h.dsNotify d else h

/-- FROZEN follows SAME: raised when it reaches its limit, cleared when it is 0 unless latched. -/
def Hub.frozenStep (h : Hub) (d : Nat) : Hub :=
  let x := h.head d
  if !x.frozen && h.pget P.DS_FREEZE_N d ≤ x.same then
    ((h.modHead d (fun x => { x with frozen := true })).bump P.DS_FROZEN_COUNT d).dsAlarm d P.DS_FREEZE_ACTION true
  else if x.frozen && x.same = 0 && !bit (h.pget P.DS_ALARM_LATCH d) 0 then
    (h.modHead d (fun x => { x with frozen := false })).dsAlarm d P.DS_FREEZE_ACTION false
  else h

/-- STARVED follows STALE. -/
def Hub.starvedStep (h : Hub) (d : Nat) : Hub :=
  let x := h.head d
  if !x.starved && h.pget P.DS_STARVE_M d ≤ x.stale then
    ((h.modHead d (fun x => { x with starved := true })).bump P.DS_STARVED_COUNT d).dsAlarm d P.DS_STARVE_ACTION true
  else if x.starved && x.stale = 0 && !bit (h.pget P.DS_ALARM_LATCH d) 1 then
    (h.modHead d (fun x => { x with starved := false })).dsAlarm d P.DS_STARVE_ACTION false
  else h

/-! ## Link (R328, R329) -/

/-- Lanes an output has: two under pin assignment D. -/
def Hub.dsLanes (h : Hub) (d : Nat) : Nat :=
  let top := bits (h.pget P.DS_LINK_MAX d) 4 4
  let r := h.routeOf d
  if 2 ≤ r && (h.tcp (r - 2)).alt = 4 then min top 2 else top

/-- The output exists: DPO, or a Type-C port whose lane mux has switched. -/
def Hub.dsOutput (h : Hub) (d : Nat) : Bool :=
  let r := h.routeOf d
  h.works 9 && (r = 1 || (2 ≤ r && (h.tcp (r - 2)).alt ≠ 0))

/-- Mb/s of pixel data that a trained link carries: 8 of 10 bits of each lane (log 21). -/
def linkMbps (lanes rate : Nat) : Nat := lanes * (nth [0, 1620, 2700, 5400, 8100] rate 0) * 8 / 10

/-- DS_LINK, delivered only: R328 calls for no Lint record of it (R343). -/
def Hub.dsLink (h : Hub) (d up cause : Nat) : Hub :=
  let x := h.head d
  (h.raise (2 ^ intLink)).notify .dsLink 0 [(0, 1, d), (1, 1, up), (2, 1, cause), (3, 1, x.lanes), (4, 1, x.rate)]

/-- Nothing is scanned: both counts go to 0, and the alarms follow them (R340). -/
def Hub.dsStill (h : Hub) (d : Nat) : Hub :=
  ((h.modHead d (fun x => { x with scan := none, under := [], same := 0, stale := 0 })).frozenStep d).starvedStep d

/-- The link is down: nothing is scanned (R340). -/
def Hub.dsDown (h : Hub) (d cause : Nat) : Hub :=
  ((h.modHead d (fun x => { x with up := false, video := false, lanes := 0, rate := 0 })).dsStill d).dsLink d 0 cause

/-- The trained link carries pixel clock × 3 × DS_BPC (R328). -/
def Hub.dsFits (h : Hub) (d : Nat) : Bool :=
  h.pget P.DS_PIXEL_CLOCK d * 3 * h.pget P.DS_BPC d ≤ linkMbps (h.head d).lanes (h.head d).rate * 1000

/-- A head with a link sends video when the link carries it and is blanked otherwise (R328). -/
def Hub.dsVideo (h : Hub) (d : Nat) : Hub :=
  if h.dsFits d then (h.modHead d (fun x => { x with video := true })).dsLink d 1 0
  else ((h.modHead d (fun x => { x with video := false })).dsStill d).dsLink d 0 2

/-- At a frame boundary a new pixel clock or DS_BPC can blank a head or end its blanking (R60, R328, log 21). -/
def Hub.dsCarry (h : Hub) (d : Nat) : Hub :=
  if (h.head d).up && (h.head d).video != h.dsFits d then h.dsVideo d else h

/-- An HPD rise, or an IRQ that reports lost lock, trains the link with what the sink gives (R328): no lanes, training failed. -/
def Hub.dsTrain (h : Hub) (d lanes rate : Nat) : Hub :=
  if !h.dsOutput d then h
  else
    let n := min lanes (h.dsLanes d)
    let n := if 4 ≤ n then 4 else if 2 ≤ n then 2 else n
    let r := min rate (bits (h.pget P.DS_LINK_MAX d) 0 4)
    if n = 0 || r = 0 then h.dsDown d 1
    else (h.modHead d (fun x => { x with up := true, lanes := n, rate := r })).dsVideo d

/-- HPD from a Status or Attention message (R325); one that comes before the lane mux has switched is kept for the head until it has. -/
def Hub.tcAttention (h : Hub) (n : Nat) (hpd : Bool) : Hub :=
  let h := (h.tcAnswered n).modTc n (fun t => { t with hpd := hpd })
  if (h.tcp n).alt = 0 then h
  else match h.routedHead n with
    | none => h
    | some d => if !hpd && (h.head d).up then h.dsDown d 0 else h.out (.display d "HPD" [b2n hpd])

/-- Why a value of DS_ROUTE is refused (R329). -/
def Hub.routeRefused (h : Hub) (d v : Nat) : Bool :=
  let other := h.pget P.DS_ROUTE (1 - d)
  (v = 1 && other = 1) || (2 ≤ v && 2 ≤ other)

/-- A written DS_ROUTE takes effect, at once or when the scan under way has ended (R60): the old port's Alt Mode ends, the new one's entry begins
(R325, R329). -/
def Hub.dsRouted (h : Hub) (d : Nat) : Hub :=
  let v := h.pget P.DS_ROUTE d
  let old := h.routeOf d
  if v = old || (h.head d).scan.isSome then h
  else
    let h := if (h.head d).up then h.dsDown d 0 else h
    let h := if 2 ≤ old then h.altExit (old - 2) true else h
    let h := (if v = 0 then h.dsStill d else h).modHead d (fun x => { x with route := v })
    if 2 ≤ v then h.altStart (v - 2) else h

/-- A head whose output has gone loses its link, and a route that waited for the end of a scan takes effect. -/
def Hub.dsLevel (h : Hub) : Hub :=
  [0, 1].foldl (fun h d => (if (h.head d).up && !h.dsOutput d then h.dsDown d 0 else h).dsRouted d) h

/-! ## PPS (R331) -/

/-- Picture size, slice width, slices per line and chunk size of a PPS, in the layout of VESA DSC 1.2a (log 20). -/
structure Pps where
  width  : Nat
  height : Nat
  slice  : Nat
  count  : Nat
  chunk  : Nat
deriving DecidableEq, Repr

/-- The fields of a PPS. -/
def Pps.of (b : List Byte) : Pps :=
  let w := be b 8 2
  let s := be b 12 2
  ⟨w, be b 6 2, s, if s = 0 then 0 else w / s, be b 14 2⟩

/-- The PPS lies in the scope of R331 and fits the geometry. -/
def ppsGood (b : List Byte) (g : Nat × Nat) : Bool :=
  let p := Pps.of b
  let bpc := byteAt b 3 / 16
  byteAt b 0 = 0x12 && (bpc = 8 || bpc = 10) && bit (byteAt b 4) 4 && !bit (byteAt b 4) 3 && byteAt b 88 % 4 = 0 &&
    [1, 2, 4, 8].contains p.count && p.slice * p.count = p.width && p.width = g.1 && p.height = g.2

/-- A PPS cell at an entry: stored under its tag, or refused and counted, and then packets that name its tag find none (R331, R344); a malformed cell
counts alike (log 20).  A head holds four tags; a fifth takes the place of the oldest (log 20). -/
def Hub.dsPps (h : Hub) (i : Nat) (payload : List Byte) : Hub :=
  let d := (h.tun i).binding % 2
  let b := payload.drop 8
  let tag := byteAt b 0
  let pps := b.drop 4
  let h := h.takeFrame 6 ⟨i, (h.tun i).peer, true, payload⟩
  if !h.works 9 then h
  else if byteAt payload 0 ≠ 0x10 || payload.length ≠ 140 || !allZero (slice b 1 3) then h.bump P.DS_FORMAT_ERR d
  else if !ppsGood pps (h.geometry d) then (h.modHead d (fun x => { x with pps := x.pps.filter (fun e => e.1 != tag) })).bump P.DS_FORMAT_ERR d
  else h.modHead d (fun x => { x with pps := keep 4 ((tag, pps) :: x.pps.filter (fun e => e.1 != tag)) })

/-! ## Pixels -/

/-- The stored word of a pixel (R331). -/
def pixelWord (r g b : Nat) : Nat := r * 2 ^ 20 + g * 2 ^ 10 + b

/-- An 8-bit component in 10 bits (R331). -/
def wide (c : Nat) : Nat := c * 4 ||| c / 64

/-- n RGB 8 bpc pixels. -/
def rgb8 : Nat → List Byte → List Nat
  | 0, _ => []
  | n + 1, b => pixelWord (wide (byteAt b 0)) (wide (byteAt b 1)) (wide (byteAt b 2)) :: rgb8 n (b.drop 3)

/-- n RGB 10 bpc pixels from a bit stream, held as a number of `left` bits. -/
def rgb10 : Nat → Nat → Nat → List Nat
  | 0, _, _ => []
  | n + 1, v, left => bits v (left - 30) 30 :: rgb10 n v (left - 30)

/-- The pixels of a line packet. -/
def packetPixels (b : List Byte) (pps : List Byte) (lines : List (List Byte)) : List Nat :=
  let n := be b 6 2
  let px := b.drop 16
  match byteAt b 0 / 16 with
  | 0 => rgb8 n px
  | 1 => rgb10 n (beNat px) (8 * px.length)
  | _ => Config.dscLine pps lines (be b 4 2)

/-- PIXELS has the length its format gives (R330, R331). -/
def packetLength (b : List Byte) (pps : List Byte) : Bool :=
  let n := be b 6 2
  let k := b.length - 16
  match byteAt b 0 / 16 with
  | 0 => k = 3 * n
  | 1 => k = ceilDiv (30 * n) 8
  | _ => let p := Pps.of pps; k = p.count * p.chunk

/-- No reserved value in a line packet. -/
def packetGood (b : List Byte) : Bool :=
  16 ≤ b.length && byteAt b 0 / 16 < 3 && byteAt b 0 % 16 = 0 && byteAt b 1 < 4 && (byteAt b 0 / 16 = 2 || byteAt b 8 = 0) && allZero (slice b 9 7)

/-! ## Frames in (R333) -/

/-- The frame being received is abandoned and counted. -/
def Hub.dsAbandon (h : Hub) (d pid : Nat) : Hub := (h.modHead d (fun x => { x with opened := none })).bump pid d

/-- Two buffers of a store share bytes: those of index i at one size and of index j at another. -/
def bufsMeet (i w v j w' v' : Nat) : Bool :=
  i * bufBytes w v < (j + 1) * bufBytes w' v' && j * bufBytes w' v' < (i + 1) * bufBytes w v

/-- A free buffer of a store (R333): it shares no byte with the newest complete frame or with what a head scans, which can be of an older geometry
(R335). -/
def Hub.freeBuf (h : Hub) (d : Nat) : Option Nat :=
  let g := h.geometry d
  let x := h.head d
  (List.range (bufCount g.1 g.2)).find? (fun b =>
    h.ds.all (fun y => match y.scan with
      | some s => !(s.store == d && s.buf.any (fun k => bufsMeet b g.1 g.2 k s.w s.h))
      | none => true) &&
    x.newest != some b && !x.newest.any (fun k => let q := nth x.bufs k DsBuf.reset; bufsMeet b g.1 g.2 k q.w q.h))

/-- Line 0 of a new FRAME opens it in a free buffer, or the whole frame is skipped. -/
def Hub.dsOpen (h : Hub) (d : Nat) (b pps : List Byte) : Hub :=
  let g := h.geometry d
  let fr := be b 2 2
  let h := h.modHead d (fun x => { x with last := some fr })
  match h.freeBuf d with
  | none => h.bump P.DS_FRAME_SKIP d
  | some k =>
    h.modHead d (fun x => { x with opened := some ⟨k, 0, pps, []⟩, bufs := modAt x.bufs k (fun _ => ⟨fr, bit (byteAt b 1) 0, g.1, g.2, false, []⟩) })

/-- The next line of the frame being received is written; LAST_LINE ends it. -/
def Hub.dsLine (h : Hub) (d : Nat) (o : DsOpen) (b : List Byte) : Hub :=
  let q := nth (h.head d).bufs o.buf DsBuf.reset
  let y := be b 4 2
  let lastLine := bit (byteAt b 1) 1
  if q.w < be b 6 2 || q.h ≤ y then h.dsAbandon d P.DS_GEOMETRY_DROP
  else if !packetLength b o.pps then h.dsAbandon d P.DS_FORMAT_ERR
  else if lastLine && y + 1 ≠ q.h then h.dsAbandon d P.DS_FRAME_INCOMPLETE
  else
    let lines := if byteAt b 0 / 16 = 2 then o.lines ++ [b.drop 16] else []
    let px := packetPixels b o.pps lines
    let h : Hub := { h with dram := writeMem h.dram (pixelAt d o.buf q.w q.h 0 y) (px.flatMap (leBytes 4)) }
    if !lastLine then h.modHead d (fun x => { x with opened := some { o with line := y + 1, lines := lines } })
    else
      let stale := match (h.head d).newest with
        | some k => (nth (h.head d).bufs k DsBuf.reset).shown.isEmpty
        | none => false
      let h := if stale then h.bump P.DS_FRAME_SUPERSEDED d else h
      (h.modHead d (fun x => { x with opened := none, newest := some o.buf, bufs := modAt x.bufs o.buf (fun q => { q with done := true }) })).bump
        P.DS_FRAMES_IN d

/-- A line packet (R330, R333).  A PPS whose picture size is no longer that of the store's geometry is refused, and packets that name it are discarded
and counted (R331). -/
def Hub.dsPacket (h : Hub) (f : Frame) : Hub :=
  let b := f.bytes
  let d := (h.tun f.entry).binding % 2
  let h := h.takeFrame 6 f
  if !h.works 9 then (if h.al.gov.level = 3 then h.bump P.AL_GOV_DROP 6 else h)
  else if d = 1 && h.clone then h.bump P.DS_CLONE_DROP 0
  else
    let x := h.head d
    let fr := be b 2 2
    let dsc := byteAt b 0 / 16 = 2
    let isNew := be b 4 2 = 0 && x.last ≠ some fr
    let size := match x.opened with
      | some o => if isNew then h.geometry d else let q := nth x.bufs o.buf DsBuf.reset; (q.w, q.h)
      | none => h.geometry d
    let tagged := x.pps.find? (fun e => e.1 == byteAt b 8 && ppsGood e.2 size)
    if !packetGood b || (dsc && tagged.isNone) then
      let h := h.modHead d (fun x => { x with last := some fr })
      h.dsAbandon d P.DS_FORMAT_ERR
    else
      let h := if x.opened.isSome && (x.last ≠ some fr || (x.opened.map (·.line)) ≠ some (be b 4 2)) then h.dsAbandon d P.DS_FRAME_INCOMPLETE else h
      let h := if isNew then h.dsOpen d b ((tagged.map (·.2)).getD [])
        else if x.opened.isNone && x.last ≠ some fr then (h.modHead d (fun x => { x with last := some fr })).bump P.DS_FRAME_INCOMPLETE d
        else if x.last ≠ some fr then h.modHead d (fun x => { x with last := some fr })
        else h
      match (h.head d).opened with
      | some o => if o.line = be b 4 2 then h.dsLine d o b else h
      | none => h

/-! ## Signature (R338, R339) -/

/-- The fallback pattern (R341) at a pixel. -/
def DsScan.fallback (s : DsScan) (x y : Nat) : Nat := if s.pattern = 0 then s.colour else if (x + y) / 32 % 2 = 0 then s.colour else 0

/-- A pixel of the scan that ends, before an alarm's action: fallback colour from an underrun to the end of its line. -/
def Hub.scanPixel (h : Hub) (d : Nat) (s : DsScan) (x y : Nat) : Nat :=
  if (h.head d).under.any (fun u => u.1 == y && decide (u.2 ≤ x)) then s.colour
  else match s.buf with
    | none => s.fallback x y
    | some b => leNat (readMem h.dram (pixelAt s.store b s.w s.h x y) 4) % 2 ^ 30

/-- The watch rectangle of a scan (R336): x, y, width, height; clipped to the active area, all of it when nothing is left. -/
def DsScan.watch (s : DsScan) : Nat × Nat × Nat × Nat :=
  let x := bits s.origin 16 16
  let y := bits s.origin 0 16
  if s.size = 0 || s.w ≤ x || s.h ≤ y then (0, 0, s.w, s.h) else (x, y, min (bits s.size 16 16) (s.w - x), min (bits s.size 0 16) (s.h - y))

/-- The signature of the scan that ends. -/
def Hub.signature (h : Hub) (d : Nat) (s : DsScan) : Nat :=
  let r := s.watch
  let run := fun (c : Nat) (y : Nat) =>
    (List.range r.2.2.1).foldl (fun c x => crcRun poly32 c (beBytes 4 (h.scanPixel d s (r.1 + x) (r.2.1 + y)))) c
  (List.range r.2.2.2).foldl run 0xFFFFFFFF ^^^ 0xFFFFFFFF

/-! ## Frame boundary (R334, R337, R340) -/

/-- The scan that ends gives its signature, and SAME follows (R339, R340). -/
def Hub.scanEnd (h : Hub) (d : Nat) : Hub :=
  match (h.head d).scan with
  | none => h
  | some s =>
    let g := h.signature d s
    let x := h.head d
    let same := match x.sig with
      | none => 0
      | some p => if p ≠ g then 0 else if s.fresh then min 255 (x.same + 1) else x.same
    h.modHead d (fun x => { x with sig := some g, scans := (x.scans + 1) % 2 ^ 32, at_ := h.clk.ns, frame := s.frame, same := same, under := [] })

/-- A scan that begins now takes the settings in force (R60). -/
def Hub.newScan (h : Hub) (d store : Nat) (buf : Option Nat) (frame : Nat) (fresh : Bool) (g : Nat × Nat) : DsScan :=
  ⟨store, buf, frame, fresh, g.1, g.2, h.pget P.DS_WATCH_ORIGIN d, h.pget P.DS_WATCH_SIZE d, h.pget P.DS_FALLBACK_COLOUR d, h.pget P.DS_PATTERN d⟩

/-- The head takes the newest complete frame of its active size, or the fallback pattern, for its next scan; STALE follows. -/
def Hub.scanStart (h : Hub) (d : Nat) : Hub :=
  let st := h.storeOf d
  let g := h.activeSize d
  let owner := h.head st
  let pick := owner.newest.bind (fun k =>
    let q := nth owner.bufs k DsBuf.reset
    if q.w = g.1 && q.h = g.2 then some (k, q) else none)
  match pick with
  | none =>
    h.modHead d (fun x => { x with scan := some (h.newScan d st none 0 false g), stale := min 255 (x.stale + 1) })
  | some (k, q) =>
    let again := q.shown.contains d
    let h := if again then h else h.modHead st (fun o => { o with bufs := modAt o.bufs k (fun q => { q with shown := d :: q.shown }) })
    let h := h.modHead d (fun x => { x with scan := some (h.newScan d st (some k) q.frame (q.live && !again) g), stale := if again then min 255 (x.stale + 1) else 0 })
    if again then h else h.bump P.DS_FRAMES_SHOWN d

/-- What a head sends in place of the active area (R334, R341): 0 the frame it scans, 1 black, 2 the fallback pattern.  PATTERN takes precedence over
BLANK. -/
def Hub.replacement (h : Hub) (d : Nat) (s : DsScan) : Nat :=
  let x := h.head d
  let on := fun (k : Nat) => (x.frozen && bit (h.pget P.DS_FREEZE_ACTION d) k) || (x.starved && bit (h.pget P.DS_STARVE_ACTION d) k)
  if on 1 then 2 else if on 0 then 1 else if s.buf.isNone then 2 else 0

/-- A head shows what it sends: the frame of its scan and what stands in its place. -/
def Hub.showScan (h : Hub) (d : Nat) : Hub :=
  match (h.head d).scan with
  | some s => h.out (.display d "SCAN" [s.frame, h.replacement d s])
  | none => h

/-- Half refresh at SHED and above (R337). -/
def Hub.wantHalf (h : Hub) (d : Nat) : Bool := h.pget P.DS_SHED_HALF d = 1 && 2 ≤ h.al.gov.level

/-- A frame boundary of a head: a new route, pixel clock, active size and the other settings take effect here (R60, R336). -/
def Hub.dsBoundary (h : Hub) (d : Nat) : Hub :=
  let h := h.scanEnd d
  let h := (if h.pget P.DS_ROUTE d = h.routeOf d then h else (h.modHead d (fun x => { x with scan := none })).dsRouted d).dsCarry d
  let x := h.head d
  if h.routeOf d = 0 || !x.up || !x.video || !h.dsOutput d then h.dsStill d
  else
    let h := h.modHead d (fun x => { x with half := h.wantHalf d })
    (((h.scanStart d).frozenStep d).starvedStep d).showScan d

/-- A pixel is due and not in the line buffer (R338). -/
def Hub.dsUnderrun (h : Hub) (d line pixel : Nat) : Hub :=
  match (h.head d).scan with
  | none => h
  | some _ =>
    let now := h.clk.up
    let h := (h.modHead d (fun x => { x with under := x.under ++ [(line, pixel)], recent := now :: x.recent.filter (fun t => now < t + ms 1000) })).bump
      P.DS_UNDERRUN d
    let x := h.head d
    if x.toldAt ≠ 0 && now < x.toldAt - 1 + ms 1000 then h
    else (h.modHead d (fun x => { x with toldAt := now + 1 })).event .dsUnderrunEvt [(0, 1, d), (2, 2, line), (4, 4, x.recent.length)]

/-! ## Commands (R342) -/

/-- DS_SIGNATURE_READ. -/
def Hub.dsSignature (h : Hub) (r : Request) : Hub × Reply :=
  let d := r.arg 0 1
  let x := h.head d
  if !r.has 4 || r.arg 1 3 ≠ 0 then (h, .err .badParam)
  else if 1 < d then (h, .err .range)
  else (h, .ok (leBytes 4 (x.sig.getD 0) ++ leBytes 4 x.scans ++ leBytes 8 x.at_ ++ leBytes 2 x.frame ++ [byte x.same, byte x.stale, byte x.alarms] ++
    List.replicate 11 0#8))

/-- DS_ALARM_CLEAR. -/
def Hub.dsClear (h : Hub) (r : Request) : Hub × Reply :=
  let d := r.arg 0 1
  let m := r.arg 1 1
  if !r.has 4 || r.arg 2 2 ≠ 0 || 3 < m then (h, .err .badParam)
  else if 1 < d then (h, .err .range)
  else
    let x := h.head d
    let f := x.frozen && bit m 0
    let s := x.starved && bit m 1
    let h := h.modHead d (fun x => { x with frozen := x.frozen && !bit m 0, starved := x.starved && !bit m 1,
                                            same := if bit m 0 then 0 else x.same, stale := if bit m 1 then 0 else x.stale })
    let h := if f then h.dsAlarm d P.DS_FREEZE_ACTION false else h
    let h := if s then h.dsAlarm d P.DS_STARVE_ACTION false else h
    (if f || s then h.showScan d else h, .ok [])

/-- The heads after I-DISP was off or reset: no frame, no scan (R389). -/
def Hub.dsReset (h : Hub) : Hub := { h with ds := h.ds.map (fun x => { Head.reset with route := x.route }) }

end Sys2Proof.Machine
end

