-- ==== Sys2Proof/Machine/Ethernet.lean ====
section
/-!
DEFINITION. The local Ethernet ports (chapter 10): reception and its checks (R281), mapping (R282, R283), receive buffers (R284), PAUSE
(R286), event filters (R287), transmission (R289, R290) and link state (R280, R291).
-/
namespace Sys2Proof.Machine

/-- Ethernet port p. -/
def Hub.ethp (h : Hub) (p : Nat) : EthPort := nth h.eth p EthPort.reset

/-- Ethernet port p changed. -/
def Hub.modEth (h : Hub) (p : Nat) (f : EthPort → EthPort) : Hub := { h with eth := modAt h.eth p f }

/-- Bytes of a receive buffer. -/
def EthPort.occupancy (p : EthPort) : Nat := (p.rx.map (fun f => f.bytes.length)).sum

/-- Bytes of a transmit FIFO. -/
def EthPort.fifo (p : EthPort) : Nat := (p.tx.map List.length).sum

/-- Receive buffer and transmit FIFO sizes (R284, R290). -/
def ethRxSize : Nat := 196608
def ethTxSize : Nat := 65536

/-- Mb/s of a mode (R280). -/
def ethRate (mode : Nat) : Nat := if mode = 3 then 10000 else if mode = 4 then 1000 else 25000

/-- The time of n pause quanta of 512 bits, in ns (R286, Annex 31B). -/
def quantaTime (mode n : Nat) : Nat := n * 512 * 1000 / ethRate mode

/-! ## Fields of a frame -/

/-- The frame's first tag has TPID 0x8100. -/
def ethTagged (b : List Byte) : Bool := be b 12 2 == 0x8100

/-- The VID of a received frame (R282). -/
def Hub.ethVid (h : Hub) (p : Nat) (b : List Byte) : Nat :=
  let v := be b 14 2 % 4096
  if ethTagged b && 1 ≤ v && v ≤ 4094 then v else h.pget P.EN_PVID p

/-- The EtherType that follows the 0x8100 tag, if there is one (R287). -/
def etherType (b : List Byte) : Nat := if ethTagged b then be b 16 2 else be b 12 2

/-- A frame with its FCS (least significant byte first). -/
def withFcs (b : List Byte) : List Byte := b ++ leBytes 4 (crc32 b)

/-- The FCS is correct (R281). -/
def fcsGood (b : List Byte) : Bool := crc32 (b.take (b.length - 4)) == le b (b.length - 4) 4

/-! ## Tables 0x30 and 0x31 -/

/-- Why a mapping entry is refused (R283), or nothing: a TUNNEL out of range is, whether or not it sets VALID. -/
def Hub.vlanRefusal (h : Hub) (i v : Nat) : Option Status :=
  let vid := bits v 0 12
  if bit v 15 && (bit v 12 || bits v 33 7 ≠ 0 || bits v 40 24 ≠ 0 || vid = 0 || vid = 4095 ||
      (h.tableRows 0x30).any (fun e => e.1 != i && bit e.2 15 && bits e.2 0 12 == vid && bits e.2 13 2 == bits v 13 2)) then some .badParam
  else if 1023 < bits v 16 16 then some .range
  else none

/-- The mapping entry of a port and VID: its tunnel and TUNNEL_EN. -/
def Hub.vlanMap (h : Hub) (p vid : Nat) : Option (Nat × Bool) :=
  ((h.tableRows 0x30).find? (fun e => bit e.2 15 && bits e.2 0 12 == vid && bits e.2 13 2 == p)).map (fun e => (bits e.2 16 16, bit e.2 32))

/-- Why a filter entry that sets VALID is refused (R287), or nothing. -/
def filterRefusal (v : Nat) : Option Status :=
  let n := bits v 64 8
  if !bit v 31 then none
  else if bits v 12 12 ≠ 0 || bits v 72 8 ≠ 0 || bits v 96 32 ≠ 0 || n = 0 || 32 < n || bits v 24 4 = 0 || 9212 < bits v 48 16 + n then
    some .badParam
  else none

/-- A filter matches a frame (R287). -/
def Hub.filterMatches (h : Hub) (v p : Nat) (b : List Byte) : Bool :=
  bit v 31 && bit v (24 + p) && (bit v 29 || h.ethVid p b == bits v 0 12) && (bit v 28 || etherType b == bits v 32 16) &&
    (List.range 16).all (fun i => (byteAt b (bits v 80 16 + i)) &&& (bits v (128 + 8 * i) 8) == bits v (256 + 8 * i) 8)

/-- The matching filters of a frame, indexes rising. -/
def Hub.filtersOf (h : Hub) (p : Nat) (b : List Byte) : List (Nat × Nat) := (h.tableRows 0x31).filter (fun e => h.filterMatches e.2 p b)

/-- The filter of lowest index acts (R287). -/
def Hub.filterAct (h : Hub) (i v : Nat) (b : List Byte) (t : Nat) : Hub :=
  let o := bits v 48 16
  let n := bits v 64 8
  let h := (h.bump P.EN_FILTER_HITS i).pset P.EN_FILTER_LAST_TS i t
  if b.length < o + n + 4 then h.bump P.EN_FILTER_SHORT 0
  else h.pushEvent ⟨2, slice b o n, t, 0, 2, h.ownId⟩

/-! ## Reception -/

/-- A MAC Control frame (R281, R286): PAUSE holds transmission for its quanta. -/
def Hub.macControl (h : Hub) (p : Nat) (b : List Byte) : Hub :=
  let h := h.bump P.EN_RX_PAUSE p
  if be b 14 2 = 1 && bit (h.pget P.EN_PAUSE p) 0 then
    let q := be b 16 2
    h.modEth p (fun e => { e with paused := if q = 0 then none else some (h.clk.up + quantaTime e.mode q) })
  else h

/-- A frame that passed its checks goes to its tunnel's receive buffer (R282, R284). -/
def Hub.ethMap (h : Hub) (p : Nat) (b : List Byte) (consumed : Bool) : Hub :=
  match h.vlanMap p (h.ethVid p b) with
  | none => h.bump P.EN_RX_NOMAP p
  | some (i, on) =>
    let e := h.tun i
    if !on || consumed then h
    else if !(e.valid && e.dir.sends && e.type = tEthernet) then h.bump P.EN_RX_NOTUNNEL p
    else if ethRxSize < (h.ethp p).occupancy + b.length then h.bump P.EN_RX_FULL p
    else h.modEth p (fun q => { q with rx := q.rx ++ [⟨i, b, false⟩] })

/-- The frames of a transmit FIFO leave. -/
def Hub.ethDrain (h : Hub) (p : Nat) : Hub :=
  let q := (h.ethp p).tx
  q.foldl (fun h b => ((h.out (.eth p b)).bump P.EN_TX_FRAMES p).bumpBy P.EN_TX_BYTES p b.length) (h.modEth p (fun e => { e with tx := [] }))

/-- A received frame (R281, R285, R287). -/
def Hub.ethRx (h : Hub) (p : Nat) (f : EthFrame) : Hub :=
  let h := h.untilLine f.time
  let b := f.bytes
  if !(h.ethp p).up || !h.works 7 then h
  else if !f.phyOk then h.bump P.EN_RX_ERR p
  else if b.length < 64 then h.bump P.EN_RX_RUNT p
  else if h.pget P.EN_MAX_FRAME p < b.length then h.bump P.EN_RX_OVERSIZE p
  else if !fcsGood b then h.bump P.EN_RX_FCS p
  else if be b 12 2 = 0x8808 then
    let h := h.macControl p b
    if (h.ethp p).paused.isNone then h.ethDrain p else h
  else
    let h := (h.bump P.EN_RX_FRAMES p).bumpBy P.EN_RX_BYTES p b.length
    let fs := h.filtersOf p b
    let h' := match fs with | (i, v) :: _ => h.filterAct i v b f.time | [] => h
    h'.ethMap p b (fs.any (fun e => bit e.2 30))

/-- The head of a receive buffer is policed once, then admitted when its shaper and the shared buffer allow (R176, R180, R153, R284). -/
def Hub.ethAdmit (h : Hub) (p : Nat) : Hub :=
  match (h.ethp p).rx with
  | [] => h
  | f :: rest =>
    let e := h.tun f.entry
    let n := f.bytes.length
    let cells := cellsOf e false n
    let gone (h : Hub) : Hub := h.modEth p (fun q => { q with rx := rest })
    if !(e.valid && e.dir.sends && e.type = tEthernet && h.tunnels) then gone (h.bump P.EN_RX_NOTUNNEL p)
    else if e.limit < n then gone h
    else if !e.mcast && e.peer = h.ownId then gone ((h.countDrops f.entry cells).bumpBy P.SW_NOROUTE_DROP 4 cells)
    else
      let r := if f.policed then (h, true) else h.police f.entry e n
      if !r.2 then gone ((r.1.bump P.AL_POLICE_DROP 0).countDrops f.entry cells)
      else
        let h := r.1
        let b := mget ⟨0, 0⟩ h.tn.shape f.entry
        let rate := (rateOf (h.tget 0x22 f.entry)).2.1
        let h := if h.shaped f.entry e && !h.shaperOpen f.entry e && 0 < rate then h.until (b.at_ + b.lack / rate + 1) else h
        let stay (h : Hub) : Hub := h.modEth p (fun q => { q with rx := { f with policed := true } :: rest })
        if !h.shaperOpen f.entry e then stay h
        else match h.trySend ⟨4, f.entry, false, f.bytes, n, true⟩ e with
          | (h, .noRoom) => stay h
          | (h, _) => gone h

/-! ## PAUSE towards the link partner (R286) -/

/-- A PAUSE frame: its source address is a free value (log 7). -/
def Hub.sendPause (h : Hub) (p quanta : Nat) : Hub :=
  let r := h.freeBytes 6
  let body := [0x01#8, 0x80#8, 0xC2#8, 0x00#8, 0x00#8, 0x01#8] ++ r.1 ++ beBytes 2 0x8808 ++ beBytes 2 1 ++ beBytes 2 quanta
  ((r.2.out (.eth p (withFcs (fit 60 body)))).bump P.EN_TX_PAUSE p).modEth p (fun e => { e with xoff := quanta ≠ 0, pauseAt := h.clk.up })

/-- Occupancy has crossed a threshold (R286). -/
def Hub.pauseTx (h : Hub) (p : Nat) : Hub :=
  let e := h.ethp p
  let n := e.occupancy
  if !bit (h.pget P.EN_PAUSE p) 1 || !e.up then h
  else if h.pget P.EN_PAUSE_XOFF p < n && !e.xoff then h.sendPause p (h.pget P.EN_PAUSE_QUANTA p)
  else if n < h.pget P.EN_PAUSE_XON p && e.xoff then h.sendPause p 0
  else h

/-- Half of the pause time has passed with PAUSE in force (R286). -/
def Hub.pauseRepeat (h : Hub) (p : Nat) : Hub :=
  let e := h.ethp p
  if !bit (h.pget P.EN_PAUSE p) 1 || !e.up || !e.xoff then h
  else
    let q := h.pget P.EN_PAUSE_QUANTA p
    (h.until (e.pauseAt + quantaTime e.mode q / 2)).sendPause p q

/-- A received pause time runs out: the FIFO leaves (R286). -/
def Hub.pauseExpire (h : Hub) (p : Nat) : Hub :=
  match (h.ethp p).paused with
  | none => h
  | some t => ((h.until t).modEth p (fun e => { e with paused := none })).ethDrain p

/-! ## Transmission (R289, R290) -/

/-- The frame as BINDING's TAG makes it leave: sent unchanged with its FCS; or with VID put into its 0x8100 tag; or with that tag removed, padded to
64 bytes; under TAG 1 and 2 with its FCS recomputed, tag or not. -/
def retag (binding : Nat) (b : List Byte) : List Byte :=
  let tag := bits binding 12 2
  let body := b.take (b.length - 4)
  if tag = 1 then
    withFcs (if ethTagged b then body.take 14 ++ beBytes 2 (be b 14 2 / 4096 * 4096 + binding % 4096) ++ body.drop 16 else body)
  else if tag = 2 then
    let cut := if ethTagged b then body.take 12 ++ body.drop 16 else body
    withFcs (if cut.length < 60 then fit 60 cut else cut)
  else b

/-- An earlier frame of the tunnel still waits: frames of one tunnel leave in the order of delivery. -/
def Hub.ethBehind (h : Hub) (f : Frame) : Bool :=
  match h.inbox.find? (fun x => x.1 == 4 && x.2.entry == f.entry) with | some x => x.2 != f | none => false

/-- A delivered frame leaves by the port of its entry, waits for the FIFO or behind an earlier frame of its tunnel, or is dropped. -/
def Hub.ethTx (h : Hub) (f : Frame) : Hub :=
  if h.ethBehind f then h
  else
  let e := h.tun f.entry
  let p := bits e.binding 14 2
  let b := retag e.binding f.bytes
  let q := h.ethp p
  if !h.works 7 then
    let h := h.takeFrame 4 f
    if h.al.gov.level = 3 then h.bump P.AL_GOV_DROP 4 else h.bump P.EN_TX_DOWN p
  else if !q.up then (h.takeFrame 4 f).bump P.EN_TX_DOWN p
  else if h.pget P.EN_MAX_FRAME p < b.length then (h.takeFrame 4 f).bump P.EN_TX_OVERSIZE p
  else if ethTxSize < q.fifo + b.length then h
  else
    let h := (h.takeFrame 4 f).modEth p (fun q => { q with tx := q.tx ++ [b] })
    if q.paused.isNone then h.ethDrain p else h

/-! ## Link state (R280, R291) -/

/-- A port's link changes: going down, its FIFO is discarded. -/
def Hub.ethLink (h : Hub) (p : Nat) (up : Bool) : Hub :=
  let q := h.ethp p
  let mode := h.pget P.EN_MODE p
  if up = q.up || (up && (h.pget P.EN_ENABLE p = 0 || mode = 0 || !h.works 7)) then h
  else
    let h := if up then h else h.bumpBy P.EN_TX_DOWN p q.tx.length
    let h := h.modEth p (fun q => if up then { q with up := true, mode := mode } else { q with up := false, mode := 0, tx := [], paused := none, xoff := false })
    (h.raise (2 ^ intLink)).event .ethLink [(0, 1, p), (1, 1, b2n up), (2, 1, mode)]

/-- A port that starts in mode 4 advertises the PAUSE ability of EN_PAUSE; in another mode there is no auto-negotiation (R280). -/
def Hub.ethAdvertise (h : Hub) (p : Nat) : Hub :=
  if h.works 7 && h.pget P.EN_ENABLE p = 1 && h.pget P.EN_MODE p = 4 then
    (h.modEth p (fun q => { q with advert := some (h.pget P.EN_PAUSE p) })).out (.ethPause p (h.pget P.EN_PAUSE p))
  else h.modEth p (fun q => { q with advert := none })

/-- A write of EN_MODE or EN_ENABLE takes the port down and starts it in the new mode; it comes up when its link does (R280). -/
def Hub.ethRestart (h : Hub) (p : Nat) : Hub := (h.ethLink p false).ethAdvertise p

/-- Link state as the PCS reports it; a port that has lost its link starts anew. -/
def Hub.ethLinkSeen (h : Hub) (p : Nat) (up : Bool) : Hub := if up then h.ethLink p true else h.ethRestart p

/-- Every port starts: I-ETH powers up, or the configuration store is applied. -/
def Hub.ethStart (h : Hub) : Hub := [0, 1, 2, 3].foldl Hub.ethAdvertise h

/-- EN_LINK (R280). -/
def Hub.ethStatus (h : Hub) (p : Nat) : Nat := b2n (h.ethp p).up + 2 * (h.ethp p).mode

/-- The ports after an island reset or power-down of I-ETH. -/
def Hub.ethReset (h : Hub) : Hub :=
  let h := [0, 1, 2, 3].foldl (fun h p => h.ethLink p false) h
  { h with eth := List.replicate 4 EthPort.reset }

end Sys2Proof.Machine
end

