-- ==== Sys2Proof/Machine/Islands.lean ====
section
/-!
DEFINITION. Clock islands and Seams (chapter 15): island resets and gating, retention by the letters of R10 and R389, what a crossing
reports (R371, R372), gradient alarms (R374), supply skew (R375), clock requests (R370) and the I-AON oscillator (R376).
-/
namespace Sys2Proof.Machine

/-! ## Retention (R10, R389) -/

/-- The letters of R10 as bits of `ParamDesc.kept`. -/
def letterI : Nat := 4
def letterW : Nat := 3
def letterD : Nat := 2
def letterS : Nat := 1
def letterN : Nat := 0

/-- Parameters that a letter does not keep return to their defaults, where the test picks them. -/
def Hub.retain (h : Hub) (letter : Nat) (pick : Nat → Nat → Bool) : Hub :=
  { h with params := h.params.filter (fun e =>
      let pid := e.1 / 65536
      !pick pid (e.1 % 65536) || (match descOf pid with | some d => bit d.kept letter | none => false)) }

/-- The island that holds a parameter instance: its block's (R362); none for I-AON, which no island reset reaches.  Of the counters of chapters 15
and 16 that R389 does not list in I-AON, those of the Seams, gradients and supplies are I-MGMT's and PW_GATED_DROP is I-CORE's (log 170). -/
def paramIsland (pid inst : Nat) : Option Nat :=
  match pid / 256 with
  | 0x01 => some (match descOf pid with | some d => if d.count = 6 then inst / 2 else inst | none => 0)
  | 0x02 | 0x03 | 0x04 | 0x05 => some 3
  | 0x06 => some 5
  | 0x07 => some 6
  | 0x08 => some 7
  | 0x09 | 0x0A => some 8
  | 0x0C => some 9
  | 0x0D => some 4
  | 0x0E => if pid = P.KY_TAMPER_LATCH || pid = P.KY_TAMPER_EVENTS then none else some 10
  | 0x0F => if pid = P.MG_WDT_RESETS then none else some 10
  | 0x10 =>
    if pid = P.PW_GATED_DROP then some 3
    else if [P.PW_SEAM_DISCARD, P.PW_SEAM_RESETS, P.PW_GRADIENT_ALARMS, P.PW_SKEW_RESETS].contains pid then some 10
    else none
  | 0x11 => some 10
  | _ => none

/-- What DOZE takes at its entry and at its exit (R10, R11): parameters that do not list D, the registers and the governor's level, which list
nothing. -/
def Hub.dozeLoss (h : Hub) : Hub :=
  let h := (h.retain letterD (fun _ _ => true)).modRegs (fun r => { r with heartbeat := 0, ltHi := 0, ltFrac := 0 })
  h.modGov (fun g => { Governor.reset with sched := g.sched })

/-- The tables returned to all zeros. -/
def Hub.clearTables (h : Hub) (ts : List Nat) : Hub := { h with tables := h.tables.filter (fun e => !ts.contains (e.1 / 65536)) }

/-- Tables that an island reset empties: those it holds that R389 does not keep through I. -/
def islandTables (i : Nat) : List Nat :=
  if i = 3 then [0x01, 0x20, 0x21, 0x22, 0x50] else if i = 4 then [0x11] else if i = 7 then [0x30, 0x31] else if i = 8 then [0x40] else []

/-! ## Crossings (R368) -/

/-- The two islands of a crossing. -/
def crossing (x : Nat) : Nat × Nat :=
  nth [(0, 3), (1, 3), (2, 3), (4, 3), (5, 3), (6, 3), (7, 3), (8, 3), (9, 3), (10, 3), (5, 4), (9, 4), (10, 4), (6, 10), (8, 10), (7, 5), (8, 5),
    (11, 10), (11, 8), (11, 0), (11, 1), (11, 2), (11, 5), (11, 3)] x (11, 11)

/-- The other island of a crossing. -/
def otherSide (x i : Nat) : Nat := if (crossing x).1 = i then (crossing x).2 else (crossing x).1

/-- The crossings of an island. -/
def crossingsOf (i : Nat) : List Nat := (List.range 24).filter (fun x => (crossing x).1 == i || (crossing x).2 == i)

/-- Items in flight on a crossing when one side enters reset, discarded and counted: those its Data Seam holds, and `items` more that were presented
within the crossing's latency, as many as the FIFOs of both directions have entries. -/
def Hub.inFlight (h : Hub) (x items : Nat) : Nat :=
  let held := (h.seam x).items.length
  held + min items (2 * seamDepth x - held)

/-- The last value the live side saw of the crossing's first Count Seam: on crossings 0 to 2 that of freed credit flits; to I-CORE and I-MGMT no rule
says which Seam is the first, and the value is a free value (log 130); the other crossings have none (R369). -/
def Hub.lastCount (h : Hub) (x : Nat) : Nat × Hub :=
  if x < 3 then ((((h.seam x).counts.headD ⟨0#16, 0#16⟩).taken).toNat, h)
  else if [3, 10].contains (crossing x).1 || [3, 10].contains (crossing x).2 then (h.fresh.1 % 65536, h.fresh.2)
  else (0, h)

/-- The live side of crossing x sees the reset of island i, or its power-down (R371): both ends are empty, what was in flight is discarded and
counted, SEAM_RESET is delivered. -/
def Hub.seamLost (h : Hub) (x i items : Nat) : Hub :=
  if (h.seam x).lost = some i then h
  else
    let n := h.inFlight x items
    let r := h.lastCount x
    let h := r.2.modSeam x (fun _ => { Crossing.reset with lost := some i })
    ((h.bump P.PW_SEAM_RESETS x).bumpBy P.PW_SEAM_DISCARD x n).event .seamReset [(0, 1, x), (1, 1, i), (2, 1, 1), (4, 2, min n 65535), (8, 4, r.1)]

/-- Island i enters reset or goes behind its Hem, with `items` presented items in flight on each crossing: each live side sees it; a crossing with no
live side is empty. -/
def Hub.partnersSee (h : Hub) (i : Nat) (items : Nat → Nat) : Hub :=
  (crossingsOf i).foldl (fun h x =>
    if h.works (otherSide x i) then h.seamLost x i (items x) else h.modSeam x (fun _ => Crossing.reset)) h

/-- Island i leaves reset, or its switch closes (R372): both ends of its crossings start empty, what the live sides have seen is told to have ended,
and at I-MGMT the Pulse Seams deliver one pulse each, so that every mailbox is examined. -/
def Hub.seamsBack (h : Hub) (i : Nat) : Hub :=
  let h := (crossingsOf i).foldl (fun h x =>
    if (h.seam x).lost = some i then (h.modSeam x (fun _ => Crossing.reset)).eventClear .seamReset [(0, 1, x), (1, 1, i), (2, 1, 0)] else h) h
  if i = 10 then [0, 1, 2, 3].foldl (fun h m => h.modSeam (bellCrossing m) Crossing.pulse) h else h

/-- The crossings of I-AON with the islands that a warm reset, REST or a thermal shutdown takes (R368). -/
def aonCrossings : List Nat := [17, 18, 19, 20, 21, 22, 23]

/-- I-AON, spared, sees the other islands go (R371). -/
def Hub.aonSees (h : Hub) : Hub :=
  aonCrossings.foldl (fun h x => if h.works (crossing x).2 then h.seamLost x (crossing x).2 0 else h) h

/-- What the Seams hold after a warm reset or in REST: what I-AON has seen. -/
def Hub.aonSeams (h : Hub) : List Crossing := h.seams.zipIdx.map (fun c => if aonCrossings.contains c.2 then c.1 else Crossing.reset)

/-- I-AON sees the islands that a warm reset brings back. -/
def Hub.aonBack (h : Hub) : Hub := aonCrossings.foldl (fun h x => if h.works (crossing x).2 then h.seamsBack (crossing x).2 else h) h

/-! ## What an island loses -/

/-- A line or twin port goes down and its PHY stands still (R375). -/
def Hub.portStop (h : Hub) (p : Nat) : Hub := (h.portDown p 0 false).enter p .disabled

/-- An island reset of a line or twin port: it goes down and loses what it knows of its partner, its lane map and the stored choice (R389: none
lists I). -/
def Hub.portLoss (h : Hub) (p : Nat) : Hub := (h.portStop p).modTrain p (fun _ => Port.reset.train)

/-- Link delays are line-time state, which I-CORE holds and REST does not keep (R214, R389). -/
def Hub.freshTimes (h : Hub) : Hub := { h with ports := h.ports.map (fun q => { q with time := Port.reset.time }) }

/-- The port starts anew, when it is enabled. -/
def Hub.portStart (h : Hub) (p : Nat) : Hub :=
  if h.portAbsent p || h.pget P.LN_ENABLE p = 0 || (h.port p).state ≠ .disabled then h else h.toDetect p

/-- Rails, ID and line time at a release (R207, R216): a head has its ID, and twin A of the head is the master of line time. -/
def Hub.railFresh (h : Hub) : Rail :=
  if h.timeMaster then
    { Rail.reset with idValid := true, ts := .master, source := 1, depth := 0, masterTag := deviceNat % 2 ^ 32 }
  else { Rail.reset with idValid := h.isHead }

/-- I-CORE loses queues, contexts, rails, the armed epoch and the governor's level (R389, R11). -/
def Hub.coreReset (h : Hub) : Hub :=
  let h := (h.setPps false).freshTimes
  { h with sw := Switch.reset, tn := { Tunnel.reset with frameCtr := h.tn.frameCtr, resyncs := h.tn.resyncs, exhausted := h.tn.exhausted },
           ct := { h.ct with events := [], marks := [], bw := Counters.reset.bw },
           al := h.al.afterLoss,
           rl := h.railFresh }

/-- I-MEM loses DRAM with the copies and the Lint mirror in it, and the guard its regions and its lock (R389, log 139). -/
def Hub.memReset (h : Hub) : Hub := { h with dram := [], ag := Guard.reset, lint := { h.lint with dram := [] } }

/-- I-MGMT loses the host register block's registers, mailboxes, transactions and operations, the Lint log in its SRAM, the MEASURED keys,
Horest's state, Press and the captured headers (R389). -/
def Hub.mgmtReset (h : Hub) : Hub :=
  { h with ct := { h.ct with press := Press.reset, samples := Counters.reset.samples, wanted := Counters.reset.wanted },
           ctl := { Control.reset with nextToken := h.ctl.nextToken, nextTxn := h.ctl.nextTxn }, lint := { h.lint with sram := [] },
           ky := { h.ky with measured := false }, mg := { h.mg with ready := false, full := false, wdtArmed := false } }

/-- Alt Mode ends on the ports of both heads before I-DISP goes (R325). -/
def Hub.altsExit (h : Hub) : Hub := [0, 1, 2, 3].foldl (fun h n => h.altExit n true) h

/-- I-USB loses its ports, and with the PD hardware the contracts of the sourcing ports, which are offered anew. -/
def Hub.usbLost (h : Hub) : Hub :=
  [0, 1, 2, 3].foldl (fun h n =>
    if (h.tcp n).attached then
      (h.modTc n (fun t => { t.void with alt := 0, altStep := 0, swap := 0, asked := false, due := true })).setBase (n + 1) 3300
    else h) h.usbReset

/-- What the reset of an island takes from its blocks (R388, R389). -/
def Hub.islandLoss (h : Hub) (i : Nat) : Hub :=
  let h := (h.retain letterI (fun pid inst => paramIsland pid inst == some i)).clearTables (islandTables i)
  if i < 3 then h.portLoss i
  else if i = 3 then h.coreReset
  else if i = 4 then h.memReset
  else if i = 5 then h.deIslandReset
  else if i = 6 then h.bridgeReset
  else if i = 7 then h.ethReset
  else if i = 8 then h.usbLost
  else if i = 9 then h.altsExit.dsReset
  else if i = 10 then h.mgmtReset
  else h

/-- An island reset that is over at once (R388): its Seams behave as in R371 and R372. -/
def Hub.islandReset (h : Hub) (i : Nat) : Hub :=
  let h := ((h.islandLoss i).partnersSee i (fun _ => 0)).seamsBack i
  if i < 3 then h.portStart i else if i = 3 then h.rejoin else if i = 7 then h.ethStart else h

/-- An island enters reset and stays there. -/
def Hub.islandHold (h : Hub) (i : Nat) (items : Nat → Nat) : Hub :=
  ((h.islandLoss i).modIsland i (fun x => { x with inReset := true })).partnersSee i items

/-- An island leaves reset. -/
def Hub.islandRelease (h : Hub) (i : Nat) : Hub :=
  let h := (h.modIsland i (fun x => { x with inReset := false, skew := false })).seamsBack i
  if i < 3 then h.portStart i else if i = 3 then h.rejoin else if i = 7 then h.ethStart else h

/-- The bridge behind its open switch: its error log is kept (R389). -/
def Hub.bridgeGate (h : Hub) : Hub :=
  let log := h.br.log
  let h := if h.br.up then h.linkChange false 0 0 else h
  h.bridgeReset.modBr (fun b => { b with log := log })

/-- The power switch of an island opens: what its blocks do not keep is gone. -/
def Hub.islandGate (h : Hub) (i : Nat) : Hub :=
  if !(h.island i).powered then h
  else
    let h := if i = 5 then h.dropArmed
      else if i = 6 then (h.setPerst false).bridgeGate
      else if i = 7 then h.ethReset
      else if i = 8 then h.usbGate
      else if i = 9 then h.altsExit.dsReset
      else h
    let h := (h.modIsland i (fun x => { x with powered := false, clock := false })).partnersSee i (fun _ => 0)
    if i = 5 then h.dePowerDown else h

/-- The power switch of an island closes; that of I-L0 stays open in HEAD role (R21, R362). -/
def Hub.islandOn (h : Hub) (i : Nat) : Hub :=
  if i = 0 && h.isHead then h
  else
  let was := (h.island i).powered
  let h := h.modIsland i (fun x => { x with powered := true, clock := true })
  if was then h else
  let h := if (h.island i).inReset then h else h.seamsBack i
  if i = 5 then h.dePowerUp else if i = 6 then (if h.br.perst.isSome then h else h.setPerst true) else if i = 7 then h.ethStart
    else if i = 8 then h.usbPowerUp else if i = 9 then [0, 1, 2, 3].foldl Hub.altStart h else h

/-! ## One side reset (R371, R372) -/

/-- The live side sees its partner's reset (R371).  An island that works is one that Horest resets for its own recovery (R388); a reset that the live
side of this crossing has seen already is no new one. -/
def Hub.seamReset (h : Hub) (x i items : Nat) : Hub :=
  if !(crossingsOf i).contains x then h
  else if h.works i && i ≠ 11 then h.islandHold i (fun y => if y = x then items else 0)
  else if h.works (otherSide x i) then h.seamLost x i items
  else h

/-- The reset side of a crossing is released (R372), and with it every crossing of its island; an island held for skew waits for its own release
(R375), one behind its Hem for its switch. -/
def Hub.seamRelease (h : Hub) (x : Nat) : Hub :=
  let c := crossing x
  let i := if (h.island c.1).inReset then c.1 else c.2
  if !(h.island i).inReset || (h.island i).skew then h else h.islandRelease i

/-! ## Gradient (R374) -/

/-- The greatest excess of an island's reading over a neighbour's, in m°C, with that neighbour. -/
def Hub.gradientOf (h : Hub) (i : Nat) : Int × Nat :=
  match (crossingsOf i).map (fun x => let j := otherSide x i; (h.islandTemp i - h.islandTemp j, j)) with
  | [] => (0, i)
  | d :: ds => ds.foldl (fun a b => if a.1 < b.1 then b else a) d

/-- The comparison of one island with its neighbours: raised above 40 °C, cleared below 35 °C. -/
def Hub.gradientIsland (h : Hub) (i : Nat) : Hub :=
  let g := h.gradientOf i
  let args := fun (b : Nat) => [(0, 1, i), (1, 1, g.2), (2, 1, b), (4, 2, (g.1 / 1000).toNat)]
  if !(h.island i).gradient && 40000 < g.1 then
    ((h.modIsland i (fun s => { s with gradient := true })).bump P.PW_GRADIENT_ALARMS i).event .gradientAlarm (args 1)
  else if (h.island i).gradient && g.1 < 35000 then
    (h.modIsland i (fun s => { s with gradient := false })).eventClear .gradientAlarm (args 0)
  else h

/-- The comparison of every island. -/
def Hub.gradientStep (h : Hub) : Hub := (List.range 12).foldl Hub.gradientIsland h

/-! ## Supply skew (R375) -/

/-- The nominal supply of an island in mV (R362). -/
def nominalMv (i : Nat) : Nat := if i = 11 then 800 else 750

/-- How far a supply lies from its nominal value. -/
def skewOf (i mv : Nat) : Nat := (mv - nominalMv i) + (nominalMv i - mv)

/-- The supplies of a crossing seen: which of its islands lies further from nominal, its neighbour, and their difference. -/
def Hub.skewSeen (h : Hub) (x mvA mvB : Nat) : Hub :=
  let c := crossing x
  (h.modIsland c.1 (fun s => { s with mv := mvA })).modIsland c.2 (fun s => { s with mv := mvB })

/-- A difference over 200 mV for two samples resets the island further from nominal; I-AON is never reset this way. -/
def Hub.supplySkew (h : Hub) (x mvA mvB : Nat) : Hub :=
  let c := crossing x
  let h := h.skewSeen x mvA mvB
  let diff := (mvA - mvB) + (mvB - mvA)
  let i := if skewOf c.2 mvB ≤ skewOf c.1 mvA then c.1 else c.2
  if diff ≤ 200 || i = 11 || (h.island i).skew then h
  else
    let h := ((h.islandHold i (fun _ => 0)).modIsland i (fun s => { s with skew := true })).bump P.PW_SKEW_RESETS i
    h.event .supplySkew [(0, 1, i), (1, 1, otherSide x i), (2, 2, diff), (4, 1, 1)]

/-- The difference has stayed within 150 mV for 1 ms. -/
def Hub.skewRelease (h : Hub) (x mvA mvB : Nat) : Hub :=
  let c := crossing x
  let h := h.skewSeen x mvA mvB
  let diff := (mvA - mvB) + (mvB - mvA)
  let i := if (h.island c.1).skew then c.1 else c.2
  if 150 < diff || !(h.island i).skew then h
  else (h.islandRelease i).eventClear .supplySkew [(0, 1, i), (1, 1, otherSide x i), (2, 2, diff), (4, 1, 0)]

/-! ## Clock requests and the I-AON oscillator -/

/-- A clock request of island i stands (R370): it is clock-gated, and a Seam towards it holds something. -/
def Hub.clockWanted (h : Hub) (i : Nat) : Bool :=
  h.clockGated i && ((crossingsOf i).any (fun x => (h.seam x).waits) || (i == 10 && h.ctl.regs.late != 0))

/-- The clock of a clock-gated island restarts, within 1 µs of the request (R370). -/
def Hub.restart (h : Hub) (i : Nat) : Hub :=
  let h := h.fresh.2.until (h.clk.up + h.fresh.1 % 1001)
  h.modIsland i (fun s => { s with clock := true })

/-- A standing clock request. -/
def Hub.clockRequest (h : Hub) (i : Nat) : Hub := if h.clockWanted i then h.restart i else h

/-- An access of the host register block reaches I-MGMT: while its clock stands still, with the restart that the access itself asks for (R370). -/
def Hub.reach (h : Hub) : Hub := if h.clockGated 10 then h.restart 10 else h

/-- The oscillator is trimmed against the crystal, or keeps its factory trim (R376). -/
def Hub.aonTrim (h : Hub) (present : Bool) (ppm : Int) : Hub :=
  let old := h.pget P.PW_AON_TRIM_STATE 0
  if h.pget P.PW_AON_TRIM_MODE 0 = 1 && present then h.pset P.PW_AON_TRIM_STATE 0 (1 + 65536 * ofSigned 16 ppm)
  else h.pset P.PW_AON_TRIM_STATE 0 (old / 2 * 2)

/-- PW_ISLAND_STATE. -/
def Island.word (s : Island) : Nat :=
  b2n s.powered + 2 * b2n s.clock + 4 * b2n s.inReset + 8 * b2n s.gradient + 16 * b2n s.skew + 65536 * s.mhz

end Sys2Proof.Machine
end

