-- ==== Sys2Proof/Machine/Keys.lean ====
section
/-!
DEFINITION. Keys, life-cycle and tamper (chapter 18): Embel packages (R415), key updates (R414, R416, R417), KEY_STATUS (R418), life-cycle
transitions and Rinse (R419 to R421), debug unlock (R422, R423), tamper sources, policies and latch (R424 to R429).
-/
namespace Sys2Proof.Machine

/-- The key store changed. -/
def Hub.modKy (h : Hub) (f : Keys → Keys) : Hub := { h with ky := f h.ky }

/-- M_IMAGE (R410). -/
def Hub.imageMeasure (h : Hub) : List Byte := h.mg.mImage

/-- The MEASURED root that the boot ROM has derived and that has not been Rinsed (R410). -/
def Hub.measuredKey (h : Hub) : Option (List Byte) := if h.ky.measured then some (measuredRoot h.imageMeasure (h.pget P.KY_LIFE_CYCLE 0)) else none

/-- The policer buckets of entry i, its own and its class's (R179), are full (R178). -/
def Hub.freshBuckets (h : Hub) (i : Nat) : Hub :=
  { h with tn := { h.tn with police := merase (merase h.tn.police i) (1024 + i) } }

/-- An entry of the tunnel table changed as R113 names, its KEY_SLOT's key included: contexts go, buckets are full, requests end, and the
sending side starts with RESYNC. -/
def Hub.tunnelChanged (h : Hub) (i : Nat) : Hub :=
  let h := h.discardEntry i
  let h : Hub := { h.freshBuckets i with tn := { (h.freshBuckets i).tn with shape := merase h.tn.shape i } }
  (h.bridgeEntryChanged i).resyncNow i

/-! ## Embel packages (R415) -/

/-- Envelope and length of a package of a type. -/
def pkgGood (type len : Nat) (b : List Byte) : Bool :=
  b.length = len && le b 0 4 = 0x4C424D45 && le b 4 2 = type && le b 6 2 = 1 && le b 8 4 = len && le b 12 4 = 0

/-- SIGNER_KEY of a package. -/
def pkgSigner (b : List Byte) : List Byte := slice b 40 96

/-- COUNTER of a package. -/
def pkgCounter (b : List Byte) : Nat := le b 32 8

/-- The signature of a package verifies under its own signer. -/
def pkgSigned (b : List Byte) : Bool :=
  Config.ecdsaVerify (pkgSigner b) (Config.sha384 (b.take (b.length - 96))) (b.drop (b.length - 96))

/-- DEVICE_ID, signer hash and signature of a package of TYPE 2 to 4. -/
def Hub.pkgAuth (h : Hub) (b : List Byte) : Bool :=
  slice b 16 16 == deviceId && (h.lc = 0 || (h.ky.auth.map (·.toNat)) == some (beNat (sha384 (pkgSigner b)))) && pkgSigned b

/-! ## Key updates (R414, R416, R417) -/

/-- The key that unwraps a package's WRAPPED: a KEK slot's, or in PROVISION the PTK. -/
def Hub.kek (h : Hub) (slot : Nat) (signer : List Byte) : Option (BitVec 256) :=
  if slot = 0xFF then (if h.lc = 1 then some (transportKey signer) else none)
  else if slot < 32 && bit (h.slot slot).policy 1 then h.slotKey slot
  else none

/-- The checks of KEY_UPDATE in their order (R417): the first that fails, or nothing. -/
def Hub.keyRefusal (h : Hub) (b : List Byte) : Option Status :=
  let body := slice b 136 64
  let k := byteAt body 0
  let op := byteAt body 2
  if h.onVback then some .powerState
  else if !(h.lc = 1 || h.lc = 2) || h.ky.hold || h.ky.unlock.isSome then some .denied
  else if !pkgGood 2 296 b || byteAt body 3 ≠ 0 || 7 < le body 4 4 || !allZero (slice body 48 16) || 31 < k || !(op = 1 || op = 2) then
    some .badParam
  else if !h.pkgAuth b then some .authFail
  else if pkgCounter b ≤ (h.slot k).counter then some .replay
  else match h.kek (byteAt body 1) (pkgSigner b) with
    | none => some .denied
    | some kk => if op = 1 && (Config.unwrap kk (slice body 8 40)).isNone then some .authFail else none

/-- KEY_UPDATE: IN_PROGRESS; the checks are a step of the operation, which KEY_UPDATE_DONE ends (log 174). -/
def Hub.keyUpdate (h : Hub) (r : Request) : Hub × Reply := h.startOp r.mb r.cmd (.keyUpdate r.payload)

/-- A wrapped key that is none. -/
def emptyKey : List Byte := List.replicate 40 0#8

/-- The key that a package's WRAPPED holds, wrapped under the storage key; of an ERASE, none (R413, R416). -/
def Hub.newKey (h : Hub) (b : List Byte) : List Byte :=
  let body := slice b 136 64
  if byteAt body 2 = 2 then emptyKey
  else match (h.kek (byteAt body 1) (pkgSigner b)).bind (fun kk => Config.unwrap kk (slice body 8 40)) with
    | some key => Config.wrap storageKey key
    | none => emptyKey

/-- The two rows of a copy of slot k: wrapped key, POLICY, reserved bytes (R413). -/
def Hub.nvCopy (h : Hub) (k copy : Nat) (wrapped : List Byte) (policy : Nat) : Hub :=
  let d := wrapped ++ leBytes 4 policy ++ List.replicate 20 0#8
  (h.nvRow (4 * k + 2 * copy) (d.take 32)).nvRow (4 * k + 2 * copy + 1) (d.drop 32)

/-- A slot's commit record is written (R414): COUNTER, STATE, ACTIVE. -/
def Hub.nvCommit (h : Hub) (k : Nat) (s : KeySlot) : Hub := h.nvPair (128 + 2 * k) (leBytes 8 s.counter ++ [byte s.state, byte s.active])

/-- Slot k as the NV store holds it: the governing commit record and the copies (R413, R414). -/
def Hub.nvSlot (h : Hub) (k : Nat) : KeySlot :=
  match h.nvBody (128 + 2 * k) with
  | none => KeySlot.reset
  | some c =>
    let copy := fun (i : Nat) => (h.nvAt (4 * k + 2 * i)).data ++ (h.nvAt (4 * k + 2 * i + 1)).data
    let active := byteAt c 9
    ⟨byteAt c 8, le (copy active) 40 4, le c 0 8, active, (copy 0).take 40, (copy 1).take 40⟩

/-- The entries with ENCRYPT whose KEY_SLOT is k. -/
def Hub.entriesOfSlot (h : Hub) (k : Nat) : List Nat := (h.tuns.filter (fun e => e.2.enc && e.2.keySlot == k)).map (·.1)

/-- A key update's commit (R414, R416): the copy that ACTIVE does not name, then the commit record; KEY_CHANGED, and the entries that use the slot
change key (R417). -/
def Hub.keyCommit (h : Hub) (token : Nat) (b : List Byte) : Hub :=
  let body := slice b 136 64
  let k := byteAt body 0
  let s := h.slot k
  let copy := 1 - s.active
  let w := h.newKey b
  let new : KeySlot :=
    ⟨b2n (byteAt body 2 == 1), le body 4 4, pkgCounter b, copy, if copy = 0 then w else s.copyA, if copy = 0 then s.copyB else w⟩
  let h := ((h.nvCopy k copy w new.policy).nvCommit k new).modKy (fun y => { y with slots := modAt y.slots k (fun _ => new) })
  let h := (h.endOp token .ok 0 []).event .keyChanged [(0, 1, k), (1, 1, new.state), (4, 4, new.policy), (8, 8, new.counter)]
  (h.entriesOfSlot k).foldl Hub.tunnelChanged h

/-- A package fails a check: AUTH_FAIL and REPLAY are counted, and the operation ends with nothing written (R417). -/
def Hub.pkgFails (h : Hub) (token : Nat) (s : Status) : Hub :=
  let h := if s = .authFail then h.bump P.KY_AUTH_FAIL 0 else if s = .replay then h.bump P.KY_REPLAY 0 else h
  h.endOp token s 0 []

/-- KEY_UPDATE_DONE: the package's checks and its commit. -/
def Hub.keyUpdateDone (h : Hub) (token : Nat) : Hub :=
  match (h.op token).map LongOp.work with
  | some (.keyUpdate b) =>
    match h.keyRefusal b with
    | some s => h.pkgFails token s
    | none => h.keyCommit token b
  | _ => h

/-- KEY_STATUS (R418). -/
def Hub.keyStatus (h : Hub) (r : Request) : Hub × Reply :=
  let y := h.ky
  let remain := match y.unlock with | some t => (t - h.clk.up) / 1000000000 | none => 0
  if !r.has 0 then (h, .err .badParam)
  else
    let flags := b2n y.hold + 2 * b2n y.unlock.isSome + 4 * b2n y.measured
    (h, .ok ([byte h.lc, byte flags, 0#8, 0#8] ++ leBytes 4 (h.pget P.KY_TAMPER_LATCH 0) ++ leBytes 8 y.debugCtr ++ leBytes 4 remain ++ leBytes 4 0 ++
      romMeasure ++ h.imageMeasure ++ devicePubkey ++
      y.slots.flatMap (fun s => [byte s.state, 0#8, 0#8, 0#8] ++ leBytes 4 s.policy ++ leBytes 8 s.counter)))

/-! ## Rinse and life-cycle (R420, R421) -/

/-- Both copies and both commit rows of every slot named: STATE 2 with an empty key, the counter kept. -/
def Hub.rinseSlots (h : Hub) (ks : List Nat) : Hub :=
  let h := ks.foldl (fun h k =>
    let new : KeySlot := { h.slot k with state := 2, policy := 0, copyA := emptyKey, copyB := emptyKey }
    let h := (((h.nvCopy k 0 emptyKey 0).nvCopy k 1 emptyKey 0).nvCommit k new).nvCommit k new
    h.modKy (fun y => { y with slots := modAt y.slots k (fun _ => new) })) h
  (ks.flatMap h.entriesOfSlot).foldl Hub.tunnelChanged h

/-- The erase-intent record names slots (R421), a bit each. -/
def Hub.eraseIntent (h : Hub) (ks : List Nat) : Hub :=
  (h.nvRow 204 (leBytes 4 ((ks.map (fun k => 2 ^ k)).sum))).modKy (fun y => { y with erase := ks })

/-- A Rinse whose erase-intent record stands is carried out, and the record cleared. -/
def Hub.rinseIntent (h : Hub) : Hub := (h.rinseSlots h.ky.erase).eraseIntent []

/-- A Rinse of every FABRIC slot (R421). -/
def Hub.rinseAll (h : Hub) : Hub := (h.eraseIntent (List.range 32)).rinseIntent

/-- MEASURED, SESSION and Horest's derived keys are gone until the next warm reset (R425). -/
def Hub.rinseVolatile (h : Hub) : Hub := h.modKy (fun y => { y with measured := false, noSession := true })

/-- The transitions of R420. -/
def lcAllowed (s t : Nat) : Bool := (s = 0 && t = 1) || (s = 1 && t = 2) || (s = 2 && t = 3) || (s ≤ 3 && t = 4)

/-- The checks of LC_TRANSITION (R420). -/
def Hub.lcRefusal (h : Hub) (b : List Byte) : Option Status :=
  if h.onVback then some .powerState
  else if !pkgGood 4 240 b || !allZero (slice b 137 7) then some .badParam
  else if !lcAllowed h.lc (byteAt b 136) then some .denied
  else if !h.pkgAuth b then some .authFail
  else none

/-- LC_TRANSITION: IN_PROGRESS; checks, fuse and Rinse are a step of the operation (log 174). -/
def Hub.lcTransition (h : Hub) (r : Request) : Hub × Reply := h.startOp r.mb r.cmd (.lifeCycle r.payload)

/-- A counter's pair of alternating rows is Rinsed: both hold 0. -/
def Hub.nvZero (h : Hub) (r n : Nat) : Hub := (h.nvPair r (leBytes n 0)).nvPair r (leBytes n 0)

/-- What a fused state forbids is Rinsed (R420, R421): the secret goes with SCRAP. -/
def Hub.lcRinse (h : Hub) (s : Nat) : Hub :=
  if s = 3 then (h.rinseAll).modKy (fun y => { y with measured := false })
  else if s = 4 then
    ((((h.rinseAll).nvZero 192 2).nvZero 196 8).pset P.KY_CRYPTO_EPOCH 0 0).modKy (fun y => { y with measured := false, debugCtr := 0, secretOff := true })
  else h

/-- At a start the boot ROM Rinses FABRIC keys that the fused state forbids (R419, R421). -/
def Hub.forbidRinse (h : Hub) : Hub := if !(h.lc = 1 || h.lc = 2) && h.ky.slots.any (fun s => s.state == 1) then h.rinseAll else h

/-! ## Debug unlock (R422, R423) -/

/-- An unlock ends, by cause 0 duration, 1 reset, 2 REST, 3 tamper. -/
def Hub.unlockEnd (h : Hub) (cause : Nat) : Hub :=
  match h.ky.unlock with
  | none => h
  | some _ =>
    let d := h.ky.duration
    (h.modKy (fun y => { y with unlock := none, duration := 0 })).eventClear .debugUnlocked [(0, 1, 0), (1, 1, cause), (4, 4, d)]

/-! ## The steps of transitions and unlocks -/

/-- The transition: fuse, Rinse, STEP_DONE, LC_CHANGED, and a warm reset within 10 ms.  SCRAP ends an unlock at once (R419), with the cause of the
reset that follows (log 175). -/
def Hub.lcCommit (h : Hub) (token : Nat) (b : List Byte) : Hub :=
  let old := h.lc
  let s := byteAt b 136
  let h := h.pset P.KY_LIFE_CYCLE 0 s
  let h := if old = 0 && s = 1 then h.modKy (fun y => { y with auth := some (BitVec.ofNat 384 (beNat (sha384 (pkgSigner b)))) }) else h
  let h := if s = 4 then h.unlockEnd 1 else h
  let h := ((h.lcRinse s).endOp token .ok 0 []).event .lcChanged [(0, 1, s), (1, 1, old)]
  { h with pw := { h.pw with resetDue := some 5 } }

/-- The step of an LC_TRANSITION. -/
def Hub.lcDone (h : Hub) (token : Nat) (b : List Byte) : Hub :=
  match h.lcRefusal b with
  | some s => h.pkgFails token s
  | none => h.lcCommit token b

/-- The checks of DEBUG_UNLOCK (R422). -/
def Hub.debugRefusal (h : Hub) (b : List Byte) : Option Status :=
  let d := le b 136 4
  if h.onVback then some .powerState
  else if h.ky.hold || h.ky.unlock.isSome then some .denied
  else if !pkgGood 3 248 b || !allZero (slice b 140 12) || d = 0 || 86400 < d then some .badParam
  else if !h.pkgAuth b then some .authFail
  else if pkgCounter b ≤ h.ky.debugCtr then some .replay
  else none

/-- DEBUG_UNLOCK: OK with no effect in BLANK and RETURN, DENIED in SCRAP; else IN_PROGRESS, and the checks are a step of the operation (log 174). -/
def Hub.debugUnlock (h : Hub) (r : Request) : Hub × Reply :=
  if h.lc = 0 || h.lc = 3 then (h, .ok [])
  else if 4 ≤ h.lc then (h, .err .denied)
  else h.startOp r.mb r.cmd (.debugUnlock r.payload)

/-- The unlock takes place: counter, Rinse of the MEASURED keys, the port, DEBUG_UNLOCKED. -/
def Hub.debugCommit (h : Hub) (token : Nat) (b : List Byte) : Hub :=
  let d := le b 136 4
  let h := (h.nvPair 196 (leBytes 8 (pkgCounter b))).modKy (fun y =>
    { y with debugCtr := pkgCounter b, measured := false, debugged := true, unlock := some (h.clk.up + ms 1000 * d), duration := d })
  (h.endOp token .ok 0 []).event .debugUnlocked [(0, 1, 1), (1, 1, 0), (4, 4, d)]

/-- The step of a DEBUG_UNLOCK, in the life-cycle state as it then is. -/
def Hub.debugUnlockDone (h : Hub) (token : Nat) (b : List Byte) : Hub :=
  if h.lc = 0 || h.lc = 3 then h.endOp token .ok 0 []
  else if 4 ≤ h.lc then h.endOp token .denied 0 []
  else match h.debugRefusal b with
    | some s => h.pkgFails token s
    | none => h.debugCommit token b

/-- DURATION elapses. -/
def Hub.unlockElapsed (h : Hub) : Hub :=
  match h.ky.unlock with
  | none => h
  | some t => (h.until t).unlockEnd 0

/-! ## Tamper (R424 to R429) -/

/-- A source's POLICY and RESET (R425). -/
def Hub.tamperPolicy (h : Hub) (s : Nat) : Nat × Bool := (bits (h.pget P.KY_TAMPER_POLICY s) 0 2, bit (h.pget P.KY_TAMPER_POLICY s) 4)

/-- What TAMPER_ALARM calls the state at the alarm (R430). -/
def Hub.alarmState (h : Hub) : Nat :=
  if !h.mg.ready && h.pw.state = .run then 3
  else match h.pw.state with | .doze | .enterDoze => 1 | .rest | .enterRest | .exiting => 2 | _ => 0

/-- The newest record's time was extended by I-AON (R428, R447). -/
def Hub.lintEstimated (h : Hub) : Hub :=
  let f := fun (l : List LintRec) => match l with | r :: rest => { r with est := true } :: rest | [] => []
  { h with lint := { h.lint with sram := f h.lint.sram, aon := f h.lint.aon } }

/-- The long operations of this chapter end ABORTED (R429). -/
def Hub.abortKeyOps (h : Hub) : Hub :=
  (h.ctl.ops.filter (fun o => match o.work with | .keyUpdate .. | .lifeCycle .. | .debugUnlock .. => true | _ => false)).foldl
    (fun h o => h.endOp o.token .aborted 0 []) h

/-- A policy is applied: volatile keys at once, FABRIC slots by the NV Rinse that TAMPER_RINSE_DONE ends, and RESET after that. -/
def Hub.applyPolicy (h : Hub) (s policy : Nat) (reset : Bool) : Hub :=
  let h := if 1 ≤ policy then h.rinseVolatile else h
  if policy = 2 then
    let reset := reset || (h.ky.rinse.map (·.2)).getD false
    (h.eraseIntent (List.range 32)).modKy (fun y => { y with rinse := some (s, reset) })
  else if reset then { h with pw := { h.pw with resetDue := some 9 } }
  else h

/-- An alarm of a source; `force`: RESET is treated as set (R484). -/
def Hub.tamperAlarm (h : Hub) (s : Nat) (force : Bool) : Hub :=
  if 5 < s then h
  else
    let now := h.clk.ns
    let p := h.tamperPolicy s
    let reset := p.2 || force
    let h := (h.modKy (fun y => { y with alarms := setBit y.alarms s true })).pset P.KY_TAMPER_LATCH 0 (setBit (h.pget P.KY_TAMPER_LATCH 0) s true)
    let h := (h.bump P.KY_TAMPER_EVENTS s).raise (2 ^ intTamper)
    let args := fields 16 [(0, 1, s), (1, 1, p.1), (2, 1, 1), (3, 1, h.alarmState), (8, 8, now)]
    let resting := h.pw.state = .rest || h.pw.state = .doze
    let h := h.lintRec Ev.tamperAlarm.code Ev.tamperAlarm.severity args true
    let h := if resting then h.lintEstimated else h
    let h := h.modKy (fun y => { y with heard := modAt y.heard s (fun _ => (p.1, h.alarmState, now)) })
    let h := h.abortKeyOps.unlockEnd 3
    let h := (h.applyPolicy s p.1 reset).deliver .tamperAlarm Ev.tamperAlarm.severity 0 args
    if p.1 = 0 && h.mg.ready then h.pset P.KY_TAMPER_LATCH 0 (setBit (h.pget P.KY_TAMPER_LATCH 0) s false) else h

/-- Horest clears the bits of REPORT sources, whose records are written (R426). -/
def Hub.clearReports (h : Hub) : Hub :=
  ((List.range 6).filter (fun s => bit (h.pget P.KY_TAMPER_LATCH 0) s && (h.tamperPolicy s).1 == 0)).foldl
    (fun h s => h.pset P.KY_TAMPER_LATCH 0 (setBit (h.pget P.KY_TAMPER_LATCH 0) s false)) h

/-- A source's condition ends (R426): the event names the alarm that is over (R430). -/
def Hub.tamperEnd (h : Hub) (s : Nat) : Hub :=
  if !bit h.ky.alarms s || 5 < s then h
  else
    let a := nth h.ky.heard s (0, 0, 0)
    (h.modKy (fun y => { y with alarms := setBit y.alarms s false })).eventClear .tamperAlarm
      [(0, 1, s), (1, 1, a.1), (2, 1, 0), (3, 1, a.2.1), (8, 8, a.2.2)]

/-- The NV Rinse of ZEROISE_ALL completes within 25 ms, and any RESET follows (R425). -/
def Hub.tamperRinsed (h : Hub) : Hub :=
  match h.ky.rinse with
  | none => h
  | some (_, reset) =>
    let h := h.rinseIntent.modKy (fun y => { y with rinse := none })
    if reset then { h with pw := { h.pw with resetDue := some 9 } } else h

/-- Why a write of KY_TAMPER_CLEAR is refused (R426), or nothing: MB0 and MB1 may not, and a source whose condition still holds stays. -/
def Hub.tamperClearRefusal (h : Hub) (mb v : Nat) : Option Status :=
  if mb < 2 then some .denied else if v &&& h.ky.alarms ≠ 0 then some .busy else none

/-- KY_TAMPER_POLICY as its alternating rows hold it, a byte for each source (R413). -/
def Hub.policyBytes (h : Hub) : List Byte := (List.range 6).map (fun s => byte (h.pget P.KY_TAMPER_POLICY s))

/-- At a start the boot ROM reads the NV store (R413, R414): slots, crypto epoch, debug counter, tamper policies, erase-intent record. -/
def Hub.nvLoad (h : Hub) : Hub :=
  let h := h.modKy (fun y => { y with slots := (List.range 32).map h.nvSlot, debugCtr := ((h.nvBody 196).map (le · 0 8)).getD 0,
                                      erase := (List.range 32).filter (bit (le (h.nvAt 204).data 0 4)) })
  let h := h.pset P.KY_CRYPTO_EPOCH 0 (((h.nvBody 192).map (le · 0 2)).getD 0)
  match h.nvBody 200 with
  | some d => (List.range 6).foldl (fun h s => h.pset P.KY_TAMPER_POLICY s (byteAt d s)) h
  | none => h

/-- Latch bits are cleared. -/
def Hub.tamperClear (h : Hub) (v : Nat) : Hub :=
  ((List.range 6).filter (bit v)).foldl (fun h s => h.pset P.KY_TAMPER_LATCH 0 (setBit (h.pget P.KY_TAMPER_LATCH 0) s false)) h

/-- KY_DEBUG_STATE. -/
def Hub.debugState (h : Hub) : Nat :=
  match h.ky.unlock with
  | none => if h.lc = 0 || h.lc = 3 then 2 else 0
  | some t => 3 + (t - h.clk.up) / 1000000000 * 2 ^ 32

end Sys2Proof.Machine
end

