-- ==== Sys2Proof/Machine/Power.lean ====
section
/-!
DEFINITION. Power states (chapter 16): PWR_ENTER and PWR_STATUS (R380, R381), entry and its abort (R379, R382), wake sources and exits (R383),
Fold and Unfold (R384, R385).
-/
namespace Sys2Proof.Machine

/-- The sequencer changed. -/
def Hub.modPw (h : Hub) (f : Power → Power) : Hub := { h with pw := f h.pw }

/-- PW_STATE [3:0]; a hub at rest reads as entering REST until its exit begins (log 22). -/
def PState.code : PState → Nat
  | .run => 0 | .doze => 1 | .enterDoze => 2 | .enterRest => 3 | .rest => 3 | .exiting => 4 | .thermalOff => 0 | .off => 0

/-- PW_STATE with its fold-armed bit. -/
def Power.word (p : Power) : Nat := p.state.code + 16 * b2n p.armed.isSome

/-- A state is entered and POWER_STATE delivered (R390). -/
def Hub.toPState (h : Hub) (s : PState) : Hub :=
  let old := h.pw.state
  (h.modPw (fun p => { p with state := s })).event .powerState [(0, 1, s.code), (1, 1, old.code), (8, 8, h.clk.ns)]

/-- A time that the spec bounds from above: a free instant up to t (log 2). -/
def Hub.within (h : Hub) (t : Nat) : Hub :=
  if h.clk.up < t then h.fresh.2.until (h.clk.up + h.fresh.1 % (t - h.clk.up + 1)) else h

/-- An entry is under way. -/
def PState.entering (s : PState) : Bool := s == .enterDoze || s == .enterRest

/-! ## Entry (R379, R380, R382) -/

/-- An entry into DOZE (1) or REST (2) is accepted: the wake latch is armed. -/
def Hub.startEntry (h : Hub) (mb cmd target : Nat) : Hub × Reply :=
  match h.startOp mb cmd (.power target) with
  | (h, .long t) =>
    let old := h.pw.state
    ((h.modPw (fun p => { p with prior := old, entryAt := h.clk.up, timer := h.pget P.PW_WAKE_TIMER 0, token := t, quiet := false, latched := none })).toPState
      (if target = 1 then .enterDoze else .enterRest), .long t)
  | r => r

/-- An armed fold entry ends without its entry. -/
def Hub.disarmFold (h : Hub) : Hub :=
  match h.pw.armed with
  | some t => (h.modPw (fun p => { p with armed := none })).endOp t .aborted 0 []
  | none => h

/-- Every Type-C port changed. -/
def Hub.modTcs (h : Hub) (f : TcPort → TcPort) : Hub := { h with tc := h.tc.map f }

/-- Local ports quiesced and the effects of R379, R240, R268, R305, R324 and R185, once for each entry. -/
def Hub.quiesce (h : Hub) (rest : Bool) : Hub :=
  if h.pw.quiet then h
  else
    let h := h.modTcs (fun t => { t with wakes := t.state == .unattached })
    let h := [0, 1, 2, 3].foldl Hub.tcPark h.dropArmed.usbEnd
    let h := ((h.br.bufs.map (·.ap) ++ h.br.out.map (·.piece.ap)).foldl Hub.forgetAhead h).modPw (fun p => { p with quiet := true })
    if rest then h.disarm else h

/-- The islands whose switches an entry opens first (R378, R382): I-PCIE stays on in HEAD role. -/
def Hub.gatedIslands (h : Hub) : List Nat := if h.isHead then [5, 7, 8, 9] else [5, 6, 7, 8, 9]

/-- A port goes QUIET: GOING_DOWN with RESTING where it is UP (R85, R382). -/
def Hub.portQuiet (h : Hub) (p : Nat) : Hub :=
  if (h.port p).state = .disabled then h
  else ((h.goingDown p true).linkDown p 3).enter p .quiet |>.modTrain p (fun t =>
    { t with goodRun := 0, lock0 := false, lock1 := false, silent := false, failWait := false, agreed := none, hold := 0, partner := none })

/-- The stages of an entry (R382): 1, the local ports are quiesced and R379 applied; 2, the islands that DOZE gates are behind open switches; 3, the
line ports of a hub that goes to REST are QUIET. -/
def Hub.entryStage (h : Hub) (k : Nat) : Hub :=
  let rest := h.pw.state == .enterRest
  let h := if 1 ≤ k then h.quiesce rest else h
  let h := if 2 ≤ k then h.gatedIslands.foldl Hub.islandGate h else h
  if 3 ≤ k && rest then [0, 1, 2].foldl (fun h p => if (h.port p).state = .quiet then h else h.portQuiet p) h else h

/-- The stage that an entry has reached at the latest (R382). -/
def Hub.stageDue (h : Hub) : Nat :=
  let t := h.clk.up - h.pw.entryAt
  if t < us 100 then 0 else if t < us 400 then 1 else if t < ms 3 then 2 else 3

/-- An entry under way is at the stage that R382's times give it at the latest. -/
def Hub.quiesceDue (h : Hub) : Hub := if h.pw.state.entering then h.entryStage h.stageDue else h

/-- DOZE is reached: I-MGMT is clock-gated (R378, R382). -/
def Hub.dozeDone (h : Hub) : Hub :=
  let h := (h.entryStage 2).dozeLoss
  let h := ((h.bump P.PW_ENTRIES 0).modPw (fun p => { p with done := p.done ++ [p.token] })).toPState .doze
  h.modIsland 10 (fun s => { s with clock := false })

/-- Tables that REST does not keep (R389). -/
def restLost : List Nat := [0x11]

/-- What the hub loses behind its open switches in REST (R389): queues, reassembly, replay memory, rails, line-time state, rings, transactions
and other tokens; retained tables, the tunnel state table among them, stay.  Line time itself goes on in I-AON until the exit (R428). -/
def Hub.restLoss (h : Hub) : Hub :=
  let ops := h.ctl.ops.filter (fun o => h.pw.done.contains o.token)
  let h := ((h.setPps false).retain letterS (fun _ _ => true)).clearTables restLost
  let h := (h.unlockEnd 2).modKy (fun y => { y with measured := false })
  let h := [0, 1, 2].foldl (fun h p => h.modTrain p (fun t => { t with partner := none, laneMap := 0 })) h.freshTimes
  let ctl := { Control.reset with ops := ops, nextToken := h.ctl.nextToken, nextTxn := h.ctl.nextTxn }
  { h with ctl := ctl, sw := Switch.reset, seams := Hub.reset.seams,
           tn := { Tunnel.reset with tx := h.tn.tx, ctxs := (h.tn.ctxs.filter (fun x => h.shownCtx x.entry == some x)).map (Ctx.retained · h.clk.up),
                                     frameCtr := h.tn.frameCtr, resyncs := h.tn.resyncs, exhausted := h.tn.exhausted },
           al := h.al.afterLoss, rl := h.railFresh, lint := { h.lint with sram := [] }, ag := h.ag.afterLoss, de := { h.de with cache := [] },
           ct := { Counters.reset with enabled := h.ct.enabled }, inbox := [],
           mg := { h.mg with staging := none, express := false, ready := false, guarded := false, full := false, loaded := false, wdtArmed := false } }

/-- REST is reached: the last switch opens, the core rails go (R378, R382, R485).  The outcome is told after the next return to RUN. -/
def Hub.restDone (h : Hub) : Hub :=
  let h := h.entryStage 3
  let h := (h.bump P.PW_ENTRIES 1).modPw (fun p => { p with state := .rest, done := p.done ++ [p.token], pmicEn := false, pmicPg := false })
  let seen := (h.islandGate 6).aonSees
  let h : Hub := { seen.restLoss with seams := seen.aonSeams }
  [0, 1, 2, 3, 4, 5, 6, 7, 8, 9, 10].foldl (fun h i => h.modIsland i (fun s => { s with powered := false, clock := false }))
    (h.out (.pin "PMIC_EN" false))

/-- The last power switch of an entry opens (R382). -/
def Hub.entryDone (h : Hub) : Hub :=
  match h.pw.state with
  | .enterDoze => (h.within (h.pw.entryAt + ms 1)).dozeDone
  | .enterRest => (h.within (h.pw.entryAt + ms 5)).restDone
  | _ => h

/-- A fold-armed hub that has become tail with no transaction left enters REST (R380). -/
def Hub.foldEntry (h : Hub) : Hub :=
  match h.pw.armed with
  | some t =>
    if h.isTail && h.ctl.txns.isEmpty && (h.pw.state = .run || h.pw.state = .doze) then
      let old := h.pw.state
      (h.modPw (fun p =>
        { p with armed := none, prior := old, entryAt := h.clk.up, timer := h.pget P.PW_WAKE_TIMER 0, token := t, quiet := false, latched := none })).toPState
        .enterRest
    else h
  | none => h

/-! ## Wake and exit (R382, R383) -/

/-- A wake code counts for a target state: DOZE, or REST; a head ignores any signal on L0 (R21). -/
def Hub.wakeCounts (h : Hub) (code : Nat) (rest : Bool) : Bool :=
  if code = 8 then true
  else if code = 9 then !rest
  else 1 ≤ code && code ≤ 7 && (rest || 4 ≤ code) && !(code = 1 && h.portAbsent 0) && bit (h.pget P.PW_WAKE_MASK (b2n rest)) (code - 1)

/-- POWER_WAKE and PW_LAST_WAKE: state 1 DOZE, 2 REST. -/
def Hub.tellWake (h : Hub) (code from_ : Nat) : Hub :=
  (h.pset P.PW_LAST_WAKE 0 code).event .powerWake [(0, 1, code), (1, 1, from_), (8, 8, h.clk.ns)]

/-- WAKE_OUT driven. -/
def Hub.setWakeOut (h : Hub) (b : Bool) : Hub :=
  if h.pw.wakeOut = b then h else (h.modPw (fun p => { p with wakeOut := b })).out (.pin "WAKE_OUT" b)

/-- RUN is reached from DOZE: islands come back, parked ports present Rp, WAKE_OUT rises, completed entries are told (R380, R383). -/
def Hub.toRun (h : Hub) : Hub :=
  let h := (List.range 12).foldl Hub.islandOn h.dozeLoss
  let h := [0, 1, 2, 3].foldl Hub.tcUnpark h
  let done := h.pw.done
  let h := (h.modPw (fun p => { p with lastExit := h.clk.ns, outAt := h.clk.up, width := h.pget P.PW_WAKE_OUT_WIDTH 0, done := [] })).toPState .run
  done.foldl (fun h t => h.endOp t .ok 0 []) (h.setWakeOut true)

/-- Every island that had been gated comes back in RUN, and the ports that had gone QUIET start anew. -/
def Hub.entryUndo (h : Hub) : Hub :=
  let h := if h.pw.prior = .run then [0, 1, 2, 3].foldl Hub.tcUnpark ((List.range 12).foldl Hub.islandOn h) else h
  [0, 1, 2].foldl (fun h p => if (h.port p).state = .quiet && h.pget P.LN_ENABLE p = 1 then h.toDetect p else h) h

/-- The stage an entry of `top` stages has reached: R382 bounds their times from above, so a free value gives it (log 69). -/
def Hub.entryReached (h : Hub) (top : Nat) : Nat :=
  let k := min top h.stageDue
  k + h.fresh.1 % (top + 1 - k)

/-- An entry is aborted (R382): the state before it comes back, with what its stages had already done undone. -/
def Hub.abortEntry (h : Hub) (code : Nat) : Hub :=
  let rest := h.pw.state = .enterRest
  let k := h.entryReached (if rest then 3 else 2)
  let h := h.fresh.2.entryStage k
  let h := (if 1 ≤ k then h.showPins else h).entryUndo
  let t := h.pw.token
  let h := ((h.modPw (fun p => { p with latched := some (code, h.clk.ns) })).bump P.PW_WAKE_ABORTS 0).toPState h.pw.prior
  (h.endOp t .wakeAbort code []).tellWake code (if rest then 2 else 1)

/-- A wake from REST: rails and the islands of DOZE come back, line time starts from 0 and ports transmit (R383, R389, R485).  The boot ROM goes on in
resume mode. -/
def Hub.restWake (h : Hub) (code : Nat) : Hub :=
  let on := [0, 1, 2, 3, 4, 10] ++ (if h.isHead then [6] else [])
  let h := on.foldl Hub.islandOn (h.out (.pin "PMIC_EN" true))
  let h := (h.modPw (fun p => { p with pmicEn := true, pmicPg := true, pmicAt := h.clk.up })).tellWake code 2
  let h := h.toPState .exiting
  let h : Hub := { h with mg := { h.mg with startAt := h.clk.up }, clk := { h.clk with ns := 0, frac := 0 } }
  [0, 1, 2].foldl (fun h p => if (h.port p).state = .quiet && h.pget P.LN_ENABLE p = 1 then h.toDetect p else h) h

/-- A wake source (R382, R383): an entry into DOZE whose last switch has opened is complete, and a normal exit follows.  Code 7 comes PW_WAKE_TIMER after entry, as the entry took it (R470), and never while that is 0. -/
def Hub.wakeEvent (h : Hub) (code : Nat) : Hub :=
  let timer := h.pw.timer
  if code = 7 && timer = 0 then h
  else
    let h := if code = 7 && h.pw.state ≠ .run then h.until (h.pw.entryAt + ms timer) else h
    match h.pw.state with
    | .enterDoze =>
      if h.wakeCounts code false then
        (if 2 ≤ h.entryReached 2 then (((h.fresh.2).dozeDone).tellWake code 1).toRun else h.abortEntry code)
      else h
    | .enterRest => if h.wakeCounts code true then h.abortEntry code else h
    | .doze => if h.wakeCounts code false then (h.tellWake code 1).toRun else h
    | .rest => if h.wakeCounts code true then h.restWake code else h
    | _ => h

/-- WAKE_OUT falls after PW_WAKE_OUT_WIDTH. -/
def Hub.wakeOutEnd (h : Hub) : Hub :=
  if h.pw.wakeOut then (h.until (h.pw.outAt + us h.pw.width)).setWakeOut false else h

/-! ## PWR_ENTER and PWR_STATUS (R380, R381) -/

/-- PWR_ENTER. -/
def Hub.pwrEnter (h : Hub) (r : Request) : Hub × Reply :=
  let target := r.arg 0 1
  let fl := r.arg 1 1
  let s := h.pw.state
  if !r.has 4 || 2 < target || 1 < fl || r.arg 2 2 ≠ 0 then (h, .err .badParam)
  else if target = 0 then
    if s = .enterDoze then (h.wakeEvent 9, .ok [])
    else if s = .enterRest || s = .exiting then (h, .err .busy)
    else if s = .doze then (h.disarmFold.wakeEvent 9, .ok [])
    else (h.disarmFold, .ok [])
  else if s.entering || s = .exiting then (h, .err .busy)
  else if !h.ctl.txns.isEmpty then (h, .err .conflict)
  else if target = 1 then if s = .doze then (h, .ok []) else h.startEntry r.mb r.cmd 1
  else if h.isTail then (h.disarmFold).startEntry r.mb r.cmd 2
  else if fl = 0 then (h, .err .denied)
  else if h.pw.armed.isSome then (h, .err .busy)
  else match h.startOp r.mb r.cmd (.power 2) with
    | (h, .long t) => (h.modPw (fun p => { p with armed := some t }), .long t)
    | x => x

/-- PWR_STATUS. -/
def Hub.pwrStatus (h : Hub) (r : Request) : Hub × Reply :=
  if !r.has 0 then (h, .err .badParam)
  else (h, .ok (leBytes 2 h.pw.word ++ leBytes 1 (h.pget P.PW_LAST_WAKE 0) ++ [0#8] ++ leBytes 4 (h.pget P.PW_RESET_CAUSE 0) ++ leBytes 8 h.pw.lastExit))

/-! ## Fold and Unfold (R384, R385) -/

/-- The nodes a head can send management messages to: the peers of its valid unicast MANAGEMENT entries that send, with the entry. -/
def Hub.managed (h : Hub) : List (Nat × Nat) :=
  (h.tuns.filter (fun e => e.2.type == tManagement && e.2.dir.sends && !e.2.mcast)).map (fun e => (e.2.peer, e.1))

/-- The highest such node not above n and not below `first`, with its entry. -/
def Hub.foldNext (h : Hub) (first n : Nat) : Option (Nat × Nat) :=
  (h.managed.filter (fun e => first ≤ e.1 && e.1 ≤ n)).foldl
    (fun (b : Option (Nat × Nat)) e => match b with | some x => if x.1 < e.1 then some e else some x | none => some e) none

/-- LINE_FOLD. -/
def Hub.lineFold (h : Hub) (r : Request) : Hub × Reply :=
  let first := r.arg 0 2
  if !h.isHead then (h, .err .denied)
  else if !r.has 4 || r.arg 2 2 ≠ 0 then (h, .err .badParam)
  else if first = 0 || 4094 < first then (h, .err .range)
  else if h.pw.fold.isSome then (h, .err .busy)
  else match h.startOp r.mb r.cmd .fold with
    | (h, .long t) =>
      (h.modPw (fun p => { p with fold := some ⟨t, first, 4094, false, h.clk.up, h.clk.up + 1000 * ms (h.pget P.PW_FOLD_TIMEOUT 0)⟩ }), .long t)
    | x => x

/-- The PWR_ENTER REST with FOLD that a head sends a node. -/
def foldMessage (seq : Nat) : List Byte := message 0x0801 seq 0 0 0 [2#8, 1#8, 0#8, 0#8]

/-- PW_FOLD_PACE: the next node below is sent its PWR_ENTER. -/
def Hub.foldPace (h : Hub) : Hub :=
  match h.pw.fold with
  | none => h
  | some f =>
    let h := h.until f.paceAt
    match h.foldNext f.first f.next with
    | none => h
    | some (n, e) =>
      (h.modPw (fun p => { p with fold := some { f with next := n - 1, sent := true, paceAt := h.clk.up + us (h.pget P.PW_FOLD_PACE 0) } })).frameSend
        8 e false (foldMessage (n % 65536)) 20

/-- A LINE_FOLD ends. -/
def Hub.foldEnd (h : Hub) (s : Status) (detail : Nat) : Hub :=
  match h.pw.fold with
  | some f => (h.modPw (fun p => { p with fold := none })).endOp f.token s detail []
  | none => h

/-- PW_FOLD_TIMEOUT passes. -/
def Hub.foldTimeout (h : Hub) : Hub :=
  match h.pw.fold with
  | some f => (h.until f.endAt).foldEnd .timeout 0
  | none => h

/-- A message of another hub for a head's LINE_FOLD: a response that refuses PWR_ENTER, or TAIL_CHANGE of the node above FIRST_NODE. -/
def Hub.foldHears (h : Hub) (node : Nat) (bs : List Byte) : Hub :=
  match h.pw.fold with
  | none => h
  | some f =>
    let fl := le bs 6 2
    if bit fl 0 && le bs 0 2 = 0x0801 then
      let st := le bs 12 4 % 65536
      if st = Status.ok.code || st = Status.inProgress.code then h else h.foldEnd .aborted node
    else if bit fl 1 && le bs 16 2 = Ev.tailChange.code && byteAt bs 32 = 1 && node + 1 = f.first then h.foldEnd .ok 0
    else h

/-- For FIRST_NODE 1 the head's own LN_TAIL ends the fold. -/
def Hub.foldSettle (h : Hub) : Hub :=
  match h.pw.fold with
  | some f => if f.first = 1 && h.isTail then h.foldEnd .ok 0 else h
  | none => h

/-- LINE_UNFOLD: the silent DETECT of the head's L1 ends. -/
def Hub.lineUnfold (h : Hub) (r : Request) : Hub × Reply :=
  if !h.isHead then (h, .err .denied)
  else if !r.has 0 then (h, .err .badParam)
  else if h.pw.unfold.isSome then (h, .err .busy)
  else match h.startOp r.mb r.cmd .unfold with
    | (h, .long t) =>
      let h := if (h.port 1).state = .detect && (h.port 1).train.silent then h.toDetect 1 else h
      (h.modPw (fun p => { p with unfold := some t }), .long t)
    | x => x

/-- LINE_UNFOLD ends once the head's L1 is UP. -/
def Hub.unfoldSettle (h : Hub) : Hub :=
  match h.pw.unfold with
  | some t => if h.portUp 1 then (h.modPw (fun p => { p with unfold := none })).endOp t .ok 0 [] else h
  | none => h

end Sys2Proof.Machine
end

