-- ==== Sys2Proof/Machine/Reset.lean ====
section
/-!
DEFINITION. Resets (R388), what each keeps (R389), thermal shutdown (R386), and the power-up, power-good and power-fail sequences (R483 to
R486).
-/
namespace Sys2Proof.Machine

/-- The reset causes of R388. -/
def causePowerOn : Nat := 1
def causeInputs : Nat := 2
def causeLong : Nat := 3
def causePulse : Nat := 4
def causeSystem : Nat := 5
def causeLine : Nat := 6
def causeWatchdog : Nat := 7
def causeThermal : Nat := 8
def causeTamper : Nat := 9

/-- The reset cause is recorded by I-AON and told when Horest is ready (R388, R390). -/
def Hub.noteCause (h : Hub) (cause : Nat) : Hub :=
  ((h.pset P.PW_RESET_CAUSE 0 cause).lintRec Ev.resetCause.code Ev.resetCause.severity (fields 16 [(0, 4, cause), (8, 8, h.clk.ns)]) true).modPw
    (fun p => { p with tellCause := true })

/-- The ports after a reset: a stored code choice stays (R89). -/
def Hub.freshPorts (h : Hub) : List Port :=
  h.ports.map (fun q => { Port.reset with train := { Port.reset.train with stored := q.train.stored } })

/-- Every island powered, clocked and out of reset, its readings kept. -/
def Hub.freshIslands (h : Hub) : List Island :=
  h.isl.map (fun s => { s with powered := true, clock := true, inReset := false, gradient := false, skew := false })

/-! ## Alternating copies in flash (R432) -/

/-- A copy's CRC-32C holds over its sequence number and contents. -/
def FlashCopy.good (enc : α → List Byte) (c : FlashCopy α) : Bool := c.seq != 0 && c.crc == crc32c (leBytes 4 c.seq ++ enc c.data)

/-- The copy that governs: the one with the higher sequence number and a correct CRC. -/
def flashGoverns (enc : α → List Byte) (l : List (FlashCopy α)) : Option Nat :=
  match l with
  | [a, b] => if a.good enc && !(b.good enc && a.seq < b.seq) then some 0 else if b.good enc then some 1 else none
  | _ => none

/-- The governing copy. -/
def flashCopy (enc : α → List Byte) (l : List (FlashCopy α)) : Option (FlashCopy α) := (flashGoverns enc l).bind (l[·]?)

/-- A write goes to the other copy, with the next sequence number. -/
def flashWrite (enc : α → List Byte) (l : List (FlashCopy α)) (v : α) : List (FlashCopy α) :=
  let seq := ((flashCopy enc l).map (·.seq)).getD 0 + 1
  modAt l (if flashGoverns enc l = some 0 then 1 else 0) (fun _ => ⟨seq, crc32c (leBytes 4 seq ++ enc v), v⟩)

/-- The bytes of the configuration store that its CRC covers: PID and instance, value. -/
def storeBytes (m : Map Value) : List Byte := m.flatMap (fun e => leBytes 4 e.1 ++ leBytes 8 e.2.toNat)

/-- The values that the configuration store holds. -/
def Hub.storeData (h : Hub) : Map Value := ((flashCopy storeBytes h.nvStore).map (·.data)).getD []

/-- The bytes of the boot records that their CRC covers. -/
def bootBytes (l : List (Nat × Nat × Nat)) : List Byte := l.flatMap (fun r => [byte r.1, byte r.2.1] ++ leBytes 8 r.2.2)

/-! ## What a release finds -/

/-- The management subsystem at a release: images and boot records stay. -/
def Hub.freshMgmt (h : Hub) : Mgmt :=
  { Mgmt.reset with slots := h.mg.slots, records := h.mg.records, mImage := h.mg.mImage, running := h.mg.running, startAt := h.clk.up, dirty := h.mg.dirty, storedAt := h.mg.storedAt,
                    sensors := h.mg.sensors }

/-- The bridge at a release: BR_BAR2_SIZE and BR_PCIE_SUBSYS are read (R251); PE_PERST_N is as it was until the release drives it. -/
def Hub.freshBridge (h : Hub) : Bridge :=
  { Bridge.reset with bar2 := h.pget P.BR_BAR2_SIZE 0, subsys := h.pget P.BR_PCIE_SUBSYS 0, perstHi := h.br.perstHi }

/-- What a warm reset takes: every island but I-AON (R388, R389). -/
def Hub.warmLoss (h : Hub) : Hub :=
  let h := (((h.setPps false).unlockEnd 1).retain letterW (fun _ _ => true)).deWarm
  let h := [1, 2, 3, 4].foldl (fun h c => if (h.fuse c).state.gate then h.fuseGateOff c .off else h) h
  let h := [0, 1, 2, 3].foldl (fun h n =>
    if (h.tcp n).state = .attachedSnk then h
    else (h.modTc n (fun t => { TcPort.reset with cc1 := t.cc1, cc2 := t.cc2, conv := t.conv })).setBase (n + 1) 3300) h
  let h := if (h.island 5).powered then h else h.gpioModes
  let pw := { Power.reset with lastExit := h.pw.lastExit, wakeOut := h.pw.wakeOut, outAt := h.pw.outAt, width := h.pw.width }
  let ky := { h.ky with measured := false, debugged := false, noSession := false, hold := false, unlock := none, duration := 0 }
  { h with tables := [], ctl := { Control.reset with nextTxn := h.ctl.nextTxn }, ports := h.freshPorts, sw := Switch.reset, tn := Tunnel.reset, al := Allot.reset,
           lint := { h.lint with sram := [], fresh := true }, isl := h.freshIslands, seams := Hub.reset.seams, ct := { Counters.reset with enabled := h.ct.enabled },
           svcHost := false, ag := h.ag.afterLoss,
           br := h.freshBridge, eth := List.replicate 4 EthPort.reset, usb := Usb.reset,
           ds := h.ds.map (fun x => { Head.reset with route := x.route }), pw := pw, ky := ky, inbox := [] }

/-- PE_PERST_N that a root port drove high goes low with the reset (R253). -/
def Hub.perstLow (h : Hub) : Hub :=
  if h.br.perstHi then (h.modBr (fun b => { b with perstHi := false })).out (.pin "PE_PERST_N" false) else h

/-- A release: straps are sampled (R20), line time starts from 0 (R34: LTIME_NS_LO is 0 at reset; R216), I-L0 is powered in NODE role
only (R362), and the boot ROM is about to start. -/
def Hub.release (h : Hub) (straps : Nat) : Hub :=
  let h := h.perstLow
  let h : Hub := { h with straps := straps % 128, clk := { h.clk with ns := 0, frac := 0 } }
  let h := h.modIsland 0 (fun s => { s with powered := !h.isHead, clock := !h.isHead })
  ({ h with rl := h.railFresh, mg := h.freshMgmt } : Hub).showPins

/-- A warm reset with its cause; I-AON, spared, sees the other islands go and come back (R371, R372). -/
def Hub.warmReset (h : Hub) (cause straps : Nat) : Hub :=
  let seen := h.aonSees
  (({ seen.warmLoss with seams := seen.aonSeams } : Hub).aonBack.noteCause cause).release straps

/-- A warm reset is due (R47, R420, R425, R444) or starts from outside: a due one keeps its own cause. -/
def Hub.warmStart (h : Hub) (cause straps : Nat) : Hub := h.warmReset (h.pw.resetDue.getD cause) straps

/-- Parameters in fuses or the secure NV store, and the enabled set's generation, which stays with the set: no configuration store holds
them. -/
def fusePids : List Nat :=
  [P.KY_LIFE_CYCLE, P.KY_CRYPTO_EPOCH, P.KY_NV_WRITES, P.KY_TAMPER_POLICY, P.MG_ROLLBACK_FLOOR, P.CT_LIST_GEN]

/-- Parameters after a cold reset: the configuration store's, and those in fuses and the NV store (R388, R432). -/
def Hub.coldParams (h : Hub) : Map Value :=
  (h.params.filter (fun e => fusePids.contains (e.1 / 65536))).foldl (fun m e => minsert m e.1 e.2)
    (h.storeData.filter (fun e => !fusePids.contains (e.1 / 65536)))

/-- SEQ goes on from the newest record of the flash mirror (R447). -/
def Hub.coldSeq (h : Hub) : Nat := match h.lint.flash with | r :: _ => (r.seq + 1) % 2 ^ 32 | [] => 0

/-- Until the configuration store is read no pin drives. -/
def Hub.floatPins (h : Hub) : Hub :=
  (List.range 32).foldl (fun h n => if (h.pin n).shown = none then h else (h.modPin n (fun p => { p with shown := none })).out (.gpio n none)) h

/-- A cold reset (R388): fuses, the secure NV store and flash stay; what the hub's pins see stays outside. -/
def Hub.coldReset (h : Hub) (cause straps : Nat) : Hub :=
  let h := [0, 1, 2, 3, 4].foldl (fun h c => h.out (.power "FU_GATE" [c, 0])) ((h.unlockEnd 1).setPps false)
  let pw := { Power.reset with dramEn := h.pw.dramEn, pmicEn := h.pw.pmicEn, pmicPg := h.pw.pmicPg, pmicAt := 0 }
  let new : Hub :=
    { Hub.reset with params := h.coldParams, nvStore := h.nvStore, hostMem := h.hostMem, ports := h.ports.map (fun _ => Port.reset),
                     lint := { Hub.reset.lint with seq := h.coldSeq, flash := h.lint.flash, queue := [] },
                     ct := { Counters.reset with enabled := h.ct.enabled },
                     fu := modAt Hub.reset.fu 0 (fun f => { f with vin := (h.fuse 0).vin }),
                     tc := h.tc.map (fun t => { TcPort.reset with cc1 := t.cc1, cc2 := t.cc2 }),
                     de := { Decision.reset with pins := freshPins h.de.pins },
                     ky := { Keys.reset with slots := h.ky.slots, rows := h.ky.rows, auth := h.ky.auth, secretOff := h.ky.secretOff,
                                             debugCtr := h.ky.debugCtr, erase := h.ky.erase, alarms := h.ky.alarms },
                     mg := { Mgmt.reset with slots := h.mg.slots, records := h.mg.records, running := h.mg.running }, su := h.su, pw := pw, outbox := h.outbox,
                     free := h.free }
  let new : Hub := { new with br := { new.freshBridge with perstHi := h.br.perstHi } }
  (new.floatPins.gpioModes.noteCause cause).release straps

/-- A cold reset that ends with I-AON's start: a port at which a source is attached takes the Sink role (R313, R315). -/
def Hub.coldStart (h : Hub) (cause straps : Nat) : Hub := [0, 1, 2, 3].foldl Hub.tcAonStart (h.coldReset cause straps)

/-! ## RESET_N (R388) -/

/-- RESET_N low for a number of nanoseconds and released: 0.9 to 1 µs and 9 to 10 µs give either neighbour. -/
def Hub.resetPulse (h : Hub) (width : Nat) : Hub :=
  if width < 900 then h
  else if width < 1000 then (if h.fresh.1 % 2 = 0 then h.fresh.2 else h.fresh.2.warmReset causePulse h.straps)
  else if width ≤ 9000 then h.warmReset causePulse h.straps
  else if width < 10000 then
    (if h.fresh.1 % 2 = 0 then h.fresh.2.warmReset causePulse h.straps else h.fresh.2.coldStart causeLong h.straps)
  else h.coldStart causeLong h.straps

/-! ## Thermal shutdown (R386) -/

/-- The core rails are off: Alt Modes end (R325), every port stands still, Horest stops, every island but I-AON is dark and only pins with HOLD keep
their level (R387). -/
def Hub.coreOff (h : Hub) : Hub :=
  let h := [0, 1, 2].foldl Hub.portStop ([0, 1, 2, 3].foldl (fun h n => h.altExit n false) h)
  let h : Hub := { h with mg := { h.mg with express := false, ready := false, full := false, loaded := false, wdtArmed := false } }
  ([0, 1, 2, 3, 4, 5, 6, 7, 8, 9, 10].foldl (fun h i => h.modIsland i (fun s => { s with powered := false, clock := false })) h.aonSees).showPins

/-- A sensor reads 155 °C or more: rails and gates off within 10 µs. -/
def Hub.thermalShutdown (h : Hub) (sensor : Nat) (reading : Int) : Hub :=
  if reading < 155 || h.pw.state = .thermalOff then h
  else
    let args := fields 16 [(0, 1, sensor), (1, 2, ofSigned 16 reading)]
    let h := (h.bump P.PW_TSD_EVENTS 0).lintRec Ev.thermalShutdown.code Ev.thermalShutdown.severity args true
    let h := (h.deliver .thermalShutdown Ev.thermalShutdown.severity 0 args).out (.pin "PMIC_EN" false)
    let h := [1, 2, 3, 4].foldl (fun h c => if (h.fuse c).state.gate then h.fuseGateOff c .off else h) h
    h.coreOff.modPw (fun p => { p with state := .thermalOff, pmicEn := false, pmicPg := false, coolAt := none })

/-- The I-AON sensor has stayed below 140 °C for 1 s. -/
def Hub.thermalRestart (h : Hub) : Hub :=
  match h.pw.state, h.pw.coolAt with
  | .thermalOff, some t => ((h.until (t + ms 1000)).out (.pin "PMIC_EN" true)).warmReset causeThermal h.straps
  | _, _ => h

/-! ## Power-up, power-good and power-fail (R483 to R486) -/

/-- The two inputs at power-up, judged with the default thresholds (R345, R483). -/
def goodAtStart (mv : Nat) : Bool := 8900 ≤ mv && mv ≤ 16500

/-- I-AON leaves power-on reset with a good input: DRAM_EN at 2 ms, PMIC_EN at 8 ms, release at 11 ms.  An input that comes back while I-AON
still runs after a power-fail gives cause 2, and both enables stay low for 20 ms first (R486). -/
def Hub.powerUp (h : Hub) (main back straps : Nat) : Hub :=
  if !goodAtStart main && !goodAtStart back then h
  else
    let again := h.pw.state = .off && h.pget P.PW_RESET_CAUSE 0 = causeInputs
    let h := h.coldReset (if again then causeInputs else causePowerOn) straps
    let su := { Supply.reset with inUse := b2n (!goodAtStart main), mainMv := main, backMv := back, mainOk := goodAtStart main,
                                  backOk := goodAtStart back }
    let h : Hub := { h with su := su }
    let h := if again then h.advance (ms 20) else h
    let h := (((h.out (.power "SUPPLY" [su.inUse])).advance (ms 2)).out (.pin "DRAM_EN" true)).advance (ms 6)
    let h := ((h.out (.pin "PMIC_EN" true)).modPw (fun p => { p with dramEn := true, pmicEn := true, pmicAt := h.clk.up })).advance (ms 3)
    let h := (h.modPw (fun p => { p with pmicPg := true })).release straps
    [0, 1, 2, 3].foldl Hub.tcAonStart h

/-- The Lint code of a power-good that does not come (log 23). -/
def lintNoPg : Nat := 0x1080

/-- PMIC_PG is not high 100 ms after PMIC_EN: enables low, a record, and the sequence anew after 1 s. -/
def Hub.pgTimeout (h : Hub) : Hub :=
  if h.pw.pmicPg then h
  else
    let h := ((h.until (h.pw.pmicAt + ms 100)).out (.pin "PMIC_EN" false)).out (.pin "DRAM_EN" false)
    let h := (h.lintRec lintNoPg 3 [] true).advance (ms 1000)
    let h := (h.out (.pin "DRAM_EN" true)).advance (ms 6)
    (h.out (.pin "PMIC_EN" true)).modPw (fun p => { p with dramEn := true, pmicEn := true, pmicAt := h.clk.up })

/-- PMIC_PG falls for 10 µs while PMIC_EN is high: an alarm of source 2 with RESET, PMIC_EN low for 20 ms, release with cause 9. -/
def Hub.pgFall (h : Hub) : Hub :=
  if !h.pw.pmicEn || !h.pw.pmicPg then h
  else
    let h := ((h.tamperAlarm 2 true).tamperRinsed).out (.pin "PMIC_EN" false)
    let h := ((h.advance (ms 20)).out (.pin "PMIC_EN" true)).advance (ms 1)
    h.warmReset causeTamper h.straps

/-- VCOM below 7.0 V with no good input, or below 6.0 V: a cold reset and shutdown. -/
def Hub.powerFail (h : Hub) (mv : Nat) : Hub :=
  if (mv < 7000 && !h.su.mainOk && !h.su.backOk) || mv < 6000 then
    let h := h.coldReset (if mv < 6000 then causePowerOn else causeInputs) h.straps
    let h := (((h.out (.power "FET_OFF" [0])).out (.power "FET_OFF" [1])).out (.pin "PMIC_EN" false)).out (.pin "DRAM_EN" false)
    h.coreOff.modPw (fun p => { p with state := .off, dramEn := false, pmicEn := false, pmicPg := false })
  else h

end Sys2Proof.Machine
end

