-- ==== Sys2Proof/Machine/Boot.lean ====
section
/-!
DEFINITION. Images and boot (chapter 19): boot records and the choice of an image (R433 to R437), start-up and resume (R438, R439), the
configuration store (R432), staging and activation (R440 to R445), the watchdog (R446).
-/
namespace Sys2Proof.Machine

/-- The management subsystem changed. -/
def Hub.modMg (h : Hub) (f : Mgmt → Mgmt) : Hub := { h with mg := f h.mg }

/-- Image slot s: 0 A, 1 B, 2 RECOVERY. -/
def Hub.fw (h : Hub) (s : Nat) : FwSlot := nth h.mg.slots s FwSlot.reset

/-- What the boot records hold of the slots (R434). -/
def bootRecords (l : List FwSlot) : List (Nat × Nat × Nat) := l.map (fun x => (x.state, x.tries, x.time))

/-- Slot s changed; the boot records are written where the change is one of theirs (R432, R434). -/
def Hub.modFw (h : Hub) (s : Nat) (f : FwSlot → FwSlot) : Hub :=
  h.modMg (fun m =>
    let l := modAt m.slots s f
    { m with slots := l, records := if bootRecords l = bootRecords m.slots then m.records else flashWrite bootBytes m.records (bootRecords l) })

/-- The boot ROM reads the governing boot records (R432, R438). -/
def Hub.bootLoad (h : Hub) : Hub :=
  h.modMg (fun m =>
    let rs := ((flashCopy bootBytes m.records).map (·.data)).getD (List.replicate 3 (0, 0, 0))
    { m with slots := (m.slots.zip rs).map (fun e => { e.1 with state := e.2.1, tries := e.2.2.1, time := e.2.2.2 }) })

/-- Fields of an image's envelope and header (R415, R440). -/
def imgCounter (head : List Byte) : Nat := le head 32 8
def imgLength (head : List Byte) : Nat := le head 136 4
def imgVersion (head : List Byte) : Nat := le head 140 4
def imgHash (head : List Byte) : List Byte := slice head 152 48

/-- The rollback floor. -/
def Hub.floorOf (h : Hub) : Nat := h.pget P.MG_ROLLBACK_FLOOR 0

/-- DEV_ID and DEV_REV (R34). -/
def devId : Nat := 0xA7DE9240
def devRev : Nat := 0x00004201

/-! ## The boot ROM (R433 to R437) -/

/-- The checks of R436: the image verified when it was staged, and its COUNTER is at least the rollback floor. -/
def Hub.fwPasses (h : Hub) (s : Nat) : Bool := (h.fw s).good && h.floorOf ≤ imgCounter (h.fw s).head

/-- A boot attempt from a slot (R434, R436): whether it boots. -/
def Hub.bootTry (h : Hub) (s : Nat) : Hub × Bool :=
  let x := h.fw s
  let h := h.modMg (fun m => { m with running := s })
  if x.state = 4 && x.tries = 0 then
    ((h.modFw s (fun x => { x with state := 6 })).modMg (fun m => { m with fallback := true, tellFall := some (s, 0) }), false)
  else if !h.fwPasses s then (h.modFw s (fun x => { x with state := 6 }), false)
  else if x.state = 3 then (h.modFw s (fun x => { x with state := 4, tries := h.pget P.MG_FW_TRIAL_TRIES 0 - 1, time := 0 }), true)
  else if x.state = 4 then (h.modFw s (fun x => { x with tries := x.tries - 1 }), true)
  else (h, true)

/-- Slot A or B in a state, the lower one first. -/
def Hub.slotIn (h : Hub) (st : Nat) : Option Nat := [0, 1].find? (fun s => (h.fw s).state == st)

/-- The candidates are tried in turn. -/
def Hub.bootFirst (h : Hub) : List (Hub → Option Nat) → Hub × Bool
  | [] => (h, false)
  | f :: fs =>
    match f h with
    | none => h.bootFirst fs
    | some s =>
      let r := h.bootTry s
      if r.2 then r else r.1.bootFirst fs

/-- The choice of an image by BOOT_SRC (R433, R435). -/
def Hub.chooseImage (h : Hub) : Hub × Bool :=
  let src := bits h.straps 5 2
  if src = 0 then
    h.bootFirst [fun h => (h.slotIn 3).orElse (fun _ => h.slotIn 4), fun h => (h.slotIn 5).orElse (fun _ => h.slotIn 2), fun _ => some 2]
  else h.bootTry (src - 1)

/-- An erase-intent record found at start is completed, taking up to 25 ms (R421, R438); a RESET that its policy asked for is still due at a wake (R425). -/
def Hub.finishErase (h : Hub) : Hub :=
  if h.ky.erase.isEmpty then h
  else
    let reset := (h.ky.rinse.map (·.2)).getD false && h.pw.state == .exiting
    let h := (h.within (h.clk.up + ms 25)).rinseIntent.modKy (fun y => { y with rinse := none })
    if reset then h.modPw (fun p => { p with resetDue := some causeTamper }) else h

/-- The latch is read (R427): the policies of its sources are applied without their RESET, and the hub is in tamper-hold. -/
def Hub.readLatch (h : Hub) : Hub :=
  let latch := h.pget P.KY_TAMPER_LATCH 0
  let h := ((List.range 6).filter (bit latch)).foldl (fun h s => (h.applyPolicy s (h.tamperPolicy s).1 false).finishErase) h
  h.modKy (fun y => { y with hold := latch % 64 != 0 })

/-- The Lint code of a strap fault (R22, log 23). -/
def lintStrap : Nat := 0x0080

/-- The configuration store is applied: ports are enabled with their stored values, the ID of R208 is taken, CC pins present Rp where a
Type-C port is enabled (R438, R483), F0 follows FU_ENABLE. -/
def Hub.applyStore (h : Hub) : Hub :=
  let h := [0, 1, 2].foldl (fun h p => if !h.portAbsent p && h.pget P.LN_ENABLE p = 1 && (h.port p).state = .disabled then h.toDetect p else h) h
  let h := [0, 1, 2, 3].foldl (fun h n => if h.pget P.TC_ENABLE n = 1 then h.tcEnable n 1 else h) h
  let h := (h.rejoin.setPerst true).ethStart
  let h := if h.strapFault then h.lintRec lintStrap 3 [] true else h
  h.fuseKick

/-- The Lint code of an image copy that a resume finds changed or absent (R439, log 23). -/
def lintCopy : Nat := 0x0F80

/-- An image is checked: the MEASURED root is derived outside tamper-hold (R410, R427), and express forwarding is up (R438). -/
def Hub.imageReady (h : Hub) : Hub :=
  (h.modMg (fun m => { m with loaded := true, express := true })).modKy (fun y => { y with measured := !y.hold && !y.secretOff && !y.debugged })

/-- The image of the running slot is copied to the firmware data area and measured (R436, R438). -/
def Hub.copyImage (h : Hub) : Hub :=
  let x := h.fw h.mg.running
  ({ h with dram := writeMem h.dram fwArea x.image } : Hub).modMg (fun m => { m with mImage := imgHash x.head })

/-- The boot ROM from its reading of the latch on: NV store, latch, configuration store, boot records, image, or ROM-hold (R437, R438). -/
def Hub.bootChoose (h : Hub) : Hub :=
  let r := h.nvLoad.finishErase.forbidRinse.readLatch.applyStore.bootLoad.chooseImage
  if r.2 then (r.1.modMg (fun m => { m with tellFall := m.tellFall.map (fun f => (f.1, m.running)) })).copyImage.imageReady.showPins
  else (r.1.modMg (fun m => { m with romHold := true, express := true })).showPins

/-- The image copy has the hash kept in I-AON (R439): a copy equal to the image that was measured has it. -/
def Hub.copyGood (h : Hub) : Bool :=
  let x := h.fw h.mg.running
  let copy := readMem h.dram fwArea x.image.length
  (x.good && copy == x.image && imgHash x.head == h.mg.mImage) || sha384 copy == h.mg.mImage

/-- A resume without a good copy is a full start, with a Lint record (R439); what a start finds empty is empty (R438, log 176). -/
def Hub.fullStart (h : Hub) : Hub :=
  let h := (h.lintRec lintCopy 3 [] true).toRun
  ({ h with tables := [], tn := Tunnel.reset, al := Allot.reset, ag := h.ag.afterLoss, mg := { h.mg with startAt := h.clk.up } } : Hub).bootChoose

/-- The boot ROM (R438); in resume mode it reads the latch and checks the image copy (R439). -/
def Hub.bootRom (h : Hub) : Hub :=
  if h.mg.loaded || h.mg.romHold then h
  else match h.pw.state with
    | .run => (h.within (h.mg.startAt + ms 1)).bootChoose
    | .exiting =>
      if h.copyGood then h.nvLoad.finishErase.forbidRinse.readLatch.rejoin.imageReady else h.fullStart
    | _ => h

/-! ## Horest starts (R438, R439) -/

/-- Records of the I-AON copy that the SRAM copy lacks are copied back (R448). -/
def Hub.lintBack (h : Hub) : Hub :=
  let l := h.lint
  let more := l.aon.takeWhile (fun r => match l.sram with | x :: _ => r.seq != x.seq | [] => true)
  { h with lint := { l with sram := keep 4096 (more ++ l.sram) } }

/-- RESET_CAUSE is delivered with the line time of the AON record (R388, R390). -/
def Hub.tellReset (h : Hub) : Hub :=
  if !h.pw.tellCause then h
  else
    let args := match h.lint.aon.find? (fun r => r.code == Ev.resetCause.code) with
      | some r => r.args
      | none => fields 16 [(0, 4, h.pget P.PW_RESET_CAUSE 0), (8, 8, 0)]
    (h.modPw (fun p => { p with tellCause := false })).deliver .resetCause Ev.resetCause.severity 0 args

/-- The region table and the page colours come back from their copies as one commit (R407). -/
def Hub.guardRestore (h : Hub) : Hub :=
  if h.ag.copied then
    (({ h with tables := (h.ag.copyRegions).foldl (fun t e => mset 0 t e.1 e.2) h.tables } : Hub).modGuard
      (fun g => { g with colours := g.copyColours })).guardCommit
  else h

/-- The guard stays open after a start: in RECOVERY boot, and in the manufacturing test of a BLANK hub (R400).  No rule says what makes a start of
a BLANK hub that test: it is a free value (log 140). -/
def Hub.staysOpen (h : Hub) : Bool × Hub :=
  if h.mg.running = 2 then (true, h) else if h.lc = 0 then (h.fresh.1 % 2 == 1, h.fresh.2) else (false, h)

/-- The rules come back, and then AG_LOCK is set unless the guard stays open (R400, R407). -/
def Hub.guardStart (h : Hub) : Hub :=
  if h.mg.guarded then h
  else
    let o := (h.modMg (fun m => { m with guarded := true })).guardRestore.staysOpen
    if o.1 then o.2 else o.2.guardLock

/-- The rules come back 120 ms after the release at the latest (R438). -/
def Hub.guardDue (h : Hub) : Hub := if h.mg.ready && h.pw.state = .run && h.mg.startAt + ms 120 ≤ h.clk.up then h.guardStart else h

/-- Horest is ready: the HOREST bit, what is to be told, TAMPER_HOLD. -/
def Hub.horestReady (h : Hub) : Hub :=
  let h := ((h.modMg (fun m => { m with ready := true, wdtArmed := true })).raise (2 ^ intHorest)).lintBack.tellReset
  let h := match h.mg.tellFall with
    | some f => (h.modMg (fun m => { m with tellFall := none })).event .fwFallback [(0, 1, f.1), (1, 1, f.2)]
    | none => h
  (if h.ky.hold then h.event .tamperHold [(0, 4, h.pget P.KY_TAMPER_LATCH 0)] else h).clearReports

/-- A REST exit reaches DOZE, and goes on to RUN with PW_REST_EXIT 1 (R383, R439). -/
def Hub.resumeDone (h : Hub) : Hub :=
  let h := (((h.horestReady).guardStart).modMg (fun m => { m with full := true })).toPState .doze
  let h := h.modIsland 10 (fun s => { s with clock := false })
  if h.pget P.PW_REST_EXIT 0 = 1 then h.toRun else h

/-- On a wake a RESET that is due comes before Horest serves anything (R428). -/
def Hub.resumeServe (h : Hub) : Hub :=
  match h.pw.resetDue with
  | some c => h.warmReset c h.straps
  | none => h.resumeDone

/-- Horest starts from the checked image. -/
def Hub.horestStart (h : Hub) : Hub :=
  if !h.mg.loaded || h.mg.ready then h
  else match h.pw.state with
    | .run => ((h.within (h.mg.startAt + ms 50)).nextEpoch).horestReady
    | .exiting => (h.within (h.mg.startAt + ms 18)).resumeServe
    | _ => h

/-- FLAGS of FW_STATUS. -/
def Hub.fwFlags (h : Hub) : Nat := b2n h.mg.fallback + 2 * b2n h.mg.romHold + 4 * b2n h.mg.staging.isSome

/-- FULL_SERVICE: guard locked, active bank checked again, BOOT delivered (R438). -/
def Hub.fullService (h : Hub) : Hub :=
  if !h.mg.ready || h.mg.full then h
  else
    let h := ((if h.mg.guarded then h else h.within (h.mg.startAt + ms 120)).guardStart.within (h.mg.startAt + ms 400)).deRecheck
    let h := h.modMg (fun m => { m with full := true, fullAt := h.clk.up })
    h.event .boot [(0, 1, h.mg.running), (1, 1, bits h.straps 5 2), (2, 1, h.fwFlags), (4, 4, imgVersion (h.fw h.mg.running).head),
      (8, 4, h.pget P.PW_RESET_CAUSE 0), (12, 4, (h.mg.fullAt - h.mg.startAt) / 1000)]

/-- MG_BOOT_STATE. -/
def Hub.bootState (h : Hub) : Nat :=
  let x := h.fw h.mg.running
  h.mg.running + 4 * b2n (x.state == 4) + 8 * b2n h.mg.fallback + 16 * b2n h.mg.romHold + 256 * x.tries +
    2 ^ 32 * (if h.mg.full then (h.mg.fullAt - h.mg.startAt) / 1000000 else 0)

/-! ## Watchdog and configuration store -/

/-- The watchdog reaches MG_WDT_TIMEOUT (R446): its count stands still while I-MGMT has no clock. -/
def Hub.watchdog (h : Hub) (pc : Nat) : Hub :=
  if !h.mg.wdtArmed || !(h.island 10).clock then h
  else
    let args := fields 16 [(8, 8, pc)]
    let h := (h.lintRec Ev.watchdog.code Ev.watchdog.severity args true).deliver .watchdog Ev.watchdog.severity 0 args
    (h.bump P.MG_WDT_RESETS 0).warmReset causeWatchdog h.straps

/-- The values marked N that the configuration store holds. -/
def Hub.storeValues (h : Hub) : Map Value :=
  h.params.filter (fun e => !fusePids.contains (e.1 / 65536) && (match descOf (e.1 / 65536) with | some d => bit d.kept letterN | none => false))

/-- The configuration store is written, at most once a second, on VMAIN (R432). -/
def Hub.storeWrite (h : Hub) : Hub :=
  if !h.mg.ready || !h.mg.dirty || h.onVback then h
  else
    let h := h.until (h.mg.storedAt + ms 1000)
    { h with nvStore := flashWrite storeBytes h.nvStore h.storeValues, mg := { h.mg with dirty := false, storedAt := h.clk.up } }

/-! ## Staging (R440 to R443) -/

/-- Envelope and header of a firmware package for a slot (R415, R440). -/
def fwFormat (slot : Nat) (b : List Byte) : Bool :=
  let n := imgLength b
  let step := le b 144 2
  le b 0 4 = 0x4C424D45 && le b 4 2 = 1 && le b 6 2 = 1 && le b 8 4 = n + 296 && le b 12 4 = 0 && 4096 ≤ n &&
    n ≤ (if slot = 2 then 8388608 else 12582912) && (step = 0 || step = devRev) && le b 146 2 = b2n (slot = 2) && le b 148 4 = 0

/-- FW_STAGE_BEGIN: STAGED_BYTES is 0, whatever a staging that a reset ended had left (R441). -/
def Hub.fwBegin (h : Hub) (r : Request) : Hub × Reply :=
  let s := r.arg 0 1
  let b := r.payload.drop 4
  if !r.has 204 then (h, .err .badParam)
  else if h.onVback then (h, .err .powerState)
  else if 2 < s then (h, .err .range)
  else if (s = h.mg.running && !h.mg.romHold) || (h.fw s).state = 3 || (s = 2 && (h.mg.romHold || h.lc = 2 || h.lc = 4)) || h.ky.hold then
    (h, .err .denied)
  else if h.mg.staging.isSome then (h, .err .busy)
  else if r.arg 1 3 ≠ 0 || !fwFormat s b then (h, .err .badParam)
  else if !(slice b 16 16 == deviceId || allZero (slice b 16 16)) || sha384 (pkgSigner b) != beBytes 48 Config.firmwareAuthority.toNat then
    (h, .err .authFail)
  else if imgCounter b < h.floorOf then (h, .err .replay)
  else
    let h := if (h.fw s).state = 1 then h.modFw s (fun x => { x with image := [] }) else h
    (h.modMg (fun m => { m with staging := some (s, h.clk.up), stageHead := b }), .ok [])

/-- STAGED_BYTES and header of a slot as FW_STATUS shows them: while a staging is open, its own. -/
def Hub.stagingAt (h : Hub) (s : Nat) : Bool := (h.mg.staging.map (·.1)) == some s
def Hub.staged (h : Hub) (s : Nat) : Nat := if h.stagingAt s && (h.fw s).state ≠ 1 then 0 else (h.fw s).image.length

/-- FW_STAGE_DATA: IN_PROGRESS, and its checks and its program are a step of the operation (log 174).  With no staging open it receives CONFLICT (log
24). -/
def Hub.fwData (h : Hub) (r : Request) : Hub × Reply :=
  let d := r.payload.drop 4
  if d.isEmpty || 4072 < d.length then (h, .err .badParam)
  else match h.mg.staging with
    | none => (h, .err .conflict)
    | some (s, _) =>
      if h.onVback then (h, .err .powerState)
      else (h.modMg (fun m => { m with staging := some (s, h.clk.up) })).startOp r.mb r.cmd (.fwData r.payload)

/-- The step of a FW_STAGE_DATA (R442): on VBACK it ends with POWER_STATE and the bytes before OFFSET stay; else the data are programmed into
sectors that are erased as they are reached.  The first one gives the slot its STAGING record, and its old image is gone. -/
def Hub.fwDataDone (h : Hub) (token : Nat) (p : List Byte) : Hub :=
  match h.mg.staging with
  | none => h.endOp token .aborted 0 []
  | some (s, _) =>
    let d := p.drop 4
    if h.onVback then h.endOp token .powerState 0 []
    else if le p 0 4 ≠ h.staged s || imgLength h.mg.stageHead < h.staged s + d.length then h.endOp token .range 0 []
    else
      let old := if (h.fw s).state = 1 then (h.fw s).image else []
      let x : FwSlot := ⟨1, 0, h.mg.stageHead, old ++ d, 0, false⟩
      ((h.modFw s (fun _ => x)).modMg (fun m => { m with staging := some (s, h.clk.up) })).endOp token .ok 0 []

/-- FW_STAGE_END: the slot is read back and verified as a long operation. -/
def Hub.fwEnd (h : Hub) (r : Request) : Hub × Reply :=
  if !r.has 96 then (h, .err .badParam)
  else if h.onVback then (h, .err .powerState)
  else match h.mg.staging with
    | none => (h, .err .conflict)
    | some (s, _) =>
      if h.staged s ≠ imgLength h.mg.stageHead then (h, .err .range)
      else (h.modMg (fun m => { m with staging := some (s, h.clk.up) })).startOp r.mb r.cmd (.fwEnd r.payload)

/-- FW_STAGED. -/
def Hub.tellStaged (h : Hub) (s : Nat) (ok : Bool) : Hub :=
  h.event .fwStaged [(0, 1, s), (1, 1, b2n ok), (8, 8, imgCounter (h.fw s).head)]

/-- The verification ends: STAGED, or INVALID with AUTH_FAIL (R434, R443). -/
def Hub.fwEndDone (h : Hub) (token : Nat) (signature : List Byte) : Hub :=
  match h.mg.staging with
  | none => h.endOp token .aborted 0 []
  | some (s, _) =>
    let x := h.fw s
    let ok := sha384 x.image == imgHash x.head && Config.ecdsaVerify (pkgSigner x.head) (Config.sha384 (x.head ++ x.image)) signature
    let h := (h.modFw s (fun x => { x with state := if ok then 2 else 6, good := ok })).modMg (fun m => { m with staging := none, stageHead := [] })
    (h.endOp token (if ok then .ok else .authFail) 0 []).tellStaged s ok

/-- A staging left without a command for MG_TXN_TIMEOUT is abandoned (R441). -/
def Hub.fwTimeout (h : Hub) : Hub :=
  match h.mg.staging with
  | none => h
  | some (s, t) =>
    if (h.opWhere (fun o => match o.work with | .fwEnd _ | .fwData _ => true | _ => false)).isSome then h
    else
      let h := h.until (t + ms (h.pget P.MG_TXN_TIMEOUT 0))
      (h.modFw s (fun x => { x with state := 6, good := false })).modMg (fun m => { m with staging := none, stageHead := [] })

/-! ## Activation (R444) -/

/-- The refusals of FW_ACTIVATE modes 0 to 2: a slot whose staging is open is STAGING (R434). -/
def Hub.pendRefusal (h : Hub) (s : Nat) : Option Status :=
  if h.onVback then some .powerState
  else if (h.fw s).state ≠ 2 || h.stagingAt s || [0, 1, 2].any (fun k => k != s && (h.fw k).state == 3) then some .conflict
  else none

/-- A slot becomes PENDING. -/
def Hub.pend (h : Hub) (s mode time : Nat) : Hub :=
  (h.modFw s (fun x => { x with state := 3, time := time })).event .fwActivated [(0, 1, s), (1, 1, mode), (8, 8, time)]

/-- The running TRIAL image is confirmed; another CONFIRMED slot becomes STAGED (R434). -/
def Hub.confirm (h : Hub) : Hub :=
  let s := h.mg.running
  let h := [0, 1, 2].foldl (fun h k => if k ≠ s && (h.fw k).state = 5 then h.modFw k (fun x => { x with state := 2 }) else h) h
  (h.modFw s (fun x => { x with state := 5, tries := 0 })).event .fwConfirmed [(0, 1, s), (8, 8, imgCounter (h.fw s).head)]

/-- Times of a schedule (R58). -/
def Hub.timeRefusal (h : Hub) (t : Nat) : Option Status :=
  if t < h.clk.ns + us 100 then some .lateEpoch else if h.clk.ns + 60000000000 < t then some .range else none

/-- FW_ACTIVATE. -/
def Hub.fwActivate (h : Hub) (r : Request) : Hub × Reply :=
  let s := r.arg 0 1
  let m := r.arg 1 1
  let t := r.arg 4 8
  if !r.has 12 || r.arg 2 2 ≠ 0 || 5 < m then (h, .err .badParam)
  else if 2 < s then (h, .err .range)
  else if m ≤ 2 then
    match h.pendRefusal s, (if m = 2 then h.timeRefusal t else none) with
    | some e, _ => (h, .err e)
    | none, some e => (h, .err e)
    | none, none =>
      let h := h.pend s m (if m = 2 then t else 0)
      (if m = 1 then h.modPw (fun p => { p with resetDue := some causeSystem }) else h, .ok [])
  else if m = 3 then if (h.fw h.mg.running).state = 4 then (h.confirm, .ok []) else (h, .err .conflict)
  else if m = 4 then
    if h.onVback then (h, .err .powerState)
    else if (h.fw h.mg.running).state ≠ 5 then (h, .err .denied)
    else (h.pset P.MG_ROLLBACK_FLOOR 0 (max h.floorOf (min 128 (imgCounter (h.fw h.mg.running).head))), .ok [])
  else if (h.fw s).state = 3 then (h.modFw s (fun x => { x with state := 2, time := 0 }), .ok [])
  else (h, .err .conflict)

/-- The boundary of a scheduled activation arrives; a hub in REST keeps its slot PENDING. -/
def Hub.fwTime (h : Hub) : Hub :=
  match [0, 1, 2].find? (fun s => (h.fw s).state == 3 && (h.fw s).time != 0) with
  | none => h
  | some s =>
    let t := (h.fw s).time
    let h := h.modFw s (fun x => { x with time := 0 })
    if h.pw.state = .rest || h.pw.state = .thermalOff || h.pw.state = .off then h
    else (h.untilLine (boundaryAt t)).warmReset causeSystem h.straps

/-- FULL_SERVICE held for MG_FW_CONFIRM_TIME confirms a TRIAL image (R434). -/
def Hub.confirmTimer (h : Hub) : Hub :=
  let t := h.pget P.MG_FW_CONFIRM_TIME 0
  if t = 0 || !h.mg.full || (h.fw h.mg.running).state ≠ 4 then h else (h.until (h.mg.fullAt + ms (1000 * t))).confirm

/-- A slot's record in FW_STATUS. -/
def Hub.fwRecord (h : Hub) (s : Nat) : List Byte :=
  let x := h.fw s
  let open_ := h.stagingAt s
  let head := if open_ then h.mg.stageHead else x.head
  [byte (if open_ then 1 else x.state), byte x.tries, 0#8, 0#8] ++ leBytes 4 (imgVersion head) ++ leBytes 8 (imgCounter head) ++
    leBytes 4 (h.staged s) ++ leBytes 4 (imgLength head) ++ leBytes 8 x.time

/-- FW_STATUS (R445). -/
def Hub.fwStatus (h : Hub) (r : Request) : Hub × Reply :=
  if !r.has 0 then (h, .err .badParam)
  else (h, .ok ([byte h.mg.running, byte (bits h.straps 5 2), byte h.fwFlags, 0#8] ++ leBytes 4 h.floorOf ++ leBytes 8 0 ++
    h.fwRecord 0 ++ h.fwRecord 1 ++ h.fwRecord 2))

end Sys2Proof.Machine
end

