-- ==== Sys2Proof/Machine/Mgmt.lean ====
section
/-!
DEFINITION. The Lint log (R447 to R449) and the sensors (R450, R451) of the management subsystem.
-/
namespace Sys2Proof.Machine

/-! ## Lint log -/

/-- The records of a copy: 0 SRAM, 1 I-AON, 2 DRAM, 3 flash, newest first. -/
def Lint.copy (l : Lint) (n : Nat) : List LintRec := if n = 0 then l.sram else if n = 1 then l.aon else if n = 2 then l.dram else l.flash

/-- LOG_READ: records from START_SEQ on, in SEQ order (R449). -/
def Hub.logRead (h : Hub) (r : Request) : Hub × Reply :=
  let start := r.arg 0 4
  let n := r.arg 4 2
  let from_ := r.arg 6 1
  if !r.has 8 || r.arg 7 1 ≠ 0 || 3 < from_ then (h, .err .badParam)
  else if n = 0 || 127 < n then (h, .err .range)
  else
    let rs := (((h.lint.copy from_).filter (fun x => (x.seq + 2 ^ 32 - start) % 2 ^ 32 < 2 ^ 31)).reverse).take n
    let first := (rs.head?.map (·.seq)).getD start
    let next := (rs.getLast?.map (fun x => (x.seq + 1) % 2 ^ 32)).getD start
    (h, .ok (leBytes 4 first ++ leBytes 4 next ++ leBytes 2 rs.length ++ leBytes 6 0 ++ rs.flatMap LintRec.bytes))

/-- LOG_CLEAR (R449): never the I-AON copy. -/
def Hub.logClear (h : Hub) (r : Request) : Hub × Reply :=
  let t := r.arg 0 1
  if !r.has 4 || r.arg 1 3 ≠ 0 || t &&& 0xF2 ≠ 0 then (h, .err .badParam)
  else if bit t 3 && h.onVback then (h, .err .powerState)
  else
    let l := h.lint
    ({ h with lint := { l with sram := if bit t 0 then [] else l.sram, dram := if bit t 2 then [] else l.dram,
                               flash := if bit t 3 then [] else l.flash } }, .ok [])

/-- The oldest qualifying record goes to the flash mirror, or is withheld by the rate limit and counted (R448). -/
def Hub.lintFlash (h : Hub) : Hub :=
  match h.lint.queue with
  | [] => h
  | r :: rest =>
    if h.onVback || !h.mg.ready then h
    else
      let now := h.clk.up / 1000000000
      let n := if h.lint.second = now then h.lint.written else 0
      if n < h.pget P.MG_LOG_FLASH_RATE 0 then
        { h with lint := { h.lint with queue := rest, flash := keep 622592 (r :: h.lint.flash), second := now, written := n + 1 } }
      else ({ h with lint := { h.lint with queue := rest, second := now, written := n } }).bump P.MG_LOG_FLASH_SKIP 0

/-! ## Sensors -/

/-- The sensors of a kind (R450). -/
def sensorCount (kind : Nat) : Nat := if kind = 0 then 24 else if kind = 1 then 8 else 6

/-- The neighbour of a temperature sensor in its island: the other of its pair, for the islands that have more than one. -/
def neighbour (idx : Nat) : Option Nat := if idx < 20 then some (if idx % 2 = 0 then idx + 1 else idx - 1) else none

/-- A sensor changed. -/
def Hub.modSensor (h : Hub) (kind idx : Nat) (f : Sensor → Sensor) : Hub :=
  h.modMg (fun m => { m with sensors := mmod ⟨0, false, false, 0, 0, 0⟩ m.sensors (kind * 256 + idx) f })

/-- A temperature reading in m°C that a sensor can give. -/
def plausible (v : Int) : Bool := -60000 ≤ v && v ≤ 200000

/-- A sensor does not move for 10 s while its neighbour moves by 5 °C. -/
def Hub.stuck (h : Hub) (idx : Nat) (s : Sensor) : Bool :=
  match neighbour idx with
  | some j =>
    let o := (h.sensor 0 j).value
    s.moved + ms 10000 ≤ h.clk.up && (5000 ≤ o - s.other || 5000 ≤ s.other - o)
  | none => false

/-- A reading of a temperature sensor: faulted, back in service after 1 s of plausible readings, or as before (R450). -/
def Hub.sampleTemp (h : Hub) (idx : Nat) (v : Int) : Hub :=
  let old := h.sensor 0 idx
  let now := h.clk.up
  let other := match neighbour idx with | some j => (h.sensor 0 j).value | none => 0
  let moved := !old.valid || 250 ≤ v - old.value || 250 ≤ old.value - v
  let s : Sensor :=
    if moved then { old with value := v, valid := true, moved := now, other := other } else { old with valid := true }
  let bad := !plausible v || h.stuck idx s
  let s := { s with goodAt := if bad || (old.fault && old.goodAt = 0) then (if bad then 0 else now + 1) else old.goodAt }
  let args := fun (b : Nat) => [(0, 1, 0), (1, 1, idx), (2, 1, b), (4, 4, ofSigned 32 s.value)]
  if bad && !old.fault then (h.modSensor 0 idx (fun _ => { s with fault := true })).event .sensorFault (args 1)
  else if !bad && old.fault && s.goodAt ≠ 0 && s.goodAt + ms 1000 ≤ now + 1 then
    (h.modSensor 0 idx (fun _ => { s with fault := false })).eventClear .sensorFault (args 0)
  else h.modSensor 0 idx (fun _ => s)

/-- In THERMAL_OFF I-AON watches its own sensor for 1 s below 140 °C (R386). -/
def Hub.coolWatch (h : Hub) (idx : Nat) (v : Int) : Hub :=
  if h.pw.state = .thermalOff && idx = 23 then
    h.modPw (fun p => { p with coolAt := if v < 140000 then some (p.coolAt.getD h.clk.up) else none })
  else h

/-- A tamper alarm (R426), which wakes the hub as any alarm does in DOZE or REST (R383, code 8); there I-AON runs the NV Rinse itself before the wake
proceeds, and a RESET of the policy comes before any mailbox or tunnel is served (R428). -/
def Hub.tamperSeen (h : Hub) (src : Nat) : Hub :=
  let h := h.tamperAlarm src false
  if h.pw.state = .run then h
  else
    let h := (if h.ky.rinse.isSome then (h.within (h.clk.up + ms 25)).tamperRinsed else h).wakeEvent 8
    match h.pw.state, h.pw.resetDue with
    | .run, some c => h.warmReset c h.straps
    | _, _ => h

/-- How long a source's condition must hold for an alarm, in ns (R424). -/
def Hub.tamperHolds (h : Hub) (src : Nat) : Nat :=
  if src < 2 then us (h.pget P.KY_TAMPER_DEGLITCH src) else if src = 2 then 20 else if src = 3 then us 10 else 0

/-- A source's condition has held for some ns. -/
def Hub.tamperCondition (h : Hub) (src held : Nat) : Hub := if held < h.tamperHolds src then h else h.tamperSeen src

/-- The temperatures of the sensors in service. -/
def Hub.temps (h : Hub) : List Int := (((List.range 24).map (h.sensor 0)).filter (fun s => s.valid && !s.fault)).map (·.value)

/-- Sources 4 and 5 follow the sensors (R424): an alarm at 160 °C or −55 °C, its end once every sensor is below 155 °C or above −50 °C. -/
def Hub.tempTamper (h : Hub) : Hub :=
  let follow := fun (h : Hub) (src : Nat) (bad good : Bool) =>
    if bit h.ky.alarms src then (if good then h.tamperEnd src else h) else if bad then h.tamperSeen src else h
  let t := h.temps
  let h := follow h 4 (t.any (fun x => decide (160000 ≤ x))) (t.all (fun x => decide (x < 155000)))
  follow h 5 (t.any (fun x => decide (x ≤ -55000))) (t.all (fun x => decide (-50000 < x)))

/-- A sensor is read: m°C, mV or mA.  In REST and THERMAL_OFF only the I-AON sensor is (R424).  The voltages 0 and 1 are those of VMAIN and VBACK, which R345 judges; the
currents 0 to 4 those of the fuse channels. -/
def Hub.sensorSample (h : Hub) (kind idx : Nat) (v : Int) : Hub :=
  if 2 < kind || sensorCount kind ≤ idx then h
  else if kind = 0 then
    if (h.pw.state = .rest || h.pw.state = .thermalOff) && idx ≠ 23 then h else ((h.sampleTemp idx v).coolWatch idx v).tempTamper
  else
    let h := h.modSensor kind idx (fun s => { s with value := v, valid := true })
    if kind = 1 && idx < 2 then h.seeInput idx v.toNat else if kind = 2 && idx < 5 then h.fuseAmps idx v.toNat else h

/-- SENSOR_READ (R451). -/
def Hub.sensorRead (h : Hub) (r : Request) : Hub × Reply :=
  let kind := r.arg 0 1
  let first := r.arg 1 1
  let n := r.arg 2 1
  if !r.has 4 || r.arg 3 1 ≠ 0 then (h, .err .badParam)
  else if 2 < kind || n = 0 || 24 < n || sensorCount kind < first + n then (h, .err .range)
  else
    let one := fun (i : Nat) =>
      let s := h.sensor kind (first + i)
      leBytes 4 (ofSigned 32 s.value) ++ leBytes 2 (b2n s.valid + 2 * b2n s.fault) ++ leBytes 2 0
    (h, .ok (leBytes 8 h.clk.ns ++ (List.range n).flatMap one))

end Sys2Proof.Machine
end

