-- ==== Sys2Proof/Machine/ParamRead.lean ====
section
/-!
DEFINITION. The value in force of a parameter (R48, R49): parameters that the state holds in structures of its own are computed from them,
readings that no state fixes are free values (log 7), and every other one is its stored value.
-/
namespace Sys2Proof.Machine

/-- DV_STRAP_STATE: the sampled straps with STRAP_FAULT. -/
def Hub.strapState (h : Hub) : Nat := h.straps + 128 * b2n h.strapFault

/-- LN_STATE codes (R85). -/
def LnState.code : LnState → Nat
  | .disabled => 0 | .detect => 1 | .ident => 2 | .train => 3 | .measure => 4 | .up => 5 | .held => 6 | .quiet => 7

/-- LN_PARTNER. -/
def Hub.lnPartner (h : Hub) (p : Nat) : Nat :=
  match (h.port p).train.partner with | some i => i.portId * 2 ^ 24 + i.nodeId | none => 0

/-- AL_EPOCH_ARMED and its boundary. -/
def Hub.armedWord (h : Hub) : Nat := match h.al.armed with | some a => a.id * 2 ^ 32 + epochFlags a.allot a.decision | none => 0
def Hub.armedTime (h : Hub) : Nat := match h.al.armed with | some a => a.boundary | none => 0

/-- RL_TCAP_READ: the oldest capture. -/
def Hub.tcapOldest (h : Hub) (i : Nat) : Nat := ((h.rl.tcap i).1.head?.map (·.time)).getD 0

/-- RL_DETOUR_STATE. -/
def Detour.word (d : Detour) : Nat := b2n d.armed + 2 * b2n d.active + 4 * b2n d.releasing.isSome

/-- RL_DEPTH: 0 at the master, 0xFFFF while FREE (R213). -/
def Hub.depth (h : Hub) : Nat := if h.rl.ts = .master then 0 else if h.rl.ts = .free then 0xFFFF else h.rl.depth

/-- BR_PCIE_LINK. -/
def Hub.pcieLinkWord (h : Hub) : Nat := if h.br.up then h.br.speed + 16 * h.br.width + 256 + 512 * b2n h.br.l1 else 0

/-- Entry i of the write-error log. -/
def Hub.pwErr (h : Hub) (i : Nat) : Option PwErr := (h.br.log.drop i).head?

/-- DE_ACTIVE_BANK. -/
def Hub.activeBank (h : Hub) : Nat := match h.de.active with | some b => 256 + b | none => 0

/-- AG_DRAIN_STATE: the newest generation that awaits its drain. -/
def Hub.drainState (h : Hub) : Nat := match h.ag.drains.getLast? with | some d => d.gen * 2 ^ 32 + 1 | none => 0

/-- Entry i of the violation log. -/
def Hub.viol (h : Hub) (i : Nat) : Nat × Nat × Nat := nth h.ag.log i (0, 0, 0)

/-- Entry e of sampler s: the header's two words at an instance and 64 above it, its line time 128 above (log 27). -/
def Hub.sampleWord (h : Hub) (inst : Nat) : Nat :=
  let i := inst % 64
  match ((nth h.ct.samples (i / 16) []).drop (i % 16)).head? with
  | none => 0
  | some s => if inst < 64 then s.header % 2 ^ 64 else if inst < 128 then s.header / 2 ^ 64 % 2 ^ 64 else s.time

/-- CT_PRESS_STATE. -/
def Hub.pressState (h : Hub) : Nat := b2n h.ct.press.running + 2 * h.ct.press.dest + 2 ^ 32 * (h.ct.press.seq % 2 ^ 32)

/-- The greatest reading of an island in whole °C. -/
def Hub.islandC (h : Hub) (i : Nat) : Int := (h.islandMax i).getD 0 / 1000

/-- Computed parameters of chapters 01 to 08. -/
def computedA : List (Nat × (Hub → Nat → Nat)) := [
  (P.DV_STRAP_STATE, fun h _ => h.strapState),
  (P.LN_STATE, fun h p => (h.lnState p).code),
  (P.LN_RATE, fun h p => if h.portUp p then (h.port p).rate else 0),
  (P.LN_CODE_ACTIVE, fun h p => if h.portUp p then (if (h.port p).short then 1 else 2) else 0),
  (P.LN_TAIL, fun h _ => b2n h.isTail),
  (P.LN_PARTNER, fun h p => h.lnPartner p),
  (P.LN_HOLD_REASON, fun h p => (h.port p).train.hold),
  (P.LN_LANE_MAP, fun h p => (h.port p).train.laneMap),
  (P.TN_CTX_INUSE, fun h _ => (h.tn.ctxs.filter (·.pool)).length),
  (P.SW_OCCUPANCY, fun h i => 16 * h.occ (i / 4) (i % 4)),
  (P.SW_CREDIT_AVAIL, fun h i => ((h.port (i / 2)).credit (i % 2 + 2)).avail),
  (P.AL_EPOCH_ARMED, fun h _ => h.armedWord),
  (P.AL_EPOCH_ARMED_TIME, fun h _ => h.armedTime),
  (P.AL_GOV_LEVEL, fun h _ => h.al.gov.level),
  (P.AL_GOV_CAUSE, fun h _ => h.al.gov.cause),
  (P.AL_GOV_TMAX, fun h _ => ofSigned 64 (h.al.gov.tmax / 1000)),
  (P.AL_GOV_POWER_EST, fun h _ => h.al.gov.power),
  (P.RL_TCAP_STATUS, fun h i => h.tcapStatus i),
  (P.RL_TCAP_READ, fun h i => h.tcapOldest i),
  (P.RL_TIME_STATE, fun h _ => h.rl.ts.code + 16 * h.rl.source),
  (P.RL_OFFSET, fun h _ => ofSigned 64 h.rl.offset),
  (P.RL_LINK_DELAY, fun h p => ofSigned 64 (toPs (h.port p).time.delay)),
  (P.RL_FREQ, fun h _ => ofSigned 64 h.freqNow),
  (P.RL_DETOUR_STATE, fun h p => (h.detour p).word),
  (P.RL_TWIN_PORTS, fun h _ => h.rl.twinFlags),
  (P.RL_DEPTH, fun h _ => h.depth),
  (P.DE_GPIO_LEVEL, fun h _ => h.gpioLevel),
  (P.DE_BANK_STATE, fun h b => (h.bank b).state),
  (P.DE_ACTIVE_BANK, fun h _ => h.activeBank)]

/-- Computed parameters of chapters 09 to 14. -/
def computedB : List (Nat × (Hub → Nat → Nat)) := [
  (P.BR_PCIE_LINK, fun h _ => h.pcieLinkWord),
  (P.BR_PWERR_INFO, fun h i => ((h.pwErr i).map PwErr.word).getD 0),
  (P.BR_PWERR_OFFSET, fun h i => ((h.pwErr i).map (·.off)).getD 0),
  (P.BR_PWERR_TIME, fun h i => ((h.pwErr i).map (·.time)).getD 0),
  (P.BR_PWERR_USED, fun h _ => h.br.log.length),
  (P.EN_LINK, fun h p => h.ethStatus p),
  (P.US_PORT_STATUS, fun h p => h.usbStatus p),
  (P.US_SOF_TRIM, fun h _ => if h.pget P.US_SOF_MODE 0 = 2 then ofSigned 64 h.usb.trim else h.pget P.US_SOF_TRIM 0),
  (P.US_FRAME, fun h _ => h.usb.micro % 16384),
  (P.TC_PORT_STATE, fun h n => (h.tcp n).word),
  (P.TC_CONTRACT, fun h n => (h.tcp n).contract),
  (P.TC_BUDGET_USED, fun h _ => h.tcUsed),
  (P.FU_SUPPLY_STATE, fun h _ => h.supplyState),
  (P.FU_SUPPLY_MV, fun h i => if i = 0 then h.su.mainMv else h.su.backMv),
  (P.FU_STATE, fun h c => (h.fuse c).word),
  (P.FU_LATCHED, fun h c => b2n ((h.fuse c).state == .latched)),
  (P.FU_BASE_ACTIVE, fun h c => h.baseOf c),
  (P.FU_CURRENT, fun h c => h.fuseCurrent c / 16),
  (P.FU_VIN, fun h c => (h.fuse c).vin),
  (P.FU_VOUT, fun h c => (h.fuse c).vout),
  (P.FU_SOA_LEVEL, fun h c => h.soaNow c / soaUnit),
  (P.FU_LAST_TRIP, fun h c => (h.fuse c).last),
  (P.DS_STATE, fun h d => h.headState d),
  (P.DS_SIGNATURE, fun h d => (h.head d).sig.getD 0)]

/-- Computed parameters of chapters 15 to 20. -/
def computedC : List (Nat × (Hub → Nat → Nat)) := [
  (P.AG_TAG_PROBE_COLOUR, fun h _ => colourAt h.ag.colours (h.pget P.AG_TAG_PROBE 0)),
  (P.AG_DRAIN_STATE, fun h _ => h.drainState),
  (P.AG_VIOL_INFO, fun h i => (h.viol i).1),
  (P.AG_VIOL_ADDR, fun h i => (h.viol i).2.1),
  (P.AG_VIOL_TIME, fun h i => (h.viol i).2.2),
  (P.AG_VIOL_USED, fun h _ => h.ag.log.length),
  (P.AG_IMPRECISE, fun h i => (((h.ag.slots.drop i).head?).map Imprecise.word).getD 0),
  (P.AG_IMPRECISE_COUNT, fun h i => (((h.ag.slots.drop i).head?).map (·.count)).getD 0),
  (P.KY_TAMPER_ACTIVE, fun h _ => h.ky.alarms),
  (P.KY_DEBUG_STATE, fun h _ => h.debugState),
  (P.MG_BOOT_STATE, fun h _ => h.bootState),
  (P.MG_LOG_SEQ, fun h _ => h.lint.seq),
  (P.PW_STATE, fun h _ => h.pw.word),
  (P.PW_ISLAND_STATE, fun h i => (h.island i).word),
  (P.PW_ISLAND_TEMP, fun h i => ofSigned 64 (h.islandC i)),
  (P.PW_ISLAND_MV, fun h i => (h.island i).mv),
  (P.CT_ENABLED, fun h _ => h.ct.enabled.length),
  (P.CT_PRESS_STATE, fun h _ => h.pressState),
  (P.CT_SAMPLE_HDR, fun h i => h.sampleWord i)]

/-- The computed parameters of a PID's block. -/
def computedOf (pid : Nat) : List (Nat × (Hub → Nat → Nat)) :=
  if pid < 0x700 then computedA else if pid < 0xD00 then computedB else computedC

/-- CT_PROFILE has its default by role until it is written (R455): it is stored one higher than its value. -/
def Hub.profile (h : Hub) : Nat := if h.pget P.CT_PROFILE 0 = 0 then b2n h.isHead else h.pget P.CT_PROFILE 0 - 1

/-- The value in force of an instance, without its side effects. -/
def Hub.pread (h : Hub) (pid inst : Nat) : Nat :=
  match (computedOf pid).find? (fun c => c.1 == pid) with
  | some c => c.2 h inst
  | none => if pid = P.CT_PROFILE then h.profile else h.pget pid inst

/-- What reading an RC parameter clears or removes (R9, R220). -/
def Hub.readEffect (h : Hub) (pid inst : Nat) : Hub :=
  match descOf pid with
  | some d =>
    if d.access ≠ .rc then h
    else if pid = P.RL_TCAP_READ then h.tcapRead inst
    else h.pset pid inst 0
  | none => h

/-- A read of an instance: its value, and the hub after it. -/
def Hub.paramRead (h : Hub) (pid inst : Nat) : Nat × Hub := (h.pread pid inst, h.readEffect pid inst)

end Sys2Proof.Machine
end

