-- ==== Sys2Proof/Machine/Press.lean ====
section
/-!
DEFINITION. Performance counters and Press (chapter 20): counter IDs (R453), the enabled set (R455, R456), reading and clearing (R457, R458),
Press (R459, R460), bandwidth windows (R461) and samplers (R462).
-/
namespace Sys2Proof.Machine

/-- The counters changed. -/
def Hub.modCt (h : Hub) (f : Counters → Counters) : Hub := { h with ct := f h.ct }

/-! ## Counter IDs (R453) -/

/-- GROUP of an ID. -/
def groupOf (id : Nat) : Nat := id / 2 ^ 28

/-- An ID of GROUP 0 names an instance of an RO parameter. -/
def roInstance (id : Nat) : Bool :=
  match descOf (id % 65536) with
  | some d => d.access == .ro && d.first ≤ bits id 16 12 && bits id 16 12 < d.count
  | none => false

/-- An ID is valid: every bit outside its fields is 0. -/
def validId (id : Nat) : Bool :=
  match groupOf id with
  | 0 => roInstance id
  | 1 => bits id 12 16 = 0 && bits id 5 3 = 0 && bits id 8 4 < 10 && bits id 0 5 < 24
  | 2 => bits id 12 16 = 0
  | 3 => bits id 12 16 = 0 && bits id 2 2 = 0 && bits id 8 4 < 10 && bits id 4 4 < 10
  | 4 => bits id 12 16 = 0 && bits id 5 3 = 0 && bits id 1 3 = 0 && bits id 8 4 < 10
  | _ => false

/-- Counters of a tunnel entry (R127). -/
def Hub.entryCount (h : Hub) (i : Nat) : EntryCount := mget ⟨0, 0, 0, 0⟩ h.tn.counts i

/-- The value of a counter. -/
def Hub.counterRead (h : Hub) (id : Nat) : Nat × Hub :=
  match groupOf id with
  | 0 => h.paramRead (id % 65536) (bits id 16 12)
  | 1 => (mget 0 h.ct.events (bits id 8 4 * 32 + bits id 0 5), h)
  | 2 =>
    let k := h.entryCount (bits id 2 10)
    ((match id % 4 with | 0 => k.cellsIn | 1 => k.cellsOut | 2 => k.bytes | _ => k.drops), h)
  | 3 => (mget 0 h.ct.marks (bits id 8 4 * 40 + bits id 4 4 * 4 + bits id 0 2), h)
  | _ =>
    let b := nth h.ct.bw (bits id 8 4) Bandwidth.reset
    ((match bit id 4, bit id 0 with
      | false, false => b.lastIn | false, true => b.peakIn | true, false => b.lastOut | true, true => b.peakOut), h)

/-- Values that an RO parameter of 8 bytes shows without counting: no counters in the sense of R458. -/
def statusPids : List Nat :=
  [P.SW_LAST_VICTIM, P.AL_EPOCH_SENT, P.AL_SHADOW_STATUS, P.AL_ACTIVE_STATUS, P.AL_PLAN_ID_ACTIVE, P.AL_EPOCH_APPLIED, P.AL_EPOCH_APPLIED_TIME, P.BR_PREFETCH_AUDIT_ADDR,
   P.EN_FILTER_LAST_TS, P.FU_CURRENT, P.FU_VIN, P.FU_VOUT, P.FU_SOA_LEVEL, P.KY_NV_WRITES]

/-- The parameter is described as a counter: RO, 48 bits in 8 bytes, and no status of the hub. -/
def isCounter (pid : Nat) : Bool :=
  match descOf pid with
  | some d => d.access == .ro && d.width == 8 && !(computedOf pid).any (fun c => c.1 == pid) && !statusPids.contains pid
  | none => false

/-- A counter set to 0. -/
def Hub.counterZero (h : Hub) (id : Nat) : Hub :=
  match groupOf id with
  | 0 => if isCounter (id % 65536) then h.pset (id % 65536) (bits id 16 12) 0 else h
  | 1 => h.modCt (fun c => { c with events := mset 0 c.events (bits id 8 4 * 32 + bits id 0 5) 0 })
  | 2 =>
    let f := fun (k : EntryCount) =>
      match id % 4 with | 0 => { k with cellsIn := 0 } | 1 => { k with cellsOut := 0 } | 2 => { k with bytes := 0 } | _ => { k with drops := 0 }
    { h with tn := { h.tn with counts := mmod ⟨0, 0, 0, 0⟩ h.tn.counts (bits id 2 10) f } }
  | 3 => h.modCt (fun c => { c with marks := mset 0 c.marks (bits id 8 4 * 40 + bits id 4 4 * 4 + bits id 0 2) 0 })
  | _ =>
    h.modCt (fun c => { c with bw := modAt c.bw (bits id 8 4) (fun b =>
      match bit id 4, bit id 0 with
      | false, false => { b with lastIn := 0 } | false, true => { b with peakIn := 0 }
      | true, false => { b with lastOut := 0 } | true, true => { b with peakOut := 0 }) })

/-! ## The enabled set (R455, R456) -/

/-- The most IDs that the profile allows. -/
def Hub.idLimit (h : Hub) : Nat := if h.profile = 0 then 64 else 4096

/-- IDs in a payload from an offset. -/
def idsAt (p : List Byte) (o n : Nat) : List Nat := (List.range n).map (fun i => le p (o + 4 * i) 4)

/-- The set with an ID added, IDs rising. -/
def addId (id : Nat) : List Nat → List Nat
  | [] => [id]
  | x :: l => if id < x then id :: x :: l else if id = x then x :: l else x :: addId id l

/-- The enabled set after COUNTER_SELECT. -/
def Hub.selected (h : Hub) (p : List Byte) : List Nat :=
  let ids := idsAt p 4 (le p 2 2)
  match byteAt p 0 with
  | 0 => ids.foldl (fun s i => addId i s) []
  | 1 => ids.foldl (fun s i => addId i s) h.ct.enabled
  | _ => h.ct.enabled.filter (fun i => !ids.contains i)

/-- An ID that Press cannot hold: a parameter wider than 8 bytes (R456). -/
def wideId (id : Nat) : Bool := groupOf id = 0 && (match descOf (id % 65536) with | some d => 8 < d.width | none => false)

/-- Why COUNTER_SELECT fails, with its detail. -/
def Hub.selectRefusal (h : Hub) (p : List Byte) : Option (Status × Nat) :=
  let n := le p 2 2
  if p.length < 4 || 2 < byteAt p 0 || byteAt p 1 ≠ 0 || n = 0 || 1019 < n || p.length ≠ 4 + 4 * n then some (.badParam, 0)
  else match (idsAt p 4 n).findIdx? (fun i => !validId i || wideId i) with
    | some i => some (.badParam, i)
    | none => if h.idLimit < (h.selected p).length then some (.noResource, 0) else none

/-- COUNTER_SELECT takes effect. -/
def Hub.selectApply (h : Hub) (p : List Byte) : Hub :=
  (h.modCt (fun c => { c with enabled := h.selected p })).pset P.CT_LIST_GEN 0 ((h.pget P.CT_LIST_GEN 0 + 1) % 256)

/-! ## COUNTER_READ and COUNTER_CLEAR (R457, R458) -/

/-- COUNTER_READ. -/
def Hub.counterReadCmd (h : Hub) (r : Request) : Hub × Reply :=
  let id := r.arg 0 4
  if !r.has 4 || !validId id then (h, .err .badParam)
  else
    let v := h.counterRead id
    (v.2, .ok (leBytes 4 id ++ leBytes 4 (b2n (h.ct.enabled.contains id) + 2 * b2n (v.1 == counterMax)) ++ leBytes 8 v.1 ++ leBytes 8 h.clk.ns))

/-- Every counter of GROUP 0. -/
def allCounters : List Nat :=
  (allParams.filter (fun d => isCounter d.pid)).flatMap (fun d => (List.range (d.count - d.first)).map (fun i => (d.first + i) * 65536 + d.pid))

/-- Every counter of a group is set to 0. -/
def Hub.groupZero (h : Hub) (g : Nat) : Hub :=
  match g with
  | 0 => allCounters.foldl Hub.counterZero h
  | 1 => h.modCt (fun c => { c with events := [] })
  | 2 => { h with tn := { h.tn with counts := [] } }
  | 3 => h.modCt (fun c => { c with marks := [] })
  | _ => h.modCt (fun c => { c with bw := c.bw.map (fun b => { b with lastIn := 0, lastOut := 0, peakIn := 0, peakOut := 0 }) })

/-- COUNTER_CLEAR: IN_PROGRESS, and STEP_DONE with the line times of the first and the last clear, their low 32 bits (log 28).  The clears of
several counters take a free time below 5 ms. -/
def Hub.counterClear (h : Hub) (r : Request) : Hub × Reply :=
  let p := r.payload
  let mode := byteAt p 0
  let n := le p 2 2
  let bad := p.length < 4 || 1 < mode || (mode = 0 && (n = 0 || byteAt p 1 ≠ 0 || p.length ≠ 4 + 4 * n)) ||
    (mode = 1 && (n ≠ 0 || p.length ≠ 4 || 31 < byteAt p 1))
  if bad then (h, .err .badParam)
  else
    let ids := if mode = 0 then idsAt p 4 n else []
    match ids.findIdx? (fun i => !validId i), ids.findIdx? (fun i => groupOf i = 0 && !isCounter (i % 65536)) with
    | some i, _ => (h, .at .badParam i)
    | none, some i => (h, .at .denied i)
    | none, none =>
      match h.startOp r.mb r.cmd (.bankCheck 2) with
      | (h, .long t) =>
        let first := h.clk.ns
        let h := if mode = 0 then ids.foldl Hub.counterZero h
          else ([0, 1, 2, 3, 4].filter (bit (byteAt p 1))).foldl Hub.groupZero h
        let f := h.fresh
        let h := if ids.length = 1 then h else f.2.until (f.2.clk.up + 1 + f.1 % (ms 5 - 1))
        (h.endOp t .ok 0 [(8, 4, first), (12, 4, h.clk.ns)], .long t)
      | x => x

/-! ## Press (R459, R460) -/

/-- The size of a record and of its slot. -/
def Hub.recordSize (h : Hub) : Nat := 16 + 8 * h.ct.enabled.length
def Hub.slotSize (h : Hub) : Nat := roundUp h.recordSize 64

/-- The Press area of the DRAM (R276). -/
def pressArea : Nat := 0xF8000000

/-- Entry i sends windows. -/
def Hub.windowTunnel (h : Hub) (i : Nat) : Bool :=
  i < 1024 && (h.tun i).valid && (h.tun i).dir.sends && (h.tun i).type == tWindow

/-- Why PRESS_CONTROL fails (R459). -/
def Hub.pressRefusal (h : Hub) (p : List Byte) : Option Status :=
  let op := byteAt p 0
  let dest := byteAt p 1
  let start := le p 8 8
  let period := le p 16 4
  let slots := le p 20 4
  if p.length ≠ 32 || 2 < op || 1 < dest || le p 4 4 ≠ 0 then some .badParam
  else if op = 0 then none
  else if h.profile = 0 then some .denied
  else if op = 2 then (if h.ct.press.slots ≤ slots then some .range else none)
  else if h.ct.press.running then some .busy
  else if start < h.clk.ns + us 100 then some .lateEpoch
  else if period < 100 || 10000000 < period || h.clk.ns + 60000000000 < start || slots = 0 ||
      (dest = 0 && 0x4000000 < slots * h.slotSize) then some .range
  else if dest = 1 && !h.windowTunnel (le p 2 2) then some .badParam
  else none

/-- Press changed. -/
def Hub.modPress (h : Hub) (f : Press → Press) : Hub := h.modCt (fun c => { c with press := f c.press })

/-- PRESS_CONTROL takes effect; what OP 2 returns. -/
def Hub.pressApply (h : Hub) (p : List Byte) : Hub × List Byte :=
  match byteAt p 0 with
  | 0 => (h.modPress (fun x => { x with running := false }), [])
  | 1 => (h.modPress (fun x => ⟨true, byteAt p 1, le p 2 2, le p 8 8, le p 16 4, le p 20 4, le p 24 8, 0, 0, false, false, x.toldAt, 0, []⟩), [])
  | _ =>
    let a := pressArea + le p 20 4 * h.slotSize
    let n := 16 + 8 * le (readMem h.dram (a + 12) 2) 0 2
    let o := le p 24 8
    (h, readMem h.dram (a + o) (min 4064 (n - o)))

/-- The instant that comes next. -/
def Press.next (p : Press) : Nat := p.start + p.k * us p.period

/-- A record: header and values in ascending ID (R460). -/
def Hub.pressRecord (h : Hub) (gap stepped : Bool) : List Byte × Hub :=
  let head := leBytes 8 h.clk.ns ++ leBytes 4 h.ct.press.seq ++ leBytes 2 h.ct.enabled.length ++
    [byte (h.pget P.CT_LIST_GEN 0), byte (b2n gap + 2 * b2n stepped)]
  let all := h.ct.enabled.foldl (fun (a : List Byte × Hub) id => let v := a.2.counterRead id; (a.1 ++ leBytes 8 v.1, v.2)) (head, h)
  all

/-- PRESS_GAP, at most once a second. -/
def Hub.pressGap (h : Hub) : Hub :=
  let p := h.ct.press
  if p.toldAt ≠ 0 && h.clk.up < p.toldAt - 1 + ms 1000 then h
  else
    (h.modPress (fun x => { x with toldAt := h.clk.up + 1 })).event .pressGap [(0, 4, p.seq), (4, 4, h.pget P.CT_PRESS_LOST 0)]

/-- The posted write at an offset. -/
def pressWrite (off : Nat) (d : List Byte) : List Byte := windowFrame 1 0 0 d.length 0 off 0 0 d

/-- The record of DEST 1: posted writes of up to 4,096 bytes. -/
def Hub.pressSend (h : Hub) (entry : Nat) : Nat → Nat → List Byte → Hub
  | 0, _, _ => h
  | fuel + 1, off, bs =>
    if bs.isEmpty then h
    else
      let d := bs.take 4096
      (h.frameSend 3 entry false (pressWrite off d) d.length).pressSend entry fuel (off + 4096) (bs.drop 4096)

/-- A latch that yields no record. -/
def Hub.pressLost (h : Hub) (n : Nat) : Hub :=
  ((h.bumpBy P.CT_PRESS_LOST 0 n).modPress (fun x => { x with gap := true })).pressGap

/-- The previous record is still being written (R460): within its free time of at most 100 µs, or while its last posted write waits for its
tunnel's shaper or for room (log 82). -/
def Hub.pressWriting (h : Hub) : Bool :=
  let p := h.ct.press
  h.clk.up < p.doneAt || h.tn.waiting.any (fun w => w.entry == p.tunnel && !p.tail.isEmpty && w.bytes == p.tail)

/-- A record is begun: it is written within 100 µs (R460), after a free time. -/
def Hub.pressBegun (h : Hub) (tail : List Byte) : Hub :=
  let f := h.fresh
  f.2.modPress (fun x => { x with seq := (x.seq + 1) % 2 ^ 32, gap := false, doneAt := f.2.clk.up + f.1 % (us 100 + 1), tail := tail })

/-- A Press instant (R460): the latch and its record, or a loss.  Instants that a step of line time passed give one record at the first
allotment boundary after it, with STEPPED. -/
def Hub.pressLatch (h : Hub) : Hub :=
  let p := h.ct.press
  if !p.running || h.profile = 0 then h
  else
    let h := if p.stepped then h.untilLine (boundaryAt h.clk.ns) else h.untilLine p.next
    let n := if p.stepped then (h.clk.ns - p.start) / us p.period + 1 - p.k else 1
    let gap := p.gap || 1 < n
    let slot := p.seq % max 1 p.slots
    let unread := (h.pget P.CT_PRESS_WRITE 0 + 2 ^ 32 - h.pget P.CT_PRESS_READ 0) % 2 ^ 32
    let h := (h.modPress (fun x => { x with k := x.k + n, stepped := false }))
    let h := if 1 < n then h.bumpBy P.CT_PRESS_LOST 0 (n - 1) else h
    let r := h.pressRecord gap p.stepped
    let h := r.2
    if h.pressWriting then h.pressLost 1
    else if p.dest = 0 then
      if p.slots ≤ unread || 0x4000000 < (slot + 1) * h.slotSize then h.pressLost 1
      else
        let h : Hub := { h with dram := writeMem h.dram (pressArea + slot * h.slotSize) r.1 }
        (h.pset P.CT_PRESS_WRITE 0 ((h.pget P.CT_PRESS_WRITE 0 + 1) % 2 ^ 32)).pressBegun []
    else
      let at_ := p.base + slot * h.slotSize
      let n := (r.1.length - 1) / 4096 * 4096
      (h.pressSend p.tunnel (r.1.length / 4096 + 1) at_ r.1).pressBegun (pressWrite (at_ + n) (r.1.drop n))

/-! ## Bandwidth windows and samplers (R461, R462) -/

/-- A boundary of CT_BW_WINDOW at a port. -/
def Hub.windowEnd (h : Hub) (port : Nat) : Hub :=
  let w := us (h.pget P.CT_BW_WINDOW 0)
  let b := nth h.ct.bw port Bandwidth.reset
  let h := h.untilLine (roundUp (b.endAt + 1) (max 1 w))
  let id := 0x40000000 + port * 256
  let on := fun (k : Nat) => h.ct.enabled.contains (id + k)
  h.modCt (fun c => { c with bw := modAt c.bw port (fun b =>
    if b.restart then { b with curIn := 0, curOut := 0, peakIn := 0, peakOut := 0, restart := false, endAt := h.clk.ns / max 1 w * w }
    else { b with curIn := 0, curOut := 0, endAt := h.clk.ns / max 1 w * w,
                  lastIn := if on 0 then b.curIn else b.lastIn, peakIn := if on 1 then max b.peakIn b.curIn else b.peakIn,
                  lastOut := if on 16 then b.curOut else b.lastOut, peakOut := if on 17 then max b.peakOut b.curOut else b.peakOut }) })

/-- A sampler that saw a crossing captures a header, or loses it at a full ring. -/
def Hub.sampleCapture (h : Hub) (s hdr : Nat) : Hub :=
  if !(h.ct.wanted.drop s).headD false then h
  else
    let h := h.modCt (fun c => { c with wanted := c.wanted.set s false })
    let ring := nth h.ct.samples s []
    if 16 ≤ ring.length then h.bump P.CT_SAMPLE_LOST s
    else
      (h.modCt (fun c => { c with samples := modAt c.samples s (fun l => l ++ [⟨hdr % 2 ^ 128, h.clk.ns⟩]) })).event .sampleReady
        [(0, 1, s), (1, 1, ring.length + 1)]

end Sys2Proof.Machine
end

