-- ==== Sys2Proof/Machine/Levels.lean ====
section
/-!
DEFINITION. What the budget level in force does to the blocks (R191, R193): island clocks, islands powered down at SURVIVE, Type-C ports
parked.
-/
namespace Sys2Proof.Machine

/-- The clock of a port's island in MHz, its lane rate over 64, whole (R362). -/
def portMhz (m : Mode) : Nat := if m = 1 then 830 else if m = 2 then 415 else if m = 3 then 402 else 161

/-- The clock of I-ETH in MHz: that of the fastest mode its ports are set to (R362, log 131). -/
def Hub.ethMhz (h : Hub) : Nat :=
  let ms := [0, 1, 2, 3].map (fun p => h.pget P.EN_MODE p)
  if ms.contains 1 || ms.contains 2 then 390 else if ms.contains 3 then 156 else 125

/-- An island's full clock in MHz (R362); I-DISP shows the faster head's pixel clock (log 131). -/
def Hub.fullMhz (h : Hub) (i : Nat) : Nat :=
  if i < 3 then portMhz (h.port i).rxMode
  else if i = 7 then h.ethMhz
  else if i = 9 then max (h.pget P.DS_PIXEL_CLOCK 0) (h.pget P.DS_PIXEL_CLOCK 1) / 1000
  else nth [0, 0, 0, 1250, 1066, 1000, 1000, 0, 250, 0, 800, 16] i 0

/-- Every island's clock under its limit (R191, R193). -/
def Hub.clocks (h : Hub) : Hub :=
  (List.range 12).foldl (fun h i =>
    let f := h.clockLimit i (h.fullMhz i)
    if (h.island i).mhz = f then h else h.modIsland i (fun s => { s with mhz := f })) h

/-- The islands that SURVIVE powers down: I-ETH, I-USB, I-DISP, and I-PCIE outside HEAD role (R191). -/
def Hub.survivors (h : Hub) : List Nat := if h.isHead then [7, 8, 9] else [6, 7, 8, 9]

/-- Cells in the delivery queues of a powered-down local port are dropped at SURVIVE (R192). -/
def Hub.dropDelivery (h : Hub) (o : Nat) : Hub :=
  if !h.outGated o then h
  else [0, 1, 2, 3].foldl (fun h k =>
    (h.dlv o k).foldl (fun h q => (h.gatedDrop o).countTidDrops q.cell.tid 1) (h.setDlv o k [])) h

/-- VBUS goes off on a Type-C port at SURVIVE (R191, R324): a sourcing port parks, and with it a Debug Accessory that has VBUS (log 115). -/
def Hub.tcSurvive (h : Hub) (n : Nat) : Hub :=
  if (h.tcp n).state = .accessory && (h.tcp n).vbus then (h.tcDetach n 3 .parked).pd n "CC_open" [] else h.tcPark n

/-- SURVIVE in RUN ends USB transfers with POWER_STATE (R305), parks the Type-C ports and powers its islands down; a lower level powers them again
(R191, R324). -/
def Hub.levels (h : Hub) : Hub :=
  if h.pw.state ≠ .run then h
  else if h.al.gov.level = 3 then
    let h := [0, 1, 2, 3].foldl Hub.tcSurvive (if (h.island usbIsland).powered then h.usbEnd else h)
    [4, 5, 6, 7, 8, 9].foldl Hub.dropDelivery (h.survivors.foldl Hub.islandGate h)
  else
    let h := [6, 7, 8, 9].foldl (fun h i => if (h.island i).powered then h else h.islandOn i) h
    [0, 1, 2, 3].foldl Hub.tcUnpark h

/-! ## Pads (R387) -/

/-- The pad groups that a power state or a reset releases, with whether each is driven: transmitters of the line and twin ports; PE_; ETH, the data and
control pads of the display and USB; the lane and SBU pads of each Type-C port; PPS_OUT; XSPI_ and the UART.  CC pins, gates of the supplies and of F0,
INT_N and WAKE_OUT are I-AON's and stay driven; GPIO pins follow `pinDrive`. -/
def Hub.pads (h : Hub) : List (String × Nat × Bool) :=
  let on := fun (i : Nat) => (h.island i).powered && (h.mg.loaded || h.mg.romHold)
  [0, 1, 2].map (fun p => ("LN", p, (h.island p).powered && (h.port p).sends)) ++
  [("PE", 0, on 6), ("ETH", 0, on 7), ("DPO", 0, on 9), ("USBP", 0, on 8), ("SVC", 0, on 8)] ++
  [0, 1, 2, 3].map (fun n => ("TC", n, on (if (h.tcp n).alt = 0 then 8 else 9))) ++
  [("PPS_OUT", 0, on 3), ("XSPI", 0, (h.island 10).powered && (h.island 10).clock)]

/-- Pads that are driven or released now. -/
def Hub.padsOut (old h : Hub) : Hub :=
  ((old.pads.zip h.pads).filter (fun x => x.1.2.2 != x.2.2.2)).foldl (fun h x => h.out (.pads x.2.1 x.2.2.1 x.2.2.2)) h

end Sys2Proof.Machine
end

