-- ==== Sys2Proof/Machine/Mailbox.lean ====
section
/-!
DEFINITION. How messages leave a mailbox (R36, R41, R43, R493): MB0's return entry, the held response, EVENT_OVERFLOW, queued events.
-/
namespace Sys2Proof.Machine

/-- The return entry of MB0 (R493): for a response the entry that delivered the request while it is valid with DIR BOTH; otherwise the
valid MANAGEMENT entry of lowest index that sends. -/
def Hub.returnEntry (h : Hub) (from_ : Option Nat) : Option Nat :=
  match from_ with
  | some i => if (h.tun i).valid && (h.tun i).dir == .both then some i else h.managementEntry.map (·.1)
  | none => h.managementEntry.map (·.1)

/-- A message of mailbox m can leave now. -/
def Hub.canSend (h : Hub) (m : Nat) (from_ : Option Nat) : Bool :=
  if m = 0 then h.tunnels && (h.returnEntry from_).isSome else h.canPlace m

/-- A message leaves mailbox m: on MB0 as a MANAGEMENT frame of the return entry. -/
def Hub.sendOn (h : Hub) (m : Nat) (from_ : Option Nat) (bs : List Byte) : Hub :=
  if m = 0 then
    match h.returnEntry from_ with
    | none => h
    | some i =>
      ((h.frameSend 8 i false bs bs.length).modMb 0 (fun b => { b with rspTail := (b.rspTail + 1) % 65536 })).out (.message 0 bs)
  else h.placeRing m bs

/-- The held response leaves. -/
def Hub.sendHeld (h : Hub) (m : Nat) (bs : List Byte) : Hub :=
  (((h.sendOn m (some (h.mb m).heldEntry) bs).modMb m (fun b => { b with held := none }))).raise (2 ^ m)

/-- EVENT_OVERFLOW leaves with the number of events dropped. -/
def Hub.sendOverflow (h : Hub) (m : Nat) : Hub :=
  let bs := h.eventBytes Ev.eventOverflow.code Ev.eventOverflow.severity 0 (fields 16 [(0, 4, (h.mb m).overflow)])
  ((h.sendOn m none bs).modMb m (fun b => { b with overflow := 0 })).raise (2 ^ (4 + m))

/-- EVENT_OVERFLOW is due on a mailbox whose MG_EVENT_MASK leaves out block 0x0F: it is not delivered there (R43). -/
def Hub.dropOverflow (h : Hub) (m : Nat) : Hub := h.modMb m (fun b => { b with overflow := 0 })

/-- The oldest queued event leaves. -/
def Hub.sendQueued (h : Hub) (m : Nat) (bs : List Byte) : Hub :=
  ((h.sendOn m none bs).modMb m (fun b => { b with events := b.events.drop 1 })).raise (2 ^ (4 + m))

/-- The next message of mailbox m in the order of R43, if one waits and can leave. -/
def Hub.flushStep (h : Hub) (m : Nat) : Option Hub :=
  match (h.mb m).held with
  | some bs => if h.canSend m (some (h.mb m).heldEntry) then some (h.sendHeld m bs) else none
  | none =>
    if !h.canSend m none then none
    else if (h.mb m).overflow ≠ 0 then
      some (if bit (h.pget P.MG_EVENT_MASK m) 15 then h.sendOverflow m else h.dropOverflow m)
    else (h.mb m).events.head?.map (h.sendQueued m)

/-- As many waiting messages of mailbox m as can leave: at most a response, EVENT_OVERFLOW and 64 events wait. -/
def Hub.flushN : Nat → Nat → Hub → Hub
  | 0, _, h => h
  | n + 1, m, h =>
    match h.flushStep m with
    | some h => Hub.flushN n m h
    | none => h

/-- Every mailbox sends what waits. -/
def Hub.flush (h : Hub) : Hub := [0, 1, 2, 3].foldl (fun h m => Hub.flushN 66 m h) h

/-- A response takes the mailbox's response place, is stored for a repeat (R42), and leaves at once if it can (R41). -/
def Hub.respond (h : Hub) (m : Nat) (bs : List Byte) (entry : Nat) : Hub :=
  Hub.flushN 66 m (h.modMb m (fun b => { b with held := some bs, heldEntry := entry, stored := bs }))

end Sys2Proof.Machine
end

