-- ==== Sys2Proof/Machine/Flags.lean ====
section
/-!
DEFINITION. The status words of the host register block (R34) and INT_N (R35), computed from the state.
-/
namespace Sys2Proof.Machine

/-- TXN_OPEN: bit m is set while mailbox m holds an open or scheduled transaction. -/
def Hub.txnOpen (h : Hub) : Nat := h.ctl.txns.foldl (fun v t => setBit v t.mb true) 0

/-- POWER_STATE of GLOBAL_STATUS: 0 RUN, 1 DOZE. -/
def Hub.powerField (h : Hub) : Nat := if h.pw.state = .doze then 1 else 0

/-- GLOBAL_STATUS. -/
def Hub.globalStatus (h : Hub) : Nat :=
  h.txnOpen * 2 ^ 12 + h.powerField * 2 ^ 10 + h.al.gov.level * 2 ^ 8 + b2n h.onVback * 2 ^ 7 + b2n h.strapFault * 2 ^ 6 +
    b2n (h.mg.loaded && h.mg.running == 2) * 2 ^ 5 + b2n h.ky.hold * 2 ^ 4 + h.pget P.AG_LOCK 0 % 2 * 2 ^ 3 + b2n h.mg.full * 2 ^ 2 +
    b2n h.mg.express * 2 + b2n h.mg.ready

/-- NODE_INFO. -/
def Hub.nodeInfo (h : Hub) : Nat := if h.idValid then 2 ^ 15 + h.rail * 2 ^ 14 + h.ownId else h.rail * 2 ^ 14

/-- PAIR_PENDING: bit b is set while PID block b has an open first field (R52). -/
def Hub.pairPending (h : Hub) : Nat := h.ctl.pairs.foldl (fun v p => setBit v (p.pid / 256) true) 0

/-- INT_N follows the AND of INT_STATUS and INT_MASK (R35); it shows when it changes. -/
def Hub.intPin (h : Hub) : Hub :=
  let low := decide (h.ctl.regs.intStatus &&& h.ctl.regs.intMask ≠ 0)
  if h.ctl.regs.intLow = low then h
  else (h.modRegs (fun r => { r with intLow := low })).out (.pin "INT_N" (!low))

end Sys2Proof.Machine
end

