-- ==== Sys2Proof/Machine/ParamCheck.lean ====
section
/-!
DEFINITION. Whether a written parameter value is acceptable (R48 to R50), and whether a coupled pair is consistent (R52, R468): every check
looks at the hub in force and at a view of it with the command's items laid over it.
-/
namespace Sys2Proof.Machine

/-! ## Items laid over the hub -/

/-- The form a value is stored in: CT_PROFILE one higher than its value (R455), PW_WAKE_MASK with bit 7, which always reads 1 (R383). -/
def storedForm (pid v : Nat) : Nat := if pid = P.CT_PROFILE then v + 1 else if pid = P.PW_WAKE_MASK then v ||| 128 else v

/-- A value stored without its effects; a WO parameter holds none. -/
def Hub.putParam (h : Hub) (pid inst v : Nat) : Hub :=
  match descOf pid with
  | some d => if d.access = .wo then h else h.pset pid inst (storedForm pid v)
  | none => h

/-- The fields marked Reserved of a table's entries: first bit and width (R111, R167, R177, R206, R255, R283, R287, R303, R395). -/
def reservedOf (t : Nat) : List (Nat × Nat) :=
  match t with
  | 0x01 => [(12, 9), (77, 3), (85, 3), (112, 16), (128, 128)]
  | 0x10 => [(0, 8), (16, 2), (48, 16)]
  | 0x11 => [(0, 8), (16, 4), (24, 4), (32, 32), (192, 64)]
  | 0x20 => [(2, 4), (52, 12), (64, 64)]
  | 0x21 | 0x22 => [(28, 3), (56, 8), (64, 64)]
  | 0x30 => [(12, 1), (33, 7), (40, 24)]
  | 0x31 => [(12, 12), (72, 8), (96, 32)]
  | 0x40 => [(0, 5), (11, 5), (20, 4), (75, 5), (80, 48)]
  | 0x50 => [(0, 5), (8, 8), (28, 4), (44, 4), (48, 16)]
  | _ => []

/-- A table entry as it is held: reserved fields read back as 0 (R8). -/
def storedEntry (t v : Nat) : Nat := (reservedOf t).foldl (fun v f => v - bits v f.1 f.2 * 2 ^ f.1) v

/-- Parameter items and table entries laid over the hub. -/
def Hub.overlay (h : Hub) (ps : List ParamItem) (es : List TableItem) : Hub :=
  es.foldl (fun h e => h.tset e.table e.index (storedEntry e.table e.value)) (ps.foldl (fun h i => h.putParam i.pid i.inst i.value) h)

/-! ## One value by itself -/

/-- The value in the WIDTH of its parameter (R48): a signed one may come sign-extended to 64 bits. -/
def ParamDesc.norm (d : ParamDesc) (v : Nat) : Option Nat :=
  let w := 8 * d.width
  if v < 2 ^ w then some v else if d.signed && 2 ^ 64 - 2 ^ (w - 1) ≤ v then some (v % 2 ^ w) else none

/-- Why a value fails the range, list or field map of its row (R50), or nothing. -/
def ParamDesc.refuses (d : ParamDesc) (v : Nat) : Option Status :=
  let x : Int := if d.signed then toSigned (8 * d.width) v else v
  match d.check with
  | .any => none
  | .range lo hi => if lo ≤ x && x ≤ hi then none else some .range
  | .list vs => if vs.contains v then none else some .range
  | .mask m => if v ||| m = m then none else some .badParam
  | .step by_ lo hi => if lo ≤ v && v ≤ hi && v % by_ = 0 then none else some .range

/-- A status where a condition holds. -/
def when_ (c : Bool) (s : Status) : Option Status := if c then some s else none

/-- The first refusal of a list. -/
def firstOf (l : List (Option Status)) : Option Status := l.findSome? id

/-! ## Checks of single rows -/

/-- A word of FU_CURVE is well formed: reserved fields 0, and an enabled point with MULT 16 to 64 and a time (R353). -/
def curveRefusal (v : Nat) : Option Status :=
  let m := bits v 40 8
  firstOf [when_ (bits v 48 16 ≠ 0 || bits v 32 8 ≠ 0) .badParam,
           when_ (m ≠ 0 && (m < 16 || 64 < m || bits v 0 32 = 0)) .range]

/-- Two enabled points of a channel, the one with the higher MULT and the longer TIME (R353). -/
def Hub.curveCrossed (v : Hub) (ch : Nat) : Bool :=
  let ps := (List.range 8).map (fun k => v.pget P.FU_CURVE (8 * ch + k))
  ps.any (fun a => ps.any (fun b => bits a 40 8 ≠ 0 && bits b 40 8 ≠ 0 && bits b 40 8 < bits a 40 8 && bits b 0 32 < bits a 0 32))

/-- The policy word of a tamper source (R425): reserved bits, code 3, and lowering outside BLANK and PROVISION. -/
def Hub.policyRefusal (h : Hub) (s v : Nat) : Option Status :=
  let old := h.pget P.KY_TAMPER_POLICY s
  firstOf [when_ (bits v 2 2 ≠ 0 || 32 ≤ v || bits v 0 2 = 3) .badParam,
           when_ (2 ≤ h.lc && (bits v 0 2 < bits old 0 2 || (bit old 4 && !bit v 4))) .denied]

/-- Both clone heads have one active size (R335). -/
def Hub.cloneBad (v : Hub) : Bool :=
  v.pget P.DS_CLONE 0 = 1 && (v.pget P.DS_H_ACTIVE 0 ≠ v.pget P.DS_H_ACTIVE 1 || v.pget P.DS_V_ACTIVE 0 ≠ v.pget P.DS_V_ACTIVE 1)

/-- A horizontal pair is consistent (R336). -/
def hGood (active total sync : Nat) : Bool :=
  320 ≤ active && active ≤ 3840 && active % 2 = 0 && total ≤ 8192 && active + bits sync 16 16 + bits sync 0 16 + 16 ≤ total

/-- A vertical pair is consistent (R336). -/
def vGood (active total sync : Nat) : Bool :=
  200 ≤ active && active ≤ 2160 && total ≤ 4096 && active + bits sync 16 16 + bits sync 0 16 + 3 ≤ total

/-- The watch rectangle is the whole area or lies inside it (R336). -/
def watchGood (origin size w v : Nat) : Bool :=
  size = 0 || (bits origin 16 16 + bits size 16 16 ≤ w && bits origin 0 16 + bits size 0 16 ≤ v)

/-- FU_RAMP_LIMIT against its bound, at the write (R354). -/
def Hub.rampRefusal (v : Hub) (ch x : Nat) : Option Status :=
  let base := if ch = 0 then v.pget P.FU_BASE 0 else 3300
  when_ (x < 100 || v.pget P.FU_ILIM_MULT ch * base < 16 * x) .range

/-- Checks of chapters 05 to 08. -/
def Hub.refusalA (h v : Hub) (pid inst x : Nat) : Option Status :=
  if pid = P.SW_CREDIT_POOL then when_ (6291456 < v.pget pid 0 + v.pget pid 1) .range
  else if pid = P.AL_GOV_T then when_ (!(v.pget pid 0 < v.pget pid 1 && v.pget pid 1 < v.pget pid 2)) .range
  else if pid = P.AL_EPOCH_CANCEL then h.cancelRefusal x
  else if pid = P.RL_TIME_STEP || pid = P.RL_FREQ_ADJ then when_ (!h.timeMaster) .denied
  else if pid = P.DE_BUCKET_ORDER then when_ (h.de.active == some inst) .denied
  else if pid = P.DE_GPIO_CFG then when_ (2 ^ 16 ≤ x || bits x 0 2 = 3) .badParam
  else none

/-- Checks of chapters 11 to 14. -/
def Hub.refusalB (h v : Hub) (pid inst x : Nat) : Option Status :=
  if pid = P.US_SOF_TRIM then when_ (h.pget P.US_SOF_MODE 0 = 2) .denied
  else if pid = P.FU_CURVE then firstOf [curveRefusal x, when_ (v.curveCrossed (inst / 8)) .range]
  else if pid = P.FU_RAMP_LIMIT then v.rampRefusal inst x
  else if pid = P.DS_ROUTE then when_ (v.routeRefused inst x) .badParam
  else if pid = P.DS_CLONE then when_ v.cloneBad .badParam
  else if pid = P.DS_H_SYNC then when_ (!hGood (v.pget P.DS_H_ACTIVE inst) (v.pget P.DS_H_TOTAL inst) x) .badParam
  else if pid = P.DS_V_SYNC then when_ (!vGood (v.pget P.DS_V_ACTIVE inst) (v.pget P.DS_V_TOTAL inst) x) .badParam
  else if pid = P.DS_LINK_MAX then
    when_ (!([1, 2, 4].contains (bits x 4 4) && 1 ≤ bits x 0 4 && bits x 0 4 ≤ 4 && x < 256)) .range
  else if pid = P.DS_FREEZE_ACTION || pid = P.DS_STARVE_ACTION then when_ (32 ≤ x) .badParam
  else none

/-- Checks of chapters 15 to 20. -/
def Hub.refusalC (h v : Hub) (mb pid inst x : Nat) : Option Status :=
  if pid = P.AG_TAG_FILL then firstOf [when_ (!h.guardAdmin mb) .denied, when_ (bits x 8 24 ≠ 0) .badParam]
  else if pid = P.KY_TAMPER_POLICY then h.policyRefusal inst x
  else if pid = P.KY_TAMPER_CLEAR then h.tamperClearRefusal mb x
  else if pid = P.MG_MB_MASK then when_ (!bit x mb) .denied
  else if pid = P.CT_PROFILE then when_ (x = 0 && (64 < v.ct.enabled.length || h.ct.press.running)) .conflict
  else if pid = P.CT_SAMPLE_ID then when_ (x ≠ 0 && !(groupOf x = 1 && validId x)) .badParam
  else none

/-- What a row's own rule refuses, or nothing: `v` is the view with the command's items in it. -/
def Hub.ownRefusal (h v : Hub) (mb pid inst x : Nat) : Option Status :=
  if pid < 0x700 then h.refusalA v pid inst x else if pid < 0xD00 then h.refusalB v pid inst x else h.refusalC v mb pid inst x

/-- A write of one parameter as far as its access code, instance and row go (R50): its value in the parameter's width, or the refusal.  A
parameter that no write may change answers DENIED whatever the instance (DESIGN CHOICE: R50 gives the two refusals no order; log 123). -/
def paramForm (pid inst v : Nat) : Except Status Nat :=
  match descOf pid with
  | none => .error .badParam
  | some d =>
    if d.access = .ro || d.access = .rc then .error .denied
    else if inst < d.first || d.count ≤ inst then .error .range
    else match d.norm v with
      | none => .error .range
      | some x =>
        if pid = P.PW_ISLAND_RESET && (x < 5 || 9 < x) then .error .denied
        else match d.refuses x with
          | some s => .error s
          | none => .ok x

/-! ## Coupled pairs (R52, R468) -/

/-- A mate of a coupled pair: its PID, if `pid` is a first field (1) or a closing field (2). -/
def mateOf (pid part : Nat) : Option Nat :=
  match descOf pid with
  | some d => if d.pair = part then some d.mate else none
  | none => none

/-- A first field that is staged at some mailbox (R52). -/
def Hub.stagedFirst (h : Hub) (pid inst : Nat) : Option Nat := (h.ctl.pairs.find? (fun p => p.pid == pid && p.inst == inst)).map (·.value)

/-- The watch rectangle lies within the active area in force, or within the one staged, in the view or as open first fields (R336). -/
def Hub.watchFits (h v : Hub) (d a b : Nat) : Bool :=
  let w := fun (x : Hub) => x.pget P.DS_H_ACTIVE d
  let t := fun (x : Hub) => x.pget P.DS_V_ACTIVE d
  watchGood a b (w h) (t h) || watchGood a b (w v) (t v) ||
    watchGood a b ((h.stagedFirst P.DS_H_ACTIVE d).getD (w v)) ((h.stagedFirst P.DS_V_ACTIVE d).getD (t v))

/-- Why a pair is inconsistent, or nothing: by the closing field's PID, with the first and closing values and the view they stand in. -/
def Hub.pairRefusal (h v : Hub) (pid inst a b : Nat) : Option Status :=
  if pid = P.AL_CLASS_BURST then when_ ((a = 0) ≠ (b = 0)) .badParam
  else if pid = P.AL_EPOCH_ARM then h.epochRefusal a b
  else if pid = P.DE_FWD_RING_SIZE then
    when_ (!(b = 0 || (a % 4096 = 0 && 64 ≤ b && b ≤ 1048576 && b &&& (b - 1) = 0 && a + 64 * b ≤ v.pget P.BR_MEMT_SIZE 0))) .badParam
  else if pid = P.BR_MEMT_SIZE then
    when_ (!(a % 1048576 = 0 && b % 1048576 = 0 && 67108864 ≤ b && 0x48000000 ≤ a && a + b ≤ 0xF8000000)) .badParam
  else if pid = P.EN_PAUSE_XOFF then when_ (!(a < b && b ≤ 180224)) .badParam
  else if pid = P.US_RING_ORDER then
    when_ (!(b = 0 || (a % 4096 = 0 && a + 64 + 2 * 2 ^ b * 16448 ≤ v.pget P.BR_MEMT_SIZE 0))) .badParam
  else if pid = P.FU_FAST_MULT then when_ (b < a + 4) .badParam
  else if pid = P.DS_H_TOTAL then when_ (!hGood a b (v.pget P.DS_H_SYNC inst) || v.cloneBad) .badParam
  else if pid = P.DS_V_TOTAL then when_ (!vGood a b (v.pget P.DS_V_SYNC inst) || v.cloneBad) .badParam
  else if pid = P.DS_WATCH_SIZE then when_ (!h.watchFits v inst a b) .badParam
  else if pid = P.AG_TAG_FILL then when_ (bits b 32 32 = 0 || 1048576 < a + bits b 32 32) .badParam
  else none

end Sys2Proof.Machine
end

