-- ==== Sys2Proof/Machine/Apply.lean ====
section
/-!
DEFINITION. How a commit takes effect (R60, R470): time passes to an allotment cycle boundary where the block waits for one, every value is
stored at once, then each changed parameter and table entry has its effect.
-/
namespace Sys2Proof.Machine

/-- What one commit writes: parameter items, table entries, staged COUNTER_SELECT and PRESS_CONTROL commands. -/
structure Change where
  items   : List ParamItem
  entries : List TableItem
  cmds    : List StagedCmd
deriving DecidableEq, Repr

/-! ## The allotment cycle boundary (R173, R217) -/

/-- The steps of line time that wait for an allotment cycle boundary are taken at one, each a step of its own (R217, R221). -/
def Hub.stepDue (h : Hub) : Hub := h.rl.steps.foldl Hub.stepTime (h.modRail (fun r => { r with steps := [] }))

/-- The next allotment cycle boundary: allotments reload, and the steps of line time that wait are taken. -/
def Hub.cycleBoundary (h : Hub) : Hub :=
  (h.untilLine (boundaryAt (h.clk.ns + 1))).reload.stepDue

/-- A parameter of block 0x04 that applies at an allotment cycle boundary (R470). -/
def atCycle (pid : Nat) : Bool :=
  pid / 256 == 4 && !(P.AL_GOV_T ≤ pid && pid ≤ P.AL_GOV_C3_CAP) && !(P.AL_EPOCH_TIME ≤ pid && pid ≤ P.AL_EPOCH_CANCEL)

/-- The commit waits for an allotment cycle boundary. -/
def Change.atCycle (c : Change) : Bool :=
  c.items.any (fun i => Machine.atCycle i.pid) || c.entries.any (fun e => 0x20 ≤ e.table && e.table ≤ 0x22)

/-! ## Table entries -/

/-- The fields of a tunnel entry whose change is a change under R113: CTRL but its reserved bits, TID, KEY_SLOT. -/
def tunnelKey (v : Nat) : Nat × Nat × Nat × Nat := (bits v 0 12, bits v 21 11, bits v 32 16, bits v 80 5)

/-- A table entry that held `old` now holds its new value. -/
def Hub.entryHook (h : Hub) (e : TableItem) (old : Nat) : Hub :=
  if e.table = 0x01 then
    if tunnelKey old = tunnelKey e.value || (!bit old 31 && !bit e.value 31) then h else h.tunnelChanged e.index
  else if e.table = 0x10 then if old = e.value then h else h.forgetAhead e.index
  else if e.table = 0x20 then h.shadowReport (e.index / 256)
  else if e.table = 0x21 then h.freshBuckets e.index
  else if e.table = 0x22 then { h with tn := { h.tn with shape := merase h.tn.shape e.index } }
  else h

/-! ## Parameters -/

/-- CT_BW_WINDOW changed: every window counter restarts at its next boundary (R461). -/
def Hub.windowsRestart (h : Hub) : Hub := h.modCt (fun c => { c with bw := c.bw.map (fun b => { b with restart := true }) })

/-- CT_SAMPLE_ID written: the sampler starts anew (R462). -/
def Hub.samplerFresh (h : Hub) (s : Nat) : Hub :=
  h.modCt (fun c => { c with samples := modAt c.samples s (fun _ => []), wanted := modAt c.wanted s (fun _ => false) })

/-- Class policing written for a class (R179, R195): the buckets of its tunnels are full. -/
def Hub.classPolice (h : Hub) (cls : Nat) : Hub :=
  { h with tn := { h.tn with police := h.tn.police.filter (fun e => e.1 < 1024 || (h.tun (e.1 - 1024)).cls != cls) } }

/-- Effects of a write in blocks 0x01 to 0x08, the values already stored. -/
def Hub.hookA (h : Hub) (i : ParamItem) : Hub :=
  let n := i.inst
  let v := i.value
  if i.pid = P.LN_ENABLE then h.lnEnable n v
  else if i.pid = P.LN_CODE || i.pid = P.LN_RATE_MAX then h.modTrain n (fun t => { t with stored := none })
  else if i.pid = P.LN_RETRAIN then (if v = 1 then h.lnRetrain n else h)
  else if i.pid = P.AL_C0_RESERVE then h.shadowReport n
  else if i.pid = P.AL_CLASS_BURST then h.classPolice n
  else if i.pid = P.AL_EPOCH_ARM then h.epochSend (h.pget P.AL_EPOCH_TIME 0) v
  else if i.pid = P.AL_EPOCH_CANCEL then h.cancelSend v
  else if i.pid = P.RL_REENUMERATE then (if v = 1 then h.reenumerate else h)
  else if i.pid = P.RL_TIME_STEP then h.modRail (fun r => { r with steps := r.steps ++ [toSigned 64 v * 65536] })
  else if i.pid = P.RL_PPS_MODE then (if v = 0 then h.setPps false else h)
  else if i.pid = P.DE_BUCKET_ORDER then h.bankWritten n
  else if i.pid = P.DE_FWD_RING_SIZE then (h.pset P.DE_FWD_WRITE 0 0).pset P.DE_FWD_READ 0 0
  else if i.pid = P.DE_GPIO_CFG then h.showPin n
  else if i.pid = P.BR_LINK_RESET then (if v = 1 then h.linkReset else h)
  else if i.pid = P.BR_PWERR_CLEAR then (if v = 1 then h.modBr (fun b => { b with log := [] }) else h)
  else if i.pid = P.EN_ENABLE || i.pid = P.EN_MODE then h.ethRestart n
  else h

/-- Effects of a write in blocks 0x09 to 0x11, the values already stored. -/
def Hub.hookB (old h : Hub) (i : ParamItem) : Hub :=
  let n := i.inst
  let v := i.value
  if i.pid = P.US_PORT_ENABLE then h.usbEnable n v
  else if i.pid = P.US_RING_ORDER then (if h.isHead then h.ringClosed else h)
  else if i.pid = P.TC_ENABLE then h.tcEnable n v
  else if i.pid = P.FU_ENABLE then h.fuEnable v
  else if i.pid = P.FU_SUPPLY_UV || i.pid = P.FU_SUPPLY_OV then h.rejudge n
  else if i.pid = P.FU_VIN_UV then h.fuseKick
  else if i.pid = P.DS_ROUTE then h.dsRouted n
  else if i.pid = P.AG_VIOL_CLEAR then (if v = 1 then h.violClear else h)
  else if i.pid = P.KY_TAMPER_CLEAR then h.tamperClear v
  else if i.pid = P.KY_TAMPER_POLICY then h.nvPair 200 h.policyBytes
  else if i.pid = P.PW_ISLAND_RESET then h.islandReset v
  else if i.pid = P.CT_BW_WINDOW then (if old.pget P.CT_BW_WINDOW 0 = v then h else h.windowsRestart)
  else if i.pid = P.CT_SAMPLE_ID then h.samplerFresh n
  else h

/-- The effect of a written parameter. -/
def Hub.paramHook (old h : Hub) (i : ParamItem) : Hub := if i.pid < 0x900 then h.hookA i else Hub.hookB old h i

/-- The effects of the parameters a commit writes, in their order.  A fill of page colours starts at the AG_TAG_BASE written last before it, in
the commit or before it (R398). -/
def Hub.paramHooks (old : Hub) : List ParamItem → Nat → Hub → Hub
  | [], _, h => h
  | i :: is, base, h =>
    if i.pid = P.AG_TAG_FILL then Hub.paramHooks old is base (h.startFill base (bits i.value 32 32) (bits i.value 0 8))
    else Hub.paramHooks old is (if i.pid = P.AG_TAG_BASE then i.value else base) (Hub.paramHook old h i)

/-- The change alters what the integrator and the counters of the fuse channels count with (R349 to R353). -/
def Change.fuses (c : Change) : Bool :=
  c.items.any (fun i => [P.FU_BASE, P.FU_RAMP_LIMIT, P.FU_ILIM_MULT, P.FU_SOA_BUDGET, P.FU_SOA_DECAY, P.FU_CURVE].contains i.pid)

/-- The change alters the guard's rules: a region entry, or a fill of page colours (R405). -/
def Change.guards (c : Change) : Bool := c.entries.any (fun e => e.table == 0x11) || c.items.any (fun i => i.pid == P.AG_TAG_FILL)

/-- The item changes a value that the configuration store holds (R432). -/
def Hub.storeChanges (h : Hub) (i : ParamItem) : Bool :=
  match descOf i.pid with
  | some d => bit d.kept letterN && h.pget i.pid i.inst != storedForm i.pid i.value
  | none => false

/-! ## The whole commit -/

/-- A staged command takes effect. -/
def Hub.cmdHook (h : Hub) (c : StagedCmd) : Hub := if c.code = 0x0903 then h.selectApply c.payload else (h.pressApply c.payload).1

/-- The commit applies (R60): a guard change is one commit of the guard, whatever else the commit holds (R405). -/
def Hub.applyChange (h : Hub) (c : Change) : Hub :=
  let h := if c.atCycle && h.clk.ns % 10240 ≠ 0 then h.cycleBoundary else h
  let h := if c.fuses then h.fusesSense else h
  let old := h
  let h := h.overlay c.items c.entries
  let h := if c.items.any old.storeChanges then h.modMg (fun m => { m with dirty := true }) else h
  let h := c.entries.foldl (fun h e => h.entryHook e (old.tget e.table e.index)) h
  let h := Hub.paramHooks old c.items (old.pget P.AG_TAG_BASE 0) h
  let h := if c.guards then h.guardCommit else h
  c.cmds.foldl Hub.cmdHook h

end Sys2Proof.Machine
end

