-- ==== Sys2Proof/Machine/ParamSet.lean ====
section
/-!
DEFINITION. PARAM_GET, PARAM_SET and PARAM_LIST (R48 to R53): locks, coupled pairs, and what a response says of each item.
-/
namespace Sys2Proof.Machine

/-! ## Items of a payload -/

/-- The payload is 1 to 255 whole items (R48). -/
def itemsGood (p : List Byte) : Bool := !p.isEmpty && p.length % 16 == 0 && p.length ≤ 4080

/-- The items of a payload: PID, instance, VALUE. -/
def itemsOf (p : List Byte) : List ParamItem :=
  (List.range (p.length / 16)).map (fun k => ⟨le p (16 * k) 2, le p (16 * k + 2) 2, le p (16 * k + 8) 8⟩)

/-- One item of a response. -/
def itemBytes (i : ParamItem) (status : Status) (staged : Bool) (value : Nat) : List Byte :=
  leBytes 2 i.pid ++ leBytes 2 i.inst ++ leBytes 4 (status.code + 256 * b2n staged) ++ leBytes 8 value

/-- The first item that failed: its status and its index. -/
def firstFailure (l : List Status) : Option (Status × Nat) :=
  match l.findIdx? (fun s => s != .ok) with
  | some i => some (nth l i .ok, i)
  | none => none

/-- The header of a response whose items have these outcomes (R49, R50). -/
def itemsReply (l : List Status) (payload : List Byte) : Reply :=
  match firstFailure l with
  | some (s, i) => .done s i payload
  | none => .ok payload

/-! ## Locks (R53, R57, R469) -/

/-- The two fields of a pair instance are one item for locking: the first field's key. -/
def lockKey (pid inst : Nat) : Nat × Nat :=
  match mateOf pid 2 with
  | some f => (f, inst)
  | none => (pid, inst)

/-- A transaction other than `self` has locked the item. -/
def Hub.txnLocks (h : Hub) (self pid inst : Nat) : Bool :=
  h.ctl.txns.any (fun t => t.id != self && t.items.any (fun i => lockKey i.pid i.inst == lockKey pid inst))

/-- The open first field of the item's pair instance. -/
def Hub.openPair (h : Hub) (pid inst : Nat) : Option OpenPair := h.ctl.pairs.find? (fun o => (o.pid, o.inst) == lockKey pid inst)

/-- A write outside any transaction from mailbox mb conflicts. -/
def Hub.conflictsOutside (h : Hub) (mb pid inst : Nat) : Bool :=
  h.txnLocks 0 pid inst || (match h.openPair pid inst with | some o => o.mb != mb | none => false)

/-- Staging by transaction t conflicts: an open pair blocks every transaction. -/
def Hub.conflictsInside (h : Hub) (t pid inst : Nat) : Bool := h.txnLocks t pid inst || (h.openPair pid inst).isSome

/-- An item has a staged value (R49). -/
def Hub.isStaged (h : Hub) (pid inst : Nat) : Bool :=
  h.ctl.txns.any (fun t => t.items.any (fun i => i.pid == pid && i.inst == inst)) || h.ctl.pairs.any (fun o => o.pid == pid && o.inst == inst)

/-! ## What a response shows of an item -/

/-- The value in force of an item as a response shows it: 0 for a WO parameter and for one that does not exist. -/
def Hub.showValue (h : Hub) (pid inst : Nat) : Nat :=
  match descOf pid with
  | none => 0
  | some d => if inst < d.first || d.count ≤ inst || d.access = .wo then 0 else h.pread pid inst % 2 ^ (8 * d.width)

/-- The items of a PARAM_SET response. -/
def Hub.setItems (h : Hub) (l : List (ParamItem × Status)) : List Byte :=
  l.flatMap (fun e => itemBytes e.1 e.2 (h.isStaged e.1.pid e.1.inst) (h.showValue e.1.pid e.1.inst))

/-! ## PARAM_GET (R49) -/

/-- One item of PARAM_GET: its outcome, its value, and what reading it changes. -/
def Hub.getItem (h : Hub) (pid inst : Nat) : Hub × Status × Nat :=
  match descOf pid with
  | none => (h, .badParam, 0)
  | some d =>
    if d.count ≤ inst then (h, .range, 0)
    else if inst < d.first || d.access = .wo then (h, .ok, 0)
    else
      let r := h.paramRead pid inst
      (r.2, .ok, r.1 % 2 ^ (8 * d.width))

/-- The items of PARAM_GET, each served on its own. -/
def Hub.getItems : List ParamItem → Hub → Hub × List Status × List Byte
  | [], h => (h, [], [])
  | i :: l, h =>
    let staged := h.isStaged i.pid i.inst
    let r := h.getItem i.pid i.inst
    let t := Hub.getItems l r.1
    (t.1, r.2.1 :: t.2.1, itemBytes i r.2.1 staged r.2.2 ++ t.2.2)

/-- PARAM_GET. -/
def Hub.paramGet (h : Hub) (r : Request) : Hub × Reply :=
  if !itemsGood r.payload then (h, .err .badParam)
  else
    let t := Hub.getItems (itemsOf r.payload) h
    (t.1, itemsReply t.2.1 t.2.2)

/-! ## PARAM_LIST (R51, R466) -/

/-- The code of an access. -/
def Access.code : Access → Nat
  | .rw => 0 | .ro => 1 | .w1c => 2 | .rc => 3 | .wo => 4 | .st => 5

/-- The DEFAULT of a descriptor: that of instance 0, and for CT_PROFILE that of the role. -/
def Hub.listDefault (h : Hub) (d : ParamDesc) : Nat := if d.pid = P.CT_PROFILE then b2n h.isHead else d.default 0

/-- A descriptor of PARAM_LIST. -/
def Hub.descBytes (h : Hub) (d : ParamDesc) : List Byte :=
  leBytes 2 d.pid ++ leBytes 2 d.count ++ [byte d.access.code, byte d.kept, byte d.width, byte d.pair] ++ leBytes 8 (h.listDefault d)

/-- PARAM_LIST. -/
def Hub.paramList (h : Hub) (r : Request) : Hub × Reply :=
  if !r.has 2 then (h, .err .badParam)
  else
    let l := allParams.filter (fun d => r.arg 0 2 ≤ d.pid)
    let ds := l.take 254
    let next := match (l.drop 254).head? with | some d => d.pid | none => 0xFFFF
    (h, .ok (leBytes 2 next ++ leBytes 2 ds.length ++ List.replicate 12 0#8 ++ ds.flatMap h.descBytes))

/-! ## PARAM_SET outside a transaction (R50, R52) -/

/-- What the items of one PARAM_SET come to: the first fields open after it, the values that apply, and for each item the first field's value
that a closing one is checked with. -/
structure Plan where
  opens  : List OpenPair
  apply  : List ParamItem
  firsts : List Nat
deriving DecidableEq, Repr

/-- The value of a first field that this command has applied already, or the one in force. -/
def Hub.planValue (h : Hub) (p : Plan) (pid inst : Nat) : Nat :=
  match p.apply.reverse.find? (fun i => i.pid == pid && i.inst == inst) with
  | some i => i.value
  | none => h.pget pid inst

/-- The next item: a first field opens its pair, a closing field closes it with the mailbox's own staged first field or the one in force. -/
def Hub.planItem (h : Hub) (mb : Nat) (p : Plan) (i : ParamItem) : Plan :=
  match mateOf i.pid 1, mateOf i.pid 2 with
  | some _, _ =>
    { p with opens := p.opens.filter (fun o => !(o.pid == i.pid && o.inst == i.inst)) ++ [⟨i.pid, i.inst, i.value, mb, h.clk.up⟩],
             firsts := p.firsts ++ [0] }
  | none, some f =>
    match p.opens.find? (fun o => o.pid == f && o.inst == i.inst && o.mb == mb) with
    | some o => { opens := p.opens.filter (fun x => !(x.pid == f && x.inst == i.inst)), apply := p.apply ++ [⟨f, i.inst, o.value⟩, i],
                  firsts := p.firsts ++ [o.value] }
    | none => { p with apply := p.apply ++ [i], firsts := p.firsts ++ [h.planValue p f i.inst] }
  | none, none => { p with apply := p.apply ++ [i], firsts := p.firsts ++ [0] }

/-- An item in the width of its parameter, or why it cannot be written. -/
def formOf (i : ParamItem) : Except Status ParamItem :=
  match paramForm i.pid i.inst i.value with
  | .ok x => .ok ⟨i.pid, i.inst, x⟩
  | .error s => .error s

/-- The plan of the well-formed items; the others take their place in `firsts` only. -/
def Hub.planAll (h : Hub) (mb : Nat) (l : List (Except Status ParamItem)) : Plan :=
  l.foldl (fun p e => match e with
    | .ok i => h.planItem mb p i
    | .error _ => { p with firsts := p.firsts ++ [0] }) ⟨h.ctl.pairs, [], []⟩

/-- The outcome of one item of a PARAM_SET outside a transaction. -/
def Hub.itemOutcome (h v : Hub) (mb : Nat) (e : Except Status ParamItem) (first : Nat) : Status :=
  match e with
  | .error s => s
  | .ok i =>
    (firstOf [h.ownRefusal v mb i.pid i.inst i.value, when_ (h.conflictsOutside mb i.pid i.inst) .conflict,
      if (mateOf i.pid 2).isSome then h.pairRefusal v i.pid i.inst first i.value else none]).getD .ok

/-- The outcomes of the items of a PARAM_SET outside a transaction, and its plan. -/
def Hub.setOutcomes (h : Hub) (mb : Nat) (items : List ParamItem) : List Status × Plan :=
  let forms := items.map formOf
  let p := h.planAll mb forms
  let v := h.overlay p.apply []
  ((forms.zip p.firsts).map (fun e => h.itemOutcome v mb e.1 e.2), p)

/-- The writes of a PARAM_SET outside a transaction: all of them as one commit, or none. -/
def Hub.writeParams (h : Hub) (mb : Nat) (items : List ParamItem) : Hub × List Status :=
  let r := h.setOutcomes mb items
  if r.1.all (fun s => s == .ok) then
    (({ h with ctl := { h.ctl with pairs := r.2.opens } } : Hub).applyChange ⟨r.2.apply, [], []⟩, r.1)
  else (h, r.1)

/-- PARAM_SET with TXN_ID 0. -/
def Hub.paramSetNow (h : Hub) (r : Request) : Hub × Reply :=
  if !itemsGood r.payload then (h, .err .badParam)
  else
    let items := itemsOf r.payload
    let w := h.writeParams r.mb items
    (w.1, itemsReply w.2 (w.1.setItems (items.zip w.2)))

/-- A single write of a parameter by a mailbox, as a command of its own. -/
def Hub.writeParam (h : Hub) (mb pid inst v : Nat) : Hub := (h.writeParams mb [⟨pid, inst, v⟩]).1

/-! ## Pair timeout (R53) -/

/-- An open first field is discarded MG_PAIR_TIMEOUT after its latest write. -/
def Hub.pairTimeout (h : Hub) (pid inst : Nat) : Hub :=
  match h.ctl.pairs.find? (fun o => o.pid == pid && o.inst == inst) with
  | none => h
  | some o =>
    let h := h.until (o.since + ms (h.pget P.MG_PAIR_TIMEOUT 0))
    let h := { h with ctl := { h.ctl with pairs := h.ctl.pairs.filter (fun x => !(x.pid == pid && x.inst == inst)) } }
    h.event .pairDiscarded [(0, 2, pid), (2, 2, inst)]

end Sys2Proof.Machine
end

