-- ==== Sys2Proof/Machine/Tables.lean ====
section
/-!
DEFINITION. The tables (R111 to R116): their sizes, what each refuses of a written entry, and TABLE_READ.
-/
namespace Sys2Proof.Machine

/-- Entry size in bytes and number of indexes of a table (R115); none for an unknown TABLE_ID. -/
def tableShape (t : Nat) : Option (Nat × Nat) :=
  if t = 0x01 || t = 0x02 then some (32, 1024)
  else if t = 0x10 || t = 0x11 then some (32, 64)
  else if t = 0x20 then some (16, 6656)
  else if t = 0x21 || t = 0x22 then some (16, 1024)
  else if t = 0x30 then some (8, 2048)
  else if t = 0x31 then some (48, 64)
  else if t = 0x40 then some (16, 64)
  else if t = 0x50 then some (8, 32)
  else none

/-- Entry size of a table. -/
def entrySize (t : Nat) : Nat := ((tableShape t).map (·.1)).getD 0

/-- The table has an entry at an index (R167 for the gap of table 0x20). -/
def tablePresent (t i : Nat) : Bool :=
  match tableShape t with
  | some (_, n) => i < n && !(t == 0x20 && 2560 ≤ i && i < 4096)
  | none => false

/-- An entry that no command writes: the tunnel state table, the active allotment tables. -/
def entryReadOnly (t i : Nat) : Bool := t == 0x02 || (t == 0x20 && 4096 ≤ i)

/-! ## Refusals of written entries -/

/-- The BINDING of a tunnel entry against its type's rules (R289, R298, R330): `v` is the view with the command's entries in it. -/
def Hub.bindingBad (h v : Hub) (i : Nat) (e : TEntry) : Bool :=
  if e.type = tEthernet then
    bits e.binding 12 2 = 3 || (bits e.binding 12 2 = 1 && (bits e.binding 0 12 = 0 || bits e.binding 0 12 = 4095))
  else if e.type = tUsb then
    bits e.binding 8 7 ≠ 0 || (bit e.binding 15 && !h.isHead) ||
      v.tuns.any (fun x => x.1 != i && x.2.valid && x.2.type == tUsb && bits x.2.binding 0 8 &&& bits e.binding 0 8 != 0)
  else if e.type = tDisplay then
    2 ≤ e.binding || (e.dir.receives && v.tuns.any (fun x =>
      x.1 != i && x.2.valid && x.2.type == tDisplay && x.2.dir.receives && x.2.binding == e.binding))
  else false

/-- Another valid entry has the same TID and would also receive it, or would also send it (R112). -/
def Hub.tidTaken (v : Hub) (i : Nat) (e : TEntry) : Bool :=
  v.tuns.any (fun x => x.1 != i && x.2.valid && x.2.tid == e.tid &&
    ((x.2.dir.receives && e.dir.receives) || (x.2.dir.sends && e.dir.sends)))

/-- Why a tunnel entry that sets VALID is refused (R112), or nothing. -/
def Hub.tunnelRefusal (h v : Hub) (i x : Nat) : Option Status :=
  let e := TEntry.ofNat x
  let reserved := bits x 12 9 + bits x 77 3 + bits x 85 3 + bits x 112 16 + bits x 128 128
  let key := (h.slotKey e.keySlot).isSome && bit (h.slot e.keySlot).policy 0
  if !e.valid then none
  else if reserved ≠ 0 || e.type = 7 || e.dir = .reserved || !classAllowed e.type e.cls || (h.idValid && e.peer == h.ownId) ||
      (e.mcast && e.dir == .both) || (e.mcast && e.dir == .tx && e.peer != 0xFFF) ||
      (e.peer == 0xFFF && !e.mcast && !(e.dir == .rx && anySource e.type)) || (e.enc && !key) || v.tidTaken i e || h.bindingBad v i e then
    some .badParam
  else if largestFrame e.type < e.maxFrame then some .range
  else none

/-- Why an allotment entry that sets VALID is refused (R168), or nothing. -/
def Hub.allotRefusal (v : Hub) (i x : Nat) : Option Status :=
  let e := AEntry.ofNat x
  let base := i / 256 * 256
  let others := (v.aents base).filter (fun y => base + y.1 != i)
  if !e.valid then none
  else if bits x 2 4 ≠ 0 || bits x 52 12 ≠ 0 || bits x 64 64 ≠ 0 || e.cls = 0 || (e.cls = 3 && e.allot ≠ 0) || 409600 < e.allot ||
      (e.byCls && e.tid ≠ 0) || others.any (fun y => !y.2.byCls && !e.byCls && y.2.tid == e.tid) ||
      others.any (fun y => y.2.byCls && e.byCls && y.2.cls == e.cls) then some .badParam
  else none

/-- Why a policer or shaper entry is refused (R177, R180), or nothing. -/
def Hub.bucketRefusal (v : Hub) (t i x : Nat) : Option Status :=
  let e := v.tun i
  if bits x 28 3 ≠ 0 || bits x 56 8 ≠ 0 || bits x 64 64 ≠ 0 || (bit x 31 && (bits x 0 28 = 0 || bits x 32 24 = 0)) ||
      (t == 0x22 && bit x 31 && e.valid && e.cls < 2) then some .badParam
  else none

/-- Why a detour entry that sets VALID is refused (R206), or nothing. -/
def detourRefusal (x : Nat) : Option Status :=
  if bit x 7 && (bits x 0 5 ≠ 0 || bits x 8 8 ≠ 0 || bits x 28 4 ≠ 0 || bits x 44 4 ≠ 0 || bits x 48 16 ≠ 0 || bits x 32 12 < bits x 16 12) then
    some .badParam
  else none

/-- Why a written entry is refused, or nothing: `v` is the view with the command's entries in it. -/
def Hub.entryRefusal (h v : Hub) (mb : Nat) (e : TableItem) : Option Status :=
  let t := e.table
  if entryReadOnly t e.index then some .denied
  else if t = 0x01 then h.tunnelRefusal v e.index e.value
  else if t = 0x10 then h.windowRefusal e.value
  else if t = 0x11 then h.regionRefusal mb e.index e.value
  else if t = 0x20 then v.allotRefusal e.index e.value
  else if t = 0x21 || t = 0x22 then v.bucketRefusal t e.index e.value
  else if t = 0x30 then v.vlanRefusal e.index e.value
  else if t = 0x31 then filterRefusal e.value
  else if t = 0x40 then v.bindingRefusal e.index e.value
  else if t = 0x50 then detourRefusal e.value
  else none

/-- A transaction other than `self` has locked a table entry (R57). -/
def Hub.entryLocked (h : Hub) (self table index : Nat) : Bool :=
  h.ctl.txns.any (fun t => t.id != self && t.entries.any (fun e => e.table == table && e.index == index))

/-- The first entry of a write that fails, with its table index (R116): `self` is the transaction that stages, 0 outside any.
An entry that no command writes is refused as the read-only table it belongs to, with no detail (R44, R116; log 30, DEDUCED). -/
def Hub.entriesRefusal (h v : Hub) (mb self : Nat) (es : List TableItem) : Option (Status × Nat) :=
  es.findSome? (fun e =>
    (firstOf [h.entryRefusal v mb e, when_ (h.entryLocked self e.table e.index) .conflict]).map
      (fun s => (s, if entryReadOnly e.table e.index then 0 else e.index)))

/-! ## The prefix of a table command (R115, R116) -/

/-- The refusals of the prefix: `more` is how many bytes follow it. -/
def tablePrefix (r : Request) (more : Nat → Nat → Nat) : Option (Status × Nat) :=
  let t := r.arg 0 1
  let i := r.arg 2 2
  let n := r.arg 4 2
  match tableShape t with
  | none => some (.badParam, 0)
  | some (size, _) =>
    if r.arg 1 1 ≠ 0 || r.arg 6 2 ≠ 0 || n = 0 || !r.has (8 + more n size) then some (.badParam, 0)
    else match (List.range n).find? (fun k => !tablePresent t (i + k)) with
      | some k => some (.range, i + k)
      | none => none

/-- A prefix names an entry that no command writes. -/
def readOnlyAt (r : Request) : Bool := (List.range (r.arg 4 2)).any (fun k => entryReadOnly (r.arg 0 1) (r.arg 2 2 + k))

/-- An entry as TABLE_READ returns it. -/
def Hub.entryValue (h : Hub) (t i : Nat) : Nat := if t = 0x02 then h.tunnelState i else h.tget t i

/-- TABLE_READ. -/
def Hub.tableRead (h : Hub) (r : Request) : Hub × Reply :=
  match tablePrefix r (fun _ _ => 0) with
  | some (s, d) => (h, .at s d)
  | none =>
    let t := r.arg 0 1
    let n := r.arg 4 2
    let size := entrySize t
    if 4080 < 8 + n * size then (h, .err .range)
    else
      (h, .ok (r.payload.take 6 ++ leBytes 2 size ++ (List.range n).flatMap (fun k => leBytes size (h.entryValue t (r.arg 2 2 + k)))))

/-- The entries that a payload writes, from an offset. -/
def entriesOf (t i n : Nat) (p : List Byte) : List TableItem :=
  (List.range n).map (fun k => ⟨t, i + k, le p (entrySize t * k) (entrySize t)⟩)

end Sys2Proof.Machine
end

