-- ==== Sys2Proof/Machine/Txn.lean ====
section
/-!
DEFINITION. Transactions (R54 to R63): staging, validation, commit now or at an instant, abort, timeout; and the table commands that may be
staged.
-/
namespace Sys2Proof.Machine

/-- Transactions changed. -/
def Hub.modTxns (h : Hub) (f : List Txn → List Txn) : Hub := { h with ctl := { h.ctl with txns := f h.ctl.txns } }

/-- The open or scheduled transaction of an ID. -/
def Hub.txn (h : Hub) (id : Nat) : Option Txn := h.ctl.txns.find? (fun t => t.id == id)

/-- The transaction a mailbox names: its own, open or scheduled. -/
def Hub.ownTxn (h : Hub) (mb id : Nat) : Option Txn := h.ctl.txns.find? (fun t => t.id == id && t.mb == mb)

/-- Bytes of table data staged. -/
def Txn.tableBytes (t : Txn) : Nat := (t.entries.map (fun e => entrySize e.table)).sum

/-- Bytes of the staging store taken (R56); a staged COUNTER_SELECT or PRESS_CONTROL takes none (DESIGN CHOICE: R56 sizes only parameter items and
table entries; log 124). -/
def Txn.storeBytes (t : Txn) : Nat := 16 * t.items.length + t.tableBytes

/-- A transaction leaves the list: its counts are kept among the last eight (R62). -/
def Hub.retire (h : Hub) (t : Txn) (committed : Bool) (at_ : Nat) : Hub :=
  { h with ctl := { h.ctl with txns := h.ctl.txns.filter (fun x => x.id != t.id),
                               doneTxns := keep 8 (⟨t.id, t.mb, committed, t.items.length, t.tableBytes, at_⟩ :: h.ctl.doneTxns) } }

/-! ## TXN_BEGIN and TXN_STATUS -/

/-- TXN_BEGIN (R56): one transaction a mailbox; the response's TXN_ID field carries the new ID (R39). -/
def Hub.txnBegin (h : Hub) (r : Request) : Hub × Reply :=
  if !r.has 0 then (h, .err .badParam)
  else if h.ctl.txns.any (fun t => t.mb == r.mb) then (h, .err .txnFull)
  else
    let id := h.ctl.nextTxn
    ({ h with ctl := { h.ctl with txns := h.ctl.txns ++ [⟨id, r.mb, none, [], [], [], h.clk.up⟩], nextTxn := id + 1 } }, .ok [])

/-- TXN_STATUS (R62). -/
def Hub.txnStatus (h : Hub) (r : Request) : Hub × Reply :=
  if !r.has 0 then (h, .err .badParam)
  else match h.ownTxn r.mb r.txn with
    | some t =>
      let s := match t.sched with | some s => (1, s.t) | none => (0, 0)
      (h, .ok ([byte s.1, byte t.mb] ++ leBytes 2 t.items.length ++ leBytes 4 t.tableBytes ++ leBytes 8 s.2))
    | none =>
      match h.ctl.doneTxns.find? (fun t => t.id == r.txn && t.mb == r.mb) with
      | some t =>
        (h, .ok ([byte (if t.committed then 2 else 3), byte t.mb] ++ leBytes 2 t.items ++ leBytes 4 t.bytes ++ leBytes 8 t.applied))
      | none => (h, .err .noTxn)

/-! ## Staging -/

/-- Staged items with new ones: an item staged again keeps one place, with the new value. -/
def addItem (l : List ParamItem) (i : ParamItem) : List ParamItem := l.filter (fun x => !(x.pid == i.pid && x.inst == i.inst)) ++ [i]

/-- Staged entries with new ones. -/
def addEntry (l : List TableItem) (e : TableItem) : List TableItem := l.filter (fun x => !(x.table == e.table && x.index == e.index)) ++ [e]

/-- A transaction with more staged. -/
def Txn.with_ (t : Txn) (ps : List ParamItem) (es : List TableItem) (cs : List StagedCmd) : Txn :=
  { t with items := ps.foldl addItem t.items, entries := es.foldl addEntry t.entries, cmds := t.cmds ++ cs }

/-- The transaction's limits and the shared store hold it (R56): 2,048 items, 128 KiB of table data, 256 KiB together. -/
def Hub.fits (h : Hub) (t : Txn) : Bool :=
  t.items.length ≤ 2048 && t.tableBytes ≤ 131072 &&
    t.storeBytes + ((h.ctl.txns.filter (fun x => x.id != t.id)).map Txn.storeBytes).sum ≤ 262144

/-- What is to be staged goes into the transaction, or does not fit. -/
def Hub.stage (h : Hub) (t : Txn) (ps : List ParamItem) (es : List TableItem) (cs : List StagedCmd) : Option Hub :=
  let n := t.with_ ps es cs
  if h.fits n then some (h.modTxns (fun l => l.map (fun x => if x.id = t.id then n else x))) else none

/-- A staged command of a transaction: the transaction must be open and the mailbox's own (R45, R55). -/
def Hub.inTxn (h : Hub) (r : Request) (f : Txn → Hub × Reply) : Hub × Reply :=
  match h.ownTxn r.mb r.txn with
  | none => (h, .err .noTxn)
  | some t => if t.sched.isSome then (h, .err .busy) else f t

/-- The view of the hub with a transaction's staging laid over it. -/
def Hub.viewOf (h : Hub) (t : Txn) : Hub := h.overlay t.items t.entries

/-- The outcome of one item of a PARAM_SET in a transaction: pairs are checked at the commit (R54). -/
def Hub.stageOutcome (h v : Hub) (mb id : Nat) (e : Except Status ParamItem) : Status :=
  match e with
  | .error s => s
  | .ok i => (firstOf [h.ownRefusal v mb i.pid i.inst i.value, when_ (h.conflictsInside id i.pid i.inst) .conflict]).getD .ok

/-- The well-formed items of a list. -/
def goodItems (l : List (Except Status ParamItem)) : List ParamItem := l.filterMap (fun e => match e with | .ok i => some i | .error _ => none)

/-- PARAM_SET in a transaction: every item is validated and answered whatever becomes of the command (R50). -/
def Hub.paramSetIn (h : Hub) (r : Request) : Hub × Reply :=
  if !itemsGood r.payload then (h, .err .badParam)
  else
    let items := itemsOf r.payload
    let forms := items.map formOf
    let good := goodItems forms
    let show_ := fun (g : Hub) (l : List Status) => g.setItems (items.zip l)
    match h.ownTxn r.mb r.txn with
    | none => (h, .done .noTxn 0 (show_ h (forms.map (h.stageOutcome (h.overlay good []) r.mb 0))))
    | some t =>
      let l := forms.map (h.stageOutcome (h.viewOf (t.with_ good [] [])) r.mb t.id)
      if t.sched.isSome then (h, .done .busy 0 (show_ h l))
      else if l.all (fun s => s == .ok) then
        match h.stage t good [] [] with
        | some g => (g, .ok (show_ g l))
        | none => (h, .done .txnFull 0 (show_ h l))
      else (h, itemsReply l (show_ h l))

/-- PARAM_SET. -/
def Hub.paramSet (h : Hub) (r : Request) : Hub × Reply := if r.txn = 0 then h.paramSetNow r else h.paramSetIn r

/-! ## Table writes (R116) -/

/-- Table entries are written by mailbox mb: as one commit outside a transaction, or staged in it. -/
def Hub.writeEntries (h : Hub) (mb id : Nat) (es : List TableItem) : Hub × Status × Nat :=
  match h.txn id with
  | none =>
    let v := h.overlay [] es
    match h.entriesRefusal v mb 0 es with
    | some (s, d) => (h, s, d)
    | none => (h.applyChange ⟨[], es, []⟩, .ok, 0)
  | some t =>
    let v := h.viewOf (t.with_ [] es [])
    match h.entriesRefusal v mb id es with
    | some (s, d) => (h, s, d)
    | none => match h.stage t [] es [] with
      | some g => (g, .ok, 0)
      | none => (h, .txnFull, 0)

/-- TABLE_WRITE. -/
def Hub.tableWrite (h : Hub) (r : Request) : Hub × Reply :=
  let run := fun (id : Nat) =>
    match tablePrefix r (fun n size => n * size) with
    | some (s, d) => (h, Reply.at s d)
    | none =>
      let w := h.writeEntries r.mb id (entriesOf (r.arg 0 1) (r.arg 2 2) (r.arg 4 2) (r.payload.drop 8))
      (w.1, if w.2.1 = .ok then .ok [] else .at w.2.1 w.2.2)
  if r.txn = 0 then run 0 else h.inTxn r (fun t => run t.id)

/-- TABLE_CLEAR: a long operation whose outcome, whatever it is, comes in STEP_DONE (R116). -/
def Hub.tableClear (h : Hub) (r : Request) : Hub × Reply := h.startOp r.mb r.cmd (.tableClear r.payload r.txn)

/-- TABLE_LOAD: a long operation whose outcome, whatever it is, comes in STEP_DONE (R116). -/
def Hub.tableLoad (h : Hub) (r : Request) : Hub × Reply := h.startOp r.mb r.cmd (.tableLoad r.payload r.txn r.entry)

/-- The entries of a TABLE_CLEAR or a TABLE_LOAD whose image has been read are written, or staged in the mailbox's open transaction. -/
def Hub.tableOutcome (h : Hub) (mb txn : Nat) (es : List TableItem) : Hub × Status × Nat :=
  if txn = 0 then h.writeEntries mb 0 es
  else match h.ownTxn mb txn with
    | none => (h, .noTxn, 0)
    | some t => if t.sched.isSome then (h, .busy, 0) else h.writeEntries mb txn es

/-- The outcome of a TABLE_CLEAR. -/
def Hub.clearOutcome (h : Hub) (mb : Nat) (p : List Byte) (txn : Nat) : Hub × Status × Nat :=
  let r : Request := ⟨mb, 0x0404, 0, txn, p, 1024⟩
  match tablePrefix r (fun _ _ => 0) with
  | some (s, d) => (h, s, d)
  | none => h.tableOutcome mb txn ((List.range (r.arg 4 2)).map (fun k => ⟨r.arg 0 1, r.arg 2 2 + k, 0⟩))

/-- The guard access that reads the image of a TABLE_LOAD (R116, R391): class 2 for a request of MB0, class 0 for another. -/
def Hub.loadAccess (h : Hub) (mb entry addr n : Nat) : GAccess :=
  if mb = 0 then ⟨0, addr, n, false, 2, entry, (h.tun entry).colour⟩ else ⟨0, addr, n, false, 0, 0, 0xFF⟩

/-- The outcome of a TABLE_LOAD. -/
def Hub.loadOutcome (h : Hub) (mb : Nat) (p : List Byte) (txn entry : Nat) : Hub × Status × Nat :=
  let r : Request := ⟨mb, 0x0403, 0, txn, p, entry⟩
  match tablePrefix r (fun _ _ => 16) with
  | some (s, d) => (h, s, d)
  | none =>
    let n := r.arg 4 2 * entrySize (r.arg 0 1)
    let at_ := h.memt (r.arg 8 8)
    if r.arg 20 4 ≠ 0 then (h, .badParam, 0)
    else if !h.inMemt (r.arg 8 8) n then (h, .range, 0)
    else if readOnlyAt r then (h, .denied, 0)
    else
      let g := h.guard (h.loadAccess mb entry at_ n) false
      if !g.2 then (g.1, .internal, Ev.guardViolation.code)
      else if crcMem g.1.dram at_ n ≠ r.arg 16 4 then (g.1, .authFail, 0)
      else g.1.tableOutcome mb txn (entriesOf (r.arg 0 1) (r.arg 2 2) (r.arg 4 2) (readMem g.1.dram at_ n))

end Sys2Proof.Machine
end

