-- ==== Sys2Proof/Machine/Commit.lean ====
section
/-!
DEFINITION. Commits (R58 to R62): validation, application at once or at an instant, abandoning; the ends of commits and of table commands; STEP_STATUS and
STEP_CANCEL (R66, R67); the drain rule (R406).
-/
namespace Sys2Proof.Machine

/-! ## Validation (R59) -/

/-- What a failed commit names: KIND, TABLE_ID, ID and INST. -/
structure Failing where
  status : Status
  kind   : Nat
  table  : Nat
  id     : Nat
  inst   : Nat
deriving DecidableEq, Repr

/-- The 8-byte payload that names the failing item. -/
def Failing.bytes (f : Failing) : List Byte := [byte f.kind, byte f.table] ++ leBytes 2 f.id ++ leBytes 2 f.inst ++ leBytes 2 0

/-- The answer of a failed commit. -/
def Failing.reply (f : Failing) : Reply := .done f.status f.id f.bytes

/-- The staged value of a field, or the one in force. -/
def Hub.valueIn (h : Hub) (items : List ParamItem) (pid inst : Nat) : Nat :=
  match items.find? (fun i => i.pid == pid && i.inst == inst) with
  | some i => i.value
  | none => h.pget pid inst

/-- A field has no value in force: it is WO. -/
def isWo (pid : Nat) : Bool := match descOf pid with | some d => d.access == .wo | none => false

/-- Why the pair of a staged field fails (R469): a first field alone, of a pair closed by a WO field, is not checked. -/
def Hub.pairFailing (h v : Hub) (items : List ParamItem) (i : ParamItem) : Option Failing :=
  let check := fun (f c : Nat) =>
    if isWo c && !items.any (fun x => x.pid == c && x.inst == i.inst) then none
    else (v.pairRefusal v c i.inst (h.valueIn items f i.inst) (h.valueIn items c i.inst)).map (fun s => (⟨s, 0, 0, c, i.inst⟩ : Failing))
  match mateOf i.pid 1, mateOf i.pid 2 with
  | some c, _ => check i.pid c
  | none, some f => check f i.pid
  | none, none => none

/-- The first failing item of a transaction, or nothing. -/
def Hub.failing (h : Hub) (t : Txn) : Option Failing :=
  let v := h.viewOf t
  let own := t.items.findSome? (fun i => (h.ownRefusal v t.mb i.pid i.inst i.value).map (fun s => (⟨s, 0, 0, i.pid, i.inst⟩ : Failing)))
  let pair := t.items.findSome? (h.pairFailing v t.items)
  let entry := t.entries.findSome? (fun e => (h.entryRefusal v t.mb e).map (fun s => (⟨s, 1, e.table, e.index, 0⟩ : Failing)))
  (own.orElse (fun _ => pair)).orElse (fun _ => entry)

/-- Why a staged COUNTER_SELECT or PRESS_CONTROL can no longer take effect, or nothing.  Such a failure is answered without the 8-byte payload,
which names only parameter items and table entries (DESIGN CHOICE, log 119). -/
def Hub.cmdFailing (h : Hub) (t : Txn) : Option Status :=
  t.cmds.findSome? (fun c => if c.code = 0x0903 then (h.selectRefusal c.payload).map (·.1) else h.pressRefusal c.payload)

/-! ## Application -/

/-- The scans of the heads that a commit touches: their boundary is a frame away (R60, R61). -/
def Hub.touchedScans (h : Hub) (t : Txn) : List WorkUnit :=
  ([0, 1].filter (fun d => (h.head d).scan.isSome && t.items.any (fun i => i.pid / 256 == 0x0C && (i.inst == d || i.pid == P.DS_CLONE)))).map .scan

/-- The USB transfers that have begun. -/
def Hub.xferUnits (h : Hub) : List WorkUnit :=
  (List.range 8).flatMap (fun p => ((h.usbp p).xfers.filter (·.started)).map (fun x => .xfer p x.entry x.id))

/-- The bridge accesses that have begun: parts of inbound requests, and accesses served here. -/
def Hub.accessUnits (h : Hub) : List WorkUnit :=
  h.br.out.map (fun o => .out o.tag) ++ h.br.targets.map (fun t => .served t.id) ++ h.br.held.map (fun p => .piece p.ap p.addr p.read p.part)

/-- The units under way that a commit touches (R60): begun under the old values, they end under them. -/
def Hub.touched (h : Hub) (t : Txn) : List WorkUnit :=
  h.touchedScans t ++
    (if t.items.any (fun i => i.pid / 256 == 0x09) || t.entries.any (fun e => e.table == 0x40) then h.xferUnits else []) ++
    (if t.items.any (fun i => i.pid / 256 == 0x07) || t.entries.any (fun e => e.table == 0x10) then h.accessUnits else [])

/-- A unit is still under way. -/
def Hub.runs (h : Hub) (u : WorkUnit) : Bool :=
  match u with
  | .scan d => (h.head d).scan.isSome
  | u => h.xferUnits.contains u || h.accessUnits.contains u

/-- The transaction's values are committed (R60). -/
def Hub.applyTxn (h : Hub) (t : Txn) : Hub := h.applyChange ⟨t.items, t.entries, t.cmds⟩

/-- The transaction applies and is COMMITTED; its locks are gone (R57, R60). -/
def Hub.commit (h : Hub) (t : Txn) : Hub :=
  let h := h.applyTxn t
  h.retire t true h.clk.ns

/-- TXN_APPLIED (R65). -/
def Hub.txnApplied (h : Hub) (id : Nat) : Hub :=
  let at_ := ((h.ctl.doneTxns.find? (fun t => t.id == id)).map (·.applied)).getD h.clk.ns
  h.notify .txnApplied 0 [(0, 4, id), (8, 8, at_)]

/-- A guard change was committed since `old`, and older accesses have not ended (R406). -/
def Hub.mustDrain (old h : Hub) : Bool :=
  let g := h.pget P.AG_GENERATION 0
  g != old.pget P.AG_GENERATION 0 && h.olderInFlight g

/-- A drain is owed to a mailbox. -/
def Hub.addDrain (h : Hub) (mb : Nat) (reply : Option DrainReply) : Hub :=
  h.modGuard (fun g => { g with drains := g.drains ++ [⟨h.pget P.AG_GENERATION 0, h.clk.up, mb, reply⟩] })

/-- A commit whose outcome a STEP_DONE reports owes it to the drain rule, if older accesses remain (R61, R406). -/
def Hub.drainStep (old h : Hub) (mb token cmd : Nat) : Hub :=
  if Hub.mustDrain old h then h.addDrain mb (some (.step token cmd)) else h

/-- The operation of a commit that started from `old` ends with OK, or waits for its drain. -/
def Hub.endCommit (old h : Hub) (o : LongOp) : Hub :=
  if Hub.mustDrain old h then Hub.drainStep old h o.mb o.token o.cmd else h.endOp o.token .ok 0 []

/-! ## TXN_COMMIT, TXN_COMMIT_AT -/

/-- A commit command of an open transaction of the mailbox (R45, R55). -/
def Hub.validated (h : Hub) (r : Request) (f : Txn → Hub × Reply) : Hub × Reply :=
  h.inTxn r (fun t =>
    match h.failing t, h.cmdFailing t with
    | some x, _ => (h, x.reply)
    | none, some s => (h, .err s)
    | none, none => f t)

/-- TXN_COMMIT (R61): IN_PROGRESS where a frame boundary has to come first, else OK once the units it touched are over. -/
def Hub.txnCommit (h : Hub) (r : Request) : Hub × Reply :=
  if !r.has 0 then (h, .err .badParam)
  else h.validated r (fun t =>
    let us := h.touched t
    if !(h.touchedScans t).isEmpty then
      match h.startOp r.mb r.cmd (.commit t.id us h.clk.ns) with
      | (g, .long k) => (Hub.drainStep h (g.commit t) r.mb k r.cmd, .long k)
      | x => x
    else if us.isEmpty then (h.commit t, .ok [])
    else (h.commit t, .held t.id us))

/-- TXN_COMMIT_AT. -/
def Hub.txnCommitAt (h : Hub) (r : Request) : Hub × Reply :=
  let at_ := r.arg 0 8
  if !r.has 8 then (h, .err .badParam)
  else h.validated r (fun t =>
    match h.timeRefusal at_ with
    | some s => (h, .err s)
    | none =>
      match h.startOp r.mb r.cmd (.scheduled t.id) with
      | (g, .long k) =>
        (g.modTxns (fun l => l.map (fun x => if x.id = t.id then { x with sched := some ⟨at_, boundaryAt at_, k⟩ } else x)), .long k)
      | x => x)

/-- A scheduled transaction that has applied is COMMITTED with the line time it applied, and its locks go (R54, R57). -/
def Hub.retireApplied (h : Hub) (id applied : Nat) : Hub :=
  match h.txn id with
  | some t => h.retire t true applied
  | none => h

/-- The instant of a mailbox's scheduled transaction is reached.  Its locks stay until STEP_DONE where a touched block has a unit to end
(R57, R61). -/
def Hub.scheduledApply (h : Hub) (mb : Nat) : Hub :=
  match h.ctl.txns.find? (fun t => t.mb == mb && t.sched.isSome) with
  | none => h
  | some t =>
    match t.sched, (t.sched.bind (fun s => h.op s.token)).map LongOp.work with
    | some s, some (.scheduled _) =>
      let old := h.untilLine s.instant
      let us := old.touched t
      let h := old.applyTxn t
      if !us.isEmpty || Hub.mustDrain old h then
        (Hub.drainStep old h t.mb s.token 0x0203).modOp s.token (fun o => { o with work := .commit t.id us h.clk.ns })
      else ((h.retire t true h.clk.ns).endOp s.token .ok 0 []).txnApplied t.id
    | _, _ => h

/-- A commit ends with its outcome: the transaction is COMMITTED, then STEP_DONE and TXN_APPLIED (R54, R65). -/
def Hub.finishCommit (h : Hub) (token id applied : Nat) (s : Status) : Hub :=
  ((h.retireApplied id applied).endOp token s 0 []).txnApplied id

/-- A drain still owes the outcome of a commit's operation (R406). -/
def Hub.drainOwes (h : Hub) (o : LongOp) : Bool := h.ag.drains.any (fun d => d.reply == some (.step o.token o.cmd))

/-- A commit that waited ends once every touched block has passed its boundary (R61), and its drain with it (R406). -/
def Hub.commitDone (h : Hub) (token : Nat) : Hub :=
  match h.op token with
  | some o =>
    match o.work with
    | .commit id us at_ => if (us.filter h.runs).isEmpty && !h.drainOwes o then h.finishCommit token id at_ .ok else h
    | _ => h
  | none => h

/-! ## The OK that a TXN_COMMIT owes (R61) -/

/-- The drain that owes the answer of mailbox mb reports in STEP_DONE instead. -/
def Hub.drainToStep (h : Hub) (mb token cmd : Nat) : Hub :=
  h.modGuard (fun g => { g with drains := g.drains.map (fun d =>
    match d.reply with
    | some (.message ..) => if d.mb = mb then { d with reply := some (.step token cmd) } else d
    | _ => d) })

/-- The drain rule owes the answer of mailbox mb (R406). -/
def Hub.drainAnswers (h : Hub) (mb : Nat) : Bool :=
  h.ag.drains.any (fun d => d.mb == mb && (match d.reply with | some (.message ..) => true | _ => false))

/-- An owed answer no longer stands. -/
def Hub.dropOwed (h : Hub) (mb : Nat) : Hub := { h with ctl := { h.ctl with owed := h.ctl.owed.filter (fun o => o.mb != mb) } }

/-- An owed OK: sent once its units are over, unless the drain rule still owes it; IN_PROGRESS when 1 ms has passed and an operation is free
(R61, R64). -/
def Hub.owedDue (h : Hub) (o : Owed) : Hub :=
  let us := o.units.filter h.runs
  if o.at_ + ms 1 < h.clk.up then
    match h.startOp o.mb 0x0202 (.commit o.txn us (((h.ctl.doneTxns.find? (fun t => t.id == o.txn)).map (·.applied)).getD 0)) with
    | (g, .long k) =>
      ((g.dropOwed o.mb).drainToStep o.mb k 0x0202).respond o.mb
        (message 0x0202 o.seq 9 o.txn Status.inProgress.code (leBytes 4 k)) o.entry
    | _ => h
  else if !us.isEmpty then h
  else if h.drainAnswers o.mb then h.dropOwed o.mb
  else (h.dropOwed o.mb).respond o.mb (message 0x0202 o.seq 5 o.txn Status.ok.code []) o.entry

/-- Units that are over stop holding the commits that touched them. -/
def Hub.settleCommits (h : Hub) : Hub := h.ctl.owed.foldl Hub.owedDue (h.keepUnits h.runs)

/-! ## Abandoning (R55) -/

/-- The instant of a schedule lies at least 50 µs ahead. -/
def Hub.canAbandon (h : Hub) (s : Schedule) : Bool := h.clk.ns + us 50 ≤ s.instant

/-- The transaction is discarded and its locks released; a scheduled one's operation ends with ABORTED. -/
def Hub.abandon (h : Hub) (t : Txn) : Hub :=
  let h := h.retire t false 0
  match t.sched with
  | some s => h.endOp s.token .aborted 0 []
  | none => h

/-- TXN_ABORT. -/
def Hub.txnAbort (h : Hub) (r : Request) : Hub × Reply :=
  if !r.has 0 then (h, .err .badParam)
  else match h.ownTxn r.mb r.txn with
    | none => (h, .err .noTxn)
    | some t =>
      match t.sched with
      | none => (h.abandon t, .ok [])
      | some s => if h.canAbandon s then (h.abandon t, .ok []) else (h, .err .busy)

/-- An OPEN transaction idle for MG_TXN_TIMEOUT is aborted. -/
def Hub.txnTimeout (h : Hub) (mb : Nat) : Hub :=
  match h.ctl.txns.find? (fun t => t.mb == mb && t.sched.isNone) with
  | none => h
  | some t =>
    let h := h.until (t.lastCmd + ms (h.pget P.MG_TXN_TIMEOUT 0))
    (h.abandon t).notify .txnExpired 0 [(0, 4, t.id)]

/-- MB_RESET (R38): unconsumed requests and undelivered messages go, the indices are 0, the mailbox's transaction is discarded where R55
allows it.  A response that a guard commit owes while it drains (R406) is no message yet and follows later (DESIGN CHOICE, log 120). -/
def Hub.mbReset (h : Hub) (m : Nat) : Hub :=
  let h := h.modMb m (fun b => { b with reqTail := 0, reqHead := 0, rspTail := 0, rspHead := 0, waiting := [], held := none, events := [], overflow := 0 })
  match h.ctl.txns.find? (fun t => t.mb == m) with
  | none => h
  | some t =>
    match t.sched with
    | none => h.abandon t
    | some s => if h.canAbandon s then h.abandon t else h

/-! ## Table commands end -/

/-- A long operation that wrote table entries ends with its outcome. -/
def Hub.endTable (old : Hub) (o : LongOp) (w : Hub × Status × Nat) : Hub :=
  if w.2.1 = .ok then Hub.endCommit old w.1 o else w.1.endOp o.token w.2.1 w.2.2 []

/-- The end of a TABLE_LOAD, whose read of its image waits for a fill of page colours that runs (R398). -/
def Hub.tableLoadDone (h : Hub) (token : Nat) : Hub :=
  match h.op token with
  | some o =>
    match o.work with
    | .tableLoad p txn entry =>
      let h := h.fillDone
      Hub.endTable h o (h.loadOutcome o.mb p txn entry)
    | _ => h
  | none => h

/-- The end of a TABLE_CLEAR. -/
def Hub.tableClearDone (h : Hub) (token : Nat) : Hub :=
  match h.op token with
  | some o =>
    match o.work with
    | .tableClear p txn => Hub.endTable h o (h.clearOutcome o.mb p txn)
    | _ => h
  | none => h

/-! ## Steps (R66, R67) -/

/-- STEP_STATUS; PERCENT of an operation that has finished reads 100, whatever its outcome (log 148). -/
def Hub.stepStatus (h : Hub) (r : Request) : Hub × Reply :=
  if !r.has 4 then (h, .err .badParam)
  else
    let k := r.arg 0 4
    match h.op k with
    | some o => (h, .ok ([0#8, byte o.percent, 0#8, 0#8] ++ leBytes 4 0))
    | none =>
      match h.ctl.doneOps.find? (fun o => o.token == k) with
      | some o => (h, .ok ([byte o.state, 100#8, 0#8, 0#8] ++ leBytes 4 o.status))
      | none => (h, .err .badParam)

/-- A power-state entry is cancelled: the state before it holds again, with what its stages had already done undone (log 150). -/
def Hub.cancelEntry (h : Hub) (token : Nat) : Hub :=
  if h.pw.armed = some token then h.disarmFold
  else if h.pw.state.entering && h.pw.token = token then
    let h := h.quiesceDue.showPins.entryUndo
    (h.toPState h.pw.prior).endOp token .aborted 0 []
  else h.endOp token .aborted 0 []

/-- What STEP_CANCEL does to a pending operation: it ends with ABORTED at its next step boundary (R67).  The NV or key write of an operation
is one command of its own, so a pending one is always before it.  A commit that only waits for its blocks' boundaries has applied already and
answers BUSY (DESIGN CHOICE: R67's table does not list it; log 117); a TABLE_LOAD or TABLE_CLEAR that only waits for its drain ends ABORTED with
its entries in force (log 149).  Where an entry's last switch has opened the operation is finished: OK, no effect. -/
def Hub.cancelOp (h : Hub) (o : LongOp) : Hub × Reply :=
  match o.work with
  | .commit .. => (h, .err .busy)
  | .scheduled id =>
    match h.txn id with
    | some t =>
      match t.sched with
      | some s => if h.canAbandon s then (h.abandon t, .ok []) else (h, .err .busy)
      | none => (h, .err .busy)
    | none => (h, .err .busy)
  | .bankLoad b .. | .bankCheck b => ((h.modBank b (fun k => { k with state := 1 })).endOp o.token .aborted 0 [], .ok [])
  | .power _ => (if h.pw.done.contains o.token then h else h.cancelEntry o.token, .ok [])
  | .fold => (h.foldEnd .aborted 0, .ok [])
  | .unfold => ((h.modPw (fun p => { p with unfold := none })).endOp o.token .aborted 0 [], .ok [])
  | .keyUpdate .. | .lifeCycle .. | .debugUnlock .. | .tableLoad .. | .tableClear .. | .fwData _ | .fwEnd _ => (h.endOp o.token .aborted 0 [], .ok [])

/-- STEP_CANCEL. -/
def Hub.stepCancel (h : Hub) (r : Request) : Hub × Reply :=
  if !r.has 4 then (h, .err .badParam)
  else
    let k := r.arg 0 4
    match h.op k with
    | some o => if o.mb ≠ r.mb then (h, .err .denied) else h.cancelOp o
    | none =>
      match h.ctl.doneOps.find? (fun o => o.token == k) with
      | some o => if o.mb ≠ r.mb then (h, .err .denied) else (h, .ok [])
      | none => (h, .err .badParam)

/-! ## Drains (R406) -/

/-- What a drain owes is answered: OK, or DRAIN_PENDING.  A commit that still waits for a frame boundary ends with it. -/
def Hub.answerDrain (h : Hub) (d : Drain) (done : Bool) : Hub :=
  match d.reply with
  | some (.message ok pending entry) =>
    if done && h.ctl.owed.any (fun o => o.mb == d.mb) then h else (h.dropOwed d.mb).respond d.mb (if done then ok else pending) entry
  | some .quiet => h
  | some (.step token _) =>
    let s := if done then Status.ok else .drainPending
    match (h.op token).map LongOp.work with
    | some (.commit i us at_) => if done && !(us.filter h.runs).isEmpty then h else h.finishCommit token i at_ s
    | _ => h.endOp token s 0 []
  | none => h

/-- AG_DRAIN_TIMEOUT passes: the drains that owe their answer say DRAIN_PENDING. -/
def Hub.drainTimeout (h : Hub) : Hub :=
  match h.ag.drains.find? (fun d => d.reply.isSome) with
  | none => h
  | some d =>
    let h := h.until (d.at_ + us (h.pget P.AG_DRAIN_TIMEOUT 0))
    let owed := fun (x : Drain) => x.reply.isSome && x.at_ + us (h.pget P.AG_DRAIN_TIMEOUT 0) ≤ h.clk.up
    let due := h.ag.drains.filter owed
    let h := h.modGuard (fun g => { g with drains := g.drains.map (fun x => if owed x then { x with reply := none } else x) })
    due.foldl (fun h d => h.answerDrain d false) h

/-- GUARD_DRAINED to one mailbox that was told DRAIN_PENDING, whatever its mask: the newest generation whose older accesses have all ended, and the
time since that generation's commit, or since the mailbox's own where that generation waited for nothing (log 164). -/
def Hub.tellDrained (h : Hub) (mb : Nat) (ds : List Drain) : Hub :=
  match (ds.filter (fun d => d.mb == mb && d.reply.isNone)).getLast? with
  | none => h
  | some d =>
    let newest := h.drainedGen
    let at_ := ((ds.find? (fun x => x.gen == newest)).map (·.at_)).getD d.at_
    let args := fields 16 [(0, 4, newest), (4, 4, (h.clk.up - at_) / 1000)]
    (h.lintRec Ev.guardDrained.code Ev.guardDrained.severity args false).placeEvent mb
      (h.eventBytes Ev.guardDrained.code Ev.guardDrained.severity 0 args)

/-- The last access of an older generation has ended: drains whose older accesses are gone answer OK where they owe it, and are told where they
said DRAIN_PENDING. -/
def Hub.drained (h : Hub) : Hub :=
  let over_ := h.ag.drains.filter (fun d => !h.olderInFlight d.gen)
  let h := h.modGuard (fun g => { g with drains := g.drains.filter (fun d => h.olderInFlight d.gen) })
  let h := (over_.filter (fun d => d.reply.isSome)).foldl (fun h d => h.answerDrain d true) h
  [0, 1, 2, 3].foldl (fun h m => h.tellDrained m over_) h

end Sys2Proof.Machine
end

