-- ==== Sys2Proof/Machine/Requests.lean ====
section
/-!
DEFINITION. How Horest serves a mailbox (R30 to R42, R45): which mailboxes it serves, the front request, the header's checks, the meaning
behind each command code, the answer.
-/
namespace Sys2Proof.Machine

/-! ## Commands of other chapters that may be staged, and the small ones of this chapter -/

/-- COUNTER_SELECT (R456), at once or staged. -/
def Hub.counterSelect (h : Hub) (r : Request) : Hub × Reply :=
  if r.txn = 0 then
    match h.selectRefusal r.payload with
    | some (s, d) => (h, .at s d)
    | none => ((h.selectApply r.payload).modMg (fun m => { m with dirty := true }), .ok [])
  else h.inTxn r (fun t =>
    match h.selectRefusal r.payload with
    | some (s, d) => (h, .at s d)
    | none => match h.stage t [] [] [⟨0x0903, r.payload⟩] with
      | some g => (g, .ok [])
      | none => (h, .err .txnFull))

/-- PRESS_CONTROL (R459), at once or staged; reading a record (OP 2) changes nothing and is served at once. -/
def Hub.pressControl (h : Hub) (r : Request) : Hub × Reply :=
  let now := fun (_ : Unit) =>
    match h.pressRefusal r.payload with
    | some s => (h, Reply.err s)
    | none => let g := h.pressApply r.payload; (g.1, .ok g.2)
  if r.txn = 0 then now ()
  else h.inTxn r (fun t =>
    if r.arg 0 1 = 2 then now ()
    else match h.pressRefusal r.payload with
      | some s => (h, .err s)
      | none => match h.stage t [] [] [⟨0x0904, r.payload⟩] with
        | some g => (g, .ok [])
        | none => (h, .err .txnFull))

/-- The payload of IDENTIFY (R46). -/
def Hub.identity (h : Hub) : List Byte :=
  leBytes 4 devId ++ leBytes 4 devRev ++ deviceId ++ leBytes 4 h.nodeInfo ++ leBytes 4 h.strapState ++ [byte h.lc, byte h.mg.running] ++
    leBytes 2 0 ++ leBytes 4 (if h.mg.romHold then 0 else imgVersion (h.fw h.mg.running).head) ++
    leBytes 8 (imgCounter (h.fw h.mg.running).head) ++ leBytes 4 h.globalStatus ++ List.replicate 12 0#8

/-- IDENTIFY. -/
def Hub.identify (h : Hub) (r : Request) : Hub × Reply := if r.has 0 then (h, .ok h.identity) else (h, .err .badParam)

/-- SYSTEM_RESET (R47): a warm reset within 10 ms; through MB0 it is a line reset. -/
def Hub.systemReset (h : Hub) (r : Request) : Hub × Reply :=
  if r.has 0 then (h.modPw (fun p => { p with resetDue := some (if r.mb = 0 then causeLine else causeSystem) }), .ok [])
  else (h, .err .badParam)

/-- ECHO (R47). -/
def Hub.echo (h : Hub) (r : Request) : Hub × Reply := (h, .ok r.payload)

/-- An unknown COMMAND (R40). -/
def Hub.unknown (h : Hub) (_r : Request) : Hub × Reply := (h, .err .badCommand)

/-- USB_PORT_CONTROL: the payload as `Config.usbPortControl` reads it (log 8). -/
def Hub.usbPortControl (h : Hub) (r : Request) : Hub × Reply :=
  match Config.usbPortControl r.payload with
  | none => (h, .err .badParam)
  | some (p, c) =>
    if 8 ≤ p then (h, .err .range)
    else
      let x := h.portCmd p c
      (x.1, if x.2 = 0 then .ok [] else .err .conflict)

/-! ## Which meaning a code has (R45) -/

/-- Commands by code. -/
def Hub.runCode (h : Hub) (r : Request) : Hub × Reply :=
  match r.cmd with
  | 0x0101 => h.identify r
  | 0x0102 => h.paramGet r
  | 0x0103 => h.paramSet r
  | 0x0104 => h.paramList r
  | 0x0105 => h.systemReset r
  | 0x0106 => h.echo r
  | 0x0201 => h.txnBegin r
  | 0x0202 => h.txnCommit r
  | 0x0203 => h.txnCommitAt r
  | 0x0204 => h.txnAbort r
  | 0x0205 => h.txnStatus r
  | 0x0301 => h.stepStatus r
  | 0x0302 => h.stepCancel r
  | 0x0401 => h.tableRead r
  | 0x0402 => h.tableWrite r
  | 0x0403 => h.tableLoad r
  | 0x0404 => h.tableClear r
  | 0x0501 => h.bankLoad r
  | 0x0502 => h.bankCheck r
  | 0x0503 => h.bankStatus r
  | 0x0504 => h.deLookup r
  | 0x0601 => h.keyUpdate r
  | 0x0602 => h.keyStatus r
  | 0x0603 => h.lcTransition r
  | 0x0604 => h.debugUnlock r
  | 0x0701 => h.fwBegin r
  | 0x0702 => h.fwData r
  | 0x0703 => h.fwEnd r
  | 0x0704 => h.fwActivate r
  | 0x0705 => h.fwStatus r
  | 0x0801 => h.pwrEnter r
  | 0x0802 => h.pwrStatus r
  | 0x0803 => h.lineFold r
  | 0x0804 => h.lineUnfold r
  | 0x0805 => h.fuseRetry r
  | 0x0901 => h.counterReadCmd r
  | 0x0902 => h.counterClear r
  | 0x0903 => h.counterSelect r
  | 0x0904 => h.pressControl r
  | 0x0A01 => h.logRead r
  | 0x0A02 => h.logClear r
  | 0x0A03 => h.sensorRead r
  | 0x0B01 => h.dsSignature r
  | 0x0B02 => h.dsClear r
  | 0x0C01 => h.usbPortControl r
  | 0x0C02 => h.tcControl r
  | 0x0C03 => h.tcStatus r
  | _ => h.unknown r

/-- A code of the command list. -/
def knownCode (c : Nat) : Bool :=
  [0x0101, 0x0102, 0x0103, 0x0104, 0x0105, 0x0106, 0x0201, 0x0202, 0x0203, 0x0204, 0x0205, 0x0301, 0x0302, 0x0401, 0x0402, 0x0403, 0x0404,
   0x0501, 0x0502, 0x0503, 0x0504, 0x0601, 0x0602, 0x0603, 0x0604, 0x0701, 0x0702, 0x0703, 0x0704, 0x0705, 0x0801, 0x0802, 0x0803, 0x0804,
   0x0805, 0x0901, 0x0902, 0x0903, 0x0904, 0x0A01, 0x0A02, 0x0A03, 0x0B01, 0x0B02, 0x0C01, 0x0C02, 0x0C03].contains c

/-- Commands that may carry a TXN_ID (R45): the staged ones and those that name a transaction. -/
def takesTxn (c : Nat) : Bool := [0x0103, 0x0402, 0x0403, 0x0404, 0x0903, 0x0904, 0x0202, 0x0203, 0x0204, 0x0205].contains c

/-- Commands that the boot ROM answers in ROM-hold (R437). -/
def romServes (c : Nat) : Bool := [0x0101, 0x0701, 0x0702, 0x0703, 0x0705, 0x0105].contains c

/-- Commands accepted in tamper-hold (R427): groups 0x01 and 0x0A, KEY_STATUS, LC_TRANSITION. -/
def holdServes (c : Nat) : Bool := c / 256 == 0x01 || c / 256 == 0x0A || c == 0x0602 || c == 0x0603

/-! ## Serving -/

/-- A response of mailbox m is owed by a commit (R61, R406). -/
def Hub.owes (h : Hub) (m : Nat) : Bool := h.drainAnswers m || h.ctl.owed.any (fun o => o.mb == m)

/-- Horest consumes requests of mailbox m, while its island runs (R30, R32, R33, R35, R41, R370, R437). -/
def Hub.mbServed (h : Hub) (m : Nat) : Bool :=
  h.pathExists m && bit (h.pget P.MG_MB_MASK 0) m && (!(m == 1 || m == 2) || (h.mb m).ringEn) &&
    h.running 10 && (h.mg.ready || (h.mg.romHold && 2 ≤ m)) && (!(h.strapFault || h.ky.hold) || 2 ≤ m) && (h.mb m).held.isNone && !h.owes m

/-- Requests that mailbox m holds unconsumed. -/
def Hub.waitingCount (h : Hub) (m : Nat) : Nat :=
  if m = 1 || m = 2 then ringUsed (h.mb m).reqTail (h.mb m).reqHead else (h.mb m).waiting.length

/-- Where a slot of the request ring lies: host memory for MB1, the window for MB2 (R36). -/
def Hub.slotAt (h : Hub) (m i : Nat) : Nat := (if m = 1 then (h.mb 1).base else 0x8000) + i % h.ringSize m * 4096

/-- The front request's bytes and the entry that delivered it. -/
def Hub.front (h : Hub) (m : Nat) : List Byte × Nat :=
  if m = 1 then (readMem h.hostMem (h.slotAt 1 (h.mb 1).reqHead) 4096, 1024)
  else if m = 2 then (readMem h.ctl.window (h.slotAt 2 (h.mb 2).reqHead) 4096, 1024)
  else match (h.mb m).waiting with
    | w :: _ => (w.bytes, w.entry)
    | [] => ([], 1024)

/-- A request is placed behind those that wait; a full ring takes none (R37). -/
def Hub.place (h : Hub) (m : Nat) (bs : List Byte) (entry : Nat) : Hub :=
  if m = 1 || m = 2 then
    if h.ringSize m ≤ h.waitingCount m then h
    else
      let a := h.slotAt m (h.mb m).reqTail
      let h := if m = 1 then { h with hostMem := writeMem h.hostMem a (bs.take 4096) }
        else { h with ctl := { h.ctl with window := writeMem h.ctl.window a (bs.take 4096) } }
      h.modMb m (fun b => { b with reqTail := (b.reqTail + 1) % 65536 })
  else h.modMb m (fun b => { b with waiting := b.waiting ++ [⟨bs, entry⟩] })

/-- The front request is consumed. -/
def Hub.pop (h : Hub) (m : Nat) : Hub :=
  h.modMb m (fun b => { b with waiting := b.waiting.drop 1, reqHead := (b.reqHead + 1) % 65536 })

/-- The command of a transaction starts its idle time anew (R55). -/
def Hub.touchTxn (h : Hub) (r : Request) : Hub :=
  if r.txn = 0 then h else h.modTxns (fun l => l.map (fun t => if t.id = r.txn && t.mb = r.mb then { t with lastCmd := h.clk.up } else t))

/-- A well-formed request is executed: by the given meaning, unless ROM-hold, tamper-hold or the TXN_ID rule of R45 says otherwise. -/
def Hub.execute (h : Hub) (r : Request) (body : Hub → Request → Hub × Reply) : Hub × Reply :=
  if h.mg.romHold && !romServes r.cmd then (h, .err .badCommand)
  else if h.ky.hold && !holdServes r.cmd then (h, .err .denied)
  else if r.txn ≠ 0 && knownCode r.cmd && !takesTxn r.cmd then (h, .err .badParam)
  else body (h.touchTxn r) r

/-- TXN_ID of a response (R39): the request's, or the new one of a TXN_BEGIN that succeeded. -/
def Hub.replyTxn (h : Hub) (r : Request) (s : Status) : Nat :=
  if r.cmd = 0x0201 && s = .ok then ((h.ctl.txns.find? (fun t => t.mb == r.mb)).map (·.id)).getD r.txn else r.txn

/-- The answer goes out (R39, R65); an OK of a guard commit waits for its drain (R406). -/
def Hub.sendReply (old h : Hub) (r : Request) (x : Reply) : Hub :=
  match x with
  | .held id us => 
    let g : Hub := { h with ctl := { h.ctl with owed := h.ctl.owed ++ [⟨r.mb, r.seq, id, r.entry, h.clk.up, us⟩] } }
    if Hub.mustDrain old h then g.addDrain r.mb (some (.message (message r.cmd r.seq 5 id Status.ok.code [])
      (message r.cmd r.seq 5 id Status.drainPending.code []) r.entry)) else g
  | .long t => h.respond r.mb (message r.cmd r.seq 9 r.txn Status.inProgress.code (leBytes 4 t)) r.entry
  | .done s d p =>
    let msg := fun (s : Status) => message r.cmd r.seq 5 (h.replyTxn r s) (s.code + d % 65536 * 65536) p
    if s = .ok && Hub.mustDrain old h then h.addDrain r.mb (some (.message (msg .ok) (msg .drainPending) r.entry))
    else h.respond r.mb (msg s) r.entry

/-- A repeat of the most recent request (R42). -/
def Hub.isRepeat (h : Hub) (m seq : Nat) : Bool :=
  (h.mb m).lastSeq == some seq && h.clk.up ≤ (h.mb m).lastAt + ms 100 && !(h.mb m).stored.isEmpty

/-- The header is malformed (R40). -/
def headerBad (m : Nat) (bs : List Byte) : Bool :=
  let fl := le bs 6 2
  bit fl 0 || bit fl 1 || 16 ≤ fl || 4080 < le bs 4 2 || (!(m == 1 || m == 2) && bs.length != 16 + le bs 4 2)

/-- A consumed message of at least 16 bytes is answered. -/
def Hub.answer (h : Hub) (m : Nat) (bs : List Byte) (entry : Nat) (body : Hub → Request → Hub × Reply) : Hub :=
  let seq := le bs 2 2
  let r : Request := ⟨m, le bs 0 2, seq, le bs 8 4, (bs.drop 16).take (le bs 4 2), entry⟩
  let again := h.isRepeat m seq
  let h := h.modMb m (fun b => { b with lastSeq := some seq, lastAt := h.clk.up })
  if again then h.respond m (h.mb m).stored entry
  else
    let h := h.modMb m (fun b => { b with stored := [] })
    if headerBad m bs then Hub.sendReply h h r (.err .badCommand)
    else
      let x := h.execute r body
      Hub.sendReply h x.1 r x.2

/-- A message of another hub's MB0 that reaches a head's LINE_FOLD is heard, not answered (R384). -/
def Hub.isFoldNews (h : Hub) (m : Nat) (bs : List Byte) : Bool := m == 0 && h.pw.fold.isSome && (bit (le bs 6 2) 0 || bit (le bs 6 2) 1)

/-- The front request of a served mailbox is consumed and answered by the given meaning; fewer than 16 bytes are discarded and counted
(R494). -/
def Hub.serveOne (h : Hub) (m : Nat) (body : Hub → Request → Hub × Reply) : Hub :=
  if !h.mbServed m || h.waitingCount m = 0 then h
  else
    let f := h.front m
    if f.1.length < 16 then (h.modMb m (fun b => { b with waiting := b.waiting.drop 1 })).bump P.MG_MSG_SHORT m
    else if h.isFoldNews m f.1 then (h.pop m).foldHears (h.tun f.2).peer f.1
    else (h.pop m).answer m f.1 f.2 body

/-- One waiting request of each mailbox is served, by its code (R31, R64). -/
def Hub.serveTurn (h : Hub) : Hub := [0, 1, 2, 3].foldl (fun h m => h.serveOne m Hub.runCode) h

/-- One request of mailbox m is served, then one of each other mailbox in turn. -/
def Hub.serveRound (h : Hub) (m : Nat) : Hub := [m, m + 1, m + 2, m + 3].foldl (fun h k => h.serveOne (k % 4) Hub.runCode) h

/-- Up to n requests of a mailbox are served in order, with one request of each other mailbox between two of them (R31). -/
def Hub.serveN : Nat → Nat → Hub → Hub
  | 0, _, h => h
  | n + 1, m, h => Hub.serveN n m (h.serveRound m)

/-- Horest examines mailbox m and serves what waits there, the mailboxes in turn. -/
def Hub.examine (h : Hub) (m : Nat) : Hub := Hub.serveN (h.waitingCount m) m h

/-- A request that finds I-MGMT without its clock: on MB0 its frame waits in the Data Seam, elsewhere a pulse asks for the clock (R369, R370). -/
def Hub.placeHeld (h : Hub) (m : Nat) (bs : List Byte) (entry : Nat) : Hub :=
  if m = 0 then h.modSeam 9 (fun c => c.put (seamDepth 9) ⟨bs, entry⟩)
  else (h.place m bs entry).modSeam (bellCrossing m) Crossing.pulse

/-- A request of a command reaches its mailbox and is consumed, after those that wait before it, by that command's meaning. -/
def Hub.request (h : Hub) (code : Nat) (q : Req) (body : Hub → Request → Hub × Reply) : Hub :=
  let h := (if q.time = 0 then h else h.untilLine q.time).examine q.mb
  let bs := leBytes 2 code ++ leBytes 2 q.seq ++ leBytes 2 q.length ++ leBytes 2 q.flags ++ leBytes 4 q.txn ++ leBytes 4 q.status ++ q.payload
  let alone := h.waitingCount q.mb = 0
  if h.clockGated 10 then h.placeHeld q.mb bs q.entry
  else
    let h := h.place q.mb bs q.entry
    if alone then h.serveOne q.mb body else h

/-- A request whose payload byte at offset o is v: a row that names one OP, MODE or ACTION of a command. -/
def force (q : Req) (o v : Nat) : Req := { q with payload := modAt q.payload o (fun _ => byte v) }

/-- A frame of MB0 or a transfer of MB3 with fewer than 16 bytes (R494). -/
def Hub.shortMessage (h : Hub) (m n : Nat) : Hub :=
  if m = 0 || m = 3 then
    let h := (h.examine m)
    let alone := h.waitingCount m = 0
    let h := h.place m (List.replicate (min n 15) 0#8) 1024
    if alone then h.serveOne m Hub.unknown else h
  else h

end Sys2Proof.Machine
end

