-- ==== Sys2Proof/Machine/Registers.lean ====
section
/-!
DEFINITION. The host register block (R34 to R38): what each register reads as and what writing it does.
-/
namespace Sys2Proof.Machine

/-- The register block of a mailbox that an offset lies in, and the register in it. -/
def mbOffset (o : Nat) : Option (Nat × Nat) := if 0x100 ≤ o && o < 0x200 then some ((o - 0x100) / 0x40, (o - 0x100) % 0x40) else none

/-- A mailbox whose ring registers are the host's: MB1 and MB2 (R36). -/
def hasRing (m : Nat) : Bool := m == 1 || m == 2

/-- MB_CTRL: RING_ORDER, fixed at 2 for MB2, and RING_EN. -/
def Hub.mbCtrl (h : Hub) (m : Nat) : Nat := (if m = 2 then 2 else (h.mb m).ringOrder) * 16 + b2n (h.mb m).ringEn

/-- A register of mailbox m. -/
def Hub.mbRegister (h : Hub) (m o : Nat) : Nat :=
  let b := h.mb m
  if o = 0x00 then h.mbCtrl m
  else if o = 0x04 then (if hasRing m then b.base % 2 ^ 32 else 0)
  else if o = 0x08 then (if hasRing m then b.base / 2 ^ 32 else 0)
  else if o = 0x0C then (if hasRing m then b.reqTail else 0)
  else if o = 0x10 then b.reqHead
  else if o = 0x14 then b.rspTail
  else if o = 0x18 then (if hasRing m then b.rspHead else 0)
  else 0

/-- What a register reads as, apart from the latch of LTIME_NS_LO. -/
def Hub.register (h : Hub) (o : Nat) : Nat :=
  let r := h.ctl.regs
  if o % 4 ≠ 0 || 0x10000 ≤ o then 0
  else if 0x8000 ≤ o then le (readMem h.ctl.window o 4) 0 4
  else match mbOffset o with
    | some (m, k) => h.mbRegister m k
    | none =>
      if o = 0x00 then devId
      else if o = 0x04 then devRev
      else if o = 0x08 then h.strapState
      else if o = 0x0C then h.nodeInfo
      else if o = 0x10 then h.globalStatus
      else if o = 0x14 then r.intStatus
      else if o = 0x18 then r.intMask
      else if o = 0x20 then h.clk.ns % 2 ^ 32
      else if o = 0x24 then r.ltHi
      else if o = 0x28 then r.ltFrac
      else if o = 0x2C then r.heartbeat
      else if o = 0x30 then h.pairPending
      else if o = 0x34 then r.scratch
      else 0

/-- Reading LTIME_NS_LO latches the rest of line time. -/
def Hub.ltimeLatch (h : Hub) : Hub := h.modRegs (fun r => { r with ltHi := h.clk.ns / 2 ^ 32 % 2 ^ 32, ltFrac := h.clk.frac % 65536 })

/-- A register read. -/
def Hub.readRegister (h : Hub) (o : Nat) : Nat × Hub := (h.register o, if o = 0x20 then h.ltimeLatch else h)

/-- RSP_HEAD written: slots are free for what waits (R43). -/
def Hub.writeRspHead (h : Hub) (m v : Nat) : Hub :=
  if hasRing m then h.modMb m (fun b => { b with rspHead := v % 65536 }) else h

/-- One round of a pulse that I-MGMT sees: Horest examines the mailbox, the acknowledge returns. -/
def Hub.bellRound (h : Hub) (m : Nat) : Hub :=
  if (h.seam (bellCrossing m)).toggle then (h.modSeam (bellCrossing m) Crossing.ack).examine m else h

/-- The items, pulses and counts that wait for I-MGMT reach it while its clock runs (R364, R365, R366, R370). -/
def Hub.seamFlow (h : Hub) : Hub :=
  if h.running 10 && ([9, 13, 14, 17].any (fun x => (h.seam x).waits) || h.ctl.regs.late != 0) then
    let c := h.seam 9
    let h := (h.modSeam 9 (fun c => { c with items := [], behind := [] })).modMb 0 (fun b => { b with waiting := b.waiting ++ c.items ++ c.behind })
    let h := [9, 13, 14, 17].foldl (fun h x => h.modSeam x (fun c => { c with raised := c.raised.take })) h
    let h := if h.ctl.regs.late = 0 then h else (h.raiseNow h.ctl.regs.late).modRegs (fun r => { r with late := 0 })
    [0, 1, 2, 3, 0, 1, 2, 3].foldl Hub.bellRound h
  else h

/-- A doorbell, or the look at a ring that MB_RESET and RING_EN ask for (R369): a pulse towards I-MGMT, lost while that is off or in reset (R371). -/
def Hub.ring (h : Hub) (m : Nat) : Hub :=
  if (h.island 10).powered && !(h.island 10).inReset then (h.modSeam (bellCrossing m) Crossing.pulse).seamFlow else h

/-- MB_CTRL written. -/
def Hub.writeMbCtrl (h : Hub) (m v : Nat) : Hub :=
  let h := h.modMb m (fun b => { b with ringOrder := if m = 2 then 2 else bits v 4 4, ringEn := bit v 0 })
  let h := if bit v 1 then h.mbReset m else h
  if bit v 1 || bit v 0 then h.ring m else h

/-- A register of mailbox m written. -/
def Hub.writeMbRegister (h : Hub) (m o v : Nat) : Hub :=
  if o = 0x00 then h.writeMbCtrl m v
  else if o = 0x1C then h.ring m
  else if !hasRing m then h
  else if o = 0x04 then h.modMb m (fun b => { b with base := b.base / 2 ^ 32 * 2 ^ 32 + v / 4096 * 4096 })
  else if o = 0x08 then h.modMb m (fun b => { b with base := v * 2 ^ 32 + b.base % 2 ^ 32 })
  else if o = 0x0C then h.modMb m (fun b => { b with reqTail := v % 65536 })
  else if o = 0x18 then h.writeRspHead m v
  else h

/-- INT_STATUS bits cleared by writing 1 (R35). -/
def Hub.intClear (h : Hub) (m : Nat) : Hub := h.modRegs (fun r => { r with intStatus := r.intStatus - (r.intStatus &&& m) })

/-- A register written with a 32-bit value; offsets that the map does not list take nothing.  INT_MASK holds all of bits 15 to 0 as written: that
bits 0, 3, 4 and 7 read 0 is read as a rule about INT_STATUS (R35; DEDUCED, log 122). -/
def Hub.writeRegister (h : Hub) (o v : Nat) : Hub :=
  let v := v % 2 ^ 32
  if o % 4 ≠ 0 || 0x10000 ≤ o then h
  else if 0x8000 ≤ o then { h with ctl := { h.ctl with window := writeMem h.ctl.window o (leBytes 4 v) } }
  else match mbOffset o with
    | some (m, k) => h.writeMbRegister m k v
    | none =>
      if o = 0x14 then h.intClear v
      else if o = 0x18 then h.modRegs (fun r => { r with intMask := v % 65536 })
      else if o = 0x1C then h.raise v
      else if o = 0x34 then h.modRegs (fun r => { r with scratch := v })
      else h

end Sys2Proof.Machine
end

