-- ==== Sys2Proof/Machine/Settle.lean ====
section
/-!
DEFINITION. What follows every command at once because it depends only on the state it leaves: tail, the guard's rules, detours, sources of line
time, purges, waiting frames, edges, parked ports, INT_N, messages that can now leave.  And how a command's meaning becomes a step.
-/
namespace Sys2Proof.Machine

/-- TAIL_CHANGE. -/
def Hub.setTail (h : Hub) (b : Bool) : Hub := (h.modRail (fun r => { r with tail := b })).event .tailChange [(0, 1, b2n b)]

/-- A node's tail mark (R92): set at once when L1 leaves UP while L0 is UP, cleared when L1 is UP. -/
def Hub.settleTail (old h : Hub) : Hub :=
  if h.rl.tail then (if h.portUp 1 then h.setTail false else h)
  else if !h.isHead && old.portUp 1 && !h.portUp 1 && h.portUp 0 then h.setTail true
  else h

/-- Rails: detours, purges of outputs that serve nothing, the source of line time (R200 to R205, R216). -/
def Hub.settleRails (h : Hub) : Hub := [0, 1, 2].foldl Hub.purge ((([0, 1].foldl Hub.settleDetour h)).settleTime)

/-- Blocks that watch the state: edges, imprecise refusals, PE_PERST_N, service port, host rings, displays, VBUS, folds. -/
def Hub.settleBlocks (h : Hub) : Hub :=
  let h := (List.range 8).foldl Hub.usbLevel h.seamFlow.edgesDue.tellImprecise.perstEnd.svcLevel.hostIntake.dsLevel
  ([0, 1, 2, 3].foldl (fun h n => (h.tcDebugLevel n).vbusLevel n) h).foldSettle.unfoldSettle

/-- Capabilities that have to be offered anew (R322). -/
def Hub.settleOffers (old h : Hub) : Hub := [0, 1, 2, 3].foldl (Hub.tcWatch old) h

/-- What follows a command at once. -/
def Hub.settle (old h : Hub) : Hub :=
  let h := (Hub.settleTail old h.afterStep).guardDue.settleCommits.quiesceDue.settleRails.releaseWaiting.noteWaits.clocks.levels
  Hub.padsOut old (Hub.settleOffers old h).settleBlocks.flush.intPin

/-- A command with the meaning f: a next state, the queue untouched. -/
def State.run (f : Hub → Hub) (s : State) : Host.Outcome State Fault Refusal := .next { s with hub := Hub.settle s.hub (f s.hub) }

end Sys2Proof.Machine
end

