-- ==== Sys2Proof/Machine/CellCmds.lean ====
section
/-!
DEFINITION. The meanings of the commands of chapters 04 and 05: cells, tunnels, outputs and credit.
-/
namespace Sys2Proof.Machine

/-- A checked cell arrives on a line or twin port (R119, R140, R142): an epoch cell goes to the allotment logic, any other where the express
decision says. -/
def Hub.lineCell (h : Hub) (p : Nat) (c : Cell) : Hub :=
  if !h.portUp p || 6 ≤ c.kind then h
  else
    let h := (h.takeCell p c).countIn p c
    h.arriving p c (fun h => if c.kind = 5 then h.epochArrive p c else h.routeCell p c)

/-- A cell that the tunnel layer has taken meets the receive side of an entry (R120, R128, R130); a hub that terminates no tunnel has none
(R210). -/
def Hub.receiveAt (h : Hub) (i : Nat) (c : Cell) : Hub :=
  let e := h.tun i
  if h.tunnels && e.valid && e.dir.receives then h.receive i e c else h.bump P.TN_NO_TUNNEL 0

/-- A frame delivered to EN or US has no room there: the transmit FIFO of its port with the frames already delivered for it (R290), or the
completion ring (R300). -/
def Hub.overfull (h : Hub) (o : Nat) (f : Frame) : Bool :=
  if o = 4 then
    let p := bits (h.tun f.entry).binding 14 2
    let mine := h.inbox.filter (fun x => x.1 == 4 && bits (h.tun x.2.entry).binding 14 2 == p)
    (h.ethp p).up && f.bytes.length ≤ h.pget P.EN_MAX_FRAME p && ethTxSize < (h.ethp p).fifo + (mine.map (·.2.bytes.length)).sum
  else if o = 5 && h.hostEntry f.entry && !f.control && h.pget P.US_RING_ORDER 0 ≠ 0 && h.works usbIsland then
    let waiting := (h.inbox.filter (fun x => x.1 == 5 && h.hostEntry x.2.entry && !x.2.control)).length
    h.hostRing.2 < (h.ringIndex 8 + 2 ^ 32 - h.ringIndex 12) % 2 ^ 32 + waiting
  else false

/-- The tunnel layer takes the oldest cell of a delivery queue, unless that would deliver a frame for which EN or US has no room: such a frame
waits in its delivery queue (R147, R290, R300; log 168).  A Seam whose far island is in reset refuses what waits there (R371). -/
def Hub.takeTurn (h : Hub) (o cls : Nat) : Hub :=
  if 4 ≤ o && (h.island (outIsland o)).inReset then h else
  let g := h.tunnelTake o cls
  if (g.inbox.drop h.inbox.length).any (fun x => g.overfull x.1 x.2) then h else g

/-- The clock reaches the instant at which the shaper of an entry holds more than 0 tokens (R180); the frames that waited for it follow
with every other that can leave. -/
def Hub.shaperDue (h : Hub) (i : Nat) : Hub :=
  let e := h.tun i
  if h.shaperOpen i e then h
  else
    let (_, r, b) := rateOf (h.tget 0x22 i)
    let lack := (mget ⟨0, 0⟩ h.tn.shape i).lackNow r h.clk.up
    if r = 0 then h else h.advance ((lack - b * bucketUnit) / r + 1)

/-- The oldest entry of a buffer's discard table reaches TN_REASM_TIMEOUT and is removed (R162 rule 4). -/
def Hub.discardExpire (h : Hub) (buf : Nat) : Hub :=
  match nth h.sw.discard buf [] with
  | [] => h
  | k :: _ =>
    let h := h.until (k.at_ + us (h.pget P.TN_REASM_TIMEOUT 0))
    { h with sw := { h.sw with discard := modAt h.sw.discard buf (fun t => t.drop 1) } }

/-! ## Cells and tunnels -/

/-- LINE_CELL_RX (R139, R140). -/
def execLineCellRx (port : Nat) (cell : Cell) (s : State) : Host.Outcome State Fault Refusal := s.run (fun h => h.lineCell port cell)

/-- TUNNEL_CELL_RX (R120 to R122, R147). -/
def execTunnelCellRx (out : Nat) (cls : Nat) (s : State) : Host.Outcome State Fault Refusal := s.run (fun h => h.takeTurn out cls)

/-- RESYNC_RX (R130). -/
def execResyncRx (entry : Nat) (cell : Cell) (s : State) : Host.Outcome State Fault Refusal := s.run (fun h => h.receiveAt entry cell)

/-- TUNNEL_CONTROL_RX (R128). -/
def execTunnelControlRx (entry : Nat) (cell : Cell) (s : State) : Host.Outcome State Fault Refusal := s.run (fun h => h.receiveAt entry cell)

/-- GAP_WAIT_EXPIRE (R123). -/
def execGapWaitExpire (entry : Nat) (src : Nat) (s : State) : Host.Outcome State Fault Refusal := s.run (fun h => h.gapExpire entry src)

/-- REASM_TIMEOUT (R126). -/
def execReasmTimeout (entry : Nat) (src : Nat) (s : State) : Host.Outcome State Fault Refusal := s.run (fun h => h.reasmTimeout entry src)

/-- FRAME_SEND (R118, R153, R176). -/
def execFrameSend (out : Nat) (entry : Nat) (bytes : List Byte) (counted : Nat) (s : State) : Host.Outcome State Fault Refusal :=
  s.run (fun h => h.frameSend out entry false bytes counted)

/-- SHAPER_RELEASE (R180). -/
def execShaperRelease (entry : Nat) (s : State) : Host.Outcome State Fault Refusal := s.run (fun h => h.shaperDue entry)

/-- DISCARD_ENTRY_EXPIRE (R162). -/
def execDiscardEntryExpire (buf : Nat) (s : State) : Host.Outcome State Fault Refusal := s.run (fun h => h.discardExpire buf)

/-! ## Outputs and credit -/

/-- OUTPUT_CELL_SEND (R165 to R172). -/
def execOutputCellSend (out : Nat) (s : State) : Host.Outcome State Fault Refusal := s.run (fun h => (h.sendOne out).1)

/-- CREDIT_TX (R155, R156). -/
def execCreditTx (port : Nat) (s : State) : Host.Outcome State Fault Refusal := s.run (fun h => h.creditTx port)

/-- CREDIT_RX (R158). -/
def execCreditRx (port : Nat) (cls : Nat) (limit : Nat) (s : State) : Host.Outcome State Fault Refusal := s.run (fun h => h.creditRx port cls limit)

/-- CREDIT_STALL (R160). -/
def execCreditStall (port : Nat) (cls : Nat) (s : State) : Host.Outcome State Fault Refusal := s.run (fun h => h.creditStall port cls)

end Sys2Proof.Machine
end

