-- ==== Sys2Proof/Machine/AllotCmds.lean ====
section
/-!
DEFINITION. The meanings of the commands of chapter 06: allotments, epochs and the budget governor.
-/
namespace Sys2Proof.Machine

/-- The instant of an armed boundary is reached: what REST entry has done by then is done (R382). -/
def Hub.reachBoundary (h : Hub) : Hub :=
  match (if h.synced then h.al.armed else none) with
  | none => h
  | some a => (h.untilLine a.boundary).quiesceDue

/-- The armed boundary (R185, R186): tables exchange as the flags say, EPOCH_APPLIED is delivered.  A hub that is not synchronised holds
its epoch; REST entry has disarmed it. -/
def Hub.epochSwap (h : Hub) : Hub :=
  let h := h.reachBoundary
  match (if h.synced then h.al.armed else none) with
  | none => h
  | some a =>
    let h := h.disarm.reload
    let h := if a.allot then h.swapAllot else h
    let h := if a.decision then h.bankSwap a.plan a.boundary else h
    let h := (h.pset P.AL_EPOCH_APPLIED 0 a.id).pset P.AL_EPOCH_APPLIED_TIME 0 a.boundary
    (h.event .epochApplied [(0, 4, a.id), (4, 1, epochFlags a.allot a.decision), (8, 8, a.boundary)]).stepDue

/-! ## Allotments and epochs -/

/-- ALLOT_BOUNDARY (R173). -/
def execAllotBoundary (s : State) : Host.Outcome State Fault Refusal := s.run (fun h => h.cycleBoundary)

/-- EPOCH_ARM (R181). -/
def execEpochArm (mb : Nat) (v : Nat) (s : State) : Host.Outcome State Fault Refusal := s.run (fun h => h.writeParam mb P.AL_EPOCH_ARM 0 v)

/-- EPOCH_COPY_TX (R182). -/
def execEpochCopyTx (s : State) : Host.Outcome State Fault Refusal := s.run (fun h => h.epochCopy)

/-- EPOCH_CANCEL (R187). -/
def execEpochCancel (mb : Nat) (id : Nat) (s : State) : Host.Outcome State Fault Refusal := s.run (fun h => h.writeParam mb P.AL_EPOCH_CANCEL 0 id)

/-- EPOCH_RX (R183 to R185). -/
def execEpochRx (port : Nat) (cell : Cell) (s : State) : Host.Outcome State Fault Refusal := s.run (fun h => h.lineCell port cell)

/-- EPOCH_CANCEL_RX (R185). -/
def execEpochCancelRx (port : Nat) (cell : Cell) (s : State) : Host.Outcome State Fault Refusal := s.run (fun h => h.lineCell port cell)

/-- EPOCH_SWAP (R185, R186). -/
def execEpochSwap (s : State) : Host.Outcome State Fault Refusal := s.run (fun h => h.epochSwap)

/-! ## Budget governor -/

/-- GOV_EVALUATE (R189), with the estimated power; the gradients of R374 are compared first. -/
def execGovEvaluate (power : Nat) (s : State) : Host.Outcome State Fault Refusal := s.run (fun h => h.gradientStep.govEvaluate power)

/-- GOV_DWELL_EXPIRE (R190). -/
def execGovDwellExpire (s : State) : Host.Outcome State Fault Refusal := s.run (fun h => h.govDwell)

end Sys2Proof.Machine
end

