-- ==== Sys2Proof/Machine/BootCmds.lean ====
section
/-!
DEFINITION. The meanings of the commands of chapter 19: boot, configuration store, firmware, Lint and sensors.
-/
namespace Sys2Proof.Machine

/-! ## Boot -/

/-- BOOT_ROM_START (R438). -/
def execBootRomStart (s : State) : Host.Outcome State Fault Refusal := s.run (fun h => h.bootRom)

/-- HOREST_START (R438). -/
def execHorestStart (s : State) : Host.Outcome State Fault Refusal := s.run (fun h => h.horestStart)

/-- FULL_SERVICE (R438). -/
def execFullService (s : State) : Host.Outcome State Fault Refusal := s.run (fun h => h.fullService)

/-- WATCHDOG (R446). -/
def execWatchdog (pc : Nat) (s : State) : Host.Outcome State Fault Refusal := s.run (fun h => h.watchdog pc)

/-- CONFIG_STORE_WRITE (R432). -/
def execConfigStoreWrite (s : State) : Host.Outcome State Fault Refusal := s.run (fun h => h.storeWrite)

/-! ## Firmware -/

/-- FW_STAGE_BEGIN (R441). -/
def execFwStageBegin (r : Req) (s : State) : Host.Outcome State Fault Refusal := s.run (fun h => h.request 0x0701 r Hub.fwBegin)

/-- FW_STAGE_DATA (R442). -/
def execFwStageData (r : Req) (s : State) : Host.Outcome State Fault Refusal := s.run (fun h => h.request 0x0702 r Hub.fwData)

/-- FW_STAGE_END (R443). -/
def execFwStageEnd (r : Req) (s : State) : Host.Outcome State Fault Refusal := s.run (fun h => h.request 0x0703 r Hub.fwEnd)

/-- FW_STAGE_TIMEOUT (R441). -/
def execFwStageTimeout (s : State) : Host.Outcome State Fault Refusal := s.run (fun h => h.fwTimeout)

/-- FW_ACTIVATE_PENDING: FW_ACTIVATE with MODE 0 (R444). -/
def execFwActivatePending (r : Req) (s : State) : Host.Outcome State Fault Refusal := s.run (fun h => h.request 0x0704 (force r 1 0) Hub.fwActivate)

/-- FW_ACTIVATE_RESET: MODE 1. -/
def execFwActivateReset (r : Req) (s : State) : Host.Outcome State Fault Refusal := s.run (fun h => h.request 0x0704 (force r 1 1) Hub.fwActivate)

/-- FW_ACTIVATE_AT: MODE 2. -/
def execFwActivateAt (r : Req) (s : State) : Host.Outcome State Fault Refusal := s.run (fun h => h.request 0x0704 (force r 1 2) Hub.fwActivate)

/-- FW_ACTIVATE_TIME_REACHED (R444). -/
def execFwActivateTimeReached (s : State) : Host.Outcome State Fault Refusal := s.run (fun h => h.fwTime)

/-- FW_ACTIVATE_CONFIRM: MODE 3. -/
def execFwActivateConfirm (r : Req) (s : State) : Host.Outcome State Fault Refusal := s.run (fun h => h.request 0x0704 (force r 1 3) Hub.fwActivate)

/-- FW_ACTIVATE_FLOOR: MODE 4. -/
def execFwActivateFloor (r : Req) (s : State) : Host.Outcome State Fault Refusal := s.run (fun h => h.request 0x0704 (force r 1 4) Hub.fwActivate)

/-- FW_ACTIVATE_CANCEL: MODE 5. -/
def execFwActivateCancel (r : Req) (s : State) : Host.Outcome State Fault Refusal := s.run (fun h => h.request 0x0704 (force r 1 5) Hub.fwActivate)

/-- FW_CONFIRM_TIMER (R434). -/
def execFwConfirmTimer (s : State) : Host.Outcome State Fault Refusal := s.run (fun h => h.confirmTimer)

/-- FW_STATUS (R445). -/
def execFwStatus (r : Req) (s : State) : Host.Outcome State Fault Refusal := s.run (fun h => h.request 0x0705 r Hub.fwStatus)

/-! ## Sensors and Lint -/

/-- SENSOR_SAMPLE (R450). -/
def execSensorSample (kind : Nat) (idx : Nat) (value : Int) (s : State) : Host.Outcome State Fault Refusal :=
  s.run (fun h => h.sensorSample kind idx value)

/-- SENSOR_READ (R451). -/
def execSensorRead (r : Req) (s : State) : Host.Outcome State Fault Refusal := s.run (fun h => h.request 0x0A03 r Hub.sensorRead)

/-- LOG_READ (R449). -/
def execLogRead (r : Req) (s : State) : Host.Outcome State Fault Refusal := s.run (fun h => h.request 0x0A01 r Hub.logRead)

/-- LOG_CLEAR (R449). -/
def execLogClear (r : Req) (s : State) : Host.Outcome State Fault Refusal := s.run (fun h => h.request 0x0A02 r Hub.logClear)

/-- LINT_FLASH_WRITE (R448). -/
def execLintFlashWrite (s : State) : Host.Outcome State Fault Refusal := s.run (fun h => h.lintFlash)

end Sys2Proof.Machine
end

