-- ==== Sys2Proof/Machine/BridgeCmds.lean ====
section
/-!
DEFINITION. The meanings of the commands of chapter 09: apertures, windows, replies, notices and the PCIe link.
-/
namespace Sys2Proof.Machine

/-- A request to BAR0 of an endpoint (R34, R251): a 4-byte aligned 32-bit access reaches a register; any other reads 0 and writes nothing. -/
def Hub.barRegister (h : Hub) (q : PcieReq) : Hub :=
  if q.kind = .write then
    if q.data.length = 4 && q.addr % 4 = 0 && q.lanes.all id then h.reach.writeRegister q.addr (leNat q.data) else h
  else if q.len = 4 && q.addr % 4 = 0 then
    let r := h.reach.readRegister q.addr
    r.2.out (.completion q.tag 0 (leBytes 4 r.1))
  else h.out (.completion q.tag 0 (List.replicate q.len 0#8))

/-- A request to BAR4 of an endpoint (R251, R252): the MSI-X table of 1,024 bytes; the Pending Bit Array reads 0. -/
def Hub.barMsix (h : Hub) (q : PcieReq) : Hub :=
  if q.kind = .write then
    let bs := (q.data.zip (q.lanes ++ List.replicate (q.data.length - q.lanes.length) true)).zipIdx
    h.modBr (fun b => { b with msix := bs.foldl (fun m (x : (Byte × Bool) × Nat) =>
      if x.1.2 && q.addr + x.2 < 1024 then writeByte m (q.addr + x.2) x.1.1 else m) b.msix })
  else h.out (.completion q.tag 0 (readMem h.br.msix q.addr q.len))

/-- The sizes of BAR0, BAR2 and BAR4 in address bits (R251): 64 KiB, 2^BR_BAR2_SIZE bytes as read at reset release, 8 KiB. -/
def Hub.barBits (h : Hub) (k : Nat) : Nat := if k = 0 then 16 else if k = 1 then h.br.bar2 else 13

/-- The identity an endpoint presents at a dword of its configuration header (R251), its BARs among it: 64-bit, BAR2 prefetchable, with the bases
the host has written; BR_PCIE_SUBSYS is the value read at reset release.  The offsets and the type bits of a BAR are those of the standard's
header, and what else the space holds is a free value (log 129). -/
def Hub.configDword (h : Hub) (o : Nat) : Nat × Hub :=
  if o = 0x00 then (0x9240A7DE, h)
  else if o = 0x08 then (0x02800000 + devRev % 256, h)
  else if o = 0x2C then (h.br.subsys % 2 ^ 32, h)
  else if 0x10 ≤ o && o < 0x28 then
    let k := (o - 0x10) / 8
    let base := nth h.br.bars k 0
    (if o % 8 = 0 then base % 2 ^ 32 + (if k = 1 then 0xC else 4) else base / 2 ^ 32, h)
  else (h.fresh.1 % 2 ^ 32, h.fresh.2)

/-- A configuration write of an endpoint's BAR sets its base, of which the address bits within the BAR stay 0 (R251).  Only a whole aligned dword
is a write of it (log 129). -/
def Hub.configWrite (h : Hub) (o v : Nat) : Hub :=
  if 0x10 ≤ o && o < 0x28 && o % 4 = 0 then
    let k := (o - 0x10) / 8
    h.modBr (fun b => { b with bars := modAt b.bars k (fun w =>
      let w := if o % 8 = 0 then w / 2 ^ 32 * 2 ^ 32 + v % 2 ^ 32 else v % 2 ^ 32 * 2 ^ 32 + w % 2 ^ 32
      w / 2 ^ h.barBits k * 2 ^ h.barBits k) })
  else h

/-- A configuration request to an endpoint, a write with 4 bytes of data or a read; a root port is the target of none. -/
def Hub.configRequest (h : Hub) (q : PcieReq) : Hub :=
  if !h.isEndpoint then h.out (.completion q.tag 2 [])
  else if q.data.length = 4 then (h.configWrite q.addr (leNat q.data)).out (.completion q.tag 0 [])
  else
    let r := h.configDword (q.addr / 4 * 4)
    r.2.out (.completion q.tag 0 (leBytes 4 r.1))

/-- A PCIe request to the hub: to a BAR of an endpoint, or from the device behind a root port to the apertures.  I/O and locked requests
are not supported. -/
def Hub.pcieRequest (h : Hub) (q : PcieReq) : Hub :=
  if !h.works 6 || h.strapFault then h
  else
  let h := h.linkPower false
  if q.kind = .config then h.configRequest q
  else if q.kind = .other then h.out (.completion q.tag 2 [])
  else if h.isEndpoint && q.bar < 2 then h.barRegister q
  else if h.isEndpoint && 4 ≤ q.bar then h.barMsix q
  else h.inbound q

/-- PE_PERST_N, Hot Reset or Link Down at an endpoint (R254); a root port has none of them. -/
def Hub.pcieReset (h : Hub) : Hub :=
  if !h.isEndpoint then h else (if h.br.up then h.linkChange false 0 0 else h).islandReset 6

/-- The PCIe link comes up, with the sizes its partner and it agree on, goes down (R279), or, up already at its speed and width, changes its power
state (R250).  Link Down resets I-PCIE of an endpoint (R254). -/
def Hub.pcieLinkSeen (h : Hub) (up : Bool) (speed width mps mrrs : Nat) (l1 : Bool) : Hub :=
  if up && h.br.up && l1 then h.linkPower true
  else if up then (h.linkChange true speed width).linkSizes mps mrrs
  else
    let h' := h.linkChange false speed width
    if h.isEndpoint then h'.islandReset 6 else h'

/-! ## Originator and target -/

/-- APERTURE_REQUEST (R34, R251, R257). -/
def execApertureRequest (q : PcieReq) (s : State) : Host.Outcome State Fault Refusal := s.run (fun h => h.pcieRequest q)

/-- WINDOW_WRITE_RX (R258, R262, R264). -/
def execWindowWriteRx (f : Frame) (s : State) : Host.Outcome State Fault Refusal := s.run (fun h => h.targetRx f false)

/-- WINDOW_WRITE_NP_RX (R264, R274). -/
def execWindowWriteNpRx (f : Frame) (s : State) : Host.Outcome State Fault Refusal := s.run (fun h => h.targetRx f false)

/-- WINDOW_READ_RX (R264, and R260 for what the DRAM controller finds). -/
def execWindowReadRx (f : ReadFrame) (s : State) : Host.Outcome State Fault Refusal := s.run (fun h => h.targetRx f.frame f.ecc)

/-- TARGET_COMPLETION (R260, R273). -/
def execTargetCompletion (id : Nat) (status : Nat) (data : List Byte) (s : State) : Host.Outcome State Fault Refusal :=
  s.run (fun h => h.targetDone id status data)

/-- WINDOW_COMPLETION_RX (R266, R268). -/
def execWindowCompletionRx (f : Frame) (s : State) : Host.Outcome State Fault Refusal := s.run (fun h => h.completionRx f)

/-- WINDOW_WRITE_ACK_RX (R274). -/
def execWindowWriteAckRx (f : Frame) (s : State) : Host.Outcome State Fault Refusal := s.run (fun h => h.ackRx f)

/-- WINDOW_FRAME_BAD (R259). -/
def execWindowFrameBad (f : Frame) (s : State) : Host.Outcome State Fault Refusal := s.run (fun h => h.windowBad f)

/-- CPL_TIMEOUT (R265). -/
def execCplTimeout (tag : Nat) (s : State) : Host.Outcome State Fault Refusal := s.run (fun h => h.cplTimeout tag)

/-- PREFETCH_EXPIRE (R268). -/
def execPrefetchExpire (win : Nat) (s : State) : Host.Outcome State Fault Refusal := s.run (fun h => h.prefetchExpire win)

/-! ## Notices -/

/-- NOTICE_SEND (R270, R271). -/
def execNoticeSend (origin : Nat) (tid : Nat) (win : Nat) (s : State) : Host.Outcome State Fault Refusal :=
  s.run (fun h => h.noticeSend origin tid win)

/-- WRITE_ERROR_NOTICE_RX (R272). -/
def execWriteErrorNoticeRx (cell : Cell) (s : State) : Host.Outcome State Fault Refusal := s.run (fun h => h.noticeRx cell)

/-! ## The port -/

/-- PCIE_ISLAND_RESET (R254). -/
def execPcieIslandReset (_cause : Nat) (s : State) : Host.Outcome State Fault Refusal := s.run (fun h => h.pcieReset)

/-- PCIE_LINK (R254, R279). -/
def execPcieLink (up : Bool) (rate : PcieRate) (set : PcieSet) (s : State) : Host.Outcome State Fault Refusal :=
  s.run (fun h => h.pcieLinkSeen up rate.speed rate.width set.mps set.mrrs set.l1)

/-- INTX_DROP (R253). -/
def execIntxDrop (s : State) : Host.Outcome State Fault Refusal := s.run (fun h => h.intx)

/-- BR_LINK_RESET (R253). -/
def execBrLinkReset (mb : Nat) (v : Nat) (s : State) : Host.Outcome State Fault Refusal := s.run (fun h => h.writeParam mb P.BR_LINK_RESET 0 v)

/-- BR_PWERR_CLEAR (R272). -/
def execBrPwerrClear (mb : Nat) (v : Nat) (s : State) : Host.Outcome State Fault Refusal := s.run (fun h => h.writeParam mb P.BR_PWERR_CLEAR 0 v)

/-- BR_PWERR_OVERFLOW_READ (R9): a read by any mailbox returns and clears it. -/
def execBrPwerrOverflowRead (_mb : Nat) (s : State) : Host.Outcome State Fault Refusal := s.run (fun h => h.readEffect P.BR_PWERR_OVERFLOW 0)

end Sys2Proof.Machine
end

