-- ==== Sys2Proof/Machine/DecisionCmds.lean ====
section
/-!
DEFINITION. The meanings of the commands of chapter 08: the decision engine and the GPIO pins.
-/
namespace Sys2Proof.Machine

/-- An edge at a GPIO pin that PW_GPIO_WAKE selects, instance 0 for rising edges and 1 for falling ones, wakes the hub (R383, code 6). -/
def Hub.gpioWakes (h : Hub) (n : Nat) (rising : Bool) : Hub :=
  if h.pw.state ≠ .run && bit (h.pget P.PW_GPIO_WAKE (b2n (!rising))) n then h.wakeEvent 6 else h

/-! ## Events and actions -/

/-- DE_DISPATCH (R231, R233 to R236). -/
def execDeDispatch (s : State) : Host.Outcome State Fault Refusal := s.run (fun h => h.dispatch)

/-- DECISION_FRAME_RX (R232). -/
def execDecisionFrameRx (f : Frame) (s : State) : Host.Outcome State Fault Refusal := s.run (fun h => h.decisionRx f)

/-- GPIO_EDGE (R237, R383). -/
def execGpioEdge (pin : Nat) (rising : Bool) (t : Nat) (s : State) : Host.Outcome State Fault Refusal :=
  s.run (fun h => (h.gpioEdge pin rising t).gpioWakes pin rising)

/-- ACTUATE_RX (R238, R239). -/
def execActuateRx (f : Frame) (s : State) : Host.Outcome State Fault Refusal := s.run (fun h => h.gpioRx f)

/-- EDGE_REPORT_RX (R230). -/
def execEdgeReportRx (f : Frame) (s : State) : Host.Outcome State Fault Refusal := s.run (fun h => h.gpioRx f)

/-- ACTUATE_DUE (R239). -/
def execActuateDue (pin : Nat) (s : State) : Host.Outcome State Fault Refusal := s.run (fun h => h.actDue pin)

/-- PULSE_END (R239). -/
def execPulseEnd (pin : Nat) (s : State) : Host.Outcome State Fault Refusal := s.run (fun h => h.pulseEnd pin)

/-! ## Banks -/

/-- DE_BANK_LOAD (R244). -/
def execDeBankLoad (r : Req) (s : State) : Host.Outcome State Fault Refusal := s.run (fun h => h.request 0x0501 r Hub.bankLoad)

/-- DE_BANK_LOAD_DONE (R243). -/
def execDeBankLoadDone (token : Nat) (s : State) : Host.Outcome State Fault Refusal := s.run (fun h => h.serveTurn.bankLoadDone token)

/-- DE_BANK_CHECK (R244). -/
def execDeBankCheck (r : Req) (s : State) : Host.Outcome State Fault Refusal := s.run (fun h => h.request 0x0502 r Hub.bankCheck)

/-- DE_BANK_CHECK_DONE (R245). -/
def execDeBankCheckDone (token : Nat) (s : State) : Host.Outcome State Fault Refusal := s.run (fun h => h.serveTurn.bankCheckDone token)

/-- DE_BANK_STATUS (R244). -/
def execDeBankStatus (r : Req) (s : State) : Host.Outcome State Fault Refusal := s.run (fun h => h.request 0x0503 r Hub.bankStatus)

/-- DE_LOOKUP (R244). -/
def execDeLookup (r : Req) (s : State) : Host.Outcome State Fault Refusal := s.run (fun h => h.request 0x0504 r Hub.deLookup)

end Sys2Proof.Machine
end

