-- ==== Sys2Proof/Machine/DisplayCmds.lean ====
section
/-!
DEFINITION. The meanings of the commands of chapter 13: the display heads.
-/
namespace Sys2Proof.Machine

/-- DS_LINE_PACKET (R330 to R334). -/
def execDsLinePacket (f : Frame) (s : State) : Host.Outcome State Fault Refusal := s.run (fun h => h.dsPacket f)

/-- DS_PPS_RX (R331): a PPS control cell of an entry. -/
def execDsPpsRx (entry : Nat) (cell : Cell) (s : State) : Host.Outcome State Fault Refusal := s.run (fun h => h.dsPps entry cell.payload)

/-- DS_FRAME_BOUNDARY (R337, R340). -/
def execDsFrameBoundary (head : Nat) (s : State) : Host.Outcome State Fault Refusal := s.run (fun h => h.dsBoundary head)

/-- DS_UNDERRUN (R338). -/
def execDsUnderrun (head : Nat) (line : Nat) (pixel : Nat) (s : State) : Host.Outcome State Fault Refusal :=
  s.run (fun h => h.dsUnderrun head line pixel)

/-- DS_HPD (R328): an HPD rise, or an IRQ that reports lost lock, trains the link alike. -/
def execDsHpd (head : Nat) (_irq : Bool) (lanes : Nat) (rate : Nat) (s : State) : Host.Outcome State Fault Refusal :=
  s.run (fun h => h.dsTrain head lanes rate)

/-- DS_ROUTE_WRITE (R329). -/
def execDsRouteWrite (mb : Nat) (head : Nat) (v : Nat) (s : State) : Host.Outcome State Fault Refusal :=
  s.run (fun h => h.writeParam mb P.DS_ROUTE head v)

/-- DS_SIGNATURE_READ (R342). -/
def execDsSignatureRead (r : Req) (s : State) : Host.Outcome State Fault Refusal := s.run (fun h => h.request 0x0B01 r Hub.dsSignature)

/-- DS_ALARM_CLEAR (R342). -/
def execDsAlarmClear (r : Req) (s : State) : Host.Outcome State Fault Refusal := s.run (fun h => h.request 0x0B02 r Hub.dsClear)

end Sys2Proof.Machine
end

