-- ==== Sys2Proof/Machine/LineCmds.lean ====
section
/-!
DEFINITION. The meanings of the commands of chapter 03: what happens on the line and twin ports.
-/
namespace Sys2Proof.Machine

/-- A parameter write that no mailbox is named for takes effect: its values are of their parameters' forms, and the effects of R52 follow. -/
def Hub.takeEffect (h : Hub) (items : List ParamItem) : Hub :=
  let good := items.filterMap (fun i => match formOf i with | .ok x => some x | .error _ => none)
  if good.length = items.length then h.applyChange ⟨good, [], []⟩ else h

/-- Signal is back on both lanes of a port: one that is QUIET in REST wakes the hub (R383), another goes to IDENT (R85). -/
def Hub.signalSeen (h : Hub) (p : Nat) : Hub := if h.lnState p = .quiet then h.wakeEvent (p + 1) else h.signalDetect p

/-- A malformed link-local cell is discarded and counted (R96). -/
def Hub.localBad (h : Hub) (p : Nat) (c : Cell) : Hub :=
  let h := h.takeCell p c
  if h.portUp p && !localGood c then h.bump P.LN_LL_ERR p else h

/-! ## Bring-up (R85 to R88) -/

/-- SIGNAL_DETECT (R85, R383). -/
def execSignalDetect (port : Nat) (s : State) : Host.Outcome State Fault Refusal := s.run (fun h => h.signalSeen port)

/-- IDENT_DONE (R85, R88), once the partner's last good TRAIN frame has come `repeats` times more (log 37). -/
def execIdentDone (port : Nat) (repeats : Nat) (s : State) : Host.Outcome State Fault Refusal :=
  s.run (fun h => (h.trainRepeats port repeats).identDone port)

/-- IDENT_TIMEOUT (R85). -/
def execIdentTimeout (port : Nat) (s : State) : Host.Outcome State Fault Refusal := s.run (fun h => h.identTimeout port)

/-- TRAIN_DONE (R85). -/
def execTrainDone (port : Nat) (s : State) : Host.Outcome State Fault Refusal := s.run (fun h => h.trainDone port)

/-- TRAIN_TIMEOUT (R86). -/
def execTrainTimeout (port : Nat) (s : State) : Host.Outcome State Fault Refusal := s.run (fun h => h.trainTimeout port)

/-- TRAIN_FAIL_WAIT_END (R86). -/
def execTrainFailWaitEnd (port : Nat) (s : State) : Host.Outcome State Fault Refusal := s.run (fun h => h.failWaitEnd port)

/-- TRAIN_SIGNAL_LOSS (R85). -/
def execTrainSignalLoss (port : Nat) (s : State) : Host.Outcome State Fault Refusal := s.run (fun h => h.trainSignalLoss port)

/-- MEASURE_DONE (R85, R87). -/
def execMeasureDone (port : Nat) (errs : LaneErrs) (s : State) : Host.Outcome State Fault Refusal :=
  s.run (fun h => h.measureDone port errs.errs0 errs.errs1)

/-- MEASURE_TIMEOUT (R85). -/
def execMeasureTimeout (port : Nat) (s : State) : Host.Outcome State Fault Refusal := s.run (fun h => h.measureTimeout port)

/-- MEASURE_ABANDON (R85). -/
def execMeasureAbandon (port : Nat) (s : State) : Host.Outcome State Fault Refusal := s.run (fun h => h.measureAbandon port)

/-- CODEWORD_LOCK (R80). -/
def execCodewordLock (port : Nat) (run : LaneRun) (s : State) : Host.Outcome State Fault Refusal :=
  s.run (fun h => h.laneSaw port run.lane run.seen)

/-! ## Loss and control (R80, R85, R93) -/

/-- PORT_SIGNAL_LOSS (R93). -/
def execPortSignalLoss (port : Nat) (s : State) : Host.Outcome State Fault Refusal := s.run (fun h => h.portDown port 0 (h.port port).rx.resting)

/-- LOCK_LOSS (R80, R93). -/
def execLockLoss (port : Nat) (run : LaneRun) (s : State) : Host.Outcome State Fault Refusal :=
  s.run (fun h => h.laneSaw port run.lane run.seen)

/-- HELD_SIGNAL_LOSS (R85). -/
def execHeldSignalLoss (port : Nat) (s : State) : Host.Outcome State Fault Refusal := s.run (fun h => h.heldLoss port)

/-- LN_ENABLE_WRITE (R85). -/
def execLnEnableWrite (port : Nat) (v : Nat) (s : State) : Host.Outcome State Fault Refusal := s.run (fun h => h.takeEffect [⟨P.LN_ENABLE, port, v⟩])

/-- LN_RETRAIN (R85, R86). -/
def execLnRetrain (port : Nat) (v : Nat) (s : State) : Host.Outcome State Fault Refusal := s.run (fun h => h.takeEffect [⟨P.LN_RETRAIN, port, v⟩])

/-! ## Side frames (R82 to R84) -/

/-- TRAIN_FRAME_RX (R83). -/
def execTrainFrameRx (port : Nat) (frame : List Byte) (s : State) : Host.Outcome State Fault Refusal := s.run (fun h => h.trainFrame port frame)

/-- STATUS_FRAME_RX (R83, R93). -/
def execStatusFrameRx (port : Nat) (frame : List Byte) (s : State) : Host.Outcome State Fault Refusal := s.run (fun h => h.statusFrame port frame)

/-- SIDE_FRAME_BAD (R83). -/
def execSideFrameBad (f : SideFrame) (s : State) : Host.Outcome State Fault Refusal := s.run (fun h => h.sideBad f.port f.bits)

/-- STATUS_TX of a port in UP (R84). -/
def execStatusTx (port : Nat) (s : State) : Host.Outcome State Fault Refusal :=
  s.run (fun h => if h.portUp port then h.sendStatus port false else h)

/-! ## Blocks and Darn (R95 to R99) -/

/-- BLOCK_RX (R77, R98). -/
def execBlockRx (port : Nat) (words : Words) (s : State) : Host.Outcome State Fault Refusal := s.run (fun h => h.blockRx port words)

/-- DARN_ACK_TX (R98). -/
def execDarnAckTx (port : Nat) (s : State) : Host.Outcome State Fault Refusal := s.run (fun h => h.sendAck port)

/-- DARN_NAK_REPEAT (R98). -/
def execDarnNakRepeat (port : Nat) (s : State) : Host.Outcome State Fault Refusal := s.run (fun h => h.nakRepeat port)

/-- DARN_ACK (R99). -/
def execDarnAck (port : Nat) (seq : Nat) (s : State) : Host.Outcome State Fault Refusal := s.run (fun h => h.darnAck port seq)

/-- DARN_NAK (R99); its REASON tells no more than why. -/
def execDarnNak (port : Nat) (seq : Nat) (_reason : Nat) (s : State) : Host.Outcome State Fault Refusal := s.run (fun h => h.darnNak port seq)

/-- DARN_REPLAY (R98). -/
def execDarnReplay (port : Nat) (seq : Nat) (s : State) : Host.Outcome State Fault Refusal := s.run (fun h => h.darnReplay port seq)

/-- DARN_REPLAY_TIMEOUT (R99). -/
def execDarnReplayTimeout (port : Nat) (s : State) : Host.Outcome State Fault Refusal := s.run (fun h => h.replayTimeout port)

/-- LINK_LOCAL_BAD (R96). -/
def execLinkLocalBad (port : Nat) (cell : Cell) (s : State) : Host.Outcome State Fault Refusal := s.run (fun h => h.localBad port cell)

/-! ## Monitoring and the tail (R92, R100, R101) -/

/-- MARGIN_MEASURE (R100). -/
def execMarginMeasure (port : Nat) (lane : Nat) (v : Nat) (h : Nat) (s : State) : Host.Outcome State Fault Refusal :=
  s.run (fun x => x.margin port lane v h)

/-- DEGRADE_WINDOW (R101). -/
def execDegradeWindow (port : Nat) (lane : Nat) (corrected : Nat) (bits : Nat) (uncorr : Nat) (s : State) : Host.Outcome State Fault Refusal :=
  s.run (fun h => h.degradeWindow port lane corrected bits uncorr)

/-- TAIL_WAIT (R92). -/
def execTailWait (s : State) : Host.Outcome State Fault Refusal := s.run (fun h => h.tailWait)

end Sys2Proof.Machine
end

