-- ==== Sys2Proof/Machine/EthernetCmds.lean ====
section
/-!
DEFINITION. The meanings of the commands of chapter 10: the Ethernet ports.
-/
namespace Sys2Proof.Machine

/-- EN_ENABLE and EN_MODE of a port take effect as writes do. -/
def Hub.ethWrite (h : Hub) (p en mode : Nat) : Hub := h.takeEffect [⟨P.EN_ENABLE, p, en⟩, ⟨P.EN_MODE, p, mode⟩]

/-- ETH_FRAME_RX (R281 to R285). -/
def execEthFrameRx (eth : Nat) (f : EthFrame) (s : State) : Host.Outcome State Fault Refusal := s.run (fun h => h.ethRx eth f)

/-- PAUSE_EXPIRE (R286). -/
def execPauseExpire (eth : Nat) (s : State) : Host.Outcome State Fault Refusal := s.run (fun h => h.pauseExpire eth)

/-- ETH_RX_ADMIT (R284). -/
def execEthRxAdmit (eth : Nat) (s : State) : Host.Outcome State Fault Refusal := s.run (fun h => h.ethAdmit eth)

/-- PAUSE_TX (R286). -/
def execPauseTx (eth : Nat) (s : State) : Host.Outcome State Fault Refusal := s.run (fun h => h.pauseTx eth)

/-- PAUSE_REPEAT (R286). -/
def execPauseRepeat (eth : Nat) (s : State) : Host.Outcome State Fault Refusal := s.run (fun h => h.pauseRepeat eth)

/-- ETH_FRAME_TX (R287 to R289). -/
def execEthFrameTx (f : Frame) (s : State) : Host.Outcome State Fault Refusal := s.run (fun h => h.ethTx f)

/-- ETH_PORT_RESTART (R280). -/
def execEthPortRestart (eth : Nat) (enable : Nat) (mode : Nat) (s : State) : Host.Outcome State Fault Refusal :=
  s.run (fun h => h.ethWrite eth enable mode)

/-- ETH_LINK (R280, R291). -/
def execEthLink (eth : Nat) (up : Bool) (s : State) : Host.Outcome State Fault Refusal := s.run (fun h => h.ethLinkSeen eth up)

end Sys2Proof.Machine
end

