-- ==== Sys2Proof/Machine/GuardCmds.lean ====
section
/-!
DEFINITION. The meanings of the commands of chapters 17 and 18: access guard, keys, life cycle, debug and tamper.
-/
namespace Sys2Proof.Machine

/-- The debug access port is connected (R421, R422). -/
def Hub.debugPort (h : Hub) : Bool := h.lc = 0 || h.lc = 3 || h.ky.unlock.isSome

/-- What answers a permitted debug access outside DRAM: the PCIe link, or the management processor's memory, whose contents the spec does not
give. -/
def Hub.debugAway (h : Hub) (space a n : Nat) (wr : Bool) (d : List Byte) : Hub :=
  if space < 3 && !(h.works 6 && h.br.up) then h.out (.debug false (if wr then [] else List.replicate n 0#8))
  else
    let h := if space < 3 then (h.out (.pcie h.br.nextId space wr a n d)).modBr (fun b => { b with nextId := b.nextId + 1 }) else h
    if wr then h.out (.debug true [])
    else
      let r := h.freeBytes n
      r.2.out (.debug true r.1)

/-- An access of the debug master (R391, R404): privileged, colour 0xFE, refused by every locked region. -/
def Hub.debugAccess (h : Hub) (space a len : Nat) (wr : Bool) (d : List Byte) : Hub :=
  let n := if wr then d.length else len
  if n = 0 then h
  else if !h.debugPort then h.out (.debug false (if wr then [] else List.replicate n 0#8))
  else if h.fillHolds space then h.modGuard (fun g => { g with waiting := g.waiting ++ [.debug a n wr d] })
  else if space = 0 then h.debugRun a n wr d
  else
    let g := h.guard ⟨space, a, n, wr, 5, 0, 0xFE⟩ false
    if g.2 then g.1.debugAway space a n wr d else g.1.out (.debug false (if wr then [] else List.replicate n 0#8))

/-! ## Access guard -/

/-- A fill commits, and its drain begins where older accesses are in flight (R398, R406). -/
def Hub.tagFill (h : Hub) (mb v : Nat) : Hub :=
  let g := h.writeParam mb P.AG_TAG_FILL 0 v
  if Hub.mustDrain h g then g.addDrain mb (some .quiet) else g

/-- TAG_FILL (R398). -/
def execTagFill (mb : Nat) (v : Nat) (s : State) : Host.Outcome State Fault Refusal := s.run (fun h => h.tagFill mb v)

/-- TAG_FILL_DONE (R398). -/
def execTagFillDone (s : State) : Host.Outcome State Fault Refusal := s.run (fun h => h.fillDone)

/-- GUARD_DRAIN_TIMEOUT (R406). -/
def execGuardDrainTimeout (s : State) : Host.Outcome State Fault Refusal := s.run (fun h => h.drainTimeout)

/-- GUARD_DRAINED (R406). -/
def execGuardDrained (s : State) : Host.Outcome State Fault Refusal := s.run (fun h => h.drained)

/-- DEBUG_ACCESS (R404). -/
def execDebugAccess (space : Nat) (addr : Nat) (len : Nat) (write : Bool) (data : List Byte) (s : State) : Host.Outcome State Fault Refusal :=
  s.run (fun h => h.debugAccess space addr len write data)

/-- AG_VIOL_CLEAR (R402). -/
def execAgViolClear (mb : Nat) (v : Nat) (s : State) : Host.Outcome State Fault Refusal := s.run (fun h => h.writeParam mb P.AG_VIOL_CLEAR 0 v)

/-- AG_VIOL_OVERFLOW_READ (R9): a read by any mailbox returns and clears it. -/
def execAgViolOverflowRead (_mb : Nat) (s : State) : Host.Outcome State Fault Refusal := s.run (fun h => h.readEffect P.AG_VIOL_OVERFLOW 0)

/-! ## Keys -/

/-- KEY_UPDATE_WRITE: a package whose OP is 1 (R416, R417). -/
def execKeyUpdateWrite (r : Req) (s : State) : Host.Outcome State Fault Refusal := s.run (fun h => h.request 0x0601 (force r 138 1) Hub.keyUpdate)

/-- KEY_UPDATE_ERASE: a package whose OP is 2. -/
def execKeyUpdateErase (r : Req) (s : State) : Host.Outcome State Fault Refusal := s.run (fun h => h.request 0x0601 (force r 138 2) Hub.keyUpdate)

/-- KEY_UPDATE_DONE (R417). -/
def execKeyUpdateDone (token : Nat) (s : State) : Host.Outcome State Fault Refusal := s.run (fun h => h.serveTurn.keyUpdateDone token)

/-- KEY_STATUS (R418). -/
def execKeyStatus (r : Req) (s : State) : Host.Outcome State Fault Refusal := s.run (fun h => h.request 0x0602 r Hub.keyStatus)

/-- LC_TRANSITION (R420). -/
def execLcTransition (r : Req) (s : State) : Host.Outcome State Fault Refusal := s.run (fun h => h.request 0x0603 r Hub.lcTransition)

/-- DEBUG_UNLOCK (R422). -/
def execDebugUnlock (r : Req) (s : State) : Host.Outcome State Fault Refusal := s.run (fun h => h.request 0x0604 r Hub.debugUnlock)

/-- DEBUG_UNLOCK_END (R423). -/
def execDebugUnlockEnd (s : State) : Host.Outcome State Fault Refusal := s.run (fun h => h.unlockElapsed)

/-! ## Tamper -/

/-- TAMPER_ALARM (R424, R426, R383). -/
def execTamperAlarm (a : TamperSeen) (s : State) : Host.Outcome State Fault Refusal := s.run (fun h => h.tamperCondition a.src a.held)

/-- TAMPER_CONDITION_END (R430). -/
def execTamperConditionEnd (src : Nat) (s : State) : Host.Outcome State Fault Refusal := s.run (fun h => h.tamperEnd src)

/-- TAMPER_RINSE_DONE (R425). -/
def execTamperRinseDone (s : State) : Host.Outcome State Fault Refusal := s.run (fun h => h.tamperRinsed)

/-- KY_TAMPER_CLEAR (R426). -/
def execKyTamperClear (mb : Nat) (v : Nat) (s : State) : Host.Outcome State Fault Refusal := s.run (fun h => h.writeParam mb P.KY_TAMPER_CLEAR 0 v)

end Sys2Proof.Machine
end

