-- ==== Sys2Proof/Machine/MailboxCmds.lean ====
section
/-!
DEFINITION. The meanings of the commands of chapters 02 and 04's tables: mailbox requests, transactions, long operations, host registers.
-/
namespace Sys2Proof.Machine

/-! ## Requests of chapter 02 -/

/-- IDENTIFY (R46). -/
def execIdentify (r : Req) (s : State) : Host.Outcome State Fault Refusal := s.run (fun h => h.request 0x0101 r Hub.identify)

/-- PARAM_GET (R48, R49). -/
def execParamGet (r : Req) (s : State) : Host.Outcome State Fault Refusal := s.run (fun h => h.request 0x0102 r Hub.paramGet)

/-- PARAM_SET (R50, R52 to R54). -/
def execParamSet (r : Req) (s : State) : Host.Outcome State Fault Refusal := s.run (fun h => h.request 0x0103 r Hub.paramSet)

/-- PARAM_LIST (R51, R466). -/
def execParamList (r : Req) (s : State) : Host.Outcome State Fault Refusal := s.run (fun h => h.request 0x0104 r Hub.paramList)

/-- SYSTEM_RESET (R47). -/
def execSystemReset (r : Req) (s : State) : Host.Outcome State Fault Refusal := s.run (fun h => h.request 0x0105 r Hub.systemReset)

/-- ECHO (R47). -/
def execEcho (r : Req) (s : State) : Host.Outcome State Fault Refusal := s.run (fun h => h.request 0x0106 r Hub.echo)

/-- A request whose COMMAND is not in the list (R40). -/
def execUnknownCommand (cmd : Nat) (r : Req) (s : State) : Host.Outcome State Fault Refusal := s.run (fun h => h.request cmd r Hub.runCode)

/-- A frame or transfer of fewer than 16 bytes (R494). -/
def execMsgShort (mb nbytes : Nat) (s : State) : Host.Outcome State Fault Refusal := s.run (fun h => h.shortMessage mb nbytes)

/-- TXN_BEGIN (R56). -/
def execTxnBegin (r : Req) (s : State) : Host.Outcome State Fault Refusal := s.run (fun h => h.request 0x0201 r Hub.txnBegin)

/-- TXN_COMMIT (R59 to R61). -/
def execTxnCommit (r : Req) (s : State) : Host.Outcome State Fault Refusal := s.run (fun h => h.request 0x0202 r Hub.txnCommit)

/-- TXN_COMMIT_AT (R58). -/
def execTxnCommitAt (r : Req) (s : State) : Host.Outcome State Fault Refusal := s.run (fun h => h.request 0x0203 r Hub.txnCommitAt)

/-- TXN_ABORT (R55). -/
def execTxnAbort (r : Req) (s : State) : Host.Outcome State Fault Refusal := s.run (fun h => h.request 0x0204 r Hub.txnAbort)

/-- TXN_STATUS (R62). -/
def execTxnStatus (r : Req) (s : State) : Host.Outcome State Fault Refusal := s.run (fun h => h.request 0x0205 r Hub.txnStatus)

/-- MG_TXN_TIMEOUT of an OPEN transaction passes (R55). -/
def execTxnTimeout (mb : Nat) (s : State) : Host.Outcome State Fault Refusal := s.run (fun h => h.txnTimeout mb)

/-- The instant of a SCHEDULED transaction (R55, R60). -/
def execTxnScheduledApply (mb : Nat) (s : State) : Host.Outcome State Fault Refusal := s.run (fun h => h.scheduledApply mb)

/-- A commit that waited for a frame boundary ends (R61). -/
def execTxnCommitDone (token : Nat) (s : State) : Host.Outcome State Fault Refusal := s.run (fun h => h.commitDone token)

/-- STEP_STATUS (R66). -/
def execStepStatus (r : Req) (s : State) : Host.Outcome State Fault Refusal := s.run (fun h => h.request 0x0301 r Hub.stepStatus)

/-- STEP_CANCEL (R67). -/
def execStepCancel (r : Req) (s : State) : Host.Outcome State Fault Refusal := s.run (fun h => h.request 0x0302 r Hub.stepCancel)

/-- What a step of a pending operation does: operations without a completion command of their own end, of the others PERCENT moves on to what the
step has reached (R64, R66). -/
def Hub.opStep (h : Hub) (token progress : Nat) : Hub :=
  match h.op token with
  | none => h
  | some o =>
    match o.work with
    | .lifeCycle b => h.lcDone token b
    | .debugUnlock b => h.debugUnlockDone token b
    | .fwData p => h.fwDataDone token p
    | .fwEnd sig => h.fwEndDone token sig
    | .tableClear .. => h.tableClearDone token
    | _ => h.modOp token (fun o => { o with percent := max o.percent (progress % 100) })

/-- The pending operation whose turn it is moves to the end of the round and runs a step (R64). -/
def Hub.opTurn (h : Hub) (progress : Nat) : Hub :=
  match h.ctl.ops with
  | [] => h
  | o :: rest => ({ h with ctl := { h.ctl with ops := rest ++ [o] } }).opStep o.token progress

/-- Horest serves one request of each mailbox, then runs a step of the operation whose turn it is (R64). -/
def execLongOpStep (progress : Nat) (s : State) : Host.Outcome State Fault Refusal := s.run (fun h => if h.running 10 then h.serveTurn.opTurn progress else h)

/-- MG_PAIR_TIMEOUT of an open first field passes (R53). -/
def execPairTimeout (pid inst : Nat) (s : State) : Host.Outcome State Fault Refusal := s.run (fun h => h.pairTimeout pid inst)

/-! ## Host registers and rings -/

/-- DOORBELL of a mailbox is written (R37). -/
def execDoorbell (mb : Nat) (s : State) : Host.Outcome State Fault Refusal := s.run (fun h => h.writeMbRegister mb 0x1C 0)

/-- Horest examines the ring of a mailbox (R37). -/
def execRingPoll (mb : Nat) (s : State) : Host.Outcome State Fault Refusal := s.run (fun h => h.examine mb)

/-- MB_RESET is written (R38); Horest looks at the ring again (R369). -/
def execMbReset (mb : Nat) (s : State) : Host.Outcome State Fault Refusal := s.run (fun h => (h.reach.mbReset mb).ring mb)

/-- RSP_HEAD is written; what waits for a slot leaves (R43). -/
def execRspHeadWrite (mb idx : Nat) (s : State) : Host.Outcome State Fault Refusal := s.run (fun h => h.reach.writeRspHead mb idx)

/-- MB0 sends what it holds once a return entry exists (R493). -/
def execMb0ReturnSend (s : State) : Host.Outcome State Fault Refusal := s.run (fun h => Hub.flushN 66 0 h)

/-- INT_STATUS is written (R35). -/
def execIntStatusClear (mask : Nat) (s : State) : Host.Outcome State Fault Refusal := s.run (fun h => h.reach.intClear mask)

/-- INT_FORCE is written (R35). -/
def execIntForce (mask : Nat) (s : State) : Host.Outcome State Fault Refusal := s.run (fun h => h.reach.raise mask)

/-- LTIME_NS_LO is read (R34). -/
def execLtimeRead (s : State) : Host.Outcome State Fault Refusal := s.run (fun h => h.reach.ltimeLatch)

/-- A register is written: only 4-byte aligned 32-bit accesses take effect (R34). -/
def execRegisterWrite (offset size value : Nat) (s : State) : Host.Outcome State Fault Refusal :=
  s.run (fun h => if size = 4 then h.reach.writeRegister offset value else h)

/-- HEARTBEAT counts while Horest runs (R34). -/
def execHeartbeat (s : State) : Host.Outcome State Fault Refusal :=
  s.run (fun h => if h.mg.ready && (h.island 10).clock then h.modRegs (fun r => { r with heartbeat := (r.heartbeat + 1) % 2 ^ 32 }) else h)

/-! ## Tables (R115, R116) -/

/-- TABLE_READ. -/
def execTableRead (r : Req) (s : State) : Host.Outcome State Fault Refusal := s.run (fun h => h.request 0x0401 r Hub.tableRead)

/-- TABLE_WRITE. -/
def execTableWrite (r : Req) (s : State) : Host.Outcome State Fault Refusal := s.run (fun h => h.request 0x0402 r Hub.tableWrite)

/-- TABLE_LOAD. -/
def execTableLoad (r : Req) (s : State) : Host.Outcome State Fault Refusal := s.run (fun h => h.request 0x0403 r Hub.tableLoad)

/-- The last step of a TABLE_LOAD, after one request of each mailbox (R64). -/
def execTableLoadDone (token : Nat) (s : State) : Host.Outcome State Fault Refusal := s.run (fun h => h.serveTurn.tableLoadDone token)

/-- TABLE_CLEAR. -/
def execTableClear (r : Req) (s : State) : Host.Outcome State Fault Refusal := s.run (fun h => h.request 0x0404 r Hub.tableClear)

end Sys2Proof.Machine
end

