-- ==== Sys2Proof/Machine/PowerCmds.lean ====
section
/-!
DEFINITION. The meanings of the commands of chapters 16 and 22: power states, resets, power-up and power-fail.
-/
namespace Sys2Proof.Machine

/-! ## Power states -/

/-- PWR_ENTER_RUN: PWR_ENTER with STATE 0 (R380). -/
def execPwrEnterRun (r : Req) (s : State) : Host.Outcome State Fault Refusal := s.run (fun h => h.request 0x0801 (force r 0 0) Hub.pwrEnter)

/-- PWR_ENTER_DOZE: STATE 1 (R380). -/
def execPwrEnterDoze (r : Req) (s : State) : Host.Outcome State Fault Refusal := s.run (fun h => h.request 0x0801 (force r 0 1) Hub.pwrEnter)

/-- PWR_ENTER_REST: STATE 2 (R380). -/
def execPwrEnterRest (r : Req) (s : State) : Host.Outcome State Fault Refusal := s.run (fun h => h.request 0x0801 (force r 0 2) Hub.pwrEnter)

/-- PWR_ENTRY_DONE (R382). -/
def execPwrEntryDone (s : State) : Host.Outcome State Fault Refusal := s.run (fun h => h.entryDone)

/-- FOLD_ARMED_ENTRY (R380). -/
def execFoldArmedEntry (s : State) : Host.Outcome State Fault Refusal := s.run (fun h => h.foldEntry)

/-- WAKE_EVENT (R382, R383). -/
def execWakeEvent (code : Nat) (s : State) : Host.Outcome State Fault Refusal := s.run (fun h => h.wakeEvent code)

/-- WAKE_OUT_END (R383). -/
def execWakeOutEnd (s : State) : Host.Outcome State Fault Refusal := s.run (fun h => h.wakeOutEnd)

/-- PWR_STATUS (R381). -/
def execPwrStatus (r : Req) (s : State) : Host.Outcome State Fault Refusal := s.run (fun h => h.request 0x0802 r Hub.pwrStatus)

/-- LINE_FOLD (R384). -/
def execLineFold (r : Req) (s : State) : Host.Outcome State Fault Refusal := s.run (fun h => h.request 0x0803 r Hub.lineFold)

/-- FOLD_PACE (R384). -/
def execFoldPace (s : State) : Host.Outcome State Fault Refusal := s.run (fun h => h.foldPace)

/-- FOLD_TIMEOUT (R384). -/
def execFoldTimeout (s : State) : Host.Outcome State Fault Refusal := s.run (fun h => h.foldTimeout)

/-- LINE_UNFOLD (R385). -/
def execLineUnfold (r : Req) (s : State) : Host.Outcome State Fault Refusal := s.run (fun h => h.request 0x0804 r Hub.lineUnfold)

/-! ## Resets -/

/-- THERMAL_SHUTDOWN (R386). -/
def execThermalShutdown (sensor : Nat) (reading : Int) (s : State) : Host.Outcome State Fault Refusal :=
  s.run (fun h => h.thermalShutdown sensor reading)

/-- THERMAL_RESTART (R386). -/
def execThermalRestart (s : State) : Host.Outcome State Fault Refusal := s.run (fun h => h.thermalRestart)

/-- RESET_N_PULSE (R388). -/
def execResetNPulse (width : Nat) (s : State) : Host.Outcome State Fault Refusal := s.run (fun h => h.resetPulse width)

/-- RESET_N_LONG (R388): the straps keep their levels. -/
def execResetNLong (s : State) : Host.Outcome State Fault Refusal := s.run (fun h => h.coldStart causeLong h.straps)

/-- WARM_RESET (R388). -/
def execWarmReset (cause : Nat) (straps : Nat) (s : State) : Host.Outcome State Fault Refusal := s.run (fun h => h.warmStart cause straps)

/-- PW_ISLAND_RESET (R388). -/
def execPwIslandReset (mb : Nat) (isl : Nat) (s : State) : Host.Outcome State Fault Refusal :=
  s.run (fun h => h.writeParam mb P.PW_ISLAND_RESET 0 isl)

/-! ## Power-up and power-fail -/

/-- AON_POWER_UP (R483). -/
def execAonPowerUp (main : Nat) (back : Nat) (straps : Nat) (s : State) : Host.Outcome State Fault Refusal :=
  s.run (fun h => h.powerUp main back straps)

/-- PMIC_PG_TIMEOUT (R483). -/
def execPmicPgTimeout (s : State) : Host.Outcome State Fault Refusal := s.run (fun h => h.pgTimeout)

/-- PMIC_PG_FALL (R484). -/
def execPmicPgFall (s : State) : Host.Outcome State Fault Refusal := s.run (fun h => h.pgFall)

/-- POWER_FAIL (R486). -/
def execPowerFail (mv : Nat) (s : State) : Host.Outcome State Fault Refusal := s.run (fun h => h.powerFail mv)

end Sys2Proof.Machine
end

