-- ==== Sys2Proof/Machine/PressCmds.lean ====
section
/-!
DEFINITION. The meanings of the commands of chapter 20: counters, Press, bandwidth windows and samplers.
-/
namespace Sys2Proof.Machine

/-- COUNTER_READ (R457). -/
def execCounterRead (r : Req) (s : State) : Host.Outcome State Fault Refusal := s.run (fun h => h.request 0x0901 r Hub.counterReadCmd)

/-- COUNTER_CLEAR_LIST: COUNTER_CLEAR with MODE 0 (R458). -/
def execCounterClearList (r : Req) (s : State) : Host.Outcome State Fault Refusal := s.run (fun h => h.request 0x0902 (force r 0 0) Hub.counterClear)

/-- COUNTER_CLEAR_GROUPS: MODE 1. -/
def execCounterClearGroups (r : Req) (s : State) : Host.Outcome State Fault Refusal :=
  s.run (fun h => h.request 0x0902 (force r 0 1) Hub.counterClear)

/-- COUNTER_SELECT_REPLACE: COUNTER_SELECT with OP 0 (R456). -/
def execCounterSelectReplace (r : Req) (s : State) : Host.Outcome State Fault Refusal :=
  s.run (fun h => h.request 0x0903 (force r 0 0) Hub.counterSelect)

/-- COUNTER_SELECT_ADD: OP 1. -/
def execCounterSelectAdd (r : Req) (s : State) : Host.Outcome State Fault Refusal :=
  s.run (fun h => h.request 0x0903 (force r 0 1) Hub.counterSelect)

/-- COUNTER_SELECT_REMOVE: OP 2. -/
def execCounterSelectRemove (r : Req) (s : State) : Host.Outcome State Fault Refusal :=
  s.run (fun h => h.request 0x0903 (force r 0 2) Hub.counterSelect)

/-- PRESS_STOP: PRESS_CONTROL with OP 0 (R459). -/
def execPressStop (r : Req) (s : State) : Host.Outcome State Fault Refusal := s.run (fun h => h.request 0x0904 (force r 0 0) Hub.pressControl)

/-- PRESS_START: OP 1. -/
def execPressStart (r : Req) (s : State) : Host.Outcome State Fault Refusal := s.run (fun h => h.request 0x0904 (force r 0 1) Hub.pressControl)

/-- PRESS_READ: OP 2. -/
def execPressRead (r : Req) (s : State) : Host.Outcome State Fault Refusal := s.run (fun h => h.request 0x0904 (force r 0 2) Hub.pressControl)

/-- PRESS_LATCH (R460). -/
def execPressLatch (s : State) : Host.Outcome State Fault Refusal := s.run (fun h => h.pressLatch)

/-- BW_WINDOW_END (R461). -/
def execBwWindowEnd (port : Nat) (s : State) : Host.Outcome State Fault Refusal := s.run (fun h => h.windowEnd port)

/-- SAMPLE_CAPTURE (R462). -/
def execSampleCapture (sampler : Nat) (hdr : Nat) (s : State) : Host.Outcome State Fault Refusal := s.run (fun h => h.sampleCapture sampler hdr)

end Sys2Proof.Machine
end

