-- ==== Sys2Proof/Machine/RailCmds.lean ====
section
/-!
DEFINITION. The meanings of the commands of chapter 07: detours, node identity, line time and its pins.
-/
namespace Sys2Proof.Machine

/-! ## Detours -/

/-- DETOUR_CTRL_TX (R199). -/
def execDetourCtrlTx (s : State) : Host.Outcome State Fault Refusal := s.run (fun h => h.detourCtrlTx)

/-- DETOUR_CTRL_RX (R199). -/
def execDetourCtrlRx (frame : List Byte) (s : State) : Host.Outcome State Fault Refusal := s.run (fun h => h.detourCtrlRx frame)

/-- DETOUR_RELEASE_START (R205). -/
def execDetourReleaseStart (port : Nat) (s : State) : Host.Outcome State Fault Refusal := s.run (fun h => h.releaseStart port)

/-- DETOUR_QUIET_END (R205). -/
def execDetourQuietEnd (port : Nat) (s : State) : Host.Outcome State Fault Refusal := s.run (fun h => h.quietEnd port)

/-! ## Identity -/

/-- LINE_STATE_TX (R213). -/
def execLineStateTx (port : Nat) (t : Nat) (s : State) : Host.Outcome State Fault Refusal := s.run (fun h => h.lineStateTx port t)

/-- LINE_STATE_RX (R207, R209, R215). -/
def execLineStateRx (port : Nat) (frame : List Byte) (s : State) : Host.Outcome State Fault Refusal := s.run (fun h => h.lineStateRx port frame)

/-- RL_REENUMERATE (R209). -/
def execRlReenumerate (mb : Nat) (v : Nat) (s : State) : Host.Outcome State Fault Refusal := s.run (fun h => h.writeParam mb P.RL_REENUMERATE 0 v)

/-! ## Line time -/

/-- SYNC_TX (R213). -/
def execSyncTx (port : Nat) (t : Nat) (s : State) : Host.Outcome State Fault Refusal := s.run (fun h => h.syncTx port t)

/-- SYNC_RX (R214, R216). -/
def execSyncRx (port : Nat) (frame : List Byte) (t : Nat) (frac : Nat) (s : State) : Host.Outcome State Fault Refusal :=
  s.run (fun h => h.syncRx port frame t frac)

/-- DELAY_REQ_TX (R213). -/
def execDelayReqTx (port : Nat) (t : Nat) (s : State) : Host.Outcome State Fault Refusal := s.run (fun h => h.delayReqTx port t)

/-- DELAY_REQ_RX (R213). -/
def execDelayReqRx (port : Nat) (frame : List Byte) (t : Nat) (frac : Nat) (s : State) : Host.Outcome State Fault Refusal :=
  s.run (fun h => h.delayReqRx port frame t frac)

/-- DELAY_RESP_TX (R213). -/
def execDelayRespTx (port : Nat) (t : Nat) (s : State) : Host.Outcome State Fault Refusal := s.run (fun h => h.delayRespTx port t)

/-- DELAY_RESP_RX (R214). -/
def execDelayRespRx (port : Nat) (frame : List Byte) (t : Nat) (frac : Nat) (s : State) : Host.Outcome State Fault Refusal :=
  s.run (fun h => h.delayRespRx port frame t frac)

/-- HOLDOVER_EXPIRE (R216). -/
def execHoldoverExpire (s : State) : Host.Outcome State Fault Refusal := s.run (fun h => h.holdoverExpire)

/-- RL_TIME_STEP (R221). -/
def execRlTimeStep (mb : Nat) (v : Nat) (s : State) : Host.Outcome State Fault Refusal := s.run (fun h => h.writeParam mb P.RL_TIME_STEP 0 v)

/-! ## Pins -/

/-- PPS_PULSE (R219). -/
def execPpsPulse (s : State) : Host.Outcome State Fault Refusal := s.run (fun h => h.ppsPulse)

/-- PPS_END (R219). -/
def execPpsEnd (s : State) : Host.Outcome State Fault Refusal := s.run (fun h => h.ppsEnd)

/-- TCAP_EDGE (R220). -/
def execTcapEdge (inp : Nat) (rising : Bool) (t : Nat) (s : State) : Host.Outcome State Fault Refusal := s.run (fun h => h.tcapEdge inp rising t)

/-- TCAP_READ (R220): a read of RL_TCAP_READ. -/
def execTcapRead (inp : Nat) (s : State) : Host.Outcome State Fault Refusal := s.run (fun h => h.readEffect P.RL_TCAP_READ inp)

end Sys2Proof.Machine
end

