-- ==== Sys2Proof/Machine/SupplyCmds.lean ====
section
/-!
DEFINITION. The meanings of the commands of chapters 14 and 15: supplies, fuse channels, islands and crossings.
-/
namespace Sys2Proof.Machine

/-- The fault timer of a channel reaches FU_FAULT_TIME (R351). -/
def Hub.faultTimeout (h : Hub) (c : Nat) : Hub :=
  match h.faultAt c with
  | some t => (h.until t).fuseTrip c 2 0
  | none => h

/-! ## Inputs -/

/-- SUPPLY_SWITCH (R346). -/
def execSupplySwitch (inp : Nat) (v : Inputs) (s : State) : Host.Outcome State Fault Refusal := s.run (fun h => h.inputBad inp v.mv v.other)

/-- SUPPLY_BOTH_BAD (R346): the input in use has gone bad. -/
def execSupplyBothBad (v : Inputs) (s : State) : Host.Outcome State Fault Refusal := s.run (fun h => h.inputBad h.su.inUse v.mv v.other)

/-- SUPPLY_RETURN (R346). -/
def execSupplyReturn (s : State) : Host.Outcome State Fault Refusal := s.run Hub.supplyReturn

/-- IDEAL_DIODE_OFF (R347). -/
def execIdealDiodeOff (inp : Nat) (s : State) : Host.Outcome State Fault Refusal := s.run (fun h => h.diodeOff inp)

/-! ## Fuse channels -/

/-- FUSE_RAMP_DONE (R350, R358): a sample of the output. -/
def execFuseRampDone (f : FuseVolts) (s : State) : Host.Outcome State Fault Refusal := s.run (fun h => h.fuseUp f.ch f.vin f.vout)

/-- FUSE_LIMIT_ENGAGE (R351). -/
def execFuseLimitEngage (f : FuseSample) (s : State) : Host.Outcome State Fault Refusal :=
  s.run (fun h => h.fuseLimitEngage f.ch f.vin f.vout f.mA)

/-- FUSE_LIMIT_RELEASE (R351). -/
def execFuseLimitRelease (f : FuseOut) (s : State) : Host.Outcome State Fault Refusal :=
  s.run (fun h => h.fuseLimitRelease f.ch f.vout f.mA)

/-- FAULT_TIMER_CLEAR (R351). -/
def execFaultTimerClear (ch : Nat) (s : State) : Host.Outcome State Fault Refusal := s.run (fun h => h.faultTimerClear ch)

/-- FAULT_TIMER_TRIP (R351, R355). -/
def execFaultTimerTrip (ch : Nat) (s : State) : Host.Outcome State Fault Refusal := s.run (fun h => h.faultTimeout ch)

/-- SOA_TRIP (R352, R355). -/
def execSoaTrip (ch : Nat) (s : State) : Host.Outcome State Fault Refusal := s.run (fun h => h.soaTrip ch)

/-- CURVE_TRIP (R353, R355). -/
def execCurveTrip (ch : Nat) (hit : CurveHit) (s : State) : Host.Outcome State Fault Refusal := s.run (fun h => h.curveTrip ch hit.k hit.mA)

/-- FAST_TRIP (R354, R355). -/
def execFastTrip (f : FuseAmps) (s : State) : Host.Outcome State Fault Refusal := s.run (fun h => h.fastTrip f.ch f.mA)

/-- FUSE_BACKOFF_END (R356). -/
def execFuseBackoffEnd (ch : Nat) (s : State) : Host.Outcome State Fault Refusal := s.run (fun h => h.fuseBackoffEnd ch)

/-- FUSE_PG_ASSERT (R358). -/
def execFusePgAssert (ch : Nat) (s : State) : Host.Outcome State Fault Refusal := s.run (fun h => h.fusePgAssert ch)

/-- FUSE_PG_HOLD_END (R358). -/
def execFusePgHoldEnd (ch : Nat) (s : State) : Host.Outcome State Fault Refusal := s.run (fun h => h.fusePgHoldEnd ch)

/-- FUSE_RETRY_CLEAR (R356). -/
def execFuseRetryClear (ch : Nat) (s : State) : Host.Outcome State Fault Refusal := s.run (fun h => h.fuseRetryClear ch)

/-- FUSE_INPUT_LOST (R356). -/
def execFuseInputLost (mv : Nat) (s : State) : Host.Outcome State Fault Refusal := s.run (fun h => h.fuseInputLost mv)

/-- FUSE_INPUT_RESTORED (R356). -/
def execFuseInputRestored (mv : Nat) (s : State) : Host.Outcome State Fault Refusal := s.run (fun h => h.fuseInputRestored mv)

/-- FU_ENABLE_WRITE (R356). -/
def execFuEnableWrite (mb : Nat) (v : Nat) (s : State) : Host.Outcome State Fault Refusal := s.run (fun h => h.writeParam mb P.FU_ENABLE 0 v)

/-- FUSE_RETRY (R357). -/
def execFuseRetry (r : Req) (s : State) : Host.Outcome State Fault Refusal := s.run (fun h => h.request 0x0805 r Hub.fuseRetry)

/-! ## Islands and crossings -/

/-- SUPPLY_SKEW (R375). -/
def execSupplySkew (cross : Nat) (mvA : Nat) (mvB : Nat) (s : State) : Host.Outcome State Fault Refusal :=
  s.run (fun h => h.supplySkew cross mvA mvB)

/-- SKEW_RELEASE (R375). -/
def execSkewRelease (cross : Nat) (mvA : Nat) (mvB : Nat) (s : State) : Host.Outcome State Fault Refusal :=
  s.run (fun h => h.skewRelease cross mvA mvB)

/-- SEAM_RESET (R371). -/
def execSeamReset (cross : Nat) (isl : Nat) (items : Nat) (s : State) : Host.Outcome State Fault Refusal :=
  s.run (fun h => h.seamReset cross isl items)

/-- SEAM_RELEASE (R372). -/
def execSeamRelease (cross : Nat) (s : State) : Host.Outcome State Fault Refusal := s.run (fun h => h.seamRelease cross)

/-- CLOCK_REQUEST (R370): the clock restarts and what waited is delivered. -/
def execClockRequest (isl : Nat) (s : State) : Host.Outcome State Fault Refusal := s.run (fun h => (h.clockRequest isl).seamFlow)

/-- AON_TRIM (R376). -/
def execAonTrim (present : Bool) (ppm : Int) (s : State) : Host.Outcome State Fault Refusal := s.run (fun h => h.aonTrim present ppm)

end Sys2Proof.Machine
end

