-- ==== Sys2Proof/Machine/TypeCCmds.lean ====
section
/-!
DEFINITION. The meanings of the commands of chapter 12: Type-C ports and USB Power Delivery.
-/
namespace Sys2Proof.Machine

/-- A termination that appears on a port that was UNATTACHED at entry, and still is, wakes the hub (R324, R383, code 5). -/
def Hub.terminationSeen (h : Hub) (n cc1 cc2 : Nat) : Hub :=
  let wakes := (h.tcp n).state = .unattached && (h.pw.state = .run || (h.tcp n).wakes) && (cc1 = 1 || cc1 = 2 || cc2 = 1 || cc2 = 2)
  let h := h.tcTerminate n cc1 cc2
  if wakes then h.wakeEvent 5 else h

/-- A DisplayPort Status or Attention message (R325): HPD state, and an IRQ, go to the head. -/
def Hub.attentionSeen (h : Hub) (n : Nat) (hpd irq : Bool) : Hub :=
  let h := h.tcAttention n hpd
  if irq && (h.tcp n).alt ≠ 0 then
    match h.routedHead n with
    | some d => h.out (.display d "IRQ" [])
    | none => h
  else h

/-! ## Attachment -/

/-- TC_ENABLE_WRITE (R315). -/
def execTcEnableWrite (tc : Nat) (v : Nat) (s : State) : Host.Outcome State Fault Refusal := s.run (fun h => h.takeEffect [⟨P.TC_ENABLE, tc, v⟩])

/-- TC_TERMINATION (R315, R383). -/
def execTcTermination (tc : Nat) (cc1 : Nat) (cc2 : Nat) (s : State) : Host.Outcome State Fault Refusal :=
  s.run (fun h => h.terminationSeen tc cc1 cc2)

/-- TC_DEBOUNCE_DONE (R311, R312). -/
def execTcDebounceDone (tc : Nat) (s : State) : Host.Outcome State Fault Refusal := s.run (fun h => h.tcDebounced tc)

/-- TC_CC_OPEN (R317). -/
def execTcCcOpen (tc : Nat) (s : State) : Host.Outcome State Fault Refusal := s.run (fun h => h.tcOpen tc)

/-- TC_PD_DEBOUNCE_DONE (R316). -/
def execTcPdDebounceDone (tc : Nat) (s : State) : Host.Outcome State Fault Refusal := s.run (fun h => h.tcOpenDone tc)

/-- TC_VSAFE0 (R316). -/
def execTcVsafe0 (tc : Nat) (s : State) : Host.Outcome State Fault Refusal := s.run (fun h => h.tcVsafe0 tc)

/-! ## Power Delivery -/

/-- TC_REQUEST_RX (R319). -/
def execTcRequestRx (tc : Nat) (pos : Nat) (mA : Nat) (s : State) : Host.Outcome State Fault Refusal := s.run (fun h => h.tcRequest tc pos mA)

/-- TC_POWER_GOOD (R319). -/
def execTcPowerGood (tc : Nat) (s : State) : Host.Outcome State Fault Refusal := s.run (fun h => h.tcPowerGood tc)

/-- TC_EPR_ENTER_RX (R319); the PDP of the sink decides nothing. -/
def execTcEprEnterRx (tc : Nat) (_pdp : Nat) (s : State) : Host.Outcome State Fault Refusal := s.run (fun h => h.tcEprEnter tc)

/-- TC_PR_SWAP_RX (R320). -/
def execTcPrSwapRx (tc : Nat) (s : State) : Host.Outcome State Fault Refusal := s.run (fun h => h.tcPrSwap tc)

/-- TC_DR_SWAP_RX (R320). -/
def execTcDrSwapRx (tc : Nat) (s : State) : Host.Outcome State Fault Refusal := s.run (fun h => h.tcDrSwap tc)

/-- TC_VCONN_SWAP_RX (R320). -/
def execTcVconnSwapRx (tc : Nat) (s : State) : Host.Outcome State Fault Refusal := s.run (fun h => h.tcVconnSwap tc)

/-- TC_HARD_RESET_RX (R323). -/
def execTcHardResetRx (tc : Nat) (s : State) : Host.Outcome State Fault Refusal := s.run (fun h => h.tcHardReset tc false)

/-- TC_REOFFER (R322). -/
def execTcReoffer (tc : Nat) (s : State) : Host.Outcome State Fault Refusal := s.run (fun h => h.tcReoffer tc)

/-- TC_SENDER_RESPONSE_TIMEOUT (R322). -/
def execTcSenderResponseTimeout (tc : Nat) (s : State) : Host.Outcome State Fault Refusal := s.run (fun h => h.tcNoResponse tc)

/-- TC_SINK_DISCONNECT (R315). -/
def execTcSinkDisconnect (tc : Nat) (s : State) : Host.Outcome State Fault Refusal := s.run (fun h => h.tcSinkGone tc)

/-- TC_VCONN_FAULT (R314). -/
def execTcVconnFault (tc : Nat) (s : State) : Host.Outcome State Fault Refusal := s.run (fun h => h.tcVconnFault tc)

/-- TC_ERROR_RECOVERY_END (R315). -/
def execTcErrorRecoveryEnd (tc : Nat) (s : State) : Host.Outcome State Fault Refusal := s.run (fun h => h.tcRecovered tc)

/-- SOURCE_CAPABILITIES_RX (R321). -/
def execSourceCapabilitiesRx (tc : Nat) (pdos : Pdos) (s : State) : Host.Outcome State Fault Refusal := s.run (fun h => h.tcSourceCaps tc pdos.pdos)

/-- PS_RDY_RX (R320, R321). -/
def execPsRdyRx (tc : Nat) (s : State) : Host.Outcome State Fault Refusal := s.run (fun h => h.tcPsRdy tc)

/-- T_SRC_RECOVER_END (R323). -/
def execTSrcRecoverEnd (tc : Nat) (s : State) : Host.Outcome State Fault Refusal := s.run (fun h => h.tcRecoverEnd tc)

/-- EPR_KEEPALIVE_RX (R319). -/
def execEprKeepaliveRx (tc : Nat) (s : State) : Host.Outcome State Fault Refusal := s.run (fun h => h.tcKeepAlive tc)

/-- UNSUPPORTED_PD_MESSAGE_RX (R310). -/
def execUnsupportedPdMessageRx (tc : Nat) (msg : Nat) (s : State) : Host.Outcome State Fault Refusal := s.run (fun h => h.tcUnsupported tc msg)

/-! ## Alt Mode -/

/-- TC_ALT_MODE (R325). -/
def execTcAltMode (tc : Nat) (ack : Bool) (s : State) : Host.Outcome State Fault Refusal := s.run (fun h => h.tcConfigured tc ack)

/-- TC_ATTENTION_RX (R325). -/
def execTcAttentionRx (tc : Nat) (hpd : Bool) (irq : Bool) (s : State) : Host.Outcome State Fault Refusal :=
  s.run (fun h => h.attentionSeen tc hpd irq)

/-- STRUCTURED_VDM_RESPONSE_RX (R314, R325). -/
def execStructuredVdmResponseRx (tc : Nat) (resp : Vdm) (s : State) : Host.Outcome State Fault Refusal := s.run (fun h => h.tcVdm tc resp)

/-! ## Commands -/

/-- TC_SEND_HARD_RESET: TC_PORT_CONTROL with ACTION 1 (R326). -/
def execTcSendHardReset (r : Req) (s : State) : Host.Outcome State Fault Refusal := s.run (fun h => h.request 0x0C02 (force r 1 1) Hub.tcControl)

/-- TC_REQUEST_PR_SWAP: ACTION 2. -/
def execTcRequestPrSwap (r : Req) (s : State) : Host.Outcome State Fault Refusal := s.run (fun h => h.request 0x0C02 (force r 1 2) Hub.tcControl)

/-- TC_REQUEST_DR_SWAP: ACTION 3. -/
def execTcRequestDrSwap (r : Req) (s : State) : Host.Outcome State Fault Refusal := s.run (fun h => h.request 0x0C02 (force r 1 3) Hub.tcControl)

/-- TC_REQUEST_VCONN_SWAP: ACTION 4. -/
def execTcRequestVconnSwap (r : Req) (s : State) : Host.Outcome State Fault Refusal := s.run (fun h => h.request 0x0C02 (force r 1 4) Hub.tcControl)

/-- TC_REOFFER_CAPABILITIES: ACTION 5. -/
def execTcReofferCapabilities (r : Req) (s : State) : Host.Outcome State Fault Refusal :=
  s.run (fun h => h.request 0x0C02 (force r 1 5) Hub.tcControl)

/-- TC_EXIT_ALT_MODE: ACTION 6. -/
def execTcExitAltMode (r : Req) (s : State) : Host.Outcome State Fault Refusal := s.run (fun h => h.request 0x0C02 (force r 1 6) Hub.tcControl)

/-- TC_PORT_STATUS (R326). -/
def execTcPortStatus (r : Req) (s : State) : Host.Outcome State Fault Refusal := s.run (fun h => h.request 0x0C03 r Hub.tcStatus)

end Sys2Proof.Machine
end

