-- ==== Sys2Proof/Machine/UsbCmds.lean ====
section
/-!
DEFINITION. The meanings of the commands of chapter 11: USB ports, bindings, the host ring and the service port.
-/
namespace Sys2Proof.Machine

/-- A register offset that R34 lists, or one of the MB2 windows. -/
def listedRegister (o : Nat) : Bool :=
  o % 4 == 0 && (o ≤ 0x34 || (mbOffset o).any (fun m => m.2 ≤ 0x1C) || (0x8000 ≤ o && o < 0x10000))

/-- A vendor request of the form R307 lists for a register: wValue 0, wLength 4, and a register's offset. -/
def setupFor (q : Setup) (type request : Nat) : Bool :=
  q.type == type && q.request == request && q.value == 0 && q.length == 4 && listedRegister q.index

/-- The service port answers a vendor request with STALL (R307). -/
def Hub.svcStall (h : Hub) : Hub := h.out (.usb 8 "SVC_STALL" [])

/-- The descriptors of the service port (R306): its device descriptor, and its configuration with the interface and the three endpoints.  Fields of
the USB 2.0 standard that R306 does not give are presumed (log 167). -/
def svcDescriptor (type : Nat) : Option (List Byte) :=
  if type = 1 then
    some ([18#8, 1#8] ++ leBytes 2 0x0200 ++ [0#8, 0#8, 0#8, 64#8] ++ leBytes 2 0xA7DE ++ leBytes 2 0x9241 ++ leBytes 2 devRev ++ [0#8, 0#8, 0#8, 1#8])
  else if type = 2 then
    some ([9#8, 2#8] ++ leBytes 2 39 ++ [1#8, 1#8, 0#8, 0xE0#8, 0#8, 9#8, 4#8, 0#8, 0#8, 3#8, 0xFF#8, 0x01#8, 0x01#8, 0#8] ++
      [7#8, 5#8, 0x01#8, 2#8] ++ leBytes 2 512 ++ [0#8, 7#8, 5#8, 0x82#8, 2#8] ++ leBytes 2 512 ++ [0#8, 7#8, 5#8, 0x83#8, 3#8] ++ leBytes 2 8 ++ [4#8])
  else none

/-- A control request that reads, on the service port: REG_READ returns the register, the standard request for a descriptor returns it, and any
other is answered with STALL (R306, R307). -/
def Hub.svcRead (h : Hub) (q : Setup) : Hub :=
  if !h.svcHost then h
  else if setupFor q 0xC0 1 then
    let r := h.reach.readRegister q.index
    r.2.out (.svc 0 (leBytes 4 r.1))
  else
    match (if q.type = 0x80 && q.request = 6 && q.value % 256 = 0 then svcDescriptor (q.value / 256) else none) with
    | some d => h.out (.svc 0 (d.take q.length))
    | none => h.svcStall

/-- A control request that writes 4 bytes, on the service port: REG_WRITE acts, at its status stage, and any other is answered with STALL (R307). -/
def Hub.svcWrite (h : Hub) (q : Setup) (v : Nat) : Hub :=
  if !h.svcHost then h else if setupFor q 0x40 2 then h.reach.writeRegister q.index v else h.svcStall

/-- A whole message arrives on EP1 (R30, R306). -/
def Hub.svcMessage (h : Hub) (bs : List Byte) : Hub :=
  if h.svcHost && h.usb.svc.configured && !h.usb.svc.suspended then (h.place 3 bs 1024).examine 3 else h

/-! ## Transfers and port commands -/

/-- TRANSFER (R295, R296). -/
def execTransfer (f : Frame) (s : State) : Host.Outcome State Fault Refusal := s.run (fun h => h.usbRx f)

/-- USB_TRANSFER_COMPLETE (R296). -/
def execUsbTransferComplete (up : Nat) (ep : Nat) (result : Nat) (data : List Byte) (s : State) : Host.Outcome State Fault Refusal :=
  s.run (fun h => h.usbDone up ep result data)

/-- POWER_ON (R297). -/
def execPowerOn (f : Frame) (s : State) : Host.Outcome State Fault Refusal := s.run (fun h => h.usbRx f)

/-- POWER_OFF (R297). -/
def execPowerOff (f : Frame) (s : State) : Host.Outcome State Fault Refusal := s.run (fun h => h.usbRx f)

/-- RESET (R297). -/
def execReset (f : Frame) (s : State) : Host.Outcome State Fault Refusal := s.run (fun h => h.usbRx f)

/-- SUSPEND (R297). -/
def execSuspend (f : Frame) (s : State) : Host.Outcome State Fault Refusal := s.run (fun h => h.usbRx f)

/-- RESUME (R297). -/
def execResume (f : Frame) (s : State) : Host.Outcome State Fault Refusal := s.run (fun h => h.usbRx f)

/-- STATUS (R297). -/
def execStatus (f : Frame) (s : State) : Host.Outcome State Fault Refusal := s.run (fun h => h.usbRx f)

/-- ABORT (R297). -/
def execAbort (f : Frame) (s : State) : Host.Outcome State Fault Refusal := s.run (fun h => h.usbRx f)

/-- USB_MSG_BAD (R295). -/
def execUsbMsgBad (f : Frame) (s : State) : Host.Outcome State Fault Refusal := s.run (fun h => h.usbRx f)

/-! ## Ports, bindings and SOF -/

/-- US_RING_POLL (R300). -/
def execUsRingPoll (s : State) : Host.Outcome State Fault Refusal := s.run (fun h => h.ringPoll)

/-- USB_OVERCURRENT (R301). -/
def execUsbOvercurrent (up : Nat) (s : State) : Host.Outcome State Fault Refusal := s.run (fun h => h.usbOvercurrent up)

/-- USB_IDLE_SUSPEND (R302). -/
def execUsbIdleSuspend (up : Nat) (s : State) : Host.Outcome State Fault Refusal := s.run (fun h => h.usbIdle up)

/-- USB_REMOTE_WAKE (R302). -/
def execUsbRemoteWake (up : Nat) (s : State) : Host.Outcome State Fault Refusal := s.run (fun h => h.usbWake up)

/-- USB_ATTACH (R309). -/
def execUsbAttach (up : Nat) (attach : Bool) (speed : Nat) (s : State) : Host.Outcome State Fault Refusal :=
  s.run (fun h => h.usbAttach up attach speed)

/-- BINDING_POLL (R303). -/
def execBindingPoll (idx : Nat) (s : State) : Host.Outcome State Fault Refusal := s.run (fun h => h.bindingPoll idx)

/-- USB_REPORT (R303). -/
def execUsbReport (idx : Nat) (bytes : List Byte) (s : State) : Host.Outcome State Fault Refusal := s.run (fun h => h.usbReport idx bytes)

/-- SOF_MICROFRAME (R304, R305). -/
def execSofMicroframe (s : State) : Host.Outcome State Fault Refusal := s.run (fun h => h.sof)

/-- USB_PORT_CONTROL (R45). -/
def execUsbPortControl (r : Req) (s : State) : Host.Outcome State Fault Refusal := s.run (fun h => h.request 0x0C01 r Hub.usbPortControl)

/-- RESUME_RECOVERY_END (R302). -/
def execResumeRecoveryEnd (up : Nat) (s : State) : Host.Outcome State Fault Refusal := s.run (fun h => h.resumeEnd up)

/-! ## Service port -/

/-- SVC_ATTACH (R306). -/
def execSvcAttach (s : State) (bus : SvcBus := ⟨true, false, 0, false, false⟩) : Host.Outcome State Fault Refusal := s.run (fun h => h.svcAttach bus)

/-- SVC_REQUEST (R30). -/
def execSvcRequest (bytes : List Byte) (s : State) : Host.Outcome State Fault Refusal := s.run (fun h => h.svcMessage bytes)

/-- REG_READ (R307). -/
def execRegRead (setup : Setup) (s : State) : Host.Outcome State Fault Refusal := s.run (fun h => h.svcRead setup)

/-- REG_WRITE (R307). -/
def execRegWrite (setup : Setup) (value : Nat) (s : State) : Host.Outcome State Fault Refusal := s.run (fun h => h.svcWrite setup value)

/-- SVC_MB_RESET (R307). -/
def execSvcMbReset (s : State) : Host.Outcome State Fault Refusal := s.run (fun h => if h.svcHost then (h.mbReset 3).ring 3 else h)

/-- GET_IDENTITY (R307). -/
def execGetIdentity (s : State) : Host.Outcome State Fault Refusal := s.run (fun h => if h.svcHost then h.out (.svc 0 h.identity) else h)

/-- SVC_BUS_RESET (R308). -/
def execSvcBusReset (s : State) (cut : SvcCut := ⟨0, 0, false, false⟩) : Host.Outcome State Fault Refusal := s.run (fun h => h.svcBusReset cut)

end Sys2Proof.Machine
end

