-- ==== Sys2Proof/Machine/Dispatch.lean ====
section
/-!
DEFINITION. The one dispatch: each command's arm calls its meaning.
-/
namespace Sys2Proof.Machine

def exec (i : Instr) (s : State) : Host.Outcome State Fault Refusal :=
  match i with
  | .identify r => Sys2Proof.Machine.execIdentify r s
  | .paramGet r => Sys2Proof.Machine.execParamGet r s
  | .paramSet r => Sys2Proof.Machine.execParamSet r s
  | .paramList r => Sys2Proof.Machine.execParamList r s
  | .systemReset r => Sys2Proof.Machine.execSystemReset r s
  | .echo r => Sys2Proof.Machine.execEcho r s
  | .unknownCommand cmd r => Sys2Proof.Machine.execUnknownCommand cmd r s
  | .msgShort mb nbytes => Sys2Proof.Machine.execMsgShort mb nbytes s
  | .txnBegin r => Sys2Proof.Machine.execTxnBegin r s
  | .txnCommit r => Sys2Proof.Machine.execTxnCommit r s
  | .txnCommitAt r => Sys2Proof.Machine.execTxnCommitAt r s
  | .txnAbort r => Sys2Proof.Machine.execTxnAbort r s
  | .txnStatus r => Sys2Proof.Machine.execTxnStatus r s
  | .txnTimeout mb => Sys2Proof.Machine.execTxnTimeout mb s
  | .txnScheduledApply mb => Sys2Proof.Machine.execTxnScheduledApply mb s
  | .txnCommitDone token => Sys2Proof.Machine.execTxnCommitDone token s
  | .stepStatus r => Sys2Proof.Machine.execStepStatus r s
  | .stepCancel r => Sys2Proof.Machine.execStepCancel r s
  | .longOpStep progress => Sys2Proof.Machine.execLongOpStep progress s
  | .pairTimeout pid inst => Sys2Proof.Machine.execPairTimeout pid inst s
  | .doorbell mb => Sys2Proof.Machine.execDoorbell mb s
  | .ringPoll mb => Sys2Proof.Machine.execRingPoll mb s
  | .mbReset mb => Sys2Proof.Machine.execMbReset mb s
  | .rspHeadWrite mb idx => Sys2Proof.Machine.execRspHeadWrite mb idx s
  | .mb0ReturnSend => Sys2Proof.Machine.execMb0ReturnSend s
  | .intStatusClear mask => Sys2Proof.Machine.execIntStatusClear mask s
  | .intForce mask => Sys2Proof.Machine.execIntForce mask s
  | .ltimeRead => Sys2Proof.Machine.execLtimeRead s
  | .registerWrite offset size value => Sys2Proof.Machine.execRegisterWrite offset size value s
  | .heartbeat => Sys2Proof.Machine.execHeartbeat s
  | .tableRead r => Sys2Proof.Machine.execTableRead r s
  | .tableWrite r => Sys2Proof.Machine.execTableWrite r s
  | .tableLoad r => Sys2Proof.Machine.execTableLoad r s
  | .tableLoadDone token => Sys2Proof.Machine.execTableLoadDone token s
  | .tableClear r => Sys2Proof.Machine.execTableClear r s
  | .signalDetect port => Sys2Proof.Machine.execSignalDetect port s
  | .identDone port repeats => Sys2Proof.Machine.execIdentDone port repeats s
  | .identTimeout port => Sys2Proof.Machine.execIdentTimeout port s
  | .trainDone port => Sys2Proof.Machine.execTrainDone port s
  | .trainTimeout port => Sys2Proof.Machine.execTrainTimeout port s
  | .trainFailWaitEnd port => Sys2Proof.Machine.execTrainFailWaitEnd port s
  | .trainSignalLoss port => Sys2Proof.Machine.execTrainSignalLoss port s
  | .measureDone port errs => Sys2Proof.Machine.execMeasureDone port errs s
  | .measureTimeout port => Sys2Proof.Machine.execMeasureTimeout port s
  | .measureAbandon port => Sys2Proof.Machine.execMeasureAbandon port s
  | .codewordLock port run => Sys2Proof.Machine.execCodewordLock port run s
  | .portSignalLoss port => Sys2Proof.Machine.execPortSignalLoss port s
  | .lockLoss port run => Sys2Proof.Machine.execLockLoss port run s
  | .heldSignalLoss port => Sys2Proof.Machine.execHeldSignalLoss port s
  | .lnEnableWrite port v => Sys2Proof.Machine.execLnEnableWrite port v s
  | .lnRetrain port v => Sys2Proof.Machine.execLnRetrain port v s
  | .trainFrameRx port frame => Sys2Proof.Machine.execTrainFrameRx port frame s
  | .statusFrameRx port frame => Sys2Proof.Machine.execStatusFrameRx port frame s
  | .sideFrameBad f => Sys2Proof.Machine.execSideFrameBad f s
  | .statusTx port => Sys2Proof.Machine.execStatusTx port s
  | .blockRx port words => Sys2Proof.Machine.execBlockRx port words s
  | .darnAckTx port => Sys2Proof.Machine.execDarnAckTx port s
  | .darnNakRepeat port => Sys2Proof.Machine.execDarnNakRepeat port s
  | .darnAck port seq => Sys2Proof.Machine.execDarnAck port seq s
  | .darnNak port seq reason => Sys2Proof.Machine.execDarnNak port seq reason s
  | .darnReplay port seq => Sys2Proof.Machine.execDarnReplay port seq s
  | .darnReplayTimeout port => Sys2Proof.Machine.execDarnReplayTimeout port s
  | .linkLocalBad port cell => Sys2Proof.Machine.execLinkLocalBad port cell s
  | .marginMeasure port lane v h => Sys2Proof.Machine.execMarginMeasure port lane v h s
  | .degradeWindow port lane corrected bits uncorr => Sys2Proof.Machine.execDegradeWindow port lane corrected bits uncorr s
  | .tailWait => Sys2Proof.Machine.execTailWait s
  | .lineCellRx port cell => Sys2Proof.Machine.execLineCellRx port cell s
  | .tunnelCellRx out cls => Sys2Proof.Machine.execTunnelCellRx out cls s
  | .resyncRx entry cell => Sys2Proof.Machine.execResyncRx entry cell s
  | .tunnelControlRx entry cell => Sys2Proof.Machine.execTunnelControlRx entry cell s
  | .gapWaitExpire entry src => Sys2Proof.Machine.execGapWaitExpire entry src s
  | .reasmTimeout entry src => Sys2Proof.Machine.execReasmTimeout entry src s
  | .frameSend out entry bytes counted => Sys2Proof.Machine.execFrameSend out entry bytes counted s
  | .shaperRelease entry => Sys2Proof.Machine.execShaperRelease entry s
  | .discardEntryExpire buf => Sys2Proof.Machine.execDiscardEntryExpire buf s
  | .outputCellSend out => Sys2Proof.Machine.execOutputCellSend out s
  | .creditTx port => Sys2Proof.Machine.execCreditTx port s
  | .creditRx port cls limit => Sys2Proof.Machine.execCreditRx port cls limit s
  | .creditStall port cls => Sys2Proof.Machine.execCreditStall port cls s
  | .allotBoundary => Sys2Proof.Machine.execAllotBoundary s
  | .epochArm mb v => Sys2Proof.Machine.execEpochArm mb v s
  | .epochCopyTx => Sys2Proof.Machine.execEpochCopyTx s
  | .epochCancel mb id => Sys2Proof.Machine.execEpochCancel mb id s
  | .epochRx port cell => Sys2Proof.Machine.execEpochRx port cell s
  | .epochCancelRx port cell => Sys2Proof.Machine.execEpochCancelRx port cell s
  | .epochSwap => Sys2Proof.Machine.execEpochSwap s
  | .govEvaluate power => Sys2Proof.Machine.execGovEvaluate power s
  | .govDwellExpire => Sys2Proof.Machine.execGovDwellExpire s
  | .detourCtrlTx => Sys2Proof.Machine.execDetourCtrlTx s
  | .detourCtrlRx frame => Sys2Proof.Machine.execDetourCtrlRx frame s
  | .detourReleaseStart port => Sys2Proof.Machine.execDetourReleaseStart port s
  | .detourQuietEnd port => Sys2Proof.Machine.execDetourQuietEnd port s
  | .lineStateTx port t => Sys2Proof.Machine.execLineStateTx port t s
  | .lineStateRx port frame => Sys2Proof.Machine.execLineStateRx port frame s
  | .rlReenumerate mb v => Sys2Proof.Machine.execRlReenumerate mb v s
  | .syncTx port t => Sys2Proof.Machine.execSyncTx port t s
  | .syncRx port frame t frac => Sys2Proof.Machine.execSyncRx port frame t frac s
  | .delayReqTx port t => Sys2Proof.Machine.execDelayReqTx port t s
  | .delayReqRx port frame t frac => Sys2Proof.Machine.execDelayReqRx port frame t frac s
  | .delayRespTx port t => Sys2Proof.Machine.execDelayRespTx port t s
  | .delayRespRx port frame t frac => Sys2Proof.Machine.execDelayRespRx port frame t frac s
  | .holdoverExpire => Sys2Proof.Machine.execHoldoverExpire s
  | .rlTimeStep mb v => Sys2Proof.Machine.execRlTimeStep mb v s
  | .ppsPulse => Sys2Proof.Machine.execPpsPulse s
  | .ppsEnd => Sys2Proof.Machine.execPpsEnd s
  | .tcapEdge inp rising t => Sys2Proof.Machine.execTcapEdge inp rising t s
  | .tcapRead inp => Sys2Proof.Machine.execTcapRead inp s
  | .deDispatch => Sys2Proof.Machine.execDeDispatch s
  | .decisionFrameRx f => Sys2Proof.Machine.execDecisionFrameRx f s
  | .gpioEdge pin rising t => Sys2Proof.Machine.execGpioEdge pin rising t s
  | .actuateRx f => Sys2Proof.Machine.execActuateRx f s
  | .edgeReportRx f => Sys2Proof.Machine.execEdgeReportRx f s
  | .actuateDue pin => Sys2Proof.Machine.execActuateDue pin s
  | .pulseEnd pin => Sys2Proof.Machine.execPulseEnd pin s
  | .deBankLoad r => Sys2Proof.Machine.execDeBankLoad r s
  | .deBankLoadDone token => Sys2Proof.Machine.execDeBankLoadDone token s
  | .deBankCheck r => Sys2Proof.Machine.execDeBankCheck r s
  | .deBankCheckDone token => Sys2Proof.Machine.execDeBankCheckDone token s
  | .deBankStatus r => Sys2Proof.Machine.execDeBankStatus r s
  | .deLookup r => Sys2Proof.Machine.execDeLookup r s
  | .apertureRequest q => Sys2Proof.Machine.execApertureRequest q s
  | .windowWriteRx f => Sys2Proof.Machine.execWindowWriteRx f s
  | .windowWriteNpRx f => Sys2Proof.Machine.execWindowWriteNpRx f s
  | .windowReadRx f => Sys2Proof.Machine.execWindowReadRx f s
  | .targetCompletion id status data => Sys2Proof.Machine.execTargetCompletion id status data s
  | .windowCompletionRx f => Sys2Proof.Machine.execWindowCompletionRx f s
  | .windowWriteAckRx f => Sys2Proof.Machine.execWindowWriteAckRx f s
  | .windowFrameBad f => Sys2Proof.Machine.execWindowFrameBad f s
  | .cplTimeout tag => Sys2Proof.Machine.execCplTimeout tag s
  | .prefetchExpire win => Sys2Proof.Machine.execPrefetchExpire win s
  | .noticeSend origin tid win => Sys2Proof.Machine.execNoticeSend origin tid win s
  | .writeErrorNoticeRx cell => Sys2Proof.Machine.execWriteErrorNoticeRx cell s
  | .pcieIslandReset cause => Sys2Proof.Machine.execPcieIslandReset cause s
  | .pcieLink up rate set => Sys2Proof.Machine.execPcieLink up rate set s
  | .intxDrop => Sys2Proof.Machine.execIntxDrop s
  | .brLinkReset mb v => Sys2Proof.Machine.execBrLinkReset mb v s
  | .brPwerrClear mb v => Sys2Proof.Machine.execBrPwerrClear mb v s
  | .brPwerrOverflowRead mb => Sys2Proof.Machine.execBrPwerrOverflowRead mb s
  | .ethFrameRx eth f => Sys2Proof.Machine.execEthFrameRx eth f s
  | .pauseExpire eth => Sys2Proof.Machine.execPauseExpire eth s
  | .ethRxAdmit eth => Sys2Proof.Machine.execEthRxAdmit eth s
  | .pauseTx eth => Sys2Proof.Machine.execPauseTx eth s
  | .pauseRepeat eth => Sys2Proof.Machine.execPauseRepeat eth s
  | .ethFrameTx f => Sys2Proof.Machine.execEthFrameTx f s
  | .ethPortRestart eth enable mode => Sys2Proof.Machine.execEthPortRestart eth enable mode s
  | .ethLink eth up => Sys2Proof.Machine.execEthLink eth up s
  | .transfer f => Sys2Proof.Machine.execTransfer f s
  | .usbTransferComplete up ep result data => Sys2Proof.Machine.execUsbTransferComplete up ep result data s
  | .powerOn f => Sys2Proof.Machine.execPowerOn f s
  | .powerOff f => Sys2Proof.Machine.execPowerOff f s
  | .reset f => Sys2Proof.Machine.execReset f s
  | .suspend f => Sys2Proof.Machine.execSuspend f s
  | .resume f => Sys2Proof.Machine.execResume f s
  | .status f => Sys2Proof.Machine.execStatus f s
  | .abort f => Sys2Proof.Machine.execAbort f s
  | .usbMsgBad f => Sys2Proof.Machine.execUsbMsgBad f s
  | .usRingPoll => Sys2Proof.Machine.execUsRingPoll s
  | .usbOvercurrent up => Sys2Proof.Machine.execUsbOvercurrent up s
  | .usbIdleSuspend up => Sys2Proof.Machine.execUsbIdleSuspend up s
  | .usbRemoteWake up => Sys2Proof.Machine.execUsbRemoteWake up s
  | .usbAttach up attach speed => Sys2Proof.Machine.execUsbAttach up attach speed s
  | .bindingPoll idx => Sys2Proof.Machine.execBindingPoll idx s
  | .usbReport idx bytes => Sys2Proof.Machine.execUsbReport idx bytes s
  | .sofMicroframe => Sys2Proof.Machine.execSofMicroframe s
  | .usbPortControl r => Sys2Proof.Machine.execUsbPortControl r s
  | .svcAttach bus => Sys2Proof.Machine.execSvcAttach s bus
  | .svcRequest bytes => Sys2Proof.Machine.execSvcRequest bytes s
  | .regRead setup => Sys2Proof.Machine.execRegRead setup s
  | .regWrite setup value => Sys2Proof.Machine.execRegWrite setup value s
  | .svcMbReset => Sys2Proof.Machine.execSvcMbReset s
  | .getIdentity => Sys2Proof.Machine.execGetIdentity s
  | .svcBusReset cut => Sys2Proof.Machine.execSvcBusReset s cut
  | .tcEnableWrite tc v => Sys2Proof.Machine.execTcEnableWrite tc v s
  | .tcTermination tc cc1 cc2 => Sys2Proof.Machine.execTcTermination tc cc1 cc2 s
  | .tcDebounceDone tc => Sys2Proof.Machine.execTcDebounceDone tc s
  | .tcCcOpen tc => Sys2Proof.Machine.execTcCcOpen tc s
  | .tcPdDebounceDone tc => Sys2Proof.Machine.execTcPdDebounceDone tc s
  | .tcVsafe0 tc => Sys2Proof.Machine.execTcVsafe0 tc s
  | .tcRequestRx tc pos mA => Sys2Proof.Machine.execTcRequestRx tc pos mA s
  | .tcPowerGood tc => Sys2Proof.Machine.execTcPowerGood tc s
  | .tcEprEnterRx tc pdp => Sys2Proof.Machine.execTcEprEnterRx tc pdp s
  | .tcPrSwapRx tc => Sys2Proof.Machine.execTcPrSwapRx tc s
  | .tcDrSwapRx tc => Sys2Proof.Machine.execTcDrSwapRx tc s
  | .tcVconnSwapRx tc => Sys2Proof.Machine.execTcVconnSwapRx tc s
  | .tcHardResetRx tc => Sys2Proof.Machine.execTcHardResetRx tc s
  | .tcReoffer tc => Sys2Proof.Machine.execTcReoffer tc s
  | .tcSenderResponseTimeout tc => Sys2Proof.Machine.execTcSenderResponseTimeout tc s
  | .tcSinkDisconnect tc => Sys2Proof.Machine.execTcSinkDisconnect tc s
  | .tcVconnFault tc => Sys2Proof.Machine.execTcVconnFault tc s
  | .tcErrorRecoveryEnd tc => Sys2Proof.Machine.execTcErrorRecoveryEnd tc s
  | .tcAltMode tc ack => Sys2Proof.Machine.execTcAltMode tc ack s
  | .tcAttentionRx tc hpd irq => Sys2Proof.Machine.execTcAttentionRx tc hpd irq s
  | .tcSendHardReset r => Sys2Proof.Machine.execTcSendHardReset r s
  | .tcRequestPrSwap r => Sys2Proof.Machine.execTcRequestPrSwap r s
  | .tcRequestDrSwap r => Sys2Proof.Machine.execTcRequestDrSwap r s
  | .tcRequestVconnSwap r => Sys2Proof.Machine.execTcRequestVconnSwap r s
  | .tcReofferCapabilities r => Sys2Proof.Machine.execTcReofferCapabilities r s
  | .tcExitAltMode r => Sys2Proof.Machine.execTcExitAltMode r s
  | .tcPortStatus r => Sys2Proof.Machine.execTcPortStatus r s
  | .dsLinePacket f => Sys2Proof.Machine.execDsLinePacket f s
  | .dsPpsRx entry cell => Sys2Proof.Machine.execDsPpsRx entry cell s
  | .dsFrameBoundary head => Sys2Proof.Machine.execDsFrameBoundary head s
  | .dsUnderrun head line pixel => Sys2Proof.Machine.execDsUnderrun head line pixel s
  | .dsHpd head irq lanes rate => Sys2Proof.Machine.execDsHpd head irq lanes rate s
  | .dsRouteWrite mb head v => Sys2Proof.Machine.execDsRouteWrite mb head v s
  | .dsSignatureRead r => Sys2Proof.Machine.execDsSignatureRead r s
  | .dsAlarmClear r => Sys2Proof.Machine.execDsAlarmClear r s
  | .supplySwitch inp v => Sys2Proof.Machine.execSupplySwitch inp v s
  | .supplyBothBad v => Sys2Proof.Machine.execSupplyBothBad v s
  | .supplyReturn => Sys2Proof.Machine.execSupplyReturn s
  | .idealDiodeOff inp => Sys2Proof.Machine.execIdealDiodeOff inp s
  | .fuseRampDone f => Sys2Proof.Machine.execFuseRampDone f s
  | .fuseLimitEngage f => Sys2Proof.Machine.execFuseLimitEngage f s
  | .fuseLimitRelease f => Sys2Proof.Machine.execFuseLimitRelease f s
  | .faultTimerClear ch => Sys2Proof.Machine.execFaultTimerClear ch s
  | .faultTimerTrip ch => Sys2Proof.Machine.execFaultTimerTrip ch s
  | .soaTrip ch => Sys2Proof.Machine.execSoaTrip ch s
  | .curveTrip ch hit => Sys2Proof.Machine.execCurveTrip ch hit s
  | .fastTrip f => Sys2Proof.Machine.execFastTrip f s
  | .fuseBackoffEnd ch => Sys2Proof.Machine.execFuseBackoffEnd ch s
  | .fusePgAssert ch => Sys2Proof.Machine.execFusePgAssert ch s
  | .fusePgHoldEnd ch => Sys2Proof.Machine.execFusePgHoldEnd ch s
  | .fuseRetryClear ch => Sys2Proof.Machine.execFuseRetryClear ch s
  | .fuseInputLost mv => Sys2Proof.Machine.execFuseInputLost mv s
  | .fuseInputRestored mv => Sys2Proof.Machine.execFuseInputRestored mv s
  | .fuEnableWrite mb v => Sys2Proof.Machine.execFuEnableWrite mb v s
  | .fuseRetry r => Sys2Proof.Machine.execFuseRetry r s
  | .supplySkew cross mvA mvB => Sys2Proof.Machine.execSupplySkew cross mvA mvB s
  | .skewRelease cross mvA mvB => Sys2Proof.Machine.execSkewRelease cross mvA mvB s
  | .seamReset cross isl items => Sys2Proof.Machine.execSeamReset cross isl items s
  | .seamRelease cross => Sys2Proof.Machine.execSeamRelease cross s
  | .clockRequest isl => Sys2Proof.Machine.execClockRequest isl s
  | .aonTrim present ppm => Sys2Proof.Machine.execAonTrim present ppm s
  | .pwrEnterRun r => Sys2Proof.Machine.execPwrEnterRun r s
  | .pwrEnterDoze r => Sys2Proof.Machine.execPwrEnterDoze r s
  | .pwrEnterRest r => Sys2Proof.Machine.execPwrEnterRest r s
  | .pwrEntryDone => Sys2Proof.Machine.execPwrEntryDone s
  | .foldArmedEntry => Sys2Proof.Machine.execFoldArmedEntry s
  | .wakeEvent code => Sys2Proof.Machine.execWakeEvent code s
  | .wakeOutEnd => Sys2Proof.Machine.execWakeOutEnd s
  | .pwrStatus r => Sys2Proof.Machine.execPwrStatus r s
  | .lineFold r => Sys2Proof.Machine.execLineFold r s
  | .foldPace => Sys2Proof.Machine.execFoldPace s
  | .foldTimeout => Sys2Proof.Machine.execFoldTimeout s
  | .lineUnfold r => Sys2Proof.Machine.execLineUnfold r s
  | .thermalShutdown sensor reading => Sys2Proof.Machine.execThermalShutdown sensor reading s
  | .thermalRestart => Sys2Proof.Machine.execThermalRestart s
  | .resetNPulse width => Sys2Proof.Machine.execResetNPulse width s
  | .resetNLong => Sys2Proof.Machine.execResetNLong s
  | .warmReset cause straps => Sys2Proof.Machine.execWarmReset cause straps s
  | .pwIslandReset mb isl => Sys2Proof.Machine.execPwIslandReset mb isl s
  | .tagFill mb v => Sys2Proof.Machine.execTagFill mb v s
  | .guardDrainTimeout => Sys2Proof.Machine.execGuardDrainTimeout s
  | .guardDrained => Sys2Proof.Machine.execGuardDrained s
  | .debugAccess space addr len write data => Sys2Proof.Machine.execDebugAccess space addr len write data s
  | .agViolClear mb v => Sys2Proof.Machine.execAgViolClear mb v s
  | .agViolOverflowRead mb => Sys2Proof.Machine.execAgViolOverflowRead mb s
  | .keyUpdateWrite r => Sys2Proof.Machine.execKeyUpdateWrite r s
  | .keyUpdateErase r => Sys2Proof.Machine.execKeyUpdateErase r s
  | .keyUpdateDone token => Sys2Proof.Machine.execKeyUpdateDone token s
  | .keyStatus r => Sys2Proof.Machine.execKeyStatus r s
  | .lcTransition r => Sys2Proof.Machine.execLcTransition r s
  | .debugUnlock r => Sys2Proof.Machine.execDebugUnlock r s
  | .debugUnlockEnd => Sys2Proof.Machine.execDebugUnlockEnd s
  | .tamperAlarm a => Sys2Proof.Machine.execTamperAlarm a s
  | .tamperConditionEnd src => Sys2Proof.Machine.execTamperConditionEnd src s
  | .tamperRinseDone => Sys2Proof.Machine.execTamperRinseDone s
  | .kyTamperClear mb v => Sys2Proof.Machine.execKyTamperClear mb v s
  | .bootRomStart => Sys2Proof.Machine.execBootRomStart s
  | .horestStart => Sys2Proof.Machine.execHorestStart s
  | .fullService => Sys2Proof.Machine.execFullService s
  | .watchdog pc => Sys2Proof.Machine.execWatchdog pc s
  | .configStoreWrite => Sys2Proof.Machine.execConfigStoreWrite s
  | .fwStageBegin r => Sys2Proof.Machine.execFwStageBegin r s
  | .fwStageData r => Sys2Proof.Machine.execFwStageData r s
  | .fwStageEnd r => Sys2Proof.Machine.execFwStageEnd r s
  | .fwStageTimeout => Sys2Proof.Machine.execFwStageTimeout s
  | .fwActivatePending r => Sys2Proof.Machine.execFwActivatePending r s
  | .fwActivateReset r => Sys2Proof.Machine.execFwActivateReset r s
  | .fwActivateAt r => Sys2Proof.Machine.execFwActivateAt r s
  | .fwActivateTimeReached => Sys2Proof.Machine.execFwActivateTimeReached s
  | .fwActivateConfirm r => Sys2Proof.Machine.execFwActivateConfirm r s
  | .fwActivateFloor r => Sys2Proof.Machine.execFwActivateFloor r s
  | .fwActivateCancel r => Sys2Proof.Machine.execFwActivateCancel r s
  | .fwConfirmTimer => Sys2Proof.Machine.execFwConfirmTimer s
  | .fwStatus r => Sys2Proof.Machine.execFwStatus r s
  | .sensorSample kind idx value => Sys2Proof.Machine.execSensorSample kind idx value s
  | .sensorRead r => Sys2Proof.Machine.execSensorRead r s
  | .logRead r => Sys2Proof.Machine.execLogRead r s
  | .logClear r => Sys2Proof.Machine.execLogClear r s
  | .lintFlashWrite => Sys2Proof.Machine.execLintFlashWrite s
  | .counterRead r => Sys2Proof.Machine.execCounterRead r s
  | .counterClearList r => Sys2Proof.Machine.execCounterClearList r s
  | .counterClearGroups r => Sys2Proof.Machine.execCounterClearGroups r s
  | .counterSelectReplace r => Sys2Proof.Machine.execCounterSelectReplace r s
  | .counterSelectAdd r => Sys2Proof.Machine.execCounterSelectAdd r s
  | .counterSelectRemove r => Sys2Proof.Machine.execCounterSelectRemove r s
  | .pressStop r => Sys2Proof.Machine.execPressStop r s
  | .pressStart r => Sys2Proof.Machine.execPressStart r s
  | .pressRead r => Sys2Proof.Machine.execPressRead r s
  | .pressLatch => Sys2Proof.Machine.execPressLatch s
  | .bwWindowEnd port => Sys2Proof.Machine.execBwWindowEnd port s
  | .sampleCapture sampler hdr => Sys2Proof.Machine.execSampleCapture sampler hdr s
  | .aonPowerUp main back straps => Sys2Proof.Machine.execAonPowerUp main back straps s
  | .pmicPgTimeout => Sys2Proof.Machine.execPmicPgTimeout s
  | .pmicPgFall => Sys2Proof.Machine.execPmicPgFall s
  | .powerFail mv => Sys2Proof.Machine.execPowerFail mv s
  | .sourceCapabilitiesRx tc pdos => Sys2Proof.Machine.execSourceCapabilitiesRx tc pdos s
  | .psRdyRx tc => Sys2Proof.Machine.execPsRdyRx tc s
  | .tSrcRecoverEnd tc => Sys2Proof.Machine.execTSrcRecoverEnd tc s
  | .eprKeepaliveRx tc => Sys2Proof.Machine.execEprKeepaliveRx tc s
  | .unsupportedPdMessageRx tc msg => Sys2Proof.Machine.execUnsupportedPdMessageRx tc msg s
  | .structuredVdmResponseRx tc resp => Sys2Proof.Machine.execStructuredVdmResponseRx tc resp s
  | .tagFillDone => Sys2Proof.Machine.execTagFillDone s
  | .resumeRecoveryEnd up => Sys2Proof.Machine.execResumeRecoveryEnd up s

end Sys2Proof.Machine
end

