-- ==== Sys2Proof/Safety.lean ====
section
/-!
DEFINITION. What counts as a safe step and a safe run, and the words that claims use for the state a command leaves.
-/
namespace Sys2Proof.Machine

/-- The step answers a next state. -/
def State.Safe (s : State) : Prop := ∃ t, step s = .next t

/-- n steps answer a next state each. -/
def State.SafeFor : Nat → State → Prop
  | 0, _ => True
  | n + 1, s => ∃ t, step s = .next t ∧ t.SafeFor n

/-- The state that a command with the effect g leaves: g, what follows every command at once (`Hub.settle`), and the queue untouched. -/
def State.after (s : State) (g : Hub) : State := { s with hub := Hub.settle s.hub g }

/-- A parameter takes a value (R60), and the configuration store has something to write when a value it holds has changed (R432). -/
def Hub.stored (h : Hub) (pid inst v : Nat) : Hub :=
  if h.storeChanges ⟨pid, inst, v⟩ then (h.putParam pid inst v).modMg (fun m => { m with dirty := true }) else h.putParam pid inst v

/-- INT_N is low exactly while INT_STATUS and INT_MASK share a bit (R35). -/
def Hub.IntOk (h : Hub) : Prop := h.ctl.regs.intLow = decide (h.ctl.regs.intStatus &&& h.ctl.regs.intMask ≠ 0)

/-- Every byte memory is in its canonical form. -/
def Hub.MemOk (h : Hub) : Prop := Memory.wf h.dram = true ∧ Memory.wf h.hostMem = true ∧ Memory.wf h.ctl.window = true

/-! ## Requests that are served at once -/

/-- The hub at the line time at which a request is consumed (0: now). -/
def Hub.whenAsked (h : Hub) (q : Req) : Hub := if q.time = 0 then h else h.untilLine q.time

/-- The bytes of a request (R39). -/
def reqBytes (q : Req) (code : Nat) : List Byte :=
  leBytes 2 code ++ leBytes 2 q.seq ++ leBytes 2 q.length ++ leBytes 2 q.flags ++ leBytes 4 q.txn ++ leBytes 4 q.status ++ q.payload

/-- The request as its meaning gets it: a ring request comes on no tunnel entry. -/
def reqOn (q : Req) (code : Nat) : Request := ⟨q.mb, code, q.seq, q.txn, q.payload, if q.mb = 1 || q.mb = 2 then 1024 else q.entry⟩

/-- The hub when a request has been placed and consumed, before its meaning. -/
def Hub.asked (h : Hub) (q : Req) (code : Nat) : Hub :=
  (((h.whenAsked q).place q.mb (reqBytes q code) q.entry).pop q.mb).modMb q.mb
    (fun b => { b with lastSeq := some q.seq, lastAt := (h.whenAsked q).clk.up, stored := [] })

/-- A well-formed request that the hub serves at once: its mailbox is served and holds no other request, the header is as R39 says, it is no
repeat (R42), neither ROM-hold nor tamper-hold turns it away, and TXN_ID is 0 where the command takes none (R45). -/
def Hub.asks (h : Hub) (q : Req) (code : Nat) : Bool :=
  let g := h.whenAsked q
  g.ctl.mbs.length == 4 && decide (q.mb < 4) && g.mbServed q.mb && g.waitingCount q.mb == 0 &&
    (!(q.mb == 1 || q.mb == 2) || ((g.mb q.mb).reqTail == (g.mb q.mb).reqHead && decide ((g.mb q.mb).reqHead < 65536))) &&
    Memory.wf g.hostMem && Memory.wf g.ctl.window &&
    decide (code < 65536) && decide (q.seq < 65536) && decide (q.txn < 2 ^ 32) && decide (q.flags < 16) && !bit q.flags 0 && !bit q.flags 1 &&
    q.length == q.payload.length && decide (q.length ≤ 4080) &&
    !g.isRepeat q.mb q.seq && (!g.mg.romHold || romServes code) && (!g.ky.hold || holdServes code) &&
    (q.txn == 0 || !knownCode code || takesTxn code)

/-- The hub when a request has been answered with x, its meaning having left g. -/
def Hub.answered (h : Hub) (q : Req) (code : Nat) (g : Hub) (x : Reply) : Hub := Hub.sendReply (h.asked q code) g (reqOn q code) x

/-- A long operation has started (R65): it stands last among the pending ones with the next token, and the tokens have moved on. -/
def Hub.withOp (h : Hub) (mb cmd : Nat) (work : Pending) : Hub :=
  { h with
    ctl := { h.ctl with
      nextToken := if h.ctl.nextToken + 1 < 2 ^ 32 then h.ctl.nextToken + 1 else 1
      ops := h.ctl.ops ++ [⟨h.ctl.nextToken, cmd, mb, 0, work⟩] } }

end Sys2Proof.Machine
end

