-- ==== Sys2Proof/Certificates/Slice0/Obligations.lean ====
section
/-!
DEFINITION. The statements for the provers, from the numbered rules of the spec.
-/
open Sys2Proof Sys2Proof.Machine

/-- A step runs the command at the front of the queue, and with none waiting it passes one nanosecond (the idle nanosecond is the model's choice, log 2). Where the rules leave a point open it states the model's choice: log entries 1, 2, 101. -/
def Obligations.StepRunsFrontCommand : Prop :=
  (∀ (s : State) (c : Instr), step { s with pending := c :: s.pending } = exec c s) ∧
  (∀ s : State, s.pending = [] →
    step s = .next { s with hub := { s.hub with clk := s.hub.clockAfter 1 } } ∧ (s.hub.clockAfter 1).up = s.hub.clk.up + 1)

/-- Every command of the table answers a next state from every state, and leaves the queue alone. -/
def Obligations.EveryCommandAnswersANextState : Prop :=
  ∀ (c : Instr) (s : State), ∃ g : Hub, exec c s = .next { s with hub := g }

/-- As many steps as commands wait empty the queue, first in, first out. Where the rules leave a point open it states the model's choice: log entries 1, 101. -/
def Obligations.StepsEmptyTheQueue : Prop :=
  ∀ (s : State) (k : Nat), k ≤ s.pending.length → ∃ t : State, Sys2Proof.core.run k s = .next t ∧ t.pending = s.pending.drop k

/-- Every step keeps INT_N low exactly while INT_STATUS and INT_MASK share a bit. Where the rules leave a point open it states the model's choice: log entries 91, 118, 122. -/
def Obligations.IntPinFollowsStatusAndMask : Prop :=
  ∀ s t : State, s.hub.IntOk → step s = .next t → t.hub.IntOk

/-- Reset leaves an empty queue, INT_N high, every memory empty and in canonical form, and every register at its reset value. Where the rules leave a point open it states the model's choice: log entries 4, 11, 12, 13, 14, 91, 118, 122, 124, 174. -/
def Obligations.ResetIsQuiet : Prop :=
  State.reset.pending = [] ∧ State.reset.hub.IntOk ∧ State.reset.hub.MemOk ∧
  State.reset.hub.ctl.regs.intStatus = 0 ∧ State.reset.hub.ctl.regs.intMask = 0 ∧ State.reset.hub.ctl.regs.heartbeat = 0 ∧
  State.reset.hub.ctl.regs.scratch = 0 ∧ State.reset.hub.ctl.regs.intLow = false ∧ State.reset.hub.ctl.txns = [] ∧
  State.reset.hub.ctl.ops = [] ∧ State.reset.hub.ctl.pairs = [] ∧ State.reset.hub.dram = [] ∧ State.reset.hub.params = []

/-- What DETECT, IDENT, HELD and leaving UP write on a line or twin port. Where the rules leave a point open it states the model's choice: log entries 34, 107, 144. -/
def Obligations.PortTransitionsWriteWhatTheRulesSay : Prop :=
  (∀ t : PortTrain, t.forget = { t with
    goodRun := 0, lock0 := false, lock1 := false, silent := false, failWait := false, agreed := none, pass := false, done := false,
    partner := t.partner.map (fun i => { i with
      phase := 0, target := 0, pass := false, done := false, hasStored := false, storedShort := false }) }) ∧
  (∀ (h : Hub) (p : Nat), h.toDetect p =
    (h.modPort p (fun q => { q with
      state := .detect, since := h.clk.up, leaving := false, train := { q.train.forget with hold := 0 },
      rx := { q.rx with lane0 := PortRx.reset.lane0, lane1 := PortRx.reset.lane1, side := 0, sideN := 0 } })).sendTrain p) ∧
  (∀ (h : Hub) (p : Nat), h.toIdent p =
    (h.modPort p (fun q => { q with
      state := .ident, since := h.clk.up,
      rx := { q.rx with lane0 := PortRx.reset.lane0, lane1 := PortRx.reset.lane1, side := 0, sideN := 0 },
      train := { q.train.forget with
      lastGood := h.clk.up, rateMax := h.pget P.LN_RATE_MAX p, code := h.pget P.LN_CODE p, darnEn := h.pget P.LN_DARN_EN p,
      preset0 := h.pget P.LN_TX_PRESET (2 * p), preset1 := h.pget P.LN_TX_PRESET (2 * p + 1),
      poolC2 := h.pget P.SW_CREDIT_POOL 0, poolC3 := h.pget P.SW_CREDIT_POOL 1 } })).sendTrain p) ∧
  (∀ (h : Hub) (p reason : Nat) (i : TrainInfo), (h.port p).train.partner = some i → h.hold p reason =
    ((h.modPort p (fun q => { q with state := .held, since := h.clk.up, train := { q.train with hold := reason } })).raise
      (2 ^ intLink)).event .linkHeld [(0, 1, p), (1, 1, reason), (2, 2, i.nodeId), (4, 1, i.portId)]) ∧
  (∀ (h : Hub) (p : Nat), p < 2 → (h.port p).rx.delin.part = [] → (h.port p).darn.stored = [] → ∃ x : Hub, h.leaveUp p = x.raise (2 ^ intLink) ∧
    x.ports = modAt h.ports p (fun q => { q with
      rate := 0, short := false, leaving := false, rxDown := false, tx := { PortTx.reset with prbs := q.tx.prbs },
      rx := { Port.reset.rx with cells := q.rx.cells, frames := q.rx.frames },
      darn := Port.reset.darn, c2 := Credit.reset, c3 := Credit.reset,
      time := { q.time with line := none, reqAt := none, answer := none } }) ∧
    x.params = ((((h.bump P.LN_LINK_DOWN p).bumpBy P.RL_DARN_UNACKED p 0).pset P.LN_MARGIN (2 * p) 0).pset P.LN_MARGIN (2 * p + 1) 0).params ∧
    x.outbox = h.outbox ∧ x.tables = h.tables ∧ x.lint = h.lint ∧ x.ctl = h.ctl)

/-- The bring-up commands move a port as the state table of R85 says. Where the rules leave a point open it states the model's choice: log entries 2, 108, 143, 151. -/
def Obligations.TrainingCommandsMovePorts : Prop :=
  (∀ (s : State) (p : Nat), s.hub.portAbsent p = false → s.hub.lnState p = .detect →
    exec (.signalDetect p) s = .next (s.after (s.hub.toIdent p))) ∧
  (∀ (s : State) (p n : Nat) (i : TrainInfo) (k : Mode) (x : Hub), x = s.hub.trainRepeats p n → x.lnState p = .ident →
    (x.port p).train.partner = some i → 8 ≤ (x.port p).train.goodRun → x.partnerCheck p i = 0 → (x.port p).train.pick = some k →
    exec (.identDone p n) s = .next (s.after ((x.modPort p (fun q => { q with
      state := .train, since := x.clk.up,
      train := { q.train with target := k, agreed := q.train.agree k, lock0 := false, lock1 := false },
      rx := { q.rx with lane0 := PortRx.reset.lane0, lane1 := PortRx.reset.lane1, side := 0, sideN := 0 } })).sendTrain p))) ∧
  (∀ (s : State) (p n : Nat) (i : TrainInfo) (x : Hub), x = s.hub.trainRepeats p n → x.lnState p = .ident → (x.port p).train.partner = some i →
    8 ≤ (x.port p).train.goodRun → x.partnerCheck p i ≠ 0 →
    exec (.identDone p n) s = .next (s.after (x.hold p (x.partnerCheck p i)))) ∧
  (∀ (s : State) (p : Nat), s.hub.lnState p = .ident →
    exec (.identTimeout p) s = .next (s.after (if p = 2 then ((s.hub.until ((s.hub.port p).train.lastGood + ms 2)).toDetect p).twinFails 1
      else (s.hub.until ((s.hub.port p).train.lastGood + ms 2)).toDetect p))) ∧
  (∀ (s : State) (p : Nat) (i : TrainInfo) (short : Bool), s.hub.lnState p = .train → (s.hub.port p).train.failWait = false → (s.hub.port p).train.lock0 = true →
    (s.hub.port p).train.lock1 = true → (s.hub.port p).train.agreed = some short → (s.hub.port p).train.partner = some i → i.phase = 3 →
    exec (.trainDone p) s = .next (s.after (s.hub.linkUp p short))) ∧
  (∀ (s : State) (p : Nat) (i : TrainInfo), s.hub.lnState p = .train → (s.hub.port p).train.failWait = false →
    (s.hub.port p).train.lock0 = true →
    (s.hub.port p).train.lock1 = true → (s.hub.port p).train.agreed = none → (s.hub.port p).train.partner = some i →
    exec (.trainDone p) s = .next (s.after ((s.hub.modPort p (fun q => { q with
      state := .measure, since := s.hub.clk.up,
      train := { q.train with pass := false, done := false } })).sendTrain p))) ∧
  (∀ (s : State) (p : Nat) (x : Hub) (k : Mode), s.hub.lnState p = .train → (s.hub.port p).train.failWait = false →
    (s.hub.port p).train.lock0 = false →
    x = (s.hub.until ((s.hub.port p).since + ms 6)).modPort p (fun q => { q with train := { q.train with
      failed := q.train.target :: q.train.failed } }) → (x.port p).train.pick = some k →
    exec (.trainTimeout p) s = .next (s.after (x.toIdent p))) ∧
  (∀ (s : State) (p : Nat) (x : Hub), s.hub.lnState p = .train → (s.hub.port p).train.failWait = false →
    (s.hub.port p).train.lock0 = false →
    x = (s.hub.until ((s.hub.port p).since + ms 6)).modPort p (fun q => { q with train := { q.train with
      failed := q.train.target :: q.train.failed } }) → (x.port p).train.pick = none → p ≠ 2 →
    exec (.trainTimeout p) s = .next (s.after ((x.bump P.LN_TRAIN_FAIL p).modPort p (fun q =>
      { q with since := x.clk.up, train := { q.train with failWait := true } })))) ∧
  (∀ (s : State) (p : Nat), s.hub.lnState p = .train → (s.hub.port p).train.failWait = true →
    exec (.trainFailWaitEnd p) s = .next (s.after (((s.hub.until ((s.hub.port p).since + ms 100)).modPort p
      (fun q => { q with train := { q.train with failed := [] } })).toDetect p))) ∧
  (∀ (s : State) (p : Nat), s.hub.lnState p = .train →
    exec (.trainSignalLoss p) s = .next (s.after (if (s.hub.port p).train.failWait then s.hub else s.hub.toDetect p))) ∧
  (∀ (s : State) (p e0 e1 : Nat) (i : TrainInfo), s.hub.lnState p = .measure → (s.hub.port p).train.partner = some i →
    i.done = true → ∃ g : Hub,
    exec (.measureDone p ⟨e0, e1⟩) s = .next (s.after (g.linkUp p (decide (e0 ≤ 4) && decide (e1 ≤ 4) && i.pass))) ∧
    (g.port p).train = { (s.hub.port p).train with
                         done := true, pass := decide (e0 ≤ 4) && decide (e1 ≤ 4),
                         stored := some ⟨i.tag, (s.hub.port p).train.target, decide (e0 ≤ 4) && decide (e1 ≤ 4) && i.pass⟩ }) ∧
  (∀ (s : State) (p e0 e1 : Nat) (i : TrainInfo), s.hub.lnState p = .measure → (s.hub.port p).train.partner = some i →
    i.done = false →
    exec (.measureDone p ⟨e0, e1⟩) s = .next (s.after ((s.hub.modPort p (fun q => { q with train := { q.train with
      done := true, pass := decide (e0 ≤ 4) && decide (e1 ≤ 4) } })).sendTrain p))) ∧
  (∀ (s : State) (p : Nat) (i : TrainInfo), s.hub.lnState p = .measure → (s.hub.port p).train.partner = some i → i.done = false →
    exec (.measureTimeout p) s = .next (s.after ((s.hub.until ((s.hub.port p).since + 2 * measureTime (s.hub.port p).train.target)).linkUp p
      false)) ∧
    exec (.measureAbandon p) s = .next (s.after (s.hub.toDetect p))) ∧
  (∀ (s : State) (p lane : Nat) (seen : List Seen) (l : LaneRx), (s.hub.lnState p = .train ∨ s.hub.lnState p = .measure) →
    s.hub.locked p lane = false →
    l = seen.foldl (fun l w => l.judge (s.hub.port p).rxShort false w.lead w.bad) ((s.hub.port p).rx.lane lane) →
    l.gains (s.hub.port p).rxShort = true →
    exec (.codewordLock p ⟨lane, seen⟩) s = .next (s.after ((s.hub.modPort p (fun q => { q with
      rx := q.rx.setLane lane l })).setLock p lane true))) ∧
  (∀ (h : Hub) (p lane : Nat) (on : Bool) (x : Hub), x = h.modPort p (fun q => { q with
      train := if lane = 0 then { q.train with lock0 := on } else { q.train with lock1 := on } }) →
    h.setLock p lane on = if phaseOf (x.port p) = phaseOf (h.port p) then x else x.sendTrain p)

/-- Loss of signal or lock, LN_ENABLE and LN_RETRAIN move a port as R85 and R93 say. Where the rules leave a point open it states the model's choice: log entries 2, 34, 107, 144, 151. -/
def Obligations.LossAndControlMovePorts : Prop :=
  (∀ (s : State) (p : Nat) (x : Hub), (s.hub.port p).state = .up → (s.hub.port p).rx.resting = false → x = (s.hub.modPort p (fun q => { q with rxDown := true })).sendStatuses p false 2 →
    exec (.portSignalLoss p) s = .next (s.after (((x.leaveUp p).event .linkDown [(0, 1, p), (1, 1, 0)]).toDetect p))) ∧
  (∀ (s : State) (p lane : Nat) (seen : List Seen) (l : LaneRx) (x : Hub), (s.hub.port p).state = .up → (s.hub.port p).rx.resting = false → l = seen.foldl (fun l w => l.judge (s.hub.port p).rxShort true w.lead w.bad) ((s.hub.port p).rx.lane lane) → l.loses (s.hub.port p).rxShort = true → x = (s.hub.modPort p (fun q => { q with rx := q.rx.setLane lane l, rxDown := true })).sendStatuses p false 2 →
    exec (.lockLoss p ⟨lane, seen⟩) s = .next (s.after (((x.leaveUp p).event .linkDown [(0, 1, p), (1, 1, 1)]).toDetect p))) ∧
  (∀ (s : State) (p lane : Nat) (seen : List Seen) (l : LaneRx), (s.hub.port p).state = .train → s.hub.locked p lane = true → l = seen.foldl (fun l w => l.judge (s.hub.port p).rxShort true w.lead w.bad) ((s.hub.port p).rx.lane lane) → l.loses (s.hub.port p).rxShort = true →
    exec (.lockLoss p ⟨lane, seen⟩) s = .next (s.after ((s.hub.modPort p (fun q => { q with rx := q.rx.setLane lane l })).setLock p lane false))) ∧
  (∀ (s : State) (p lane : Nat) (seen : List Seen) (l : LaneRx), (s.hub.port p).state = .measure → s.hub.locked p lane = true → l = seen.foldl (fun l w => l.judge (s.hub.port p).rxShort true w.lead w.bad) ((s.hub.port p).rx.lane lane) → l.loses (s.hub.port p).rxShort = true →
    exec (.lockLoss p ⟨lane, seen⟩) s = .next (s.after ((s.hub.modPort p (fun q => { q with rx := q.rx.setLane lane l })).toDetect p))) ∧
  (∀ (s : State) (p : Nat), (s.hub.port p).state = .held →
    exec (.heldSignalLoss p) s = .next (s.after ((s.hub.advance (ms 1)).toDetect p))) ∧
  (∀ (s : State) (p : Nat), p < 3 → (s.hub.stored P.LN_ENABLE p 1).portAbsent p = false → (s.hub.stored P.LN_ENABLE p 1).lnState p = .disabled →
    exec (.lnEnableWrite p 1) s = .next (s.after (((s.hub.stored P.LN_ENABLE p 1).pset P.LN_ENABLE p 1).toDetect p))) ∧
  (∀ (s : State) (p : Nat) (x : Hub), p < 3 → x = (s.hub.stored P.LN_ENABLE p 0).pset P.LN_ENABLE p 0 → x.portAbsent p = false → x.portUp p = true →
    exec (.lnEnableWrite p 0) s = .next (s.after ((((x.goingDown p false).linkDown p 7).enter p .disabled).modPort p (fun q => { q with
      train := { q.train.forget with hold := 0, partner := none } })))) ∧
  (∀ (s : State) (p : Nat) (x : Hub), p < 3 → x = (s.hub.stored P.LN_ENABLE p 0).pset P.LN_ENABLE p 0 → x.portAbsent p = false → x.lnState p = .ident ∨ x.lnState p = .train ∨ x.lnState p = .held →
    exec (.lnEnableWrite p 0) s = .next (s.after ((x.enter p .disabled).modPort p (fun q => { q with
      train := { q.train.forget with hold := 0, partner := none } })))) ∧
  (∀ (s : State) (p : Nat) (x : Hub), p < 3 → x = (s.hub.stored P.LN_RETRAIN p 1).modPort p (fun q => { q with train := { q.train with failed := [] } }) → x.portAbsent p = false → x.lnState p = .up →
    exec (.lnRetrain p 1) s = .next (s.after (((x.goingDown p false).linkDown p 6).toDetect p))) ∧
  (∀ (s : State) (p : Nat) (x : Hub), p < 3 → x = (s.hub.stored P.LN_RETRAIN p 1).modPort p (fun q => { q with train := { q.train with failed := [] } }) → x.portAbsent p = false → x.lnState p = .held →
    exec (.lnRetrain p 1) s = .next (s.after ((x.goingDown p false).toDetect p))) ∧
  (∀ (s : State) (v : Nat), s.hub.isHead = true → v ≤ 1 →
    exec (.lnRetrain 0 v) s = .next (s.after (s.hub.stored P.LN_RETRAIN 0 v)))

/-- TRAIN and STATUS frames, bad side frames, monitoring and the tail mark. Where the rules leave a point open it states the model's choice: log entries 2, 34, 35, 37, 105, 107, 110, 144, 160. -/
def Obligations.SideFramesAndMonitoring : Prop :=
  (∀ (s : State) (p : Nat) (f : List Byte), s.hub.portAbsent p = false → s.hub.lnState p ≠ .disabled → s.hub.lnState p ≠ .quiet →
    exec (.trainFrameRx p f) s = .next (s.after ((s.hub.modPort p (fun q => { q with
      rx := { q.rx with frames := q.rx.frames.erase (sideFrame 1 f) },
      train := { q.train with
      partner := some ⟨byteAt f 0, be f 1 2 % 4096, bits (byteAt f 3) 4 4, bits (byteAt f 3) 2 2, bits (byteAt f 4) 4 4, bits (byteAt f 4) 0 4,
        bit (byteAt f 5) 7, bit (byteAt f 5) 6, bit (byteAt f 5) 5, bit (byteAt f 5) 4, be f 6 2, byteAt f 8⟩,
      goodRun := q.train.goodRun + 1, lastGood := s.hub.clk.up } })).measureEnd p))) ∧
  (∀ (h : Hub) (p : Nat), (h.port p).state ≠ .measure → h.measureEnd p = h) ∧
  (∀ (s : State) (f : List Byte), s.hub.isHead = true →
    exec (.trainFrameRx 0 f) s = .next (s.after (s.hub.modPort 0 (fun q => { q with rx := { q.rx with frames := q.rx.frames.erase (sideFrame 1 f) } })))) ∧
  (∀ (s : State) (p : Nat) (f : List Byte) (x : Hub), x = s.hub.takeSide p 2 f → x.portUp p = true → bit (byteAt f 0) 7 = false → bit (byteAt f 0) 6 = false → bit (byteAt f 0) 5 = true →
    exec (.statusFrameRx p f) s = .next (s.after (x.modPort p (fun q => { q with rx := { q.rx with darnOn := true, badRun := 0, resting := bit (byteAt f 0) 4 } })))) ∧
  (∀ (s : State) (p : Nat) (f : List Byte) (x : Hub), x = s.hub.takeSide p 2 f → x.portUp p = true → bit (byteAt f 0) 6 = true → bit (byteAt f 0) 5 = true → (x.port p).rx.badRun = 1 →
    exec (.statusFrameRx p f) s = .next (s.after ((x.modPort p (fun q => { q with rx := { q.rx with darnOn := true, badRun := 2, resting := bit (byteAt f 0) 4 } })).portDown p 3 (bit (byteAt f 0) 4)))) ∧
  (∀ (s : State) (p f : Nat), s.hub.portAbsent p = false → sideGood f = false →
    exec (.sideFrameBad ⟨p, f⟩) s = .next (s.after (((s.hub.modPort p (fun q => { q with rx := { q.rx with frames := q.rx.frames.erase f } })).bump P.LN_SIDE_ERR p).modPort p (fun q => { q with
      train := { q.train with goodRun := 0 } })))) ∧
  (∀ (s : State) (p : Nat), s.hub.portUp p = true →
    exec (.statusTx p) s = .next (s.after (s.hub.sendSide p 2 ([byte (b2n (s.hub.port p).rxDown * 128 + b2n (s.hub.port p).leaving * 64 +
      b2n ((s.hub.port p).train.darnEn == 1 || ((s.hub.port p).train.darnEn == 2 && (s.hub.port p).short)) * 32)] ++
      beBytes 2 (min ((s.hub.port p).rx.uncorrAt.filter (fun t => s.hub.clk.up < t + ms 1)).length 0xFFFF) ++ List.replicate 9 0#8)))) ∧
  (∀ (s : State) (p lane v w : Nat), s.hub.portUp p = true →
    exec (.marginMeasure p lane v w) s = .next (s.after (s.hub.pset P.LN_MARGIN (2 * p + lane) (v % 256 * 256 + w % 256)))) ∧
  (∀ (s : State) (p c n u : Nat) (x : Hub), s.hub.portUp p = true → (s.hub.port p).rx.degraded0 = false → x = (s.hub.pset P.LN_PRE_BER (2 * p) (min c 0xFFFFFFFF)).modPort p (fun q => { q with rx := { q.rx with degraded0 := true } }) → (s.hub.pset P.LN_PRE_BER (2 * p) (min c 0xFFFFFFFF)).pget P.LN_UNCORR_LIMIT p < u → (x.event .linkDegraded [(0, 1, p), (1, 1, 0), (4, 4, min c 0xFFFFFFFF), (8, 4, min u 0xFFFFFFFF)]).pget P.LN_DEGRADE_ACTION p ≠ 1 →
    exec (.degradeWindow p 0 c n u) s = .next (s.after (x.event .linkDegraded [(0, 1, p), (1, 1, 0), (4, 4, min c 0xFFFFFFFF), (8, 4, min u 0xFFFFFFFF)]))) ∧
  (∀ (s : State) (p : Nat) (c : Cell), s.hub.portUp p = true → localGood c = false →
    exec (.linkLocalBad p c) s = .next (s.after ((s.hub.modPort p (fun q => { q with rx := { q.rx with cells := q.rx.cells.erase c } })).bump P.LN_LL_ERR p))) ∧
  (∀ (s : State), s.hub.isHead = false → s.hub.portUp 0 = true → s.hub.portUp 1 = false → s.hub.rl.tail = false →
    exec .tailWait s = .next (s.after (((s.hub.until ((s.hub.port 0).since + ms (s.hub.pget P.LN_TAIL_WAIT 0))).modRail (fun r => { r with tail := true })).event .tailChange [(0, 1, 1)])))

/-- Blocks and Darn: what a block leaves, what acknowledgements and replays do. Where the rules leave a point open it states the model's choice: log entries 2, 35, 36, 38, 104, 105, 106, 109, 110, 151, 152, 153. -/
def Obligations.DarnCommandsFollowTheRules : Prop :=
  (∀ (s : State) (p : Nat) (w : Words), w.lane0.length ≠ wordBits (s.hub.port p).rxShort / (if isPam4 (s.hub.port p).rxMode then 2 else 1) →
    exec (.blockRx p w) s = .next (s.after (s.hub))) ∧
  (∀ (s : State) (p n at_ w0 w1 map : Nat) (w : Words) (pam short : Bool) (x : Hub) (a b : Hub × LaneWord) (g : Hub), s.hub.portAbsent p = false → (s.hub.port p).state ≠ .disabled → (s.hub.port p).state ≠ .quiet → pam = isPam4 (s.hub.port p).rxMode → short = (s.hub.port p).rxShort → n = wordBits short / (if pam then 2 else 1) → w.lane0.length = n → w.lane1.length = n → map = (s.hub.port p).mapFor w → w0 = pinWord w pam map 0 → w1 = pinWord w pam map 1 → x = s.hub.modPort p (fun q => { q with train := { q.train with laneMap := map } }) → at_ = (s.hub.port p).rx.lane0.place short (x.locked p 0) (w0 / 2 ^ (wordBits short - 2)) → a = x.laneWord p 0 w0 → b = a.1.laneWord p 1 w1 → g = ((b.1.sideIn p at_ a.2.side b.2.side).relockLane p 0).relockLane p 1 →
    exec (.blockRx p w) s = .next (s.after ((List.range (wordBlocks short)).foldl (fun h k => h.blockIn p
      ⟨a.2.verdict, b.2.verdict,
       (a.2.verdict == .uncorrectable && (a.2.lead == 3 || (short && a.2.lead == 0))) ||
         (b.2.verdict == .uncorrectable && (b.2.lead == 3 || (short && b.2.lead == 0))),
       !(nth w.stall k false), (a.2.flits.drop (4 * k)).take 4 ++ (b.2.flits.drop (4 * k)).take 4⟩) g))) ∧
  (∀ (h : Hub) (p : Nat) (b : Block) (c : Scan), h.portUp p = true → h.darnOn p = false → c = scanBlock (h.port p).rx.delin b (8 * (h.port p).rx.next) → h.blockIn p b =
    ((((h.bumpBy P.LN_HUNT p c.hunts).bumpBy P.LN_HCRC_ERR p c.hunts).bumpBy P.LN_CRC_ERR p c.badCrc.length)).modPort p (fun q => { q with
      rx := { q.rx with cells := q.rx.cells ++ c.cells.map (·.2), delin := c.delin, next := q.rx.next + 1 } })) ∧
  (∀ (h : Hub) (p : Nat) (b : Block), h.portUp p = true → h.darnOn p = true → b.numbered = false → (b.isReplay && decide (1 < wordBlocks (h.port p).rxShort)) = false → h.blockIn p b =
    h.modPort p (fun q => { q with
      rx := { q.rx with cells := q.rx.cells ++ (strayBlock (h.port p).rx.stray b).locals, stray := (strayBlock (h.port p).rx.stray b).delin } })) ∧
  (∀ (h : Hub) (p : Nat) (b : Block) (c : Cell), h.portUp p = true → h.darnOn p = true → b.isReplay = true → 1 < wordBlocks (h.port p).rxShort →
    cellOf (b.flits.take 2) = some c → localGood c = true → h.blockIn p b = (h.discardBlock p b).darnReplay p (be c.payload 2 2)) ∧
  (∀ (h : Hub) (p : Nat) (b : Block), (h.port p).rx.nakAt.isSome = true → h.darnBlock p b = h.discardBlock p b) ∧
  (∀ (h : Hub) (p : Nat) (b : Block) (d : DarnScan), (h.port p).rx.nakAt = none → p < h.ports.length →
    d = darnScan (h.port p).rx.delin b (8 * (h.port p).rx.next) → d.failed = true →
    ∃ x : Hub, h.darnBlock p b = x.sendNak p ∧ (x.port p).rx.cells = (h.port p).rx.cells ++
      (d.good.cells.filter (fun c => (h.port p).rx.delivered < c.1 + 1)).map (·.2) ++ d.stray.locals) ∧
  (∀ (s : State) (p : Nat), (s.hub.port p).rx.next ≠ 0 →
    exec (.darnAckTx p) s = .next (s.after ((s.hub.modPort p (fun q => { q with rx := { q.rx with sinceAck := 0 } })).sendLinkLocal p
      ([1#8, 0#8] ++ beBytes 2 (((s.hub.port p).rx.next - 1) % 65536) ++ beBytes 4 0)))) ∧
  (∀ (s : State) (p t : Nat), s.hub.portUp p = true → (s.hub.port p).rx.nakAt = some t →
    exec (.darnNakRepeat p) s = .next (s.after ((s.hub.until (t + us (s.hub.pget P.LN_DARN_TIMEOUT p))).sendNak p))) ∧
  (∀ (s : State) (p seq : Nat) (b : Nat × List Flit), (((s.hub.takeLocal p 1).port p).darn.stored).find? (fun b => b.1 % 65536 == seq % 65536) = some b →
    exec (.darnAck p seq) s = .next (s.after (((s.hub.takeLocal p 1).freeBlocks p (b.1 + 1)).putFlits p []))) ∧
  (∀ (s : State) (p seq reason : Nat) (b : Nat × List Flit), (s.hub.takeLocal p 2).portUp p = true → (((s.hub.takeLocal p 2).port p).darn.stored).find? (fun b => b.1 % 65536 == seq % 65536) = some b →
    exec (.darnNak p seq reason) s = .next (s.after (((((s.hub.takeLocal p 2).bump P.LN_DARN_NAK_RX p).freeBlocks p b.1).replay p b.1).putFlits p []))) ∧
  (∀ (s : State) (p seq : Nat), ((s.hub.takeLocal p 3).port p).rx.nakAt.isSome = true → ((s.hub.takeLocal p 3).port p).rx.next % 65536 = seq % 65536 → (((s.hub.takeLocal p 3).port p).rx.starts).find? (fun t => t.1 == ((s.hub.takeLocal p 3).port p).rx.next) = none →
    exec (.darnReplay p seq) s = .next (s.after ((s.hub.takeLocal p 3).modPort p (fun q => { q with
      rx := { q.rx with
      nakAt := none, delin := ⟨[], false, 8 * ((s.hub.takeLocal p 3).port p).rx.next⟩, stray := ⟨[], true, 0⟩,
      starts := q.rx.starts.filter (fun t => t.1 < q.rx.next) } })))) ∧
  (∀ (s : State) (p : Nat) (b : Nat × List Flit) (l : List (Nat × List Flit)), s.hub.portUp p = true → (s.hub.port p).darn.stored = b :: l →
    exec (.darnReplayTimeout p) s = .next (s.after ((s.hub.until ((s.hub.port p).darn.oldAt + us (s.hub.pget P.LN_DARN_TIMEOUT p))).replay p b.1)))

/-- IDENTIFY, ECHO, SYSTEM_RESET, PARAM_LIST and an unknown command answer as R46, R47, R51 and R40 say. Where the rules leave a point open it states the model's choice: log entries 5, 87. -/
def Obligations.IdentityEchoAndResetRequests : Prop :=
  (∀ (s : State) (q : Req) (a : Hub), s.hub.asks q 0x0101 = true → a = s.hub.asked q 0x0101 → q.payload = [] →
    exec (.identify q) s = .next (s.after (s.hub.answered q 0x0101 (a) (.ok (leBytes 4 devId ++ leBytes 4 devRev ++ deviceId ++ leBytes 4 a.nodeInfo ++ leBytes 4 a.strapState ++ [byte a.lc, byte a.mg.running] ++
      leBytes 2 0 ++ leBytes 4 (if a.mg.romHold then 0 else imgVersion (a.fw a.mg.running).head) ++
      leBytes 8 (imgCounter (a.fw a.mg.running).head) ++ leBytes 4 a.globalStatus ++ List.replicate 12 0#8))))) ∧
  (∀ (s : State) (q : Req) (a : Hub), s.hub.asks q 0x0101 = true → a = s.hub.asked q 0x0101 → q.payload ≠ [] →
    exec (.identify q) s = .next (s.after (s.hub.answered q 0x0101 (a) (.err .badParam)))) ∧
  (∀ (s : State) (q : Req) (a : Hub), s.hub.asks q 0x0106 = true → a = s.hub.asked q 0x0106 →
    exec (.echo q) s = .next (s.after (s.hub.answered q 0x0106 (a) (.ok q.payload)))) ∧
  (∀ (s : State) (q : Req) (a : Hub), s.hub.asks q 0x0105 = true → a = s.hub.asked q 0x0105 → q.payload = [] →
    exec (.systemReset q) s = .next (s.after (s.hub.answered q 0x0105 (a.modPw (fun p => { p with resetDue := some (if q.mb = 0 then causeLine else causeSystem) })) (.ok [])))) ∧
  (∀ (s : State) (q : Req) (a : Hub), s.hub.asks q 0x0105 = true → a = s.hub.asked q 0x0105 → q.payload ≠ [] →
    exec (.systemReset q) s = .next (s.after (s.hub.answered q 0x0105 (a) (.err .badParam)))) ∧
  (∀ (s : State) (q : Req) (a : Hub) (l : List ParamDesc), s.hub.asks q 0x0104 = true → a = s.hub.asked q 0x0104 → q.payload.length = 2 → l = allParams.filter (fun d => le q.payload 0 2 ≤ d.pid) →
    exec (.paramList q) s = .next (s.after (s.hub.answered q 0x0104 (a) (.ok (leBytes 2 (match (l.drop 254).head? with | some d => d.pid | none => 0xFFFF) ++ leBytes 2 (min 254 l.length) ++ List.replicate 12 0#8 ++
      (l.take 254).flatMap (fun d => leBytes 2 d.pid ++ leBytes 2 d.count ++ [byte d.access.code, byte d.kept, byte d.width, byte d.pair] ++ leBytes 8 (a.listDefault d))))))) ∧
  (∀ (s : State) (q : Req) (a : Hub) (cmd : Nat), s.hub.asks q cmd = true → a = s.hub.asked q cmd → q.txn = 0 → knownCode cmd = false →
    exec (.unknownCommand cmd q) s = .next (s.after (s.hub.answered q cmd (a) (.err .badCommand))))

/-- PARAM_GET answers the values in force and changes nothing; PARAM_SET applies all its items as one commit, or none. Where the rules leave a point open it states the model's choice: log entries 85, 86, 99, 123. -/
def Obligations.ParameterRequestsReadAndWrite : Prop :=
  (∀ (s : State) (q : Req) (a : Hub), s.hub.asks q 0x0102 = true → a = s.hub.asked q 0x0102 → itemsGood q.payload = true → (∀ i ∈ itemsOf q.payload, ∃ d, descOf i.pid = some d ∧ i.inst < d.count ∧ d.first ≤ i.inst ∧ d.access ≠ .wo ∧ d.access ≠ .rc) →
    exec (.paramGet q) s = .next (s.after (s.hub.answered q 0x0102 (a) (.ok ((itemsOf q.payload).flatMap (fun i =>
      itemBytes i .ok (a.isStaged i.pid i.inst) (a.pread i.pid i.inst % 2 ^ (8 * ((descOf i.pid).map (·.width)).getD 8)))))))) ∧
  (∀ (s : State) (q : Req) (a : Hub), s.hub.asks q 0x0102 = true → a = s.hub.asked q 0x0102 → itemsGood q.payload = true →
    exec (.paramGet q) s = .next (s.after (s.hub.answered q 0x0102 ((Hub.getItems (itemsOf q.payload) a).1) (itemsReply (Hub.getItems (itemsOf q.payload) a).2.1 (Hub.getItems (itemsOf q.payload) a).2.2)))) ∧
  (∀ (s : State) (q : Req) (a : Hub), s.hub.asks q 0x0102 = true → a = s.hub.asked q 0x0102 → itemsGood q.payload = false →
    exec (.paramGet q) s = .next (s.after (s.hub.answered q 0x0102 (a) (.err .badParam)))) ∧
  (∀ (s : State) (q : Req) (a : Hub) (o : List Status × Plan) (x : Hub), s.hub.asks q 0x0103 = true → a = s.hub.asked q 0x0103 → q.txn = 0 → itemsGood q.payload = true → o = a.setOutcomes q.mb (itemsOf q.payload) → (∀ y ∈ o.1, y = Status.ok) → x = ({ a with ctl := { a.ctl with pairs := o.2.opens } } : Hub).applyChange ⟨o.2.apply, [], []⟩ →
    exec (.paramSet q) s = .next (s.after (s.hub.answered q 0x0103 (x) (.ok (x.setItems ((itemsOf q.payload).zip o.1)))))) ∧
  (∀ (s : State) (q : Req) (a : Hub) (o : List Status × Plan), s.hub.asks q 0x0103 = true → a = s.hub.asked q 0x0103 → q.txn = 0 → itemsGood q.payload = true → o = a.setOutcomes q.mb (itemsOf q.payload) → (¬ ∀ y ∈ o.1, y = Status.ok) →
    exec (.paramSet q) s = .next (s.after (s.hub.answered q 0x0103 (a) (itemsReply o.1 (a.setItems ((itemsOf q.payload).zip o.1)))))) ∧
  (∀ (s : State) (q : Req) (a : Hub) (t : Txn) (x : Hub), s.hub.asks q 0x0103 = true → a = (s.hub.asked q 0x0103).touchTxn (reqOn q 0x0103) → itemsGood q.payload = true → a.ownTxn q.mb q.txn = some t → t.sched = none → q.txn ≠ 0 → (∀ y ∈ ((itemsOf q.payload).map formOf).map (a.stageOutcome (a.viewOf (t.with_ (goodItems ((itemsOf q.payload).map formOf)) [] [])) q.mb t.id), y = Status.ok) → a.stage t (goodItems ((itemsOf q.payload).map formOf)) [] [] = some x →
    exec (.paramSet q) s = .next (s.after (s.hub.answered q 0x0103 (x) (.ok (x.setItems ((itemsOf q.payload).zip (((itemsOf q.payload).map formOf).map (a.stageOutcome (a.viewOf (t.with_ (goodItems ((itemsOf q.payload).map formOf)) [] [])) q.mb t.id))))))))

/-- Transactions open, commit, are scheduled, are aborted and report as R55 to R62 say. Where the rules leave a point open it states the model's choice: log entries 2, 85, 97, 116, 119, 124, 174. -/
def Obligations.TransactionRequests : Prop :=
  (∀ (s : State) (q : Req) (a : Hub), s.hub.asks q 0x0201 = true → a = s.hub.asked q 0x0201 → q.payload = [] → a.ctl.txns.any (fun t => t.mb == q.mb) = false →
    exec (.txnBegin q) s = .next (s.after (s.hub.answered q 0x0201 ({ a with ctl := { a.ctl with txns := a.ctl.txns ++ [⟨a.ctl.nextTxn, q.mb, none, [], [], [], a.clk.up⟩], nextTxn := a.ctl.nextTxn + 1 } }) (.ok [])))) ∧
  (∀ (s : State) (q : Req) (a : Hub), s.hub.asks q 0x0201 = true → a = s.hub.asked q 0x0201 → q.payload = [] → a.ctl.txns.any (fun t => t.mb == q.mb) = true →
    exec (.txnBegin q) s = .next (s.after (s.hub.answered q 0x0201 (a) (.err .txnFull)))) ∧
  (∀ (s : State) (q : Req) (a : Hub) (t : Txn) (x : Hub), s.hub.asks q 0x0202 = true → a = (s.hub.asked q 0x0202).touchTxn (reqOn q 0x0202) → q.payload = [] → a.ownTxn q.mb q.txn = some t → t.sched = none → a.failing t = none → a.cmdFailing t = none → a.touchedScans t = [] → a.touched t = [] → x = a.applyChange ⟨t.items, t.entries, t.cmds⟩ →
    exec (.txnCommit q) s = .next (s.after (s.hub.answered q 0x0202 (x.retire t true x.clk.ns) (.ok [])))) ∧
  (∀ (s : State) (q : Req) (a : Hub) (t : Txn) (x : Hub), s.hub.asks q 0x0202 = true → a = (s.hub.asked q 0x0202).touchTxn (reqOn q 0x0202) → q.payload = [] → a.ownTxn q.mb q.txn = some t → t.sched = none → a.failing t = none → a.cmdFailing t = none → a.touchedScans t = [] → a.touched t ≠ [] → x = a.applyChange ⟨t.items, t.entries, t.cmds⟩ →
    exec (.txnCommit q) s = .next (s.after (s.hub.answered q 0x0202 (x.retire t true x.clk.ns) (.held t.id (a.touched t))))) ∧
  (∀ (s : State) (q : Req) (a : Hub) (t : Txn), s.hub.asks q 0x0202 = true → a = (s.hub.asked q 0x0202).touchTxn (reqOn q 0x0202) → q.payload = [] → a.ownTxn q.mb q.txn = some t → t.sched = none → a.failing t = none → a.cmdFailing t = none → a.touchedScans t ≠ [] → a.ctl.ops.length < 16 →
    exec (.txnCommit q) s = .next (s.after (s.hub.answered q 0x0202 (Hub.drainStep a ((a.withOp q.mb 0x0202 (.commit t.id (a.touched t) a.clk.ns)).commit t) q.mb a.ctl.nextToken 0x0202) (.long a.ctl.nextToken)))) ∧
  (∀ (s : State) (q : Req) (a : Hub) (t : Txn) (f : Failing), s.hub.asks q 0x0202 = true → a = (s.hub.asked q 0x0202).touchTxn (reqOn q 0x0202) → q.payload = [] → a.ownTxn q.mb q.txn = some t → t.sched = none → a.failing t = some f →
    exec (.txnCommit q) s = .next (s.after (s.hub.answered q 0x0202 (a) (.done f.status f.id ([byte f.kind, byte f.table] ++ leBytes 2 f.id ++ leBytes 2 f.inst ++ leBytes 2 0))))) ∧
  (∀ (s : State) (q : Req) (a : Hub) (t : Txn), s.hub.asks q 0x0203 = true → a = (s.hub.asked q 0x0203).touchTxn (reqOn q 0x0203) → q.payload.length = 8 → a.ownTxn q.mb q.txn = some t → t.sched = none → a.failing t = none → a.cmdFailing t = none → a.timeRefusal (le q.payload 0 8) = none → a.ctl.ops.length < 16 →
    exec (.txnCommitAt q) s = .next (s.after (s.hub.answered q 0x0203 ((a.withOp q.mb 0x0203 (.scheduled t.id)).modTxns (fun l => l.map (fun x => if x.id = t.id then { x with sched := some ⟨le q.payload 0 8, boundaryAt (le q.payload 0 8), a.ctl.nextToken⟩ } else x))) (.long a.ctl.nextToken)))) ∧
  (∀ (s : State) (q : Req) (a : Hub) (t : Txn), s.hub.asks q 0x0204 = true → a = (s.hub.asked q 0x0204).touchTxn (reqOn q 0x0204) → q.payload = [] → a.ownTxn q.mb q.txn = some t → t.sched = none →
    exec (.txnAbort q) s = .next (s.after (s.hub.answered q 0x0204 (a.retire t false 0) (.ok [])))) ∧
  (∀ (s : State) (q : Req) (a : Hub) (t : Txn) (z : Schedule), s.hub.asks q 0x0204 = true → a = (s.hub.asked q 0x0204).touchTxn (reqOn q 0x0204) → q.payload = [] → a.ownTxn q.mb q.txn = some t → t.sched = some z → a.clk.ns + us 50 ≤ z.instant →
    exec (.txnAbort q) s = .next (s.after (s.hub.answered q 0x0204 ((a.retire t false 0).endOp z.token .aborted 0 []) (.ok [])))) ∧
  (∀ (s : State) (q : Req) (a : Hub) (t : Txn) (z : Schedule), s.hub.asks q 0x0204 = true → a = (s.hub.asked q 0x0204).touchTxn (reqOn q 0x0204) → q.payload = [] → a.ownTxn q.mb q.txn = some t → t.sched = some z → z.instant < a.clk.ns + us 50 →
    exec (.txnAbort q) s = .next (s.after (s.hub.answered q 0x0204 (a) (.err .busy)))) ∧
  (∀ (s : State) (q : Req) (a : Hub) (t : Txn), s.hub.asks q 0x0205 = true → a = (s.hub.asked q 0x0205).touchTxn (reqOn q 0x0205) → q.payload = [] → a.ownTxn q.mb q.txn = some t →
    exec (.txnStatus q) s = .next (s.after (s.hub.answered q 0x0205 (a) (.ok ([byte (if t.sched.isSome then 1 else 0), byte t.mb] ++ leBytes 2 t.items.length ++ leBytes 4 t.tableBytes ++ leBytes 8 ((t.sched.map (·.t)).getD 0)))))) ∧
  (∀ (s : State) (q : Req) (a : Hub) (t : TxnRecord), s.hub.asks q 0x0205 = true → a = (s.hub.asked q 0x0205).touchTxn (reqOn q 0x0205) → q.payload = [] → a.ownTxn q.mb q.txn = none → a.ctl.doneTxns.find? (fun t => t.id == q.txn && t.mb == q.mb) = some t →
    exec (.txnStatus q) s = .next (s.after (s.hub.answered q 0x0205 (a) (.ok ([byte (if t.committed then 2 else 3), byte t.mb] ++ leBytes 2 t.items ++ leBytes 4 t.bytes ++ leBytes 8 t.applied))))) ∧
  (∀ (s : State) (mb : Nat) (t : Txn), s.hub.ctl.txns.find? (fun t => t.mb == mb && t.sched.isNone) = some t → t.sched = none →
    exec (.txnTimeout mb) s = .next (s.after (((s.hub.until (t.lastCmd + ms (s.hub.pget P.MG_TXN_TIMEOUT 0))).retire t false 0).notify .txnExpired 0 [(0, 4, t.id)]))) ∧
  (∀ (s : State) (mb i : Nat) (t : Txn) (z : Schedule) (o : LongOp) (x y : Hub), s.hub.ctl.txns.find? (fun t => t.mb == mb && t.sched.isSome) = some t → t.sched = some z → s.hub.op z.token = some o → o.work = .scheduled i → x = s.hub.untilLine z.instant → y = x.applyChange ⟨t.items, t.entries, t.cmds⟩ → x.touched t = [] → Hub.mustDrain x y = false →
    exec (.txnScheduledApply mb) s = .next (s.after (((y.retire t true y.clk.ns).endOp z.token .ok 0 []).txnApplied t.id))) ∧
  (∀ (s : State) (mb i : Nat) (t : Txn) (z : Schedule) (o : LongOp) (x y : Hub), s.hub.ctl.txns.find? (fun t => t.mb == mb && t.sched.isSome) = some t → t.sched = some z → s.hub.op z.token = some o → o.work = .scheduled i → x = s.hub.untilLine z.instant → y = x.applyChange ⟨t.items, t.entries, t.cmds⟩ → x.touched t ≠ [] →
    exec (.txnScheduledApply mb) s = .next (s.after ((Hub.drainStep x y t.mb z.token 0x0203).modOp z.token (fun o => { o with work := .commit t.id (x.touched t) y.clk.ns })))) ∧
  (∀ (s : State) (token id at_ : Nat) (us : List WorkUnit) (o : LongOp), s.hub.op token = some o → o.work = .commit id us at_ → us.filter s.hub.runs = [] → s.hub.ag.drains.any (fun d => d.reply == some (.step o.token o.cmd)) = false →
    exec (.txnCommitDone token) s = .next (s.after (((s.hub.retireApplied id at_).endOp token .ok 0 []).txnApplied id))) ∧
  (∀ (s : State) (token id at_ : Nat) (us : List WorkUnit) (o : LongOp), s.hub.op token = some o → o.work = .commit id us at_ → us.filter s.hub.runs ≠ [] →
    exec (.txnCommitDone token) s = .next (s.after (s.hub)))

/-- Long operations report, are cancelled and go on as R64 to R67 say. Where the rules leave a point open it states the model's choice: log entries 2, 30, 85, 97, 116, 117, 121, 148, 149, 150, 174. -/
def Obligations.StepRequestsAndLongOperations : Prop :=
  (∀ (s : State) (q : Req) (a : Hub) (o : LongOp), s.hub.asks q 0x0301 = true → a = s.hub.asked q 0x0301 → q.payload.length = 4 → a.op (le q.payload 0 4) = some o →
    exec (.stepStatus q) s = .next (s.after (s.hub.answered q 0x0301 (a) (.ok ([0#8, byte o.percent, 0#8, 0#8] ++ leBytes 4 0))))) ∧
  (∀ (s : State) (q : Req) (a : Hub) (o : OpRecord), s.hub.asks q 0x0301 = true → a = s.hub.asked q 0x0301 → q.payload.length = 4 → a.op (le q.payload 0 4) = none → a.ctl.doneOps.find? (fun o => o.token == le q.payload 0 4) = some o →
    exec (.stepStatus q) s = .next (s.after (s.hub.answered q 0x0301 (a) (.ok ([byte o.state, 100#8, 0#8, 0#8] ++ leBytes 4 o.status))))) ∧
  (∀ (s : State) (q : Req) (a : Hub), s.hub.asks q 0x0301 = true → a = s.hub.asked q 0x0301 → q.payload.length = 4 → a.op (le q.payload 0 4) = none → a.ctl.doneOps.find? (fun o => o.token == le q.payload 0 4) = none →
    exec (.stepStatus q) s = .next (s.after (s.hub.answered q 0x0301 (a) (.err .badParam)))) ∧
  (∀ (s : State) (q : Req) (a : Hub) (o : LongOp) (p : List Byte) (t : Nat), s.hub.asks q 0x0302 = true → a = s.hub.asked q 0x0302 → q.payload.length = 4 → a.op (le q.payload 0 4) = some o → o.mb = q.mb → o.work = .tableClear p t →
    exec (.stepCancel q) s = .next (s.after (s.hub.answered q 0x0302 (a.endOp o.token .aborted 0 []) (.ok [])))) ∧
  (∀ (s : State) (q : Req) (a : Hub) (o : LongOp), s.hub.asks q 0x0302 = true → a = s.hub.asked q 0x0302 → q.payload.length = 4 → a.op (le q.payload 0 4) = some o → o.mb ≠ q.mb →
    exec (.stepCancel q) s = .next (s.after (s.hub.answered q 0x0302 (a) (.err .denied)))) ∧
  (∀ (s : State) (x y : Hub) (o : LongOp) (l : List LongOp) (p : List Byte) (t n : Nat), x = [0, 1, 2, 3].foldl (fun h m => h.serveOne m Hub.runCode) s.hub → x.ctl.ops = o :: l → y = { x with ctl := { x.ctl with ops := l ++ [o] } } → y.op o.token = some o → o.work = .tableClear p t → s.hub.running 10 = true →
    exec (.longOpStep n) s = .next (s.after (Hub.endTable y o (y.clearOutcome o.mb p t)))) ∧
  (∀ (s : State) (x y : Hub) (o : LongOp) (l : List LongOp) (b n : Nat), x = [0, 1, 2, 3].foldl (fun h m => h.serveOne m Hub.runCode) s.hub → x.ctl.ops = o :: l → y = { x with ctl := { x.ctl with ops := l ++ [o] } } → y.op o.token = some o → o.work = .bankCheck b → s.hub.running 10 = true →
    exec (.longOpStep n) s = .next (s.after (y.modOp o.token (fun o => { o with percent := max o.percent (n % 100) })))) ∧
  (∀ (s : State) (n : Nat), s.hub.running 10 = false →
    exec (.longOpStep n) s = .next (s.after (s.hub))) ∧
  (∀ (s : State) (pid inst : Nat) (o : OpenPair) (x : Hub), s.hub.ctl.pairs.find? (fun o => o.pid == pid && o.inst == inst) = some o → x = s.hub.until (o.since + ms (s.hub.pget P.MG_PAIR_TIMEOUT 0)) →
    exec (.pairTimeout pid inst) s = .next (s.after (({ x with ctl := { x.ctl with pairs := x.ctl.pairs.filter (fun y => !(y.pid == pid && y.inst == inst)) } } : Hub).event .pairDiscarded [(0, 2, pid), (2, 2, inst)])))

/-- Host registers, doorbells and interrupt bits act as R34 to R38 and R43 say. Where the rules leave a point open it states the model's choice: log entries 4, 91, 118, 120, 122. -/
def Obligations.HostRegistersAndRings : Prop :=
  (∀ (s : State) (mask : Nat),
    exec (.intStatusClear mask) s = .next (s.after (s.hub.reach.modRegs (fun r => { r with intStatus := r.intStatus - (r.intStatus &&& mask) })))) ∧
  (∀ (s : State) (mask : Nat),
    exec (.intForce mask) s = .next (s.after (s.hub.reach.raise mask))) ∧
  (∀ (s : State),
    exec .ltimeRead s = .next (s.after (s.hub.reach.modRegs (fun r => { r with ltHi := s.hub.reach.clk.ns / 2 ^ 32 % 2 ^ 32, ltFrac := s.hub.reach.clk.frac % 65536 })))) ∧
  (∀ (s : State) (v : Nat),
    exec (.registerWrite 0x34 4 v) s = .next (s.after (s.hub.reach.modRegs (fun r => { r with scratch := v % 2 ^ 32 })))) ∧
  (∀ (s : State) (o size v : Nat), size ≠ 4 →
    exec (.registerWrite o size v) s = .next (s.after (s.hub))) ∧
  (∀ (s : State) (o v : Nat), o % 4 ≠ 0 →
    exec (.registerWrite o 4 v) s = .next (s.after (s.hub.reach))) ∧
  (∀ h : Hub, (h.clockGated 10 = false → h.reach = h) ∧ (h.clockGated 10 = true → h.reach = h.restart 10)) ∧
  (∀ (s : State) (mb : Nat),
    exec (.ringPoll mb) s = .next (s.after (Hub.serveN (s.hub.waitingCount mb) mb s.hub))) ∧
  (∀ (s : State) (mb : Nat), (s.hub.island 10).powered = true → (s.hub.island 10).inReset = false →
    exec (.doorbell mb) s = .next (s.after ((s.hub.modSeam (bellCrossing mb) (fun c => if c.toggle then { c with pending := true } else { c with toggle := true })).seamFlow))) ∧
  (∀ (s : State) (mb : Nat), s.hub.reach.ctl.txns.find? (fun t => t.mb == mb) = none →
    exec (.mbReset mb) s = .next (s.after ((s.hub.reach.modMb mb (fun b => { b with reqTail := 0, reqHead := 0, rspTail := 0, rspHead := 0, waiting := [], held := none, events := [], overflow := 0 })).ring mb))) ∧
  (∀ (s : State) (mb idx : Nat), mb = 1 ∨ mb = 2 →
    exec (.rspHeadWrite mb idx) s = .next (s.after (s.hub.reach.modMb mb (fun b => { b with rspHead := idx % 65536 })))) ∧
  (∀ (s : State) (bs : List Byte), (s.hub.mb 0).held = some bs → s.hub.canSend 0 (some (s.hub.mb 0).heldEntry) = true →
    exec .mb0ReturnSend s = .next (s.after (Hub.flushN 65 0 (((s.hub.sendOn 0 (some (s.hub.mb 0).heldEntry) bs).modMb 0 (fun b => { b with held := none })).raise 1)))) ∧
  (∀ (s : State), s.hub.mg.ready = true → (s.hub.island 10).clock = true →
    exec .heartbeat s = .next (s.after (s.hub.modRegs (fun r => { r with heartbeat := (r.heartbeat + 1) % 2 ^ 32 }))))

/-- Tables are read, written, loaded and cleared as R115 and R116 say. Where the rules leave a point open it states the model's choice: log entries 30, 85, 97, 116, 174. -/
def Obligations.TableRequests : Prop :=
  (∀ (s : State) (q : Req) (a : Hub), s.hub.asks q 0x0401 = true → a = s.hub.asked q 0x0401 → tablePrefix (reqOn q 0x0401) (fun _ _ => 0) = none → 8 + le q.payload 4 2 * entrySize (le q.payload 0 1) ≤ 4080 →
    exec (.tableRead q) s = .next (s.after (s.hub.answered q 0x0401 (a) (.ok (q.payload.take 6 ++ leBytes 2 (entrySize (le q.payload 0 1)) ++ (List.range (le q.payload 4 2)).flatMap (fun k =>
      leBytes (entrySize (le q.payload 0 1)) (a.entryValue (le q.payload 0 1) (le q.payload 2 2 + k)))))))) ∧
  (∀ (s : State) (q : Req) (a : Hub) (es : List TableItem), s.hub.asks q 0x0402 = true → a = s.hub.asked q 0x0402 → q.txn = 0 → tablePrefix (reqOn q 0x0402) (fun n size => n * size) = none → a.txn 0 = none → es = entriesOf (le q.payload 0 1) (le q.payload 2 2) (le q.payload 4 2) (q.payload.drop 8) → a.entriesRefusal (a.overlay [] es) q.mb 0 es = none →
    exec (.tableWrite q) s = .next (s.after (s.hub.answered q 0x0402 (a.applyChange ⟨[], es, []⟩) (.ok [])))) ∧
  (∀ (s : State) (q : Req) (a : Hub) (es : List TableItem) (f : Status) (d : Nat), s.hub.asks q 0x0402 = true → a = s.hub.asked q 0x0402 → q.txn = 0 → tablePrefix (reqOn q 0x0402) (fun n size => n * size) = none → a.txn 0 = none → es = entriesOf (le q.payload 0 1) (le q.payload 2 2) (le q.payload 4 2) (q.payload.drop 8) → a.entriesRefusal (a.overlay [] es) q.mb 0 es = some (f, d) → f ≠ .ok →
    exec (.tableWrite q) s = .next (s.after (s.hub.answered q 0x0402 (a) (.done f d [])))) ∧
  (∀ (s : State) (q : Req) (a : Hub) (es : List TableItem) (t : Txn) (x : Hub), s.hub.asks q 0x0402 = true → a = (s.hub.asked q 0x0402).touchTxn (reqOn q 0x0402) → tablePrefix (reqOn q 0x0402) (fun n size => n * size) = none → q.txn ≠ 0 → a.ownTxn q.mb q.txn = some t → t.sched = none → a.txn t.id = some t → es = entriesOf (le q.payload 0 1) (le q.payload 2 2) (le q.payload 4 2) (q.payload.drop 8) → a.entriesRefusal (a.viewOf (t.with_ [] es [])) q.mb t.id es = none → a.stage t [] es [] = some x →
    exec (.tableWrite q) s = .next (s.after (s.hub.answered q 0x0402 (x) (.ok [])))) ∧
  (∀ (s : State) (q : Req) (a : Hub), s.hub.asks q 0x0403 = true → a = (s.hub.asked q 0x0403).touchTxn (reqOn q 0x0403) → a.ctl.ops.length < 16 →
    exec (.tableLoad q) s = .next (s.after (s.hub.answered q 0x0403 (a.withOp q.mb 0x0403 (.tableLoad q.payload q.txn (reqOn q 0x0403).entry)) (.long a.ctl.nextToken)))) ∧
  (∀ (s : State) (q : Req) (a : Hub), s.hub.asks q 0x0404 = true → a = (s.hub.asked q 0x0404).touchTxn (reqOn q 0x0404) → a.ctl.ops.length < 16 →
    exec (.tableClear q) s = .next (s.after (s.hub.answered q 0x0404 (a.withOp q.mb 0x0404 (.tableClear q.payload q.txn)) (.long a.ctl.nextToken)))) ∧
  (∀ (s : State) (token : Nat) (o : LongOp) (p : List Byte) (t e : Nat) (x y : Hub), y = [0, 1, 2, 3].foldl (fun h m => h.serveOne m Hub.runCode) s.hub → y.op token = some o → o.work = .tableLoad p t e → x = y.fillDone → (x.loadOutcome o.mb p t e).2.1 = .ok → Hub.mustDrain x (x.loadOutcome o.mb p t e).1 = false →
    exec (.tableLoadDone token) s = .next (s.after ((x.loadOutcome o.mb p t e).1.endOp o.token .ok 0 []))) ∧
  (∀ (s : State) (token : Nat) (o : LongOp) (p : List Byte) (t e : Nat) (x y : Hub), y = [0, 1, 2, 3].foldl (fun h m => h.serveOne m Hub.runCode) s.hub → y.op token = some o → o.work = .tableLoad p t e → x = y.fillDone → (x.loadOutcome o.mb p t e).2.1 ≠ .ok →
    exec (.tableLoadDone token) s = .next (s.after ((x.loadOutcome o.mb p t e).1.endOp o.token (x.loadOutcome o.mb p t e).2.1 (x.loadOutcome o.mb p t e).2.2 [])))

/-- A message of fewer than 16 bytes is discarded without a response and counted. -/
def Obligations.ShortMessagesAreDiscarded : Prop :=
  (∀ (s : State) (mb n : Nat), mb = 0 ∨ mb = 3 → mb < s.hub.ctl.mbs.length → s.hub.mbServed mb = true → (s.hub.mb mb).waiting = [] → n < 16 →
    exec (.msgShort mb n) s = .next (s.after (s.hub.bump P.MG_MSG_SHORT mb)))

/-- A cell from the line goes where DEST_NODE, its hops and the tunnel table say; one that cannot is dropped and counted. Where the rules leave a point open it states the model's choice: log entries 16, 33, 155, 156. -/
def Obligations.CellsAreRoutedAsTheHeaderSays : Prop :=
  (∀ (s : State) (p : Nat) (c : Cell) (x : Hub), s.hub.portUp p = true → p < 2 → c.kind < 5 → c.detour = false → c.dest ≠ 0xFFF → x = (s.hub.takeCell p c).countIn p c → x.idValid = true → c.dest ≠ x.ownId → x.canRoute p (x.towards c.dest) c = true → 2 ≤ c.hops →
    exec (.lineCellRx p c) s = .next (s.after (x.arriving p c (fun g => g.enqueue p (x.towards c.dest) { c with hops := c.hops - 1 })))) ∧
  (∀ (s : State) (p : Nat) (c : Cell) (x : Hub), s.hub.portUp p = true → p < 2 → c.kind < 5 → c.detour = false → c.dest ≠ 0xFFF → x = (s.hub.takeCell p c).countIn p c → x.idValid = true → c.dest ≠ x.ownId → x.canRoute p (x.towards c.dest) c = true → c.hops ≤ 1 →
    exec (.lineCellRx p c) s = .next (s.after (x.arriving p c (fun g => (g.bump P.SW_HOPS_DROP p).portEv p 12 1)))) ∧
  (∀ (s : State) (p : Nat) (c : Cell) (x : Hub), s.hub.portUp p = true → p < 2 → c.kind < 5 → c.detour = false → c.dest ≠ 0xFFF → x = (s.hub.takeCell p c).countIn p c → x.idValid = true → c.dest ≠ x.ownId → x.canRoute p (x.towards c.dest) c = false →
    exec (.lineCellRx p c) s = .next (s.after (x.arriving p c (fun g => (g.bump P.SW_NOROUTE_DROP p).portEv p 13 1)))) ∧
  (∀ (s : State) (p i : Nat) (c : Cell) (x : Hub) (e : TEntry), s.hub.portUp p = true → p < 2 → c.kind < 5 → c.kind ≠ 2 → c.detour = false → x = (s.hub.takeCell p c).countIn p c → x.idValid = true → c.dest = x.ownId → c.dest ≠ 0xFFF → x.tunnels = true → x.pget P.AG_LOCK 0 = 1 → x.rxEntry c.tid = some (i, e) → e.peer = 0xFFF ∨ e.peer = c.src → c.kind = 1 ∨ (c.kind = dataKind e.type ∧ c.payload.length ≠ 0) →
    exec (.lineCellRx p c) s = .next (s.after (x.arriving p c (fun g => g.enqueue p (typeOutput e.type) c)))) ∧
  (∀ (s : State) (p : Nat) (c : Cell) (x : Hub), s.hub.portUp p = true → p < 2 → c.kind < 5 → c.kind ≠ 2 → c.detour = false → x = (s.hub.takeCell p c).countIn p c → x.idValid = true → c.dest = x.ownId → c.dest ≠ 0xFFF → x.tunnels = true → x.pget P.AG_LOCK 0 = 1 → x.rxEntry c.tid = none → x.portUp 2 = false →
    exec (.lineCellRx p c) s = .next (s.after (x.arriving p c (fun g => g.bump P.TN_NO_TUNNEL 0)))) ∧
  (∀ (s : State) (p i : Nat) (c : Cell) (x : Hub) (e : TEntry), s.hub.portUp p = true → p < 2 → c.kind < 5 → c.kind ≠ 2 → c.detour = false → x = (s.hub.takeCell p c).countIn p c → x.idValid = true → c.dest = x.ownId → c.dest ≠ 0xFFF → x.tunnels = true → x.pget P.AG_LOCK 0 = 1 → x.rxEntry c.tid = some (i, e) → e.peer ≠ 0xFFF → e.peer ≠ c.src →
    exec (.lineCellRx p c) s = .next (s.after (x.arriving p c (fun g => (g.bump P.TN_NO_TUNNEL 0).countDrops i 1)))) ∧
  (∀ (s : State) (p i : Nat) (c : Cell) (x : Hub) (e : TEntry), s.hub.portUp p = true → p < 2 → c.kind < 5 → c.kind ≠ 2 → c.detour = false → x = (s.hub.takeCell p c).countIn p c → x.idValid = true → c.dest = x.ownId → c.dest ≠ 0xFFF → x.tunnels = true → x.pget P.AG_LOCK 0 = 1 → x.rxEntry c.tid = some (i, e) → e.peer = 0xFFF ∨ e.peer = c.src → c.kind ≠ 1 → c.kind ≠ dataKind e.type →
    exec (.lineCellRx p c) s = .next (s.after (x.arriving p c (fun g => (g.bump P.TN_KIND_ERR 0).countDrops i 1)))) ∧
  (∀ (s : State) (p i : Nat) (c : Cell) (x : Hub) (e : TEntry), s.hub.portUp p = true → p < 2 → c.kind < 5 → c.kind ≠ 2 → c.detour = false → x = (s.hub.takeCell p c).countIn p c → x.idValid = true → c.dest = x.ownId → c.dest ≠ 0xFFF → x.tunnels = true → x.pget P.AG_LOCK 0 = 1 → x.rxEntry c.tid = some (i, e) → e.peer = 0xFFF ∨ e.peer = c.src → c.kind ≠ 1 → c.kind = dataKind e.type → c.payload = [] →
    exec (.lineCellRx p c) s = .next (s.after (x.arriving p c (fun g => (g.bump P.TN_FRAME_ERR 0).countDrops i 1)))) ∧
  (∀ (s : State) (p : Nat) (c : Cell), s.hub.portUp p = true → c.kind = 5 →
    exec (.lineCellRx p c) s = .next (s.after (((s.hub.takeCell p c).countIn p c).arriving p c (fun g => g.epochArrive p c)))) ∧
  (∀ (h : Hub) (p pid i : Nat) (c : Cell), (h.island 3).inReset = false → p < 3 → 2 ≤ c.cls → h.holdsRef p h.sw.nextRef = false →
    h.arriving p c (fun g => g.bump pid i) = (({ h with
      sw := { h.sw with nextRef := h.sw.nextRef + 1, arrival := none } } : Hub).bump pid i).creditFree p c.cls (cellFlits c))

/-- The tunnel layer takes cells, resynchronises, waits for gaps and discards what is late, as R121 to R130 say. Where the rules leave a point open it states the model's choice: log entries 2, 155, 156, 157, 158, 159, 168. -/
def Obligations.TunnelsReceiveInOrder : Prop :=
  (∀ (s : State) (o cls i : Nat) (q : QCell) (l : List QCell) (e : TEntry) (x : Hub), s.hub.dlv o cls = q :: l → 16 * ([0, 1, 2, 3].map s.hub.reasm).sum < s.hub.pget P.SW_REASM_LIMIT 0 → s.hub.levelOpen o q.cell = true → s.hub.earlierHead o cls = false → o < 4 ∨ (s.hub.island (outIsland o)).inReset = false → (s.hub.setDlv o cls l).tunnels = true → q.cell.kind ≠ 2 → q.cell.dest ≠ 0xFFF → (s.hub.setDlv o cls l).rxEntry q.cell.tid = some (i, e) → x = (s.hub.setDlv o cls l).receive i e q.cell →
    exec (.tunnelCellRx o cls) s = .next (s.after (if (x.inbox.drop s.hub.inbox.length).any (fun f => x.overfull f.1 f.2) then s.hub else x))) ∧
  (∀ (s : State) (o cls : Nat) (q : QCell) (l : List QCell), s.hub.dlv o cls = q :: l → 16 * ([0, 1, 2, 3].map s.hub.reasm).sum < s.hub.pget P.SW_REASM_LIMIT 0 → s.hub.levelOpen o q.cell = true → s.hub.earlierHead o cls = false → o < 4 ∨ (s.hub.island (outIsland o)).inReset = false → (s.hub.setDlv o cls l).tunnels = true → q.cell.kind ≠ 2 → q.cell.dest ≠ 0xFFF → (s.hub.setDlv o cls l).rxEntry q.cell.tid = none →
    exec (.tunnelCellRx o cls) s = .next (s.after ((s.hub.setDlv o cls l).bump P.TN_NO_TUNNEL 0))) ∧
  (∀ (s : State) (o cls : Nat), s.hub.dlv o cls = [] →
    exec (.tunnelCellRx o cls) s = .next (s.after (s.hub))) ∧
  (∀ (s : State) (i : Nat) (c : Cell) (x : Ctx), s.hub.tunnels = true → (s.hub.tun i).valid = true → (s.hub.tun i).dir.receives = true → s.hub.ctx i c.src = some x → isResync c = true → be c.payload 4 4 ≠ x.tag → be c.payload 4 4 ≠ x.prevTag →
    exec (.resyncRx i c) s = .next (s.after (((((s.hub.putCtx { x with lastUse := s.hub.clk.up }).bumpBy P.TN_ENTRY_DISCARD 0 x.cells).count x.entry (fun k =>
      { k with cellsIn := satAdd 48 k.cellsIn 1, drops := satAdd 48 k.drops x.cells })).putCtx { x with
        lastUse := s.hub.clk.up, based := true, high := c.seq, next := (c.seq + 1) % 65536, window := 1#1024, held := [], gaps := [], frame := none,
        discard := false, prevTag := x.tag, tag := be c.payload 4 4, stale := 0 }).event .tunnelResync
      [(0, 2, x.entry), (2, 2, x.src), (4, 4, be c.payload 4 4), (8, 2, min x.cells 65535)]))) ∧
  (∀ (s : State) (i : Nat) (c : Cell) (x : Ctx), s.hub.tunnels = true → (s.hub.tun i).valid = true → (s.hub.tun i).dir.receives = true → (s.hub.tun i).prot = false → s.hub.ctx i c.src = some x → isResync c = false → x.based = true → seqDist c.seq x.high = 1 →
    exec (.tunnelControlRx i c) s = .next (s.after ((s.hub.putCtx { x with lastUse := s.hub.clk.up }).accept { x with
      lastUse := s.hub.clk.up, high := c.seq, window := x.window <<< 1 ||| 1#1024 } (s.hub.tun i) c)) ∧
    exec (.resyncRx i c) s = .next (s.after ((s.hub.putCtx { x with lastUse := s.hub.clk.up }).accept { x with
      lastUse := s.hub.clk.up, high := c.seq, window := x.window <<< 1 ||| 1#1024 } (s.hub.tun i) c))) ∧
  (∀ (s : State) (i src : Nat) (x : Ctx) (g : Nat × Nat × Nat) (l : List (Nat × Nat × Nat)) (y : Hub), s.hub.ctx i src = some x → x.gaps = g :: l → y = s.hub.until (g.2.2 + us (s.hub.pget P.TN_GAP_WAIT 0)) →
    exec (.gapWaitExpire i src) s = .next (s.after ((Hub.advanceD (2 * x.held.length + x.gaps.length + 4) x (y.tun i) y).1.putCtx (Hub.advanceD (2 * x.held.length + x.gaps.length + 4) x (y.tun i) y).2))) ∧
  (∀ (s : State) (i src : Nat) (x : Ctx) (f : OpenFrame), s.hub.ctx i src = some x → x.frame = some f →
    exec (.reasmTimeout i src) s = .next (s.after ((((s.hub.until (f.since + us (s.hub.pget P.TN_REASM_TIMEOUT 0))).bump P.TN_TIMEOUT_DROP 0).countDrops x.entry f.cells).putCtx
      { x with frame := none, discard := true }))) ∧
  (∀ (s : State) (buf : Nat) (k : DiscardKey) (l : List DiscardKey) (x : Hub), nth s.hub.sw.discard buf [] = k :: l → x = s.hub.until (k.at_ + us (s.hub.pget P.TN_REASM_TIMEOUT 0)) →
    exec (.discardEntryExpire buf) s = .next (s.after ({ x with sw := { x.sw with discard := modAt x.sw.discard buf (fun t => t.drop 1) } })))

/-- A frame is sent, policed, shaped or dropped as R117, R118, R141, R153 and R176 to R180 say. Where the rules leave a point open it states the model's choice: log entries 2, 16. -/
def Obligations.FramesLeaveThroughTheirTunnel : Prop :=
  (∀ (s : State) (o i n : Nat) (bs : List Byte), (s.hub.tun i).valid = false ∨ (s.hub.tun i).dir.sends = false ∨ s.hub.tunnels = false ∨ bs = [] ∨ (s.hub.tun i).limit < bs.length →
    exec (.frameSend o i bs n) s = .next (s.after (s.hub))) ∧
  (∀ (s : State) (o i n : Nat) (bs : List Byte), (s.hub.tun i).valid = true → (s.hub.tun i).dir.sends = true → s.hub.tunnels = true → bs ≠ [] → bs.length ≤ (s.hub.tun i).limit → (s.hub.tun i).mcast = false → (s.hub.tun i).peer = s.hub.ownId →
    exec (.frameSend o i bs n) s = .next (s.after ((s.hub.countDrops i (cellsOf (s.hub.tun i) false bs.length)).bumpBy P.SW_NOROUTE_DROP o (cellsOf (s.hub.tun i) false bs.length)))) ∧
  (∀ (s : State) (o i n : Nat) (bs : List Byte), (s.hub.tun i).valid = true → (s.hub.tun i).dir.sends = true → s.hub.tunnels = true → bs ≠ [] → bs.length ≤ (s.hub.tun i).limit → (s.hub.tun i).mcast = true ∨ (s.hub.tun i).peer ≠ s.hub.ownId → (s.hub.police i (s.hub.tun i) n).2 = false →
    exec (.frameSend o i bs n) s = .next (s.after (((s.hub.police i (s.hub.tun i) n).1.bump P.AL_POLICE_DROP 0).countDrops i (cellsOf (s.hub.tun i) false bs.length)))) ∧
  (∀ (s : State) (o i n : Nat) (bs : List Byte) (x : Hub), (s.hub.tun i).valid = true → (s.hub.tun i).dir.sends = true → s.hub.tunnels = true → bs ≠ [] → bs.length ≤ (s.hub.tun i).limit → (s.hub.tun i).mcast = true ∨ (s.hub.tun i).peer ≠ s.hub.ownId → s.hub.police i (s.hub.tun i) n = (x, true) → x.tn.waiting.any (fun w => w.entry == i) = true ∨ x.shaperOpen i (s.hub.tun i) = false →
    exec (.frameSend o i bs n) s = .next (s.after ({ x with tn := { x.tn with waiting := x.tn.waiting ++ [⟨o, i, false, bs, n, true⟩] } }))) ∧
  (∀ (s : State) (o i n : Nat) (bs : List Byte) (x y : Hub), (s.hub.tun i).valid = true → (s.hub.tun i).dir.sends = true → s.hub.tunnels = true → bs ≠ [] → bs.length ≤ (s.hub.tun i).limit → (s.hub.tun i).mcast = true ∨ (s.hub.tun i).peer ≠ s.hub.ownId → (s.hub.tun i).enc = false → s.hub.police i (s.hub.tun i) n = (x, true) → x.tn.waiting.any (fun w => w.entry == i) = false → x.shaperOpen i (s.hub.tun i) = true → x.makeRoom 3 (s.hub.tun i).cls (x.needFlits i (s.hub.tun i) false bs.length) = (y, true) →
    exec (.frameSend o i bs n) s = .next (s.after ((((if (y.txState i).resync then y.sendResync o i (s.hub.tun i) else y).emitPieces o i (s.hub.tun i) (dataKind (s.hub.tun i).type) (cutFrame 70 bs)).count i
      (fun k => { k with bytes := satAdd 48 k.bytes n })).shaperPay i (s.hub.tun i) n))) ∧
  (∀ (s : State) (i : Nat), s.hub.shaperOpen i (s.hub.tun i) = false → (rateOf (s.hub.tget 0x22 i)).2.1 ≠ 0 →
    exec (.shaperRelease i) s = .next (s.after (s.hub.advance (((mget ⟨0, 0⟩ s.hub.tn.shape i).lackNow (rateOf (s.hub.tget 0x22 i)).2.1 s.hub.clk.up - (rateOf (s.hub.tget 0x22 i)).2.2 * bucketUnit) / (rateOf (s.hub.tget 0x22 i)).2.1 + 1))))

/-- Outputs send what the scheduler chose, or idle; credit messages are sent, taken and missed as R95, R155 to R160 and R172 say. Where the rules leave a point open it states the model's choice: log entries 2, 113, 114. -/
def Obligations.OutputsSendAndCreditFlows : Prop :=
  (∀ (s : State) (o : Nat), o < 3 → s.hub.portUp o = false →
    exec (.outputCellSend o) s = .next (s.after (s.hub))) ∧
  (∀ (s : State) (o : Nat), o < 3 → s.hub.portUp o = true → s.hub.darnFull o = true → (s.hub.island 3).inReset = false →
    exec (.outputCellSend o) s = .next (s.after ((s.hub.bump P.LN_DARN_STALL o).unnumbered o []))) ∧
  (∀ (s : State) (o : Nat), 3 ≤ o → (s.hub.cleanHeads o).choose o = none → (s.hub.island 3).inReset = false →
    exec (.outputCellSend o) s = .next (s.after ((s.hub.cleanHeads o).modOut o (fun p => { p with busy := false, drr := ⟨[], false⟩ })))) ∧
  (∀ (s : State) (o q i : Nat) (qc : QCell) (k : Choice) (x : Hub), 3 ≤ o → (s.hub.cleanHeads o).choose o = some k → k.cand = (q, i, qc) → k.alt = false → x = s.hub.cleanHeads o → (s.hub.island 3).inReset = false →
    exec (.outputCellSend o) s = .next (s.after ((((((x.setVoq i q qc.cell.cls ((x.voq i q qc.cell.cls).drop 1)).charge o k.step qc.cell).modOut o (fun p => { p with
      busy := true, lastInp := i, drr := k.drr })).refreshOut o).freed i qc).emit o q i qc))) ∧
  (∀ (s : State) (o : Nat), (s.hub.island 3).inReset = true →
    exec (.outputCellSend o) s = .next (s.after (s.hub))) ∧
  (∀ (s : State) (p : Nat), s.hub.portUp p = true →
    exec (.creditTx p) s = .next (s.after ((s.hub.creditSend p 2).creditSend p 3))) ∧
  (∀ (h x : Hub) (p k : Nat),
    x = (h.sendLinkLocal p ([byte (0x10 + k), 0#8, 0#8, 0#8] ++ beBytes 4 ((((h.port p).credit k).grant + ((h.port p).credit k).freed) % 2 ^ 32))).portEv p 15 1 →
    h.creditSend p k = x.modPort p (fun q => q.modCredit k (fun c => { c with shown := c.freed }))) ∧
  (∀ (s : State) (p cls l : Nat), s.hub.portUp p = true → cls = 2 ∨ cls = 3 → l < 2 ^ 32 →
    exec (.creditRx p cls l) s = .next (s.after (((s.hub.takeLocal p (0x10 + cls)).portEv p 16 1).modPort p (fun q => q.modCredit cls (fun c =>
      if (l + 2 ^ 32 - c.limit) % 2 ^ 32 < 2 ^ 31 then { c with limit := l, told := c.told && l = c.limit } else c))))) ∧
  (∀ (s : State) (p cls : Nat) (c b : Nat × Nat) (l : List (Nat × Nat)) (x : Hub), s.hub.portUp p = true → ((s.hub.port p).credit cls).told = false → s.hub.creditHeads p cls = c :: l → b = l.foldl (fun b w => if w.1 < b.1 then w else b) c → x = s.hub.until (b.1 + ms (s.hub.pget P.SW_CREDIT_STALL 0)) →
    exec (.creditStall p cls) s = .next (s.after ((x.modPort p (fun q => q.modCredit cls (fun c => { c with told := true }))).event .creditStall [(0, 1, p), (1, 1, cls), (2, 8, b.2)])))

/-- A cell read back from its own flits is the cell. Where the rules leave a point open it states the model's choice: log entry 109. -/
def Obligations.CellsReadBackFromTheWire : Prop :=
  ∀ c : Cell, c.cls < 4 → c.kind ≤ 6 → c.dest < 4096 → c.src < 4096 → c.tid < 65536 → c.seq < 65536 → c.rail < 2 → c.hops < 8192 →
    c.payload.length ≤ 256 →
    (flitsOf c).length = cellFlits c ∧ (∀ f ∈ flitsOf c, f.length = 16) ∧
    (∃ (f : List Byte) (l : List (List Byte)), flitsOf c = f :: l ∧ headerGood f = true ∧ headerFlits f = cellFlits c) ∧
    cellOf (flitsOf c) = some c

/-- A C2 or C3 cell has credit by R158's test, and an older limit is ignored. -/
def Obligations.CreditIsTheDistanceToTheLimit : Prop :=
  (∀ (c : Credit) (n : Nat), c.covers n = true ↔
    n ≤ (c.limit + 2 ^ 32 - c.sent % 2 ^ 32) % 2 ^ 32 ∧ (c.limit + 2 ^ 32 - c.sent % 2 ^ 32) % 2 ^ 32 < 2 ^ 31) ∧
  (∀ (s : State) (p cls l : Nat) (x : Hub), s.hub.portUp p = true → cls = 2 ∨ cls = 3 → l < 2 ^ 32 →
    x = (s.hub.takeLocal p (0x10 + cls)).portEv p 16 1 →
    ∃ g : Hub, exec (.creditRx p cls l) s = .next (s.after g) ∧
      ((l + 2 ^ 32 - ((x.port p).credit cls).limit) % 2 ^ 32 < 2 ^ 31 → p < x.ports.length → ((g.port p).credit cls).limit = l) ∧
      (2 ^ 31 ≤ (l + 2 ^ 32 - ((x.port p).credit cls).limit) % 2 ^ 32 → ((g.port p).credit cls).limit = ((x.port p).credit cls).limit))

/-- A C2 or C3 cell that its pool cannot hold is dropped and counted in SW_CREDIT_VIOL. -/
def Obligations.CellsWithoutCreditAreDropped : Prop :=
  (∀ (h : Hub) (p o : Nat) (c : Cell), p < 3 → 2 ≤ c.cls → h.sw.arrival.bind (fun a => a.ok) = none →
    h.pool p c.cls < h.occ p c.cls + cellFlits c →
    h.enqueue p o c = { (h.bump P.SW_CREDIT_VIOL p).countTidDrops c.tid 1 with
      sw := { h.sw with arrival := h.sw.arrival.map (fun a => { a with ok := some false }) } }) ∧
  (∀ (s : State) (p : Nat) (c : Cell) (x : Hub), p < 2 → s.hub.portUp p = true → c.kind < 5 → c.detour = false → c.dest ≠ 0xFFF →
    x = (s.hub.takeCell p c).countIn p c → x.idValid = true → c.dest ≠ x.ownId → x.canRoute p (x.towards c.dest) c = true → 2 ≤ c.hops →
    (x.island 3).inReset = false → 2 ≤ c.cls → x.pool p c.cls < x.occ p c.cls + cellFlits c →
    exec (.lineCellRx p c) s = .next (s.after { (x.bump P.SW_CREDIT_VIOL p).countTidDrops c.tid 1 with
      sw := { x.sw with nextRef := x.sw.nextRef + 1, arrival := none } }))

/-- Memory reads back what was written, keeps every other byte and its canonical form. -/
def Obligations.MemoryReadsWhatWasWritten : Prop :=
  ∀ (m : List Host.Cell) (a : Nat) (bs : List Byte), Memory.wf m = true →
    readMem (writeMem m a bs) a bs.length = bs ∧
    (∀ x : Nat, (x < a ∨ a + bs.length ≤ x) → readByte (writeMem m a bs) x = readByte m x) ∧
    Memory.wf (writeMem m a bs) = true ∧ (∀ src dst n : Nat, Memory.wf (copyMem m src dst n) = true)

/-- Allotments reload at their boundary; epochs are sent, taken, cancelled and applied as R173 and R181 to R187 say. Where the rules leave a point open it states the model's choice: log entries 2, 94, 146. -/
def Obligations.AllotmentsAndEpochs : Prop :=
  (∀ (s : State) (x : Hub), s.hub.rl.steps = [] → x = (s.hub.untilLine (boundaryAt (s.hub.clk.ns + 1))).reload →
    exec .allotBoundary s = .next (s.after (x))) ∧
  (∀ (s : State) (mb v : Nat), 1 ≤ v → v ≤ 3 → s.hub.isHead = true → s.hub.conflictsOutside mb P.AL_EPOCH_ARM 0 = false → s.hub.ctl.pairs.find? (fun o => o.pid == P.AL_EPOCH_TIME && o.inst == 0 && o.mb == mb) = none → s.hub.clk.ns + ms (max 2 (s.hub.pget P.AL_EPOCH_LEAD 0)) ≤ s.hub.pget P.AL_EPOCH_TIME 0 → s.hub.pget P.AL_EPOCH_TIME 0 ≤ s.hub.clk.ns + 60000000000 → s.hub.al.lastTe ≤ s.hub.clk.ns → s.hub.al.sent < 65535 →
    exec (.epochArm mb v) s = .next (s.after (s.hub.epochSend (s.hub.pget P.AL_EPOCH_TIME 0) v))) ∧
  (∀ (s : State) (mb id : Nat), id < 2 ^ 64 → s.hub.isHead = true → s.hub.al.sent ≠ 0 → id = s.hub.al.sentId → s.hub.clk.ns + 1500000 ≤ s.hub.al.sentTe → s.hub.conflictsOutside mb P.AL_EPOCH_CANCEL 0 = false →
    exec (.epochCancel mb id) s = .next (s.after (s.hub.cancelSend id))) ∧
  (∀ (s : State) (t : EpochTx) (x : Hub), s.hub.epochNext = some t → x = s.hub.untilLine t.nextAt →
    exec .epochCopyTx s = .next (s.after (({ x with
      al := { x.al with sending := x.al.sending.erase t } } : Hub).epochOut t))) ∧
  (∀ (h y z : Hub) (t : EpochTx) (c : Cell), c = h.epochCell (if t.cancel then 2 else 1) t.flags t.copy t.id t.te t.plan →
    h.makeRoom 3 0 (cellFlits c) = (y, true) → 2 ≤ t.left →
    z = y.arriving 8 c (fun g => [1, 2].foldl (fun g p => if g.portUp p then g.enqueue 8 p c else g.noRoute 8 c) g) →
    h.epochOut t = { z with
      al := { z.al with
        sending := z.al.sending ++
          [{ t with copy := t.copy + 1, left := t.left - 1, nextAt := z.clk.ns + us (z.pget P.AL_EPOCH_SPACING 0) }] } }) ∧
  (∀ (s : State) (p : Nat) (c : Cell) (x : Hub), s.hub.portUp p = true → c.kind = 5 → x = (s.hub.takeCell p c).countIn p c →
    exec (.epochRx p c) s = .next (s.after (x.arriving p c (fun g => g.epochArrive p c))) ∧
    exec (.epochCancelRx p c) s = .next (s.after (x.arriving p c (fun g => g.epochArrive p c)))) ∧
  (∀ (h : Hub) (p : Nat) (c : Cell), p < 2 → epochGood c = false →
    h.epochArrive p c = ((h.portEv p 20 1).forwardTo p (1 - p) c).bump P.AL_EPOCH_BAD 0) ∧
  (∀ (h x : Hub) (p : Nat) (c : Cell) (m : EpochMsg), p < 2 → epochGood c = true → m = EpochMsg.of c.payload →
    x = (h.portEv p 20 1).forwardTo p (1 - p) c → x.al.crossed.contains (m.id, m.sub) = true →
    h.epochArrive p c = x.epochAct m) ∧
  (∀ (h x y : Hub) (p : Nat) (c : Cell) (m : EpochMsg), p < 2 → epochGood c = true → m = EpochMsg.of c.payload →
    x = (h.portEv p 20 1).forwardTo p (1 - p) c → x.al.crossed.contains (m.id, m.sub) = false →
    y = { x with
      al := { x.al with crossed := x.al.crossed ++ [(m.id, m.sub)] } } →
    h.epochArrive p c = (if y.portUp 2 && y.idValid then y.forward p c (fun d g => g.enqueue p 2 d) else y).epochAct m) ∧
  (∀ (h : Hub) (m : EpochMsg), m.sub = 1 → h.al.armed = none → m.id ≠ h.pget P.AL_EPOCH_APPLIED 0 → h.clk.ns ≤ m.te + 1000000000 →
    (m.plan = 0 ∨ m.plan = h.pget P.AL_PLAN_ID_SHADOW 0 ∨ bit m.flags 0 = false) → h.clk.ns + 1000 ≤ boundaryAt m.te →
    h.epochAct m = { h with al := { h.al with armed := some ⟨m.id, bit m.flags 0, bit m.flags 1, m.te, m.plan, boundaryAt m.te⟩ } }) ∧
  (∀ (h : Hub) (m : EpochMsg) (a : Armed), m.sub = 2 → h.al.armed = some a → a.id = m.id →
    h.epochAct m = ({ h with al := { h.al with armed := none } } : Hub).event .epochCancelled [(0, 4, m.id)]) ∧
  (∀ (s : State) (a : Armed) (r x y : Hub), s.hub.synced = true → s.hub.al.armed = some a → r = (s.hub.untilLine a.boundary).quiesceDue → r.synced = true → r.al.armed = some a → a.allot = true → a.decision = false → x = r.disarm.reload.swapAllot → y = ((x.pset P.AL_EPOCH_APPLIED 0 a.id).pset P.AL_EPOCH_APPLIED_TIME 0 a.boundary).event .epochApplied [(0, 4, a.id), (4, 1, 1), (8, 8, a.boundary)] → y.rl.steps = [] →
    exec .epochSwap s = .next (s.after (y)))

/-- The budget level rises at once and falls after its dwell, as R189 and R190 say. Where the rules leave a point open it states the model's choice: log entry 2. -/
def Obligations.TheGovernorFollowsTemperatureAndPower : Prop :=
  (∀ (s : State) (power d : Nat) (x y : Hub), x = s.hub.gradientStep → y = x.modGov (fun g => { g with
      tmax := x.tmax, power := power,
      caps := (List.range 4).map (x.pget P.AL_GOV_DE_CAP) ++ [P.AL_GOV_IDLE_SUSPEND, P.AL_GOV_C3_CAP, P.AL_GOV_DWELL].map (fun k => x.pget k 0),
      tempLvl := x.tempDemand x.tmax, powLvl := x.powerDemand power }) → d = y.demands.foldl max 0 →
    exec (.govEvaluate power) s = .next (s.after ((y.modGov (fun g => { g with demanded := d, lowSince := (if d < y.al.gov.level then some (y.al.gov.lowSince.getD y.clk.up) else none) })).setLevel
      (max d y.al.gov.level)))) ∧
  (∀ (s : State) (t : Nat) (x : Hub), s.hub.al.gov.lowSince = some t → x = s.hub.until (t + ms (s.hub.govNow 6 P.AL_GOV_DWELL 0)) →
    exec .govDwellExpire s = .next (s.after ((x.modGov (fun g => { g with lowSince := (if g.demanded < x.al.gov.level - 1 then some x.clk.up else none) })).setLevel (x.al.gov.level - 1)))) ∧
  (∀ (h : Hub) (l : Nat), l ≠ h.al.gov.level → ∃ cause : Nat, (l = 0 → cause = 0) ∧
    h.setLevel l = ((h.modGov (fun g => { g with level := l, cause := cause })).raise (2 ^ intBudget)).event .budgetLevel
      [(0, 1, l), (1, 1, h.al.gov.level), (2, 1, cause), (4, 2, ofSigned 16 (h.al.gov.tmax / 1000)), (8, 4, h.al.gov.power)]) ∧
  (∀ h : Hub, ∃ cause : Nat, h.setLevel h.al.gov.level = h.modGov (fun g => { g with level := h.al.gov.level, cause := cause }))

/-- Detour control, release and node IDs act as R199, R205, R207 and R209 say. Where the rules leave a point open it states the model's choice: log entries 2, 34. -/
def Obligations.DetoursAndNodeIds : Prop :=
  (∀ (s : State), s.hub.portUp 2 = true →
    exec .detourCtrlTx s = .next (s.after (s.hub.sendSide 2 8 (byte (b2n (s.hub.pget P.RL_DETOUR_ACCEPT 0 = 1 && s.hub.idValid) * 128 + b2n (s.hub.portUp 0) * 64 + b2n (s.hub.portUp 1) * 32 + b2n (s.hub.detour 0).active * 16 +
      b2n (s.hub.detour 1).active * 8) :: List.replicate 11 0#8)))) ∧
  (∀ (s : State) (f : List Byte), s.hub.portUp 2 = true →
    exec (.detourCtrlRx f) s = .next (s.after (s.hub.modRail (fun r => { r with twinFlags := byteAt f 0 })))) ∧
  (∀ (s : State) (f : List Byte), s.hub.portUp 2 = false →
    exec (.detourCtrlRx f) s = .next (s.after (s.hub))) ∧
  (∀ (s : State) (p : Nat) (x : Hub), (s.hub.detour p).active = true → (s.hub.detour p).releasing = none → s.hub.portUp p = true → x = s.hub.until ((s.hub.port p).since + ms (s.hub.pget P.RL_DETOUR_RELEASE 0)) →
    exec (.detourReleaseStart p) s = .next (s.after (x.modDetour p (fun d => { d with releasing := some x.clk.up })))) ∧
  (∀ (s : State) (p t : Nat) (x : Hub), (s.hub.detour p).releasing = some t → (s.hub.detour p).active = true → s.hub.portUp p = true → x = s.hub.until (if (s.hub.detour p).cells = 0 then t else max t ((s.hub.detour p).lastAt + us (s.hub.pget P.RL_DETOUR_QUIET 0))) →
    exec (.detourQuietEnd p) s = .next (s.after (((x.modDetour p (fun d => { d with active := false, releasing := none })).raise (2 ^ intRail)).event .detourReleased
      [(0, 1, p), (4, 8, (s.hub.detour p).cells)]))) ∧
  (∀ (s : State) (p t : Nat) (x : Hub), s.hub.portUp p = true → x = s.hub.untilLine t →
    exec (.lineStateTx p t) s = .next (s.after (x.sendSide p 7 ([byte (b2n x.idValid * 128 + b2n x.isHead * 64 + x.rail * 32)] ++ beBytes 2 x.ownId ++ [byte (x.rl.ts.code * 16 + x.rl.source)] ++
      beBytes 2 x.rl.depth ++ beBytes 4 x.rl.masterTag ++ beBytes 2 0)))) ∧
  (∀ (s : State) (p : Nat) (f : List Byte) (l : LineState) (x : Hub), s.hub.portUp p = true → l = ⟨bit (byteAt f 0) 7, bit (byteAt f 0) 6, b2n (bit (byteAt f 0) 5), be f 1 2 % 4096, byteAt f 3 / 16, byteAt f 3 % 16, be f 4 2, be f 6 4⟩ → x = s.hub.modPort p (fun q => { q with time := { q.time with line := some l } }) → x.idConflicts p l = false →
    exec (.lineStateRx p f) s = .next (s.after (x.hopId))) ∧
  (∀ (s : State) (p : Nat) (f : List Byte) (l : LineState) (x : Hub), s.hub.portUp p = true → l = ⟨bit (byteAt f 0) 7, bit (byteAt f 0) 6, b2n (bit (byteAt f 0) 5), be f 1 2 % 4096, byteAt f 3 / 16, byteAt f 3 % 16, be f 4 2, be f 6 4⟩ → x = s.hub.modPort p (fun q => { q with time := { q.time with line := some l } }) → x.idConflicts p l = true →
    exec (.lineStateRx p f) s = .next (s.after ((((x.leaveUp p).enter p .held).modPort p (fun q => { q with train := { q.train with hold := 3 } })).event .nodeIdConflict
      [(0, 1, p), (2, 2, l.nodeId), (4, 2, (((x.leaveUp p).enter p .held).modPort p (fun q => { q with train := { q.train with hold := 3 } })).ownId)]))) ∧
  (∀ (h : Hub) (l : LineState), h.isHead = false → h.rl.idValid = false → h.pget P.RL_ID_MODE 0 = 0 → h.portUp 0 = true →
    (h.port 0).time.line = some l → l.idValid = true → l.nodeId ≤ 4093 →
    h.hopId = (h.modRail (fun r => { r with idValid := true, nodeId := l.nodeId + 1 })).event .nodeIdSet [(0, 2, l.nodeId + 1), (2, 1, 0)]) ∧
  (∀ (h : Hub) (l : LineState), h.isHead = false → h.rl.idValid = false → h.pget P.RL_ID_MODE 0 = 0 → h.portUp 0 = true →
    (h.port 0).time.line = some l → l.idValid = true → l.nodeId = 4094 →
    h.hopId = if h.rl.overTold then h else (h.modRail (fun r => { r with overTold := true })).event .idOverflow [(0, 2, 4094)]) ∧
  (∀ (s : State) (mb n : Nat) (x : Hub), s.hub.isHead = false → s.hub.conflictsOutside mb P.RL_REENUMERATE 0 = false → x = s.hub.modRail (fun r => { r with idValid := false, nodeId := 0, overTold := false }) → s.hub.pget P.RL_ID_MODE 0 = 1 → n = s.hub.pget P.RL_NODE_ID_FIXED 0 → 1 ≤ n → n ≤ 4094 →
    exec (.rlReenumerate mb 1) s = .next (s.after ((x.modRail (fun r => { r with idValid := true, nodeId := n })).event .nodeIdSet [(0, 2, n), (2, 1, 2)])))

/-- SYNC, delay, PPS and capture act as R213 to R221 say. Where the rules leave a point open it states the model's choice: log entries 2, 3, 7, 31, 82, 142. -/
def Obligations.LineTimeIsCarriedAndCaptured : Prop :=
  (∀ (s : State) (p t : Nat) (x : Hub), s.hub.portUp p = true → x = s.hub.untilLine t →
    exec (.syncTx p t) s = .next (s.after ((x.modPort p (fun q => { q with time := { q.time with syncSeq := (q.time.syncSeq + 1) % 256 } })).sendSide p 4
      (beBytes 8 x.clk.ns ++ beBytes 2 x.clk.frac ++ [byte (x.port p).time.syncSeq, byte (128 * b2n (x.rl.ts == .master || x.rl.ts == .locked))])))) ∧
  (∀ (s : State) (p t frac : Nat) (f : List Byte) (x : Hub) (o : Int), s.hub.portUp p = true → x = s.hub.atPin t frac → o = (be f 0 8 : Int) * 65536 + be f 8 2 + (x.port p).time.delay + x.pgetSigned P.RL_ASYM p * 65536 / 2000 - ((t : Int) * 65536 + frac) → x.timeMaster = false → x.pickSource = some p → x.rl.ts = .free → x.pget P.RL_TIME_SOURCE_MODE 0 ≠ 3 → 16 ≤ (x.port p).time.delays.length →
    exec (.syncRx p f t frac) s = .next (s.after (((((x.modRail (fun r => { r with offset := -(toPs o) })).stepTime o).modRail (fun r => { r with inRun := 0 })).setTime .acquire (sourceCode p) ((x.modRail (fun r => { r with offset := -(toPs o) })).depthFrom p)
      ((x.modRail (fun r => { r with offset := -(toPs o) })).tagFrom p))))) ∧
  (∀ (s : State) (p t frac : Nat) (f : List Byte), s.hub.portUp p = true → (s.hub.atPin t frac).timeMaster = true ∨ (s.hub.atPin t frac).pickSource ≠ some p →
    exec (.syncRx p f t frac) s = .next (s.after (s.hub.atPin t frac))) ∧
  (∀ (s : State) (p t : Nat) (x : Hub), s.hub.portUp p = true → x = s.hub.untilLine t →
    exec (.delayReqTx p t) s = .next (s.after ((x.modPort p (fun q => { q with time := { q.time with reqSeq := ((x.port p).time.reqSeq + 1) % 256, reqAt := some (((x.port p).time.reqSeq + 1) % 256, x.clk.ns * 65536 + x.clk.frac) } })).sendSide p 5
      (byte (((x.port p).time.reqSeq + 1) % 256) :: List.replicate 11 0#8)))) ∧
  (∀ (s : State) (p t frac : Nat) (f : List Byte), s.hub.portUp p = true →
    exec (.delayReqRx p f t frac) s = .next (s.after ((s.hub.atPin t frac).modPort p (fun q => { q with time := { q.time with answer := some (byteAt f 0, t * 65536 + frac) } })))) ∧
  (∀ (s : State) (p t n rx : Nat) (x : Hub), s.hub.portUp p = true → (s.hub.port p).time.answer = some (n, rx) → x = s.hub.untilLine t →
    exec (.delayRespTx p t) s = .next (s.after ((x.modPort p (fun q => { q with time := { q.time with answer := none } })).sendSide p 6
      ([byte n, 0#8] ++ beBytes 4 ((x.clk.ns * 65536 + x.clk.frac - rx) / 65536) ++ beBytes 2 ((x.clk.ns * 65536 + x.clk.frac - rx) % 65536) ++ beBytes 4 0)))) ∧
  (∀ (s : State) (p t frac n t3 : Nat) (f : List Byte), s.hub.portUp p = true → (s.hub.port p).time.reqAt = some (n, t3) → byteAt f 0 = n →
    exec (.delayRespRx p f t frac) s = .next (s.after ((s.hub.atPin t frac).modPort p (fun q => { q with time := { q.time with
      reqAt := none
      delays := (q.time.delays ++ [(((t * 65536 + frac : Nat) : Int) - t3 - ((be f 2 4 * 65536 + be f 6 2 : Nat) : Int)) / 2]).drop (q.time.delays.length + 1 - 64) } })))) ∧
  (∀ (s : State) (x : Hub), s.hub.rl.ts = .holdover → x = s.hub.until (s.hub.rl.holdAt + 1000000000 * s.hub.pget P.RL_HOLDOVER_LIMIT 0) →
    exec .holdoverExpire s = .next (s.after (if x.isHead && x.isTwinB then x.setTime .master 1 0 (deviceNat % 2 ^ 32) else x.setTime .free 0 0xFFFF 0))) ∧
  (∀ (s : State) (mb v : Nat), v < 2 ^ 64 → s.hub.isHead = true → s.hub.isTwinB = false → s.hub.conflictsOutside mb P.RL_TIME_STEP 0 = false →
    exec (.rlTimeStep mb v) s = .next (s.after (s.hub.modRail (fun r => { r with steps := r.steps ++ [toSigned 64 v * 65536] })))) ∧
  (∀ (s : State) (x : Hub), x = s.hub.untilLine (roundUp (s.hub.clk.ns + 1) 1000000000) → x.pget P.RL_PPS_MODE 0 = 2 ∨ (x.pget P.RL_PPS_MODE 0 = 1 ∧ x.synced = true) → x.rl.pps = false →
    exec .ppsPulse s = .next (s.after ((x.modRail (fun r => { r with pps := true })).out (.pin "PPS_OUT" true)))) ∧
  (∀ (s : State) (x : Hub), s.hub.rl.pps = true → x = s.hub.untilLine (s.hub.clk.ns / 1000000000 * 1000000000 + us (s.hub.pget P.RL_PPS_WIDTH 0)) → x.rl.pps = true →
    exec .ppsEnd s = .next (s.after ((x.modRail (fun r => { r with pps := false })).out (.pin "PPS_OUT" false)))) ∧
  (∀ (s : State) (i t : Nat) (r : Bool) (x : Hub), x = s.hub.untilLine t → bit (x.pget P.RL_TCAP_EDGE i) (if r then 0 else 1) = true → (x.rl.tcap i).1.length < 16 →
    exec (.tcapEdge i r t) s = .next (s.after (x.modRail (fun y => y.setTcap i ((x.rl.tcap i).1 ++ [⟨t, r⟩]) (x.rl.tcap i).2)))) ∧
  (∀ (s : State) (i t : Nat) (r : Bool) (x : Hub), x = s.hub.untilLine t → bit (x.pget P.RL_TCAP_EDGE i) (if r then 0 else 1) = true → 16 ≤ (x.rl.tcap i).1.length →
    exec (.tcapEdge i r t) s = .next (s.after (x.modRail (fun y => y.setTcap i (x.rl.tcap i).1 true)))) ∧
  (∀ (s : State) (i : Nat),
    exec (.tcapRead i) s = .next (s.after (s.hub.modRail (fun r => r.setTcap i ((r.tcap i).1.drop 1) false))))

/-- The decision engine takes events, looks them up and acts as R229 to R237 say. Where the rules leave a point open it states the model's choice: log entries 2, 39, 40, 41. -/
def Obligations.EventsAreDispatchedOneByOne : Prop :=
  (∀ (s : State), s.hub.works 5 = false →
    exec .deDispatch s = .next (s.after (s.hub))) ∧
  (∀ (s : State) (src : Nat) (e : DEvent) (rest : List DEvent) (x y : Hub), s.hub.works 5 = true → s.hub.nextSource = some src → nth s.hub.de.queues src [] = e :: rest → y = (if s.hub.de.lastAt = 0 then s.hub else s.hub.until (s.hub.de.lastAt - 1 + s.hub.dispatchGap)) → x = (y.modDe (fun d => { d with queues := modAt d.queues src (fun _ => rest), last := src, lastAt := y.clk.up + 1 })).bump P.DE_LOOKUPS 0 → x.de.active.bind (fun b => x.lookup b (fit 32 e.key) e.source) = none → (x.bump P.DE_MISS 0).pget P.DE_MISS_ACTION 0 ≠ 1 →
    exec .deDispatch s = .next (s.after (x.bump P.DE_MISS 0))) ∧
  (∀ (s : State) (src : Nat) (e : DEvent) (rest : List DEvent) (x y : Hub), s.hub.works 5 = true → s.hub.nextSource = some src → nth s.hub.de.queues src [] = e :: rest → y = (if s.hub.de.lastAt = 0 then s.hub else s.hub.until (s.hub.de.lastAt - 1 + s.hub.dispatchGap)) → x = (y.modDe (fun d => { d with queues := modAt d.queues src (fun _ => rest), last := src, lastAt := y.clk.up + 1 })).bump P.DE_LOOKUPS 0 → x.de.active.bind (fun b => x.lookup b (fit 32 e.key) e.source) = none → (x.bump P.DE_MISS 0).pget P.DE_MISS_ACTION 0 = 1 →
    exec .deDispatch s = .next (s.after ((x.bump P.DE_MISS 0).forwardEvent e true 0 0))) ∧
  (∀ (s : State) (src : Nat) (e : DEvent) (rest : List DEvent) (x y : Hub) (f : Found) (g : Hub), s.hub.works 5 = true → s.hub.nextSource = some src → nth s.hub.de.queues src [] = e :: rest → y = (if s.hub.de.lastAt = 0 then s.hub else s.hub.until (s.hub.de.lastAt - 1 + s.hub.dispatchGap)) → x = (y.modDe (fun d => { d with queues := modAt d.queues src (fun _ => rest), last := src, lastAt := y.clk.up + 1 })).bump P.DE_LOOKUPS 0 → x.de.active.bind (fun b => x.lookup b (fit 32 e.key) e.source) = some f → g = ((x.bump P.DE_HITS 0).cacheHit (fit 32 e.key) f).1 → ((x.bump P.DE_HITS 0).cacheHit (fit 32 e.key) f).2 = true →
    exec .deDispatch s = .next (s.after (((g.bump P.DE_CACHE_HITS 0).action e (slice f.entry 32 12) (le f.entry 60 4)).action e (slice f.entry 44 12) (le f.entry 60 4)))) ∧
  (∀ (s : State) (src : Nat) (e : DEvent) (rest : List DEvent) (x y : Hub) (f : Found) (g : Hub), s.hub.works 5 = true → s.hub.nextSource = some src → nth s.hub.de.queues src [] = e :: rest → y = (if s.hub.de.lastAt = 0 then s.hub else s.hub.until (s.hub.de.lastAt - 1 + s.hub.dispatchGap)) → x = (y.modDe (fun d => { d with queues := modAt d.queues src (fun _ => rest), last := src, lastAt := y.clk.up + 1 })).bump P.DE_LOOKUPS 0 → x.de.active.bind (fun b => x.lookup b (fit 32 e.key) e.source) = some f → g = ((x.bump P.DE_HITS 0).cacheHit (fit 32 e.key) f).1 → ((x.bump P.DE_HITS 0).cacheHit (fit 32 e.key) f).2 = false →
    exec .deDispatch s = .next (s.after ((g.action e (slice f.entry 32 12) (le f.entry 60 4)).action e (slice f.entry 44 12) (le f.entry 60 4)))) ∧
  (∀ (s : State) (f : Frame), f.control = true ∨ decisionGood f.bytes = false →
    exec (.decisionFrameRx f) s = .next (s.after ((s.hub.takeFrame 7 f).bump P.DE_ACTION_ERR 0))) ∧
  (∀ (s : State) (f : Frame) (x : Hub), f.control = false → decisionGood f.bytes = true → byteAt f.bytes 0 ≠ 2 → x = s.hub.takeFrame 7 f → x.pget P.DE_ENABLE 0 ≠ 0 → x.works 5 = true → (nth x.de.queues 0 []).length < 1024 →
    exec (.decisionFrameRx f) s = .next (s.after (x.modDe (fun d => { d with queues := modAt d.queues 0 (· ++ [⟨0, f.bytes.drop 32, be f.bytes 8 8, byteAt f.bytes 6, byteAt f.bytes 3, be f.bytes 4 2⟩]) })))) ∧
  (∀ (s : State) (f : Frame) (x : Hub), f.control = false → decisionGood f.bytes = true → byteAt f.bytes 0 ≠ 2 → x = s.hub.takeFrame 7 f → x.pget P.DE_ENABLE 0 = 0 ∨ 1024 ≤ (nth x.de.queues 0 []).length →
    exec (.decisionFrameRx f) s = .next (s.after (x.bump P.DE_EVENT_DROP 0))) ∧
  (∀ (s : State) (f : Frame) (x : Hub) (w size : Nat), f.control = false → decisionGood f.bytes = true → byteAt f.bytes 0 = 2 → x = s.hub.takeFrame 7 f → w = x.pget P.DE_FWD_WRITE 0 → size = x.pget P.DE_FWD_RING_SIZE 0 → size ≠ 0 → (w + 2 ^ 32 - x.pget P.DE_FWD_READ 0) % 2 ^ 32 ≠ size → (w + 2 ^ 32 - x.pget P.DE_FWD_READ 0) % 2 ^ 32 ≠ 0 →
    exec (.decisionFrameRx f) s = .next (s.after (({ x with dram := writeMem x.dram (x.memt (x.pget P.DE_FWD_RING_BASE 0) + 64 * (w % size)) (fit 64 f.bytes) } : Hub).pset P.DE_FWD_WRITE 0 ((w + 1) % 2 ^ 32)))) ∧
  (∀ (s : State) (f : Frame) (x : Hub), f.control = false → gpioGood f.bytes = true → byteAt f.bytes 0 ≠ 1 → x = s.hub.takeFrame 7 f →
    exec (.edgeReportRx f) s = .next (s.after (x.pushEvent ⟨3, [byte (byteAt f.bytes 1), byte (byteAt f.bytes 2)], be f.bytes 8 8, 0, 3, f.src⟩))) ∧
  (∀ (s : State) (n t : Nat) (r : Bool) (x : Hub), x = (s.hub.untilLine t).modPin n (fun p => { p with input := r }) → (x.pinCfg n).dir = 1 → x.works 5 = true → (x.pinCfg n).glitch = 0 → (if r then (x.pinCfg n).rising else (x.pinCfg n).falling) = true → (x.pinCfg n).toDe = true → (x.pinCfg n).report = false → x.pget P.DE_ENABLE 0 ≠ 0 → (nth x.de.queues 3 []).length < 1024 → x.pw.state = .run →
    exec (.gpioEdge n r t) s = .next (s.after (x.modDe (fun d => { d with queues := modAt d.queues 3 (· ++ [⟨3, [byte n, byte (if r then 1 else 2)], t, 0, 3, x.ownId⟩]) })))) ∧
  (∀ (s : State) (n t : Nat) (r : Bool) (x : Hub), x = (s.hub.untilLine t).modPin n (fun p => { p with input := r }) → (x.pinCfg n).dir = 1 → x.works 5 = false → (x.pinCfg n).glitch = 0 → (if r then (x.pinCfg n).rising else (x.pinCfg n).falling) = true → (x.pinCfg n).toDe = true → x.pw.state = .run →
    exec (.gpioEdge n r t) s = .next (s.after (x.bump P.DE_EVENT_DROP 3))) ∧
  (∀ (s : State) (n t : Nat) (r : Bool) (x : Hub), x = (s.hub.untilLine t).modPin n (fun p => { p with input := r }) → (x.pinCfg n).dir ≠ 1 → x.pw.state = .run →
    exec (.gpioEdge n r t) s = .next (s.after (x)))

/-- Timed actuation follows R238 to R240. Where the rules leave a point open it states the model's choice: log entries 2, 43, 125. -/
def Obligations.ActuationsKeepTheirDueTime : Prop :=
  (∀ (s : State) (f : Frame) (n : Nat) (x : Hub), f.control = false → gpioGood f.bytes = true → byteAt f.bytes 0 = 1 → n = byteAt f.bytes 1 → x = s.hub.takeFrame 7 f → (x.pinCfg n).dir = 2 → x.clk.ns ≤ be f.bytes 8 8 → be f.bytes 8 8 - x.clk.ns ≤ 2 ^ 40 → (x.pin n).queue.length < 16 →
    exec (.actuateRx f) s = .next (s.after (x.modPin n (fun p => { p with queue := insertCmd (⟨be f.bytes 8 8, byteAt f.bytes 2, be f.bytes 4 4⟩ : PinCmd) p.queue })))) ∧
  (∀ (s : State) (f : Frame) (n : Nat) (x : Hub), f.control = false → gpioGood f.bytes = true → byteAt f.bytes 0 = 1 → n = byteAt f.bytes 1 → x = s.hub.takeFrame 7 f → (x.pinCfg n).dir = 2 → x.clk.ns ≤ be f.bytes 8 8 → be f.bytes 8 8 - x.clk.ns ≤ 2 ^ 40 → 16 ≤ (x.pin n).queue.length →
    exec (.actuateRx f) s = .next (s.after (x.actDrop n 1))) ∧
  (∀ (s : State) (f : Frame) (n : Nat) (x : Hub), f.control = false → gpioGood f.bytes = true → byteAt f.bytes 0 = 1 → n = byteAt f.bytes 1 → x = s.hub.takeFrame 7 f → (x.pinCfg n).dir = 2 → x.clk.ns + 2 ^ 40 < be f.bytes 8 8 →
    exec (.actuateRx f) s = .next (s.after (x.actDrop n 2))) ∧
  (∀ (s : State) (f : Frame) (n : Nat) (x : Hub), f.control = false → gpioGood f.bytes = true → byteAt f.bytes 0 = 1 → n = byteAt f.bytes 1 → x = s.hub.takeFrame 7 f → (x.pinCfg n).dir ≠ 2 →
    exec (.actuateRx f) s = .next (s.after (x.actDrop n 0))) ∧
  (∀ (s : State) (f : Frame) (n : Nat) (x : Hub), f.control = false → gpioGood f.bytes = true → byteAt f.bytes 0 = 1 → n = byteAt f.bytes 1 → x = s.hub.takeFrame 7 f → (x.pinCfg n).dir = 2 → be f.bytes 8 8 < x.clk.ns → x.clk.ns - be f.bytes 8 8 ≤ us (x.pget P.DE_LATE_GRACE 0) →
    exec (.actuateRx f) s = .next (s.after (((x.actRun n (⟨be f.bytes 8 8, byteAt f.bytes 2, be f.bytes 4 4⟩ : PinCmd) x.clk.ns).bump P.DE_ACT_LATE n).actEvent n (x.pin n).late (fun t p => { p with late := t }) .actuateLate [(0, 1, n), (8, 8, x.clk.ns - be f.bytes 8 8)]))) ∧
  (∀ (s : State) (f : Frame) (n : Nat) (x : Hub), f.control = false → gpioGood f.bytes = true → byteAt f.bytes 0 = 1 → n = byteAt f.bytes 1 → x = s.hub.takeFrame 7 f → (x.pinCfg n).dir = 2 → be f.bytes 8 8 < x.clk.ns → us (x.pget P.DE_LATE_GRACE 0) < x.clk.ns - be f.bytes 8 8 →
    exec (.actuateRx f) s = .next (s.after ((x.bump P.DE_ACT_EXPIRED n).actEvent n (x.pin n).expired (fun t p => { p with expired := t }) .actuateExpired [(0, 1, n), (8, 8, x.clk.ns - be f.bytes 8 8)]))) ∧
  (∀ (s : State) (f : Frame), f.control = true ∨ gpioGood f.bytes = false →
    exec (.actuateRx f) s = .next (s.after ((s.hub.takeFrame 7 f).bump P.DE_ACTION_ERR 0)) ∧
    exec (.edgeReportRx f) s = .next (s.after ((s.hub.takeFrame 7 f).bump P.DE_ACTION_ERR 0))) ∧
  (∀ (s : State) (n : Nat) (c : PinCmd) (cs : List PinCmd) (x : Hub), (s.hub.pin n).queue = c :: cs → x = (s.hub.untilLine c.due).modPin n (fun p => { p with queue := cs }) → c.mode = 0 →
    exec (.actuateDue n) s = .next (s.after (((x.modPin n (fun p => { p with pulse := some (max (p.pulse.getD (c.due + 1000 * c.width)) (c.due + 1000 * c.width)) })).bump P.DE_ACT_DONE n).showPin n))) ∧
  (∀ (s : State) (n : Nat) (c : PinCmd) (cs : List PinCmd) (x : Hub), (s.hub.pin n).queue = c :: cs → x = (s.hub.untilLine c.due).modPin n (fun p => { p with queue := cs }) → c.mode ≠ 0 →
    exec (.actuateDue n) s = .next (s.after (((x.modPin n (fun p => { p with active := decide (c.mode = 1) })).bump P.DE_ACT_DONE n).showPin n))) ∧
  (∀ (s : State) (n e : Nat), (s.hub.pin n).pulse = some e →
    exec (.pulseEnd n) s = .next (s.after (((s.hub.untilLine e).modPin n (fun p => { p with pulse := none })).showPin n)))

/-- Bank commands and DE_LOOKUP act as R243 to R245 say. Where the rules leave a point open it states the model's choice: log entry 98. -/
def Obligations.BanksAreLoadedCheckedAndRead : Prop :=
  (∀ (s : State) (q : Req) (a : Hub) (off n : Nat), s.hub.asks q 0x0501 = true → a = s.hub.asked q 0x0501 → q.payload.length = 24 → off = le q.payload 8 4 → n = le q.payload 12 4 → le q.payload 20 4 = 0 → off % 256 = 0 → n % 256 = 0 → off + n ≤ 0x20000000 → a.inMemt (le q.payload 0 8) n = true → a.bankRefusal = none → a.ctl.ops.length < 16 →
    exec (.deBankLoad q) s = .next (s.after (s.hub.answered q 0x0501 ((a.withOp q.mb 0x0501 (.bankLoad a.shadow (le q.payload 0 8) off n (le q.payload 16 4))).modBank a.shadow (fun k => { k with state := 2 })) (.long a.ctl.nextToken)))) ∧
  (∀ (s : State) (q : Req) (a : Hub), s.hub.asks q 0x0502 = true → a = s.hub.asked q 0x0502 → q.payload.length = 4 → le q.payload 0 4 = 0 → a.bankRefusal = none → a.ctl.ops.length < 16 →
    exec (.deBankCheck q) s = .next (s.after (s.hub.answered q 0x0502 ((a.withOp q.mb 0x0502 (.bankCheck a.shadow)).modBank a.shadow (fun k => { k with state := 2 })) (.long a.ctl.nextToken)))) ∧
  (∀ (s : State) (q : Req) (a : Hub), s.hub.asks q 0x0502 = true → a = s.hub.asked q 0x0502 → q.payload.length = 4 → le q.payload 0 4 = 0 → a.bankOp.isSome = true →
    exec (.deBankCheck q) s = .next (s.after (s.hub.answered q 0x0502 (a) (.err .busy)))) ∧
  (∀ (s : State) (token b src off n crc : Nat) (o : LongOp) (x y : Hub), y = s.hub.serveTurn → y.op token = some o → o.work = .bankLoad b src off n crc → x = { y with dram := copyMem y.dram (y.memt src) (bankBase b + off) n } →
    exec (.deBankLoadDone token) s = .next (s.after ((x.modBank b (fun k => { k with state := 1 })).endOp token (if crcMem y.dram (y.memt src) n = crc then .ok else .authFail) 0 []))) ∧
  (∀ (s : State) (token b r bk : Nat) (o : LongOp) (y : Hub), y = s.hub.serveTurn → y.op token = some o → o.work = .bankCheck b → y.bankFault b = some (r, bk) →
    exec (.deBankCheckDone token) s = .next (s.after ((y.modBank b (fun k => { k with state := 5, reason := r, bucket := bk })).endOp token .ok 0 []))) ∧
  (∀ (s : State) (token b : Nat) (o : LongOp) (y : Hub), y = s.hub.serveTurn → y.op token = some o → o.work = .bankCheck b → y.bankFault b = none →
    exec (.deBankCheckDone token) s = .next (s.after ((y.modBank b (fun k => { k with state := 3, count := (y.validSlots b).length, crc := crcMem y.dram (bankBase b) 0x20000000, reason := 0, bucket := 0 })).endOp token .ok 0 []))) ∧
  (∀ (s : State) (q : Req) (a : Hub), s.hub.asks q 0x0503 = true → a = s.hub.asked q 0x0503 → q.payload = [] →
    exec (.deBankStatus q) s = .next (s.after (s.hub.answered q 0x0503 (a) (.ok ([byte (a.bank 0).state, byte (b2n (a.de.active == some 0)), byte (a.bank 0).reason, 0#8] ++ leBytes 4 (a.bank 0).count ++ leBytes 4 (a.bank 0).crc ++ leBytes 4 (a.bank 0).bucket ++
      ([byte (a.bank 1).state, byte (b2n (a.de.active == some 1)), byte (a.bank 1).reason, 0#8] ++ leBytes 4 (a.bank 1).count ++ leBytes 4 (a.bank 1).crc ++ leBytes 4 (a.bank 1).bucket)))))) ∧
  (∀ (s : State) (q : Req) (a : Hub) (n : Nat) (k : List Byte) (f : Found), s.hub.asks q 0x0504 = true → a = s.hub.asked q 0x0504 → q.payload.length = 36 → n = le q.payload 1 1 → le q.payload 3 1 = 0 → le q.payload 0 1 ≤ 1 → 1 ≤ n → n ≤ 32 → le q.payload 2 1 ≤ 3 → k = fit 32 (slice q.payload 4 n) → (if le q.payload 0 1 = 1 then some a.shadow else a.de.active).bind (fun b => a.lookup b k (le q.payload 2 1)) = some f →
    exec (.deLookup q) s = .next (s.after (s.hub.answered q 0x0504 (a) (.ok ([1#8, byte (b2n f.second * 16 + f.slot), 0#8, 0#8] ++ (leBytes 4 (hash0 k) ++ leBytes 4 (hash1 k)) ++ leBytes 4 f.bucket ++ f.entry)))))

/-- A window request is matched, checked and performed as R257 to R264, R271 and R273 say. Where the rules leave a point open it states the model's choice: log entries 45, 46, 47, 48, 129, 145, 162. -/
def Obligations.WindowRequestsReachTheirTarget : Prop :=
  (∀ (s : State) (f : Frame) (x : Hub), f.control = false → windowGood f.bytes = true → byteAt f.bytes 0 ≤ 3 → x = s.hub.takeFrame 3 f → x.frameHolds f = false → x.ag.waiting = [] → x.ag.fillEnd = none → f ∉ x.br.ecc → x.targetWin f.entry (be f.bytes 8 8) (be f.bytes 4 2) = none →
    exec (.windowWriteRx f) s = .next (s.after (x.targetFail f.entry f.src (x.tun f.entry).tid (byteAt f.bytes 0) (be f.bytes 2 2) (be f.bytes 8 8) 0xFF 1)) ∧
    exec (.windowWriteNpRx f) s = .next (s.after (x.targetFail f.entry f.src (x.tun f.entry).tid (byteAt f.bytes 0) (be f.bytes 2 2) (be f.bytes 8 8) 0xFF 1)) ∧
    exec (.windowReadRx ⟨f, false⟩) s = .next (s.after (x.targetFail f.entry f.src (x.tun f.entry).tid (byteAt f.bytes 0) (be f.bytes 2 2) (be f.bytes 8 8) 0xFF 1))) ∧
  (∀ (s : State) (f : Frame) (x : Hub), f.control = false → windowGood f.bytes = true → byteAt f.bytes 0 ≤ 3 → x = s.hub.takeFrame 3 f → x.frameHolds f = true →
    exec (.windowWriteRx f) s = .next (s.after (x.modBr (fun r => { r with behind := r.behind ++ [⟨f, none⟩] }))) ∧
    exec (.windowWriteNpRx f) s = .next (s.after (x.modBr (fun r => { r with behind := r.behind ++ [⟨f, none⟩] }))) ∧
    exec (.windowReadRx ⟨f, false⟩) s = .next (s.after (x.modBr (fun r => { r with behind := r.behind ++ [⟨f, none⟩] })))) ∧
  (∀ (s : State) (f : Frame) (x : Hub), f.control = true ∨ windowGood f.bytes = false ∨ 3 < byteAt f.bytes 0 → x = s.hub.takeFrame 3 f →
    exec (.windowWriteRx f) s = .next (s.after (x.bump P.BR_FRAME_ERR 0)) ∧
    exec (.windowWriteNpRx f) s = .next (s.after (x.bump P.BR_FRAME_ERR 0)) ∧
    exec (.windowReadRx ⟨f, false⟩) s = .next (s.after (x.bump P.BR_FRAME_ERR 0))) ∧
  (∀ (h : Hub) (f : Frame) (i : Nat) (w : Window), h.targetWin f.entry (be f.bytes 8 8) (be f.bytes 4 2) = some (i, w) →
    h.matched f = some ⟨i, h.tget 0x10 i, h.pget P.BR_MEMT_BASE 0, h.pget P.BR_MEMT_SIZE 0⟩) ∧
  (∀ (s : State) (f : Frame) (x : Hub) (m : Match) (w : Window) (st ex : List (Nat × Nat)) (g : Hub × Bool) (a : Nat), f.control = false → windowGood f.bytes = true → byteAt f.bytes 0 ≤ 3 → x = s.hub.takeFrame 3 f → x.frameHolds f = false → x.ag.waiting = [] → x.ag.fillEnd = none → f ∉ x.br.ecc → x.matched f = some m → w = m.window → w.sel = 1 → m.holds (w.trans + (be f.bytes 8 8 - w.base)) (be f.bytes 4 2) = true → w.convert (if byteAt f.bytes 0 = 3 then x.br.mrrs else x.br.mps) (be f.bytes 8 8) (be f.bytes 4 2) (byteAt f.bytes 0 ≠ 3) = some st → a = m.base + (w.trans + (be f.bytes 8 8 - w.base)) → ex = (if byteAt f.bytes 0 = 3 then m.extraSteps (if byteAt f.bytes 0 = 3 then x.br.mrrs else x.br.mps) (be f.bytes 8 8) (be f.bytes 4 2) (be f.bytes 6 2) else []) → g = x.guard ⟨0, a, be f.bytes 4 2 + (ex.map (·.2)).sum, byteAt f.bytes 0 ≠ 3, 3, f.entry, if w.colour = 0 then (x.tun f.entry).colour else w.colour⟩ (byteAt f.bytes 0 = 1) → g.2 = false →
    exec (.windowWriteRx f) s = .next (s.after (g.1.targetFail f.entry f.src (x.tun f.entry).tid (byteAt f.bytes 0) (be f.bytes 2 2) (be f.bytes 8 8) m.win 2)) ∧
    exec (.windowWriteNpRx f) s = .next (s.after (g.1.targetFail f.entry f.src (x.tun f.entry).tid (byteAt f.bytes 0) (be f.bytes 2 2) (be f.bytes 8 8) m.win 2)) ∧
    exec (.windowReadRx ⟨f, false⟩) s = .next (s.after (g.1.targetFail f.entry f.src (x.tun f.entry).tid (byteAt f.bytes 0) (be f.bytes 2 2) (be f.bytes 8 8) m.win 2))) ∧
  (∀ (s : State) (f : Frame) (x : Hub) (m : Match) (w : Window) (st ex : List (Nat × Nat)) (g : Hub × Bool) (a : Nat), f.control = false → windowGood f.bytes = true → byteAt f.bytes 0 ≤ 3 → x = s.hub.takeFrame 3 f → x.frameHolds f = false → x.ag.waiting = [] → x.ag.fillEnd = none → f ∉ x.br.ecc → x.matched f = some m → w = m.window → w.sel = 1 → m.holds (w.trans + (be f.bytes 8 8 - w.base)) (be f.bytes 4 2) = true → w.convert (if byteAt f.bytes 0 = 3 then x.br.mrrs else x.br.mps) (be f.bytes 8 8) (be f.bytes 4 2) (byteAt f.bytes 0 ≠ 3) = some st → a = m.base + (w.trans + (be f.bytes 8 8 - w.base)) → ex = (if byteAt f.bytes 0 = 3 then m.extraSteps (if byteAt f.bytes 0 = 3 then x.br.mrrs else x.br.mps) (be f.bytes 8 8) (be f.bytes 4 2) (be f.bytes 6 2) else []) → g = x.guard ⟨0, a, be f.bytes 4 2 + (ex.map (·.2)).sum, byteAt f.bytes 0 ≠ 3, 3, f.entry, if w.colour = 0 then (x.tun f.entry).colour else w.colour⟩ (byteAt f.bytes 0 = 1) → g.2 = true → byteAt f.bytes 0 = 1 →
    exec (.windowWriteRx f) s = .next (s.after ({ g.1 with dram := writeMem g.1.dram a (swapUnits w.unitBytes 4097 (f.bytes.drop 24)) }))) ∧
  (∀ (s : State) (f : Frame) (x : Hub) (m : Match) (w : Window) (st ex : List (Nat × Nat)) (g : Hub × Bool) (a : Nat), f.control = false → windowGood f.bytes = true → byteAt f.bytes 0 ≤ 3 → x = s.hub.takeFrame 3 f → x.frameHolds f = false → x.ag.waiting = [] → x.ag.fillEnd = none → f ∉ x.br.ecc → x.matched f = some m → w = m.window → w.sel = 1 → m.holds (w.trans + (be f.bytes 8 8 - w.base)) (be f.bytes 4 2) = true → w.convert (if byteAt f.bytes 0 = 3 then x.br.mrrs else x.br.mps) (be f.bytes 8 8) (be f.bytes 4 2) (byteAt f.bytes 0 ≠ 3) = some st → a = m.base + (w.trans + (be f.bytes 8 8 - w.base)) → ex = (if byteAt f.bytes 0 = 3 then m.extraSteps (if byteAt f.bytes 0 = 3 then x.br.mrrs else x.br.mps) (be f.bytes 8 8) (be f.bytes 4 2) (be f.bytes 6 2) else []) → g = x.guard ⟨0, a, be f.bytes 4 2 + (ex.map (·.2)).sum, byteAt f.bytes 0 ≠ 3, 3, f.entry, if w.colour = 0 then (x.tun f.entry).colour else w.colour⟩ (byteAt f.bytes 0 = 1) → g.2 = true → byteAt f.bytes 0 = 2 →
    exec (.windowWriteNpRx f) s = .next (s.after (Hub.reply { g.1 with dram := writeMem g.1.dram a (swapUnits w.unitBytes 4097 (f.bytes.drop 24)) } f.entry f.src 2 (be f.bytes 2 2) (be f.bytes 8 8) 0 []))) ∧
  (∀ (s : State) (f : Frame) (x : Hub) (m : Match) (w : Window) (st ex : List (Nat × Nat)) (g : Hub × Bool) (a : Nat), f.control = false → windowGood f.bytes = true → byteAt f.bytes 0 ≤ 3 → x = s.hub.takeFrame 3 f → x.frameHolds f = false → x.ag.waiting = [] → x.ag.fillEnd = none → f ∉ x.br.ecc → x.matched f = some m → w = m.window → w.sel = 1 → m.holds (w.trans + (be f.bytes 8 8 - w.base)) (be f.bytes 4 2) = true → w.convert (if byteAt f.bytes 0 = 3 then x.br.mrrs else x.br.mps) (be f.bytes 8 8) (be f.bytes 4 2) (byteAt f.bytes 0 ≠ 3) = some st → a = m.base + (w.trans + (be f.bytes 8 8 - w.base)) → ex = (if byteAt f.bytes 0 = 3 then m.extraSteps (if byteAt f.bytes 0 = 3 then x.br.mrrs else x.br.mps) (be f.bytes 8 8) (be f.bytes 4 2) (be f.bytes 6 2) else []) → g = x.guard ⟨0, a, be f.bytes 4 2 + (ex.map (·.2)).sum, byteAt f.bytes 0 ≠ 3, 3, f.entry, if w.colour = 0 then (x.tun f.entry).colour else w.colour⟩ (byteAt f.bytes 0 = 1) → g.2 = true → byteAt f.bytes 0 = 3 →
    exec (.windowReadRx ⟨f, false⟩) s = .next (s.after (g.1.reply f.entry f.src 3 (be f.bytes 2 2) (be f.bytes 8 8) 0 (swapUnits w.unitBytes 4097 (readMem g.1.dram a (be f.bytes 4 2 + (ex.map (·.2)).sum)))))) ∧
  (∀ (h : Hub) (f : Frame) (m : Match) (st ex : List (Nat × Nat)), byteAt f.bytes 0 = 3 → m.window.sel = 1 ∨ m.window.sel = 2 →
    h.perform f m st ex true = h.targetFail f.entry f.src (h.tun f.entry).tid 3 (be f.bytes 2 2) (be f.bytes 8 8) m.win 9) ∧
  (∀ (s : State) (id st : Nat) (d : List Byte) (t : Target) (x : Hub), s.hub.br.targets.find? (fun t => t.id == id) = some t → x = s.hub.modBr (fun r => { r with targets := r.targets.filter (fun x => x.id != id) }) → st ≠ 0 →
    exec (.targetCompletion id st d) s = .next (s.after (Hub.runBehind ((x.targetFail t.entry t.src t.tid t.op t.tag t.off t.win st).br.behind.length + 1) t.entry (x.targetFail t.entry t.src t.tid t.op t.tag t.off t.win st)))) ∧
  (∀ (s : State) (id : Nat) (d : List Byte) (t : Target) (x : Hub), s.hub.br.targets.find? (fun t => t.id == id) = some t → x = s.hub.modBr (fun r => { r with targets := r.targets.filter (fun x => x.id != id) }) → t.op = 1 →
    exec (.targetCompletion id 0 d) s = .next (s.after (Hub.runBehind (x.br.behind.length + 1) t.entry x))) ∧
  (∀ (s : State) (id : Nat) (d : List Byte) (t : Target) (x y : Hub), s.hub.br.targets.find? (fun t => t.id == id) = some t → x = s.hub.modBr (fun r => { r with targets := r.targets.filter (fun x => x.id != id) }) → t.op ≠ 1 → y = x.reply t.entry t.src t.op t.tag t.off 0 (swapUnits t.unit 4097 (fit (t.len + t.pf) d)) →
    exec (.targetCompletion id 0 d) s = .next (s.after (Hub.runBehind (y.br.behind.length + 1) t.entry y))) ∧
  (∀ (s : State) (f : Frame),
    exec (.windowFrameBad f) s = .next (s.after ((s.hub.takeFrame 3 f).bump P.BR_FRAME_ERR 0)))

/-- Requests to the port are served as R251, R253, R257, R266 and R268 say. Where the rules leave a point open it states the model's choice: log entries 7, 45, 47, 48, 128, 129. -/
def Obligations.ApertureRequestsCross : Prop :=
  (∀ (s : State) (q : PcieReq), s.hub.works 6 = false →
    exec (.apertureRequest q) s = .next (s.after (s.hub))) ∧
  (∀ (s : State) (q : PcieReq), s.hub.works 6 = true → s.hub.strapFault = false → q.kind = .other →
    exec (.apertureRequest q) s = .next (s.after ((s.hub.linkPower false).out (.completion q.tag 2 [])))) ∧
  (∀ (s : State) (q : PcieReq), s.hub.works 6 = true → s.hub.strapFault = false → q.kind = .read → s.hub.isEndpoint = true → q.bar < 2 → q.len = 4 → q.addr % 4 = 0 →
    exec (.apertureRequest q) s = .next (s.after (((s.hub.linkPower false).reach.readRegister q.addr).2.out (.completion q.tag 0 (leBytes 4 ((s.hub.linkPower false).reach.readRegister q.addr).1))))) ∧
  (∀ (s : State) (q : PcieReq), s.hub.works 6 = true → s.hub.strapFault = false → q.kind = .write → s.hub.isEndpoint = true → q.bar < 2 → q.data.length = 4 → q.addr % 4 = 0 → q.lanes = [] →
    exec (.apertureRequest q) s = .next (s.after ((s.hub.linkPower false).reach.writeRegister q.addr (leNat q.data)))) ∧
  (∀ (s : State) (q : PcieReq) (a n : Nat) (x y : Hub), s.hub.works 6 = true → s.hub.strapFault = false → q.kind = .read → y = s.hub.linkPower false → y.isEndpoint = false → cutApertures (y.wins true) 130 q.addr (max 1 q.len) = [(a, n, none)] → x = y.modBr (fun b => { b with nextId := y.br.nextId + 1, reads := b.reads ++ [⟨y.br.nextId, q.tag, 0, [none]⟩] }) →
    exec (.apertureRequest q) s = .next (s.after ((x.bump P.BR_NO_WINDOW 0).answerPart ⟨64, false, a, n, [], y.br.nextId, 0, x.matchOf 64⟩ (2, [])))) ∧
  (∀ (s : State) (q : PcieReq) (a n ap : Nat) (x y : Hub), s.hub.works 6 = true → s.hub.strapFault = false → q.kind = .read → y = s.hub.linkPower false → y.isEndpoint = false → cutApertures (y.wins true) 130 q.addr (max 1 q.len) = [(a, n, some ap)] → x = y.modBr (fun b => { b with nextId := y.br.nextId + 1, reads := b.reads ++ [⟨y.br.nextId, q.tag, 0, [none]⟩] }) →
    exec (.apertureRequest q) s = .next (s.after (x.offerPiece ⟨ap, false, a, n, [], y.br.nextId, 0, x.matchOf ap⟩))) ∧
  (∀ (x : Hub) (p : Piece) (w : Window) (e : TEntry), x.br.held = [] → x.npWaits p.ap = false → w = p.seen.window → w.valid = true → w.isAp = true →
    w.sel = 0 → w.posted = true → p.write = true → w.tunnel < 1024 → e = x.tun w.tunnel → e.valid = true → e.type = tWindow → e.dir = .both →
    x.offerPiece p = ((x.dropBuf p.ap).modBr (fun b => { b with
      out := b.out.map (fun o => if o.piece.ap = p.ap then { o with keep := false } else o) })).frameSend 3 w.tunnel false
      (windowFrame 1 0 0 p.len 0 (w.trans + (p.addr - w.base)) 0 0 p.data) p.len)

/-- Replies, timeouts, notices and link events act as R253, R254, R265 to R274 and R279 say. Where the rules leave a point open it states the model's choice: log entries 2, 46, 47, 48, 49, 128, 129. -/
def Obligations.RepliesAndNoticesEndRequests : Prop :=
  (∀ (s : State) (f : Frame) (x : Hub), f.control = true ∨ windowGood f.bytes = false → x = s.hub.takeFrame 3 f →
    exec (.windowCompletionRx f) s = .next (s.after (x.bump P.BR_FRAME_ERR 0)) ∧
    exec (.windowWriteAckRx f) s = .next (s.after (x.bump P.BR_FRAME_ERR 0))) ∧
  (∀ (s : State) (f : Frame) (x : Hub), f.control = false → windowGood f.bytes = true → byteAt f.bytes 0 = 4 → x = s.hub.takeFrame 3 f → x.br.out.find? (fun o => o.tag == be f.bytes 2 2 && o.entry == f.entry && !o.piece.write) = none →
    exec (.windowCompletionRx f) s = .next (s.after (x.bump P.BR_CPL_LATE 0))) ∧
  (∀ (s : State) (f : Frame) (x : Hub) (o : Outstanding), f.control = false → windowGood f.bytes = true → byteAt f.bytes 0 = 4 → x = s.hub.takeFrame 3 f → x.br.out.find? (fun o => o.tag == be f.bytes 2 2 && o.entry == f.entry && !o.piece.write) = some o → byteAt f.bytes 1 % 2 = 0 → byteAt f.bytes 16 = 0 → (f.bytes.drop 24).length = o.piece.len →
    exec (.windowCompletionRx f) s = .next (s.after (((x.modBr (fun r => { r with out := r.out.filter (fun y => y.tag != o.tag) })).answerPart o.piece (0, f.bytes.drop 24)).releaseHeld))) ∧
  (∀ (s : State) (f : Frame) (x : Hub) (o : Outstanding) (y : Hub), f.control = false → windowGood f.bytes = true → byteAt f.bytes 0 = 4 → x = s.hub.takeFrame 3 f → x.br.out.find? (fun o => o.tag == be f.bytes 2 2 && o.entry == f.entry && !o.piece.write) = some o → byteAt f.bytes 1 % 2 = 0 → byteAt f.bytes 16 ≠ 0 → y = x.modBr (fun r => { r with out := r.out.filter (fun y => y.tag != o.tag) }) →
    exec (.windowCompletionRx f) s = .next (s.after ((y.failPart o.piece).releaseHeld))) ∧
  (∀ (s : State) (f : Frame) (x : Hub) (o : Outstanding) (y : Hub), f.control = false → windowGood f.bytes = true → byteAt f.bytes 0 = 5 → x = s.hub.takeFrame 3 f → x.br.out.find? (fun o => o.tag == be f.bytes 2 2 && o.entry == f.entry && o.piece.write) = some o → byteAt f.bytes 1 % 2 = 0 → y = x.modBr (fun r => { r with out := r.out.filter (fun y => y.tag != o.tag) }) →
    exec (.windowWriteAckRx f) s = .next (s.after ((if byteAt f.bytes 16 = 0 then y else y.writeError ⟨(y.tun f.entry).tid, f.src, 0xFF, byteAt f.bytes 16, 0, false, false, true, o.off, y.clk.ns⟩).releaseHeld))) ∧
  (∀ (s : State) (tag : Nat) (o : Outstanding), s.hub.br.out.find? (fun o => o.tag == tag) = some o →
    exec (.cplTimeout tag) s = .next (s.after ((s.hub.until (o.at_ + us (s.hub.pget P.BR_CPL_TIMEOUT 0))).endRequest o))) ∧
  (∀ (s : State) (ap : Nat) (b : Prefetch), s.hub.buf ap = some b →
    exec (.prefetchExpire ap) s = .next (s.after ((s.hub.until (b.at_ + us 10)).dropBuf ap))) ∧
  (∀ (s : State) (org tid win last : Nat) (n : Notice) (y z : Hub) (c : Cell), s.hub.br.notices.find? (fun n => n.origin == org && n.win == win && n.tid == tid) = some n → last = mget 0 s.hub.br.noticed (org * 65536 + win) → y = (if last = 0 then s.hub else s.hub.until (last - 1 + us (s.hub.pget P.BR_NOTICE_INTERVAL 0))) → z = y.modBr (fun b => { b with notices := b.notices.erase n, noticed := mset 0 b.noticed (org * 65536 + win) (y.clk.up + 1) }) → c = ⟨0, true, true, 2, org, z.ownId, tid, 0, false, z.rail, false, z.pget P.TN_HOPS_DEFAULT 0, [byte n.status, byte n.win] ++ beBytes 2 n.count ++ [byte (b2n (n.status == 2)), 0#8, 0#8, 0#8] ++ beBytes 8 n.off ++ beBytes 8 n.time⟩ → z.tunnels = true → (z.makeRoom 3 0 (cellFlits c)).2 = true →
    exec (.noticeSend org tid win) s = .next (s.after ((z.makeRoom 3 0 (cellFlits c)).1.routeOwn 3 c))) ∧
  (∀ (s : State) (c : Cell) (x : Hub), x = (s.hub.takeFrame 3 ⟨1024, c.src, true, c.payload⟩).setDlv 3 0 ((s.hub.dlv 3 0).filter (fun q => q.cell != c)) → c.payload.length = 24 → c.kind = 2 →
    exec (.writeErrorNoticeRx c) s = .next (s.after (x.writeError ⟨c.tid, c.src, byteAt c.payload 1, byteAt c.payload 0, be c.payload 2 2, byteAt c.payload 4 % 2 == 1, false, false, be c.payload 8 8, be c.payload 16 8⟩))) ∧
  (∀ (s : State) (c : Cell) (x : Hub), x = (s.hub.takeFrame 3 ⟨1024, c.src, true, c.payload⟩).setDlv 3 0 ((s.hub.dlv 3 0).filter (fun q => q.cell != c)) → c.payload.length ≠ 24 ∨ c.kind ≠ 2 →
    exec (.writeErrorNoticeRx c) s = .next (s.after (x.bump P.BR_FRAME_ERR 0))) ∧
  (∀ (s : State) (c : Nat), s.hub.isEndpoint = true → s.hub.br.up = true →
    exec (.pcieIslandReset c) s = .next (s.after ((s.hub.linkChange false 0 0).islandReset 6))) ∧
  (∀ (s : State) (c : Nat), s.hub.isEndpoint = false →
    exec (.pcieIslandReset c) s = .next (s.after (s.hub))) ∧
  (∀ (s : State) (sp wd mps mrrs : Nat) (l1 : Bool) (x : Hub), s.hub.works 6 = true → s.hub.strapFault = false → l1 = false ∨ s.hub.br.up = false → x = s.hub.modBr (fun b => { b with
      up := true, speed := max 1 (min sp (s.hub.pget P.BR_PCIE_SPEED_MAX 0)), width := s.hub.linkWidth wd, l1 := false }) →
    exec (.pcieLink true ⟨sp, wd⟩ ⟨mps, mrrs, l1⟩) s = .next (s.after (((x.raise (2 ^ intLink)).event .pcieLink [(0, 1, 1), (1, 1, max 1 (min sp (s.hub.pget P.BR_PCIE_SPEED_MAX 0))), (2, 1, s.hub.linkWidth wd)]).modBr (fun b => { b with
      mps := 128 * 2 ^ min 2 mps, mrrs := 128 * 2 ^ min 5 mrrs })))) ∧
  (∀ (s : State) (sp wd mps mrrs : Nat), s.hub.br.up = true →
    exec (.pcieLink true ⟨sp, wd⟩ ⟨mps, mrrs, true⟩) s = .next (s.after (s.hub.modBr (fun b => { b with l1 := b.up && s.hub.pget P.BR_ASPM_L1 0 == 1 })))) ∧
  (∀ (s : State) (sp wd mps mrrs : Nat) (l1 : Bool) (x : Hub), x = (((s.hub.modBr (fun b => { b with
      up := false, speed := 0, width := 0, l1 := false })).raise (2 ^ intLink)).event .pcieLink [(0, 1, 0), (1, 1, sp), (2, 1, wd)]).failTargets →
    exec (.pcieLink false ⟨sp, wd⟩ ⟨mps, mrrs, l1⟩) s = .next (s.after (if s.hub.isEndpoint then x.islandReset 6 else x))) ∧
  (∀ (s : State),
    exec .intxDrop s = .next (s.after (if s.hub.isEndpoint then s.hub else s.hub.bump P.BR_INTX_DROP 0))) ∧
  (∀ (s : State) (mb : Nat), s.hub.conflictsOutside mb P.BR_LINK_RESET 0 = false → s.hub.isEndpoint = false → s.hub.br.up = false →
    exec (.brLinkReset mb 1) s = .next (s.after ((s.hub.setPerst false).modBr (fun b => { b with perst := some (s.hub.clk.up + ms 100) })))) ∧
  (∀ (h : Hub) (b : Bool), h.isEndpoint = false → h.br.perstHi = !b →
    h.setPerst b = (h.modBr (fun r => { r with perstHi := b })).out (.pin "PE_PERST_N" b)) ∧
  (∀ (s : State) (mb : Nat), s.hub.conflictsOutside mb P.BR_PWERR_CLEAR 0 = false →
    exec (.brPwerrClear mb 1) s = .next (s.after (s.hub.modBr (fun b => { b with log := [] })))) ∧
  (∀ (s : State) (mb : Nat),
    exec (.brPwerrOverflowRead mb) s = .next (s.after (s.hub.pset P.BR_PWERR_OVERFLOW 0 0)))

/-- A received Ethernet frame is checked, filtered and mapped as R281 to R287 say. Where the rules leave a point open it states the model's choice: log entries 2, 50. -/
def Obligations.EthernetFramesEnter : Prop :=
  (∀ (s : State) (p : Nat) (f : EthFrame) (x : Hub), x = s.hub.untilLine f.time → (x.ethp p).up = false ∨ x.works 7 = false →
    exec (.ethFrameRx p f) s = .next (s.after (x))) ∧
  (∀ (s : State) (p : Nat) (f : EthFrame) (x : Hub), x = s.hub.untilLine f.time → (x.ethp p).up = true → x.works 7 = true → f.phyOk = false →
    exec (.ethFrameRx p f) s = .next (s.after (x.bump P.EN_RX_ERR p))) ∧
  (∀ (s : State) (p : Nat) (f : EthFrame) (x : Hub), x = s.hub.untilLine f.time → (x.ethp p).up = true → x.works 7 = true → f.phyOk = true → f.bytes.length < 64 →
    exec (.ethFrameRx p f) s = .next (s.after (x.bump P.EN_RX_RUNT p))) ∧
  (∀ (s : State) (p : Nat) (f : EthFrame) (x : Hub), x = s.hub.untilLine f.time → (x.ethp p).up = true → x.works 7 = true → f.phyOk = true → 64 ≤ f.bytes.length → x.pget P.EN_MAX_FRAME p < f.bytes.length →
    exec (.ethFrameRx p f) s = .next (s.after (x.bump P.EN_RX_OVERSIZE p))) ∧
  (∀ (s : State) (p : Nat) (f : EthFrame) (x : Hub), x = s.hub.untilLine f.time → (x.ethp p).up = true → x.works 7 = true → f.phyOk = true → 64 ≤ f.bytes.length → f.bytes.length ≤ x.pget P.EN_MAX_FRAME p → fcsGood f.bytes = false →
    exec (.ethFrameRx p f) s = .next (s.after (x.bump P.EN_RX_FCS p))) ∧
  (∀ (s : State) (p : Nat) (f : EthFrame) (x : Hub) (y : Hub), x = s.hub.untilLine f.time → (x.ethp p).up = true → x.works 7 = true → f.phyOk = true → 64 ≤ f.bytes.length → f.bytes.length ≤ x.pget P.EN_MAX_FRAME p → fcsGood f.bytes = true → be f.bytes 12 2 = 0x8808 → be f.bytes 14 2 = 1 → y = x.bump P.EN_RX_PAUSE p → bit (y.pget P.EN_PAUSE p) 0 = true → be f.bytes 16 2 ≠ 0 → p < y.eth.length →
    exec (.ethFrameRx p f) s = .next (s.after (y.modEth p (fun e => { e with paused := some (y.clk.up + quantaTime e.mode (be f.bytes 16 2)) })))) ∧
  (∀ (s : State) (p : Nat) (f : EthFrame) (x : Hub) (y : Hub), x = s.hub.untilLine f.time → (x.ethp p).up = true → x.works 7 = true → f.phyOk = true → 64 ≤ f.bytes.length → f.bytes.length ≤ x.pget P.EN_MAX_FRAME p → fcsGood f.bytes = true → be f.bytes 12 2 ≠ 0x8808 → y = (x.bump P.EN_RX_FRAMES p).bumpBy P.EN_RX_BYTES p f.bytes.length → y.filtersOf p f.bytes = [] → y.vlanMap p (y.ethVid p f.bytes) = none →
    exec (.ethFrameRx p f) s = .next (s.after (y.bump P.EN_RX_NOMAP p))) ∧
  (∀ (s : State) (p : Nat) (f : EthFrame) (x : Hub) (y : Hub) (i : Nat), x = s.hub.untilLine f.time → (x.ethp p).up = true → x.works 7 = true → f.phyOk = true → 64 ≤ f.bytes.length → f.bytes.length ≤ x.pget P.EN_MAX_FRAME p → fcsGood f.bytes = true → be f.bytes 12 2 ≠ 0x8808 → y = (x.bump P.EN_RX_FRAMES p).bumpBy P.EN_RX_BYTES p f.bytes.length → y.filtersOf p f.bytes = [] → y.vlanMap p (y.ethVid p f.bytes) = some (i, true) → (y.tun i).valid = true → (y.tun i).dir.sends = true → (y.tun i).type = tEthernet → (y.ethp p).occupancy + f.bytes.length ≤ ethRxSize →
    exec (.ethFrameRx p f) s = .next (s.after (y.modEth p (fun q => { q with rx := q.rx ++ [⟨i, f.bytes, false⟩] })))) ∧
  (∀ (s : State) (p : Nat) (f : EthFrame) (x : Hub) (y : Hub) (i : Nat), x = s.hub.untilLine f.time → (x.ethp p).up = true → x.works 7 = true → f.phyOk = true → 64 ≤ f.bytes.length → f.bytes.length ≤ x.pget P.EN_MAX_FRAME p → fcsGood f.bytes = true → be f.bytes 12 2 ≠ 0x8808 → y = (x.bump P.EN_RX_FRAMES p).bumpBy P.EN_RX_BYTES p f.bytes.length → y.filtersOf p f.bytes = [] → y.vlanMap p (y.ethVid p f.bytes) = some (i, true) → (y.tun i).valid = true → (y.tun i).dir.sends = true → (y.tun i).type = tEthernet → ethRxSize < (y.ethp p).occupancy + f.bytes.length →
    exec (.ethFrameRx p f) s = .next (s.after (y.bump P.EN_RX_FULL p))) ∧
  (∀ (s : State) (p : Nat) (f : EthFrame) (x : Hub) (y : Hub) (i v t : Nat) (fs : List (Nat × Nat)) (on : Bool), x = s.hub.untilLine f.time → (x.ethp p).up = true → x.works 7 = true → f.phyOk = true → 64 ≤ f.bytes.length → f.bytes.length ≤ x.pget P.EN_MAX_FRAME p → fcsGood f.bytes = true → be f.bytes 12 2 ≠ 0x8808 → y = (x.bump P.EN_RX_FRAMES p).bumpBy P.EN_RX_BYTES p f.bytes.length → y.filtersOf p f.bytes = (i, v) :: fs → ((i, v) :: fs).any (fun e => bit e.2 30) = true → (y.filterAct i v f.bytes f.time).vlanMap p ((y.filterAct i v f.bytes f.time).ethVid p f.bytes) = some (t, on) →
    exec (.ethFrameRx p f) s = .next (s.after (y.filterAct i v f.bytes f.time)))

/-- Admission, PAUSE, transmission and link events act as R280, R284, R286 and R289 to R291 say. Where the rules leave a point open it states the model's choice: log entries 2, 51, 146, 168. -/
def Obligations.EthernetFramesLeave : Prop :=
  (∀ (s : State) (p : Nat), (s.hub.ethp p).rx = [] →
    exec (.ethRxAdmit p) s = .next (s.after (s.hub))) ∧
  (∀ (s : State) (p : Nat) (f : EthHeld) (rest : List EthHeld) (e : TEntry), (s.hub.ethp p).rx = f :: rest → e = s.hub.tun f.entry → (e.valid && e.dir.sends && decide (e.type = tEthernet) && s.hub.tunnels) = false →
    exec (.ethRxAdmit p) s = .next (s.after ((s.hub.bump P.EN_RX_NOTUNNEL p).modEth p (fun q => { q with rx := rest })))) ∧
  (∀ (s : State) (p : Nat) (f : EthHeld) (rest : List EthHeld) (e : TEntry), (s.hub.ethp p).rx = f :: rest → e = s.hub.tun f.entry → (e.valid && e.dir.sends && decide (e.type = tEthernet) && s.hub.tunnels) = true → e.limit < f.bytes.length →
    exec (.ethRxAdmit p) s = .next (s.after (s.hub.modEth p (fun q => { q with rx := rest })))) ∧
  (∀ (s : State) (p : Nat) (f : EthHeld) (rest : List EthHeld) (e : TEntry) (y z : Hub), (s.hub.ethp p).rx = f :: rest → e = s.hub.tun f.entry → (e.valid && e.dir.sends && decide (e.type = tEthernet) && s.hub.tunnels) = true → f.bytes.length ≤ e.limit → (!e.mcast && decide (e.peer = s.hub.ownId)) = false → f.policed = true → s.hub.shaped f.entry e = false → s.hub.shaperOpen f.entry e = true → s.hub.trySend ⟨4, f.entry, false, f.bytes, f.bytes.length, true⟩ e = (z, .sent) →
    exec (.ethRxAdmit p) s = .next (s.after (z.modEth p (fun q => { q with rx := rest })))) ∧
  (∀ (s : State) (p : Nat), bit (s.hub.pget P.EN_PAUSE p) 1 = true → (s.hub.ethp p).up = true → s.hub.pget P.EN_PAUSE_XOFF p < (s.hub.ethp p).occupancy → (s.hub.ethp p).xoff = false →
    exec (.pauseTx p) s = .next (s.after (s.hub.sendPause p (s.hub.pget P.EN_PAUSE_QUANTA p)))) ∧
  (∀ (s : State) (p : Nat), bit (s.hub.pget P.EN_PAUSE p) 1 = true → (s.hub.ethp p).up = true → (s.hub.ethp p).occupancy < s.hub.pget P.EN_PAUSE_XON p → (s.hub.ethp p).xoff = true →
    exec (.pauseTx p) s = .next (s.after (s.hub.sendPause p 0))) ∧
  (∀ (s : State) (p : Nat), bit (s.hub.pget P.EN_PAUSE p) 1 = false ∨ (s.hub.ethp p).up = false →
    exec (.pauseTx p) s = .next (s.after (s.hub)) ∧
    exec (.pauseRepeat p) s = .next (s.after (s.hub))) ∧
  (∀ (s : State) (p : Nat), bit (s.hub.pget P.EN_PAUSE p) 1 = true → (s.hub.ethp p).up = true → (s.hub.ethp p).xoff = true →
    exec (.pauseRepeat p) s = .next (s.after ((s.hub.until ((s.hub.ethp p).pauseAt + quantaTime (s.hub.ethp p).mode (s.hub.pget P.EN_PAUSE_QUANTA p) / 2)).sendPause p (s.hub.pget P.EN_PAUSE_QUANTA p)))) ∧
  (∀ (s : State) (p t : Nat), (s.hub.ethp p).paused = some t →
    exec (.pauseExpire p) s = .next (s.after (((s.hub.until t).modEth p (fun e => { e with paused := none })).ethDrain p))) ∧
  (∀ (s : State) (f : Frame) (p : Nat) (b : List Byte), p = bits (s.hub.tun f.entry).binding 14 2 → b = retag (s.hub.tun f.entry).binding f.bytes → s.hub.ethBehind f = false → s.hub.works 7 = true → (s.hub.ethp p).up = true → b.length ≤ s.hub.pget P.EN_MAX_FRAME p → (s.hub.ethp p).fifo + b.length ≤ ethTxSize → (s.hub.ethp p).paused = none →
    exec (.ethFrameTx f) s = .next (s.after (((s.hub.takeFrame 4 f).modEth p (fun q => { q with tx := q.tx ++ [b] })).ethDrain p))) ∧
  (∀ (s : State) (f : Frame) (p : Nat) (b : List Byte), p = bits (s.hub.tun f.entry).binding 14 2 → b = retag (s.hub.tun f.entry).binding f.bytes → s.hub.ethBehind f = false → s.hub.works 7 = true → (s.hub.ethp p).up = true → b.length ≤ s.hub.pget P.EN_MAX_FRAME p → ethTxSize < (s.hub.ethp p).fifo + b.length →
    exec (.ethFrameTx f) s = .next (s.after (s.hub))) ∧
  (∀ (s : State) (f : Frame) (p : Nat), p = bits (s.hub.tun f.entry).binding 14 2 → s.hub.ethBehind f = false → s.hub.works 7 = true → (s.hub.ethp p).up = false →
    exec (.ethFrameTx f) s = .next (s.after ((s.hub.takeFrame 4 f).bump P.EN_TX_DOWN p))) ∧
  (∀ (s : State) (f : Frame), s.hub.ethBehind f = true →
    exec (.ethFrameTx f) s = .next (s.after (s.hub))) ∧
  (∀ (s : State) (p : Nat), (s.hub.ethp p).up = false → s.hub.pget P.EN_ENABLE p ≠ 0 → s.hub.pget P.EN_MODE p ≠ 0 → s.hub.works 7 = true →
    exec (.ethLink p true) s = .next (s.after (((s.hub.modEth p (fun q => { q with up := true, mode := s.hub.pget P.EN_MODE p })).raise (2 ^ intLink)).event .ethLink [(0, 1, p), (1, 1, 1), (2, 1, s.hub.pget P.EN_MODE p)]))) ∧
  (∀ (s : State) (p : Nat), (s.hub.ethp p).up = true →
    exec (.ethLink p false) s = .next (s.after (((((s.hub.bumpBy P.EN_TX_DOWN p (s.hub.ethp p).tx.length).modEth p (fun q => { q with up := false, mode := 0, tx := [], paused := none, xoff := false })).raise (2 ^ intLink)).event .ethLink [(0, 1, p), (1, 1, 0), (2, 1, s.hub.pget P.EN_MODE p)]).ethAdvertise p))) ∧
  (∀ (s : State) (p en mode : Nat) (x : Hub), p < 4 → en ≤ 1 → mode ≤ 4 → x = (if s.hub.storeChanges ⟨P.EN_ENABLE, p, en⟩ || s.hub.storeChanges ⟨P.EN_MODE, p, mode⟩ then (s.hub.overlay [⟨P.EN_ENABLE, p, en⟩, ⟨P.EN_MODE, p, mode⟩] []).modMg (fun m => { m with dirty := true }) else s.hub.overlay [⟨P.EN_ENABLE, p, en⟩, ⟨P.EN_MODE, p, mode⟩] []) →
    exec (.ethPortRestart p en mode) s = .next (s.after ((((x.ethLink p false).ethAdvertise p).ethLink p false).ethAdvertise p))) ∧
  (∀ (h : Hub) (p : Nat), h.works 7 = true → h.pget P.EN_ENABLE p = 1 → h.pget P.EN_MODE p = 4 →
    h.ethAdvertise p = (h.modEth p (fun q => { q with advert := some (h.pget P.EN_PAUSE p) })).out (.ethPause p (h.pget P.EN_PAUSE p)))

/-- Port commands and bad messages act as R295 to R297 and R301 say. Where the rules leave a point open it states the model's choice: log entries 53, 54, 55, 56. -/
def Obligations.PortCommandsMoveUsbPorts : Prop :=
  (∀ (s : State) (f : Frame) (p : Nat) (y : Hub), s.hub.works usbIsland = true → s.hub.hostEntry f.entry = false → f.control = false → usbGood f.bytes = true → p = byteAt f.bytes 4 → y = (s.hub.takeFrame 5 f).modUsb p (fun u => { u with lastAt := (s.hub.takeFrame 5 f).clk.up }) → y.usbAllowed f = true → byteAt f.bytes 0 = 3 → byteAt f.bytes 6 = 1 → 4 ≤ p → y.pget P.US_OC_MODE 0 ≠ 1 →
    exec (.powerOn f) s = .next (s.after (((y.modUsb p (fun u => { u with power := true, oc := false })).out (.usb p "POWER_ON" [])).portReply f 0))) ∧
  (∀ (s : State) (f : Frame) (p : Nat) (y : Hub), s.hub.works usbIsland = true → s.hub.hostEntry f.entry = false → f.control = false → usbGood f.bytes = true → p = byteAt f.bytes 4 → y = (s.hub.takeFrame 5 f).modUsb p (fun u => { u with lastAt := (s.hub.takeFrame 5 f).clk.up }) → y.usbAllowed f = true → byteAt f.bytes 0 = 3 → byteAt f.bytes 6 = 1 → p < 4 → (y.fuse (p + 1)).state = .latched →
    exec (.powerOn f) s = .next (s.after (y.portReply f 6))) ∧
  (∀ (s : State) (f : Frame) (p : Nat) (y : Hub), s.hub.works usbIsland = true → s.hub.hostEntry f.entry = false → f.control = false → usbGood f.bytes = true → p = byteAt f.bytes 4 → y = (s.hub.takeFrame 5 f).modUsb p (fun u => { u with lastAt := (s.hub.takeFrame 5 f).clk.up }) → y.usbAllowed f = true → byteAt f.bytes 0 = 3 → byteAt f.bytes 6 = 2 →
    exec (.powerOff f) s = .next (s.after ((y.powerOffPort p 7).portReply f 0))) ∧
  (∀ (s : State) (f : Frame) (p : Nat) (y : Hub) (z : Hub), s.hub.works usbIsland = true → s.hub.hostEntry f.entry = false → f.control = false → usbGood f.bytes = true → p = byteAt f.bytes 4 → y = (s.hub.takeFrame 5 f).modUsb p (fun u => { u with lastAt := (s.hub.takeFrame 5 f).clk.up }) → y.usbAllowed f = true → byteAt f.bytes 0 = 3 → byteAt f.bytes 6 = 3 → z = y.endXfers p 7 (fun _ => true) → (z.usbp p).speed ≠ 0 → z.usbPowered p = true → z.usbServes p = true →
    exec (.reset f) s = .next (s.after (((z.modUsb p (fun u => { u with addressed := true, polls := [], suspended := false, byCommand := false, resume := none })).out (.usb p "RESET" [byte (p + 1)])).portReply f 0))) ∧
  (∀ (s : State) (f : Frame) (p : Nat) (y : Hub) (z : Hub), s.hub.works usbIsland = true → s.hub.hostEntry f.entry = false → f.control = false → usbGood f.bytes = true → p = byteAt f.bytes 4 → y = (s.hub.takeFrame 5 f).modUsb p (fun u => { u with lastAt := (s.hub.takeFrame 5 f).clk.up }) → y.usbAllowed f = true → byteAt f.bytes 0 = 3 → byteAt f.bytes 6 = 3 → z = y.endXfers p 7 (fun _ => true) → (z.usbp p).speed = 0 →
    exec (.reset f) s = .next (s.after (z.portReply f 8))) ∧
  (∀ (s : State) (f : Frame) (p : Nat) (y : Hub), s.hub.works usbIsland = true → s.hub.hostEntry f.entry = false → f.control = false → usbGood f.bytes = true → p = byteAt f.bytes 4 → y = (s.hub.takeFrame 5 f).modUsb p (fun u => { u with lastAt := (s.hub.takeFrame 5 f).clk.up }) → y.usbAllowed f = true → byteAt f.bytes 0 = 3 → byteAt f.bytes 6 = 4 → (y.usbp p).addressed = true → y.usbPowered p = true → y.usbServes p = true →
    exec (.suspend f) s = .next (s.after (((y.modUsb p (fun u => { u with suspended := true, byCommand := true, polls := [], coincident := false, woken := false, resume := none })).out (.usb p "SUSPEND" [])).portReply f 0))) ∧
  (∀ (s : State) (f : Frame) (p : Nat) (y : Hub), s.hub.works usbIsland = true → s.hub.hostEntry f.entry = false → f.control = false → usbGood f.bytes = true → p = byteAt f.bytes 4 → y = (s.hub.takeFrame 5 f).modUsb p (fun u => { u with lastAt := (s.hub.takeFrame 5 f).clk.up }) → y.usbAllowed f = true → byteAt f.bytes 0 = 3 → byteAt f.bytes 6 = 5 → (y.usbp p).addressed = true → y.usbPowered p = true → y.usbServes p = true → (y.usbp p).suspended = true → (y.usbp p).resume = none →
    exec (.resume f) s = .next (s.after (((y.modUsb p (fun u => { u with resume := some y.clk.up })).out (.usb p "RESUME" [])).portReply f 0))) ∧
  (∀ (s : State) (f : Frame) (p : Nat) (y : Hub), s.hub.works usbIsland = true → s.hub.hostEntry f.entry = false → f.control = false → usbGood f.bytes = true → p = byteAt f.bytes 4 → y = (s.hub.takeFrame 5 f).modUsb p (fun u => { u with lastAt := (s.hub.takeFrame 5 f).clk.up }) → y.usbAllowed f = true → byteAt f.bytes 0 = 3 → byteAt f.bytes 6 = 4 ∨ byteAt f.bytes 6 = 5 → (y.usbp p).addressed = false →
    exec (.suspend f) s = .next (s.after (y.portReply f 8)) ∧
    exec (.resume f) s = .next (s.after (y.portReply f 8))) ∧
  (∀ (s : State) (f : Frame) (p : Nat) (y : Hub), s.hub.works usbIsland = true → s.hub.hostEntry f.entry = false → f.control = false → usbGood f.bytes = true → p = byteAt f.bytes 4 → y = (s.hub.takeFrame 5 f).modUsb p (fun u => { u with lastAt := (s.hub.takeFrame 5 f).clk.up }) → y.usbAllowed f = true → byteAt f.bytes 0 = 3 → byteAt f.bytes 6 = 6 →
    exec (.status f) s = .next (s.after (y.portReply f 0))) ∧
  (∀ (s : State) (f : Frame) (p : Nat) (y : Hub), s.hub.works usbIsland = true → s.hub.hostEntry f.entry = false → f.control = false → usbGood f.bytes = true → p = byteAt f.bytes 4 → y = (s.hub.takeFrame 5 f).modUsb p (fun u => { u with lastAt := (s.hub.takeFrame 5 f).clk.up }) → y.usbAllowed f = true → byteAt f.bytes 0 = 6 →
    exec (.abort f) s = .next (s.after (((y.endXfers p 7 (fun x => byteAt f.bytes 5 == 0xFF || x.ep == byteAt f.bytes 5)).portReply f 0).startXfers p))) ∧
  (∀ (s : State) (f : Frame) (p : Nat) (y : Hub), s.hub.works usbIsland = true → s.hub.hostEntry f.entry = false → f.control = false → usbGood f.bytes = true → p = byteAt f.bytes 4 → y = (s.hub.takeFrame 5 f).modUsb p (fun u => { u with lastAt := (s.hub.takeFrame 5 f).clk.up }) → y.usbAllowed f = false → byteAt f.bytes 0 ≠ 1 →
    exec (.powerOn f) s = .next (s.after (y.portReply f 10)) ∧
    exec (.powerOff f) s = .next (s.after (y.portReply f 10)) ∧
    exec (.reset f) s = .next (s.after (y.portReply f 10)) ∧
    exec (.suspend f) s = .next (s.after (y.portReply f 10)) ∧
    exec (.resume f) s = .next (s.after (y.portReply f 10)) ∧
    exec (.status f) s = .next (s.after (y.portReply f 10)) ∧
    exec (.abort f) s = .next (s.after (y.portReply f 10))) ∧
  (∀ (s : State) (f : Frame), s.hub.works usbIsland = true → s.hub.hostEntry f.entry = false → f.control = true ∨ usbGood f.bytes = false →
    exec (.usbMsgBad f) s = .next (s.after ((s.hub.takeFrame 5 f).bump P.US_MSG_ERR 0))) ∧
  (∀ (s : State) (f : Frame), s.hub.works usbIsland = false → s.hub.al.gov.level ≠ 3 →
    exec (.usbMsgBad f) s = .next (s.after ((s.hub.takeFrame 5 f).bump P.US_MSG_ERR 0)))

/-- Transfers, reports and the head's rings act as R293, R296, R299, R300 and R303 say. Where the rules leave a point open it states the model's choice: log entries 53, 54, 56, 132, 145, 165, 168. -/
def Obligations.TransfersRunAndEnd : Prop :=
  (∀ (s : State) (f : Frame) (p : Nat) (y : Hub) (x : Xfer) (st : Nat), s.hub.works usbIsland = true → s.hub.hostEntry f.entry = false → f.control = false → usbGood f.bytes = true → p = byteAt f.bytes 4 → y = (s.hub.takeFrame 5 f).modUsb p (fun u => { u with lastAt := (s.hub.takeFrame 5 f).clk.up }) → byteAt f.bytes 0 = 1 → x = ⟨f.entry, be f.bytes 2 2, byteAt f.bytes 5, byteAt f.bytes 6, byteAt f.bytes 1, be f.bytes 8 4, slice f.bytes 12 12, f.bytes.drop 32, false⟩ → y.xferRefusal f = some st →
    exec (.transfer f) s = .next (s.after (y.complete p x st 0 []))) ∧
  (∀ (s : State) (f : Frame) (p : Nat) (y : Hub) (x : Xfer) (z : Hub), s.hub.works usbIsland = true → s.hub.hostEntry f.entry = false → f.control = false → usbGood f.bytes = true → p = byteAt f.bytes 4 → y = (s.hub.takeFrame 5 f).modUsb p (fun u => { u with lastAt := (s.hub.takeFrame 5 f).clk.up }) → byteAt f.bytes 0 = 1 → x = ⟨f.entry, be f.bytes 2 2, byteAt f.bytes 5, byteAt f.bytes 6, byteAt f.bytes 1, be f.bytes 8 4, slice f.bytes 12 12, f.bytes.drop 32, false⟩ → y.xferRefusal f = none → z = y.modUsb p (fun u => { u with xfers := u.xfers ++ [x] }) → (z.usbp p).suspended = false →
    exec (.transfer f) s = .next (s.after (z.startXfers p))) ∧
  (∀ (s : State) (f : Frame) (p : Nat) (y : Hub) (x : Xfer) (z : Hub), s.hub.works usbIsland = true → s.hub.hostEntry f.entry = false → f.control = false → usbGood f.bytes = true → p = byteAt f.bytes 4 → y = (s.hub.takeFrame 5 f).modUsb p (fun u => { u with lastAt := (s.hub.takeFrame 5 f).clk.up }) → byteAt f.bytes 0 = 1 → x = ⟨f.entry, be f.bytes 2 2, byteAt f.bytes 5, byteAt f.bytes 6, byteAt f.bytes 1, be f.bytes 8 4, slice f.bytes 12 12, f.bytes.drop 32, false⟩ → y.xferRefusal f = none → z = y.modUsb p (fun u => { u with xfers := u.xfers ++ [x] }) → (z.usbp p).suspended = true → (z.usbp p).resume = none →
    exec (.transfer f) s = .next (s.after ((z.modUsb p (fun u => { u with resume := some z.clk.up })).out (.usb p "RESUME" [])))) ∧
  (∀ (s : State) (p ep got : Nat) (d : List Byte) (x : Xfer) (y : Hub), (s.hub.usbp p).xfers.find? (fun x => x.ep == ep && x.started) = some x → y = s.hub.modUsb p (fun u => { u with xfers := u.xfers.erase x }) → bit x.ep 7 = true → x.xtype ≠ 1 → got = d.length → got ≤ x.len →
    exec (.usbTransferComplete p ep 0 d) s = .next (s.after ((y.complete p x (if got < x.len && !bit x.flags 0 then 2 else 0) got (d.take x.len)).startXfers p))) ∧
  (∀ (s : State) (p ep : Nat) (d : List Byte) (x : Xfer) (y : Hub), (s.hub.usbp p).xfers.find? (fun x => x.ep == ep && x.started) = some x → y = s.hub.modUsb p (fun u => { u with xfers := u.xfers.erase x }) → bit x.ep 7 = false →
    exec (.usbTransferComplete p ep 0 d) s = .next (s.after ((y.complete p x 0 x.len []).startXfers p))) ∧
  (∀ (s : State) (i v : Nat), v = s.hub.tget 0x40 i → s.hub.polls v = true →
    exec (.bindingPoll i) s = .next (s.after (((s.hub.endPoll i).modUsb (bindPort v) (fun u => { u with polls := u.polls ++ [(i, v)] })).out (.usb (bindPort v) "POLL" [byte (bindEp v)])))) ∧
  (∀ (s : State) (i : Nat), s.hub.polls (s.hub.tget 0x40 i) = false →
    exec (.bindingPoll i) s = .next (s.after (s.hub))) ∧
  (∀ (s : State) (i v o n : Nat) (b : List Byte) (x : Hub), v = s.hub.pollOf i → s.hub.polls v = true → x = s.hub.endPoll i → o = bits v 32 16 → n = bits v 48 8 → bit v 5 = false ∨ byteAt b 0 = bits v 24 8 → o + n ≤ b.length → bit v 6 = true →
    exec (.usbReport i b) s = .next (s.after (x.pushEvent ⟨1, slice b o n, x.clk.ns, 0, 1, x.ownId⟩))) ∧
  (∀ (s : State) (i v t : Nat) (b : List Byte) (x : Hub), v = s.hub.pollOf i → s.hub.polls v = true → x = s.hub.endPoll i → bit v 5 = false ∨ byteAt b 0 = bits v 24 8 → b.length < bits v 32 16 + bits v 48 8 → bit v 6 = false → x.usbOwner (bindPort v) = some t →
    exec (.usbReport i b) s = .next (s.after ((x.bump P.US_BIND_SHORT i).usbSend t (usbMessage 2 8 0xFFFF (bindPort v) (128 + bindEp v) 3 0 b.length (List.replicate 8 0#8 ++ beBytes 4 (bits v 64 11 * 65536 + bits v 56 8)) x.clk.ns b)))) ∧
  (∀ (s : State) (n : Nat), s.hub.isHead = true → s.hub.pget P.US_RING_ORDER 0 ≠ 0 → s.hub.works usbIsland = true → n = min (2 ^ s.hub.pget P.US_RING_ORDER 0) ((s.hub.ringIndex 0 + 2 ^ 32 - s.hub.ringIndex 4) % 2 ^ 32) →
    exec .usRingPoll s = .next (s.after (Hub.hostTakeN n s.hub))) ∧
  (∀ (s : State), s.hub.isHead = false ∨ s.hub.pget P.US_RING_ORDER 0 = 0 →
    exec .usRingPoll s = .next (s.after (s.hub)))

/-- Over-current, suspend, wake, attach, the bus interval and the service port act as R301 to R309 say. Where the rules leave a point open it states the model's choice: log entries 2, 8, 25, 55, 93, 132, 133, 145, 165, 166, 167. -/
def Obligations.UsbPortsAndTheServicePort : Prop :=
  (∀ (s : State) (p : Nat), s.hub.works usbIsland = true → 4 ≤ p → s.hub.pget P.US_OC_MODE 0 ≠ 1 →
    exec (.usbOvercurrent p) s = .next (s.after (s.hub.usbOc [p] p 0 0))) ∧
  (∀ (s : State), s.hub.works usbIsland = true → s.hub.pget P.US_OC_MODE 0 = 1 →
    exec (.usbOvercurrent 4) s = .next (s.after (s.hub.usbOc [4, 5, 6, 7] 4 0 1))) ∧
  (∀ (s : State) (p : Nat), s.hub.idleTime ≠ 0 → s.hub.works usbIsland = true → (s.hub.usbp p).speed ≠ 0 → s.hub.usbPowered p = true → (s.hub.usbp p).suspended = false → (s.hub.usbp p).xfers = [] → s.hub.bindings.any (fun e => bindPort e.2 == p) = false →
    exec (.usbIdleSuspend p) s = .next (s.after (((s.hub.until ((s.hub.usbp p).lastAt + ms s.hub.idleTime)).suspendPort p false).portEvent p 5 0))) ∧
  (∀ (s : State) (p : Nat), s.hub.works usbIsland = true → (s.hub.usbp p).suspended = true → (s.hub.usbp p).resume = none →
    exec (.usbRemoteWake p) s = .next (s.after ((((s.hub.resumePort p).modUsb p (fun u => { u with woken := true })).portEvent p 3 0).event .usbRemoteWake [(0, 1, p), (1, 1, 0)]))) ∧
  (∀ (s : State) (p t : Nat), s.hub.works usbIsland = true → (s.hub.usbp p).suspended = true → (s.hub.usbp p).resume = some t → s.hub.clk.up < t + ms 20 →
    exec (.usbRemoteWake p) s = .next (s.after (((s.hub.modUsb p (fun u => { u with coincident := true })).portEvent p 3 4).event .usbRemoteWake [(0, 1, p), (1, 1, 1)]))) ∧
  (∀ (s : State) (p t : Nat) (x : Hub), (s.hub.usbp p).resume = some t → x = (if 4 ≤ (s.hub.usbp p).speed then s.hub else s.hub.until (t + ms 30)) →
    exec (.resumeRecoveryEnd p) s = .next (s.after (((x.modUsb p (fun u => { u with suspended := false, byCommand := false, woken := false, resume := none })).portEvent p 6 0).startXfers p))) ∧
  (∀ (s : State) (p v sp : Nat), s.hub.works usbIsland = true → s.hub.usbServes p = true → s.hub.usbPowered p = true → s.hub.pget P.US_PORT_ENABLE p ≠ 0 → (s.hub.usbp p).speed = 0 → 1 ≤ v → v ≤ 5 → sp = min v (s.hub.usbTop p) →
    exec (.usbAttach p true v) s = .next (s.after ((((s.hub.modUsb p (fun u => { u with speed := sp, addressed := false, polls := [], suspended := false })).portEvent p 1 0).raise (2 ^ intLink)).event .usbAttach [(0, 1, p), (1, 1, 1), (2, 1, sp)]))) ∧
  (∀ (s : State) (p v : Nat), (s.hub.usbp p).speed ≠ 0 →
    exec (.usbAttach p false v) s = .next (s.after (((((s.hub.endXfers p 5 (fun _ => true)).modUsb p (fun u => { u with speed := 0, addressed := false, polls := [], suspended := false, byCommand := false, resume := none })).portEvent p 2 0).raise (2 ^ intLink)).event .usbAttach [(0, 1, p), (1, 1, 0), (2, 1, 0)]))) ∧
  (∀ (s : State) (start : Int), s.hub.works usbIsland = true → s.hub.pget P.US_SOF_MODE 0 ≠ 2 → start = (if s.hub.usb.sofAt = 0 then (s.hub.clk.up * 960 : Int) else s.hub.usb.sofAt) →
    exec .sofMicroframe s = .next (s.after ((s.hub.until ((start + (microLen + 125 * s.hub.sofTrim)).toNat / 960)).modUsbc (fun u => { u with micro := u.micro + 1, sofAt := (start + (microLen + 125 * s.hub.sofTrim)).toNat, trim := s.hub.sofTrim })))) ∧
  (∀ (s : State), s.hub.works usbIsland = false →
    exec .sofMicroframe s = .next (s.after (s.hub))) ∧
  (∀ (s : State) (q : Req) (a : Hub) (z : Hub × Reply), s.hub.asks q 0x0C01 = true → a = s.hub.asked q 0x0C01 → z = ((Config.usbPortControl q.payload).elim (a, Reply.err .badParam) (fun x => if 8 ≤ x.1 then (a, .err .range) else ((a.portCmd x.1 x.2).1, if (a.portCmd x.1 x.2).2 = 0 then .ok [] else .err .conflict))) →
    exec (.usbPortControl q) s = .next (s.after (s.hub.answered q 0x0C01 (z.1) (z.2)))) ∧
  (∀ (s : State) (b : SvcBus) (x : Hub), x = s.hub.modUsbc (fun u => { u with svc := b, woke := u.woke && b.suspended }) → x.svcPulled = true →
    exec (.svcAttach b) s = .next (s.after ({ x with svcHost := true }))) ∧
  (∀ (s : State) (b : SvcBus) (x : Hub), x = s.hub.modUsbc (fun u => { u with svc := b, woke := u.woke && b.suspended }) → x.svcPulled = false →
    exec (.svcAttach b) s = .next (s.after (x))) ∧
  (∀ (h : Hub), h.svcPulled = true ↔ h.pget P.US_SVC_ENABLE 0 = 1 ∧ h.usb.svc.vbus = true ∧ h.works usbIsland = true) ∧
  (∀ (s : State) (bs : List Byte), s.hub.svcHost = true → s.hub.usb.svc.configured = true → s.hub.usb.svc.suspended = false →
    exec (.svcRequest bs) s = .next (s.after ((s.hub.place 3 bs 1024).examine 3))) ∧
  (∀ (s : State) (bs : List Byte), s.hub.svcHost = true → s.hub.usb.svc.configured = false ∨ s.hub.usb.svc.suspended = true →
    exec (.svcRequest bs) s = .next (s.after (s.hub))) ∧
  (∀ (s : State) (q : Setup), s.hub.svcHost = true → setupFor q 0xC0 1 = true →
    exec (.regRead q) s = .next (s.after ((s.hub.reach.readRegister q.index).2.out (.svc 0 (leBytes 4 (s.hub.reach.readRegister q.index).1))))) ∧
  (∀ (s : State) (q : Setup) (v : Nat), s.hub.svcHost = true → setupFor q 0x40 2 = true →
    exec (.regWrite q v) s = .next (s.after (s.hub.reach.writeRegister q.index v))) ∧
  (∀ (s : State) (q : Setup) (d : List Byte), s.hub.svcHost = true → q.type = 0x80 → q.request = 6 → q.value % 256 = 0 → svcDescriptor (q.value / 256) = some d →
    exec (.regRead q) s = .next (s.after (s.hub.out (.svc 0 (d.take q.length))))) ∧
  (∀ (s : State) (q : Setup) (v : Nat), s.hub.svcHost = true → setupFor q 0x40 2 = false →
    exec (.regWrite q v) s = .next (s.after (s.hub.out (.usb 8 "SVC_STALL" [])))) ∧
  (∀ (s : State) (q : Setup), s.hub.svcHost = true → setupFor q 0xC0 1 = false → q.type ≠ 0x80 →
    exec (.regRead q) s = .next (s.after (s.hub.out (.usb 8 "SVC_STALL" [])))) ∧
  (∀ (s : State), s.hub.svcHost = true →
    exec .svcMbReset s = .next (s.after ((s.hub.mbReset 3).ring 3)) ∧
    exec .getIdentity s = .next (s.after (s.hub.out (.svc 0 s.hub.identity)))) ∧
  (∀ (s : State) (c : SvcCut) (x : Hub), s.hub.svcHost = true → x = s.hub.modUsbc (fun u => { u with svc := { Usb.reset.svc with vbus := u.svc.vbus }, woke := false }) →
    exec (.svcBusReset c) s = .next (s.after ((x.bumpBy P.US_SVC_ABANDON 0 (b2n c.ep1 + b2n c.ep2)).event .svcBusReset [(0, 1, c.stage), (1, 1, if c.stage = 0 then 0 else c.request)]))) ∧
  (∀ (s : State) (q : Setup) (v : Nat) (c : SvcCut) (bs : List Byte), s.hub.svcHost = false →
    exec (.svcRequest bs) s = .next (s.after (s.hub)) ∧
    exec (.regRead q) s = .next (s.after (s.hub)) ∧
    exec (.regWrite q v) s = .next (s.after (s.hub)) ∧
    exec .svcMbReset s = .next (s.after (s.hub)) ∧
    exec .getIdentity s = .next (s.after (s.hub)) ∧
    exec (.svcBusReset c) s = .next (s.after (s.hub)))

/-- Type-C ports attach, detach and recover as R311 to R317 and R324 say. Where the rules leave a point open it states the model's choice: log entries 2, 57, 84, 135, 137. -/
def Obligations.TypeCPortsAttachAndDetach : Prop :=
  (∀ (s : State) (n : Nat) (x : Hub), n < 4 → x = s.hub.stored P.TC_ENABLE n 1 → (x.tcp n).state = .disabled →
    exec (.tcEnableWrite n 1) s = .next (s.after ((x.modTc n (fun t => { t with state := .unattached, since := x.clk.up })).pd n "Rp" []))) ∧
  (∀ (s : State) (n : Nat) (x : Hub), n < 4 → x = s.hub.stored P.TC_ENABLE n 1 → (x.tcp n).state ≠ .disabled →
    exec (.tcEnableWrite n 1) s = .next (s.after (x))) ∧
  (∀ (s : State) (n : Nat) (x : Hub) (y : Hub), n < 4 → x = s.hub.stored P.TC_ENABLE n 0 → (x.tcp n).state ≠ .disabled → y = (x.tcLeave n .disabled).vbusOff n →
    exec (.tcEnableWrite n 0) s = .next (s.after ((if (y.fuse (n + 1)).state = .backoff then y.modFuse (n + 1) (fun f => { f with state := .off }) else y).pd n "CC_open" []))) ∧
  (∀ (s : State) (n c1 c2 : Nat), (s.hub.tcp n).state = .unattached → c1 = 1 ∨ c1 = 2 ∨ c2 = 1 ∨ c2 = 2 → s.hub.pw.state = .run ∨ (s.hub.tcp n).wakes = true →
    exec (.tcTermination n c1 c2) s = .next (s.after (((s.hub.modTc n (fun t => { t with cc1 := c1, cc2 := c2 })).modTc n (fun t => { t with state := .attachWait, since := s.hub.clk.up })).wakeEvent 5))) ∧
  (∀ (s : State) (n c1 c2 : Nat), (s.hub.tcp n).state = .attachWait → c1 ≠ 1 ∧ c1 ≠ 2 ∧ c2 ≠ 1 ∧ c2 ≠ 2 →
    exec (.tcTermination n c1 c2) s = .next (s.after ((s.hub.modTc n (fun t => { t with cc1 := c1, cc2 := c2 })).modTc n (fun t => { t with state := .unattached, since := s.hub.clk.up })))) ∧
  (∀ (s : State) (n : Nat) (cable : Bool) (x : Hub), (s.hub.tcp n).state = .attachWait → ((s.hub.tcp n).cc1, (s.hub.tcp n).cc2) = (if cable then (1, 2) else (1, 0)) → x = (s.hub.until ((s.hub.tcp n).since + ms 150)).safe5 n →
    exec (.tcDebounceDone n) s = .next (s.after ((((x.modTc n (fun t => { t with state := .attachedSrc, since := x.clk.up, flip := t.cc2 == 1, vconn := cable, dfp := true, snk := false, term := b2n cable, vbus := true, cableMa := 3000, cableEpr := false })).bump P.TC_ATTACHES n).vbusLevel n).tcAttach n 1 0 (b2n cable)))) ∧
  (∀ (s : State) (n term : Nat) (x y : Hub), (s.hub.tcp n).state = .attachWait → ((s.hub.tcp n).cc1, (s.hub.tcp n).cc2) = (1, 1) → x = s.hub.until ((s.hub.tcp n).since + ms 150) → term = (if x.debugAllowed then 3 else 4) → y = x.modTc n (fun t => { t with state := .accessory, since := x.clk.up, term := term, vbus := term == 3 }) →
    exec (.tcDebounceDone n) s = .next (s.after (((if term = 3 then ((y.safe5 n).vbusLevel n).pd n "Debug_port_on_SBU" [] else y).bump P.TC_ATTACHES n).tcAttach n 1 0 term))) ∧
  (∀ (s : State) (n : Nat), (s.hub.tcp n).state = .attachWait → ((s.hub.tcp n).cc1, (s.hub.tcp n).cc2) = (0, 0) →
    exec (.tcDebounceDone n) s = .next (s.after ((s.hub.until ((s.hub.tcp n).since + ms 150)).modTc n (fun t => { t with state := .unattached })))) ∧
  (∀ (s : State) (n : Nat), (s.hub.tcp n).state = .attachedSrc → (s.hub.tcp n).high = false → (s.hub.tcp n).openAt = none →
    exec (.tcCcOpen n) s = .next (s.after (s.hub.modTc n (fun t => { t with openAt := some s.hub.clk.up })))) ∧
  (∀ (s : State) (n : Nat), (s.hub.tcp n).state = .attachedSrc → (s.hub.tcp n).high = true →
    exec (.tcCcOpen n) s = .next (s.after (((((if (s.hub.fuse (n + 1)).state.gate then s.hub.fuseGateLow (n + 1) .off else s.hub).converter n 5000).out (.power "FU_DIS" [n + 1])).bump P.TC_DETACH_TRANSITION n).tcDetach n 2 .unattached))) ∧
  (∀ (s : State) (n t : Nat), (s.hub.tcp n).openAt = some t → (s.hub.tcp n).state = .attachedSrc →
    exec (.tcPdDebounceDone n) s = .next (s.after ((s.hub.until (t + ms 15)).tcDetach n 0 .unattached))) ∧
  (∀ (s : State) (n : Nat),
    exec (.tcVsafe0 n) s = .next (s.after ((s.hub.modTc n (fun t => { t with dis := false, since := if t.recover then s.hub.clk.up else t.since })).vbusLevel n))) ∧
  (∀ (s : State) (n : Nat), (s.hub.tcp n).state = .errorRecovery → (s.hub.fuse (n + 1)).state = .off →
    exec (.tcErrorRecoveryEnd n) s = .next (s.after (((s.hub.until ((s.hub.tcp n).since + ms 25)).modTc n (fun t => { t with state := .unattached })).pd n "Rp" []))) ∧
  (∀ (s : State) (n : Nat), (s.hub.tcp n).state = .errorRecovery → (s.hub.fuse (n + 1)).state ≠ .off →
    exec (.tcErrorRecoveryEnd n) s = .next (s.after (s.hub))) ∧
  (∀ (s : State) (n : Nat), (s.hub.tcp n).state = .attachedSnk →
    exec (.tcSinkDisconnect n) s = .next (s.after ((s.hub.tcDetach n 0 .unattached).pd n "Rp" []))) ∧
  (∀ (s : State) (n : Nat) (x : Hub), (s.hub.tcp n).vconn = true → x = ((s.hub.modTc n (fun t => { t with vconn := false, vFault := true, cableMa := 3000, cableEpr := false })).bump P.TC_VCONN_TRIP n).event .tcVconnFault [(0, 1, n)] →
    exec (.tcVconnFault n) s = .next (s.after (if (x.tcp n).offer.isEmpty && (x.fuse (n + 1)).state == .on then x.tcVbusUp n else x))) ∧
  (∀ (s : State) (n : Nat), (s.hub.tcp n).vconn = false →
    exec (.tcVconnFault n) s = .next (s.after (s.hub)))

/-- PD messages and timers act as R310 and R318 to R325 say. Where the rules leave a point open it states the model's choice: log entries 2, 138, 169. -/
def Obligations.PowerDeliveryFollowsItsRules : Prop :=
  (∀ (h : Hub) (n : Nat), (h.tcp n).swap ≠ 2 → (h.tcp n).swap ≠ 3 → (h.tcp n).swap ≠ 1 ∨ (h.tcp n).asked = false → h.tcAnswered n = h ∧ h.tcSwapped n = h) ∧
  (∀ (h : Hub) (n : Nat), (h.tcp n).swap = 1 → (h.tcp n).asked = true → h.tcAnswered n = h.modTc n (fun t => { t with swap := 0, asked := false })) ∧
  (∀ (s : State) (n : Nat) (y : Hub) (pos mA i mv top : Nat), y = s.hub.tcAnswered n → y.pdWorks = true → (y.tcp n).state = .attachedSrc → (y.tcp n).recover = false → (y.tcp n).offer.find? (fun x => x.1 == pos) = some (i, mv, top) → mA ≤ top →
    exec (.tcRequestRx n pos mA) s = .next (s.after (((((y.modTc n (fun t => { t with next := some (mv, mA), offerAt := none })).setBase (n + 1) (mA * 110 / 100)).pd n "Accept" []).converter n mv)))) ∧
  (∀ (s : State) (n : Nat) (y : Hub) (pos mA : Nat), y = s.hub.tcAnswered n → y.pdWorks = true → (y.tcp n).state = .attachedSrc → (y.tcp n).recover = false → (y.tcp n).offer.find? (fun x => x.1 == pos) = none →
    exec (.tcRequestRx n pos mA) s = .next (s.after (y.pd n "Reject" []))) ∧
  (∀ (s : State) (n : Nat) (y : Hub) (pos mA i mv top : Nat), y = s.hub.tcAnswered n → y.pdWorks = true → (y.tcp n).state = .attachedSrc → (y.tcp n).recover = false → (y.tcp n).offer.find? (fun x => x.1 == pos) = some (i, mv, top) → top < mA →
    exec (.tcRequestRx n pos mA) s = .next (s.after (y.pd n "Reject" []))) ∧
  (∀ (s : State) (n mv ma : Nat), (s.hub.tcp n).next = some (mv, ma) → (s.hub.tcp n).state = .attachedSrc →
    exec (.tcPowerGood n) s = .next (s.after (((((s.hub.modTc n (fun t => { t with next := none, mv := mv, ma := ma })).pd n "PS_RDY" []).event .tcContract [(0, 1, n), (1, 1, 0), (2, 1, b2n (s.hub.tcp n).epr), (4, 4, mv), (8, 4, ma)]).altStart n)))) ∧
  (∀ (s : State) (n : Nat) (y : Hub) (pdp : Nat), y = s.hub.tcAnswered n → y.pdWorks = true → (y.tcp n).state = .attachedSrc → y.eprAllowed n = true →
    exec (.tcEprEnterRx n pdp) s = .next (s.after (((y.modTc n (fun t => { t with epr := true })).pd n "EPR_Mode_Enter_Succeeded" []).tcOffer n))) ∧
  (∀ (s : State) (n : Nat) (y : Hub) (pdp : Nat), y = s.hub.tcAnswered n → y.pdWorks = true → (y.tcp n).state = .attachedSrc → y.eprAllowed n = false →
    exec (.tcEprEnterRx n pdp) s = .next (s.after (y.pd n "EPR_Mode_Enter_Failed" []))) ∧
  (∀ (s : State) (n : Nat) (y : Hub), y = s.hub.tcAnswered n → y.pdWorks = true → (y.tcp n).state = .attachedSrc → y.pget P.TC_SINK_ALLOW n = 1 →
    exec (.tcPrSwapRx n) s = .next (s.after ((((y.modTc n (fun t => { t with swap := 1, asked := false, offerAt := none })).pd n "Accept" []).vbusOff n).pd n "PS_RDY" []))) ∧
  (∀ (s : State) (n : Nat) (y : Hub), y = s.hub.tcAnswered n → y.pdWorks = true → (y.tcp n).state = .attachedSrc → y.pget P.TC_SINK_ALLOW n ≠ 1 →
    exec (.tcPrSwapRx n) s = .next (s.after (y.pd n "Reject" []))) ∧
  (∀ (s : State) (n : Nat) (y : Hub), y = s.hub.tcAnswered n → y.pdWorks = true → (y.tcp n).attached = true → y.pget P.TC_DR_SWAP_ALLOW n = 1 →
    exec (.tcDrSwapRx n) s = .next (s.after (((((y.altExit n true).pd n "Accept" []).usbDetach n).modTc n (fun t => { t with dfp := !t.dfp })).altStart n))) ∧
  (∀ (s : State) (n : Nat) (y : Hub), y = s.hub.tcAnswered n → y.pdWorks = true → (y.tcp n).attached = true → y.pget P.TC_DR_SWAP_ALLOW n ≠ 1 →
    exec (.tcDrSwapRx n) s = .next (s.after (y.pd n "Reject" []))) ∧
  (∀ (s : State) (n : Nat) (y : Hub), y = s.hub.tcAnswered n → y.pdWorks = true → (y.tcp n).attached = true →
    exec (.tcVconnSwapRx n) s = .next (s.after ((y.pd n "Accept" []).modTc n (fun t => { t with vconn := !t.vconn })))) ∧
  (∀ (s : State) (n : Nat), (s.hub.tcp n).attached = false →
    exec (.tcHardResetRx n) s = .next (s.after (s.hub))) ∧
  (∀ (s : State) (n : Nat) (x : Hub), (s.hub.tcp n).state = .attachedSrc → s.hub.pdWorks = true → (s.hub.tcp n).swap = 0 → x = (s.hub.altExit n true).vbusOff n →
    exec (.tcHardResetRx n) s = .next (s.after (((((x.modTc n (fun t => { t.void with state := .attachedSrc, dfp := true, swap := 0, asked := false, recover := true, since := x.clk.up, dis := t.dis, snkEn := false })).usbDetach n).bump P.TC_HARD_RESETS n).event .tcHardReset [(0, 1, n), (1, 1, 0), (2, 1, 0)])))) ∧
  (∀ (s : State) (n : Nat), (s.hub.tcp n).due = true → (s.hub.tcp n).state = .attachedSrc → s.hub.pdWorks = true → (s.hub.tcp n).swap = 0 → (s.hub.tcp n).recover = false → (s.hub.tcp n).next = none → (s.hub.tcp n).offer ≠ [] → (s.hub.tcp n).epr = false →
    exec (.tcReoffer n) s = .next (s.after (s.hub.tcOffer n))) ∧
  (∀ (s : State) (n : Nat), (s.hub.tcp n).due = true → (s.hub.tcp n).state = .attachedSrc → s.hub.pdWorks = true → (s.hub.tcp n).swap = 0 → (s.hub.tcp n).recover = false → (s.hub.tcp n).next = none → (s.hub.tcp n).offer ≠ [] → (s.hub.tcp n).epr = true → s.hub.eprAllowed n = false →
    exec (.tcReoffer n) s = .next (s.after (((s.hub.modTc n (fun t => { t with epr := false })).pd n "EPR_Mode_Exit" []).tcOffer n))) ∧
  (∀ (s : State) (n : Nat), (s.hub.tcp n).due = false →
    exec (.tcReoffer n) s = .next (s.after (s.hub))) ∧
  (∀ (s : State) (n t : Nat), (s.hub.tcp n).offerAt = some t →
    exec (.tcSenderResponseTimeout n) s = .next (s.after ((s.hub.until (t + ms 30)).tcHardReset n true))) ∧
  (∀ (s : State) (n : Nat), (s.hub.tcp n).recover = true → (s.hub.tcp n).dis = false →
    exec (.tSrcRecoverEnd n) s = .next (s.after ((((s.hub.until ((s.hub.tcp n).since + ms 700)).safe5 n).modTc n (fun t => { t with recover := false, vbus := true })).vbusLevel n))) ∧
  (∀ (s : State) (n : Nat) (y : Hub) (pd : List (Nat × Nat)) (w : Nat) (b c : Nat × Nat), y = s.hub.tcAnswered n → y.pdWorks = true → (y.tcp n).state = .attachedSnk → w = y.pget P.TC_SINK_MAX_CURRENT n → b = (pd.filter (fun x => x.1 ≤ 20000 && w ≤ x.2)).foldl (fun (a : Nat × Nat) x => if a.1 ≤ x.1 then (x.1, w) else a) (0, 0) → c = (if b.1 ≠ 0 then b else (5000, min w (((pd.find? (fun x => x.1 == 5000)).map (·.2)).getD 0))) →
    exec (.sourceCapabilitiesRx n ⟨pd⟩) s = .next (s.after ((y.modTc n (fun t => { t with next := some c })).pd n "Request" [c.1, c.2]))) ∧
  (∀ (s : State) (n mv ma : Nat) (y : Hub), y = s.hub.tcSwapped n → y.pdWorks = true → (y.tcp n).state = .attachedSnk → (y.tcp n).swap = 0 → (y.tcp n).next = some (mv, ma) →
    exec (.psRdyRx n) s = .next (s.after (((y.modTc n (fun t => { t with next := none, mv := mv, ma := ma, snkEn := true })).pd n "SNK_EN" [1]).event .tcContract [(0, 1, n), (1, 1, 1), (2, 1, 0), (4, 4, mv), (8, 4, ma)]))) ∧
  (∀ (s : State) (n : Nat) (y x : Hub), y = s.hub.tcSwapped n → y.pdWorks = true → (y.tcp n).state = .attachedSrc → (y.tcp n).swap = 1 → x = (if (y.tcp n).vbus then (y.vbusOff n).pd n "PS_RDY" [] else y) →
    exec (.psRdyRx n) s = .next (s.after (((x.modTc n (fun t => { t.void with state := .attachedSnk, swap := 0, asked := false, snkEn := true })).pd n "Rd" []).pd n "SNK_EN" [1]))) ∧
  (∀ (s : State) (n : Nat) (y : Hub), y = s.hub.tcAnswered n → y.pdWorks = true → (y.tcp n).epr = true →
    exec (.eprKeepaliveRx n) s = .next (s.after (y.pd n "EPR_KeepAlive_Ack" []))) ∧
  (∀ (s : State) (n : Nat) (y : Hub), y = s.hub.tcAnswered n → y.pdWorks = true → (y.tcp n).attached = true →
    exec (.unsupportedPdMessageRx n 8) s = .next (s.after (y.pd n "Sink_Capabilities" (y.sinkCaps n)))) ∧
  (∀ (s : State) (n : Nat) (y : Hub) (msg : Nat), y = s.hub.tcAnswered n → y.pdWorks = true → (y.tcp n).attached = true → msg ≠ 8 →
    exec (.unsupportedPdMessageRx n msg) s = .next (s.after (y.pd n "Not_Supported" [msg]))) ∧
  (∀ (s : State) (n : Nat), (s.hub.tcp n).altStep = 6 → s.hub.altAllowed n = true → (s.hub.tcp n).hpd = false →
    exec (.tcAltMode n true) s = .next (s.after (((s.hub.usbDetach n).modTc n (fun t => { t with alt := t.altPin, altStep := 0 })).event .tcAltMode [(0, 1, n), (1, 1, 1), (2, 1, (s.hub.tcp n).altPin)]))) ∧
  (∀ (s : State) (n : Nat), (s.hub.tcp n).altStep = 6 → s.hub.altAllowed n = true → (s.hub.tcp n).hpd = true →
    exec (.tcAltMode n true) s = .next (s.after ((((s.hub.usbDetach n).modTc n (fun t => { t with alt := t.altPin, altStep := 0 })).event .tcAltMode [(0, 1, n), (1, 1, 1), (2, 1, (s.hub.tcp n).altPin)]).hpdOut n))) ∧
  (∀ (s : State) (n : Nat), (s.hub.tcp n).altStep = 6 → s.hub.altAllowed n = true →
    exec (.tcAltMode n false) s = .next (s.after ((s.hub.modTc n (fun t => { t with altStep := 0 })).event .tcAltMode [(0, 1, n), (1, 1, 2), (2, 1, (s.hub.tcp n).altPin)]))) ∧
  (∀ (s : State) (n : Nat) (y : Hub) (v : Vdm), y = s.hub.tcAnswered n → y.pdWorks = true → (y.tcp n).state = .attachedSrc → (y.tcp n).vconn = true → (y.tcp n).vFault = false → v.step = 1 →
    exec (.structuredVdmResponseRx n v) s = .next (s.after ((y.modTc n (fun t => { t with cableMa := if v.ack && 5000 ≤ v.cableMa then 5000 else 3000, cableEpr := v.ack && 5000 ≤ v.cableMa && v.epr })).tcOffer n))) ∧
  (∀ (s : State) (n : Nat) (y : Hub) (v : Vdm), y = s.hub.tcAnswered n → y.pdWorks = true → y.altAllowed n = true → (y.tcp n).attached = true → v.step = 4 → (y.tcp n).altStep = 4 → v.ack = true →
    exec (.structuredVdmResponseRx n v) s = .next (s.after ((y.modTc n (fun t => { t with altStep := 5 })).pd n "DisplayPort_Status" []))) ∧
  (∀ (s : State) (n : Nat) (y : Hub) (v : Vdm), y = s.hub.tcAnswered n → y.pdWorks = true → y.altAllowed n = true → (y.tcp n).attached = true → v.step = 5 → (y.tcp n).altStep = 5 →
    exec (.structuredVdmResponseRx n v) s = .next (s.after ((y.modTc n (fun t => { t with altStep := 6, hpd := v.ack && v.hpd })).pd n "DisplayPort_Configure" [(y.tcp n).altPin]))) ∧
  (∀ (s : State) (n : Nat) (hpd : Bool) (x : Hub), x = s.hub.tcAttention n hpd →
    exec (.tcAttentionRx n hpd false) s = .next (s.after (x)))

/-- TC_PORT_CONTROL and TC_PORT_STATUS act as R326 says. -/
def Obligations.TypeCCommandsAct : Prop :=
  (∀ (s : State) (q : Req) (a : Hub) (n : Nat), s.hub.asks (force q 1 1) 0x0C02 = true → a = s.hub.asked (force q 1 1) 0x0C02 → q.payload.length = 4 → n = le q.payload 0 1 → le q.payload 2 2 = 0 → n ≤ 3 → (a.tcp n).attached = true → a.pdWorks = true →
    exec (.tcSendHardReset q) s = .next (s.after (s.hub.answered (force q 1 1) 0x0C02 (a.tcHardReset n true) (.ok [])))) ∧
  (∀ (s : State) (q : Req) (a : Hub) (n : Nat), s.hub.asks (force q 1 2) 0x0C02 = true → a = s.hub.asked (force q 1 2) 0x0C02 → q.payload.length = 4 → n = le q.payload 0 1 → le q.payload 2 2 = 0 → n ≤ 3 → (a.tcp n).attached = true → a.pdWorks = true → (a.tcp n).swap = 0 → (a.tcp n).recover = false → (a.tcp n).next = none → (a.tcp n).state ≠ .attachedSnk ∨ (a.tcp n).snk = false →
    exec (.tcRequestPrSwap q) s = .next (s.after (s.hub.answered (force q 1 2) 0x0C02 ((a.modTc n (fun t => { t with swap := 1, asked := true, offerAt := none })).pd n "PR_Swap" []) (.ok [])))) ∧
  (∀ (s : State) (q : Req) (a : Hub) (n : Nat), s.hub.asks (force q 1 3) 0x0C02 = true → a = s.hub.asked (force q 1 3) 0x0C02 → q.payload.length = 4 → n = le q.payload 0 1 → le q.payload 2 2 = 0 → n ≤ 3 → (a.tcp n).attached = true → a.pdWorks = true → (a.tcp n).swap = 0 → (a.tcp n).recover = false → (a.tcp n).next = none →
    exec (.tcRequestDrSwap q) s = .next (s.after (s.hub.answered (force q 1 3) 0x0C02 (((a.altExit n true).modTc n (fun t => { t with swap := 2, asked := true })).pd n "DR_Swap" []) (.ok [])))) ∧
  (∀ (s : State) (q : Req) (a : Hub) (n : Nat), s.hub.asks (force q 1 4) 0x0C02 = true → a = s.hub.asked (force q 1 4) 0x0C02 → q.payload.length = 4 → n = le q.payload 0 1 → le q.payload 2 2 = 0 → n ≤ 3 → (a.tcp n).attached = true → a.pdWorks = true → (a.tcp n).swap = 0 → (a.tcp n).recover = false → (a.tcp n).next = none →
    exec (.tcRequestVconnSwap q) s = .next (s.after (s.hub.answered (force q 1 4) 0x0C02 ((a.modTc n (fun t => { t with swap := 3, asked := true })).pd n "VCONN_Swap" []) (.ok [])))) ∧
  (∀ (s : State) (q : Req) (a : Hub) (n : Nat), s.hub.asks (force q 1 5) 0x0C02 = true → a = s.hub.asked (force q 1 5) 0x0C02 → q.payload.length = 4 → n = le q.payload 0 1 → le q.payload 2 2 = 0 → n ≤ 3 → (a.tcp n).attached = true → a.pdWorks = true → (a.tcp n).swap = 0 → (a.tcp n).recover = false → (a.tcp n).next = none → (a.tcp n).state = .attachedSrc → (a.tcp n).offer ≠ [] → (a.tcp n).epr = false →
    exec (.tcReofferCapabilities q) s = .next (s.after (s.hub.answered (force q 1 5) 0x0C02 (a.tcOffer n) (.ok [])))) ∧
  (∀ (s : State) (q : Req) (a : Hub) (n : Nat), s.hub.asks (force q 1 6) 0x0C02 = true → a = s.hub.asked (force q 1 6) 0x0C02 → q.payload.length = 4 → n = le q.payload 0 1 → le q.payload 2 2 = 0 → n ≤ 3 → (a.tcp n).attached = true → a.pdWorks = true → (a.tcp n).swap = 0 → (a.tcp n).recover = false → (a.tcp n).next = none → (a.tcp n).alt ≠ 0 →
    exec (.tcExitAltMode q) s = .next (s.after (s.hub.answered (force q 1 6) 0x0C02 (a.altExit n true) (.ok [])))) ∧
  (∀ (s : State) (q : Req) (a : Hub) (n : Nat), s.hub.asks (force q 1 6) 0x0C02 = true → a = s.hub.asked (force q 1 6) 0x0C02 → q.payload.length = 4 → n = le q.payload 0 1 → le q.payload 2 2 = 0 → n ≤ 3 → (a.tcp n).attached = true → a.pdWorks = true → (a.tcp n).swap = 0 → (a.tcp n).recover = false → (a.tcp n).next = none → (a.tcp n).alt = 0 →
    exec (.tcExitAltMode q) s = .next (s.after (s.hub.answered (force q 1 6) 0x0C02 (a) (.err .conflict)))) ∧
  (∀ (s : State) (q : Req) (a : Hub) (n : Nat), s.hub.asks (force q 1 2) 0x0C02 = true → a = s.hub.asked (force q 1 2) 0x0C02 → q.payload.length = 4 → n = le q.payload 0 1 → le q.payload 2 2 = 0 → n ≤ 3 → (a.tcp n).attached = false ∨ (a.tcp n).swap ≠ 0 →
    exec (.tcRequestPrSwap q) s = .next (s.after (s.hub.answered (force q 1 2) 0x0C02 (a) (.err .conflict)))) ∧
  (∀ (s : State) (q : Req) (a : Hub) (n : Nat), s.hub.asks q 0x0C03 = true → a = s.hub.asked q 0x0C03 → q.payload.length = 1 → n = le q.payload 0 1 → n ≤ 3 →
    exec (.tcPortStatus q) s = .next (s.after (s.hub.answered q 0x0C03 (a) (.ok (leBytes 4 (a.tcp n).word ++ leBytes 8 (a.tcp n).contract ++ leBytes 2 (a.tcp n).cableMa ++ leBytes 2 0)))))

/-- Line packets open, fill and end frames as R330 to R335 say. Where the rules leave a point open it states the model's choice: log entries 20, 58, 59. -/
def Obligations.LinePacketsFillFrameStores : Prop :=
  (∀ (s : State) (f : Frame) (d : Nat) (x : Hub), d = (s.hub.tun f.entry).binding % 2 → x = s.hub.takeFrame 6 f → x.works 9 = false →
    exec (.dsLinePacket f) s = .next (s.after (if x.al.gov.level = 3 then x.bump P.AL_GOV_DROP 6 else x))) ∧
  (∀ (s : State) (f : Frame) (d : Nat) (x : Hub), d = (s.hub.tun f.entry).binding % 2 → x = s.hub.takeFrame 6 f → x.works 9 = true → d = 1 → x.clone = true →
    exec (.dsLinePacket f) s = .next (s.after (x.bump P.DS_CLONE_DROP 0))) ∧
  (∀ (s : State) (f : Frame) (d : Nat) (x : Hub) (fr : Nat), d = (s.hub.tun f.entry).binding % 2 → x = s.hub.takeFrame 6 f → x.works 9 = true → (decide (d = 1) && x.clone) = false → fr = be f.bytes 2 2 → packetGood f.bytes = false →
    exec (.dsLinePacket f) s = .next (s.after (((x.modHead d (fun y => { y with last := some fr })).modHead d (fun y => { y with opened := none })).bump P.DS_FORMAT_ERR d))) ∧
  (∀ (s : State) (f : Frame) (d : Nat) (x : Hub) (fr : Nat) (o : DsOpen), d = (s.hub.tun f.entry).binding % 2 → x = s.hub.takeFrame 6 f → x.works 9 = true → (decide (d = 1) && x.clone) = false → fr = be f.bytes 2 2 → packetGood f.bytes = true → (x.head d).opened = some o → (x.head d).last = some fr → o.line = be f.bytes 4 2 → byteAt f.bytes 0 / 16 ≠ 2 →
    exec (.dsLinePacket f) s = .next (s.after (x.dsLine d o f.bytes))) ∧
  (∀ (s : State) (f : Frame) (d : Nat) (x : Hub) (fr : Nat) (y : Hub) (o : DsOpen), d = (s.hub.tun f.entry).binding % 2 → x = s.hub.takeFrame 6 f → x.works 9 = true → (decide (d = 1) && x.clone) = false → fr = be f.bytes 2 2 → packetGood f.bytes = true → byteAt f.bytes 0 / 16 ≠ 2 → (x.head d).opened = none → be f.bytes 4 2 = 0 → (x.head d).last ≠ some fr → y = x.dsOpen d f.bytes (((x.head d).pps.find? (fun e => e.1 == byteAt f.bytes 8 && ppsGood e.2 (x.geometry d))).map (·.2) |>.getD []) → (y.head d).opened = some o → o.line = 0 →
    exec (.dsLinePacket f) s = .next (s.after (y.dsLine d o f.bytes))) ∧
  (∀ (s : State) (f : Frame) (d : Nat) (x : Hub) (fr : Nat) (y : Hub), d = (s.hub.tun f.entry).binding % 2 → x = s.hub.takeFrame 6 f → x.works 9 = true → (decide (d = 1) && x.clone) = false → fr = be f.bytes 2 2 → packetGood f.bytes = true → byteAt f.bytes 0 / 16 ≠ 2 → (x.head d).opened = none → be f.bytes 4 2 = 0 → (x.head d).last ≠ some fr → y = x.dsOpen d f.bytes (((x.head d).pps.find? (fun e => e.1 == byteAt f.bytes 8 && ppsGood e.2 (x.geometry d))).map (·.2) |>.getD []) → (y.head d).opened = none →
    exec (.dsLinePacket f) s = .next (s.after (y))) ∧
  (∀ (h : Hub) (d : Nat) (b pps : List Byte) (x : Hub), x = h.modHead d (fun y => { y with last := some (be b 2 2) }) → x.freeBuf d = none → h.dsOpen d b pps = x.bump P.DS_FRAME_SKIP d) ∧
  (∀ (h : Hub) (d k : Nat) (b pps : List Byte) (x : Hub), x = h.modHead d (fun y => { y with last := some (be b 2 2) }) → x.freeBuf d = some k →
    h.dsOpen d b pps = x.modHead d (fun y => { y with opened := some ⟨k, 0, pps, []⟩, bufs := modAt y.bufs k (fun _ => ⟨be b 2 2, bit (byteAt b 1) 0, (h.geometry d).1, (h.geometry d).2, false, []⟩) })) ∧
  (∀ (h : Hub) (d y : Nat) (o : DsOpen) (b : List Byte) (q : DsBuf), q = nth (h.head d).bufs o.buf DsBuf.reset → y = be b 4 2 → (q.w < be b 6 2 ∨ q.h ≤ y) →
    h.dsLine d o b = (h.modHead d (fun x => { x with opened := none })).bump P.DS_GEOMETRY_DROP d) ∧
  (∀ (h : Hub) (d y : Nat) (o : DsOpen) (b : List Byte) (q : DsBuf), q = nth (h.head d).bufs o.buf DsBuf.reset → y = be b 4 2 → be b 6 2 ≤ q.w → y < q.h → packetLength b o.pps = true →
    byteAt b 0 / 16 = 0 → bit (byteAt b 1) 1 = false →
    h.dsLine d o b = ({ h with dram := writeMem h.dram (pixelAt d o.buf q.w q.h 0 y) ((rgb8 (be b 6 2) (b.drop 16)).flatMap (leBytes 4)) } : Hub).modHead d (fun x => { x with opened := some { o with line := y + 1, lines := [] } })) ∧
  (∀ (h : Hub) (d y : Nat) (o : DsOpen) (b : List Byte) (q : DsBuf) (x : Hub), q = nth (h.head d).bufs o.buf DsBuf.reset → y = be b 4 2 → be b 6 2 ≤ q.w → y + 1 = q.h → packetLength b o.pps = true →
    byteAt b 0 / 16 = 0 → bit (byteAt b 1) 1 = true → x = { h with dram := writeMem h.dram (pixelAt d o.buf q.w q.h 0 y) ((rgb8 (be b 6 2) (b.drop 16)).flatMap (leBytes 4)) } → (x.head d).newest = none →
    h.dsLine d o b = (x.modHead d (fun z => { z with opened := none, newest := some o.buf, bufs := modAt z.bufs o.buf (fun q => { q with done := true }) })).bump P.DS_FRAMES_IN d) ∧
  (∀ (s : State) (i d : Nat) (c : Cell) (x : Hub), d = (s.hub.tun i).binding % 2 → x = s.hub.takeFrame 6 ⟨i, (s.hub.tun i).peer, true, c.payload⟩ → x.works 9 = true → byteAt c.payload 0 = 0x10 → c.payload.length = 140 → allZero (slice (c.payload.drop 8) 1 3) = true → ppsGood ((c.payload.drop 8).drop 4) (x.geometry d) = true →
    exec (.dsPpsRx i c) s = .next (s.after (x.modHead d (fun y => { y with pps := keep 4 ((byteAt (c.payload.drop 8) 0, (c.payload.drop 8).drop 4) :: y.pps.filter (fun e => e.1 != byteAt (c.payload.drop 8) 0)) })))) ∧
  (∀ (s : State) (i d : Nat) (c : Cell) (x : Hub), d = (s.hub.tun i).binding % 2 → x = s.hub.takeFrame 6 ⟨i, (s.hub.tun i).peer, true, c.payload⟩ → x.works 9 = true → byteAt c.payload 0 = 0x10 → c.payload.length = 140 → allZero (slice (c.payload.drop 8) 1 3) = true → ppsGood ((c.payload.drop 8).drop 4) (x.geometry d) = false →
    exec (.dsPpsRx i c) s = .next (s.after ((x.modHead d (fun y => { y with pps := y.pps.filter (fun e => e.1 != byteAt (c.payload.drop 8) 0) })).bump P.DS_FORMAT_ERR d))) ∧
  (∀ (s : State) (i d : Nat) (c : Cell) (x : Hub), d = (s.hub.tun i).binding % 2 → x = s.hub.takeFrame 6 ⟨i, (s.hub.tun i).peer, true, c.payload⟩ → x.works 9 = true → byteAt c.payload 0 ≠ 0x10 ∨ c.payload.length ≠ 140 →
    exec (.dsPpsRx i c) s = .next (s.after (x.bump P.DS_FORMAT_ERR d)))

/-- Frame boundaries, links, routes and display requests act as R328, R329 and R337 to R342 say. Where the rules leave a point open it states the model's choice: log entries 7, 21, 60. -/
def Obligations.HeadsScanAndAlarm : Prop :=
  (∀ (s : State) (d : Nat) (x y z : Hub), z = s.hub.scanEnd d → z.pget P.DS_ROUTE d = z.routeOf d → x = z.dsCarry d → x.routeOf d ≠ 0 → (x.head d).up = true → (x.head d).video = true → x.dsOutput d = true → y = x.modHead d (fun z => { z with half := x.wantHalf d }) →
    exec (.dsFrameBoundary d) s = .next (s.after ((((y.scanStart d).frozenStep d).starvedStep d).showScan d))) ∧
  (∀ (s : State) (d : Nat) (x z : Hub), z = s.hub.scanEnd d → x = (if z.pget P.DS_ROUTE d = z.routeOf d then z else (z.modHead d (fun y => { y with scan := none })).dsRouted d).dsCarry d → x.routeOf d = 0 ∨ (x.head d).up = false →
    exec (.dsFrameBoundary d) s = .next (s.after (x.dsStill d))) ∧
  (∀ (h : Hub) (d : Nat), h.dsStill d = ((h.modHead d (fun x => { x with scan := none, under := [], same := 0, stale := 0 })).frozenStep d).starvedStep d) ∧
  (∀ (h : Hub) (d : Nat), (h.head d).up = true → (h.head d).video = true → h.dsFits d = false →
    h.dsCarry d = ((h.modHead d (fun x => { x with video := false })).dsStill d).dsLink d 0 2) ∧
  (∀ (h : Hub) (d g old : Nat) (sc : DsScan), (h.head d).scan = some sc → g = h.signature d sc → (h.head d).sig = some old →
    h.scanEnd d = h.modHead d (fun x => { x with
      sig := some g, scans := (x.scans + 1) % 2 ^ 32, at_ := h.clk.ns, frame := sc.frame,
      same := if old ≠ g then 0 else if sc.fresh then min 255 ((h.head d).same + 1) else (h.head d).same, under := [] })) ∧
  (∀ (h : Hub) (d : Nat), (h.head (h.storeOf d)).newest = none →
    h.scanStart d = (h.modHead d (fun x => { x with scan := some ⟨h.storeOf d, none, 0, false, (h.activeSize d).1, (h.activeSize d).2,
      h.pget P.DS_WATCH_ORIGIN d, h.pget P.DS_WATCH_SIZE d, h.pget P.DS_FALLBACK_COLOUR d, h.pget P.DS_PATTERN d⟩, stale := min 255 (x.stale + 1) }))) ∧
  (∀ (h : Hub) (d : Nat), (h.head d).frozen = false → h.pget P.DS_FREEZE_N d ≤ (h.head d).same →
    h.frozenStep d = ((h.modHead d (fun x => { x with frozen := true })).bump P.DS_FROZEN_COUNT d).dsAlarm d P.DS_FREEZE_ACTION true) ∧
  (∀ (h : Hub) (d : Nat), (h.head d).starved = true → (h.head d).stale = 0 → bit (h.pget P.DS_ALARM_LATCH d) 1 = false →
    h.starvedStep d = (h.modHead d (fun x => { x with starved := false })).dsAlarm d P.DS_STARVE_ACTION false) ∧
  (∀ (s : State) (d line px : Nat) (sc : DsScan) (x : Hub), (s.hub.head d).scan = some sc → x = (s.hub.modHead d (fun y => { y with under := y.under ++ [(line, px)], recent := s.hub.clk.up :: y.recent.filter (fun t => s.hub.clk.up < t + ms 1000) })).bump P.DS_UNDERRUN d → (x.head d).toldAt = 0 →
    exec (.dsUnderrun d line px) s = .next (s.after ((x.modHead d (fun y => { y with toldAt := s.hub.clk.up + 1 })).event .dsUnderrunEvt [(0, 1, d), (2, 2, line), (4, 4, (x.head d).recent.length)]))) ∧
  (∀ (s : State) (d line px : Nat) (sc : DsScan) (x : Hub), (s.hub.head d).scan = some sc → x = (s.hub.modHead d (fun y => { y with under := y.under ++ [(line, px)], recent := s.hub.clk.up :: y.recent.filter (fun t => s.hub.clk.up < t + ms 1000) })).bump P.DS_UNDERRUN d → (x.head d).toldAt ≠ 0 → s.hub.clk.up < (x.head d).toldAt - 1 + ms 1000 →
    exec (.dsUnderrun d line px) s = .next (s.after (x))) ∧
  (∀ (s : State) (d l r : Nat) (irq : Bool), s.hub.dsOutput d = false →
    exec (.dsHpd d irq l r) s = .next (s.after (s.hub))) ∧
  (∀ (s : State) (d l r : Nat) (irq : Bool), s.hub.dsOutput d = true → l = 0 ∨ r = 0 →
    exec (.dsHpd d irq l r) s = .next (s.after (((s.hub.modHead d (fun x => { x with up := false, video := false, lanes := 0, rate := 0 })).dsStill d).dsLink d 0 1))) ∧
  (∀ (s : State) (d r n : Nat) (irq : Bool) (x : Hub), s.hub.dsOutput d = true → n = min r (bits (s.hub.pget P.DS_LINK_MAX d) 0 4) → 4 ≤ s.hub.dsLanes d → 1 ≤ n → x = s.hub.modHead d (fun y => { y with up := true, lanes := 4, rate := n }) → x.dsFits d = true →
    exec (.dsHpd d irq 4 r) s = .next (s.after ((x.modHead d (fun y => { y with video := true })).dsLink d 1 0))) ∧
  (∀ (s : State) (mb d v : Nat) (x : Hub), d ≤ 1 → v ≤ 5 → s.hub.conflictsOutside mb P.DS_ROUTE d = false → (s.hub.overlay [⟨P.DS_ROUTE, d, v⟩] []).routeRefused d v = false → x = s.hub.stored P.DS_ROUTE d v → x.pget P.DS_ROUTE d = v → x.routeOf d = v ∨ (x.head d).scan.isSome = true →
    exec (.dsRouteWrite mb d v) s = .next (s.after (x))) ∧
  (∀ (s : State) (mb d v : Nat) (x : Hub), d ≤ 1 → v ≤ 5 → s.hub.conflictsOutside mb P.DS_ROUTE d = false → (s.hub.overlay [⟨P.DS_ROUTE, d, v⟩] []).routeRefused d v = false → x = s.hub.stored P.DS_ROUTE d v → x.pget P.DS_ROUTE d = v → (x.head d).scan = none → x.routeOf d = 0 → 2 ≤ v → (x.head d).up = false →
    exec (.dsRouteWrite mb d v) s = .next (s.after ((x.modHead d (fun y => { y with route := v })).altStart (v - 2)))) ∧
  (∀ (s : State) (mb d v : Nat) (x : Hub), d ≤ 1 → v ≤ 5 → s.hub.conflictsOutside mb P.DS_ROUTE d = false → (s.hub.overlay [⟨P.DS_ROUTE, d, v⟩] []).routeRefused d v = false → x = s.hub.stored P.DS_ROUTE d v → x.pget P.DS_ROUTE d = v → (x.head d).scan = none → v = 0 → 2 ≤ x.routeOf d → (x.head d).up = false →
    exec (.dsRouteWrite mb d v) s = .next (s.after (((x.altExit (x.routeOf d - 2) true).dsStill d).modHead d (fun y => { y with route := 0 })))) ∧
  (∀ (s : State) (q : Req) (a : Hub) (d : Nat), s.hub.asks q 0x0B01 = true → a = s.hub.asked q 0x0B01 → q.payload.length = 4 → d = le q.payload 0 1 → le q.payload 1 3 = 0 → d ≤ 1 →
    exec (.dsSignatureRead q) s = .next (s.after (s.hub.answered q 0x0B01 (a) (.ok (leBytes 4 ((a.head d).sig.getD 0) ++ leBytes 4 (a.head d).scans ++ leBytes 8 (a.head d).at_ ++ leBytes 2 (a.head d).frame ++ [byte (a.head d).same, byte (a.head d).stale, byte (a.head d).alarms] ++ List.replicate 11 0#8))))) ∧
  (∀ (s : State) (q : Req) (a : Hub) (d m : Nat), s.hub.asks q 0x0B02 = true → a = s.hub.asked q 0x0B02 → q.payload.length = 4 → d = le q.payload 0 1 → m = le q.payload 1 1 → le q.payload 2 2 = 0 → d ≤ 1 → m ≤ 3 → ((a.head d).frozen && bit m 0) = false → ((a.head d).starved && bit m 1) = false →
    exec (.dsAlarmClear q) s = .next (s.after (s.hub.answered q 0x0B02 (a.modHead d (fun x => { x with frozen := x.frozen && !bit m 0, starved := x.starved && !bit m 1, same := if bit m 0 then 0 else x.same, stale := if bit m 1 then 0 else x.stale })) (.ok [])))) ∧
  (∀ (s : State) (q : Req) (a : Hub) (d : Nat), s.hub.asks q 0x0B02 = true → a = s.hub.asked q 0x0B02 → q.payload.length = 4 → d = le q.payload 0 1 → le q.payload 1 1 = 1 → le q.payload 2 2 = 0 → d ≤ 1 → (a.head d).frozen = true →
    exec (.dsAlarmClear q) s = .next (s.after (s.hub.answered q 0x0B02 ((a.modHead d (fun x => { x with frozen := x.frozen && !bit 1 0, starved := x.starved && !bit 1 1, same := if bit 1 0 then 0 else x.same, stale := if bit 1 1 then 0 else x.stale })).dsAlarm d P.DS_FREEZE_ACTION false |>.showScan d) (.ok []))))

/-- The 12 V inputs switch and return as R345 to R347 say. Where the rules leave a point open it states the model's choice: log entries 2, 7, 136. -/
def Obligations.InputsSwitchOver : Prop :=
  (∀ (s : State) (mv o : Nat) (x : Hub), x = (s.hub.seeInput 0 mv).seeInput 1 o → x.su.mainOk = false → x.su.backOk = true → x.su.inUse = 0 →
    exec (.supplySwitch 0 ⟨mv, o⟩) s = .next (s.after (x.switchOver 1 (b2n (s.hub.pget P.FU_SUPPLY_OV 0 < mv))))) ∧
  (∀ (s : State) (mv o : Nat) (x : Hub), x = (s.hub.seeInput 1 mv).seeInput 0 o → x.su.backOk = false → x.su.mainOk = true → x.su.inUse = 1 →
    exec (.supplySwitch 1 ⟨mv, o⟩) s = .next (s.after (x.switchOver 0 3))) ∧
  (∀ (h : Hub) (cause : Nat) (y x : Hub), y = { h with free := h.free + 1 } →
    x = (((y.modSu (fun s => { s with busyTo := h.clk.up + 1 + Config.free h.free % us 2 })).modSu (fun s => { s with inUse := 1, backCut := false })).out (.power "SUPPLY" [1])).bump P.FU_SWITCHOVERS 1 →
    h.switchOver 1 cause = (x.raise (2 ^ intSupply)).event .supplySwitch [(0, 1, 1), (1, 1, cause), (4, 2, x.su.mainMv), (6, 2, x.su.backMv)]) ∧
  (∀ (h : Hub) (i mv : Nat), h.judge i mv =
    (if mv < h.pget P.FU_SUPPLY_UV i ∨ h.pget P.FU_SUPPLY_OV i < mv then false
     else if h.pget P.FU_SUPPLY_UV i + 300 ≤ mv ∧ mv + 300 ≤ h.pget P.FU_SUPPLY_OV i then true
     else if i = 0 then h.su.mainOk else h.su.backOk)) ∧
  (∀ (s : State) (mv o : Nat) (x : Hub), s.hub.su.inUse = 0 → x = (s.hub.seeInput 0 mv).seeInput 1 o → x.su.mainOk = false → x.su.backOk = false → x.su.inUse = 0 →
    exec (.supplyBothBad ⟨mv, o⟩) s = .next (s.after (x.event .supplyBothBad [(0, 2, x.su.mainMv), (2, 2, x.su.backMv)]))) ∧
  (∀ (s : State), s.hub.su.inUse = 1 → s.hub.su.mainOk = true →
    exec .supplyReturn s = .next (s.after ((s.hub.until (s.hub.su.goodAt + ms (s.hub.pget P.FU_RETURN_DELAY 0))).switchOver 0 2))) ∧
  (∀ (s : State), s.hub.su.inUse = 0 ∨ s.hub.su.mainOk = false →
    exec .supplyReturn s = .next (s.after (s.hub))) ∧
  (∀ (s : State) (i : Nat),
    exec (.idealDiodeOff i) s = .next (s.after ((s.hub.modSu (fun s => if i = 0 then { s with mainCut := true } else { s with backCut := true })).out (.power "FET_OFF" [i]))))

/-- Fuse channels limit, time, trip and retry as R350 to R358 say. Where the rules leave a point open it states the model's choice: log entries 2, 66, 134, 135. -/
def Obligations.FuseChannelsTripAndRecover : Prop :=
  (∀ (s : State) (c mA : Nat) (x : Hub), c = 0 → s.hub.pget P.FU_FAST_MULT c * s.hub.baseOf c < 16 * mA → (s.hub.fuse c).state.gate = true → x = (s.hub.fuseAmps c mA).modFuse c (fun f => { f with limit := none }) →
    exec (.fastTrip ⟨c, mA⟩) s = .next (s.after ((x.fuseTripOf c 0 0).1))) ∧
  (∀ (s : State) (c mA : Nat) (x : Hub), c ≠ 0 → s.hub.pget P.FU_FAST_MULT c * s.hub.baseOf c < 16 * mA → (s.hub.fuse c).state.gate = true → x = (s.hub.fuseAmps c mA).modFuse c (fun f => { f with limit := none }) → (x.fuse c).state.gate = true →
    exec (.fastTrip ⟨c, mA⟩) s = .next (s.after (((x.fuseTripOf c 0 0).1.usbOc [c - 1] (c - 1) 1 0).tcTrip (c - 1)))) ∧
  (∀ (s : State) (c mA : Nat), 16 * mA ≤ s.hub.pget P.FU_FAST_MULT c * s.hub.baseOf c ∨ (s.hub.fuse c).state.gate = false →
    exec (.fastTrip ⟨c, mA⟩) s = .next (s.after (s.hub))) ∧
  (∀ (s : State) (c t : Nat) (x : Hub), c = 0 → s.hub.soaAt c = some t → x = s.hub.until t →
    exec (.soaTrip c) s = .next (s.after ((x.fuseTripOf c 1 0).1.modFuse c (fun f => { f with soa := s.hub.soaBudget c })))) ∧
  (∀ (s : State) (c t : Nat) (x : Hub), c ≠ 0 → s.hub.soaAt c = some t → x = s.hub.until t → (x.fuse c).state.gate = true →
    exec (.soaTrip c) s = .next (s.after ((((x.fuseTripOf c 1 0).1.usbOc [c - 1] (c - 1) 1 0).tcTrip (c - 1)).modFuse c (fun f => { f with soa := s.hub.soaBudget c })))) ∧
  (∀ (s : State) (c : Nat), s.hub.soaAt c = none →
    exec (.soaTrip c) s = .next (s.after (s.hub))) ∧
  (∀ (s : State) (c k mA t : Nat) (z x : Hub), c = 0 → z = s.hub.fuseAmps c mA → z.curveAt c k = some t → x = z.until t →
    exec (.curveTrip c ⟨k, mA⟩) s = .next (s.after ((x.fuseTripOf c 3 k).1.modFuse c (fun f => { f with curve := modAt f.curve k (fun _ => (z.curvePoint c k).2) })))) ∧
  (∀ (s : State) (c k mA t : Nat) (z x : Hub), c ≠ 0 → z = s.hub.fuseAmps c mA → z.curveAt c k = some t → x = z.until t → (x.fuse c).state.gate = true →
    exec (.curveTrip c ⟨k, mA⟩) s = .next (s.after ((((x.fuseTripOf c 3 k).1.usbOc [c - 1] (c - 1) 1 0).tcTrip (c - 1)).modFuse c (fun f => { f with curve := modAt f.curve k (fun _ => (z.curvePoint c k).2) })))) ∧
  (∀ (s : State) (c k mA : Nat) (z : Hub), z = s.hub.fuseAmps c mA → z.curveAt c k = none →
    exec (.curveTrip c ⟨k, mA⟩) s = .next (s.after (z))) ∧
  (∀ (h : Hub) (c k : Nat), k < 8 → (h.curvePoint c k).1 ≠ 0 → (h.fuse c).state = .on ∨ (h.fuse c).state = .limit →
    (h.curvePoint c k).1 * h.baseOf c ≤ h.fuseCurrent c →
    h.curveAt c k = some (us ((h.fuse c).seenAt / us 1 + ((h.curvePoint c k).2 - nth (h.fuse c).curve k 0)))) ∧
  (∀ (h : Hub) (c : Nat), h.soaBudget c ≠ 0 → (h.fuse c).limit = none →
    h.soaNow c = (h.fuse c).soa - h.samplesSince c 1 * (h.pget P.FU_SOA_DECAY c * us 1)) ∧
  (∀ (h : Hub) (c : Nat), h.soaBudget c ≠ 0 → (h.fuse c).limit.isSome = true →
    h.soaNow c = min ((h.fuse c).soa + h.samplesSince c 1 * (((h.fuse c).vin - (h.fuse c).vout) * h.fuseLimit c / 16)) (max (h.fuse c).soa (h.soaBudget c - 1))) ∧
  (∀ (h : Hub) (c : Nat), h.fuseLimit c = (if (h.fuse c).state = .ramp then min (h.pget P.FU_ILIM_MULT c * h.baseOf c) (16 * h.pget P.FU_RAMP_LIMIT c) else h.pget P.FU_ILIM_MULT c * h.baseOf c)) ∧
  (∀ (s : State) (t : Nat), s.hub.faultAt 0 = some t → ((s.hub.until t).fuse 0).state.gate = true →
    exec (.faultTimerTrip 0) s = .next (s.after (((s.hub.until t).fuseTripOf 0 2 0).1))) ∧
  (∀ (h : Hub) (c cause point n mA wait : Nat) (latched : Bool) (y z : Hub), (h.fuse c).state.gate = true → n = (h.fuse c).n + 1 → latched = decide (h.pget P.FU_RETRIES c < n) →
    wait = (if latched then 0 else 100 * 2 ^ (n - 1)) → mA = h.fuseCurrent c / 16 → y = h.fuseGateOff c (if latched then .latched else .backoff) →
    z = (y.modFuse c (fun f => { f with n := n, endAt := y.clk.up + ms wait, last := y.clk.ns / 1000 % 2 ^ 48 * 65536 + min 255 (mA / 100) * 256 + point * 16 + cause })).bump P.FU_TRIPS c →
    cause ≠ 0 → latched = false →
    (h.fuseTripOf c cause point).1 = (z.raise (2 ^ intSupply)).event .fuseTrip [(0, 1, c), (1, 1, cause), (2, 1, point), (3, 1, n), (4, 4, mA), (8, 4, wait)]) ∧
  (∀ (s : State) (c vin vout : Nat) (x : Hub), x = s.hub.fuseOutput c vin vout → c = 0 ∨ (s.hub.fuse c).state ≠ .ramp ∨ (x.fuse c).state ≠ .on →
    exec (.fuseRampDone ⟨c, vin, vout⟩) s = .next (s.after (x))) ∧
  (∀ (s : State) (c vin vout : Nat) (x : Hub), x = s.hub.fuseOutput c vin vout → c ≠ 0 → (s.hub.fuse c).state = .ramp → (x.fuse c).state = .on →
    exec (.fuseRampDone ⟨c, vin, vout⟩) s = .next (s.after (x.tcVbusUp (c - 1)))) ∧
  (∀ (f : Fuse) (now : Nat), f.limit = none → f.state = .on → 9 * f.vin ≤ 10 * f.vout → f.judgeOut now = { f with goodAt := some (f.goodAt.getD now) }) ∧
  (∀ (f : Fuse) (now : Nat), f.limit = none → f.state = .on → 10 * f.vout < 9 * f.vin → f.judgeOut now = { f with pg := false, goodAt := none }) ∧
  (∀ (h : Hub) (c vin vout : Nat) (y : Hub), y = h.fuseVolts c vin vout → (nth y.fu c Fuse.reset).state = .ramp → (nth y.fu c Fuse.reset).limit = none → 9 * vin ≤ 10 * vout → c < y.fu.length →
    (nth y.fu c Fuse.reset).vin = vin → (nth y.fu c Fuse.reset).vout = vout → ((h.fuseOutput c vin vout).fuse c).state = .on) ∧
  (∀ (s : State) (c vin vout mA : Nat) (x : Hub), x = (s.hub.fuseVolts c vin vout).fuseAmps c mA → (x.fuse c).state = .on → (x.fuse c).limit = none → x.fuseLimit c ≤ 16 * mA →
    exec (.fuseLimitEngage ⟨c, vin, vout, mA⟩) s = .next (s.after (x.modFuse c (fun f => { f.settleTimer x.clk.up with
      state := if (f.settleTimer x.clk.up).state = .on then .limit else .ramp
      limit := some x.clk.up
      goodAt := none
      mA := x.fuseLimit c / 16 })))) ∧
  (∀ (s : State) (c vin vout mA : Nat) (x : Hub), x = (s.hub.fuseVolts c vin vout).fuseAmps c mA → (x.fuse c).limit.isSome = true ∨ 16 * mA < x.fuseLimit c →
    exec (.fuseLimitEngage ⟨c, vin, vout, mA⟩) s = .next (s.after (x))) ∧
  (∀ (s : State) (c t vout mA : Nat) (x : Hub), x = s.hub.fuseVolts c (s.hub.fuse c).vin vout → (x.fuse c).limit = some t → 16 * mA < x.fuseLimit c →
    exec (.fuseLimitRelease ⟨c, vout, mA⟩) s = .next (s.after (x.modFuse c (fun f => Fuse.judgeOut { f with
      state := if f.state = .limit then .on else f.state
      limit := none
      acc := f.acc + (x.clk.up - t)
      outAt := x.clk.up
      pg := f.pg && x.clk.up ≤ t + us 100
      goodAt := none
      mA := mA } x.clk.up)))) ∧
  (∀ (s : State) (c : Nat), (s.hub.fuse c).limit = none →
    exec (.faultTimerClear c) s = .next (s.after ((s.hub.until ((s.hub.fuse c).outAt + ms 1)).modFuse c (fun f => { f with acc := 0 })))) ∧
  (∀ (s : State) (c t : Nat) (x : Hub), (s.hub.fuse c).goodAt = some t → (s.hub.fuse c).state = .on → (s.hub.fuse c).pg = false → x = s.hub.until (t + ms 1) →
    exec (.fusePgAssert c) s = .next (s.after (x.modFuse c (fun f => { f with pg := true, pgAt := x.clk.up })))) ∧
  (∀ (s : State) (c t : Nat), (s.hub.fuse c).limit = some t →
    exec (.fusePgHoldEnd c) s = .next (s.after ((s.hub.until (t + us 100)).modFuse c (fun f => { f with pg := false })))) ∧
  (∀ (s : State) (c : Nat), (s.hub.fuse c).state = .on → (s.hub.fuse c).pg = true →
    exec (.fuseRetryClear c) s = .next (s.after ((s.hub.until ((s.hub.fuse c).pgAt + ms (s.hub.pget P.FU_RETRY_CLEAR c))).modFuse c (fun f => { f with n := 0 })))) ∧
  (∀ (s : State), (s.hub.fuse 0).state = .backoff →
    exec (.fuseBackoffEnd 0) s = .next (s.after ((s.hub.until (s.hub.fuse 0).endAt).fuseRamp 0))) ∧
  (∀ (s : State) (c : Nat), c ≠ 0 → (s.hub.fuse c).state = .backoff →
    exec (.fuseBackoffEnd c) s = .next (s.after ((s.hub.until (s.hub.fuse c).endAt).modFuse c (fun f => { f with state := .off })))) ∧
  (∀ (s : State) (mv : Nat) (x : Hub), x = s.hub.fuseVolts 0 mv (s.hub.fuse 0).vout → x.vinGood = false → (x.fuse 0).state.gate = true →
    exec (.fuseInputLost mv) s = .next (s.after ((((x.fuseSense 0).modFuse 0 (fun f => { f with state := .noInput, pg := false, limit := none, acc := 0, goodAt := none, mA := 0 })).out (.power "FU_GATE" [0, 0])).event .fuseInput [(0, 1, 0), (1, 1, 1), (2, 2, mv)]))) ∧
  (∀ (s : State) (mv : Nat) (x : Hub), x = s.hub.fuseVolts 0 mv (s.hub.fuse 0).vout → x.vinGood = true → (x.fuse 0).state = .noInput → x.pget P.FU_ENABLE 0 = 1 →
    exec (.fuseInputRestored mv) s = .next (s.after ((x.eventClear .fuseInput [(0, 1, 0), (1, 1, 0), (2, 2, mv)]).fuseRamp 0))) ∧
  (∀ (s : State) (mb : Nat) (x : Hub), s.hub.conflictsOutside mb P.FU_ENABLE 0 = false → x = s.hub.stored P.FU_ENABLE 0 1 → (x.fuse 0).state = .off → x.pget P.FU_ENABLE 0 = 1 → x.vinGood = true →
    exec (.fuEnableWrite mb 1) s = .next (s.after (x.fuseRamp 0))) ∧
  (∀ (s : State) (mb : Nat) (x : Hub), s.hub.conflictsOutside mb P.FU_ENABLE 0 = false → x = s.hub.stored P.FU_ENABLE 0 0 → (x.fuse 0).state ≠ .off → (x.fuse 0).state ≠ .latched →
    exec (.fuEnableWrite mb 0) s = .next (s.after (x.fuseGateOff 0 .off))) ∧
  (∀ (s : State) (q : Req) (a : Hub) (c : Nat), s.hub.asks q 0x0805 = true → a = s.hub.asked q 0x0805 → q.payload.length = 4 → c = le q.payload 0 1 → le q.payload 1 3 = 0 → 1 ≤ c → c ≤ 4 → (a.fuse c).state = .latched →
    exec (.fuseRetry q) s = .next (s.after (s.hub.answered q 0x0805 (a.modFuse c (fun f => { f with state := .off, n := 0 })) (.ok [])))) ∧
  (∀ (s : State) (q : Req) (a : Hub) (c : Nat), s.hub.asks q 0x0805 = true → a = s.hub.asked q 0x0805 → q.payload.length = 4 → c = le q.payload 0 1 → le q.payload 1 3 = 0 → c ≤ 4 → (a.fuse c).state ≠ .latched →
    exec (.fuseRetry q) s = .next (s.after (s.hub.answered q 0x0805 (a.modFuse c (fun f => { f with n := 0 })) (.ok [])))) ∧
  (∀ (s : State) (q : Req) (a : Hub) (c : Nat), s.hub.asks q 0x0805 = true → a = s.hub.asked q 0x0805 → q.payload.length = 4 → c = le q.payload 0 1 → le q.payload 1 3 = 0 → 4 < c →
    exec (.fuseRetry q) s = .next (s.after (s.hub.answered q 0x0805 (a) (.err .range))))

/-- Seams, skew, gradient clocks and island resets act as R364 to R366, R370 to R376, R388 and R478 say. Where the rules leave a point open it states the model's choice: log entries 2, 7, 61, 63, 127, 130, 172. -/
def Obligations.IslandsResetAndCross : Prop :=
  (∀ (d n : Nat) (c : Crossing) (m : RawMsg) (k : CountSeam),
    (c.items.length < d → c.behind = [] → c.put d m = { c with items := c.items ++ [m] }) ∧
    (d ≤ c.items.length → c.put d m = { c with behind := c.behind ++ [m] }) ∧
    (c.toggle = false → c.pulse = { c with toggle := true }) ∧
    (c.toggle = true → c.pulse = { c with pending := true } ∧ c.pulse.pulse = c.pulse) ∧
    c.ack = { c with toggle := c.pending, pending := false } ∧
    (n < 65536 → k.due = 0 → (k.add n).due = n) ∧ (k.add n).taken = k.taken ∧ k.take.due = 0 ∧ k.take.source = k.source) ∧
  (∀ (h : Hub) (a b c d : Bool), h.de.modes = [a, b, c, d] → h.gpioModes.de.modes =
    [decide (2500 < Config.free h.free), decide (2500 < Config.free (h.free + 1)), decide (2500 < Config.free (h.free + 2)), decide (2500 < Config.free (h.free + 3))]) ∧
  (∀ (h : Hub) (x i items n : Nat) (r : Nat × Hub) (z : Hub), (h.seam x).lost ≠ some i → n = (h.seam x).items.length + min items (2 * seamDepth x - (h.seam x).items.length) →
    r = h.lastCount x → z = ((r.2.modSeam x (fun _ => { Crossing.reset with lost := some i })).bump P.PW_SEAM_RESETS x).bumpBy P.PW_SEAM_DISCARD x n →
    h.seamLost x i items = z.event .seamReset [(0, 1, x), (1, 1, i), (2, 1, 1), (4, 2, min n 65535), (8, 4, r.1)]) ∧
  (∀ (h : Hub) (x i items : Nat), (h.seam x).lost = some i → h.seamLost x i items = h) ∧
  (∀ (h : Hub) (x : Nat), x < 3 → h.lastCount x = (((h.seam x).counts.headD ⟨0#16, 0#16⟩).taken.toNat, h)) ∧
  (∀ (s : State) (x i items : Nat), (crossingsOf i).contains x = true → s.hub.works i = true → i ≠ 11 →
    exec (.seamReset x i items) s = .next (s.after (s.hub.islandHold i (fun y => if y = x then items else 0)))) ∧
  (∀ (s : State) (x i items : Nat), (crossingsOf i).contains x = true → s.hub.works i = false → s.hub.works (otherSide x i) = true →
    exec (.seamReset x i items) s = .next (s.after (s.hub.seamLost x i items))) ∧
  (∀ (s : State) (x i : Nat), i = (if (s.hub.island (crossing x).1).inReset then (crossing x).1 else (crossing x).2) → (s.hub.island i).inReset = true → (s.hub.island i).skew = false →
    exec (.seamRelease x) s = .next (s.after (s.hub.islandRelease i))) ∧
  (∀ (s : State) (x i : Nat), i = (if (s.hub.island (crossing x).1).inReset then (crossing x).1 else (crossing x).2) → (s.hub.island i).inReset = false ∨ (s.hub.island i).skew = true →
    exec (.seamRelease x) s = .next (s.after (s.hub))) ∧
  (∀ (h : Hub), h.seamsBack 11 = (crossingsOf 11).foldl (fun h x => if (h.seam x).lost = some 11 then (h.modSeam x (fun _ => Crossing.reset)).eventClear .seamReset [(0, 1, x), (1, 1, 11), (2, 1, 0)] else h) h) ∧
  (∀ (s : State) (x i a b : Nat) (y : Hub), y = s.hub.skewSeen x a b → i = (if skewOf (crossing x).2 b ≤ skewOf (crossing x).1 a then (crossing x).1 else (crossing x).2) → 200 < (a - b) + (b - a) → i ≠ 11 → (y.island i).skew = false →
    exec (.supplySkew x a b) s = .next (s.after ((((y.islandHold i (fun _ => 0)).modIsland i (fun s => { s with skew := true })).bump P.PW_SKEW_RESETS i).event .supplySkew [(0, 1, i), (1, 1, otherSide x i), (2, 2, (a - b) + (b - a)), (4, 1, 1)]))) ∧
  (∀ (s : State) (x a b : Nat), (a - b) + (b - a) ≤ 200 →
    exec (.supplySkew x a b) s = .next (s.after (s.hub.skewSeen x a b))) ∧
  (∀ (s : State) (x i a b : Nat) (y : Hub), y = s.hub.skewSeen x a b → i = (if (y.island (crossing x).1).skew then (crossing x).1 else (crossing x).2) → (a - b) + (b - a) ≤ 150 → (y.island i).skew = true →
    exec (.skewRelease x a b) s = .next (s.after ((y.islandRelease i).eventClear .supplySkew [(0, 1, i), (1, 1, otherSide x i), (2, 2, (a - b) + (b - a)), (4, 1, 0)]))) ∧
  (∀ (s : State) (i : Nat) (y : Hub), s.hub.clockWanted i = true → y = Hub.until { s.hub with free := s.hub.free + 1 } (s.hub.clk.up + Config.free s.hub.free % 1001) →
    exec (.clockRequest i) s = .next (s.after ((y.modIsland i (fun s => { s with clock := true })).seamFlow))) ∧
  (∀ (s : State) (i : Nat), s.hub.clockWanted i = false →
    exec (.clockRequest i) s = .next (s.after (s.hub.seamFlow))) ∧
  (∀ (s : State) (ppm : Int), s.hub.pget P.PW_AON_TRIM_MODE 0 = 1 →
    exec (.aonTrim true ppm) s = .next (s.after (s.hub.pset P.PW_AON_TRIM_STATE 0 (1 + 65536 * ofSigned 16 ppm)))) ∧
  (∀ (s : State) (p : Bool) (ppm : Int), p = false ∨ s.hub.pget P.PW_AON_TRIM_MODE 0 ≠ 1 →
    exec (.aonTrim p ppm) s = .next (s.after (s.hub.pset P.PW_AON_TRIM_STATE 0 (s.hub.pget P.PW_AON_TRIM_STATE 0 / 2 * 2)))) ∧
  (∀ (s : State) (mb i : Nat), 5 ≤ i → i ≤ 9 → s.hub.conflictsOutside mb P.PW_ISLAND_RESET 0 = false →
    exec (.pwIslandReset mb i) s = .next (s.after (if i = 7 then (((s.hub.islandLoss i).partnersSee i (fun _ => 0)).seamsBack i).ethStart else ((s.hub.islandLoss i).partnersSee i (fun _ => 0)).seamsBack i)))

/-- PWR_ENTER, entries, wakes and WAKE_OUT act as R379 to R383 say. Where the rules leave a point open it states the model's choice: log entries 2, 7, 69, 70, 71, 84, 150. -/
def Obligations.PowerStatesAreEnteredAndLeft : Prop :=
  (∀ (s : State) (q : Req) (a : Hub), s.hub.asks (force q 0 1) 0x0801 = true → a = s.hub.asked (force q 0 1) 0x0801 → q.payload.length = 4 → le q.payload 1 1 ≤ 1 → le q.payload 2 2 = 0 → a.pw.state = .run → a.ctl.ops.length < 16 → a.ctl.txns = [] →
    exec (.pwrEnterDoze q) s = .next (s.after (s.hub.answered (force q 0 1) 0x0801 ((((a.withOp q.mb 0x0801 (.power 1)).modPw (fun p => { p with prior := a.pw.state, entryAt := a.clk.up, timer := a.pget P.PW_WAKE_TIMER 0, token := a.ctl.nextToken, quiet := false, latched := none })).toPState .enterDoze)) (.long a.ctl.nextToken)))) ∧
  (∀ (s : State) (q : Req) (a : Hub), s.hub.asks (force q 0 1) 0x0801 = true → a = s.hub.asked (force q 0 1) 0x0801 → q.payload.length = 4 → le q.payload 1 1 ≤ 1 → le q.payload 2 2 = 0 → a.pw.state = .doze → a.ctl.txns = [] →
    exec (.pwrEnterDoze q) s = .next (s.after (s.hub.answered (force q 0 1) 0x0801 (a) (.ok [])))) ∧
  (∀ (s : State) (q : Req) (a : Hub), s.hub.asks (force q 0 2) 0x0801 = true → a = s.hub.asked (force q 0 2) 0x0801 → q.payload.length = 4 → le q.payload 1 1 ≤ 1 → le q.payload 2 2 = 0 → a.pw.state = .run → a.isTail = true → a.pw.armed = none → a.ctl.ops.length < 16 → a.ctl.txns = [] →
    exec (.pwrEnterRest q) s = .next (s.after (s.hub.answered (force q 0 2) 0x0801 ((((a.withOp q.mb 0x0801 (.power 2)).modPw (fun p => { p with prior := a.pw.state, entryAt := a.clk.up, timer := a.pget P.PW_WAKE_TIMER 0, token := a.ctl.nextToken, quiet := false, latched := none })).toPState .enterRest)) (.long a.ctl.nextToken)))) ∧
  (∀ (s : State) (q : Req) (a : Hub), s.hub.asks (force q 0 2) 0x0801 = true → a = s.hub.asked (force q 0 2) 0x0801 → q.payload.length = 4 → le q.payload 1 1 ≤ 1 → le q.payload 2 2 = 0 → a.pw.state = .run → a.isTail = false → le q.payload 1 1 = 0 → a.ctl.txns = [] →
    exec (.pwrEnterRest q) s = .next (s.after (s.hub.answered (force q 0 2) 0x0801 (a) (.err .denied)))) ∧
  (∀ (s : State) (q : Req) (a : Hub), s.hub.asks (force q 0 2) 0x0801 = true → a = s.hub.asked (force q 0 2) 0x0801 → q.payload.length = 4 → le q.payload 1 1 ≤ 1 → le q.payload 2 2 = 0 → a.pw.state = .run → a.isTail = false → le q.payload 1 1 = 1 → a.pw.armed = none → a.ctl.ops.length < 16 → a.ctl.txns = [] →
    exec (.pwrEnterRest q) s = .next (s.after (s.hub.answered (force q 0 2) 0x0801 ((a.withOp q.mb 0x0801 (.power 2)).modPw (fun p => { p with armed := some a.ctl.nextToken })) (.long a.ctl.nextToken)))) ∧
  (∀ (s : State) (q : Req) (a : Hub), s.hub.asks (force q 0 0) 0x0801 = true → a = s.hub.asked (force q 0 0) 0x0801 → q.payload.length = 4 → le q.payload 1 1 ≤ 1 → le q.payload 2 2 = 0 → a.pw.state = .run → a.pw.armed = none →
    exec (.pwrEnterRun q) s = .next (s.after (s.hub.answered (force q 0 0) 0x0801 (a) (.ok [])))) ∧
  (∀ (s : State) (q : Req) (a : Hub), s.hub.asks (force q 0 0) 0x0801 = true → a = s.hub.asked (force q 0 0) 0x0801 → q.payload.length = 4 → le q.payload 1 1 ≤ 1 → le q.payload 2 2 = 0 → a.pw.state = .doze → a.pw.armed = none →
    exec (.pwrEnterRun q) s = .next (s.after (s.hub.answered (force q 0 0) 0x0801 (a.wakeEvent 9) (.ok [])))) ∧
  (∀ (s : State) (q : Req) (a : Hub), s.hub.asks (force q 0 1) 0x0801 = true → a = s.hub.asked (force q 0 1) 0x0801 → q.payload.length = 4 → le q.payload 1 1 ≤ 1 → le q.payload 2 2 = 0 → a.pw.state = .run ∨ a.pw.state = .doze → a.ctl.txns ≠ [] →
    exec (.pwrEnterDoze q) s = .next (s.after (s.hub.answered (force q 0 1) 0x0801 (a) (.err .conflict)))) ∧
  (∀ (s : State) (q : Req) (a : Hub), s.hub.asks (force q 0 1) 0x0801 = true → a = s.hub.asked (force q 0 1) 0x0801 → q.payload.length = 4 → le q.payload 1 1 ≤ 1 → le q.payload 2 2 = 0 → a.pw.state = .enterDoze ∨ a.pw.state = .enterRest → a.ctl.txns = [] →
    exec (.pwrEnterDoze q) s = .next (s.after (s.hub.answered (force q 0 1) 0x0801 (a) (.err .busy)))) ∧
  (∀ (s : State), s.hub.pw.state = .enterDoze →
    exec .pwrEntryDone s = .next (s.after ((s.hub.within (s.hub.pw.entryAt + ms 1)).dozeDone))) ∧
  (∀ (s : State), s.hub.pw.state = .enterRest →
    exec .pwrEntryDone s = .next (s.after ((s.hub.within (s.hub.pw.entryAt + ms 5)).restDone))) ∧
  (∀ (s : State) (t : Nat), s.hub.pw.armed = some t → s.hub.isTail = true → s.hub.ctl.txns = [] → s.hub.pw.state = .run →
    exec .foldArmedEntry s = .next (s.after ((s.hub.modPw (fun p => { p with armed := none, prior := .run, entryAt := s.hub.clk.up, timer := s.hub.pget P.PW_WAKE_TIMER 0, token := t, quiet := false, latched := none })).toPState .enterRest))) ∧
  (∀ (s : State) (c : Nat), c ≠ 7 → s.hub.pw.state = .doze → s.hub.wakeCounts c false = true →
    exec (.wakeEvent c) s = .next (s.after ((s.hub.tellWake c 1).toRun))) ∧
  (∀ (s : State) (c : Nat), c ≠ 7 → s.hub.pw.state = .rest → s.hub.wakeCounts c true = true →
    exec (.wakeEvent c) s = .next (s.after (s.hub.restWake c))) ∧
  (∀ (s : State) (c : Nat), c ≠ 7 → s.hub.pw.state = .enterDoze → s.hub.wakeCounts c false = true →
    exec (.wakeEvent c) s = .next (s.after (if 2 ≤ s.hub.entryReached 2 then ((Hub.dozeDone { s.hub with free := s.hub.free + 1 }).tellWake c 1).toRun else s.hub.abortEntry c))) ∧
  (∀ (s : State) (c : Nat), c ≠ 7 → s.hub.pw.state = .enterDoze → s.hub.wakeCounts c false = true → 2 ≤ s.hub.stageDue →
    exec (.wakeEvent c) s = .next (s.after (((Hub.dozeDone { s.hub with free := s.hub.free + 1 }).tellWake c 1).toRun))) ∧
  (∀ (s : State) (c : Nat), c ≠ 7 → s.hub.pw.state = .enterRest → s.hub.wakeCounts c true = true →
    exec (.wakeEvent c) s = .next (s.after (s.hub.abortEntry c))) ∧
  (∀ (s : State) (c : Nat), c ≠ 7 → s.hub.pw.state = .rest → s.hub.wakeCounts c true = false →
    exec (.wakeEvent c) s = .next (s.after (s.hub))) ∧
  (∀ (s : State), s.hub.pw.timer = 0 →
    exec (.wakeEvent 7) s = .next (s.after (s.hub))) ∧
  (∀ (s : State), s.hub.pw.wakeOut = true → (s.hub.until (s.hub.pw.outAt + us s.hub.pw.width)).pw.wakeOut = true →
    exec .wakeOutEnd s = .next (s.after (((s.hub.until (s.hub.pw.outAt + us s.hub.pw.width)).modPw (fun p => { p with wakeOut := false })).out (.pin "WAKE_OUT" false)))) ∧
  (∀ (s : State) (q : Req) (a : Hub), s.hub.asks q 0x0802 = true → a = s.hub.asked q 0x0802 → q.payload = [] →
    exec (.pwrStatus q) s = .next (s.after (s.hub.answered q 0x0802 (a) (.ok (leBytes 2 a.pw.word ++ leBytes 1 (a.pget P.PW_LAST_WAKE 0) ++ [0#8] ++ leBytes 4 (a.pget P.PW_RESET_CAUSE 0) ++ leBytes 8 a.pw.lastExit)))))

/-- LINE_FOLD and LINE_UNFOLD act as R384 and R385 say. Where the rules leave a point open it states the model's choice: log entries 2, 73. -/
def Obligations.TheLineFoldsAndUnfolds : Prop :=
  (∀ (s : State) (q : Req) (a : Hub), s.hub.asks q 0x0803 = true → a = s.hub.asked q 0x0803 → a.isHead = false →
    exec (.lineFold q) s = .next (s.after (s.hub.answered q 0x0803 (a) (.err .denied)))) ∧
  (∀ (s : State) (q : Req) (a : Hub) (first : Nat), s.hub.asks q 0x0803 = true → a = s.hub.asked q 0x0803 → a.isHead = true → q.payload.length = 4 → first = le q.payload 0 2 → le q.payload 2 2 = 0 → 1 ≤ first → first ≤ 4094 → a.pw.fold = none → a.ctl.ops.length < 16 →
    exec (.lineFold q) s = .next (s.after (s.hub.answered q 0x0803 ((a.withOp q.mb 0x0803 .fold).modPw (fun p => { p with fold := some ⟨a.ctl.nextToken, first, 4094, false, a.clk.up, a.clk.up + 1000 * ms (a.pget P.PW_FOLD_TIMEOUT 0)⟩ })) (.long a.ctl.nextToken)))) ∧
  (∀ (s : State) (q : Req) (a : Hub), s.hub.asks q 0x0803 = true → a = s.hub.asked q 0x0803 → a.isHead = true → q.payload.length = 4 → le q.payload 2 2 = 0 → 1 ≤ le q.payload 0 2 → le q.payload 0 2 ≤ 4094 → a.pw.fold ≠ none →
    exec (.lineFold q) s = .next (s.after (s.hub.answered q 0x0803 (a) (.err .busy)))) ∧
  (∀ (s : State) (f : Fold) (n e : Nat) (x : Hub), s.hub.pw.fold = some f → x = s.hub.until f.paceAt → x.foldNext f.first f.next = some (n, e) →
    exec .foldPace s = .next (s.after ((x.modPw (fun p => { p with fold := some { f with next := n - 1, sent := true, paceAt := x.clk.up + us (x.pget P.PW_FOLD_PACE 0) } })).frameSend 8 e false (foldMessage (n % 65536)) 20))) ∧
  (∀ (s : State), s.hub.pw.fold = none →
    exec .foldPace s = .next (s.after (s.hub)) ∧
    exec .foldTimeout s = .next (s.after (s.hub))) ∧
  (∀ (s : State) (f : Fold) (x : Hub), s.hub.pw.fold = some f → x = s.hub.until f.endAt → x.pw.fold = some f →
    exec .foldTimeout s = .next (s.after ((x.modPw (fun p => { p with fold := none })).endOp f.token .timeout 0 []))) ∧
  (∀ (s : State) (q : Req) (a : Hub), s.hub.asks q 0x0804 = true → a = s.hub.asked q 0x0804 → a.isHead = false →
    exec (.lineUnfold q) s = .next (s.after (s.hub.answered q 0x0804 (a) (.err .denied)))) ∧
  (∀ (s : State) (q : Req) (a : Hub), s.hub.asks q 0x0804 = true → a = s.hub.asked q 0x0804 → a.isHead = true → q.payload = [] → a.pw.unfold = none → a.ctl.ops.length < 16 → (a.port 1).state = .detect → (a.port 1).train.silent = true →
    exec (.lineUnfold q) s = .next (s.after (s.hub.answered q 0x0804 (((a.withOp q.mb 0x0804 .unfold).toDetect 1).modPw (fun p => { p with unfold := some a.ctl.nextToken })) (.long a.ctl.nextToken))))

/-- Resets, thermal shutdown, power-up and power-fail act as R386, R388, R389 and R483 to R486 say. Where the rules leave a point open it states the model's choice: log entries 2, 7, 18, 23, 29, 92. -/
def Obligations.ResetsStartTheHubAnew : Prop :=
  (∀ (s : State) (w : Nat), w < 900 →
    exec (.resetNPulse w) s = .next (s.after (s.hub))) ∧
  (∀ (s : State) (w : Nat), 1000 ≤ w → w ≤ 9000 →
    exec (.resetNPulse w) s = .next (s.after (s.hub.warmReset 4 s.hub.straps))) ∧
  (∀ (s : State) (w : Nat), 10000 ≤ w →
    exec (.resetNPulse w) s = .next (s.after ([0, 1, 2, 3].foldl Hub.tcAonStart (s.hub.coldReset 3 s.hub.straps))) ∧
    exec .resetNLong s = .next (s.after ([0, 1, 2, 3].foldl Hub.tcAonStart (s.hub.coldReset 3 s.hub.straps)))) ∧
  (∀ (s : State) (c st : Nat), s.hub.pw.resetDue = none →
    exec (.warmReset c st) s = .next (s.after (s.hub.warmReset c st))) ∧
  (∀ (s : State) (c st d : Nat), s.hub.pw.resetDue = some d →
    exec (.warmReset c st) s = .next (s.after (s.hub.warmReset d st))) ∧
  (∀ (h : Hub) (c st : Nat), (h.warmReset c st).tables = [] ∧ (h.warmReset c st).clk.ns = 0 ∧ (h.warmReset c st).clk.frac = 0 ∧ (h.warmReset c st).ctl.ops = [] ∧
    (h.warmReset c st).ctl.txns = [] ∧ (h.warmReset c st).straps = st % 128 ∧ (h.warmReset c st).mg.full = false) ∧
  (∀ (h : Hub) (c st : Nat), (h.coldReset c st).tables = [] ∧ (h.coldReset c st).dram = [] ∧ (h.coldReset c st).clk.ns = 0 ∧ (h.coldReset c st).straps = st % 128 ∧
    (h.coldReset c st).mg.slots = h.mg.slots ∧ (h.coldReset c st).ky.slots = h.ky.slots ∧ (h.coldReset c st).nvStore = h.nvStore ∧
    (h.coldReset c st).hostMem = (h.unlockEnd 1).hostMem) ∧
  (∀ (s : State) (n : Nat) (r : Int), r < 155 ∨ s.hub.pw.state = .thermalOff →
    exec (.thermalShutdown n r) s = .next (s.after (s.hub))) ∧
  (∀ (s : State) (n : Nat) (r : Int) (x y : Hub), 155 ≤ r → s.hub.pw.state ≠ .thermalOff → x = (((s.hub.bump P.PW_TSD_EVENTS 0).lintRec Ev.thermalShutdown.code Ev.thermalShutdown.severity (fields 16 [(0, 1, n), (1, 2, ofSigned 16 r)]) true).deliver .thermalShutdown Ev.thermalShutdown.severity 0 (fields 16 [(0, 1, n), (1, 2, ofSigned 16 r)])).out (.pin "PMIC_EN" false) → y = [1, 2, 3, 4].foldl (fun h c => if (h.fuse c).state.gate then h.fuseGateOff c .off else h) x →
    exec (.thermalShutdown n r) s = .next (s.after (y.coreOff.modPw (fun p => { p with state := .thermalOff, pmicEn := false, pmicPg := false, coolAt := none })))) ∧
  (∀ (s : State) (t : Nat), s.hub.pw.state = .thermalOff → s.hub.pw.coolAt = some t →
    exec .thermalRestart s = .next (s.after (((s.hub.until (t + ms 1000)).out (.pin "PMIC_EN" true)).warmReset 8 s.hub.straps))) ∧
  (∀ (s : State) (m b st : Nat), goodAtStart m = false → goodAtStart b = false →
    exec (.aonPowerUp m b st) s = .next (s.after (s.hub))) ∧
  (∀ (s : State) (m b st : Nat) (x y z w : Hub), goodAtStart m = true → (decide (s.hub.pw.state = .off) && decide (s.hub.pget P.PW_RESET_CAUSE 0 = 2)) = false → x = s.hub.coldReset 1 st → y = { x with su := { Supply.reset with inUse := 0, mainMv := m, backMv := b, mainOk := true, backOk := goodAtStart b } } → z = (((y.out (.power "SUPPLY" [0])).advance (ms 2)).out (.pin "DRAM_EN" true)).advance (ms 6) → w = ((z.out (.pin "PMIC_EN" true)).modPw (fun p => { p with dramEn := true, pmicEn := true, pmicAt := z.clk.up })).advance (ms 3) →
    exec (.aonPowerUp m b st) s = .next (s.after ([0, 1, 2, 3].foldl Hub.tcAonStart ((w.modPw (fun p => { p with pmicPg := true })).release st)))) ∧
  (∀ (s : State) (m b st : Nat) (x y z w : Hub), goodAtStart m = true → s.hub.pw.state = .off → s.hub.pget P.PW_RESET_CAUSE 0 = 2 → x = s.hub.coldReset 2 st → y = ({ x with su := { Supply.reset with inUse := 0, mainMv := m, backMv := b, mainOk := true, backOk := goodAtStart b } } : Hub).advance (ms 20) → z = (((y.out (.power "SUPPLY" [0])).advance (ms 2)).out (.pin "DRAM_EN" true)).advance (ms 6) → w = ((z.out (.pin "PMIC_EN" true)).modPw (fun p => { p with dramEn := true, pmicEn := true, pmicAt := z.clk.up })).advance (ms 3) →
    exec (.aonPowerUp m b st) s = .next (s.after ([0, 1, 2, 3].foldl Hub.tcAonStart ((w.modPw (fun p => { p with pmicPg := true })).release st)))) ∧
  (∀ (s : State), s.hub.pw.pmicPg = true →
    exec .pmicPgTimeout s = .next (s.after (s.hub))) ∧
  (∀ (s : State) (x y z : Hub), s.hub.pw.pmicPg = false → x = ((s.hub.until (s.hub.pw.pmicAt + ms 100)).out (.pin "PMIC_EN" false)).out (.pin "DRAM_EN" false) → y = (x.lintRec lintNoPg 3 [] true).advance (ms 1000) → z = (y.out (.pin "DRAM_EN" true)).advance (ms 6) →
    exec .pmicPgTimeout s = .next (s.after ((z.out (.pin "PMIC_EN" true)).modPw (fun p => { p with dramEn := true, pmicEn := true, pmicAt := z.clk.up })))) ∧
  (∀ (s : State) (x y : Hub), s.hub.pw.pmicEn = true → s.hub.pw.pmicPg = true → x = ((s.hub.tamperAlarm 2 true).tamperRinsed).out (.pin "PMIC_EN" false) → y = ((x.advance (ms 20)).out (.pin "PMIC_EN" true)).advance (ms 1) →
    exec .pmicPgFall s = .next (s.after (y.warmReset 9 y.straps))) ∧
  (∀ (s : State), s.hub.pw.pmicEn = false →
    exec .pmicPgFall s = .next (s.after (s.hub))) ∧
  (∀ (s : State) (mv : Nat) (x : Hub), mv < 6000 → x = (((((s.hub.coldReset 1 s.hub.straps).out (.power "FET_OFF" [0])).out (.power "FET_OFF" [1])).out (.pin "PMIC_EN" false)).out (.pin "DRAM_EN" false)) →
    exec (.powerFail mv) s = .next (s.after (x.coreOff.modPw (fun p => { p with state := .off, dramEn := false, pmicEn := false, pmicPg := false })))) ∧
  (∀ (s : State) (mv : Nat), 7000 ≤ mv →
    exec (.powerFail mv) s = .next (s.after (s.hub))) ∧
  (∀ (s : State) (mv : Nat), 6000 ≤ mv → s.hub.su.mainOk = true ∨ s.hub.su.backOk = true →
    exec (.powerFail mv) s = .next (s.after (s.hub)))

/-- The access guard checks, records, fills and drains as R392 and R398 to R406 say. Where the rules leave a point open it states the model's choice: log entries 2, 7, 44, 78, 95, 120, 139, 140, 149, 162, 163, 164. -/
def Obligations.TheGuardChecksEveryAccess : Prop :=
  (∀ (h : Hub) (a : GAccess) (p : Nat) (m : List (Nat × Region)), m = h.regionsAt a.space p →
    (a.priv = false → 0xFE ≤ a.colour → h.checkPage a p = some (6, 0xFF)) ∧
    (a.cls = 5 → m.any (·.2.lock) = true → h.checkPage a p = some (5, (firstRegion m (·.lock)).getD 0xFF)) ∧
    (a.priv = false → a.colour < 0xFE → m = [] → h.pget P.AG_LOCK 0 = 1 → h.checkPage a p = some (1, 0xFF)) ∧
    (a.cls ≠ 5 → (a.priv = true ∨ a.colour < 0xFE) → m.any (fun r => !r.2.allows a) = true →
      h.checkPage a p = some (2, (firstRegion m (fun r => !r.allows a)).getD 0xFF)) ∧
    (a.cls ≠ 5 → (a.priv = true ∨ a.colour < 0xFE) → m.any (fun r => !r.2.allows a) = false → m.any (fun r => !colourMatch r.2.colour a.colour) = true →
      h.checkPage a p = some (3, (firstRegion m (fun r => !colourMatch r.colour a.colour)).getD 0xFF)) ∧
    (a.priv = true → m = [] → colourMatch (h.pageColour a.space p) a.colour = false → h.checkPage a p = some (4, 0xFF)) ∧
    (a.priv = true → m = [] → colourMatch (h.pageColour a.space p) a.colour = true → h.checkPage a p = none) ∧
    (a.priv = false → a.colour < 0xFE → m = [] → h.pget P.AG_LOCK 0 = 0 → colourMatch (h.pageColour a.space p) a.colour = true → h.checkPage a p = none)) ∧
  (∀ (h : Hub) (a : GAccess) (posted : Bool) (r : Refused) (x : Hub), h.checkPages a a.pages = some r → r.reason ≠ 5 →
    x = (h.bump P.AG_DENIED r.reason).raise (2 ^ intGuard) → h.guard a posted = (if posted then x.imprecise a r else x.precise a r, false)) ∧
  (∀ (h : Hub) (a : GAccess) (posted : Bool), a.priv = true → h.checkPages a a.pages = none → h.guard a posted = (h, true)) ∧
  (∀ (h : Hub) (a : GAccess) (r : Refused), 16 ≤ h.ag.log.length →
    h.precise a r = (h.bump P.AG_VIOL_OVERFLOW 0).violation a r false (8, 8, max a.addr (r.page * 4096))) ∧
  (∀ (h : Hub) (a : GAccess) (r : Refused), h.ag.log.length < 16 →
    h.precise a r = (h.modGuard (fun g => { g with log := g.log ++ [(h.violInfo a r, max a.addr (r.page * 4096), h.clk.ns)] })).violation a r false
      (8, 8, max a.addr (r.page * 4096))) ∧
  (∀ (s : State) (mb v : Nat) (g : Hub), v < 2 ^ 64 → s.hub.guardAdmin mb = true → bits v 8 24 = 0 → 0 < bits v 32 32 → s.hub.pget P.AG_TAG_BASE 0 + bits v 32 32 ≤ 1048576 → s.hub.ctl.pairs.find? (fun o => o.pid == P.AG_TAG_BASE && o.inst == 0 && o.mb == mb) = none → s.hub.conflictsOutside mb P.AG_TAG_FILL 0 = false → g = (s.hub.startFill (s.hub.pget P.AG_TAG_BASE 0) (bits v 32 32) (bits v 0 8)).guardCommit →
    exec (.tagFill mb v) s = .next (s.after (if Hub.mustDrain s.hub g then g.addDrain mb (some .quiet) else g))) ∧
  (∀ (s : State) (mb v : Nat), v < 2 ^ 64 → s.hub.guardAdmin mb = false → s.hub.ctl.pairs.find? (fun o => o.pid == P.AG_TAG_BASE && o.inst == 0 && o.mb == mb) = none →
    exec (.tagFill mb v) s = .next (s.after (s.hub))) ∧
  (∀ (s : State) (mb v : Nat) (o : OpenPair) (g : Hub), v < 2 ^ 64 → s.hub.guardAdmin mb = true → bits v 8 24 = 0 → 0 < bits v 32 32 → o.value + bits v 32 32 ≤ 1048576 → s.hub.ctl.pairs.find? (fun o => o.pid == P.AG_TAG_BASE && o.inst == 0 && o.mb == mb) = some o → s.hub.conflictsOutside mb P.AG_TAG_FILL 0 = false → g = ({ s.hub  with
      ctl := { s.hub.ctl with pairs := s.hub.ctl.pairs.filter (fun y => !(y.pid == P.AG_TAG_BASE && y.inst == 0)) } } : Hub).applyChange
        ⟨[⟨P.AG_TAG_BASE, 0, o.value⟩, ⟨P.AG_TAG_FILL, 0, v⟩], [], []⟩ →
    exec (.tagFill mb v) s = .next (s.after (if Hub.mustDrain s.hub g then g.addDrain mb (some .quiet) else g))) ∧
  (∀ (h : Hub) (a n c : Nat), (h.startFill a n c).ag.fillEnd = some (max h.clk.up (h.ag.fillEnd.getD 0) + ceilDiv (1000 * n) 16384)) ∧
  (∀ (s : State), s.hub.ag.fillEnd = none →
    exec .tagFillDone s = .next (s.after (s.hub))) ∧
  (∀ (s : State) (t : Nat), s.hub.ag.fillEnd = some t → s.hub.ag.waiting = [] →
    exec .tagFillDone s = .next (s.after ((s.hub.until t).modGuard (fun g => { g with fillEnd := none, waiting := [] })))) ∧
  (∀ (s : State) (t a n : Nat) (wr : Bool) (d : List Byte), s.hub.ag.fillEnd = some t → s.hub.ag.waiting = [.debug a n wr d] →
    exec .tagFillDone s = .next (s.after (((s.hub.until t).modGuard (fun g => { g with fillEnd := none, waiting := [] })).debugRun a n wr d))) ∧
  (∀ (s : State), s.hub.ag.drains = [] →
    exec .guardDrainTimeout s = .next (s.after (s.hub))) ∧
  (∀ (s : State) (d : Drain) (x : Hub), s.hub.ag.drains = [d] → d.reply.isSome = true → x = s.hub.until (d.at_ + us (s.hub.pget P.AG_DRAIN_TIMEOUT 0)) → x.ag.drains = [d] → d.at_ + us (x.pget P.AG_DRAIN_TIMEOUT 0) ≤ x.clk.up →
    exec .guardDrainTimeout s = .next (s.after ((x.modGuard (fun g => { g with drains := [{ d with reply := none }] })).answerDrain d false))) ∧
  (∀ (s : State) (d : Drain) (y : Hub), s.hub.ag.drains = [d] → s.hub.olderInFlight d.gen = false → d.reply.isSome = true → y = s.hub.modGuard (fun g => { g with drains := [] }) →
    exec .guardDrained s = .next (s.after (y.answerDrain d true))) ∧
  (∀ (s : State) (mb : Nat), s.hub.conflictsOutside mb P.AG_VIOL_CLEAR 0 = false →
    exec (.agViolClear mb 1) s = .next (s.after (s.hub.violClear))) ∧
  (∀ (s : State) (mb : Nat),
    exec (.agViolOverflowRead mb) s = .next (s.after (s.hub.pset P.AG_VIOL_OVERFLOW 0 0))) ∧
  (∀ (s : State) (sp a len : Nat) (wr : Bool) (d : List Byte), s.hub.debugPort = false → 0 < (if wr then d.length else len) →
    exec (.debugAccess sp a len wr d) s = .next (s.after (s.hub.out (.debug false (if wr then [] else List.replicate (if wr then d.length else len) 0#8))))) ∧
  (∀ (s : State) (a len : Nat) (wr : Bool) (d : List Byte), s.hub.debugPort = true → 0 < (if wr then d.length else len) → s.hub.ag.fillEnd.isSome = true →
    exec (.debugAccess 0 a len wr d) s = .next (s.after (s.hub.modGuard (fun g => { g with waiting := g.waiting ++ [.debug a (if wr then d.length else len) wr d] })))) ∧
  (∀ (s : State) (a len : Nat) (g : Hub), s.hub.debugPort = true → 0 < len → s.hub.ag.fillEnd = none → s.hub.guard ⟨0, a, len, false, 5, 0, 0xFE⟩ false = (g, true) →
    exec (.debugAccess 0 a len false []) s = .next (s.after ((g.debugRead a len).2.out (.debug true (g.debugRead a len).1)))) ∧
  (∀ (s : State) (a : Nat) (d : List Byte) (g : Hub), s.hub.debugPort = true → 0 < d.length → s.hub.ag.fillEnd = none → s.hub.guard ⟨0, a, d.length, true, 5, 0, 0xFE⟩ false = (g, true) →
    exec (.debugAccess 0 a 0 true d) s = .next (s.after (({ g with dram := writeMem g.dram a (d.take (fwCopies - a)) } : Hub).out (.debug true [])))) ∧
  (∀ (h : Hub) (a n : Nat), a + n ≤ fwCopies → h.debugRead a n = (readMem h.dram a n, h)) ∧
  (∀ (s : State) (sp a len : Nat) (g : Hub), s.hub.debugPort = true → 0 < len → sp ≠ 0 → s.hub.guard ⟨sp, a, len, false, 5, 0, 0xFE⟩ false = (g, false) →
    exec (.debugAccess sp a len false []) s = .next (s.after (g.out (.debug false (List.replicate len 0#8)))))

/-- Key updates, life-cycle transitions and debug unlocks act as R414 to R423 say. Where the rules leave a point open it states the model's choice: log entries 2, 5, 6, 88, 173, 174, 175. -/
def Obligations.KeysAndLifeCycleFollowTheRules : Prop :=
  (∀ (s : State) (q : Req) (a : Hub), s.hub.asks (force q 138 1) 0x0601 = true → a = s.hub.asked (force q 138 1) 0x0601 → a.ctl.ops.length < 16 →
    exec (.keyUpdateWrite q) s = .next (s.after (s.hub.answered (force q 138 1) 0x0601 (a.withOp q.mb 0x0601 (.keyUpdate ((force q 138 1)).payload)) (.long a.ctl.nextToken)))) ∧
  (∀ (s : State) (q : Req) (a : Hub), s.hub.asks (force q 138 2) 0x0601 = true → a = s.hub.asked (force q 138 2) 0x0601 → a.ctl.ops.length < 16 →
    exec (.keyUpdateErase q) s = .next (s.after (s.hub.answered (force q 138 2) 0x0601 (a.withOp q.mb 0x0601 (.keyUpdate ((force q 138 2)).payload)) (.long a.ctl.nextToken)))) ∧
  (∀ (h : Hub) (b : List Byte) (ok form : Bool),
    ok = ((h.lc == 1 || h.lc == 2) && !h.ky.hold && h.ky.unlock.isNone) →
    form = (pkgGood 2 296 b && byteAt (slice b 136 64) 3 == 0 && decide (le (slice b 136 64) 4 4 ≤ 7) && allZero (slice (slice b 136 64) 48 16) && decide (byteAt (slice b 136 64) 0 ≤ 31) && (byteAt (slice b 136 64) 2 == 1 || byteAt (slice b 136 64) 2 == 2)) →
    (h.onVback = true → h.keyRefusal b = some .powerState) ∧
    (h.onVback = false → ok = false → h.keyRefusal b = some .denied) ∧
    (h.onVback = false → ok = true → form = false → h.keyRefusal b = some .badParam) ∧
    (h.onVback = false → ok = true → form = true → h.keyRefusal b =
      if h.pkgAuth b = false then some .authFail
      else if pkgCounter b ≤ (h.slot (byteAt (slice b 136 64) 0)).counter then some .replay
      else (h.kek (byteAt (slice b 136 64) 1) (pkgSigner b)).elim (some .denied)
        (fun kk => if byteAt (slice b 136 64) 2 = 1 ∧ Config.unwrap kk (slice (slice b 136 64) 8 40) = none then some .authFail else none))) ∧
  (∀ (h : Hub) (t : Nat),
    h.pkgFails t .authFail = (h.bump P.KY_AUTH_FAIL 0).endOp t .authFail 0 [] ∧ h.pkgFails t .replay = (h.bump P.KY_REPLAY 0).endOp t .replay 0 [] ∧
    (∀ st : Status, st ≠ .authFail → st ≠ .replay → h.pkgFails t st = h.endOp t st 0 [])) ∧
  (∀ (h : Hub) (b : List Byte), (byteAt (slice b 136 64) 2 = 2 → h.newKey b = emptyKey) ∧
    (byteAt (slice b 136 64) 2 ≠ 2 → h.newKey b =
      ((h.kek (byteAt (slice b 136 64) 1) (pkgSigner b)).bind (fun kk => Config.unwrap kk (slice (slice b 136 64) 8 40))).elim emptyKey (Config.wrap storageKey))) ∧
  (∀ (h x y : Hub) (t k copy : Nat) (b : List Byte) (n : KeySlot),
    k = byteAt (slice b 136 64) 0 → copy = 1 - (h.slot k).active →
    n = ⟨b2n (byteAt (slice b 136 64) 2 == 1), le (slice b 136 64) 4 4, pkgCounter b, copy, if copy = 0 then h.newKey b else (h.slot k).copyA, if copy = 0 then (h.slot k).copyB else h.newKey b⟩ →
    x = ((h.nvCopy k copy (h.newKey b) n.policy).nvCommit k n).modKy (fun y => { y with slots := modAt y.slots k (fun _ => n) }) →
    y = (x.endOp t .ok 0 []).event .keyChanged [(0, 1, k), (1, 1, n.state), (4, 4, n.policy), (8, 8, n.counter)] →
    h.keyCommit t b = (y.entriesOfSlot k).foldl Hub.tunnelChanged y) ∧
  (∀ (s : State) (token : Nat) (b : List Byte) (g : Hub), g = s.hub.serveTurn → (g.op token).map LongOp.work = some (.keyUpdate b) →
    exec (.keyUpdateDone token) s = .next (s.after ((g.keyRefusal b).elim (g.keyCommit token b) (g.pkgFails token)))) ∧
  (∀ (s : State) (token : Nat), s.hub.serveTurn.op token = none →
    exec (.keyUpdateDone token) s = .next (s.after (s.hub.serveTurn))) ∧
  (∀ (s : State) (q : Req) (a : Hub), s.hub.asks q 0x0602 = true → a = s.hub.asked q 0x0602 → q.payload = [] →
    exec (.keyStatus q) s = .next (s.after (s.hub.answered q 0x0602 (a) (.ok ([byte a.lc, byte (b2n a.ky.hold + 2 * b2n a.ky.unlock.isSome + 4 * b2n a.ky.measured), 0#8, 0#8] ++ leBytes 4 (a.pget P.KY_TAMPER_LATCH 0) ++ leBytes 8 a.ky.debugCtr ++ leBytes 4 (a.ky.unlock.elim 0 (fun t => (t - a.clk.up) / 1000000000)) ++ leBytes 4 0 ++ romMeasure ++ a.imageMeasure ++ devicePubkey ++ a.ky.slots.flatMap (fun s => [byte s.state, 0#8, 0#8, 0#8] ++ leBytes 4 s.policy ++ leBytes 8 s.counter)))))) ∧
  (∀ (s : State) (q : Req) (a : Hub), s.hub.asks q 0x0603 = true → a = s.hub.asked q 0x0603 → a.ctl.ops.length < 16 →
    exec (.lcTransition q) s = .next (s.after (s.hub.answered q 0x0603 (a.withOp q.mb 0x0603 (.lifeCycle q.payload)) (.long a.ctl.nextToken)))) ∧
  (∀ (h : Hub) (b : List Byte),
    (h.onVback = true → h.lcRefusal b = some .powerState) ∧
    (h.onVback = false → (pkgGood 4 240 b && allZero (slice b 137 7)) = false → h.lcRefusal b = some .badParam) ∧
    (h.onVback = false → (pkgGood 4 240 b && allZero (slice b 137 7)) = true → lcAllowed h.lc (byteAt b 136) = false → h.lcRefusal b = some .denied) ∧
    (h.onVback = false → (pkgGood 4 240 b && allZero (slice b 137 7)) = true → lcAllowed h.lc (byteAt b 136) = true → h.lcRefusal b = if h.pkgAuth b then none else some .authFail)) ∧
  (∀ (h x y z : Hub) (t s : Nat) (b : List Byte), s = byteAt b 136 →
    x = (if h.lc = 0 ∧ s = 1 then (h.pset P.KY_LIFE_CYCLE 0 s).modKy (fun y => { y with auth := some (BitVec.ofNat 384 (beNat (sha384 (pkgSigner b)))) }) else h.pset P.KY_LIFE_CYCLE 0 s) →
    y = (if s = 4 then x.unlockEnd 1 else x) →
    z = ((y.lcRinse s).endOp t .ok 0 []).event .lcChanged [(0, 1, s), (1, 1, h.lc)] →
    h.lcCommit t b = { z with pw := { z.pw with resetDue := some 5 } }) ∧
  (∀ (h : Hub) (ks : List Nat), h.lcRinse 1 = h ∧ h.lcRinse 2 = h ∧ h.lcRinse 3 = (h.rinseAll).modKy (fun y => { y with measured := false }) ∧
    h.lcRinse 4 = ((((h.rinseAll).nvZero 192 2).nvZero 196 8).pset P.KY_CRYPTO_EPOCH 0 0).modKy (fun y => { y with measured := false, debugCtr := 0, secretOff := true }) ∧
    (h.eraseIntent ks).ky.erase = ks ∧ h.rinseIntent.ky.erase = []) ∧
  (∀ (s : State) (q : Req) (a : Hub), s.hub.asks q 0x0604 = true → a = s.hub.asked q 0x0604 → a.lc = 0 ∨ a.lc = 3 →
    exec (.debugUnlock q) s = .next (s.after (s.hub.answered q 0x0604 (a) (.ok [])))) ∧
  (∀ (s : State) (q : Req) (a : Hub), s.hub.asks q 0x0604 = true → a = s.hub.asked q 0x0604 → 4 ≤ a.lc →
    exec (.debugUnlock q) s = .next (s.after (s.hub.answered q 0x0604 (a) (.err .denied)))) ∧
  (∀ (s : State) (q : Req) (a : Hub), s.hub.asks q 0x0604 = true → a = s.hub.asked q 0x0604 → a.lc = 1 ∨ a.lc = 2 → a.ctl.ops.length < 16 →
    exec (.debugUnlock q) s = .next (s.after (s.hub.answered q 0x0604 (a.withOp q.mb 0x0604 (.debugUnlock q.payload)) (.long a.ctl.nextToken)))) ∧
  (∀ (h : Hub) (b : List Byte) (form : Bool),
    form = (pkgGood 3 248 b && allZero (slice b 140 12) && !(le b 136 4 == 0) && decide (le b 136 4 ≤ 86400)) →
    (h.onVback = true → h.debugRefusal b = some .powerState) ∧
    (h.onVback = false → (h.ky.hold || h.ky.unlock.isSome) = true → h.debugRefusal b = some .denied) ∧
    (h.onVback = false → (h.ky.hold || h.ky.unlock.isSome) = false → form = false → h.debugRefusal b = some .badParam) ∧
    (h.onVback = false → (h.ky.hold || h.ky.unlock.isSome) = false → form = true → h.debugRefusal b =
      if h.pkgAuth b = false then some .authFail else if pkgCounter b ≤ h.ky.debugCtr then some .replay else none)) ∧
  (∀ (h x : Hub) (t d : Nat) (b : List Byte), d = le b 136 4 →
    x = (h.nvPair 196 (leBytes 8 (pkgCounter b))).modKy (fun y =>
      { y with debugCtr := pkgCounter b, measured := false, debugged := true, unlock := some (h.clk.up + ms 1000 * d), duration := d }) →
    h.debugCommit t b = (x.endOp t .ok 0 []).event .debugUnlocked [(0, 1, 1), (1, 1, 0), (4, 4, d)]) ∧
  (∀ (h : Hub) (t : Nat) (b : List Byte),
    h.lcDone t b = (h.lcRefusal b).elim (h.lcCommit t b) (h.pkgFails t) ∧
    (h.lc = 0 ∨ h.lc = 3 → h.debugUnlockDone t b = h.endOp t .ok 0 []) ∧ (4 ≤ h.lc → h.debugUnlockDone t b = h.endOp t .denied 0 []) ∧
    (h.lc = 1 ∨ h.lc = 2 → h.debugUnlockDone t b = (h.debugRefusal b).elim (h.debugCommit t b) (h.pkgFails t))) ∧
  (∀ (h : Hub) (cause t : Nat), h.ky.unlock = some t → h.unlockEnd cause = (h.modKy (fun y => { y with unlock := none, duration := 0 })).eventClear .debugUnlocked [(0, 1, 0), (1, 1, cause), (4, 4, h.ky.duration)]) ∧
  (∀ (s : State) (t : Nat), s.hub.ky.unlock = some t →
    exec .debugUnlockEnd s = .next (s.after ((s.hub.until t).unlockEnd 0))) ∧
  (∀ (s : State), s.hub.ky.unlock = none →
    exec .debugUnlockEnd s = .next (s.after (s.hub)))

/-- Tamper alarms, their end, the Rinse and KY_TAMPER_CLEAR act as R383 and R424 to R430 say. Where the rules leave a point open it states the model's choice: log entries 2, 84, 145. -/
def Obligations.TamperAlarmsApplyTheirPolicy : Prop :=
  (∀ (h : Hub) (s : Nat) (r : Bool),
    h.applyPolicy s 0 false = h ∧ h.applyPolicy s 1 false = h.rinseVolatile ∧ h.rinseVolatile.ky = { h.ky with measured := false, noSession := true } ∧
    h.applyPolicy s 0 true = { h with pw := { h.pw with resetDue := some 9 } } ∧
    (h.applyPolicy s 2 r).ky.erase = List.range 32 ∧ (h.applyPolicy s 2 r).ky.rinse = some (s, r || (h.ky.rinse.map (·.2)).getD false) ∧ (h.applyPolicy s 2 r).ky.measured = false) ∧
  (∀ (h : Hub) (s : Nat), (s < 2 → h.tamperHolds s = us (h.pget P.KY_TAMPER_DEGLITCH s)) ∧ h.tamperHolds 2 = 20 ∧ h.tamperHolds 3 = us 10) ∧
  (∀ (s : State) (src held : Nat), held < s.hub.tamperHolds src →
    exec (.tamperAlarm ⟨src, held⟩) s = .next (s.after (s.hub))) ∧
  (∀ (s : State) (src held : Nat) (x : Hub), s.hub.tamperHolds src ≤ held → x = s.hub.tamperAlarm src false → x.pw.state = .run →
    exec (.tamperAlarm ⟨src, held⟩) s = .next (s.after (x))) ∧
  (∀ (s : State) (src held : Nat) (x y : Hub) (c : Nat), s.hub.tamperHolds src ≤ held → x = s.hub.tamperAlarm src false → x.pw.state ≠ .run → y = (if x.ky.rinse.isSome then (x.within (x.clk.up + ms 25)).tamperRinsed else x).wakeEvent 8 → y.pw.state = .run → y.pw.resetDue = some c →
    exec (.tamperAlarm ⟨src, held⟩) s = .next (s.after (y.warmReset c y.straps))) ∧
  (∀ (s : State) (src held : Nat) (x y : Hub), s.hub.tamperHolds src ≤ held → x = s.hub.tamperAlarm src false → x.pw.state ≠ .run → y = (if x.ky.rinse.isSome then (x.within (x.clk.up + ms 25)).tamperRinsed else x).wakeEvent 8 → y.pw.state ≠ .run ∨ y.pw.resetDue = none →
    exec (.tamperAlarm ⟨src, held⟩) s = .next (s.after (y))) ∧
  (∀ (h : Hub) (s : Nat) (force : Bool) (a : List Byte) (x y z w : Hub), s ≤ 5 →
    x = (((h.modKy (fun y => { y with alarms := setBit y.alarms s true })).pset P.KY_TAMPER_LATCH 0
      (setBit (h.pget P.KY_TAMPER_LATCH 0) s true)).bump P.KY_TAMPER_EVENTS s).raise (2 ^ intTamper) →
    a = fields 16 [(0, 1, s), (1, 1, (h.tamperPolicy s).1), (2, 1, 1), (3, 1, x.alarmState), (8, 8, h.clk.ns)] →
    y = (if x.pw.state = .rest ∨ x.pw.state = .doze then (x.lintRec Ev.tamperAlarm.code Ev.tamperAlarm.severity a true).lintEstimated
      else x.lintRec Ev.tamperAlarm.code Ev.tamperAlarm.severity a true) →
    z = (y.modKy (fun k => { k with heard := modAt k.heard s (fun _ => ((h.tamperPolicy s).1, y.alarmState, h.clk.ns)) })).abortKeyOps.unlockEnd 3 →
    w = (z.applyPolicy s (h.tamperPolicy s).1 ((h.tamperPolicy s).2 || force)).deliver .tamperAlarm Ev.tamperAlarm.severity 0 a →
    h.tamperAlarm s force = if (h.tamperPolicy s).1 = 0 ∧ w.mg.ready = true then w.pset P.KY_TAMPER_LATCH 0 (setBit (w.pget P.KY_TAMPER_LATCH 0) s false) else w) ∧
  (∀ (s : State) (src held : Nat), 5 < src → s.hub.pw.state = .run →
    exec (.tamperAlarm ⟨src, held⟩) s = .next (s.after (s.hub))) ∧
  (∀ (s : State) (src : Nat), bit s.hub.ky.alarms src = false →
    exec (.tamperConditionEnd src) s = .next (s.after (s.hub))) ∧
  (∀ (s : State) (src : Nat) (x : Hub) (a : Nat × Nat × Nat), src ≤ 5 → bit s.hub.ky.alarms src = true → x = s.hub.modKy (fun y => { y with alarms := setBit y.alarms src false }) → a = nth s.hub.ky.heard src (0, 0, 0) →
    exec (.tamperConditionEnd src) s = .next (s.after (x.eventClear .tamperAlarm [(0, 1, src), (1, 1, a.1), (2, 1, 0), (3, 1, a.2.1), (8, 8, a.2.2)]))) ∧
  (∀ (s : State), s.hub.ky.rinse = none →
    exec .tamperRinseDone s = .next (s.after (s.hub))) ∧
  (∀ (s : State) (s0 : Nat) (x : Hub), s.hub.ky.rinse = some (s0, false) → x = ((s.hub.rinseSlots s.hub.ky.erase).eraseIntent []).modKy (fun y => { y with rinse := none }) →
    exec .tamperRinseDone s = .next (s.after (x))) ∧
  (∀ (s : State) (s0 : Nat) (x : Hub), s.hub.ky.rinse = some (s0, true) → x = ((s.hub.rinseSlots s.hub.ky.erase).eraseIntent []).modKy (fun y => { y with rinse := none }) →
    exec .tamperRinseDone s = .next (s.after ({ x with pw := { x.pw with resetDue := some 9 } }))) ∧
  (∀ (s : State) (mb v : Nat), 2 ≤ mb → v < 64 → v &&& s.hub.ky.alarms = 0 → s.hub.conflictsOutside mb P.KY_TAMPER_CLEAR 0 = false →
    exec (.kyTamperClear mb v) s = .next (s.after (s.hub.tamperClear v))) ∧
  (∀ (s : State) (mb v : Nat), v < 64 → mb < 2 →
    exec (.kyTamperClear mb v) s = .next (s.after (s.hub))) ∧
  (∀ (s : State) (mb v : Nat), v < 64 → 2 ≤ mb → v &&& s.hub.ky.alarms ≠ 0 →
    exec (.kyTamperClear mb v) s = .next (s.after (s.hub)))

/-- Boot, the watchdog and the configuration store act as R427, R432, R434 to R439 and R446 say. Where the rules leave a point open it states the model's choice: log entries 2, 6, 18, 23, 74, 75, 78, 79, 128, 176. -/
def Obligations.BootStartsTheHub : Prop :=
  (∀ (s : State), s.hub.mg.loaded = true ∨ s.hub.mg.romHold = true →
    exec .bootRomStart s = .next (s.after (s.hub))) ∧
  (∀ (s : State) (x : Hub × Bool) (g : Hub), s.hub.mg.loaded = false → s.hub.mg.romHold = false → s.hub.pw.state = .run → x = (s.hub.within (s.hub.mg.startAt + ms 1)).nvLoad.finishErase.forbidRinse.readLatch.applyStore.bootLoad.chooseImage → x.2 = true → g = x.1.modMg (fun m => { m with tellFall := m.tellFall.map (fun f => (f.1, m.running)) }) →
    exec .bootRomStart s = .next (s.after (g.copyImage.imageReady.showPins))) ∧
  (∀ (s : State) (x : Hub × Bool), s.hub.mg.loaded = false → s.hub.mg.romHold = false → s.hub.pw.state = .run → x = (s.hub.within (s.hub.mg.startAt + ms 1)).nvLoad.finishErase.forbidRinse.readLatch.applyStore.bootLoad.chooseImage → x.2 = false →
    exec .bootRomStart s = .next (s.after ((x.1.modMg (fun m => { m with romHold := true, express := true })).showPins))) ∧
  (∀ (h x : Hub), (x = h.copyImage → x.dram = writeMem h.dram fwArea (h.fw h.mg.running).image ∧ x.mg.mImage = imgHash (h.fw h.mg.running).head) ∧
    (x = h.imageReady → x.mg.loaded = true ∧ x.mg.express = true ∧ x.ky.measured = (!h.ky.hold && !h.ky.secretOff && !h.ky.debugged))) ∧
  (∀ (h : Hub) (c : List Byte), c = readMem h.dram fwArea (h.fw h.mg.running).image.length →
    h.copyGood = (((h.fw h.mg.running).good && c == (h.fw h.mg.running).image && imgHash (h.fw h.mg.running).head == h.mg.mImage) || sha384 c == h.mg.mImage)) ∧
  (∀ (s : State), s.hub.mg.loaded = false → s.hub.mg.romHold = false → s.hub.pw.state = .exiting → s.hub.copyGood = true →
    exec .bootRomStart s = .next (s.after (s.hub.nvLoad.finishErase.forbidRinse.readLatch.rejoin.imageReady))) ∧
  (∀ (s : State) (x : Hub), s.hub.mg.loaded = false → s.hub.mg.romHold = false → s.hub.pw.state = .exiting → s.hub.copyGood = false → x = (s.hub.lintRec lintCopy 3 [] true).toRun →
    exec .bootRomStart s = .next (s.after (({ x with tables := [], tn := Tunnel.reset, al := Allot.reset, ag := x.ag.afterLoss, mg := { x.mg with startAt := x.clk.up } } : Hub).bootChoose))) ∧
  (∀ (h : Hub) (s : Nat) (g : Hub), g = h.modMg (fun m => { m with running := s }) →
    ((h.fw s).state = 4 → (h.fw s).tries = 0 → h.bootTry s =
      ((g.modFw s (fun x => { x with state := 6 })).modMg (fun m => { m with fallback := true, tellFall := some (s, 0) }), false)) ∧
    ((h.fw s).state ≠ 4 → g.fwPasses s = false → h.bootTry s = (g.modFw s (fun x => { x with state := 6 }), false)) ∧
    ((h.fw s).state = 3 → g.fwPasses s = true → h.bootTry s =
      (g.modFw s (fun x => { x with state := 4, tries := g.pget P.MG_FW_TRIAL_TRIES 0 - 1, time := 0 }), true)) ∧
    ((h.fw s).state = 4 → 0 < (h.fw s).tries → g.fwPasses s = true → h.bootTry s = (g.modFw s (fun x => { x with tries := x.tries - 1 }), true)) ∧
    ((h.fw s).state ≠ 3 → (h.fw s).state ≠ 4 → g.fwPasses s = true → h.bootTry s = (g, true))) ∧
  (∀ (s : State), s.hub.mg.loaded = false ∨ s.hub.mg.ready = true →
    exec .horestStart s = .next (s.after (s.hub))) ∧
  (∀ (s : State), s.hub.mg.loaded = true → s.hub.mg.ready = false → s.hub.pw.state = .run →
    exec .horestStart s = .next (s.after (((s.hub.within (s.hub.mg.startAt + ms 50)).nextEpoch).horestReady))) ∧
  (∀ (s : State) (x : Hub), s.hub.mg.loaded = true → s.hub.mg.ready = false → s.hub.pw.state = .exiting → x = s.hub.within (s.hub.mg.startAt + ms 18) → x.pw.resetDue = none →
    exec .horestStart s = .next (s.after (x.resumeDone))) ∧
  (∀ (s : State) (x : Hub) (c : Nat), s.hub.mg.loaded = true → s.hub.mg.ready = false → s.hub.pw.state = .exiting → x = s.hub.within (s.hub.mg.startAt + ms 18) → x.pw.resetDue = some c →
    exec .horestStart s = .next (s.after (x.warmReset c x.straps))) ∧
  (∀ (s : State), s.hub.mg.ready = false ∨ s.hub.mg.full = true →
    exec .fullService s = .next (s.after (s.hub))) ∧
  (∀ (s : State) (x y : Hub), s.hub.mg.ready = true → s.hub.mg.full = false → y = ((if s.hub.mg.guarded then s.hub else s.hub.within (s.hub.mg.startAt + ms 120)).guardStart.within (s.hub.mg.startAt + ms 400)).deRecheck → x = y.modMg (fun m => { m with full := true, fullAt := y.clk.up }) →
    exec .fullService s = .next (s.after (x.event .boot [(0, 1, x.mg.running), (1, 1, bits x.straps 5 2), (2, 1, x.fwFlags), (4, 4, imgVersion (x.fw x.mg.running).head), (8, 4, x.pget P.PW_RESET_CAUSE 0), (12, 4, (x.mg.fullAt - x.mg.startAt) / 1000)]))) ∧
  (∀ (s : State) (pc : Nat) (x : Hub), s.hub.mg.wdtArmed = true → (s.hub.island 10).clock = true → x = ((s.hub.lintRec Ev.watchdog.code Ev.watchdog.severity (fields 16 [(8, 8, pc)]) true).deliver .watchdog Ev.watchdog.severity 0 (fields 16 [(8, 8, pc)])).bump P.MG_WDT_RESETS 0 →
    exec (.watchdog pc) s = .next (s.after (x.warmReset causeWatchdog x.straps))) ∧
  (∀ (s : State) (pc : Nat), s.hub.mg.wdtArmed = false ∨ (s.hub.island 10).clock = false →
    exec (.watchdog pc) s = .next (s.after (s.hub))) ∧
  (∀ (s : State) (x : Hub), s.hub.mg.ready = true → s.hub.mg.dirty = true → s.hub.onVback = false → x = s.hub.until (s.hub.mg.storedAt + ms 1000) →
    exec .configStoreWrite s = .next (s.after ({ x with nvStore := flashWrite storeBytes x.nvStore x.storeValues, mg := { x.mg with dirty := false, storedAt := x.clk.up } }))) ∧
  (∀ (s : State), s.hub.mg.ready = false ∨ s.hub.mg.dirty = false ∨ s.hub.onVback = true →
    exec .configStoreWrite s = .next (s.after (s.hub)))

/-- Staging, activation, confirmation and FW_STATUS act as R434 and R441 to R445 say. Where the rules leave a point open it states the model's choice: log entries 2, 5, 6, 24, 76, 77, 174. -/
def Obligations.FirmwareIsStagedAndActivated : Prop :=
  (∀ (s : State) (q : Req) (a : Hub), s.hub.asks q 0x0701 = true → a = s.hub.asked q 0x0701 → q.payload.length ≠ 204 →
    exec (.fwStageBegin q) s = .next (s.after (s.hub.answered q 0x0701 (a) (.err .badParam)))) ∧
  (∀ (s : State) (q : Req) (a : Hub), s.hub.asks q 0x0701 = true → a = s.hub.asked q 0x0701 → q.payload.length = 204 → a.onVback = true →
    exec (.fwStageBegin q) s = .next (s.after (s.hub.answered q 0x0701 (a) (.err .powerState)))) ∧
  (∀ (s : State) (q : Req) (a : Hub), s.hub.asks q 0x0701 = true → a = s.hub.asked q 0x0701 → q.payload.length = 204 → a.onVback = false → 2 < le q.payload 0 1 →
    exec (.fwStageBegin q) s = .next (s.after (s.hub.answered q 0x0701 (a) (.err .range)))) ∧
  (∀ (s : State) (q : Req) (a : Hub), s.hub.asks q 0x0701 = true → a = s.hub.asked q 0x0701 → q.payload.length = 204 → a.onVback = false → le q.payload 0 1 ≤ 2 → (le q.payload 0 1 = a.mg.running ∧ a.mg.romHold = false) ∨ (a.fw (le q.payload 0 1)).state = 3 ∨ a.ky.hold = true →
    exec (.fwStageBegin q) s = .next (s.after (s.hub.answered q 0x0701 (a) (.err .denied)))) ∧
  (∀ (s : State) (q : Req) (a : Hub) (s0 : Nat) (b : List Byte) (x : Hub × Reply), s.hub.asks q 0x0701 = true → a = s.hub.asked q 0x0701 → q.payload.length = 204 → a.onVback = false → s0 = le q.payload 0 1 → s0 < 2 → s0 ≠ a.mg.running → (a.fw s0).state ≠ 3 → a.ky.hold = false → a.mg.staging = none → le q.payload 1 3 = 0 → b = q.payload.drop 4 → x = (if fwFormat s0 b = false then (a, Reply.err .badParam) else if (!(slice b 16 16 == deviceId || allZero (slice b 16 16)) || sha384 (pkgSigner b) != beBytes 48 Config.firmwareAuthority.toNat) = true then (a, Reply.err .authFail) else if imgCounter b < a.floorOf then (a, Reply.err .replay) else (((if (a.fw s0).state = 1 then a.modFw s0 (fun x => { x with image := [] }) else a).modMg (fun m => { m with staging := some (s0, (if (a.fw s0).state = 1 then a.modFw s0 (fun x => { x with image := [] }) else a).clk.up), stageHead := b })), Reply.ok [])) →
    exec (.fwStageBegin q) s = .next (s.after (s.hub.answered q 0x0701 (x.1) (x.2)))) ∧
  (∀ (s : State) (q : Req) (a : Hub), s.hub.asks q 0x0701 = true → a = s.hub.asked q 0x0701 → q.payload.length = 204 → a.onVback = false → le q.payload 0 1 < 2 → le q.payload 0 1 ≠ a.mg.running → (a.fw (le q.payload 0 1)).state ≠ 3 → a.ky.hold = false → a.mg.staging ≠ none →
    exec (.fwStageBegin q) s = .next (s.after (s.hub.answered q 0x0701 (a) (.err .busy)))) ∧
  (∀ (s : State) (q : Req) (a : Hub) (s0 t : Nat) (d : List Byte), s.hub.asks q 0x0702 = true → a = s.hub.asked q 0x0702 → d = q.payload.drop 4 → d ≠ [] → d.length ≤ 4072 → a.mg.staging = some (s0, t) → a.onVback = false → a.ctl.ops.length < 16 →
    exec (.fwStageData q) s = .next (s.after (s.hub.answered q 0x0702 ((a.modMg (fun m => { m with staging := some (s0, a.clk.up) })).withOp q.mb 0x0702 (.fwData q.payload)) (.long a.ctl.nextToken)))) ∧
  (∀ (s : State) (q : Req) (a : Hub), s.hub.asks q 0x0702 = true → a = s.hub.asked q 0x0702 → a.mg.staging = none → q.payload.drop 4 ≠ [] → (q.payload.drop 4).length ≤ 4072 →
    exec (.fwStageData q) s = .next (s.after (s.hub.answered q 0x0702 (a) (.err .conflict)))) ∧
  (∀ (h : Hub) (token s0 t : Nat) (p d : List Byte), h.mg.staging = some (s0, t) → d = p.drop 4 →
    (h.onVback = true → h.fwDataDone token p = h.endOp token .powerState 0 []) ∧
    (h.onVback = false → (le p 0 4 ≠ h.staged s0 ∨ imgLength h.mg.stageHead < h.staged s0 + d.length) → h.fwDataDone token p = h.endOp token .range 0 []) ∧
    (h.onVback = false → le p 0 4 = h.staged s0 → h.staged s0 + d.length ≤ imgLength h.mg.stageHead → h.fwDataDone token p =
      ((h.modFw s0 (fun _ => ⟨1, 0, h.mg.stageHead, (if (h.fw s0).state = 1 then (h.fw s0).image else []) ++ d, 0, false⟩)).modMg
        (fun m => { m with staging := some (s0, h.clk.up) })).endOp token .ok 0 [])) ∧
  (∀ (h : Hub) (s0 : Nat), (h.stagingAt s0 = true → (h.fw s0).state ≠ 1 → h.staged s0 = 0) ∧
    (h.stagingAt s0 = false ∨ (h.fw s0).state = 1 → h.staged s0 = (h.fw s0).image.length)) ∧
  (∀ (s : State) (q : Req) (a : Hub) (s0 t : Nat), s.hub.asks q 0x0703 = true → a = s.hub.asked q 0x0703 → q.payload.length = 96 → a.mg.staging = some (s0, t) → a.staged s0 = imgLength a.mg.stageHead → a.ctl.ops.length < 16 → a.onVback = false →
    exec (.fwStageEnd q) s = .next (s.after (s.hub.answered q 0x0703 ((a.modMg (fun m => { m with staging := some (s0, a.clk.up) })).withOp q.mb 0x0703 (.fwEnd q.payload)) (.long a.ctl.nextToken)))) ∧
  (∀ (s : State) (q : Req) (a : Hub) (s0 t : Nat), s.hub.asks q 0x0703 = true → a = s.hub.asked q 0x0703 → q.payload.length = 96 → a.mg.staging = some (s0, t) → a.staged s0 ≠ imgLength a.mg.stageHead → a.onVback = false →
    exec (.fwStageEnd q) s = .next (s.after (s.hub.answered q 0x0703 (a) (.err .range)))) ∧
  (∀ (s : State) (q : Req) (a : Hub), s.hub.asks q 0x0703 = true → a = s.hub.asked q 0x0703 → q.payload.length = 96 → a.onVback = true →
    exec (.fwStageEnd q) s = .next (s.after (s.hub.answered q 0x0703 (a) (.err .powerState)))) ∧
  (∀ (s : State), s.hub.mg.staging = none →
    exec .fwStageTimeout s = .next (s.after (s.hub))) ∧
  (∀ (s : State) (s0 t : Nat) (x : Hub), s.hub.mg.staging = some (s0, t) → s.hub.ctl.ops = [] → x = s.hub.until (t + ms (s.hub.pget P.MG_TXN_TIMEOUT 0)) →
    exec .fwStageTimeout s = .next (s.after ((x.modFw s0 (fun y => { y with state := 6, good := false })).modMg (fun m => { m with staging := none, stageHead := [] })))) ∧
  (∀ (s : State) (q : Req) (a : Hub), s.hub.asks (force q 1 0) 0x0704 = true → a = s.hub.asked (force q 1 0) 0x0704 → q.payload.length = 12 → le q.payload 2 2 = 0 → le q.payload 0 1 ≤ 2 → a.onVback = false → (a.fw (le q.payload 0 1)).state = 2 → (∀ k, k ∈ [0, 1, 2] → k ≠ le q.payload 0 1 → (a.fw k).state ≠ 3) → a.stagingAt (le q.payload 0 1) = false →
    exec (.fwActivatePending q) s = .next (s.after (s.hub.answered (force q 1 0) 0x0704 (a.pend (le q.payload 0 1) 0 0) (.ok [])))) ∧
  (∀ (s : State) (q : Req) (a : Hub), s.hub.asks (force q 1 1) 0x0704 = true → a = s.hub.asked (force q 1 1) 0x0704 → q.payload.length = 12 → le q.payload 2 2 = 0 → le q.payload 0 1 ≤ 2 → a.onVback = false → (a.fw (le q.payload 0 1)).state = 2 → (∀ k, k ∈ [0, 1, 2] → k ≠ le q.payload 0 1 → (a.fw k).state ≠ 3) → a.stagingAt (le q.payload 0 1) = false →
    exec (.fwActivateReset q) s = .next (s.after (s.hub.answered (force q 1 1) 0x0704 ((a.pend (le q.payload 0 1) 1 0).modPw (fun p => { p with resetDue := some causeSystem })) (.ok [])))) ∧
  (∀ (s : State) (q : Req) (a : Hub), s.hub.asks (force q 1 2) 0x0704 = true → a = s.hub.asked (force q 1 2) 0x0704 → q.payload.length = 12 → le q.payload 2 2 = 0 → le q.payload 0 1 ≤ 2 → a.onVback = false → (a.fw (le q.payload 0 1)).state = 2 → (∀ k, k ∈ [0, 1, 2] → k ≠ le q.payload 0 1 → (a.fw k).state ≠ 3) → a.stagingAt (le q.payload 0 1) = false → a.clk.ns + us 100 ≤ le q.payload 4 8 → le q.payload 4 8 ≤ a.clk.ns + 60000000000 →
    exec (.fwActivateAt q) s = .next (s.after (s.hub.answered (force q 1 2) 0x0704 (a.pend (le q.payload 0 1) 2 (le q.payload 4 8)) (.ok [])))) ∧
  (∀ (s : State) (q : Req) (a : Hub), s.hub.asks (force q 1 2) 0x0704 = true → a = s.hub.asked (force q 1 2) 0x0704 → q.payload.length = 12 → le q.payload 2 2 = 0 → le q.payload 0 1 ≤ 2 → a.onVback = false → (a.fw (le q.payload 0 1)).state = 2 → (∀ k, k ∈ [0, 1, 2] → k ≠ le q.payload 0 1 → (a.fw k).state ≠ 3) → a.stagingAt (le q.payload 0 1) = false → le q.payload 4 8 < a.clk.ns + us 100 →
    exec (.fwActivateAt q) s = .next (s.after (s.hub.answered (force q 1 2) 0x0704 (a) (.err .lateEpoch)))) ∧
  (∀ (s : State) (q : Req) (a : Hub), s.hub.asks (force q 1 0) 0x0704 = true → a = s.hub.asked (force q 1 0) 0x0704 → q.payload.length = 12 → le q.payload 2 2 = 0 → le q.payload 0 1 ≤ 2 → a.onVback = false → (a.fw (le q.payload 0 1)).state ≠ 2 ∨ a.stagingAt (le q.payload 0 1) = true →
    exec (.fwActivatePending q) s = .next (s.after (s.hub.answered (force q 1 0) 0x0704 (a) (.err .conflict)))) ∧
  (∀ (s : State) (q : Req) (a : Hub), s.hub.asks (force q 1 1) 0x0704 = true → a = s.hub.asked (force q 1 1) 0x0704 → q.payload.length = 12 → le q.payload 2 2 = 0 → le q.payload 0 1 ≤ 2 → a.onVback = false → (a.fw (le q.payload 0 1)).state ≠ 2 ∨ a.stagingAt (le q.payload 0 1) = true →
    exec (.fwActivateReset q) s = .next (s.after (s.hub.answered (force q 1 1) 0x0704 (a) (.err .conflict)))) ∧
  (∀ (s : State) (q : Req) (a : Hub), s.hub.asks (force q 1 2) 0x0704 = true → a = s.hub.asked (force q 1 2) 0x0704 → q.payload.length = 12 → le q.payload 2 2 = 0 → le q.payload 0 1 ≤ 2 → a.onVback = false → (a.fw (le q.payload 0 1)).state ≠ 2 ∨ a.stagingAt (le q.payload 0 1) = true →
    exec (.fwActivateAt q) s = .next (s.after (s.hub.answered (force q 1 2) 0x0704 (a) (.err .conflict)))) ∧
  (∀ (s : State) (q : Req) (a : Hub), s.hub.asks (force q 1 3) 0x0704 = true → a = s.hub.asked (force q 1 3) 0x0704 → q.payload.length = 12 → le q.payload 2 2 = 0 → le q.payload 0 1 ≤ 2 → (a.fw a.mg.running).state = 4 →
    exec (.fwActivateConfirm q) s = .next (s.after (s.hub.answered (force q 1 3) 0x0704 (a.confirm) (.ok [])))) ∧
  (∀ (s : State) (q : Req) (a : Hub), s.hub.asks (force q 1 3) 0x0704 = true → a = s.hub.asked (force q 1 3) 0x0704 → q.payload.length = 12 → le q.payload 2 2 = 0 → le q.payload 0 1 ≤ 2 → (a.fw a.mg.running).state ≠ 4 →
    exec (.fwActivateConfirm q) s = .next (s.after (s.hub.answered (force q 1 3) 0x0704 (a) (.err .conflict)))) ∧
  (∀ (s : State) (q : Req) (a : Hub), s.hub.asks (force q 1 4) 0x0704 = true → a = s.hub.asked (force q 1 4) 0x0704 → q.payload.length = 12 → le q.payload 2 2 = 0 → le q.payload 0 1 ≤ 2 → a.onVback = false → (a.fw a.mg.running).state = 5 →
    exec (.fwActivateFloor q) s = .next (s.after (s.hub.answered (force q 1 4) 0x0704 (a.pset P.MG_ROLLBACK_FLOOR 0 (max a.floorOf (min 128 (imgCounter (a.fw a.mg.running).head)))) (.ok [])))) ∧
  (∀ (s : State) (q : Req) (a : Hub), s.hub.asks (force q 1 4) 0x0704 = true → a = s.hub.asked (force q 1 4) 0x0704 → q.payload.length = 12 → le q.payload 2 2 = 0 → le q.payload 0 1 ≤ 2 → a.onVback = false → (a.fw a.mg.running).state ≠ 5 →
    exec (.fwActivateFloor q) s = .next (s.after (s.hub.answered (force q 1 4) 0x0704 (a) (.err .denied)))) ∧
  (∀ (s : State) (q : Req) (a : Hub), s.hub.asks (force q 1 5) 0x0704 = true → a = s.hub.asked (force q 1 5) 0x0704 → q.payload.length = 12 → le q.payload 2 2 = 0 → le q.payload 0 1 ≤ 2 → (a.fw (le q.payload 0 1)).state = 3 →
    exec (.fwActivateCancel q) s = .next (s.after (s.hub.answered (force q 1 5) 0x0704 (a.modFw (le q.payload 0 1) (fun x => { x with state := 2, time := 0 })) (.ok [])))) ∧
  (∀ (s : State) (q : Req) (a : Hub), s.hub.asks (force q 1 5) 0x0704 = true → a = s.hub.asked (force q 1 5) 0x0704 → q.payload.length = 12 → le q.payload 2 2 = 0 → le q.payload 0 1 ≤ 2 → (a.fw (le q.payload 0 1)).state ≠ 3 →
    exec (.fwActivateCancel q) s = .next (s.after (s.hub.answered (force q 1 5) 0x0704 (a) (.err .conflict)))) ∧
  (∀ (s : State) (k : Nat) (x y : Hub), [0, 1, 2].find? (fun k => (s.hub.fw k).state == 3 && (s.hub.fw k).time != 0) = some k → x = s.hub.modFw k (fun x => { x with time := 0 }) → s.hub.pw.state = .run ∨ s.hub.pw.state = .doze → y = x.untilLine (boundaryAt (s.hub.fw k).time) →
    exec .fwActivateTimeReached s = .next (s.after (y.warmReset causeSystem s.hub.straps))) ∧
  (∀ (s : State), [0, 1, 2].find? (fun k => (s.hub.fw k).state == 3 && (s.hub.fw k).time != 0) = none →
    exec .fwActivateTimeReached s = .next (s.after (s.hub))) ∧
  (∀ (s : State), s.hub.pget P.MG_FW_CONFIRM_TIME 0 ≠ 0 → s.hub.mg.full = true → (s.hub.fw s.hub.mg.running).state = 4 →
    exec .fwConfirmTimer s = .next (s.after ((s.hub.until (s.hub.mg.fullAt + ms (1000 * s.hub.pget P.MG_FW_CONFIRM_TIME 0))).confirm))) ∧
  (∀ (s : State), s.hub.pget P.MG_FW_CONFIRM_TIME 0 = 0 ∨ s.hub.mg.full = false ∨ (s.hub.fw s.hub.mg.running).state ≠ 4 →
    exec .fwConfirmTimer s = .next (s.after (s.hub))) ∧
  (∀ (s : State) (q : Req) (a : Hub), s.hub.asks q 0x0705 = true → a = s.hub.asked q 0x0705 → q.payload = [] →
    exec (.fwStatus q) s = .next (s.after (s.hub.answered q 0x0705 (a) (.ok ([byte a.mg.running, byte (bits a.straps 5 2), byte a.fwFlags, 0#8] ++ leBytes 4 a.floorOf ++ leBytes 8 0 ++ a.fwRecord 0 ++ a.fwRecord 1 ++ a.fwRecord 2)))))

/-- Sensors and the Lint log act as R386, R424 and R447 to R451 say. Where the rules leave a point open it states the model's choice: log entry 81. -/
def Obligations.SensorsAndTheLintLogAreRead : Prop :=
  (∀ (s : State) (kind idx : Nat) (v : Int), 2 < kind ∨ sensorCount kind ≤ idx →
    exec (.sensorSample kind idx v) s = .next (s.after (s.hub))) ∧
  (∀ (s : State) (kind idx : Nat) (v : Int), 1 ≤ kind → kind ≤ 2 → idx < sensorCount kind → 2 ≤ idx ∧ (kind = 2 → 5 ≤ idx) →
    exec (.sensorSample kind idx v) s = .next (s.after (s.hub.modSensor kind idx (fun s => { s with value := v, valid := true })))) ∧
  (∀ (s : State) (kind idx : Nat) (v : Int), 1 ≤ kind → kind ≤ 2 → idx < sensorCount kind → kind = 1 ∧ idx < 2 →
    exec (.sensorSample kind idx v) s = .next (s.after ((s.hub.modSensor kind idx (fun s => { s with value := v, valid := true })).seeInput idx v.toNat))) ∧
  (∀ (s : State) (kind idx : Nat) (v : Int), 1 ≤ kind → kind ≤ 2 → idx < sensorCount kind → kind = 2 ∧ idx < 5 →
    exec (.sensorSample kind idx v) s = .next (s.after ((s.hub.modSensor kind idx (fun s => { s with value := v, valid := true })).fuseAmps idx v.toNat))) ∧
  (∀ (s : State) (idx : Nat) (v : Int), idx < 23 → s.hub.pw.state ≠ .rest → s.hub.pw.state ≠ .thermalOff →
    exec (.sensorSample 0 idx v) s = .next (s.after ((s.hub.sampleTemp idx v).tempTamper))) ∧
  (∀ (s : State) (idx : Nat) (v : Int), idx < 23 → s.hub.pw.state = .rest ∨ s.hub.pw.state = .thermalOff →
    exec (.sensorSample 0 idx v) s = .next (s.after (s.hub))) ∧
  (∀ (s : State) (v : Int) (x : Hub), x = s.hub.sampleTemp 23 v → x.pw.state = .thermalOff →
    exec (.sensorSample 0 23 v) s = .next (s.after ((x.modPw (fun p => { p with coolAt := if v < 140000 then some (p.coolAt.getD x.clk.up) else none })).tempTamper))) ∧
  (∀ (s : State) (v : Int) (x : Hub), x = s.hub.sampleTemp 23 v → x.pw.state ≠ .thermalOff →
    exec (.sensorSample 0 23 v) s = .next (s.after (x.tempTamper))) ∧
  (∀ (h g : Hub), g = (if bit h.ky.alarms 4 then (if h.temps.all (fun x => decide (x < 155000)) then h.tamperEnd 4 else h)
      else if h.temps.any (fun x => decide (160000 ≤ x)) then h.tamperSeen 4 else h) →
    h.tempTamper = (if bit g.ky.alarms 5 then (if h.temps.all (fun x => decide (-50000 < x)) then g.tamperEnd 5 else g)
      else if h.temps.any (fun x => decide (x ≤ -55000)) then g.tamperSeen 5 else g)) ∧
  (∀ (h : Hub) (idx : Nat) (v : Int), 20 ≤ idx → (v < -60000 ∨ 200000 < v) → (h.sensor 0 idx).fault = false → (h.sensor 0 idx).valid = false →
    h.sampleTemp idx v =
      (h.modSensor 0 idx (fun _ => { h.sensor 0 idx with value := v, valid := true, moved := h.clk.up, other := 0, goodAt := 0, fault := true })).event .sensorFault
        [(0, 1, 0), (1, 1, idx), (2, 1, 1), (4, 4, ofSigned 32 v)]) ∧
  (∀ (h : Hub) (idx : Nat) (v : Int), 20 ≤ idx → -60000 ≤ v → v ≤ 200000 → (h.sensor 0 idx).fault = false → (h.sensor 0 idx).valid = false →
    h.sampleTemp idx v = h.modSensor 0 idx (fun _ => { h.sensor 0 idx with value := v, valid := true, moved := h.clk.up, other := 0 })) ∧
  (∀ (s : State) (q : Req) (a : Hub), s.hub.asks q 0x0A03 = true → a = s.hub.asked q 0x0A03 → q.payload.length = 4 → le q.payload 3 1 = 0 → le q.payload 0 1 ≤ 2 → 1 ≤ le q.payload 2 1 → le q.payload 2 1 ≤ 24 → le q.payload 1 1 + le q.payload 2 1 ≤ sensorCount (le q.payload 0 1) →
    exec (.sensorRead q) s = .next (s.after (s.hub.answered q 0x0A03 (a) (.ok (leBytes 8 a.clk.ns ++ (List.range (le q.payload 2 1)).flatMap (fun i => leBytes 4 (ofSigned 32 (a.sensor (le q.payload 0 1) (le q.payload 1 1 + i)).value) ++ leBytes 2 (b2n (a.sensor (le q.payload 0 1) (le q.payload 1 1 + i)).valid + 2 * b2n (a.sensor (le q.payload 0 1) (le q.payload 1 1 + i)).fault) ++ leBytes 2 0)))))) ∧
  (∀ (s : State) (q : Req) (a : Hub), s.hub.asks q 0x0A03 = true → a = s.hub.asked q 0x0A03 → q.payload.length = 4 → le q.payload 3 1 = 0 → 2 < le q.payload 0 1 ∨ le q.payload 2 1 = 0 ∨ sensorCount (le q.payload 0 1) < le q.payload 1 1 + le q.payload 2 1 →
    exec (.sensorRead q) s = .next (s.after (s.hub.answered q 0x0A03 (a) (.err .range)))) ∧
  (∀ (s : State) (q : Req) (a : Hub) (rs : List LintRec), s.hub.asks q 0x0A01 = true → a = s.hub.asked q 0x0A01 → q.payload.length = 8 → le q.payload 7 1 = 0 → le q.payload 6 1 ≤ 3 → 1 ≤ le q.payload 4 2 → le q.payload 4 2 ≤ 127 → rs = (((a.lint.copy (le q.payload 6 1)).filter (fun x => (x.seq + 2 ^ 32 - le q.payload 0 4) % 2 ^ 32 < 2 ^ 31)).reverse).take (le q.payload 4 2) →
    exec (.logRead q) s = .next (s.after (s.hub.answered q 0x0A01 (a) (.ok (leBytes 4 ((rs.head?.map (·.seq)).getD (le q.payload 0 4)) ++ leBytes 4 ((rs.getLast?.map (fun x => (x.seq + 1) % 2 ^ 32)).getD (le q.payload 0 4)) ++ leBytes 2 rs.length ++ leBytes 6 0 ++ rs.flatMap LintRec.bytes))))) ∧
  (∀ (s : State) (q : Req) (a : Hub), s.hub.asks q 0x0A01 = true → a = s.hub.asked q 0x0A01 → q.payload.length = 8 → le q.payload 7 1 = 0 → le q.payload 6 1 ≤ 3 → le q.payload 4 2 = 0 ∨ 127 < le q.payload 4 2 →
    exec (.logRead q) s = .next (s.after (s.hub.answered q 0x0A01 (a) (.err .range)))) ∧
  (∀ (s : State) (q : Req) (a : Hub) (t : Nat), s.hub.asks q 0x0A02 = true → a = s.hub.asked q 0x0A02 → q.payload.length = 4 → le q.payload 1 3 = 0 → t = le q.payload 0 1 → t &&& 0xF2 = 0 → bit t 3 = false ∨ a.onVback = false →
    exec (.logClear q) s = .next (s.after (s.hub.answered q 0x0A02 ({ a with
      lint := { a.lint with
        sram := if bit t 0 then [] else a.lint.sram
        dram := if bit t 2 then [] else a.lint.dram
        flash := if bit t 3 then [] else a.lint.flash } }) (.ok [])))) ∧
  (∀ (s : State) (q : Req) (a : Hub) (t : Nat), s.hub.asks q 0x0A02 = true → a = s.hub.asked q 0x0A02 → q.payload.length = 4 → le q.payload 1 3 = 0 → t = le q.payload 0 1 → t &&& 0xF2 = 0 → bit t 3 = true → a.onVback = true →
    exec (.logClear q) s = .next (s.after (s.hub.answered q 0x0A02 (a) (.err .powerState)))) ∧
  (∀ (s : State), s.hub.lint.queue = [] →
    exec .lintFlashWrite s = .next (s.after (s.hub))) ∧
  (∀ (s : State) (r : LintRec) (rest : List LintRec), s.hub.lint.queue = r :: rest → s.hub.onVback = true ∨ s.hub.mg.ready = false →
    exec .lintFlashWrite s = .next (s.after (s.hub))) ∧
  (∀ (s : State) (r : LintRec) (rest : List LintRec) (n : Nat), s.hub.lint.queue = r :: rest → s.hub.onVback = false → s.hub.mg.ready = true → n = (if s.hub.lint.second = s.hub.clk.up / 1000000000 then s.hub.lint.written else 0) → n < s.hub.pget P.MG_LOG_FLASH_RATE 0 →
    exec .lintFlashWrite s = .next (s.after ({ s.hub  with
      lint := { s.hub.lint with
        queue := rest
        flash := keep 622592 (r :: s.hub.lint.flash)
        second := s.hub.clk.up / 1000000000
        written := n + 1 } }))) ∧
  (∀ (s : State) (r : LintRec) (rest : List LintRec) (n : Nat), s.hub.lint.queue = r :: rest → s.hub.onVback = false → s.hub.mg.ready = true → n = (if s.hub.lint.second = s.hub.clk.up / 1000000000 then s.hub.lint.written else 0) → s.hub.pget P.MG_LOG_FLASH_RATE 0 ≤ n →
    exec .lintFlashWrite s = .next (s.after (Hub.bump { s.hub  with
      lint := { s.hub.lint with
        queue := rest
        second := s.hub.clk.up / 1000000000
        written := n } } P.MG_LOG_FLASH_SKIP 0)))

/-- Counters are selected, read and cleared as R453 and R456 to R458 say. Where the rules leave a point open it states the model's choice: log entries 2, 7, 28, 80, 142. -/
def Obligations.CountersAreSelectedReadAndCleared : Prop :=
  (∀ (s : State) (q : Req) (a : Hub) (id : Nat) (x : Nat × Hub), s.hub.asks q 0x0901 = true → a = s.hub.asked q 0x0901 → q.payload.length = 4 → id = le q.payload 0 4 → validId id = true → x = a.counterRead id →
    exec (.counterRead q) s = .next (s.after (s.hub.answered q 0x0901 (x.2) (.ok (leBytes 4 id ++ leBytes 4 (b2n (a.ct.enabled.contains id) + 2 * b2n (x.1 == counterMax)) ++ leBytes 8 x.1 ++ leBytes 8 a.clk.ns))))) ∧
  (∀ (s : State) (q : Req) (a : Hub), s.hub.asks q 0x0901 = true → a = s.hub.asked q 0x0901 → q.payload.length ≠ 4 ∨ validId (le q.payload 0 4) = false →
    exec (.counterRead q) s = .next (s.after (s.hub.answered q 0x0901 (a) (.err .badParam)))) ∧
  (∀ (s : State) (q : Req) (a : Hub), s.hub.asks (force q 0 0) 0x0903 = true → a = s.hub.asked (force q 0 0) 0x0903 → q.txn = 0 → a.selectRefusal ((force q 0 0)).payload = none →
    exec (.counterSelectReplace q) s = .next (s.after (s.hub.answered (force q 0 0) 0x0903 ((a.selectApply ((force q 0 0)).payload).modMg (fun m => { m with dirty := true })) (.ok [])))) ∧
  (∀ (s : State) (q : Req) (a : Hub) (t : Status) (d : Nat), s.hub.asks (force q 0 0) 0x0903 = true → a = s.hub.asked (force q 0 0) 0x0903 → q.txn = 0 → a.selectRefusal ((force q 0 0)).payload = some (t, d) →
    exec (.counterSelectReplace q) s = .next (s.after (s.hub.answered (force q 0 0) 0x0903 (a) (.at t d)))) ∧
  (∀ (s : State) (q : Req) (a : Hub), s.hub.asks (force q 0 1) 0x0903 = true → a = s.hub.asked (force q 0 1) 0x0903 → q.txn = 0 → a.selectRefusal ((force q 0 1)).payload = none →
    exec (.counterSelectAdd q) s = .next (s.after (s.hub.answered (force q 0 1) 0x0903 ((a.selectApply ((force q 0 1)).payload).modMg (fun m => { m with dirty := true })) (.ok [])))) ∧
  (∀ (s : State) (q : Req) (a : Hub) (t : Status) (d : Nat), s.hub.asks (force q 0 1) 0x0903 = true → a = s.hub.asked (force q 0 1) 0x0903 → q.txn = 0 → a.selectRefusal ((force q 0 1)).payload = some (t, d) →
    exec (.counterSelectAdd q) s = .next (s.after (s.hub.answered (force q 0 1) 0x0903 (a) (.at t d)))) ∧
  (∀ (s : State) (q : Req) (a : Hub), s.hub.asks (force q 0 2) 0x0903 = true → a = s.hub.asked (force q 0 2) 0x0903 → q.txn = 0 → a.selectRefusal ((force q 0 2)).payload = none →
    exec (.counterSelectRemove q) s = .next (s.after (s.hub.answered (force q 0 2) 0x0903 ((a.selectApply ((force q 0 2)).payload).modMg (fun m => { m with dirty := true })) (.ok [])))) ∧
  (∀ (s : State) (q : Req) (a : Hub) (t : Status) (d : Nat), s.hub.asks (force q 0 2) 0x0903 = true → a = s.hub.asked (force q 0 2) 0x0903 → q.txn = 0 → a.selectRefusal ((force q 0 2)).payload = some (t, d) →
    exec (.counterSelectRemove q) s = .next (s.after (s.hub.answered (force q 0 2) 0x0903 (a) (.at t d)))) ∧
  (∀ (h : Hub) (p : List Byte) (id : Nat), (byteAt p 0 = 0 → (id ∈ h.selected p ↔ id ∈ idsAt p 4 (le p 2 2))) ∧
    (byteAt p 0 = 1 → (id ∈ h.selected p ↔ id ∈ idsAt p 4 (le p 2 2) ∨ id ∈ h.ct.enabled)) ∧
    (byteAt p 0 = 2 → (id ∈ h.selected p ↔ id ∈ h.ct.enabled ∧ id ∉ idsAt p 4 (le p 2 2)))) ∧
  (∀ (s : State) (q : Req) (a : Hub) (x y z : Hub), s.hub.asks (force q 0 0) 0x0902 = true → a = s.hub.asked (force q 0 0) 0x0902 → q.payload.length = 4 + 4 * le q.payload 2 2 → 1 ≤ le q.payload 2 2 → byteAt q.payload 1 = 0 → (idsAt ((force q 0 0)).payload 4 (le ((force q 0 0)).payload 2 2)).findIdx? (fun i => !validId i) = none → (idsAt ((force q 0 0)).payload 4 (le ((force q 0 0)).payload 2 2)).findIdx? (fun i => groupOf i = 0 && !isCounter (i % 65536)) = none → a.ctl.ops.length < 16 → x = a.withOp q.mb 0x0902 (.bankCheck 2) → y = (idsAt ((force q 0 0)).payload 4 (le ((force q 0 0)).payload 2 2)).foldl Hub.counterZero x → z = (if (idsAt ((force q 0 0)).payload 4 (le ((force q 0 0)).payload 2 2)).length = 1 then y else y.fresh.2.until (y.fresh.2.clk.up + 1 + y.fresh.1 % (ms 5 - 1))) →
    exec (.counterClearList q) s = .next (s.after (s.hub.answered (force q 0 0) 0x0902 (z.endOp a.ctl.nextToken .ok 0 [(8, 4, x.clk.ns), (12, 4, z.clk.ns)]) (.long a.ctl.nextToken)))) ∧
  (∀ (s : State) (q : Req) (a : Hub) (i : Nat), s.hub.asks (force q 0 0) 0x0902 = true → a = s.hub.asked (force q 0 0) 0x0902 → q.payload.length = 4 + 4 * le q.payload 2 2 → 1 ≤ le q.payload 2 2 → byteAt q.payload 1 = 0 → (idsAt ((force q 0 0)).payload 4 (le ((force q 0 0)).payload 2 2)).findIdx? (fun i => !validId i) = some i →
    exec (.counterClearList q) s = .next (s.after (s.hub.answered (force q 0 0) 0x0902 (a) (.at .badParam i)))) ∧
  (∀ (s : State) (q : Req) (a : Hub) (i : Nat), s.hub.asks (force q 0 0) 0x0902 = true → a = s.hub.asked (force q 0 0) 0x0902 → q.payload.length = 4 + 4 * le q.payload 2 2 → 1 ≤ le q.payload 2 2 → byteAt q.payload 1 = 0 → (idsAt ((force q 0 0)).payload 4 (le ((force q 0 0)).payload 2 2)).findIdx? (fun i => !validId i) = none → (idsAt ((force q 0 0)).payload 4 (le ((force q 0 0)).payload 2 2)).findIdx? (fun i => groupOf i = 0 && !isCounter (i % 65536)) = some i →
    exec (.counterClearList q) s = .next (s.after (s.hub.answered (force q 0 0) 0x0902 (a) (.at .denied i)))) ∧
  (∀ (s : State) (q : Req) (a : Hub) (x y z : Hub), s.hub.asks (force q 0 1) 0x0902 = true → a = s.hub.asked (force q 0 1) 0x0902 → q.payload.length = 4 → le q.payload 2 2 = 0 → byteAt q.payload 1 ≤ 31 → a.ctl.ops.length < 16 → x = a.withOp q.mb 0x0902 (.bankCheck 2) → y = ([0, 1, 2, 3, 4].filter (bit (byteAt q.payload 1))).foldl Hub.groupZero x → z = y.fresh.2.until (y.fresh.2.clk.up + 1 + y.fresh.1 % (ms 5 - 1)) →
    exec (.counterClearGroups q) s = .next (s.after (s.hub.answered (force q 0 1) 0x0902 (z.endOp a.ctl.nextToken .ok 0 [(8, 4, x.clk.ns), (12, 4, z.clk.ns)]) (.long a.ctl.nextToken)))) ∧
  (∀ (h : Hub) (p k : Nat), p < 10 → k < 24 → mrising h.ct.events = true → validId (0x10000000 + p * 256 + k) = true ∧
    ((h.counterZero (0x10000000 + p * 256 + k)).counterRead (0x10000000 + p * 256 + k)).1 = 0)

/-- Press, bandwidth windows and samplers act as R459 to R462 say. Where the rules leave a point open it states the model's choice: log entries 2, 7, 27, 82, 142. -/
def Obligations.PressAndWindowsRecordCounters : Prop :=
  (∀ (s : State) (q : Req) (a : Hub) (t : Status), s.hub.asks (force q 0 0) 0x0904 = true → a = s.hub.asked (force q 0 0) 0x0904 → q.txn = 0 → a.pressRefusal ((force q 0 0)).payload = some t →
    exec (.pressStop q) s = .next (s.after (s.hub.answered (force q 0 0) 0x0904 (a) (.err t)))) ∧
  (∀ (s : State) (q : Req) (a : Hub) (t : Status), s.hub.asks (force q 0 1) 0x0904 = true → a = s.hub.asked (force q 0 1) 0x0904 → q.txn = 0 → a.pressRefusal ((force q 0 1)).payload = some t →
    exec (.pressStart q) s = .next (s.after (s.hub.answered (force q 0 1) 0x0904 (a) (.err t)))) ∧
  (∀ (s : State) (q : Req) (a : Hub) (t : Status), s.hub.asks (force q 0 2) 0x0904 = true → a = s.hub.asked (force q 0 2) 0x0904 → q.txn = 0 → a.pressRefusal ((force q 0 2)).payload = some t →
    exec (.pressRead q) s = .next (s.after (s.hub.answered (force q 0 2) 0x0904 (a) (.err t)))) ∧
  (∀ (s : State) (q : Req) (a : Hub), s.hub.asks (force q 0 0) 0x0904 = true → a = s.hub.asked (force q 0 0) 0x0904 → q.txn = 0 → q.payload.length = 32 → a.pressRefusal ((force q 0 0)).payload = none →
    exec (.pressStop q) s = .next (s.after (s.hub.answered (force q 0 0) 0x0904 (a.modPress (fun x => { x with running := false })) (.ok [])))) ∧
  (∀ (s : State) (q : Req) (a : Hub), s.hub.asks (force q 0 1) 0x0904 = true → a = s.hub.asked (force q 0 1) 0x0904 → q.txn = 0 → q.payload.length = 32 → a.pressRefusal ((force q 0 1)).payload = none →
    exec (.pressStart q) s = .next (s.after (s.hub.answered (force q 0 1) 0x0904 (a.modPress (fun x => ⟨true, byteAt ((force q 0 1)).payload 1, le ((force q 0 1)).payload 2 2, le ((force q 0 1)).payload 8 8, le ((force q 0 1)).payload 16 4, le ((force q 0 1)).payload 20 4, le ((force q 0 1)).payload 24 8, 0, 0, false, false, x.toldAt, 0, []⟩)) (.ok [])))) ∧
  (∀ (s : State) (q : Req) (a : Hub), s.hub.asks (force q 0 2) 0x0904 = true → a = s.hub.asked (force q 0 2) 0x0904 → q.txn = 0 → q.payload.length = 32 → a.pressRefusal ((force q 0 2)).payload = none →
    exec (.pressRead q) s = .next (s.after (s.hub.answered (force q 0 2) 0x0904 (a) (.ok (readMem a.dram (pressArea + le ((force q 0 2)).payload 20 4 * a.slotSize + le ((force q 0 2)).payload 24 8) (min 4064 (16 + 8 * le (readMem a.dram (pressArea + le ((force q 0 2)).payload 20 4 * a.slotSize + 12) 2) 0 2 - le ((force q 0 2)).payload 24 8))))))) ∧
  (∀ (s : State), s.hub.ct.press.running = false ∨ s.hub.profile = 0 →
    exec .pressLatch s = .next (s.after (s.hub))) ∧
  (∀ (s : State) (x y : Hub) (slot : Nat) (r : List Byte × Hub), s.hub.ct.press.running = true → s.hub.profile ≠ 0 → s.hub.ct.press.stepped = false → s.hub.ct.press.dest = 0 → x = s.hub.untilLine s.hub.ct.press.next → y = x.modPress (fun p => { p with k := p.k + 1, stepped := false }) → r = y.pressRecord s.hub.ct.press.gap false → slot = s.hub.ct.press.seq % max 1 s.hub.ct.press.slots → (x.pget P.CT_PRESS_WRITE 0 + 2 ^ 32 - x.pget P.CT_PRESS_READ 0) % 2 ^ 32 < s.hub.ct.press.slots → (slot + 1) * r.2.slotSize ≤ 0x4000000 → r.2.pressWriting = false →
    exec .pressLatch s = .next (s.after ((Hub.pset { r.2 with dram := writeMem r.2.dram (pressArea + slot * r.2.slotSize) r.1 } P.CT_PRESS_WRITE 0 ((Hub.pget { r.2 with dram := writeMem r.2.dram (pressArea + slot * r.2.slotSize) r.1 } P.CT_PRESS_WRITE 0 + 1) % 2 ^ 32)).pressBegun []))) ∧
  (∀ (s : State) (x y : Hub) (r : List Byte × Hub), s.hub.ct.press.running = true → s.hub.profile ≠ 0 → s.hub.ct.press.stepped = false → s.hub.ct.press.dest = 0 → x = s.hub.untilLine s.hub.ct.press.next → y = x.modPress (fun p => { p with k := p.k + 1, stepped := false }) → r = y.pressRecord s.hub.ct.press.gap false → s.hub.ct.press.slots ≤ (x.pget P.CT_PRESS_WRITE 0 + 2 ^ 32 - x.pget P.CT_PRESS_READ 0) % 2 ^ 32 →
    exec .pressLatch s = .next (s.after (r.2.pressLost 1))) ∧
  (∀ (s : State) (x y : Hub) (r : List Byte × Hub), s.hub.ct.press.running = true → s.hub.profile ≠ 0 → s.hub.ct.press.stepped = false → x = s.hub.untilLine s.hub.ct.press.next → y = x.modPress (fun p => { p with k := p.k + 1, stepped := false }) → r = y.pressRecord s.hub.ct.press.gap false → r.2.pressWriting = true →
    exec .pressLatch s = .next (s.after (r.2.pressLost 1))) ∧
  (∀ (h : Hub) (tail : List Byte), h.pressBegun tail = h.fresh.2.modPress (fun x => { x with
      seq := (x.seq + 1) % 2 ^ 32, gap := false, doneAt := h.fresh.2.clk.up + h.fresh.1 % (us 100 + 1), tail := tail })) ∧
  (∀ (h : Hub) (gap stepped : Bool), h.ct.enabled = [] → h.pressRecord gap stepped =
    (leBytes 8 h.clk.ns ++ leBytes 4 h.ct.press.seq ++ leBytes 2 0 ++ [byte (h.pget P.CT_LIST_GEN 0), byte (b2n gap + 2 * b2n stepped)], h)) ∧
  (∀ (s : State) (port w : Nat) (b : Bandwidth) (x : Hub), w = us (s.hub.pget P.CT_BW_WINDOW 0) → b = nth s.hub.ct.bw port Bandwidth.reset → x = s.hub.untilLine (roundUp (b.endAt + 1) (max 1 w)) →
    exec (.bwWindowEnd port) s = .next (s.after (x.modCt (fun c => { c with bw := modAt c.bw port (fun b =>
      if b.restart then { b with
        curIn := 0
        curOut := 0
        peakIn := 0
        peakOut := 0
        restart := false
        endAt := x.clk.ns / max 1 w * w }
      else { b with
        curIn := 0
        curOut := 0
        endAt := x.clk.ns / max 1 w * w
        lastIn := if x.ct.enabled.contains (0x40000000 + port * 256 + 0) then b.curIn else b.lastIn
        peakIn := if x.ct.enabled.contains (0x40000000 + port * 256 + 1) then max b.peakIn b.curIn else b.peakIn
        lastOut := if x.ct.enabled.contains (0x40000000 + port * 256 + 16) then b.curOut else b.lastOut
        peakOut := if x.ct.enabled.contains (0x40000000 + port * 256 + 17) then max b.peakOut b.curOut else b.peakOut }) })))) ∧
  (∀ (s : State) (k hdr : Nat), (s.hub.ct.wanted.drop k).headD false = false →
    exec (.sampleCapture k hdr) s = .next (s.after (s.hub))) ∧
  (∀ (s : State) (k hdr : Nat) (x : Hub), (s.hub.ct.wanted.drop k).headD false = true → x = s.hub.modCt (fun c => { c with wanted := c.wanted.set k false }) → 16 ≤ (nth x.ct.samples k []).length →
    exec (.sampleCapture k hdr) s = .next (s.after (x.bump P.CT_SAMPLE_LOST k))) ∧
  (∀ (s : State) (k hdr : Nat) (x : Hub), (s.hub.ct.wanted.drop k).headD false = true → x = s.hub.modCt (fun c => { c with wanted := c.wanted.set k false }) → (nth x.ct.samples k []).length < 16 →
    exec (.sampleCapture k hdr) s = .next (s.after ((x.modCt (fun c => { c with samples := modAt c.samples k (fun l => l ++ [⟨hdr % 2 ^ 128, x.clk.ns⟩]) })).event .sampleReady [(0, 1, k), (1, 1, (nth x.ct.samples k []).length + 1)])))

/-- Levels, scrambler, short code, flits and side frames give back the bits they carry, as R68, R74, R76, R77, R81 and R82 say. Where the rules leave a point open it states the model's choice: log entries 37, 38, 103, 105, 144, 160. -/
def Obligations.CodesCarryTheirBits : Prop :=
  ([0, 1, 3, 2].map pamLevel = [-3, -1, 1, 3]) ∧
  (∀ (pam : Bool) (n w : Nat), w < 2 ^ n → (pam = true → n % 2 = 0) → bitsOf pam (levelsOf pam n w) = w) ∧
  (∀ (short : Bool) (reg w : Nat), scramble short reg (scramble short reg w).2 = ((scramble short reg w).1, w) ∧
    (scramble short reg w).2 / 2 ^ (wordBits short - 2) = w / 2 ^ (wordBits short - 2)) ∧
  (∀ fs : List (List Byte), (∀ f ∈ fs, f.length = 16) → flitsOfBits fs.length (flitBits fs) = fs) ∧
  (∀ (t : Nat) (p : List Byte), t < 16 → p.length = 12 →
    sideType (sideFrame t p) = t ∧ sidePayload (sideFrame t p) = p ∧ sideGood (sideFrame t p) = sideTypes.contains t) ∧
  (∀ (short : Bool) (f : Nat), f < 2 ^ 108 →
    (List.range (sideWords short)).foldl (fun acc k => sideAppend short acc (sideBits short f k 0) (sideBits short f k 1)) 0 = f) ∧
  (∀ msg : Nat, bchEncode msg / 2 ^ 24 = msg ∧ gfRem 24 bchGen 542 (bchEncode msg) 0 = 0)
end

