-- ==== Sys2Proof/Laws/Coding.lean ====
section
/-!
SUPPORT. What the codes of a lane can do: levels spell their bits, a remainder over GF(2) is linear and short, strings of bytes and their numbers.
-/
namespace Sys2Proof.Machine

/-- The levels of n bits spell those bits behind what was spelt before. -/
theorem levelsOf_spell (pam : Bool) (n w acc : Nat) (h : pam = true → n % 2 = 0) :
    (levelsOf pam n w).foldl (fun w l => if pam then w * 4 + pamBits l else w * 2 + (if 0 < l then 1 else 0)) acc = acc * 2 ^ n + w % 2 ^ n := by
  induction n using Nat.strongRecOn generalizing acc with
  | ind n ih =>
    match n with
    | 0 => simp [levelsOf, Nat.mod_one]
    | 1 =>
      have hp : pam = false := by cases pam with | false => rfl | true => exact absurd (h rfl) (by decide)
      subst hp
      have e : w.testBit 0 = decide (w % 2 = 1) := Nat.testBit_zero w
      simp only [levelsOf, bit, e, List.foldl_cons, List.foldl_nil]
      by_cases q : w % 2 = 1
      · simp [q]
      · simp [q]; omega
    | k + 2 =>
      cases pam with
      | true =>
        have hk : k % 2 = 0 := by have := h rfl; omega
        have hb : pamBits (pamLevel (bits w k 2)) = bits w k 2 := by
          have lt : bits w k 2 < 4 := Nat.mod_lt _ (by decide)
          generalize bits w k 2 = x at lt ⊢
          interval_cases x <;> decide
        simp only [levelsOf, if_true, List.foldl_cons, hb]
        have := ih k (by omega) (acc * 4 + bits w k 2) (fun _ => hk)
        simp only [if_true] at this
        rw [this]
        have m : w % 2 ^ (k + 2) = w % 2 ^ k + 2 ^ k * (w / 2 ^ k % 4) := by rw [pow_add]; exact Nat.mod_mul
        rw [m, show bits w k 2 = w / 2 ^ k % 4 from rfl, pow_add]; ring
      | false =>
        have tb : bit w (k + 1) = decide (w / 2 ^ (k + 1) % 2 = 1) := Nat.testBit_eq_decide_div_mod_eq
        have m : w % 2 ^ (k + 2) = w % 2 ^ (k + 1) + 2 ^ (k + 1) * (w / 2 ^ (k + 1) % 2) := by rw [pow_succ 2 (k + 1)]; exact Nat.mod_mul
        have := ih (k + 1) (by omega) (acc * 2 + w / 2 ^ (k + 1) % 2) (fun e => by cases e)
        simp only [Bool.false_eq_true, if_false] at this
        simp only [levelsOf, Bool.false_eq_true, if_false, List.foldl_cons, tb]
        have e : (if (0 : Int) < (if decide (w / 2 ^ (k + 1) % 2 = 1) = true then 1 else -1) then 1 else 0) = w / 2 ^ (k + 1) % 2 := by
          by_cases q : w / 2 ^ (k + 1) % 2 = 1
          · simp [q]
          · simp [q]; omega
        rw [e, this, m, pow_succ 2 (k + 1)]; ring

/-- n bits of PRBS31 are a number of n bits. -/
theorem prbs_bits_lt (n s : Nat) : (prbs n s).2 < 2 ^ n := by
  induction n with
  | zero => simp [prbs]
  | succ n ih =>
    simp only [prbs, pow_succ]
    have : ∀ b : Bool, b2n b ≤ 1 := by decide
    have := this (bit (prbs n s).1 30 != bit (prbs n s).1 27)
    omega

/-- Bits below n leave what stands above them. -/
theorem xor_low_div (w r n : Nat) (h : r < 2 ^ n) : (w ^^^ r) / 2 ^ n = w / 2 ^ n := by
  apply Nat.eq_of_testBit_eq
  intro i
  rw [Nat.testBit_div_two_pow, Nat.testBit_div_two_pow, Nat.testBit_xor,
    Nat.testBit_lt_two_pow (x := r) (lt_of_lt_of_le h (Nat.pow_le_pow_right (by decide) (by omega)))]
  simp

/-- A remainder modulo a polynomial of degree m has m bits. -/
theorem gfRem_lt (m p n v r : Nat) (hp : p < 2 ^ (m + 1)) (hb : bit p m = true) (hr : r < 2 ^ m) : gfRem m p n v r < 2 ^ m := by
  induction n generalizing r with
  | zero => exact hr
  | succ n ih =>
    simp only [gfRem]
    have hr2 : r * 2 + b2n (bit v n) < 2 ^ (m + 1) := by
      have : ∀ b : Bool, b2n b ≤ 1 := by decide
      have := this (bit v n)
      rw [pow_succ]; omega
    apply ih
    split
    · rename_i q
      have q : Nat.testBit (r * 2 + b2n (bit v n)) m = true := q
      have hb : Nat.testBit p m = true := hb
      apply Nat.lt_pow_two_of_testBit
      intro i hi
      rw [Nat.testBit_xor]
      by_cases e : i = m
      · subst e; rw [q, hb]; rfl
      · have big : 2 ^ (m + 1) ≤ 2 ^ i := Nat.pow_le_pow_right (by decide) (by omega)
        rw [Nat.testBit_lt_two_pow (lt_of_lt_of_le hr2 big), Nat.testBit_lt_two_pow (lt_of_lt_of_le hp big)]; rfl
    · rename_i q
      have q : Nat.testBit (r * 2 + b2n (bit v n)) m = false := Bool.eq_false_iff.mpr q
      apply Nat.lt_pow_two_of_testBit
      intro i hi
      by_cases e : i = m
      · subst e; exact q
      · exact Nat.testBit_lt_two_pow (lt_of_lt_of_le hr2 (Nat.pow_le_pow_right (by decide) (by omega)))

/-- One more bit at the end of a sum over GF(2). -/
theorem shift_xor (r r' : Nat) (b b' : Bool) : (r ^^^ r') * 2 + b2n (b != b') = (r * 2 + b2n b) ^^^ (r' * 2 + b2n b') := by
  have k : ∀ (x : Nat) (c : Bool), x * 2 + b2n c = Nat.bit c x := by
    intro x c; cases c <;> simp [b2n, Nat.bit, Nat.mul_comm]
  rw [k, k, k, Nat.xor_bit]

/-- The remainder of a sum is the sum of the remainders. -/
theorem gfRem_xor (m p n v v' r r' : Nat) : gfRem m p n (v ^^^ v') (r ^^^ r') = gfRem m p n v r ^^^ gfRem m p n v' r' := by
  induction n generalizing r r' with
  | zero => rfl
  | succ n ih =>
    simp only [gfRem]
    have e : bit (v ^^^ v') n = (bit v n != bit v' n) := Nat.testBit_xor _ _ _
    rw [e, shift_xor]
    generalize r * 2 + b2n (bit v n) = a
    generalize r' * 2 + b2n (bit v' n) = a'
    rw [← ih]
    congr 1
    have e2 : bit (a ^^^ a') m = (bit a m != bit a' m) := Nat.testBit_xor _ _ _
    rw [e2]
    cases bit a m <;> cases bit a' m <;> simp [Nat.xor_comm, Nat.xor_left_comm]

/-- A polynomial of degree below m is its own remainder. -/
theorem gfRem_small (m p n v r : Nat) (h : r * 2 ^ n + v % 2 ^ n < 2 ^ m) : gfRem m p n v r = r * 2 ^ n + v % 2 ^ n := by
  induction n generalizing r with
  | zero => simp [gfRem, Nat.mod_one]
  | succ n ih =>
    have mm : v % 2 ^ (n + 1) = v % 2 ^ n + 2 ^ n * (v / 2 ^ n % 2) := by rw [pow_succ]; exact Nat.mod_mul
    have tb : b2n (bit v n) = v / 2 ^ n % 2 := by
      have : bit v n = decide (v / 2 ^ n % 2 = 1) := Nat.testBit_eq_decide_div_mod_eq
      rw [this]
      by_cases q : v / 2 ^ n % 2 = 1
      · simp [q, b2n]
      · simp [q, b2n]; omega
    have key : (r * 2 + b2n (bit v n)) * 2 ^ n + v % 2 ^ n = r * 2 ^ (n + 1) + v % 2 ^ (n + 1) := by
      rw [mm, tb, pow_succ]; ring
    have lt : r * 2 + b2n (bit v n) < 2 ^ m := by
      have : (r * 2 + b2n (bit v n)) * 1 ≤ (r * 2 + b2n (bit v n)) * 2 ^ n := Nat.mul_le_mul_left _ Nat.one_le_two_pow
      omega
    simp only [gfRem]
    have nb : bit (r * 2 + b2n (bit v n)) m = false := Nat.testBit_lt_two_pow lt
    rw [nb]
    simp only [Bool.false_eq_true, if_false]
    rw [ih _ (by rw [key]; exact h), key]

/-- A message with its remainder behind it is a multiple of the generator. -/
theorem gfRem_codeword (m p n msg : Nat) (hp : p < 2 ^ (m + 1)) (hb : bit p m = true) (hn : m ≤ n) :
    gfRem m p n (msg * 2 ^ m + gfRem m p n (msg * 2 ^ m) 0) 0 = 0 := by
  have lt := gfRem_lt m p n (msg * 2 ^ m) 0 hp hb (Nat.two_pow_pos m)
  generalize hR : gfRem m p n (msg * 2 ^ m) 0 = R at lt ⊢
  have e : msg * 2 ^ m + R = msg * 2 ^ m ^^^ R := by
    apply Nat.eq_of_testBit_eq
    intro i
    rw [Nat.mul_comm, Nat.testBit_two_pow_mul_add _ lt, Nat.testBit_xor, Nat.testBit_two_pow_mul]
    by_cases q : i < m
    · simp [q, Nat.not_le.mpr q]
    · rw [Nat.testBit_lt_two_pow (x := R) (lt_of_lt_of_le lt (Nat.pow_le_pow_right (by decide) (by omega)))]
      simp [q, Nat.not_lt.mp q]
  have l := gfRem_xor m p n (msg * 2 ^ m) R 0 0
  rw [Nat.xor_self, hR] at l
  have sm := gfRem_small m p n R 0 (by rw [Nat.zero_mul, Nat.zero_add]; exact lt_of_le_of_lt (Nat.mod_le _ _) lt)
  rw [Nat.zero_mul, Nat.zero_add, Nat.mod_eq_of_lt (lt_of_lt_of_le lt (Nat.pow_le_pow_right (by decide) hn))] at sm
  rw [e, l, sm, Nat.xor_self]

/-- The bytes of the number that bytes stand for. -/
theorem leBytes_leNat (l : List Byte) : leBytes l.length (leNat l) = l := by
  induction l with
  | nil => rfl
  | cons b l ih =>
    have hb := b.isLt
    simp only [leNat, List.length_cons, leBytes]
    have e1 : (b.toNat + 256 * leNat l) / 256 = leNat l := by omega
    rw [e1, ih]
    congr 1
    simp [byte]
    apply BitVec.eq_of_toNat_eq
    simp
    exact hb

/-- The bytes of the number that bytes stand for, most significant first. -/
theorem beBytes_beNat (l : List Byte) : beBytes l.length (beNat l) = l := by
  have := leBytes_leNat l.reverse
  rw [List.length_reverse] at this
  simp only [beBytes, beNat, this, List.reverse_reverse]

/-- A string of n bytes stands for a number below 256ⁿ. -/
theorem leNat_lt (l : List Byte) : leNat l < 256 ^ l.length := by
  induction l with
  | nil => decide
  | cons b l ih => have := b.isLt; simp only [leNat, List.length_cons, pow_succ]; omega

/-- So does one read most significant byte first. -/
theorem beNat_lt (l : List Byte) : beNat l < 256 ^ l.length := by
  have := leNat_lt l.reverse; rwa [List.length_reverse] at this

/-- The number of two strings joined. -/
theorem leNat_append (a b : List Byte) : leNat (a ++ b) = leNat a + 256 ^ a.length * leNat b := by
  induction a with
  | nil => simp [leNat]
  | cons x a ih => simp only [List.cons_append, leNat, ih, List.length_cons, pow_succ]; ring

/-- The number of two strings joined, most significant byte first. -/
theorem beNat_append (a b : List Byte) : beNat (a ++ b) = beNat a * 256 ^ b.length + beNat b := by
  simp only [beNat, List.reverse_append, leNat_append, List.length_reverse]; ring

/-- A string that has the length is not changed. -/
theorem fit_of_length (n : Nat) (l : List Byte) (h : l.length = n) : fit n l = l := by
  simp [fit, slice, ← h]

/-- A step of the CRC-8 register stays in 8 bits. -/
theorem crc8Bit_lt (c : Nat) (b : Bool) (_ : c < 256) : crcBit 8 7 c b < 256 := by
  have s : c * 2 % 2 ^ 8 < 2 ^ 8 := Nat.mod_lt _ (by decide)
  simp only [crcBit]
  split
  · exact Nat.xor_lt_two_pow s (by decide)
  · exact s

/-- A bound that each step keeps. -/
theorem foldl_lt {α : Type} (f : Nat → α → Nat) (n : Nat) (hf : ∀ c a, c < n → f c a < n) (l : List α) (c : Nat) (h : c < n) :
    l.foldl f c < n := by
  induction l generalizing c with
  | nil => exact h
  | cons a l ih => exact ih _ (hf c a h)

/-- SFCRC is a byte. -/
theorem crc8_lt (t : Nat) (p : List Byte) : crc8 t p < 256 :=
  foldl_lt _ _ (fun _ _ h => foldl_lt _ _ crc8Bit_lt _ _ h) _ _ (foldl_lt _ _ (fun _ _ h => crc8Bit_lt _ _ h) _ _ (by decide))

end Sys2Proof.Machine
end

