-- ==== Sys2Proof/Laws/Maps.lean ====
section
/-!
SUPPORT. What the operations on canonical maps do: reading after a write, and the form that every write keeps; the same for byte memories
and for lists of like things.
-/
namespace Sys2Proof.Machine

variable {α : Type}

/-! ## The canonical form -/

/-- Every key of the map is above k. -/
def mabove (k : Nat) (m : Map α) : Prop := ∀ e ∈ m, k < e.1

theorem mrising_cons (e : Nat × α) (m : Map α) : mrising (e :: m) = true ↔ mabove e.1 m ∧ mrising m = true := by
  induction m generalizing e with
  | nil => simp [mrising, mabove]
  | cons f m ih =>
    obtain ⟨j, v⟩ := e
    obtain ⟨k, w⟩ := f
    simp only [mrising, Bool.and_eq_true, decide_eq_true_eq, mabove, List.mem_cons, forall_eq_or_imp, ih ⟨k, w⟩]
    constructor
    · rintro ⟨h, a, r⟩
      exact ⟨⟨h, fun e he => Nat.lt_trans h (a e he)⟩, a, r⟩
    · rintro ⟨⟨h, _⟩, a, r⟩
      exact ⟨h, a, r⟩

theorem mabove_mono {j k : Nat} {m : Map α} (h : j ≤ k) (a : mabove k m) : mabove j m := fun e he => Nat.lt_of_le_of_lt h (a e he)

theorem mget_of_mabove (d : α) {k : Nat} {m : Map α} (a : mabove k m) : mget d m k = d := by
  induction m with
  | nil => rfl
  | cons e m ih =>
    obtain ⟨j, v⟩ := e
    have h : k < j := a (j, v) (by simp)
    simp only [mget, Nat.ne_of_lt h, if_false]
    exact ih (fun e he => a e (by simp [he]))

theorem mabove_merase {j k : Nat} {m : Map α} (a : mabove j m) : mabove j (merase m k) := by
  induction m with
  | nil => exact a
  | cons e m ih =>
    obtain ⟨i, v⟩ := e
    have a' : mabove j m := fun e he => a e (by simp [he])
    simp only [merase]
    split
    · exact a'
    · intro e he
      rcases List.mem_cons.mp he with rfl | he
      · exact a _ (by simp)
      · exact ih a' e he

theorem mabove_minsert {j k : Nat} {v : α} {m : Map α} (h : j < k) (a : mabove j m) : mabove j (minsert m k v) := by
  induction m with
  | nil => intro e he; simp [minsert] at he; subst he; exact h
  | cons e m ih =>
    obtain ⟨i, w⟩ := e
    have a' : mabove j m := fun e he => a e (by simp [he])
    simp only [minsert]
    split
    · intro e he
      rcases List.mem_cons.mp he with rfl | he
      · exact h
      · exact a e he
    · split
      · intro e he
        rcases List.mem_cons.mp he with rfl | he
        · exact h
        · exact a' e he
      · intro e he
        rcases List.mem_cons.mp he with rfl | he
        · exact a _ (by simp)
        · exact ih a' e he

theorem mrising_merase {k : Nat} {m : Map α} (h : mrising m = true) : mrising (merase m k) = true := by
  induction m with
  | nil => rfl
  | cons e m ih =>
    obtain ⟨j, v⟩ := e
    rw [mrising_cons] at h
    simp only [merase]
    split
    · exact h.2
    · rw [mrising_cons]; exact ⟨mabove_merase h.1, ih h.2⟩

theorem mrising_minsert {k : Nat} {v : α} {m : Map α} (h : mrising m = true) : mrising (minsert m k v) = true := by
  induction m with
  | nil => rfl
  | cons e m ih =>
    obtain ⟨j, w⟩ := e
    have h' := (mrising_cons _ _).mp h
    simp only [minsert]
    split
    · rename_i hk
      rw [mrising_cons]
      refine ⟨fun e he => ?_, h⟩
      rcases List.mem_cons.mp he with rfl | he
      · exact hk
      · exact Nat.lt_trans hk (h'.1 e he)
    · split
      · rename_i hk
        subst hk
        rw [mrising_cons]; exact h'
      · rename_i hk hj
        rw [mrising_cons]
        exact ⟨mabove_minsert (by omega) h'.1, ih h'.2⟩

theorem mall_merase (p : Nat × α → Bool) {k : Nat} {m : Map α} (h : m.all p = true) : (merase m k).all p = true := by
  induction m with
  | nil => rfl
  | cons e m ih =>
    obtain ⟨j, v⟩ := e
    simp only [List.all_cons, Bool.and_eq_true] at h
    simp only [merase]
    split
    · exact h.2
    · simp [h.1, ih h.2]

theorem mall_minsert (p : Nat × α → Bool) {k : Nat} {v : α} {m : Map α} (hv : p (k, v) = true) (h : m.all p = true) :
    (minsert m k v).all p = true := by
  induction m with
  | nil => simp [minsert, hv]
  | cons e m ih =>
    obtain ⟨j, w⟩ := e
    simp only [List.all_cons, Bool.and_eq_true] at h
    simp only [minsert]
    split
    · simp [hv, h.1, h.2]
    · split
      · simp [hv, h.2]
      · simp [h.1, ih h.2]

/-- A write keeps the canonical form. -/
theorem mwf_mset [DecidableEq α] (d : α) (m : Map α) (k : Nat) (v : α) (h : mwf d m = true) : mwf d (mset d m k v) = true := by
  simp only [mwf, Bool.and_eq_true] at h ⊢
  unfold mset
  split
  · exact ⟨mrising_merase h.1, mall_merase _ h.2⟩
  · rename_i hv
    exact ⟨mrising_minsert h.1, mall_minsert _ (by simpa using hv) h.2⟩

/-- A change of one key keeps the canonical form. -/
theorem mwf_mmod [DecidableEq α] (d : α) (m : Map α) (k : Nat) (f : α → α) (h : mwf d m = true) : mwf d (mmod d m k f) = true := mwf_mset d m k _ h

/-! ## Reading after a write -/

theorem mget_minsert (d : α) (m : Map α) (k : Nat) (v : α) (j : Nat) :
    mget d (minsert m k v) j = if j = k then v else mget d m j := by
  induction m with
  | nil => simp [minsert, mget]
  | cons e m ih =>
    obtain ⟨i, w⟩ := e
    simp only [minsert]
    split
    · simp [mget]
    · split
      · rename_i h
        subst h
        simp only [mget]
        split <;> simp_all
      · rename_i h1 h2
        simp only [mget, ih]
        by_cases hj : j = i
        · subst hj; simp; intro h; omega
        · simp [hj]

theorem mget_merase_other (d : α) (m : Map α) {k j : Nat} (h : j ≠ k) : mget d (merase m k) j = mget d m j := by
  induction m with
  | nil => rfl
  | cons e m ih =>
    obtain ⟨i, w⟩ := e
    simp only [merase]
    split
    · rename_i hk
      subst hk
      simp [mget, h]
    · simp [mget, ih]

theorem mget_merase_same (d : α) (m : Map α) (k : Nat) (h : mrising m = true) : mget d (merase m k) k = d := by
  induction m with
  | nil => rfl
  | cons e m ih =>
    obtain ⟨i, w⟩ := e
    rw [mrising_cons] at h
    simp only [merase]
    split
    · rename_i hk
      subst hk
      exact mget_of_mabove d h.1
    · rename_i hk
      simp [mget, hk, ih h.2]

/-- Another key reads as before a write, whatever the map. -/
theorem mget_mset_other [DecidableEq α] (d e : α) (m : Map α) {k j : Nat} (v : α) (h : j ≠ k) : mget e (mset d m k v) j = mget e m j := by
  unfold mset
  split
  · exact mget_merase_other e m h
  · simp [mget_minsert, h]

/-- The written key reads as the value, in a map of rising keys. -/
theorem mget_mset_same [DecidableEq α] (d : α) (m : Map α) (k : Nat) (v : α) (h : mrising m = true) : mget d (mset d m k v) k = v := by
  unfold mset
  split
  · rename_i hv
    rw [hv]; exact mget_merase_same d m k h
  · simp [mget_minsert]

/-- The written key reads as a value that unlisted keys do not have, whatever the map. -/
theorem mget_mset_new [DecidableEq α] (d : α) (m : Map α) (k : Nat) (v : α) (h : v ≠ d) : mget d (mset d m k v) k = v := by
  simp [mset, h, mget_minsert]

/-! ## Byte memories -/

theorem writeByte_wf (m : List Host.Cell) (a : Nat) (b : Byte) (h : Memory.wf m = true) : Memory.wf (writeByte m a b) = true :=
  mwf_mset unlisted m a b h

/-- Writing bytes keeps the canonical form. -/
theorem writeMem_wf (m : List Host.Cell) (a : Nat) (bs : List Byte) (h : Memory.wf m = true) : Memory.wf (writeMem m a bs) = true := by
  induction bs generalizing m a with
  | nil => exact h
  | cons b bs ih => exact ih _ _ (writeByte_wf m a b h)

theorem readByte_writeByte_other (m : List Host.Cell) {a x : Nat} (b : Byte) (h : x ≠ a) : readByte (writeByte m a b) x = readByte m x :=
  mget_mset_other unlisted unlisted m b h

theorem readByte_writeByte_same (m : List Host.Cell) (a : Nat) (b : Byte) (h : Memory.wf m = true) : readByte (writeByte m a b) a = b := by
  simp only [Memory.wf, mwf, Bool.and_eq_true] at h
  exact mget_mset_same unlisted m a b h.1

theorem mabove_filter (p : Nat × α → Bool) {k : Nat} {m : Map α} (a : mabove k m) : mabove k (m.filter p) :=
  fun e he => a e (List.mem_filter.mp he).1

theorem mrising_filter (p : Nat × α → Bool) {m : Map α} (h : mrising m = true) : mrising (m.filter p) = true := by
  induction m with
  | nil => rfl
  | cons e m ih =>
    rw [mrising_cons] at h
    simp only [List.filter_cons]
    split
    · rw [mrising_cons]; exact ⟨mabove_filter p h.1, ih h.2⟩
    · exact ih h.2

theorem mrising_append {l m : Map α} (hl : mrising l = true) (hm : mrising m = true) (h : ∀ a ∈ l, ∀ b ∈ m, a.1 < b.1) :
    mrising (l ++ m) = true := by
  induction l with
  | nil => exact hm
  | cons e l ih =>
    rw [mrising_cons] at hl
    rw [List.cons_append, mrising_cons]
    refine ⟨fun f hf => ?_, ih hl.2 (fun a ha b hb => h a (by simp [ha]) b hb)⟩
    rcases List.mem_append.mp hf with hf | hf
    · exact hl.1 f hf
    · exact h e (by simp) f hf

theorem mrising_shift (s d : Nat) {m : Map α} (h : mrising m = true) (hs : ∀ e ∈ m, s ≤ e.1) :
    mrising (m.map (fun c => (c.1 - s + d, c.2))) = true := by
  induction m with
  | nil => rfl
  | cons e m ih =>
    rw [mrising_cons] at h
    rw [List.map_cons, mrising_cons]
    refine ⟨fun f hf => ?_, ih h.2 (fun e he => hs e (by simp [he]))⟩
    obtain ⟨g, hg, rfl⟩ := List.mem_map.mp hf
    have h1 := h.1 g hg
    have h2 := hs e (by simp)
    simp only
    omega

/-- Copying bytes keeps the canonical form. -/
theorem copyMem_wf (m : List Host.Cell) (src dst n : Nat) (h : Memory.wf m = true) : Memory.wf (copyMem m src dst n) = true := by
  simp only [Memory.wf, mwf, Bool.and_eq_true] at h ⊢
  have hall : ∀ e ∈ m, e.2 ≠ unlisted := by
    intro e he
    have := List.all_eq_true.mp h.2 e he
    simpa using this
  constructor
  · unfold copyMem
    refine mrising_append (mrising_append (mrising_filter _ h.1) (mrising_shift _ _ (mrising_filter _ h.1) ?_) ?_) (mrising_filter _ h.1) ?_
    · intro e he
      have := (List.mem_filter.mp he).2
      simp at this; exact this.1
    · intro a ha b hb
      have h1 := (List.mem_filter.mp ha).2
      obtain ⟨g, hg, rfl⟩ := List.mem_map.mp hb
      have h2 := (List.mem_filter.mp hg).2
      simp at h1 h2 ⊢
      omega
    · intro a ha b hb
      have hb2 := (List.mem_filter.mp hb).2
      rcases List.mem_append.mp ha with ha | ha
      · have h1 := (List.mem_filter.mp ha).2
        simp at h1 hb2
        omega
      · obtain ⟨g, hg, rfl⟩ := List.mem_map.mp ha
        have h2 := (List.mem_filter.mp hg).2
        simp at h2 hb2 ⊢
        omega
  · rw [List.all_eq_true]
    intro e he
    unfold copyMem at he
    rcases List.mem_append.mp he with he | he
    · rcases List.mem_append.mp he with he | he
      · simpa using hall e (List.mem_filter.mp he).1
      · obtain ⟨g, hg, rfl⟩ := List.mem_map.mp he
        simpa using hall g (List.mem_filter.mp hg).1
    · simpa using hall e (List.mem_filter.mp he).1

/-! ## Lists of like things -/

theorem nth_modAt_same {β : Type} (l : List β) (i : Nat) (f : β → β) (d : β) (h : i < l.length) :
    nth (modAt l i f) i d = f (nth l i d) := by
  induction l generalizing i with
  | nil => simp at h
  | cons x l ih =>
    cases i with
    | zero => rfl
    | succ i => simpa [nth, modAt] using ih i (by simpa using h)

theorem nth_modAt_other {β : Type} (l : List β) {i j : Nat} (f : β → β) (d : β) (h : j ≠ i) : nth (modAt l i f) j d = nth l j d := by
  induction l generalizing i j with
  | nil => rfl
  | cons x l ih =>
    cases i with
    | zero =>
      cases j with
      | zero => exact absurd rfl h
      | succ j => rfl
    | succ i =>
      cases j with
      | zero => rfl
      | succ j => simpa [nth, modAt] using ih (i := i) (j := j) (by omega)

theorem modAt_big {β : Type} (l : List β) (i : Nat) (f : β → β) (h : l.length ≤ i) : modAt l i f = l := by
  induction l generalizing i with
  | nil => rfl
  | cons x l ih =>
    cases i with
    | zero => simp at h
    | succ i => simp [modAt, ih i (by simpa using h)]

theorem nth_big {β : Type} (l : List β) (i : Nat) (d : β) (h : l.length ≤ i) : nth l i d = d := by
  simp [nth, List.drop_eq_nil_of_le h]

@[simp] theorem length_modAt {β : Type} (l : List β) (i : Nat) (f : β → β) : (modAt l i f).length = l.length := by
  induction l generalizing i with
  | nil => rfl
  | cons x l ih => cases i <;> simp [modAt, ih]

@[simp] theorem modAt_modAt {β : Type} (l : List β) (i : Nat) (f g : β → β) : modAt (modAt l i f) i g = modAt l i (fun x => g (f x)) := by
  induction l generalizing i with
  | nil => rfl
  | cons x l ih => cases i <;> simp [modAt, ih]

/-- A change that leaves its element leaves the list. -/
theorem modAt_fix {β : Type} (l : List β) (i : Nat) (f : β → β) (d : β) (h : f (nth l i d) = nth l i d) : modAt l i f = l := by
  induction l generalizing i with
  | nil => rfl
  | cons x l ih =>
    cases i with
    | zero => simpa [modAt, nth] using h
    | succ i => simp [modAt, ih i (by simpa [nth] using h)]

end Sys2Proof.Machine
end

