-- ==== Sys2Proof/Laws/State.lean ====
section
/-!
SUPPORT. What each named update of the hub leaves in each field: one lemma per update and field, true by definition.
-/
namespace Sys2Proof.Machine

/-! ## Hub.pset -/

@[simp] theorem Hub.pset_params (h : Hub) (pid inst v : Nat) : (h.pset pid inst v).params = mset (BitVec.ofNat 64 (paramDefault pid inst)) h.params (pkey pid inst) (BitVec.ofNat 64 v) := rfl
@[simp] theorem Hub.pset_clk (h : Hub) (pid inst v : Nat) : (h.pset pid inst v).clk = h.clk := rfl
@[simp] theorem Hub.pset_straps (h : Hub) (pid inst v : Nat) : (h.pset pid inst v).straps = h.straps := rfl
@[simp] theorem Hub.pset_nvStore (h : Hub) (pid inst v : Nat) : (h.pset pid inst v).nvStore = h.nvStore := rfl
@[simp] theorem Hub.pset_tables (h : Hub) (pid inst v : Nat) : (h.pset pid inst v).tables = h.tables := rfl
@[simp] theorem Hub.pset_dram (h : Hub) (pid inst v : Nat) : (h.pset pid inst v).dram = h.dram := rfl
@[simp] theorem Hub.pset_hostMem (h : Hub) (pid inst v : Nat) : (h.pset pid inst v).hostMem = h.hostMem := rfl
@[simp] theorem Hub.pset_ctl (h : Hub) (pid inst v : Nat) : (h.pset pid inst v).ctl = h.ctl := rfl
@[simp] theorem Hub.pset_ports (h : Hub) (pid inst v : Nat) : (h.pset pid inst v).ports = h.ports := rfl
@[simp] theorem Hub.pset_sw (h : Hub) (pid inst v : Nat) : (h.pset pid inst v).sw = h.sw := rfl
@[simp] theorem Hub.pset_tn (h : Hub) (pid inst v : Nat) : (h.pset pid inst v).tn = h.tn := rfl
@[simp] theorem Hub.pset_al (h : Hub) (pid inst v : Nat) : (h.pset pid inst v).al = h.al := rfl
@[simp] theorem Hub.pset_rl (h : Hub) (pid inst v : Nat) : (h.pset pid inst v).rl = h.rl := rfl
@[simp] theorem Hub.pset_lint (h : Hub) (pid inst v : Nat) : (h.pset pid inst v).lint = h.lint := rfl
@[simp] theorem Hub.pset_isl (h : Hub) (pid inst v : Nat) : (h.pset pid inst v).isl = h.isl := rfl
@[simp] theorem Hub.pset_ct (h : Hub) (pid inst v : Nat) : (h.pset pid inst v).ct = h.ct := rfl
@[simp] theorem Hub.pset_svcHost (h : Hub) (pid inst v : Nat) : (h.pset pid inst v).svcHost = h.svcHost := rfl
@[simp] theorem Hub.pset_ag (h : Hub) (pid inst v : Nat) : (h.pset pid inst v).ag = h.ag := rfl
@[simp] theorem Hub.pset_de (h : Hub) (pid inst v : Nat) : (h.pset pid inst v).de = h.de := rfl
@[simp] theorem Hub.pset_br (h : Hub) (pid inst v : Nat) : (h.pset pid inst v).br = h.br := rfl
@[simp] theorem Hub.pset_eth (h : Hub) (pid inst v : Nat) : (h.pset pid inst v).eth = h.eth := rfl
@[simp] theorem Hub.pset_fu (h : Hub) (pid inst v : Nat) : (h.pset pid inst v).fu = h.fu := rfl
@[simp] theorem Hub.pset_usb (h : Hub) (pid inst v : Nat) : (h.pset pid inst v).usb = h.usb := rfl
@[simp] theorem Hub.pset_tc (h : Hub) (pid inst v : Nat) : (h.pset pid inst v).tc = h.tc := rfl
@[simp] theorem Hub.pset_ds (h : Hub) (pid inst v : Nat) : (h.pset pid inst v).ds = h.ds := rfl
@[simp] theorem Hub.pset_pw (h : Hub) (pid inst v : Nat) : (h.pset pid inst v).pw = h.pw := rfl
@[simp] theorem Hub.pset_ky (h : Hub) (pid inst v : Nat) : (h.pset pid inst v).ky = h.ky := rfl
@[simp] theorem Hub.pset_mg (h : Hub) (pid inst v : Nat) : (h.pset pid inst v).mg = h.mg := rfl
@[simp] theorem Hub.pset_su (h : Hub) (pid inst v : Nat) : (h.pset pid inst v).su = h.su := rfl
@[simp] theorem Hub.pset_inbox (h : Hub) (pid inst v : Nat) : (h.pset pid inst v).inbox = h.inbox := rfl
@[simp] theorem Hub.pset_outbox (h : Hub) (pid inst v : Nat) : (h.pset pid inst v).outbox = h.outbox := rfl
@[simp] theorem Hub.pset_free (h : Hub) (pid inst v : Nat) : (h.pset pid inst v).free = h.free := rfl

/-! ## Hub.tset -/

@[simp] theorem Hub.tset_tables (h : Hub) (table index v : Nat) : (h.tset table index v).tables = mset 0 h.tables (tkey table index) v := rfl
@[simp] theorem Hub.tset_clk (h : Hub) (table index v : Nat) : (h.tset table index v).clk = h.clk := rfl
@[simp] theorem Hub.tset_straps (h : Hub) (table index v : Nat) : (h.tset table index v).straps = h.straps := rfl
@[simp] theorem Hub.tset_params (h : Hub) (table index v : Nat) : (h.tset table index v).params = h.params := rfl
@[simp] theorem Hub.tset_nvStore (h : Hub) (table index v : Nat) : (h.tset table index v).nvStore = h.nvStore := rfl
@[simp] theorem Hub.tset_dram (h : Hub) (table index v : Nat) : (h.tset table index v).dram = h.dram := rfl
@[simp] theorem Hub.tset_hostMem (h : Hub) (table index v : Nat) : (h.tset table index v).hostMem = h.hostMem := rfl
@[simp] theorem Hub.tset_ctl (h : Hub) (table index v : Nat) : (h.tset table index v).ctl = h.ctl := rfl
@[simp] theorem Hub.tset_ports (h : Hub) (table index v : Nat) : (h.tset table index v).ports = h.ports := rfl
@[simp] theorem Hub.tset_sw (h : Hub) (table index v : Nat) : (h.tset table index v).sw = h.sw := rfl
@[simp] theorem Hub.tset_tn (h : Hub) (table index v : Nat) : (h.tset table index v).tn = h.tn := rfl
@[simp] theorem Hub.tset_al (h : Hub) (table index v : Nat) : (h.tset table index v).al = h.al := rfl
@[simp] theorem Hub.tset_rl (h : Hub) (table index v : Nat) : (h.tset table index v).rl = h.rl := rfl
@[simp] theorem Hub.tset_lint (h : Hub) (table index v : Nat) : (h.tset table index v).lint = h.lint := rfl
@[simp] theorem Hub.tset_isl (h : Hub) (table index v : Nat) : (h.tset table index v).isl = h.isl := rfl
@[simp] theorem Hub.tset_ct (h : Hub) (table index v : Nat) : (h.tset table index v).ct = h.ct := rfl
@[simp] theorem Hub.tset_svcHost (h : Hub) (table index v : Nat) : (h.tset table index v).svcHost = h.svcHost := rfl
@[simp] theorem Hub.tset_ag (h : Hub) (table index v : Nat) : (h.tset table index v).ag = h.ag := rfl
@[simp] theorem Hub.tset_de (h : Hub) (table index v : Nat) : (h.tset table index v).de = h.de := rfl
@[simp] theorem Hub.tset_br (h : Hub) (table index v : Nat) : (h.tset table index v).br = h.br := rfl
@[simp] theorem Hub.tset_eth (h : Hub) (table index v : Nat) : (h.tset table index v).eth = h.eth := rfl
@[simp] theorem Hub.tset_fu (h : Hub) (table index v : Nat) : (h.tset table index v).fu = h.fu := rfl
@[simp] theorem Hub.tset_usb (h : Hub) (table index v : Nat) : (h.tset table index v).usb = h.usb := rfl
@[simp] theorem Hub.tset_tc (h : Hub) (table index v : Nat) : (h.tset table index v).tc = h.tc := rfl
@[simp] theorem Hub.tset_ds (h : Hub) (table index v : Nat) : (h.tset table index v).ds = h.ds := rfl
@[simp] theorem Hub.tset_pw (h : Hub) (table index v : Nat) : (h.tset table index v).pw = h.pw := rfl
@[simp] theorem Hub.tset_ky (h : Hub) (table index v : Nat) : (h.tset table index v).ky = h.ky := rfl
@[simp] theorem Hub.tset_mg (h : Hub) (table index v : Nat) : (h.tset table index v).mg = h.mg := rfl
@[simp] theorem Hub.tset_su (h : Hub) (table index v : Nat) : (h.tset table index v).su = h.su := rfl
@[simp] theorem Hub.tset_inbox (h : Hub) (table index v : Nat) : (h.tset table index v).inbox = h.inbox := rfl
@[simp] theorem Hub.tset_outbox (h : Hub) (table index v : Nat) : (h.tset table index v).outbox = h.outbox := rfl
@[simp] theorem Hub.tset_free (h : Hub) (table index v : Nat) : (h.tset table index v).free = h.free := rfl

/-! ## Hub.out -/

@[simp] theorem Hub.out_outbox (h : Hub) (o : Output) : (h.out o).outbox = h.outbox ++ [o] := rfl
@[simp] theorem Hub.out_clk (h : Hub) (o : Output) : (h.out o).clk = h.clk := rfl
@[simp] theorem Hub.out_straps (h : Hub) (o : Output) : (h.out o).straps = h.straps := rfl
@[simp] theorem Hub.out_params (h : Hub) (o : Output) : (h.out o).params = h.params := rfl
@[simp] theorem Hub.out_nvStore (h : Hub) (o : Output) : (h.out o).nvStore = h.nvStore := rfl
@[simp] theorem Hub.out_tables (h : Hub) (o : Output) : (h.out o).tables = h.tables := rfl
@[simp] theorem Hub.out_dram (h : Hub) (o : Output) : (h.out o).dram = h.dram := rfl
@[simp] theorem Hub.out_hostMem (h : Hub) (o : Output) : (h.out o).hostMem = h.hostMem := rfl
@[simp] theorem Hub.out_ctl (h : Hub) (o : Output) : (h.out o).ctl = h.ctl := rfl
@[simp] theorem Hub.out_ports (h : Hub) (o : Output) : (h.out o).ports = h.ports := rfl
@[simp] theorem Hub.out_sw (h : Hub) (o : Output) : (h.out o).sw = h.sw := rfl
@[simp] theorem Hub.out_tn (h : Hub) (o : Output) : (h.out o).tn = h.tn := rfl
@[simp] theorem Hub.out_al (h : Hub) (o : Output) : (h.out o).al = h.al := rfl
@[simp] theorem Hub.out_rl (h : Hub) (o : Output) : (h.out o).rl = h.rl := rfl
@[simp] theorem Hub.out_lint (h : Hub) (o : Output) : (h.out o).lint = h.lint := rfl
@[simp] theorem Hub.out_isl (h : Hub) (o : Output) : (h.out o).isl = h.isl := rfl
@[simp] theorem Hub.out_ct (h : Hub) (o : Output) : (h.out o).ct = h.ct := rfl
@[simp] theorem Hub.out_svcHost (h : Hub) (o : Output) : (h.out o).svcHost = h.svcHost := rfl
@[simp] theorem Hub.out_ag (h : Hub) (o : Output) : (h.out o).ag = h.ag := rfl
@[simp] theorem Hub.out_de (h : Hub) (o : Output) : (h.out o).de = h.de := rfl
@[simp] theorem Hub.out_br (h : Hub) (o : Output) : (h.out o).br = h.br := rfl
@[simp] theorem Hub.out_eth (h : Hub) (o : Output) : (h.out o).eth = h.eth := rfl
@[simp] theorem Hub.out_fu (h : Hub) (o : Output) : (h.out o).fu = h.fu := rfl
@[simp] theorem Hub.out_usb (h : Hub) (o : Output) : (h.out o).usb = h.usb := rfl
@[simp] theorem Hub.out_tc (h : Hub) (o : Output) : (h.out o).tc = h.tc := rfl
@[simp] theorem Hub.out_ds (h : Hub) (o : Output) : (h.out o).ds = h.ds := rfl
@[simp] theorem Hub.out_pw (h : Hub) (o : Output) : (h.out o).pw = h.pw := rfl
@[simp] theorem Hub.out_ky (h : Hub) (o : Output) : (h.out o).ky = h.ky := rfl
@[simp] theorem Hub.out_mg (h : Hub) (o : Output) : (h.out o).mg = h.mg := rfl
@[simp] theorem Hub.out_su (h : Hub) (o : Output) : (h.out o).su = h.su := rfl
@[simp] theorem Hub.out_inbox (h : Hub) (o : Output) : (h.out o).inbox = h.inbox := rfl
@[simp] theorem Hub.out_free (h : Hub) (o : Output) : (h.out o).free = h.free := rfl

/-! ## Hub.advance -/

@[simp] theorem Hub.advance_clk (h : Hub) (n : Nat) : (h.advance n).clk = h.clockAfter n := rfl
@[simp] theorem Hub.advance_straps (h : Hub) (n : Nat) : (h.advance n).straps = h.straps := rfl
@[simp] theorem Hub.advance_params (h : Hub) (n : Nat) : (h.advance n).params = h.params := rfl
@[simp] theorem Hub.advance_nvStore (h : Hub) (n : Nat) : (h.advance n).nvStore = h.nvStore := rfl
@[simp] theorem Hub.advance_tables (h : Hub) (n : Nat) : (h.advance n).tables = h.tables := rfl
@[simp] theorem Hub.advance_dram (h : Hub) (n : Nat) : (h.advance n).dram = h.dram := rfl
@[simp] theorem Hub.advance_hostMem (h : Hub) (n : Nat) : (h.advance n).hostMem = h.hostMem := rfl
@[simp] theorem Hub.advance_ctl (h : Hub) (n : Nat) : (h.advance n).ctl = h.ctl := rfl
@[simp] theorem Hub.advance_ports (h : Hub) (n : Nat) : (h.advance n).ports = h.ports := rfl
@[simp] theorem Hub.advance_sw (h : Hub) (n : Nat) : (h.advance n).sw = h.sw := rfl
@[simp] theorem Hub.advance_tn (h : Hub) (n : Nat) : (h.advance n).tn = h.tn := rfl
@[simp] theorem Hub.advance_al (h : Hub) (n : Nat) : (h.advance n).al = h.al := rfl
@[simp] theorem Hub.advance_rl (h : Hub) (n : Nat) : (h.advance n).rl = h.rl := rfl
@[simp] theorem Hub.advance_lint (h : Hub) (n : Nat) : (h.advance n).lint = h.lint := rfl
@[simp] theorem Hub.advance_isl (h : Hub) (n : Nat) : (h.advance n).isl = h.isl := rfl
@[simp] theorem Hub.advance_ct (h : Hub) (n : Nat) : (h.advance n).ct = h.ct := rfl
@[simp] theorem Hub.advance_svcHost (h : Hub) (n : Nat) : (h.advance n).svcHost = h.svcHost := rfl
@[simp] theorem Hub.advance_ag (h : Hub) (n : Nat) : (h.advance n).ag = h.ag := rfl
@[simp] theorem Hub.advance_de (h : Hub) (n : Nat) : (h.advance n).de = h.de := rfl
@[simp] theorem Hub.advance_br (h : Hub) (n : Nat) : (h.advance n).br = h.br := rfl
@[simp] theorem Hub.advance_eth (h : Hub) (n : Nat) : (h.advance n).eth = h.eth := rfl
@[simp] theorem Hub.advance_fu (h : Hub) (n : Nat) : (h.advance n).fu = h.fu := rfl
@[simp] theorem Hub.advance_usb (h : Hub) (n : Nat) : (h.advance n).usb = h.usb := rfl
@[simp] theorem Hub.advance_tc (h : Hub) (n : Nat) : (h.advance n).tc = h.tc := rfl
@[simp] theorem Hub.advance_ds (h : Hub) (n : Nat) : (h.advance n).ds = h.ds := rfl
@[simp] theorem Hub.advance_pw (h : Hub) (n : Nat) : (h.advance n).pw = h.pw := rfl
@[simp] theorem Hub.advance_ky (h : Hub) (n : Nat) : (h.advance n).ky = h.ky := rfl
@[simp] theorem Hub.advance_mg (h : Hub) (n : Nat) : (h.advance n).mg = h.mg := rfl
@[simp] theorem Hub.advance_su (h : Hub) (n : Nat) : (h.advance n).su = h.su := rfl
@[simp] theorem Hub.advance_inbox (h : Hub) (n : Nat) : (h.advance n).inbox = h.inbox := rfl
@[simp] theorem Hub.advance_outbox (h : Hub) (n : Nat) : (h.advance n).outbox = h.outbox := rfl
@[simp] theorem Hub.advance_free (h : Hub) (n : Nat) : (h.advance n).free = h.free := rfl

/-! ## Hub.modPort -/

@[simp] theorem Hub.modPort_ports (h : Hub) (p : Nat) (f : Port → Port) : (h.modPort p f).ports = modAt h.ports p f := rfl
@[simp] theorem Hub.modPort_clk (h : Hub) (p : Nat) (f : Port → Port) : (h.modPort p f).clk = h.clk := rfl
@[simp] theorem Hub.modPort_straps (h : Hub) (p : Nat) (f : Port → Port) : (h.modPort p f).straps = h.straps := rfl
@[simp] theorem Hub.modPort_params (h : Hub) (p : Nat) (f : Port → Port) : (h.modPort p f).params = h.params := rfl
@[simp] theorem Hub.modPort_nvStore (h : Hub) (p : Nat) (f : Port → Port) : (h.modPort p f).nvStore = h.nvStore := rfl
@[simp] theorem Hub.modPort_tables (h : Hub) (p : Nat) (f : Port → Port) : (h.modPort p f).tables = h.tables := rfl
@[simp] theorem Hub.modPort_dram (h : Hub) (p : Nat) (f : Port → Port) : (h.modPort p f).dram = h.dram := rfl
@[simp] theorem Hub.modPort_hostMem (h : Hub) (p : Nat) (f : Port → Port) : (h.modPort p f).hostMem = h.hostMem := rfl
@[simp] theorem Hub.modPort_ctl (h : Hub) (p : Nat) (f : Port → Port) : (h.modPort p f).ctl = h.ctl := rfl
@[simp] theorem Hub.modPort_sw (h : Hub) (p : Nat) (f : Port → Port) : (h.modPort p f).sw = h.sw := rfl
@[simp] theorem Hub.modPort_tn (h : Hub) (p : Nat) (f : Port → Port) : (h.modPort p f).tn = h.tn := rfl
@[simp] theorem Hub.modPort_al (h : Hub) (p : Nat) (f : Port → Port) : (h.modPort p f).al = h.al := rfl
@[simp] theorem Hub.modPort_rl (h : Hub) (p : Nat) (f : Port → Port) : (h.modPort p f).rl = h.rl := rfl
@[simp] theorem Hub.modPort_lint (h : Hub) (p : Nat) (f : Port → Port) : (h.modPort p f).lint = h.lint := rfl
@[simp] theorem Hub.modPort_isl (h : Hub) (p : Nat) (f : Port → Port) : (h.modPort p f).isl = h.isl := rfl
@[simp] theorem Hub.modPort_ct (h : Hub) (p : Nat) (f : Port → Port) : (h.modPort p f).ct = h.ct := rfl
@[simp] theorem Hub.modPort_svcHost (h : Hub) (p : Nat) (f : Port → Port) : (h.modPort p f).svcHost = h.svcHost := rfl
@[simp] theorem Hub.modPort_ag (h : Hub) (p : Nat) (f : Port → Port) : (h.modPort p f).ag = h.ag := rfl
@[simp] theorem Hub.modPort_de (h : Hub) (p : Nat) (f : Port → Port) : (h.modPort p f).de = h.de := rfl
@[simp] theorem Hub.modPort_br (h : Hub) (p : Nat) (f : Port → Port) : (h.modPort p f).br = h.br := rfl
@[simp] theorem Hub.modPort_eth (h : Hub) (p : Nat) (f : Port → Port) : (h.modPort p f).eth = h.eth := rfl
@[simp] theorem Hub.modPort_fu (h : Hub) (p : Nat) (f : Port → Port) : (h.modPort p f).fu = h.fu := rfl
@[simp] theorem Hub.modPort_usb (h : Hub) (p : Nat) (f : Port → Port) : (h.modPort p f).usb = h.usb := rfl
@[simp] theorem Hub.modPort_tc (h : Hub) (p : Nat) (f : Port → Port) : (h.modPort p f).tc = h.tc := rfl
@[simp] theorem Hub.modPort_ds (h : Hub) (p : Nat) (f : Port → Port) : (h.modPort p f).ds = h.ds := rfl
@[simp] theorem Hub.modPort_pw (h : Hub) (p : Nat) (f : Port → Port) : (h.modPort p f).pw = h.pw := rfl
@[simp] theorem Hub.modPort_ky (h : Hub) (p : Nat) (f : Port → Port) : (h.modPort p f).ky = h.ky := rfl
@[simp] theorem Hub.modPort_mg (h : Hub) (p : Nat) (f : Port → Port) : (h.modPort p f).mg = h.mg := rfl
@[simp] theorem Hub.modPort_su (h : Hub) (p : Nat) (f : Port → Port) : (h.modPort p f).su = h.su := rfl
@[simp] theorem Hub.modPort_inbox (h : Hub) (p : Nat) (f : Port → Port) : (h.modPort p f).inbox = h.inbox := rfl
@[simp] theorem Hub.modPort_outbox (h : Hub) (p : Nat) (f : Port → Port) : (h.modPort p f).outbox = h.outbox := rfl
@[simp] theorem Hub.modPort_free (h : Hub) (p : Nat) (f : Port → Port) : (h.modPort p f).free = h.free := rfl

/-! ## Hub.modRegs -/

@[simp] theorem Hub.modRegs_ctl (h : Hub) (f : HostRegs → HostRegs) : (h.modRegs f).ctl = { h.ctl with regs := f h.ctl.regs } := rfl
@[simp] theorem Hub.modRegs_clk (h : Hub) (f : HostRegs → HostRegs) : (h.modRegs f).clk = h.clk := rfl
@[simp] theorem Hub.modRegs_straps (h : Hub) (f : HostRegs → HostRegs) : (h.modRegs f).straps = h.straps := rfl
@[simp] theorem Hub.modRegs_params (h : Hub) (f : HostRegs → HostRegs) : (h.modRegs f).params = h.params := rfl
@[simp] theorem Hub.modRegs_nvStore (h : Hub) (f : HostRegs → HostRegs) : (h.modRegs f).nvStore = h.nvStore := rfl
@[simp] theorem Hub.modRegs_tables (h : Hub) (f : HostRegs → HostRegs) : (h.modRegs f).tables = h.tables := rfl
@[simp] theorem Hub.modRegs_dram (h : Hub) (f : HostRegs → HostRegs) : (h.modRegs f).dram = h.dram := rfl
@[simp] theorem Hub.modRegs_hostMem (h : Hub) (f : HostRegs → HostRegs) : (h.modRegs f).hostMem = h.hostMem := rfl
@[simp] theorem Hub.modRegs_ports (h : Hub) (f : HostRegs → HostRegs) : (h.modRegs f).ports = h.ports := rfl
@[simp] theorem Hub.modRegs_sw (h : Hub) (f : HostRegs → HostRegs) : (h.modRegs f).sw = h.sw := rfl
@[simp] theorem Hub.modRegs_tn (h : Hub) (f : HostRegs → HostRegs) : (h.modRegs f).tn = h.tn := rfl
@[simp] theorem Hub.modRegs_al (h : Hub) (f : HostRegs → HostRegs) : (h.modRegs f).al = h.al := rfl
@[simp] theorem Hub.modRegs_rl (h : Hub) (f : HostRegs → HostRegs) : (h.modRegs f).rl = h.rl := rfl
@[simp] theorem Hub.modRegs_lint (h : Hub) (f : HostRegs → HostRegs) : (h.modRegs f).lint = h.lint := rfl
@[simp] theorem Hub.modRegs_isl (h : Hub) (f : HostRegs → HostRegs) : (h.modRegs f).isl = h.isl := rfl
@[simp] theorem Hub.modRegs_ct (h : Hub) (f : HostRegs → HostRegs) : (h.modRegs f).ct = h.ct := rfl
@[simp] theorem Hub.modRegs_svcHost (h : Hub) (f : HostRegs → HostRegs) : (h.modRegs f).svcHost = h.svcHost := rfl
@[simp] theorem Hub.modRegs_ag (h : Hub) (f : HostRegs → HostRegs) : (h.modRegs f).ag = h.ag := rfl
@[simp] theorem Hub.modRegs_de (h : Hub) (f : HostRegs → HostRegs) : (h.modRegs f).de = h.de := rfl
@[simp] theorem Hub.modRegs_br (h : Hub) (f : HostRegs → HostRegs) : (h.modRegs f).br = h.br := rfl
@[simp] theorem Hub.modRegs_eth (h : Hub) (f : HostRegs → HostRegs) : (h.modRegs f).eth = h.eth := rfl
@[simp] theorem Hub.modRegs_fu (h : Hub) (f : HostRegs → HostRegs) : (h.modRegs f).fu = h.fu := rfl
@[simp] theorem Hub.modRegs_usb (h : Hub) (f : HostRegs → HostRegs) : (h.modRegs f).usb = h.usb := rfl
@[simp] theorem Hub.modRegs_tc (h : Hub) (f : HostRegs → HostRegs) : (h.modRegs f).tc = h.tc := rfl
@[simp] theorem Hub.modRegs_ds (h : Hub) (f : HostRegs → HostRegs) : (h.modRegs f).ds = h.ds := rfl
@[simp] theorem Hub.modRegs_pw (h : Hub) (f : HostRegs → HostRegs) : (h.modRegs f).pw = h.pw := rfl
@[simp] theorem Hub.modRegs_ky (h : Hub) (f : HostRegs → HostRegs) : (h.modRegs f).ky = h.ky := rfl
@[simp] theorem Hub.modRegs_mg (h : Hub) (f : HostRegs → HostRegs) : (h.modRegs f).mg = h.mg := rfl
@[simp] theorem Hub.modRegs_su (h : Hub) (f : HostRegs → HostRegs) : (h.modRegs f).su = h.su := rfl
@[simp] theorem Hub.modRegs_inbox (h : Hub) (f : HostRegs → HostRegs) : (h.modRegs f).inbox = h.inbox := rfl
@[simp] theorem Hub.modRegs_outbox (h : Hub) (f : HostRegs → HostRegs) : (h.modRegs f).outbox = h.outbox := rfl
@[simp] theorem Hub.modRegs_free (h : Hub) (f : HostRegs → HostRegs) : (h.modRegs f).free = h.free := rfl

/-! ## Hub.modMb -/

@[simp] theorem Hub.modMb_ctl (h : Hub) (m : Nat) (f : Mailbox → Mailbox) : (h.modMb m f).ctl = { h.ctl with mbs := modAt h.ctl.mbs m f } := rfl
@[simp] theorem Hub.modMb_clk (h : Hub) (m : Nat) (f : Mailbox → Mailbox) : (h.modMb m f).clk = h.clk := rfl
@[simp] theorem Hub.modMb_straps (h : Hub) (m : Nat) (f : Mailbox → Mailbox) : (h.modMb m f).straps = h.straps := rfl
@[simp] theorem Hub.modMb_params (h : Hub) (m : Nat) (f : Mailbox → Mailbox) : (h.modMb m f).params = h.params := rfl
@[simp] theorem Hub.modMb_nvStore (h : Hub) (m : Nat) (f : Mailbox → Mailbox) : (h.modMb m f).nvStore = h.nvStore := rfl
@[simp] theorem Hub.modMb_tables (h : Hub) (m : Nat) (f : Mailbox → Mailbox) : (h.modMb m f).tables = h.tables := rfl
@[simp] theorem Hub.modMb_dram (h : Hub) (m : Nat) (f : Mailbox → Mailbox) : (h.modMb m f).dram = h.dram := rfl
@[simp] theorem Hub.modMb_hostMem (h : Hub) (m : Nat) (f : Mailbox → Mailbox) : (h.modMb m f).hostMem = h.hostMem := rfl
@[simp] theorem Hub.modMb_ports (h : Hub) (m : Nat) (f : Mailbox → Mailbox) : (h.modMb m f).ports = h.ports := rfl
@[simp] theorem Hub.modMb_sw (h : Hub) (m : Nat) (f : Mailbox → Mailbox) : (h.modMb m f).sw = h.sw := rfl
@[simp] theorem Hub.modMb_tn (h : Hub) (m : Nat) (f : Mailbox → Mailbox) : (h.modMb m f).tn = h.tn := rfl
@[simp] theorem Hub.modMb_al (h : Hub) (m : Nat) (f : Mailbox → Mailbox) : (h.modMb m f).al = h.al := rfl
@[simp] theorem Hub.modMb_rl (h : Hub) (m : Nat) (f : Mailbox → Mailbox) : (h.modMb m f).rl = h.rl := rfl
@[simp] theorem Hub.modMb_lint (h : Hub) (m : Nat) (f : Mailbox → Mailbox) : (h.modMb m f).lint = h.lint := rfl
@[simp] theorem Hub.modMb_isl (h : Hub) (m : Nat) (f : Mailbox → Mailbox) : (h.modMb m f).isl = h.isl := rfl
@[simp] theorem Hub.modMb_ct (h : Hub) (m : Nat) (f : Mailbox → Mailbox) : (h.modMb m f).ct = h.ct := rfl
@[simp] theorem Hub.modMb_svcHost (h : Hub) (m : Nat) (f : Mailbox → Mailbox) : (h.modMb m f).svcHost = h.svcHost := rfl
@[simp] theorem Hub.modMb_ag (h : Hub) (m : Nat) (f : Mailbox → Mailbox) : (h.modMb m f).ag = h.ag := rfl
@[simp] theorem Hub.modMb_de (h : Hub) (m : Nat) (f : Mailbox → Mailbox) : (h.modMb m f).de = h.de := rfl
@[simp] theorem Hub.modMb_br (h : Hub) (m : Nat) (f : Mailbox → Mailbox) : (h.modMb m f).br = h.br := rfl
@[simp] theorem Hub.modMb_eth (h : Hub) (m : Nat) (f : Mailbox → Mailbox) : (h.modMb m f).eth = h.eth := rfl
@[simp] theorem Hub.modMb_fu (h : Hub) (m : Nat) (f : Mailbox → Mailbox) : (h.modMb m f).fu = h.fu := rfl
@[simp] theorem Hub.modMb_usb (h : Hub) (m : Nat) (f : Mailbox → Mailbox) : (h.modMb m f).usb = h.usb := rfl
@[simp] theorem Hub.modMb_tc (h : Hub) (m : Nat) (f : Mailbox → Mailbox) : (h.modMb m f).tc = h.tc := rfl
@[simp] theorem Hub.modMb_ds (h : Hub) (m : Nat) (f : Mailbox → Mailbox) : (h.modMb m f).ds = h.ds := rfl
@[simp] theorem Hub.modMb_pw (h : Hub) (m : Nat) (f : Mailbox → Mailbox) : (h.modMb m f).pw = h.pw := rfl
@[simp] theorem Hub.modMb_ky (h : Hub) (m : Nat) (f : Mailbox → Mailbox) : (h.modMb m f).ky = h.ky := rfl
@[simp] theorem Hub.modMb_mg (h : Hub) (m : Nat) (f : Mailbox → Mailbox) : (h.modMb m f).mg = h.mg := rfl
@[simp] theorem Hub.modMb_su (h : Hub) (m : Nat) (f : Mailbox → Mailbox) : (h.modMb m f).su = h.su := rfl
@[simp] theorem Hub.modMb_inbox (h : Hub) (m : Nat) (f : Mailbox → Mailbox) : (h.modMb m f).inbox = h.inbox := rfl
@[simp] theorem Hub.modMb_outbox (h : Hub) (m : Nat) (f : Mailbox → Mailbox) : (h.modMb m f).outbox = h.outbox := rfl
@[simp] theorem Hub.modMb_free (h : Hub) (m : Nat) (f : Mailbox → Mailbox) : (h.modMb m f).free = h.free := rfl

/-! ## Hub.modTxns -/

@[simp] theorem Hub.modTxns_ctl (h : Hub) (f : List Txn → List Txn) : (h.modTxns f).ctl = { h.ctl with txns := f h.ctl.txns } := rfl
@[simp] theorem Hub.modTxns_clk (h : Hub) (f : List Txn → List Txn) : (h.modTxns f).clk = h.clk := rfl
@[simp] theorem Hub.modTxns_straps (h : Hub) (f : List Txn → List Txn) : (h.modTxns f).straps = h.straps := rfl
@[simp] theorem Hub.modTxns_params (h : Hub) (f : List Txn → List Txn) : (h.modTxns f).params = h.params := rfl
@[simp] theorem Hub.modTxns_nvStore (h : Hub) (f : List Txn → List Txn) : (h.modTxns f).nvStore = h.nvStore := rfl
@[simp] theorem Hub.modTxns_tables (h : Hub) (f : List Txn → List Txn) : (h.modTxns f).tables = h.tables := rfl
@[simp] theorem Hub.modTxns_dram (h : Hub) (f : List Txn → List Txn) : (h.modTxns f).dram = h.dram := rfl
@[simp] theorem Hub.modTxns_hostMem (h : Hub) (f : List Txn → List Txn) : (h.modTxns f).hostMem = h.hostMem := rfl
@[simp] theorem Hub.modTxns_ports (h : Hub) (f : List Txn → List Txn) : (h.modTxns f).ports = h.ports := rfl
@[simp] theorem Hub.modTxns_sw (h : Hub) (f : List Txn → List Txn) : (h.modTxns f).sw = h.sw := rfl
@[simp] theorem Hub.modTxns_tn (h : Hub) (f : List Txn → List Txn) : (h.modTxns f).tn = h.tn := rfl
@[simp] theorem Hub.modTxns_al (h : Hub) (f : List Txn → List Txn) : (h.modTxns f).al = h.al := rfl
@[simp] theorem Hub.modTxns_rl (h : Hub) (f : List Txn → List Txn) : (h.modTxns f).rl = h.rl := rfl
@[simp] theorem Hub.modTxns_lint (h : Hub) (f : List Txn → List Txn) : (h.modTxns f).lint = h.lint := rfl
@[simp] theorem Hub.modTxns_isl (h : Hub) (f : List Txn → List Txn) : (h.modTxns f).isl = h.isl := rfl
@[simp] theorem Hub.modTxns_ct (h : Hub) (f : List Txn → List Txn) : (h.modTxns f).ct = h.ct := rfl
@[simp] theorem Hub.modTxns_svcHost (h : Hub) (f : List Txn → List Txn) : (h.modTxns f).svcHost = h.svcHost := rfl
@[simp] theorem Hub.modTxns_ag (h : Hub) (f : List Txn → List Txn) : (h.modTxns f).ag = h.ag := rfl
@[simp] theorem Hub.modTxns_de (h : Hub) (f : List Txn → List Txn) : (h.modTxns f).de = h.de := rfl
@[simp] theorem Hub.modTxns_br (h : Hub) (f : List Txn → List Txn) : (h.modTxns f).br = h.br := rfl
@[simp] theorem Hub.modTxns_eth (h : Hub) (f : List Txn → List Txn) : (h.modTxns f).eth = h.eth := rfl
@[simp] theorem Hub.modTxns_fu (h : Hub) (f : List Txn → List Txn) : (h.modTxns f).fu = h.fu := rfl
@[simp] theorem Hub.modTxns_usb (h : Hub) (f : List Txn → List Txn) : (h.modTxns f).usb = h.usb := rfl
@[simp] theorem Hub.modTxns_tc (h : Hub) (f : List Txn → List Txn) : (h.modTxns f).tc = h.tc := rfl
@[simp] theorem Hub.modTxns_ds (h : Hub) (f : List Txn → List Txn) : (h.modTxns f).ds = h.ds := rfl
@[simp] theorem Hub.modTxns_pw (h : Hub) (f : List Txn → List Txn) : (h.modTxns f).pw = h.pw := rfl
@[simp] theorem Hub.modTxns_ky (h : Hub) (f : List Txn → List Txn) : (h.modTxns f).ky = h.ky := rfl
@[simp] theorem Hub.modTxns_mg (h : Hub) (f : List Txn → List Txn) : (h.modTxns f).mg = h.mg := rfl
@[simp] theorem Hub.modTxns_su (h : Hub) (f : List Txn → List Txn) : (h.modTxns f).su = h.su := rfl
@[simp] theorem Hub.modTxns_inbox (h : Hub) (f : List Txn → List Txn) : (h.modTxns f).inbox = h.inbox := rfl
@[simp] theorem Hub.modTxns_outbox (h : Hub) (f : List Txn → List Txn) : (h.modTxns f).outbox = h.outbox := rfl
@[simp] theorem Hub.modTxns_free (h : Hub) (f : List Txn → List Txn) : (h.modTxns f).free = h.free := rfl

/-! ## Hub.modOp -/

@[simp] theorem Hub.modOp_ctl (h : Hub) (token : Nat) (f : LongOp → LongOp) : (h.modOp token f).ctl = { h.ctl with ops := h.ctl.ops.map (fun o => if o.token = token then f o else o) } := rfl
@[simp] theorem Hub.modOp_clk (h : Hub) (token : Nat) (f : LongOp → LongOp) : (h.modOp token f).clk = h.clk := rfl
@[simp] theorem Hub.modOp_straps (h : Hub) (token : Nat) (f : LongOp → LongOp) : (h.modOp token f).straps = h.straps := rfl
@[simp] theorem Hub.modOp_params (h : Hub) (token : Nat) (f : LongOp → LongOp) : (h.modOp token f).params = h.params := rfl
@[simp] theorem Hub.modOp_nvStore (h : Hub) (token : Nat) (f : LongOp → LongOp) : (h.modOp token f).nvStore = h.nvStore := rfl
@[simp] theorem Hub.modOp_tables (h : Hub) (token : Nat) (f : LongOp → LongOp) : (h.modOp token f).tables = h.tables := rfl
@[simp] theorem Hub.modOp_dram (h : Hub) (token : Nat) (f : LongOp → LongOp) : (h.modOp token f).dram = h.dram := rfl
@[simp] theorem Hub.modOp_hostMem (h : Hub) (token : Nat) (f : LongOp → LongOp) : (h.modOp token f).hostMem = h.hostMem := rfl
@[simp] theorem Hub.modOp_ports (h : Hub) (token : Nat) (f : LongOp → LongOp) : (h.modOp token f).ports = h.ports := rfl
@[simp] theorem Hub.modOp_sw (h : Hub) (token : Nat) (f : LongOp → LongOp) : (h.modOp token f).sw = h.sw := rfl
@[simp] theorem Hub.modOp_tn (h : Hub) (token : Nat) (f : LongOp → LongOp) : (h.modOp token f).tn = h.tn := rfl
@[simp] theorem Hub.modOp_al (h : Hub) (token : Nat) (f : LongOp → LongOp) : (h.modOp token f).al = h.al := rfl
@[simp] theorem Hub.modOp_rl (h : Hub) (token : Nat) (f : LongOp → LongOp) : (h.modOp token f).rl = h.rl := rfl
@[simp] theorem Hub.modOp_lint (h : Hub) (token : Nat) (f : LongOp → LongOp) : (h.modOp token f).lint = h.lint := rfl
@[simp] theorem Hub.modOp_isl (h : Hub) (token : Nat) (f : LongOp → LongOp) : (h.modOp token f).isl = h.isl := rfl
@[simp] theorem Hub.modOp_ct (h : Hub) (token : Nat) (f : LongOp → LongOp) : (h.modOp token f).ct = h.ct := rfl
@[simp] theorem Hub.modOp_svcHost (h : Hub) (token : Nat) (f : LongOp → LongOp) : (h.modOp token f).svcHost = h.svcHost := rfl
@[simp] theorem Hub.modOp_ag (h : Hub) (token : Nat) (f : LongOp → LongOp) : (h.modOp token f).ag = h.ag := rfl
@[simp] theorem Hub.modOp_de (h : Hub) (token : Nat) (f : LongOp → LongOp) : (h.modOp token f).de = h.de := rfl
@[simp] theorem Hub.modOp_br (h : Hub) (token : Nat) (f : LongOp → LongOp) : (h.modOp token f).br = h.br := rfl
@[simp] theorem Hub.modOp_eth (h : Hub) (token : Nat) (f : LongOp → LongOp) : (h.modOp token f).eth = h.eth := rfl
@[simp] theorem Hub.modOp_fu (h : Hub) (token : Nat) (f : LongOp → LongOp) : (h.modOp token f).fu = h.fu := rfl
@[simp] theorem Hub.modOp_usb (h : Hub) (token : Nat) (f : LongOp → LongOp) : (h.modOp token f).usb = h.usb := rfl
@[simp] theorem Hub.modOp_tc (h : Hub) (token : Nat) (f : LongOp → LongOp) : (h.modOp token f).tc = h.tc := rfl
@[simp] theorem Hub.modOp_ds (h : Hub) (token : Nat) (f : LongOp → LongOp) : (h.modOp token f).ds = h.ds := rfl
@[simp] theorem Hub.modOp_pw (h : Hub) (token : Nat) (f : LongOp → LongOp) : (h.modOp token f).pw = h.pw := rfl
@[simp] theorem Hub.modOp_ky (h : Hub) (token : Nat) (f : LongOp → LongOp) : (h.modOp token f).ky = h.ky := rfl
@[simp] theorem Hub.modOp_mg (h : Hub) (token : Nat) (f : LongOp → LongOp) : (h.modOp token f).mg = h.mg := rfl
@[simp] theorem Hub.modOp_su (h : Hub) (token : Nat) (f : LongOp → LongOp) : (h.modOp token f).su = h.su := rfl
@[simp] theorem Hub.modOp_inbox (h : Hub) (token : Nat) (f : LongOp → LongOp) : (h.modOp token f).inbox = h.inbox := rfl
@[simp] theorem Hub.modOp_outbox (h : Hub) (token : Nat) (f : LongOp → LongOp) : (h.modOp token f).outbox = h.outbox := rfl
@[simp] theorem Hub.modOp_free (h : Hub) (token : Nat) (f : LongOp → LongOp) : (h.modOp token f).free = h.free := rfl

/-! ## Hub.modOut -/

@[simp] theorem Hub.modOut_sw (h : Hub) (o : Nat) (f : OutPort → OutPort) : (h.modOut o f).sw = { h.sw with outs := modAt h.sw.outs o f } := rfl
@[simp] theorem Hub.modOut_clk (h : Hub) (o : Nat) (f : OutPort → OutPort) : (h.modOut o f).clk = h.clk := rfl
@[simp] theorem Hub.modOut_straps (h : Hub) (o : Nat) (f : OutPort → OutPort) : (h.modOut o f).straps = h.straps := rfl
@[simp] theorem Hub.modOut_params (h : Hub) (o : Nat) (f : OutPort → OutPort) : (h.modOut o f).params = h.params := rfl
@[simp] theorem Hub.modOut_nvStore (h : Hub) (o : Nat) (f : OutPort → OutPort) : (h.modOut o f).nvStore = h.nvStore := rfl
@[simp] theorem Hub.modOut_tables (h : Hub) (o : Nat) (f : OutPort → OutPort) : (h.modOut o f).tables = h.tables := rfl
@[simp] theorem Hub.modOut_dram (h : Hub) (o : Nat) (f : OutPort → OutPort) : (h.modOut o f).dram = h.dram := rfl
@[simp] theorem Hub.modOut_hostMem (h : Hub) (o : Nat) (f : OutPort → OutPort) : (h.modOut o f).hostMem = h.hostMem := rfl
@[simp] theorem Hub.modOut_ctl (h : Hub) (o : Nat) (f : OutPort → OutPort) : (h.modOut o f).ctl = h.ctl := rfl
@[simp] theorem Hub.modOut_ports (h : Hub) (o : Nat) (f : OutPort → OutPort) : (h.modOut o f).ports = h.ports := rfl
@[simp] theorem Hub.modOut_tn (h : Hub) (o : Nat) (f : OutPort → OutPort) : (h.modOut o f).tn = h.tn := rfl
@[simp] theorem Hub.modOut_al (h : Hub) (o : Nat) (f : OutPort → OutPort) : (h.modOut o f).al = h.al := rfl
@[simp] theorem Hub.modOut_rl (h : Hub) (o : Nat) (f : OutPort → OutPort) : (h.modOut o f).rl = h.rl := rfl
@[simp] theorem Hub.modOut_lint (h : Hub) (o : Nat) (f : OutPort → OutPort) : (h.modOut o f).lint = h.lint := rfl
@[simp] theorem Hub.modOut_isl (h : Hub) (o : Nat) (f : OutPort → OutPort) : (h.modOut o f).isl = h.isl := rfl
@[simp] theorem Hub.modOut_ct (h : Hub) (o : Nat) (f : OutPort → OutPort) : (h.modOut o f).ct = h.ct := rfl
@[simp] theorem Hub.modOut_svcHost (h : Hub) (o : Nat) (f : OutPort → OutPort) : (h.modOut o f).svcHost = h.svcHost := rfl
@[simp] theorem Hub.modOut_ag (h : Hub) (o : Nat) (f : OutPort → OutPort) : (h.modOut o f).ag = h.ag := rfl
@[simp] theorem Hub.modOut_de (h : Hub) (o : Nat) (f : OutPort → OutPort) : (h.modOut o f).de = h.de := rfl
@[simp] theorem Hub.modOut_br (h : Hub) (o : Nat) (f : OutPort → OutPort) : (h.modOut o f).br = h.br := rfl
@[simp] theorem Hub.modOut_eth (h : Hub) (o : Nat) (f : OutPort → OutPort) : (h.modOut o f).eth = h.eth := rfl
@[simp] theorem Hub.modOut_fu (h : Hub) (o : Nat) (f : OutPort → OutPort) : (h.modOut o f).fu = h.fu := rfl
@[simp] theorem Hub.modOut_usb (h : Hub) (o : Nat) (f : OutPort → OutPort) : (h.modOut o f).usb = h.usb := rfl
@[simp] theorem Hub.modOut_tc (h : Hub) (o : Nat) (f : OutPort → OutPort) : (h.modOut o f).tc = h.tc := rfl
@[simp] theorem Hub.modOut_ds (h : Hub) (o : Nat) (f : OutPort → OutPort) : (h.modOut o f).ds = h.ds := rfl
@[simp] theorem Hub.modOut_pw (h : Hub) (o : Nat) (f : OutPort → OutPort) : (h.modOut o f).pw = h.pw := rfl
@[simp] theorem Hub.modOut_ky (h : Hub) (o : Nat) (f : OutPort → OutPort) : (h.modOut o f).ky = h.ky := rfl
@[simp] theorem Hub.modOut_mg (h : Hub) (o : Nat) (f : OutPort → OutPort) : (h.modOut o f).mg = h.mg := rfl
@[simp] theorem Hub.modOut_su (h : Hub) (o : Nat) (f : OutPort → OutPort) : (h.modOut o f).su = h.su := rfl
@[simp] theorem Hub.modOut_inbox (h : Hub) (o : Nat) (f : OutPort → OutPort) : (h.modOut o f).inbox = h.inbox := rfl
@[simp] theorem Hub.modOut_outbox (h : Hub) (o : Nat) (f : OutPort → OutPort) : (h.modOut o f).outbox = h.outbox := rfl
@[simp] theorem Hub.modOut_free (h : Hub) (o : Nat) (f : OutPort → OutPort) : (h.modOut o f).free = h.free := rfl

/-! ## Hub.modIsland -/

@[simp] theorem Hub.modIsland_isl (h : Hub) (i : Nat) (f : Island → Island) : (h.modIsland i f).isl = modAt h.isl i f := rfl
@[simp] theorem Hub.modIsland_clk (h : Hub) (i : Nat) (f : Island → Island) : (h.modIsland i f).clk = h.clk := rfl
@[simp] theorem Hub.modIsland_straps (h : Hub) (i : Nat) (f : Island → Island) : (h.modIsland i f).straps = h.straps := rfl
@[simp] theorem Hub.modIsland_params (h : Hub) (i : Nat) (f : Island → Island) : (h.modIsland i f).params = h.params := rfl
@[simp] theorem Hub.modIsland_nvStore (h : Hub) (i : Nat) (f : Island → Island) : (h.modIsland i f).nvStore = h.nvStore := rfl
@[simp] theorem Hub.modIsland_tables (h : Hub) (i : Nat) (f : Island → Island) : (h.modIsland i f).tables = h.tables := rfl
@[simp] theorem Hub.modIsland_dram (h : Hub) (i : Nat) (f : Island → Island) : (h.modIsland i f).dram = h.dram := rfl
@[simp] theorem Hub.modIsland_hostMem (h : Hub) (i : Nat) (f : Island → Island) : (h.modIsland i f).hostMem = h.hostMem := rfl
@[simp] theorem Hub.modIsland_ctl (h : Hub) (i : Nat) (f : Island → Island) : (h.modIsland i f).ctl = h.ctl := rfl
@[simp] theorem Hub.modIsland_ports (h : Hub) (i : Nat) (f : Island → Island) : (h.modIsland i f).ports = h.ports := rfl
@[simp] theorem Hub.modIsland_sw (h : Hub) (i : Nat) (f : Island → Island) : (h.modIsland i f).sw = h.sw := rfl
@[simp] theorem Hub.modIsland_tn (h : Hub) (i : Nat) (f : Island → Island) : (h.modIsland i f).tn = h.tn := rfl
@[simp] theorem Hub.modIsland_al (h : Hub) (i : Nat) (f : Island → Island) : (h.modIsland i f).al = h.al := rfl
@[simp] theorem Hub.modIsland_rl (h : Hub) (i : Nat) (f : Island → Island) : (h.modIsland i f).rl = h.rl := rfl
@[simp] theorem Hub.modIsland_lint (h : Hub) (i : Nat) (f : Island → Island) : (h.modIsland i f).lint = h.lint := rfl
@[simp] theorem Hub.modIsland_ct (h : Hub) (i : Nat) (f : Island → Island) : (h.modIsland i f).ct = h.ct := rfl
@[simp] theorem Hub.modIsland_svcHost (h : Hub) (i : Nat) (f : Island → Island) : (h.modIsland i f).svcHost = h.svcHost := rfl
@[simp] theorem Hub.modIsland_ag (h : Hub) (i : Nat) (f : Island → Island) : (h.modIsland i f).ag = h.ag := rfl
@[simp] theorem Hub.modIsland_de (h : Hub) (i : Nat) (f : Island → Island) : (h.modIsland i f).de = h.de := rfl
@[simp] theorem Hub.modIsland_br (h : Hub) (i : Nat) (f : Island → Island) : (h.modIsland i f).br = h.br := rfl
@[simp] theorem Hub.modIsland_eth (h : Hub) (i : Nat) (f : Island → Island) : (h.modIsland i f).eth = h.eth := rfl
@[simp] theorem Hub.modIsland_fu (h : Hub) (i : Nat) (f : Island → Island) : (h.modIsland i f).fu = h.fu := rfl
@[simp] theorem Hub.modIsland_usb (h : Hub) (i : Nat) (f : Island → Island) : (h.modIsland i f).usb = h.usb := rfl
@[simp] theorem Hub.modIsland_tc (h : Hub) (i : Nat) (f : Island → Island) : (h.modIsland i f).tc = h.tc := rfl
@[simp] theorem Hub.modIsland_ds (h : Hub) (i : Nat) (f : Island → Island) : (h.modIsland i f).ds = h.ds := rfl
@[simp] theorem Hub.modIsland_pw (h : Hub) (i : Nat) (f : Island → Island) : (h.modIsland i f).pw = h.pw := rfl
@[simp] theorem Hub.modIsland_ky (h : Hub) (i : Nat) (f : Island → Island) : (h.modIsland i f).ky = h.ky := rfl
@[simp] theorem Hub.modIsland_mg (h : Hub) (i : Nat) (f : Island → Island) : (h.modIsland i f).mg = h.mg := rfl
@[simp] theorem Hub.modIsland_su (h : Hub) (i : Nat) (f : Island → Island) : (h.modIsland i f).su = h.su := rfl
@[simp] theorem Hub.modIsland_inbox (h : Hub) (i : Nat) (f : Island → Island) : (h.modIsland i f).inbox = h.inbox := rfl
@[simp] theorem Hub.modIsland_outbox (h : Hub) (i : Nat) (f : Island → Island) : (h.modIsland i f).outbox = h.outbox := rfl
@[simp] theorem Hub.modIsland_free (h : Hub) (i : Nat) (f : Island → Island) : (h.modIsland i f).free = h.free := rfl

/-! ## Hub.modDetour -/

@[simp] theorem Hub.modDetour_rl (h : Hub) (p : Nat) (f : Detour → Detour) : (h.modDetour p f).rl = { h.rl with detours := modAt h.rl.detours p f } := rfl
@[simp] theorem Hub.modDetour_clk (h : Hub) (p : Nat) (f : Detour → Detour) : (h.modDetour p f).clk = h.clk := rfl
@[simp] theorem Hub.modDetour_straps (h : Hub) (p : Nat) (f : Detour → Detour) : (h.modDetour p f).straps = h.straps := rfl
@[simp] theorem Hub.modDetour_params (h : Hub) (p : Nat) (f : Detour → Detour) : (h.modDetour p f).params = h.params := rfl
@[simp] theorem Hub.modDetour_nvStore (h : Hub) (p : Nat) (f : Detour → Detour) : (h.modDetour p f).nvStore = h.nvStore := rfl
@[simp] theorem Hub.modDetour_tables (h : Hub) (p : Nat) (f : Detour → Detour) : (h.modDetour p f).tables = h.tables := rfl
@[simp] theorem Hub.modDetour_dram (h : Hub) (p : Nat) (f : Detour → Detour) : (h.modDetour p f).dram = h.dram := rfl
@[simp] theorem Hub.modDetour_hostMem (h : Hub) (p : Nat) (f : Detour → Detour) : (h.modDetour p f).hostMem = h.hostMem := rfl
@[simp] theorem Hub.modDetour_ctl (h : Hub) (p : Nat) (f : Detour → Detour) : (h.modDetour p f).ctl = h.ctl := rfl
@[simp] theorem Hub.modDetour_ports (h : Hub) (p : Nat) (f : Detour → Detour) : (h.modDetour p f).ports = h.ports := rfl
@[simp] theorem Hub.modDetour_sw (h : Hub) (p : Nat) (f : Detour → Detour) : (h.modDetour p f).sw = h.sw := rfl
@[simp] theorem Hub.modDetour_tn (h : Hub) (p : Nat) (f : Detour → Detour) : (h.modDetour p f).tn = h.tn := rfl
@[simp] theorem Hub.modDetour_al (h : Hub) (p : Nat) (f : Detour → Detour) : (h.modDetour p f).al = h.al := rfl
@[simp] theorem Hub.modDetour_lint (h : Hub) (p : Nat) (f : Detour → Detour) : (h.modDetour p f).lint = h.lint := rfl
@[simp] theorem Hub.modDetour_isl (h : Hub) (p : Nat) (f : Detour → Detour) : (h.modDetour p f).isl = h.isl := rfl
@[simp] theorem Hub.modDetour_ct (h : Hub) (p : Nat) (f : Detour → Detour) : (h.modDetour p f).ct = h.ct := rfl
@[simp] theorem Hub.modDetour_svcHost (h : Hub) (p : Nat) (f : Detour → Detour) : (h.modDetour p f).svcHost = h.svcHost := rfl
@[simp] theorem Hub.modDetour_ag (h : Hub) (p : Nat) (f : Detour → Detour) : (h.modDetour p f).ag = h.ag := rfl
@[simp] theorem Hub.modDetour_de (h : Hub) (p : Nat) (f : Detour → Detour) : (h.modDetour p f).de = h.de := rfl
@[simp] theorem Hub.modDetour_br (h : Hub) (p : Nat) (f : Detour → Detour) : (h.modDetour p f).br = h.br := rfl
@[simp] theorem Hub.modDetour_eth (h : Hub) (p : Nat) (f : Detour → Detour) : (h.modDetour p f).eth = h.eth := rfl
@[simp] theorem Hub.modDetour_fu (h : Hub) (p : Nat) (f : Detour → Detour) : (h.modDetour p f).fu = h.fu := rfl
@[simp] theorem Hub.modDetour_usb (h : Hub) (p : Nat) (f : Detour → Detour) : (h.modDetour p f).usb = h.usb := rfl
@[simp] theorem Hub.modDetour_tc (h : Hub) (p : Nat) (f : Detour → Detour) : (h.modDetour p f).tc = h.tc := rfl
@[simp] theorem Hub.modDetour_ds (h : Hub) (p : Nat) (f : Detour → Detour) : (h.modDetour p f).ds = h.ds := rfl
@[simp] theorem Hub.modDetour_pw (h : Hub) (p : Nat) (f : Detour → Detour) : (h.modDetour p f).pw = h.pw := rfl
@[simp] theorem Hub.modDetour_ky (h : Hub) (p : Nat) (f : Detour → Detour) : (h.modDetour p f).ky = h.ky := rfl
@[simp] theorem Hub.modDetour_mg (h : Hub) (p : Nat) (f : Detour → Detour) : (h.modDetour p f).mg = h.mg := rfl
@[simp] theorem Hub.modDetour_su (h : Hub) (p : Nat) (f : Detour → Detour) : (h.modDetour p f).su = h.su := rfl
@[simp] theorem Hub.modDetour_inbox (h : Hub) (p : Nat) (f : Detour → Detour) : (h.modDetour p f).inbox = h.inbox := rfl
@[simp] theorem Hub.modDetour_outbox (h : Hub) (p : Nat) (f : Detour → Detour) : (h.modDetour p f).outbox = h.outbox := rfl
@[simp] theorem Hub.modDetour_free (h : Hub) (p : Nat) (f : Detour → Detour) : (h.modDetour p f).free = h.free := rfl

/-! ## Hub.modRail -/

@[simp] theorem Hub.modRail_rl (h : Hub) (f : Rail → Rail) : (h.modRail f).rl = f h.rl := rfl
@[simp] theorem Hub.modRail_clk (h : Hub) (f : Rail → Rail) : (h.modRail f).clk = h.clk := rfl
@[simp] theorem Hub.modRail_straps (h : Hub) (f : Rail → Rail) : (h.modRail f).straps = h.straps := rfl
@[simp] theorem Hub.modRail_params (h : Hub) (f : Rail → Rail) : (h.modRail f).params = h.params := rfl
@[simp] theorem Hub.modRail_nvStore (h : Hub) (f : Rail → Rail) : (h.modRail f).nvStore = h.nvStore := rfl
@[simp] theorem Hub.modRail_tables (h : Hub) (f : Rail → Rail) : (h.modRail f).tables = h.tables := rfl
@[simp] theorem Hub.modRail_dram (h : Hub) (f : Rail → Rail) : (h.modRail f).dram = h.dram := rfl
@[simp] theorem Hub.modRail_hostMem (h : Hub) (f : Rail → Rail) : (h.modRail f).hostMem = h.hostMem := rfl
@[simp] theorem Hub.modRail_ctl (h : Hub) (f : Rail → Rail) : (h.modRail f).ctl = h.ctl := rfl
@[simp] theorem Hub.modRail_ports (h : Hub) (f : Rail → Rail) : (h.modRail f).ports = h.ports := rfl
@[simp] theorem Hub.modRail_sw (h : Hub) (f : Rail → Rail) : (h.modRail f).sw = h.sw := rfl
@[simp] theorem Hub.modRail_tn (h : Hub) (f : Rail → Rail) : (h.modRail f).tn = h.tn := rfl
@[simp] theorem Hub.modRail_al (h : Hub) (f : Rail → Rail) : (h.modRail f).al = h.al := rfl
@[simp] theorem Hub.modRail_lint (h : Hub) (f : Rail → Rail) : (h.modRail f).lint = h.lint := rfl
@[simp] theorem Hub.modRail_isl (h : Hub) (f : Rail → Rail) : (h.modRail f).isl = h.isl := rfl
@[simp] theorem Hub.modRail_ct (h : Hub) (f : Rail → Rail) : (h.modRail f).ct = h.ct := rfl
@[simp] theorem Hub.modRail_svcHost (h : Hub) (f : Rail → Rail) : (h.modRail f).svcHost = h.svcHost := rfl
@[simp] theorem Hub.modRail_ag (h : Hub) (f : Rail → Rail) : (h.modRail f).ag = h.ag := rfl
@[simp] theorem Hub.modRail_de (h : Hub) (f : Rail → Rail) : (h.modRail f).de = h.de := rfl
@[simp] theorem Hub.modRail_br (h : Hub) (f : Rail → Rail) : (h.modRail f).br = h.br := rfl
@[simp] theorem Hub.modRail_eth (h : Hub) (f : Rail → Rail) : (h.modRail f).eth = h.eth := rfl
@[simp] theorem Hub.modRail_fu (h : Hub) (f : Rail → Rail) : (h.modRail f).fu = h.fu := rfl
@[simp] theorem Hub.modRail_usb (h : Hub) (f : Rail → Rail) : (h.modRail f).usb = h.usb := rfl
@[simp] theorem Hub.modRail_tc (h : Hub) (f : Rail → Rail) : (h.modRail f).tc = h.tc := rfl
@[simp] theorem Hub.modRail_ds (h : Hub) (f : Rail → Rail) : (h.modRail f).ds = h.ds := rfl
@[simp] theorem Hub.modRail_pw (h : Hub) (f : Rail → Rail) : (h.modRail f).pw = h.pw := rfl
@[simp] theorem Hub.modRail_ky (h : Hub) (f : Rail → Rail) : (h.modRail f).ky = h.ky := rfl
@[simp] theorem Hub.modRail_mg (h : Hub) (f : Rail → Rail) : (h.modRail f).mg = h.mg := rfl
@[simp] theorem Hub.modRail_su (h : Hub) (f : Rail → Rail) : (h.modRail f).su = h.su := rfl
@[simp] theorem Hub.modRail_inbox (h : Hub) (f : Rail → Rail) : (h.modRail f).inbox = h.inbox := rfl
@[simp] theorem Hub.modRail_outbox (h : Hub) (f : Rail → Rail) : (h.modRail f).outbox = h.outbox := rfl
@[simp] theorem Hub.modRail_free (h : Hub) (f : Rail → Rail) : (h.modRail f).free = h.free := rfl

/-! ## Hub.modGov -/

@[simp] theorem Hub.modGov_al (h : Hub) (f : Governor → Governor) : (h.modGov f).al = { h.al with gov := f h.al.gov } := rfl
@[simp] theorem Hub.modGov_clk (h : Hub) (f : Governor → Governor) : (h.modGov f).clk = h.clk := rfl
@[simp] theorem Hub.modGov_straps (h : Hub) (f : Governor → Governor) : (h.modGov f).straps = h.straps := rfl
@[simp] theorem Hub.modGov_params (h : Hub) (f : Governor → Governor) : (h.modGov f).params = h.params := rfl
@[simp] theorem Hub.modGov_nvStore (h : Hub) (f : Governor → Governor) : (h.modGov f).nvStore = h.nvStore := rfl
@[simp] theorem Hub.modGov_tables (h : Hub) (f : Governor → Governor) : (h.modGov f).tables = h.tables := rfl
@[simp] theorem Hub.modGov_dram (h : Hub) (f : Governor → Governor) : (h.modGov f).dram = h.dram := rfl
@[simp] theorem Hub.modGov_hostMem (h : Hub) (f : Governor → Governor) : (h.modGov f).hostMem = h.hostMem := rfl
@[simp] theorem Hub.modGov_ctl (h : Hub) (f : Governor → Governor) : (h.modGov f).ctl = h.ctl := rfl
@[simp] theorem Hub.modGov_ports (h : Hub) (f : Governor → Governor) : (h.modGov f).ports = h.ports := rfl
@[simp] theorem Hub.modGov_sw (h : Hub) (f : Governor → Governor) : (h.modGov f).sw = h.sw := rfl
@[simp] theorem Hub.modGov_tn (h : Hub) (f : Governor → Governor) : (h.modGov f).tn = h.tn := rfl
@[simp] theorem Hub.modGov_rl (h : Hub) (f : Governor → Governor) : (h.modGov f).rl = h.rl := rfl
@[simp] theorem Hub.modGov_lint (h : Hub) (f : Governor → Governor) : (h.modGov f).lint = h.lint := rfl
@[simp] theorem Hub.modGov_isl (h : Hub) (f : Governor → Governor) : (h.modGov f).isl = h.isl := rfl
@[simp] theorem Hub.modGov_ct (h : Hub) (f : Governor → Governor) : (h.modGov f).ct = h.ct := rfl
@[simp] theorem Hub.modGov_svcHost (h : Hub) (f : Governor → Governor) : (h.modGov f).svcHost = h.svcHost := rfl
@[simp] theorem Hub.modGov_ag (h : Hub) (f : Governor → Governor) : (h.modGov f).ag = h.ag := rfl
@[simp] theorem Hub.modGov_de (h : Hub) (f : Governor → Governor) : (h.modGov f).de = h.de := rfl
@[simp] theorem Hub.modGov_br (h : Hub) (f : Governor → Governor) : (h.modGov f).br = h.br := rfl
@[simp] theorem Hub.modGov_eth (h : Hub) (f : Governor → Governor) : (h.modGov f).eth = h.eth := rfl
@[simp] theorem Hub.modGov_fu (h : Hub) (f : Governor → Governor) : (h.modGov f).fu = h.fu := rfl
@[simp] theorem Hub.modGov_usb (h : Hub) (f : Governor → Governor) : (h.modGov f).usb = h.usb := rfl
@[simp] theorem Hub.modGov_tc (h : Hub) (f : Governor → Governor) : (h.modGov f).tc = h.tc := rfl
@[simp] theorem Hub.modGov_ds (h : Hub) (f : Governor → Governor) : (h.modGov f).ds = h.ds := rfl
@[simp] theorem Hub.modGov_pw (h : Hub) (f : Governor → Governor) : (h.modGov f).pw = h.pw := rfl
@[simp] theorem Hub.modGov_ky (h : Hub) (f : Governor → Governor) : (h.modGov f).ky = h.ky := rfl
@[simp] theorem Hub.modGov_mg (h : Hub) (f : Governor → Governor) : (h.modGov f).mg = h.mg := rfl
@[simp] theorem Hub.modGov_su (h : Hub) (f : Governor → Governor) : (h.modGov f).su = h.su := rfl
@[simp] theorem Hub.modGov_inbox (h : Hub) (f : Governor → Governor) : (h.modGov f).inbox = h.inbox := rfl
@[simp] theorem Hub.modGov_outbox (h : Hub) (f : Governor → Governor) : (h.modGov f).outbox = h.outbox := rfl
@[simp] theorem Hub.modGov_free (h : Hub) (f : Governor → Governor) : (h.modGov f).free = h.free := rfl

/-! ## Hub.modDe -/

@[simp] theorem Hub.modDe_de (h : Hub) (f : Decision → Decision) : (h.modDe f).de = f h.de := rfl
@[simp] theorem Hub.modDe_clk (h : Hub) (f : Decision → Decision) : (h.modDe f).clk = h.clk := rfl
@[simp] theorem Hub.modDe_straps (h : Hub) (f : Decision → Decision) : (h.modDe f).straps = h.straps := rfl
@[simp] theorem Hub.modDe_params (h : Hub) (f : Decision → Decision) : (h.modDe f).params = h.params := rfl
@[simp] theorem Hub.modDe_nvStore (h : Hub) (f : Decision → Decision) : (h.modDe f).nvStore = h.nvStore := rfl
@[simp] theorem Hub.modDe_tables (h : Hub) (f : Decision → Decision) : (h.modDe f).tables = h.tables := rfl
@[simp] theorem Hub.modDe_dram (h : Hub) (f : Decision → Decision) : (h.modDe f).dram = h.dram := rfl
@[simp] theorem Hub.modDe_hostMem (h : Hub) (f : Decision → Decision) : (h.modDe f).hostMem = h.hostMem := rfl
@[simp] theorem Hub.modDe_ctl (h : Hub) (f : Decision → Decision) : (h.modDe f).ctl = h.ctl := rfl
@[simp] theorem Hub.modDe_ports (h : Hub) (f : Decision → Decision) : (h.modDe f).ports = h.ports := rfl
@[simp] theorem Hub.modDe_sw (h : Hub) (f : Decision → Decision) : (h.modDe f).sw = h.sw := rfl
@[simp] theorem Hub.modDe_tn (h : Hub) (f : Decision → Decision) : (h.modDe f).tn = h.tn := rfl
@[simp] theorem Hub.modDe_al (h : Hub) (f : Decision → Decision) : (h.modDe f).al = h.al := rfl
@[simp] theorem Hub.modDe_rl (h : Hub) (f : Decision → Decision) : (h.modDe f).rl = h.rl := rfl
@[simp] theorem Hub.modDe_lint (h : Hub) (f : Decision → Decision) : (h.modDe f).lint = h.lint := rfl
@[simp] theorem Hub.modDe_isl (h : Hub) (f : Decision → Decision) : (h.modDe f).isl = h.isl := rfl
@[simp] theorem Hub.modDe_ct (h : Hub) (f : Decision → Decision) : (h.modDe f).ct = h.ct := rfl
@[simp] theorem Hub.modDe_svcHost (h : Hub) (f : Decision → Decision) : (h.modDe f).svcHost = h.svcHost := rfl
@[simp] theorem Hub.modDe_ag (h : Hub) (f : Decision → Decision) : (h.modDe f).ag = h.ag := rfl
@[simp] theorem Hub.modDe_br (h : Hub) (f : Decision → Decision) : (h.modDe f).br = h.br := rfl
@[simp] theorem Hub.modDe_eth (h : Hub) (f : Decision → Decision) : (h.modDe f).eth = h.eth := rfl
@[simp] theorem Hub.modDe_fu (h : Hub) (f : Decision → Decision) : (h.modDe f).fu = h.fu := rfl
@[simp] theorem Hub.modDe_usb (h : Hub) (f : Decision → Decision) : (h.modDe f).usb = h.usb := rfl
@[simp] theorem Hub.modDe_tc (h : Hub) (f : Decision → Decision) : (h.modDe f).tc = h.tc := rfl
@[simp] theorem Hub.modDe_ds (h : Hub) (f : Decision → Decision) : (h.modDe f).ds = h.ds := rfl
@[simp] theorem Hub.modDe_pw (h : Hub) (f : Decision → Decision) : (h.modDe f).pw = h.pw := rfl
@[simp] theorem Hub.modDe_ky (h : Hub) (f : Decision → Decision) : (h.modDe f).ky = h.ky := rfl
@[simp] theorem Hub.modDe_mg (h : Hub) (f : Decision → Decision) : (h.modDe f).mg = h.mg := rfl
@[simp] theorem Hub.modDe_su (h : Hub) (f : Decision → Decision) : (h.modDe f).su = h.su := rfl
@[simp] theorem Hub.modDe_inbox (h : Hub) (f : Decision → Decision) : (h.modDe f).inbox = h.inbox := rfl
@[simp] theorem Hub.modDe_outbox (h : Hub) (f : Decision → Decision) : (h.modDe f).outbox = h.outbox := rfl
@[simp] theorem Hub.modDe_free (h : Hub) (f : Decision → Decision) : (h.modDe f).free = h.free := rfl

/-! ## Hub.modBr -/

@[simp] theorem Hub.modBr_br (h : Hub) (f : Bridge → Bridge) : (h.modBr f).br = f h.br := rfl
@[simp] theorem Hub.modBr_clk (h : Hub) (f : Bridge → Bridge) : (h.modBr f).clk = h.clk := rfl
@[simp] theorem Hub.modBr_straps (h : Hub) (f : Bridge → Bridge) : (h.modBr f).straps = h.straps := rfl
@[simp] theorem Hub.modBr_params (h : Hub) (f : Bridge → Bridge) : (h.modBr f).params = h.params := rfl
@[simp] theorem Hub.modBr_nvStore (h : Hub) (f : Bridge → Bridge) : (h.modBr f).nvStore = h.nvStore := rfl
@[simp] theorem Hub.modBr_tables (h : Hub) (f : Bridge → Bridge) : (h.modBr f).tables = h.tables := rfl
@[simp] theorem Hub.modBr_dram (h : Hub) (f : Bridge → Bridge) : (h.modBr f).dram = h.dram := rfl
@[simp] theorem Hub.modBr_hostMem (h : Hub) (f : Bridge → Bridge) : (h.modBr f).hostMem = h.hostMem := rfl
@[simp] theorem Hub.modBr_ctl (h : Hub) (f : Bridge → Bridge) : (h.modBr f).ctl = h.ctl := rfl
@[simp] theorem Hub.modBr_ports (h : Hub) (f : Bridge → Bridge) : (h.modBr f).ports = h.ports := rfl
@[simp] theorem Hub.modBr_sw (h : Hub) (f : Bridge → Bridge) : (h.modBr f).sw = h.sw := rfl
@[simp] theorem Hub.modBr_tn (h : Hub) (f : Bridge → Bridge) : (h.modBr f).tn = h.tn := rfl
@[simp] theorem Hub.modBr_al (h : Hub) (f : Bridge → Bridge) : (h.modBr f).al = h.al := rfl
@[simp] theorem Hub.modBr_rl (h : Hub) (f : Bridge → Bridge) : (h.modBr f).rl = h.rl := rfl
@[simp] theorem Hub.modBr_lint (h : Hub) (f : Bridge → Bridge) : (h.modBr f).lint = h.lint := rfl
@[simp] theorem Hub.modBr_isl (h : Hub) (f : Bridge → Bridge) : (h.modBr f).isl = h.isl := rfl
@[simp] theorem Hub.modBr_ct (h : Hub) (f : Bridge → Bridge) : (h.modBr f).ct = h.ct := rfl
@[simp] theorem Hub.modBr_svcHost (h : Hub) (f : Bridge → Bridge) : (h.modBr f).svcHost = h.svcHost := rfl
@[simp] theorem Hub.modBr_ag (h : Hub) (f : Bridge → Bridge) : (h.modBr f).ag = h.ag := rfl
@[simp] theorem Hub.modBr_de (h : Hub) (f : Bridge → Bridge) : (h.modBr f).de = h.de := rfl
@[simp] theorem Hub.modBr_eth (h : Hub) (f : Bridge → Bridge) : (h.modBr f).eth = h.eth := rfl
@[simp] theorem Hub.modBr_fu (h : Hub) (f : Bridge → Bridge) : (h.modBr f).fu = h.fu := rfl
@[simp] theorem Hub.modBr_usb (h : Hub) (f : Bridge → Bridge) : (h.modBr f).usb = h.usb := rfl
@[simp] theorem Hub.modBr_tc (h : Hub) (f : Bridge → Bridge) : (h.modBr f).tc = h.tc := rfl
@[simp] theorem Hub.modBr_ds (h : Hub) (f : Bridge → Bridge) : (h.modBr f).ds = h.ds := rfl
@[simp] theorem Hub.modBr_pw (h : Hub) (f : Bridge → Bridge) : (h.modBr f).pw = h.pw := rfl
@[simp] theorem Hub.modBr_ky (h : Hub) (f : Bridge → Bridge) : (h.modBr f).ky = h.ky := rfl
@[simp] theorem Hub.modBr_mg (h : Hub) (f : Bridge → Bridge) : (h.modBr f).mg = h.mg := rfl
@[simp] theorem Hub.modBr_su (h : Hub) (f : Bridge → Bridge) : (h.modBr f).su = h.su := rfl
@[simp] theorem Hub.modBr_inbox (h : Hub) (f : Bridge → Bridge) : (h.modBr f).inbox = h.inbox := rfl
@[simp] theorem Hub.modBr_outbox (h : Hub) (f : Bridge → Bridge) : (h.modBr f).outbox = h.outbox := rfl
@[simp] theorem Hub.modBr_free (h : Hub) (f : Bridge → Bridge) : (h.modBr f).free = h.free := rfl

/-! ## Hub.modEth -/

@[simp] theorem Hub.modEth_eth (h : Hub) (p : Nat) (f : EthPort → EthPort) : (h.modEth p f).eth = modAt h.eth p f := rfl
@[simp] theorem Hub.modEth_clk (h : Hub) (p : Nat) (f : EthPort → EthPort) : (h.modEth p f).clk = h.clk := rfl
@[simp] theorem Hub.modEth_straps (h : Hub) (p : Nat) (f : EthPort → EthPort) : (h.modEth p f).straps = h.straps := rfl
@[simp] theorem Hub.modEth_params (h : Hub) (p : Nat) (f : EthPort → EthPort) : (h.modEth p f).params = h.params := rfl
@[simp] theorem Hub.modEth_nvStore (h : Hub) (p : Nat) (f : EthPort → EthPort) : (h.modEth p f).nvStore = h.nvStore := rfl
@[simp] theorem Hub.modEth_tables (h : Hub) (p : Nat) (f : EthPort → EthPort) : (h.modEth p f).tables = h.tables := rfl
@[simp] theorem Hub.modEth_dram (h : Hub) (p : Nat) (f : EthPort → EthPort) : (h.modEth p f).dram = h.dram := rfl
@[simp] theorem Hub.modEth_hostMem (h : Hub) (p : Nat) (f : EthPort → EthPort) : (h.modEth p f).hostMem = h.hostMem := rfl
@[simp] theorem Hub.modEth_ctl (h : Hub) (p : Nat) (f : EthPort → EthPort) : (h.modEth p f).ctl = h.ctl := rfl
@[simp] theorem Hub.modEth_ports (h : Hub) (p : Nat) (f : EthPort → EthPort) : (h.modEth p f).ports = h.ports := rfl
@[simp] theorem Hub.modEth_sw (h : Hub) (p : Nat) (f : EthPort → EthPort) : (h.modEth p f).sw = h.sw := rfl
@[simp] theorem Hub.modEth_tn (h : Hub) (p : Nat) (f : EthPort → EthPort) : (h.modEth p f).tn = h.tn := rfl
@[simp] theorem Hub.modEth_al (h : Hub) (p : Nat) (f : EthPort → EthPort) : (h.modEth p f).al = h.al := rfl
@[simp] theorem Hub.modEth_rl (h : Hub) (p : Nat) (f : EthPort → EthPort) : (h.modEth p f).rl = h.rl := rfl
@[simp] theorem Hub.modEth_lint (h : Hub) (p : Nat) (f : EthPort → EthPort) : (h.modEth p f).lint = h.lint := rfl
@[simp] theorem Hub.modEth_isl (h : Hub) (p : Nat) (f : EthPort → EthPort) : (h.modEth p f).isl = h.isl := rfl
@[simp] theorem Hub.modEth_ct (h : Hub) (p : Nat) (f : EthPort → EthPort) : (h.modEth p f).ct = h.ct := rfl
@[simp] theorem Hub.modEth_svcHost (h : Hub) (p : Nat) (f : EthPort → EthPort) : (h.modEth p f).svcHost = h.svcHost := rfl
@[simp] theorem Hub.modEth_ag (h : Hub) (p : Nat) (f : EthPort → EthPort) : (h.modEth p f).ag = h.ag := rfl
@[simp] theorem Hub.modEth_de (h : Hub) (p : Nat) (f : EthPort → EthPort) : (h.modEth p f).de = h.de := rfl
@[simp] theorem Hub.modEth_br (h : Hub) (p : Nat) (f : EthPort → EthPort) : (h.modEth p f).br = h.br := rfl
@[simp] theorem Hub.modEth_fu (h : Hub) (p : Nat) (f : EthPort → EthPort) : (h.modEth p f).fu = h.fu := rfl
@[simp] theorem Hub.modEth_usb (h : Hub) (p : Nat) (f : EthPort → EthPort) : (h.modEth p f).usb = h.usb := rfl
@[simp] theorem Hub.modEth_tc (h : Hub) (p : Nat) (f : EthPort → EthPort) : (h.modEth p f).tc = h.tc := rfl
@[simp] theorem Hub.modEth_ds (h : Hub) (p : Nat) (f : EthPort → EthPort) : (h.modEth p f).ds = h.ds := rfl
@[simp] theorem Hub.modEth_pw (h : Hub) (p : Nat) (f : EthPort → EthPort) : (h.modEth p f).pw = h.pw := rfl
@[simp] theorem Hub.modEth_ky (h : Hub) (p : Nat) (f : EthPort → EthPort) : (h.modEth p f).ky = h.ky := rfl
@[simp] theorem Hub.modEth_mg (h : Hub) (p : Nat) (f : EthPort → EthPort) : (h.modEth p f).mg = h.mg := rfl
@[simp] theorem Hub.modEth_su (h : Hub) (p : Nat) (f : EthPort → EthPort) : (h.modEth p f).su = h.su := rfl
@[simp] theorem Hub.modEth_inbox (h : Hub) (p : Nat) (f : EthPort → EthPort) : (h.modEth p f).inbox = h.inbox := rfl
@[simp] theorem Hub.modEth_outbox (h : Hub) (p : Nat) (f : EthPort → EthPort) : (h.modEth p f).outbox = h.outbox := rfl
@[simp] theorem Hub.modEth_free (h : Hub) (p : Nat) (f : EthPort → EthPort) : (h.modEth p f).free = h.free := rfl

/-! ## Hub.modUsbc -/

@[simp] theorem Hub.modUsbc_usb (h : Hub) (f : Usb → Usb) : (h.modUsbc f).usb = f h.usb := rfl
@[simp] theorem Hub.modUsbc_clk (h : Hub) (f : Usb → Usb) : (h.modUsbc f).clk = h.clk := rfl
@[simp] theorem Hub.modUsbc_straps (h : Hub) (f : Usb → Usb) : (h.modUsbc f).straps = h.straps := rfl
@[simp] theorem Hub.modUsbc_params (h : Hub) (f : Usb → Usb) : (h.modUsbc f).params = h.params := rfl
@[simp] theorem Hub.modUsbc_nvStore (h : Hub) (f : Usb → Usb) : (h.modUsbc f).nvStore = h.nvStore := rfl
@[simp] theorem Hub.modUsbc_tables (h : Hub) (f : Usb → Usb) : (h.modUsbc f).tables = h.tables := rfl
@[simp] theorem Hub.modUsbc_dram (h : Hub) (f : Usb → Usb) : (h.modUsbc f).dram = h.dram := rfl
@[simp] theorem Hub.modUsbc_hostMem (h : Hub) (f : Usb → Usb) : (h.modUsbc f).hostMem = h.hostMem := rfl
@[simp] theorem Hub.modUsbc_ctl (h : Hub) (f : Usb → Usb) : (h.modUsbc f).ctl = h.ctl := rfl
@[simp] theorem Hub.modUsbc_ports (h : Hub) (f : Usb → Usb) : (h.modUsbc f).ports = h.ports := rfl
@[simp] theorem Hub.modUsbc_sw (h : Hub) (f : Usb → Usb) : (h.modUsbc f).sw = h.sw := rfl
@[simp] theorem Hub.modUsbc_tn (h : Hub) (f : Usb → Usb) : (h.modUsbc f).tn = h.tn := rfl
@[simp] theorem Hub.modUsbc_al (h : Hub) (f : Usb → Usb) : (h.modUsbc f).al = h.al := rfl
@[simp] theorem Hub.modUsbc_rl (h : Hub) (f : Usb → Usb) : (h.modUsbc f).rl = h.rl := rfl
@[simp] theorem Hub.modUsbc_lint (h : Hub) (f : Usb → Usb) : (h.modUsbc f).lint = h.lint := rfl
@[simp] theorem Hub.modUsbc_isl (h : Hub) (f : Usb → Usb) : (h.modUsbc f).isl = h.isl := rfl
@[simp] theorem Hub.modUsbc_ct (h : Hub) (f : Usb → Usb) : (h.modUsbc f).ct = h.ct := rfl
@[simp] theorem Hub.modUsbc_svcHost (h : Hub) (f : Usb → Usb) : (h.modUsbc f).svcHost = h.svcHost := rfl
@[simp] theorem Hub.modUsbc_ag (h : Hub) (f : Usb → Usb) : (h.modUsbc f).ag = h.ag := rfl
@[simp] theorem Hub.modUsbc_de (h : Hub) (f : Usb → Usb) : (h.modUsbc f).de = h.de := rfl
@[simp] theorem Hub.modUsbc_br (h : Hub) (f : Usb → Usb) : (h.modUsbc f).br = h.br := rfl
@[simp] theorem Hub.modUsbc_eth (h : Hub) (f : Usb → Usb) : (h.modUsbc f).eth = h.eth := rfl
@[simp] theorem Hub.modUsbc_fu (h : Hub) (f : Usb → Usb) : (h.modUsbc f).fu = h.fu := rfl
@[simp] theorem Hub.modUsbc_tc (h : Hub) (f : Usb → Usb) : (h.modUsbc f).tc = h.tc := rfl
@[simp] theorem Hub.modUsbc_ds (h : Hub) (f : Usb → Usb) : (h.modUsbc f).ds = h.ds := rfl
@[simp] theorem Hub.modUsbc_pw (h : Hub) (f : Usb → Usb) : (h.modUsbc f).pw = h.pw := rfl
@[simp] theorem Hub.modUsbc_ky (h : Hub) (f : Usb → Usb) : (h.modUsbc f).ky = h.ky := rfl
@[simp] theorem Hub.modUsbc_mg (h : Hub) (f : Usb → Usb) : (h.modUsbc f).mg = h.mg := rfl
@[simp] theorem Hub.modUsbc_su (h : Hub) (f : Usb → Usb) : (h.modUsbc f).su = h.su := rfl
@[simp] theorem Hub.modUsbc_inbox (h : Hub) (f : Usb → Usb) : (h.modUsbc f).inbox = h.inbox := rfl
@[simp] theorem Hub.modUsbc_outbox (h : Hub) (f : Usb → Usb) : (h.modUsbc f).outbox = h.outbox := rfl
@[simp] theorem Hub.modUsbc_free (h : Hub) (f : Usb → Usb) : (h.modUsbc f).free = h.free := rfl

/-! ## Hub.modTc -/

@[simp] theorem Hub.modTc_tc (h : Hub) (n : Nat) (f : TcPort → TcPort) : (h.modTc n f).tc = modAt h.tc n f := rfl
@[simp] theorem Hub.modTc_clk (h : Hub) (n : Nat) (f : TcPort → TcPort) : (h.modTc n f).clk = h.clk := rfl
@[simp] theorem Hub.modTc_straps (h : Hub) (n : Nat) (f : TcPort → TcPort) : (h.modTc n f).straps = h.straps := rfl
@[simp] theorem Hub.modTc_params (h : Hub) (n : Nat) (f : TcPort → TcPort) : (h.modTc n f).params = h.params := rfl
@[simp] theorem Hub.modTc_nvStore (h : Hub) (n : Nat) (f : TcPort → TcPort) : (h.modTc n f).nvStore = h.nvStore := rfl
@[simp] theorem Hub.modTc_tables (h : Hub) (n : Nat) (f : TcPort → TcPort) : (h.modTc n f).tables = h.tables := rfl
@[simp] theorem Hub.modTc_dram (h : Hub) (n : Nat) (f : TcPort → TcPort) : (h.modTc n f).dram = h.dram := rfl
@[simp] theorem Hub.modTc_hostMem (h : Hub) (n : Nat) (f : TcPort → TcPort) : (h.modTc n f).hostMem = h.hostMem := rfl
@[simp] theorem Hub.modTc_ctl (h : Hub) (n : Nat) (f : TcPort → TcPort) : (h.modTc n f).ctl = h.ctl := rfl
@[simp] theorem Hub.modTc_ports (h : Hub) (n : Nat) (f : TcPort → TcPort) : (h.modTc n f).ports = h.ports := rfl
@[simp] theorem Hub.modTc_sw (h : Hub) (n : Nat) (f : TcPort → TcPort) : (h.modTc n f).sw = h.sw := rfl
@[simp] theorem Hub.modTc_tn (h : Hub) (n : Nat) (f : TcPort → TcPort) : (h.modTc n f).tn = h.tn := rfl
@[simp] theorem Hub.modTc_al (h : Hub) (n : Nat) (f : TcPort → TcPort) : (h.modTc n f).al = h.al := rfl
@[simp] theorem Hub.modTc_rl (h : Hub) (n : Nat) (f : TcPort → TcPort) : (h.modTc n f).rl = h.rl := rfl
@[simp] theorem Hub.modTc_lint (h : Hub) (n : Nat) (f : TcPort → TcPort) : (h.modTc n f).lint = h.lint := rfl
@[simp] theorem Hub.modTc_isl (h : Hub) (n : Nat) (f : TcPort → TcPort) : (h.modTc n f).isl = h.isl := rfl
@[simp] theorem Hub.modTc_ct (h : Hub) (n : Nat) (f : TcPort → TcPort) : (h.modTc n f).ct = h.ct := rfl
@[simp] theorem Hub.modTc_svcHost (h : Hub) (n : Nat) (f : TcPort → TcPort) : (h.modTc n f).svcHost = h.svcHost := rfl
@[simp] theorem Hub.modTc_ag (h : Hub) (n : Nat) (f : TcPort → TcPort) : (h.modTc n f).ag = h.ag := rfl
@[simp] theorem Hub.modTc_de (h : Hub) (n : Nat) (f : TcPort → TcPort) : (h.modTc n f).de = h.de := rfl
@[simp] theorem Hub.modTc_br (h : Hub) (n : Nat) (f : TcPort → TcPort) : (h.modTc n f).br = h.br := rfl
@[simp] theorem Hub.modTc_eth (h : Hub) (n : Nat) (f : TcPort → TcPort) : (h.modTc n f).eth = h.eth := rfl
@[simp] theorem Hub.modTc_fu (h : Hub) (n : Nat) (f : TcPort → TcPort) : (h.modTc n f).fu = h.fu := rfl
@[simp] theorem Hub.modTc_usb (h : Hub) (n : Nat) (f : TcPort → TcPort) : (h.modTc n f).usb = h.usb := rfl
@[simp] theorem Hub.modTc_ds (h : Hub) (n : Nat) (f : TcPort → TcPort) : (h.modTc n f).ds = h.ds := rfl
@[simp] theorem Hub.modTc_pw (h : Hub) (n : Nat) (f : TcPort → TcPort) : (h.modTc n f).pw = h.pw := rfl
@[simp] theorem Hub.modTc_ky (h : Hub) (n : Nat) (f : TcPort → TcPort) : (h.modTc n f).ky = h.ky := rfl
@[simp] theorem Hub.modTc_mg (h : Hub) (n : Nat) (f : TcPort → TcPort) : (h.modTc n f).mg = h.mg := rfl
@[simp] theorem Hub.modTc_su (h : Hub) (n : Nat) (f : TcPort → TcPort) : (h.modTc n f).su = h.su := rfl
@[simp] theorem Hub.modTc_inbox (h : Hub) (n : Nat) (f : TcPort → TcPort) : (h.modTc n f).inbox = h.inbox := rfl
@[simp] theorem Hub.modTc_outbox (h : Hub) (n : Nat) (f : TcPort → TcPort) : (h.modTc n f).outbox = h.outbox := rfl
@[simp] theorem Hub.modTc_free (h : Hub) (n : Nat) (f : TcPort → TcPort) : (h.modTc n f).free = h.free := rfl

/-! ## Hub.modHead -/

@[simp] theorem Hub.modHead_ds (h : Hub) (d : Nat) (f : Head → Head) : (h.modHead d f).ds = modAt h.ds d f := rfl
@[simp] theorem Hub.modHead_clk (h : Hub) (d : Nat) (f : Head → Head) : (h.modHead d f).clk = h.clk := rfl
@[simp] theorem Hub.modHead_straps (h : Hub) (d : Nat) (f : Head → Head) : (h.modHead d f).straps = h.straps := rfl
@[simp] theorem Hub.modHead_params (h : Hub) (d : Nat) (f : Head → Head) : (h.modHead d f).params = h.params := rfl
@[simp] theorem Hub.modHead_nvStore (h : Hub) (d : Nat) (f : Head → Head) : (h.modHead d f).nvStore = h.nvStore := rfl
@[simp] theorem Hub.modHead_tables (h : Hub) (d : Nat) (f : Head → Head) : (h.modHead d f).tables = h.tables := rfl
@[simp] theorem Hub.modHead_dram (h : Hub) (d : Nat) (f : Head → Head) : (h.modHead d f).dram = h.dram := rfl
@[simp] theorem Hub.modHead_hostMem (h : Hub) (d : Nat) (f : Head → Head) : (h.modHead d f).hostMem = h.hostMem := rfl
@[simp] theorem Hub.modHead_ctl (h : Hub) (d : Nat) (f : Head → Head) : (h.modHead d f).ctl = h.ctl := rfl
@[simp] theorem Hub.modHead_ports (h : Hub) (d : Nat) (f : Head → Head) : (h.modHead d f).ports = h.ports := rfl
@[simp] theorem Hub.modHead_sw (h : Hub) (d : Nat) (f : Head → Head) : (h.modHead d f).sw = h.sw := rfl
@[simp] theorem Hub.modHead_tn (h : Hub) (d : Nat) (f : Head → Head) : (h.modHead d f).tn = h.tn := rfl
@[simp] theorem Hub.modHead_al (h : Hub) (d : Nat) (f : Head → Head) : (h.modHead d f).al = h.al := rfl
@[simp] theorem Hub.modHead_rl (h : Hub) (d : Nat) (f : Head → Head) : (h.modHead d f).rl = h.rl := rfl
@[simp] theorem Hub.modHead_lint (h : Hub) (d : Nat) (f : Head → Head) : (h.modHead d f).lint = h.lint := rfl
@[simp] theorem Hub.modHead_isl (h : Hub) (d : Nat) (f : Head → Head) : (h.modHead d f).isl = h.isl := rfl
@[simp] theorem Hub.modHead_ct (h : Hub) (d : Nat) (f : Head → Head) : (h.modHead d f).ct = h.ct := rfl
@[simp] theorem Hub.modHead_svcHost (h : Hub) (d : Nat) (f : Head → Head) : (h.modHead d f).svcHost = h.svcHost := rfl
@[simp] theorem Hub.modHead_ag (h : Hub) (d : Nat) (f : Head → Head) : (h.modHead d f).ag = h.ag := rfl
@[simp] theorem Hub.modHead_de (h : Hub) (d : Nat) (f : Head → Head) : (h.modHead d f).de = h.de := rfl
@[simp] theorem Hub.modHead_br (h : Hub) (d : Nat) (f : Head → Head) : (h.modHead d f).br = h.br := rfl
@[simp] theorem Hub.modHead_eth (h : Hub) (d : Nat) (f : Head → Head) : (h.modHead d f).eth = h.eth := rfl
@[simp] theorem Hub.modHead_fu (h : Hub) (d : Nat) (f : Head → Head) : (h.modHead d f).fu = h.fu := rfl
@[simp] theorem Hub.modHead_usb (h : Hub) (d : Nat) (f : Head → Head) : (h.modHead d f).usb = h.usb := rfl
@[simp] theorem Hub.modHead_tc (h : Hub) (d : Nat) (f : Head → Head) : (h.modHead d f).tc = h.tc := rfl
@[simp] theorem Hub.modHead_pw (h : Hub) (d : Nat) (f : Head → Head) : (h.modHead d f).pw = h.pw := rfl
@[simp] theorem Hub.modHead_ky (h : Hub) (d : Nat) (f : Head → Head) : (h.modHead d f).ky = h.ky := rfl
@[simp] theorem Hub.modHead_mg (h : Hub) (d : Nat) (f : Head → Head) : (h.modHead d f).mg = h.mg := rfl
@[simp] theorem Hub.modHead_su (h : Hub) (d : Nat) (f : Head → Head) : (h.modHead d f).su = h.su := rfl
@[simp] theorem Hub.modHead_inbox (h : Hub) (d : Nat) (f : Head → Head) : (h.modHead d f).inbox = h.inbox := rfl
@[simp] theorem Hub.modHead_outbox (h : Hub) (d : Nat) (f : Head → Head) : (h.modHead d f).outbox = h.outbox := rfl
@[simp] theorem Hub.modHead_free (h : Hub) (d : Nat) (f : Head → Head) : (h.modHead d f).free = h.free := rfl

/-! ## Hub.modSu -/

@[simp] theorem Hub.modSu_su (h : Hub) (f : Supply → Supply) : (h.modSu f).su = f h.su := rfl
@[simp] theorem Hub.modSu_clk (h : Hub) (f : Supply → Supply) : (h.modSu f).clk = h.clk := rfl
@[simp] theorem Hub.modSu_straps (h : Hub) (f : Supply → Supply) : (h.modSu f).straps = h.straps := rfl
@[simp] theorem Hub.modSu_params (h : Hub) (f : Supply → Supply) : (h.modSu f).params = h.params := rfl
@[simp] theorem Hub.modSu_nvStore (h : Hub) (f : Supply → Supply) : (h.modSu f).nvStore = h.nvStore := rfl
@[simp] theorem Hub.modSu_tables (h : Hub) (f : Supply → Supply) : (h.modSu f).tables = h.tables := rfl
@[simp] theorem Hub.modSu_dram (h : Hub) (f : Supply → Supply) : (h.modSu f).dram = h.dram := rfl
@[simp] theorem Hub.modSu_hostMem (h : Hub) (f : Supply → Supply) : (h.modSu f).hostMem = h.hostMem := rfl
@[simp] theorem Hub.modSu_ctl (h : Hub) (f : Supply → Supply) : (h.modSu f).ctl = h.ctl := rfl
@[simp] theorem Hub.modSu_ports (h : Hub) (f : Supply → Supply) : (h.modSu f).ports = h.ports := rfl
@[simp] theorem Hub.modSu_sw (h : Hub) (f : Supply → Supply) : (h.modSu f).sw = h.sw := rfl
@[simp] theorem Hub.modSu_tn (h : Hub) (f : Supply → Supply) : (h.modSu f).tn = h.tn := rfl
@[simp] theorem Hub.modSu_al (h : Hub) (f : Supply → Supply) : (h.modSu f).al = h.al := rfl
@[simp] theorem Hub.modSu_rl (h : Hub) (f : Supply → Supply) : (h.modSu f).rl = h.rl := rfl
@[simp] theorem Hub.modSu_lint (h : Hub) (f : Supply → Supply) : (h.modSu f).lint = h.lint := rfl
@[simp] theorem Hub.modSu_isl (h : Hub) (f : Supply → Supply) : (h.modSu f).isl = h.isl := rfl
@[simp] theorem Hub.modSu_ct (h : Hub) (f : Supply → Supply) : (h.modSu f).ct = h.ct := rfl
@[simp] theorem Hub.modSu_svcHost (h : Hub) (f : Supply → Supply) : (h.modSu f).svcHost = h.svcHost := rfl
@[simp] theorem Hub.modSu_ag (h : Hub) (f : Supply → Supply) : (h.modSu f).ag = h.ag := rfl
@[simp] theorem Hub.modSu_de (h : Hub) (f : Supply → Supply) : (h.modSu f).de = h.de := rfl
@[simp] theorem Hub.modSu_br (h : Hub) (f : Supply → Supply) : (h.modSu f).br = h.br := rfl
@[simp] theorem Hub.modSu_eth (h : Hub) (f : Supply → Supply) : (h.modSu f).eth = h.eth := rfl
@[simp] theorem Hub.modSu_fu (h : Hub) (f : Supply → Supply) : (h.modSu f).fu = h.fu := rfl
@[simp] theorem Hub.modSu_usb (h : Hub) (f : Supply → Supply) : (h.modSu f).usb = h.usb := rfl
@[simp] theorem Hub.modSu_tc (h : Hub) (f : Supply → Supply) : (h.modSu f).tc = h.tc := rfl
@[simp] theorem Hub.modSu_ds (h : Hub) (f : Supply → Supply) : (h.modSu f).ds = h.ds := rfl
@[simp] theorem Hub.modSu_pw (h : Hub) (f : Supply → Supply) : (h.modSu f).pw = h.pw := rfl
@[simp] theorem Hub.modSu_ky (h : Hub) (f : Supply → Supply) : (h.modSu f).ky = h.ky := rfl
@[simp] theorem Hub.modSu_mg (h : Hub) (f : Supply → Supply) : (h.modSu f).mg = h.mg := rfl
@[simp] theorem Hub.modSu_inbox (h : Hub) (f : Supply → Supply) : (h.modSu f).inbox = h.inbox := rfl
@[simp] theorem Hub.modSu_outbox (h : Hub) (f : Supply → Supply) : (h.modSu f).outbox = h.outbox := rfl
@[simp] theorem Hub.modSu_free (h : Hub) (f : Supply → Supply) : (h.modSu f).free = h.free := rfl

/-! ## Hub.modFuse -/

@[simp] theorem Hub.modFuse_fu (h : Hub) (c : Nat) (f : Fuse → Fuse) : (h.modFuse c f).fu = modAt h.fu c f := rfl
@[simp] theorem Hub.modFuse_clk (h : Hub) (c : Nat) (f : Fuse → Fuse) : (h.modFuse c f).clk = h.clk := rfl
@[simp] theorem Hub.modFuse_straps (h : Hub) (c : Nat) (f : Fuse → Fuse) : (h.modFuse c f).straps = h.straps := rfl
@[simp] theorem Hub.modFuse_params (h : Hub) (c : Nat) (f : Fuse → Fuse) : (h.modFuse c f).params = h.params := rfl
@[simp] theorem Hub.modFuse_nvStore (h : Hub) (c : Nat) (f : Fuse → Fuse) : (h.modFuse c f).nvStore = h.nvStore := rfl
@[simp] theorem Hub.modFuse_tables (h : Hub) (c : Nat) (f : Fuse → Fuse) : (h.modFuse c f).tables = h.tables := rfl
@[simp] theorem Hub.modFuse_dram (h : Hub) (c : Nat) (f : Fuse → Fuse) : (h.modFuse c f).dram = h.dram := rfl
@[simp] theorem Hub.modFuse_hostMem (h : Hub) (c : Nat) (f : Fuse → Fuse) : (h.modFuse c f).hostMem = h.hostMem := rfl
@[simp] theorem Hub.modFuse_ctl (h : Hub) (c : Nat) (f : Fuse → Fuse) : (h.modFuse c f).ctl = h.ctl := rfl
@[simp] theorem Hub.modFuse_ports (h : Hub) (c : Nat) (f : Fuse → Fuse) : (h.modFuse c f).ports = h.ports := rfl
@[simp] theorem Hub.modFuse_sw (h : Hub) (c : Nat) (f : Fuse → Fuse) : (h.modFuse c f).sw = h.sw := rfl
@[simp] theorem Hub.modFuse_tn (h : Hub) (c : Nat) (f : Fuse → Fuse) : (h.modFuse c f).tn = h.tn := rfl
@[simp] theorem Hub.modFuse_al (h : Hub) (c : Nat) (f : Fuse → Fuse) : (h.modFuse c f).al = h.al := rfl
@[simp] theorem Hub.modFuse_rl (h : Hub) (c : Nat) (f : Fuse → Fuse) : (h.modFuse c f).rl = h.rl := rfl
@[simp] theorem Hub.modFuse_lint (h : Hub) (c : Nat) (f : Fuse → Fuse) : (h.modFuse c f).lint = h.lint := rfl
@[simp] theorem Hub.modFuse_isl (h : Hub) (c : Nat) (f : Fuse → Fuse) : (h.modFuse c f).isl = h.isl := rfl
@[simp] theorem Hub.modFuse_ct (h : Hub) (c : Nat) (f : Fuse → Fuse) : (h.modFuse c f).ct = h.ct := rfl
@[simp] theorem Hub.modFuse_svcHost (h : Hub) (c : Nat) (f : Fuse → Fuse) : (h.modFuse c f).svcHost = h.svcHost := rfl
@[simp] theorem Hub.modFuse_ag (h : Hub) (c : Nat) (f : Fuse → Fuse) : (h.modFuse c f).ag = h.ag := rfl
@[simp] theorem Hub.modFuse_de (h : Hub) (c : Nat) (f : Fuse → Fuse) : (h.modFuse c f).de = h.de := rfl
@[simp] theorem Hub.modFuse_br (h : Hub) (c : Nat) (f : Fuse → Fuse) : (h.modFuse c f).br = h.br := rfl
@[simp] theorem Hub.modFuse_eth (h : Hub) (c : Nat) (f : Fuse → Fuse) : (h.modFuse c f).eth = h.eth := rfl
@[simp] theorem Hub.modFuse_usb (h : Hub) (c : Nat) (f : Fuse → Fuse) : (h.modFuse c f).usb = h.usb := rfl
@[simp] theorem Hub.modFuse_tc (h : Hub) (c : Nat) (f : Fuse → Fuse) : (h.modFuse c f).tc = h.tc := rfl
@[simp] theorem Hub.modFuse_ds (h : Hub) (c : Nat) (f : Fuse → Fuse) : (h.modFuse c f).ds = h.ds := rfl
@[simp] theorem Hub.modFuse_pw (h : Hub) (c : Nat) (f : Fuse → Fuse) : (h.modFuse c f).pw = h.pw := rfl
@[simp] theorem Hub.modFuse_ky (h : Hub) (c : Nat) (f : Fuse → Fuse) : (h.modFuse c f).ky = h.ky := rfl
@[simp] theorem Hub.modFuse_mg (h : Hub) (c : Nat) (f : Fuse → Fuse) : (h.modFuse c f).mg = h.mg := rfl
@[simp] theorem Hub.modFuse_su (h : Hub) (c : Nat) (f : Fuse → Fuse) : (h.modFuse c f).su = h.su := rfl
@[simp] theorem Hub.modFuse_inbox (h : Hub) (c : Nat) (f : Fuse → Fuse) : (h.modFuse c f).inbox = h.inbox := rfl
@[simp] theorem Hub.modFuse_outbox (h : Hub) (c : Nat) (f : Fuse → Fuse) : (h.modFuse c f).outbox = h.outbox := rfl
@[simp] theorem Hub.modFuse_free (h : Hub) (c : Nat) (f : Fuse → Fuse) : (h.modFuse c f).free = h.free := rfl

/-! ## Hub.modGuard -/

@[simp] theorem Hub.modGuard_ag (h : Hub) (f : Guard → Guard) : (h.modGuard f).ag = f h.ag := rfl
@[simp] theorem Hub.modGuard_clk (h : Hub) (f : Guard → Guard) : (h.modGuard f).clk = h.clk := rfl
@[simp] theorem Hub.modGuard_straps (h : Hub) (f : Guard → Guard) : (h.modGuard f).straps = h.straps := rfl
@[simp] theorem Hub.modGuard_params (h : Hub) (f : Guard → Guard) : (h.modGuard f).params = h.params := rfl
@[simp] theorem Hub.modGuard_nvStore (h : Hub) (f : Guard → Guard) : (h.modGuard f).nvStore = h.nvStore := rfl
@[simp] theorem Hub.modGuard_tables (h : Hub) (f : Guard → Guard) : (h.modGuard f).tables = h.tables := rfl
@[simp] theorem Hub.modGuard_dram (h : Hub) (f : Guard → Guard) : (h.modGuard f).dram = h.dram := rfl
@[simp] theorem Hub.modGuard_hostMem (h : Hub) (f : Guard → Guard) : (h.modGuard f).hostMem = h.hostMem := rfl
@[simp] theorem Hub.modGuard_ctl (h : Hub) (f : Guard → Guard) : (h.modGuard f).ctl = h.ctl := rfl
@[simp] theorem Hub.modGuard_ports (h : Hub) (f : Guard → Guard) : (h.modGuard f).ports = h.ports := rfl
@[simp] theorem Hub.modGuard_sw (h : Hub) (f : Guard → Guard) : (h.modGuard f).sw = h.sw := rfl
@[simp] theorem Hub.modGuard_tn (h : Hub) (f : Guard → Guard) : (h.modGuard f).tn = h.tn := rfl
@[simp] theorem Hub.modGuard_al (h : Hub) (f : Guard → Guard) : (h.modGuard f).al = h.al := rfl
@[simp] theorem Hub.modGuard_rl (h : Hub) (f : Guard → Guard) : (h.modGuard f).rl = h.rl := rfl
@[simp] theorem Hub.modGuard_lint (h : Hub) (f : Guard → Guard) : (h.modGuard f).lint = h.lint := rfl
@[simp] theorem Hub.modGuard_isl (h : Hub) (f : Guard → Guard) : (h.modGuard f).isl = h.isl := rfl
@[simp] theorem Hub.modGuard_ct (h : Hub) (f : Guard → Guard) : (h.modGuard f).ct = h.ct := rfl
@[simp] theorem Hub.modGuard_svcHost (h : Hub) (f : Guard → Guard) : (h.modGuard f).svcHost = h.svcHost := rfl
@[simp] theorem Hub.modGuard_de (h : Hub) (f : Guard → Guard) : (h.modGuard f).de = h.de := rfl
@[simp] theorem Hub.modGuard_br (h : Hub) (f : Guard → Guard) : (h.modGuard f).br = h.br := rfl
@[simp] theorem Hub.modGuard_eth (h : Hub) (f : Guard → Guard) : (h.modGuard f).eth = h.eth := rfl
@[simp] theorem Hub.modGuard_fu (h : Hub) (f : Guard → Guard) : (h.modGuard f).fu = h.fu := rfl
@[simp] theorem Hub.modGuard_usb (h : Hub) (f : Guard → Guard) : (h.modGuard f).usb = h.usb := rfl
@[simp] theorem Hub.modGuard_tc (h : Hub) (f : Guard → Guard) : (h.modGuard f).tc = h.tc := rfl
@[simp] theorem Hub.modGuard_ds (h : Hub) (f : Guard → Guard) : (h.modGuard f).ds = h.ds := rfl
@[simp] theorem Hub.modGuard_pw (h : Hub) (f : Guard → Guard) : (h.modGuard f).pw = h.pw := rfl
@[simp] theorem Hub.modGuard_ky (h : Hub) (f : Guard → Guard) : (h.modGuard f).ky = h.ky := rfl
@[simp] theorem Hub.modGuard_mg (h : Hub) (f : Guard → Guard) : (h.modGuard f).mg = h.mg := rfl
@[simp] theorem Hub.modGuard_su (h : Hub) (f : Guard → Guard) : (h.modGuard f).su = h.su := rfl
@[simp] theorem Hub.modGuard_inbox (h : Hub) (f : Guard → Guard) : (h.modGuard f).inbox = h.inbox := rfl
@[simp] theorem Hub.modGuard_outbox (h : Hub) (f : Guard → Guard) : (h.modGuard f).outbox = h.outbox := rfl
@[simp] theorem Hub.modGuard_free (h : Hub) (f : Guard → Guard) : (h.modGuard f).free = h.free := rfl

/-! ## Hub.modKy -/

@[simp] theorem Hub.modKy_ky (h : Hub) (f : Keys → Keys) : (h.modKy f).ky = f h.ky := rfl
@[simp] theorem Hub.modKy_clk (h : Hub) (f : Keys → Keys) : (h.modKy f).clk = h.clk := rfl
@[simp] theorem Hub.modKy_straps (h : Hub) (f : Keys → Keys) : (h.modKy f).straps = h.straps := rfl
@[simp] theorem Hub.modKy_params (h : Hub) (f : Keys → Keys) : (h.modKy f).params = h.params := rfl
@[simp] theorem Hub.modKy_nvStore (h : Hub) (f : Keys → Keys) : (h.modKy f).nvStore = h.nvStore := rfl
@[simp] theorem Hub.modKy_tables (h : Hub) (f : Keys → Keys) : (h.modKy f).tables = h.tables := rfl
@[simp] theorem Hub.modKy_dram (h : Hub) (f : Keys → Keys) : (h.modKy f).dram = h.dram := rfl
@[simp] theorem Hub.modKy_hostMem (h : Hub) (f : Keys → Keys) : (h.modKy f).hostMem = h.hostMem := rfl
@[simp] theorem Hub.modKy_ctl (h : Hub) (f : Keys → Keys) : (h.modKy f).ctl = h.ctl := rfl
@[simp] theorem Hub.modKy_ports (h : Hub) (f : Keys → Keys) : (h.modKy f).ports = h.ports := rfl
@[simp] theorem Hub.modKy_sw (h : Hub) (f : Keys → Keys) : (h.modKy f).sw = h.sw := rfl
@[simp] theorem Hub.modKy_tn (h : Hub) (f : Keys → Keys) : (h.modKy f).tn = h.tn := rfl
@[simp] theorem Hub.modKy_al (h : Hub) (f : Keys → Keys) : (h.modKy f).al = h.al := rfl
@[simp] theorem Hub.modKy_rl (h : Hub) (f : Keys → Keys) : (h.modKy f).rl = h.rl := rfl
@[simp] theorem Hub.modKy_lint (h : Hub) (f : Keys → Keys) : (h.modKy f).lint = h.lint := rfl
@[simp] theorem Hub.modKy_isl (h : Hub) (f : Keys → Keys) : (h.modKy f).isl = h.isl := rfl
@[simp] theorem Hub.modKy_ct (h : Hub) (f : Keys → Keys) : (h.modKy f).ct = h.ct := rfl
@[simp] theorem Hub.modKy_svcHost (h : Hub) (f : Keys → Keys) : (h.modKy f).svcHost = h.svcHost := rfl
@[simp] theorem Hub.modKy_ag (h : Hub) (f : Keys → Keys) : (h.modKy f).ag = h.ag := rfl
@[simp] theorem Hub.modKy_de (h : Hub) (f : Keys → Keys) : (h.modKy f).de = h.de := rfl
@[simp] theorem Hub.modKy_br (h : Hub) (f : Keys → Keys) : (h.modKy f).br = h.br := rfl
@[simp] theorem Hub.modKy_eth (h : Hub) (f : Keys → Keys) : (h.modKy f).eth = h.eth := rfl
@[simp] theorem Hub.modKy_fu (h : Hub) (f : Keys → Keys) : (h.modKy f).fu = h.fu := rfl
@[simp] theorem Hub.modKy_usb (h : Hub) (f : Keys → Keys) : (h.modKy f).usb = h.usb := rfl
@[simp] theorem Hub.modKy_tc (h : Hub) (f : Keys → Keys) : (h.modKy f).tc = h.tc := rfl
@[simp] theorem Hub.modKy_ds (h : Hub) (f : Keys → Keys) : (h.modKy f).ds = h.ds := rfl
@[simp] theorem Hub.modKy_pw (h : Hub) (f : Keys → Keys) : (h.modKy f).pw = h.pw := rfl
@[simp] theorem Hub.modKy_mg (h : Hub) (f : Keys → Keys) : (h.modKy f).mg = h.mg := rfl
@[simp] theorem Hub.modKy_su (h : Hub) (f : Keys → Keys) : (h.modKy f).su = h.su := rfl
@[simp] theorem Hub.modKy_inbox (h : Hub) (f : Keys → Keys) : (h.modKy f).inbox = h.inbox := rfl
@[simp] theorem Hub.modKy_outbox (h : Hub) (f : Keys → Keys) : (h.modKy f).outbox = h.outbox := rfl
@[simp] theorem Hub.modKy_free (h : Hub) (f : Keys → Keys) : (h.modKy f).free = h.free := rfl

/-! ## Hub.modPw -/

@[simp] theorem Hub.modPw_pw (h : Hub) (f : Power → Power) : (h.modPw f).pw = f h.pw := rfl
@[simp] theorem Hub.modPw_clk (h : Hub) (f : Power → Power) : (h.modPw f).clk = h.clk := rfl
@[simp] theorem Hub.modPw_straps (h : Hub) (f : Power → Power) : (h.modPw f).straps = h.straps := rfl
@[simp] theorem Hub.modPw_params (h : Hub) (f : Power → Power) : (h.modPw f).params = h.params := rfl
@[simp] theorem Hub.modPw_nvStore (h : Hub) (f : Power → Power) : (h.modPw f).nvStore = h.nvStore := rfl
@[simp] theorem Hub.modPw_tables (h : Hub) (f : Power → Power) : (h.modPw f).tables = h.tables := rfl
@[simp] theorem Hub.modPw_dram (h : Hub) (f : Power → Power) : (h.modPw f).dram = h.dram := rfl
@[simp] theorem Hub.modPw_hostMem (h : Hub) (f : Power → Power) : (h.modPw f).hostMem = h.hostMem := rfl
@[simp] theorem Hub.modPw_ctl (h : Hub) (f : Power → Power) : (h.modPw f).ctl = h.ctl := rfl
@[simp] theorem Hub.modPw_ports (h : Hub) (f : Power → Power) : (h.modPw f).ports = h.ports := rfl
@[simp] theorem Hub.modPw_sw (h : Hub) (f : Power → Power) : (h.modPw f).sw = h.sw := rfl
@[simp] theorem Hub.modPw_tn (h : Hub) (f : Power → Power) : (h.modPw f).tn = h.tn := rfl
@[simp] theorem Hub.modPw_al (h : Hub) (f : Power → Power) : (h.modPw f).al = h.al := rfl
@[simp] theorem Hub.modPw_rl (h : Hub) (f : Power → Power) : (h.modPw f).rl = h.rl := rfl
@[simp] theorem Hub.modPw_lint (h : Hub) (f : Power → Power) : (h.modPw f).lint = h.lint := rfl
@[simp] theorem Hub.modPw_isl (h : Hub) (f : Power → Power) : (h.modPw f).isl = h.isl := rfl
@[simp] theorem Hub.modPw_ct (h : Hub) (f : Power → Power) : (h.modPw f).ct = h.ct := rfl
@[simp] theorem Hub.modPw_svcHost (h : Hub) (f : Power → Power) : (h.modPw f).svcHost = h.svcHost := rfl
@[simp] theorem Hub.modPw_ag (h : Hub) (f : Power → Power) : (h.modPw f).ag = h.ag := rfl
@[simp] theorem Hub.modPw_de (h : Hub) (f : Power → Power) : (h.modPw f).de = h.de := rfl
@[simp] theorem Hub.modPw_br (h : Hub) (f : Power → Power) : (h.modPw f).br = h.br := rfl
@[simp] theorem Hub.modPw_eth (h : Hub) (f : Power → Power) : (h.modPw f).eth = h.eth := rfl
@[simp] theorem Hub.modPw_fu (h : Hub) (f : Power → Power) : (h.modPw f).fu = h.fu := rfl
@[simp] theorem Hub.modPw_usb (h : Hub) (f : Power → Power) : (h.modPw f).usb = h.usb := rfl
@[simp] theorem Hub.modPw_tc (h : Hub) (f : Power → Power) : (h.modPw f).tc = h.tc := rfl
@[simp] theorem Hub.modPw_ds (h : Hub) (f : Power → Power) : (h.modPw f).ds = h.ds := rfl
@[simp] theorem Hub.modPw_ky (h : Hub) (f : Power → Power) : (h.modPw f).ky = h.ky := rfl
@[simp] theorem Hub.modPw_mg (h : Hub) (f : Power → Power) : (h.modPw f).mg = h.mg := rfl
@[simp] theorem Hub.modPw_su (h : Hub) (f : Power → Power) : (h.modPw f).su = h.su := rfl
@[simp] theorem Hub.modPw_inbox (h : Hub) (f : Power → Power) : (h.modPw f).inbox = h.inbox := rfl
@[simp] theorem Hub.modPw_outbox (h : Hub) (f : Power → Power) : (h.modPw f).outbox = h.outbox := rfl
@[simp] theorem Hub.modPw_free (h : Hub) (f : Power → Power) : (h.modPw f).free = h.free := rfl

/-! ## Hub.modCt -/

@[simp] theorem Hub.modCt_ct (h : Hub) (f : Counters → Counters) : (h.modCt f).ct = f h.ct := rfl
@[simp] theorem Hub.modCt_clk (h : Hub) (f : Counters → Counters) : (h.modCt f).clk = h.clk := rfl
@[simp] theorem Hub.modCt_straps (h : Hub) (f : Counters → Counters) : (h.modCt f).straps = h.straps := rfl
@[simp] theorem Hub.modCt_params (h : Hub) (f : Counters → Counters) : (h.modCt f).params = h.params := rfl
@[simp] theorem Hub.modCt_nvStore (h : Hub) (f : Counters → Counters) : (h.modCt f).nvStore = h.nvStore := rfl
@[simp] theorem Hub.modCt_tables (h : Hub) (f : Counters → Counters) : (h.modCt f).tables = h.tables := rfl
@[simp] theorem Hub.modCt_dram (h : Hub) (f : Counters → Counters) : (h.modCt f).dram = h.dram := rfl
@[simp] theorem Hub.modCt_hostMem (h : Hub) (f : Counters → Counters) : (h.modCt f).hostMem = h.hostMem := rfl
@[simp] theorem Hub.modCt_ctl (h : Hub) (f : Counters → Counters) : (h.modCt f).ctl = h.ctl := rfl
@[simp] theorem Hub.modCt_ports (h : Hub) (f : Counters → Counters) : (h.modCt f).ports = h.ports := rfl
@[simp] theorem Hub.modCt_sw (h : Hub) (f : Counters → Counters) : (h.modCt f).sw = h.sw := rfl
@[simp] theorem Hub.modCt_tn (h : Hub) (f : Counters → Counters) : (h.modCt f).tn = h.tn := rfl
@[simp] theorem Hub.modCt_al (h : Hub) (f : Counters → Counters) : (h.modCt f).al = h.al := rfl
@[simp] theorem Hub.modCt_rl (h : Hub) (f : Counters → Counters) : (h.modCt f).rl = h.rl := rfl
@[simp] theorem Hub.modCt_lint (h : Hub) (f : Counters → Counters) : (h.modCt f).lint = h.lint := rfl
@[simp] theorem Hub.modCt_isl (h : Hub) (f : Counters → Counters) : (h.modCt f).isl = h.isl := rfl
@[simp] theorem Hub.modCt_svcHost (h : Hub) (f : Counters → Counters) : (h.modCt f).svcHost = h.svcHost := rfl
@[simp] theorem Hub.modCt_ag (h : Hub) (f : Counters → Counters) : (h.modCt f).ag = h.ag := rfl
@[simp] theorem Hub.modCt_de (h : Hub) (f : Counters → Counters) : (h.modCt f).de = h.de := rfl
@[simp] theorem Hub.modCt_br (h : Hub) (f : Counters → Counters) : (h.modCt f).br = h.br := rfl
@[simp] theorem Hub.modCt_eth (h : Hub) (f : Counters → Counters) : (h.modCt f).eth = h.eth := rfl
@[simp] theorem Hub.modCt_fu (h : Hub) (f : Counters → Counters) : (h.modCt f).fu = h.fu := rfl
@[simp] theorem Hub.modCt_usb (h : Hub) (f : Counters → Counters) : (h.modCt f).usb = h.usb := rfl
@[simp] theorem Hub.modCt_tc (h : Hub) (f : Counters → Counters) : (h.modCt f).tc = h.tc := rfl
@[simp] theorem Hub.modCt_ds (h : Hub) (f : Counters → Counters) : (h.modCt f).ds = h.ds := rfl
@[simp] theorem Hub.modCt_pw (h : Hub) (f : Counters → Counters) : (h.modCt f).pw = h.pw := rfl
@[simp] theorem Hub.modCt_ky (h : Hub) (f : Counters → Counters) : (h.modCt f).ky = h.ky := rfl
@[simp] theorem Hub.modCt_mg (h : Hub) (f : Counters → Counters) : (h.modCt f).mg = h.mg := rfl
@[simp] theorem Hub.modCt_su (h : Hub) (f : Counters → Counters) : (h.modCt f).su = h.su := rfl
@[simp] theorem Hub.modCt_inbox (h : Hub) (f : Counters → Counters) : (h.modCt f).inbox = h.inbox := rfl
@[simp] theorem Hub.modCt_outbox (h : Hub) (f : Counters → Counters) : (h.modCt f).outbox = h.outbox := rfl
@[simp] theorem Hub.modCt_free (h : Hub) (f : Counters → Counters) : (h.modCt f).free = h.free := rfl

/-! ## Hub.modMg -/

@[simp] theorem Hub.modMg_mg (h : Hub) (f : Mgmt → Mgmt) : (h.modMg f).mg = f h.mg := rfl
@[simp] theorem Hub.modMg_clk (h : Hub) (f : Mgmt → Mgmt) : (h.modMg f).clk = h.clk := rfl
@[simp] theorem Hub.modMg_straps (h : Hub) (f : Mgmt → Mgmt) : (h.modMg f).straps = h.straps := rfl
@[simp] theorem Hub.modMg_params (h : Hub) (f : Mgmt → Mgmt) : (h.modMg f).params = h.params := rfl
@[simp] theorem Hub.modMg_nvStore (h : Hub) (f : Mgmt → Mgmt) : (h.modMg f).nvStore = h.nvStore := rfl
@[simp] theorem Hub.modMg_tables (h : Hub) (f : Mgmt → Mgmt) : (h.modMg f).tables = h.tables := rfl
@[simp] theorem Hub.modMg_dram (h : Hub) (f : Mgmt → Mgmt) : (h.modMg f).dram = h.dram := rfl
@[simp] theorem Hub.modMg_hostMem (h : Hub) (f : Mgmt → Mgmt) : (h.modMg f).hostMem = h.hostMem := rfl
@[simp] theorem Hub.modMg_ctl (h : Hub) (f : Mgmt → Mgmt) : (h.modMg f).ctl = h.ctl := rfl
@[simp] theorem Hub.modMg_ports (h : Hub) (f : Mgmt → Mgmt) : (h.modMg f).ports = h.ports := rfl
@[simp] theorem Hub.modMg_sw (h : Hub) (f : Mgmt → Mgmt) : (h.modMg f).sw = h.sw := rfl
@[simp] theorem Hub.modMg_tn (h : Hub) (f : Mgmt → Mgmt) : (h.modMg f).tn = h.tn := rfl
@[simp] theorem Hub.modMg_al (h : Hub) (f : Mgmt → Mgmt) : (h.modMg f).al = h.al := rfl
@[simp] theorem Hub.modMg_rl (h : Hub) (f : Mgmt → Mgmt) : (h.modMg f).rl = h.rl := rfl
@[simp] theorem Hub.modMg_lint (h : Hub) (f : Mgmt → Mgmt) : (h.modMg f).lint = h.lint := rfl
@[simp] theorem Hub.modMg_isl (h : Hub) (f : Mgmt → Mgmt) : (h.modMg f).isl = h.isl := rfl
@[simp] theorem Hub.modMg_ct (h : Hub) (f : Mgmt → Mgmt) : (h.modMg f).ct = h.ct := rfl
@[simp] theorem Hub.modMg_svcHost (h : Hub) (f : Mgmt → Mgmt) : (h.modMg f).svcHost = h.svcHost := rfl
@[simp] theorem Hub.modMg_ag (h : Hub) (f : Mgmt → Mgmt) : (h.modMg f).ag = h.ag := rfl
@[simp] theorem Hub.modMg_de (h : Hub) (f : Mgmt → Mgmt) : (h.modMg f).de = h.de := rfl
@[simp] theorem Hub.modMg_br (h : Hub) (f : Mgmt → Mgmt) : (h.modMg f).br = h.br := rfl
@[simp] theorem Hub.modMg_eth (h : Hub) (f : Mgmt → Mgmt) : (h.modMg f).eth = h.eth := rfl
@[simp] theorem Hub.modMg_fu (h : Hub) (f : Mgmt → Mgmt) : (h.modMg f).fu = h.fu := rfl
@[simp] theorem Hub.modMg_usb (h : Hub) (f : Mgmt → Mgmt) : (h.modMg f).usb = h.usb := rfl
@[simp] theorem Hub.modMg_tc (h : Hub) (f : Mgmt → Mgmt) : (h.modMg f).tc = h.tc := rfl
@[simp] theorem Hub.modMg_ds (h : Hub) (f : Mgmt → Mgmt) : (h.modMg f).ds = h.ds := rfl
@[simp] theorem Hub.modMg_pw (h : Hub) (f : Mgmt → Mgmt) : (h.modMg f).pw = h.pw := rfl
@[simp] theorem Hub.modMg_ky (h : Hub) (f : Mgmt → Mgmt) : (h.modMg f).ky = h.ky := rfl
@[simp] theorem Hub.modMg_su (h : Hub) (f : Mgmt → Mgmt) : (h.modMg f).su = h.su := rfl
@[simp] theorem Hub.modMg_inbox (h : Hub) (f : Mgmt → Mgmt) : (h.modMg f).inbox = h.inbox := rfl
@[simp] theorem Hub.modMg_outbox (h : Hub) (f : Mgmt → Mgmt) : (h.modMg f).outbox = h.outbox := rfl
@[simp] theorem Hub.modMg_free (h : Hub) (f : Mgmt → Mgmt) : (h.modMg f).free = h.free := rfl

end Sys2Proof.Machine
end

