-- ==== Sys2Proof/Laws/Params.lean ====
section
/-!
SUPPORT. What a parameter write does: reading a parameter after it, and a commit of one value whose block waits for nothing.
-/
namespace Sys2Proof.Machine

/-- Another parameter instance reads as before. -/
theorem Hub.pget_pset_other (h : Hub) (pid inst v pid' inst' : Nat) (hk : pkey pid' inst' ≠ pkey pid inst) :
    (h.pset pid inst v).pget pid' inst' = h.pget pid' inst' := by
  simp [Hub.pget, mget_mset_other _ _ _ _ hk]

/-- A written parameter instance reads as the value, modulo 64 bits, in a map of rising keys. -/
theorem Hub.pget_pset_same (h : Hub) (pid inst v : Nat) (hr : mrising h.params = true) :
    (h.pset pid inst v).pget pid inst = v % 2 ^ 64 := by
  simp [Hub.pget, mget_mset_same _ _ _ _ hr]

/-- A write keeps the parameters' keys rising. -/
theorem Hub.pset_rising (h : Hub) (pid inst v : Nat) (hr : mrising h.params = true) : mrising (h.pset pid inst v).params = true := by
  simp only [Hub.pset_params, mset]
  split
  · exact mrising_merase hr
  · exact mrising_minsert hr

/-- A well-formed value of a row without a mailbox is one commit. -/
theorem Hub.takeEffect_one (h : Hub) (i : ParamItem) (hf : formOf i = .ok i) : h.takeEffect [i] = h.applyChange ⟨[i], [], []⟩ := by
  simp [Hub.takeEffect, hf]

/-- A field whose commit does nothing but store the value and have the field's own effect: it waits for no allotment cycle boundary (R60),
alters nothing that the fuse channels count with, and is no change of the guard's rules (R405). -/
def actsAlone (pid : Nat) : Bool :=
  !atCycle pid && !Change.fuses ⟨[⟨pid, 0, 0⟩], [], []⟩ && pid != P.AG_TAG_FILL

/-- A commit of one such parameter: the value is stored, then it has its effect (R60). -/
theorem Hub.applyChange_one (h : Hub) (i : ParamItem) (ha : actsAlone i.pid = true) :
    h.applyChange ⟨[i], [], []⟩ = Hub.paramHook h (h.stored i.pid i.inst i.value) i := by
  simp only [actsAlone, Change.fuses, List.any_cons, List.any_nil, Bool.or_false, Bool.and_eq_true, Bool.not_eq_true', bne_iff_ne] at ha
  simp only [Hub.applyChange, Change.atCycle, Change.fuses, Change.guards, Hub.paramHooks, ha, Hub.overlay, Hub.stored, List.any_cons,
    List.any_nil, Bool.or_false, Bool.false_and, Bool.false_eq_true, if_false, List.foldl_cons, List.foldl_nil, beq_eq_false_iff_ne.mpr ha.2]

/-- A fill of page colours alone: one commit of the guard's rules, from the base in force (R398, R405). -/
theorem Hub.applyChange_fill (h : Hub) (v : Nat) :
    h.applyChange ⟨[⟨P.AG_TAG_FILL, 0, v⟩], [], []⟩ =
      ((h.stored P.AG_TAG_FILL 0 v).startFill (h.pget P.AG_TAG_BASE 0) (bits v 32 32) (bits v 0 8)).guardCommit := by
  have k1 : Change.atCycle ⟨[⟨P.AG_TAG_FILL, 0, v⟩], [], []⟩ = false := by
    have e : atCycle P.AG_TAG_FILL = false := by decide
    simp only [Change.atCycle, List.any_cons, List.any_nil, e, Bool.or_false]
  have k2 : Change.fuses ⟨[⟨P.AG_TAG_FILL, 0, v⟩], [], []⟩ = false := rfl
  have k3 : Change.guards ⟨[⟨P.AG_TAG_FILL, 0, v⟩], [], []⟩ = true := rfl
  simp only [Hub.applyChange, k1, k2, k3, Hub.paramHooks, Hub.overlay, Hub.stored, List.any_cons, List.any_nil, Bool.or_false,
    Bool.false_and, Bool.false_eq_true, if_false, if_true, List.foldl_cons, List.foldl_nil]

/-- A single acceptable write of a field of no pair, by a mailbox: one commit of the value (R50). -/
theorem Hub.writeParam_one (h : Hub) (mb pid inst v x : Nat) (hf : formOf ⟨pid, inst, v⟩ = .ok ⟨pid, inst, x⟩) (h1 : mateOf pid 1 = none)
    (h2 : mateOf pid 2 = none) (ho : h.ownRefusal (h.overlay [⟨pid, inst, x⟩] []) mb pid inst x = none)
    (hc : h.conflictsOutside mb pid inst = false) : h.writeParam mb pid inst v = h.applyChange ⟨[⟨pid, inst, x⟩], [], []⟩ := by
  have ep : h.planItem mb ⟨h.ctl.pairs, [], []⟩ ⟨pid, inst, x⟩ = ⟨h.ctl.pairs, [⟨pid, inst, x⟩], [0]⟩ := by
    simp only [Hub.planItem, h1, h2, List.nil_append]
  have es : h.setOutcomes mb [⟨pid, inst, v⟩] = ([.ok], ⟨h.ctl.pairs, [⟨pid, inst, x⟩], [0]⟩) := by
    simp [Hub.setOutcomes, hf, Hub.planAll, ep, Hub.itemOutcome, ho, hc, h2, firstOf, when_]
  unfold Hub.writeParam Hub.writeParams
  simp only [es]
  rfl

/-- The same, of a field whose block acts alone: the value is stored, then it has its effect. -/
theorem Hub.writeParam_eq (h : Hub) (mb pid inst v x : Nat) (hf : formOf ⟨pid, inst, v⟩ = .ok ⟨pid, inst, x⟩) (h1 : mateOf pid 1 = none)
    (h2 : mateOf pid 2 = none) (ha : actsAlone pid = true) (ho : h.ownRefusal (h.overlay [⟨pid, inst, x⟩] []) mb pid inst x = none)
    (hc : h.conflictsOutside mb pid inst = false) : h.writeParam mb pid inst v = Hub.paramHook h (h.stored pid inst x) ⟨pid, inst, x⟩ := by
  rw [Hub.writeParam_one h mb pid inst v x hf h1 h2 ho hc, Hub.applyChange_one h ⟨pid, inst, x⟩ ha]

/-- A single refused write of a field of no pair leaves the hub as it is. -/
theorem Hub.writeParam_refused (h : Hub) (mb pid inst v x : Nat) (st : Status) (hf : formOf ⟨pid, inst, v⟩ = .ok ⟨pid, inst, x⟩)
    (h1 : mateOf pid 1 = none) (h2 : mateOf pid 2 = none) (ho : h.ownRefusal (h.overlay [⟨pid, inst, x⟩] []) mb pid inst x = some st)
    (hs : st ≠ .ok) : h.writeParam mb pid inst v = h := by
  have ep : h.planItem mb ⟨h.ctl.pairs, [], []⟩ ⟨pid, inst, x⟩ = ⟨h.ctl.pairs, [⟨pid, inst, x⟩], [0]⟩ := by
    simp only [Hub.planItem, h1, h2, List.nil_append]
  have es : h.setOutcomes mb [⟨pid, inst, v⟩] = ([st], ⟨h.ctl.pairs, [⟨pid, inst, x⟩], [0]⟩) := by
    simp [Hub.setOutcomes, hf, Hub.planAll, ep, Hub.itemOutcome, ho, firstOf]
  have ea : [st].all (fun s => s == .ok) = false := by simp [hs]
  unfold Hub.writeParam Hub.writeParams
  simp only [es, ea, Bool.false_eq_true, if_false]

/-- A write of the closing field of a pair that no first field is open for: it is checked with the first field's value in force (R52). -/
theorem Hub.writeParam_close (h : Hub) (mb pid inst v x f : Nat) (hf : formOf ⟨pid, inst, v⟩ = .ok ⟨pid, inst, x⟩) (h1 : mateOf pid 1 = none)
    (h2 : mateOf pid 2 = some f)
    (hn : h.ctl.pairs.find? (fun o => o.pid == f && o.inst == inst && o.mb == mb) = none)
    (ho : h.ownRefusal (h.overlay [⟨pid, inst, x⟩] []) mb pid inst x = none) (hc : h.conflictsOutside mb pid inst = false)
    (hp : h.pairRefusal (h.overlay [⟨pid, inst, x⟩] []) pid inst (h.pget f inst) x = none) :
    h.writeParam mb pid inst v = h.applyChange ⟨[⟨pid, inst, x⟩], [], []⟩ := by
  have ep : h.planItem mb ⟨h.ctl.pairs, [], []⟩ ⟨pid, inst, x⟩ = ⟨h.ctl.pairs, [⟨pid, inst, x⟩], [h.pget f inst]⟩ := by
    simp only [Hub.planItem, h1, h2, hn, Hub.planValue, List.reverse_nil, List.find?_nil, List.nil_append]
  have es : h.setOutcomes mb [⟨pid, inst, v⟩] = ([.ok], ⟨h.ctl.pairs, [⟨pid, inst, x⟩], [h.pget f inst]⟩) := by
    simp [Hub.setOutcomes, hf, Hub.planAll, ep, Hub.itemOutcome, ho, hc, h2, hp, firstOf, when_]
  unfold Hub.writeParam Hub.writeParams
  simp only [es]
  rfl

/-- A refused write of the closing field of a pair that no first field is open for leaves the hub as it is. -/
theorem Hub.writeParam_refused_close (h : Hub) (mb pid inst v x f : Nat) (st : Status) (hf : formOf ⟨pid, inst, v⟩ = .ok ⟨pid, inst, x⟩)
    (h1 : mateOf pid 1 = none) (h2 : mateOf pid 2 = some f)
    (hn : h.ctl.pairs.find? (fun o => o.pid == f && o.inst == inst && o.mb == mb) = none)
    (ho : h.ownRefusal (h.overlay [⟨pid, inst, x⟩] []) mb pid inst x = some st) (hs : st ≠ .ok) : h.writeParam mb pid inst v = h := by
  have ep : h.planItem mb ⟨h.ctl.pairs, [], []⟩ ⟨pid, inst, x⟩ = ⟨h.ctl.pairs, [⟨pid, inst, x⟩], [h.pget f inst]⟩ := by
    simp only [Hub.planItem, h1, h2, hn, Hub.planValue, List.reverse_nil, List.find?_nil, List.nil_append]
  have es : h.setOutcomes mb [⟨pid, inst, v⟩] = ([st], ⟨h.ctl.pairs, [⟨pid, inst, x⟩], [h.pget f inst]⟩) := by
    simp [Hub.setOutcomes, hf, Hub.planAll, ep, Hub.itemOutcome, ho, firstOf]
  have ea : [st].all (fun s => s == .ok) = false := by simp [hs]
  unfold Hub.writeParam Hub.writeParams
  simp only [es, ea, Bool.false_eq_true, if_false]

/-- A write of the closing field of a pair whose first field the same mailbox has open: both apply as one commit (R52). -/
theorem Hub.writeParam_pair (h : Hub) (mb pid inst v x f : Nat) (o : OpenPair) (hf : formOf ⟨pid, inst, v⟩ = .ok ⟨pid, inst, x⟩)
    (h1 : mateOf pid 1 = none) (h2 : mateOf pid 2 = some f)
    (hn : h.ctl.pairs.find? (fun o => o.pid == f && o.inst == inst && o.mb == mb) = some o)
    (ho : h.ownRefusal (h.overlay [⟨f, inst, o.value⟩, ⟨pid, inst, x⟩] []) mb pid inst x = none) (hc : h.conflictsOutside mb pid inst = false)
    (hp : h.pairRefusal (h.overlay [⟨f, inst, o.value⟩, ⟨pid, inst, x⟩] []) pid inst o.value x = none) :
    h.writeParam mb pid inst v =
      ({ h with ctl := { h.ctl with pairs := h.ctl.pairs.filter (fun y => !(y.pid == f && y.inst == inst)) } } : Hub).applyChange
        ⟨[⟨f, inst, o.value⟩, ⟨pid, inst, x⟩], [], []⟩ := by
  have ep : h.planItem mb ⟨h.ctl.pairs, [], []⟩ ⟨pid, inst, x⟩ =
      ⟨h.ctl.pairs.filter (fun y => !(y.pid == f && y.inst == inst)), [⟨f, inst, o.value⟩, ⟨pid, inst, x⟩], [o.value]⟩ := by
    simp only [Hub.planItem, h1, h2, hn, List.nil_append]
  have es : h.setOutcomes mb [⟨pid, inst, v⟩] =
      ([.ok], ⟨h.ctl.pairs.filter (fun y => !(y.pid == f && y.inst == inst)), [⟨f, inst, o.value⟩, ⟨pid, inst, x⟩], [o.value]⟩) := by
    simp [Hub.setOutcomes, hf, Hub.planAll, ep, Hub.itemOutcome, ho, hc, h2, hp, firstOf, when_]
  unfold Hub.writeParam Hub.writeParams
  simp only [es]
  rfl

/-- A write-only parameter stores nothing. -/
theorem Hub.stored_wo (h : Hub) (pid inst v : Nat) (d : ParamDesc) (hd : descOf pid = some d) (hw : d.access = .wo) (hk : bit d.kept letterN = false) :
    h.stored pid inst v = h := by
  simp [Hub.stored, Hub.storeChanges, Hub.putParam, hd, hw, hk]

/-- A parameter that the configuration store does not hold takes its value. -/
theorem Hub.stored_plain (h : Hub) (pid inst v : Nat) (d : ParamDesc) (hd : descOf pid = some d) (hw : d.access ≠ .wo) (hk : bit d.kept letterN = false) :
    h.stored pid inst v = h.pset pid inst (storedForm pid v) := by
  simp [Hub.stored, Hub.storeChanges, Hub.putParam, hd, hw, hk]

/-- A value in the width of a parameter that takes any value is well formed. -/
theorem formOf_any (pid inst v : Nat) (d : ParamDesc) (hd : descOf pid = some d) (ha : d.access ≠ .ro ∧ d.access ≠ .rc)
    (hi : d.first ≤ inst ∧ inst < d.count) (hv : v < 2 ^ (8 * d.width)) (hp : pid ≠ P.PW_ISLAND_RESET) (hc : d.check = .any) :
    formOf ⟨pid, inst, v⟩ = .ok ⟨pid, inst, v⟩ := by
  simp [formOf, paramForm, hd, ha.1, ha.2, Nat.not_lt.mpr hi.1, Nat.not_le.mpr hi.2, ParamDesc.norm, hv, hp, ParamDesc.refuses, hc]

/-- A parameter whose row has no rule of its own is refused by none. -/
theorem Hub.ownRefusal_none (h v : Hub) (mb pid inst x : Nat)
    (hp : [P.SW_CREDIT_POOL, P.AL_GOV_T, P.AL_EPOCH_CANCEL, P.RL_TIME_STEP, P.RL_FREQ_ADJ, P.DE_BUCKET_ORDER, P.DE_GPIO_CFG, P.US_SOF_TRIM,
      P.FU_CURVE, P.FU_RAMP_LIMIT, P.DS_ROUTE, P.DS_CLONE, P.DS_H_SYNC, P.DS_V_SYNC, P.DS_LINK_MAX, P.DS_FREEZE_ACTION, P.DS_STARVE_ACTION,
      P.AG_TAG_FILL, P.KY_TAMPER_POLICY, P.KY_TAMPER_CLEAR, P.MG_MB_MASK, P.CT_PROFILE, P.CT_SAMPLE_ID].contains pid = false) :
    h.ownRefusal v mb pid inst x = none := by
  simp only [List.contains_cons, List.contains_nil, Bool.or_eq_false_iff, beq_eq_false_iff_ne, ne_eq] at hp
  obtain ⟨p1, p2, p3, p4, p5, p6, p7, p8, p9, p10, p11, p12, p13, p14, p15, p16, p17, p18, p19, p20, p21, p22, p23, -⟩ := hp
  unfold Hub.ownRefusal
  split
  · simp only [Hub.refusalA, p1, p2, p3, p4, p5, p6, p7, Bool.or_self, decide_false, Bool.false_eq_true, if_false]
  · split
    · simp only [Hub.refusalB, p8, p9, p10, p11, p12, p13, p14, p15, p16, p17, Bool.or_self, decide_false, Bool.false_eq_true, if_false]
    · simp only [Hub.refusalC, p18, p19, p20, p21, p22, p23, if_false]

/-- The rows' own rules that a write of a single parameter meets. -/
theorem Hub.ownRefusal_cancel (h v : Hub) (mb inst x : Nat) : h.ownRefusal v mb P.AL_EPOCH_CANCEL inst x = h.cancelRefusal x := by
  unfold Hub.ownRefusal Hub.refusalA
  rw [if_pos (by decide)]
  repeat rw [if_neg (by decide)]
  rw [if_pos (by decide)]

theorem Hub.ownRefusal_timeStep (h v : Hub) (mb inst x : Nat) :
    h.ownRefusal v mb P.RL_TIME_STEP inst x = when_ (!h.timeMaster) .denied := by
  unfold Hub.ownRefusal Hub.refusalA
  rw [if_pos (by decide)]
  repeat rw [if_neg (by decide)]
  rw [if_pos (by decide)]

theorem Hub.ownRefusal_route (h v : Hub) (mb inst x : Nat) :
    h.ownRefusal v mb P.DS_ROUTE inst x = when_ (v.routeRefused inst x) .badParam := by
  unfold Hub.ownRefusal Hub.refusalB
  rw [if_neg (by decide)]
  rw [if_pos (by decide)]
  repeat rw [if_neg (by decide)]
  rw [if_pos (by decide)]

theorem Hub.ownRefusal_tagFill (h v : Hub) (mb inst x : Nat) :
    h.ownRefusal v mb P.AG_TAG_FILL inst x = firstOf [when_ (!h.guardAdmin mb) .denied, when_ (decide (bits x 8 24 ≠ 0)) .badParam] := by
  unfold Hub.ownRefusal Hub.refusalC
  repeat rw [if_neg (by decide)]
  rw [if_pos (by decide)]

theorem Hub.ownRefusal_tamperClear (h v : Hub) (mb inst x : Nat) :
    h.ownRefusal v mb P.KY_TAMPER_CLEAR inst x = h.tamperClearRefusal mb x := by
  unfold Hub.ownRefusal Hub.refusalC
  repeat rw [if_neg (by decide)]
  rw [if_pos (by decide)]

/-- The rules of the pairs that a single write closes. -/
theorem Hub.pairRefusal_arm (h v : Hub) (inst a b : Nat) : h.pairRefusal v P.AL_EPOCH_ARM inst a b = h.epochRefusal a b := by
  unfold Hub.pairRefusal
  rw [if_neg (by decide)]
  rw [if_pos (by decide)]

theorem Hub.pairRefusal_tagFill (h v : Hub) (inst a b : Nat) :
    h.pairRefusal v P.AG_TAG_FILL inst a b = when_ (decide (bits b 32 32 = 0) || decide (1048576 < a + bits b 32 32)) .badParam := by
  unfold Hub.pairRefusal
  repeat rw [if_neg (by decide)]
  rw [if_pos (by decide)]

end Sys2Proof.Machine
end

