-- ==== Sys2Proof/Laws/Ports.lean ====
section
/-!
SUPPORT. Ports after an update of one of them.
-/
namespace Sys2Proof.Machine

/-- A port whose state is not that of a port after reset exists. -/
theorem Hub.lt_of_state (h : Hub) (p : Nat) (hs : (h.port p).state ≠ .disabled) : p < h.ports.length := by
  by_contra hp
  rw [Hub.port, nth_big _ _ _ (Nat.le_of_not_lt hp)] at hs
  exact absurd hs (by decide)

/-- A port that is UP exists. -/
theorem Hub.lt_of_portUp (h : Hub) (p : Nat) (hu : h.portUp p = true) : p < h.ports.length := by
  by_contra hp
  rw [Hub.portUp, Hub.port, nth_big _ _ _ (Nat.le_of_not_lt hp)] at hu
  exact absurd hu (by decide)

theorem Hub.port_modPort_same (h : Hub) (p : Nat) (f : Port → Port) (hp : p < h.ports.length) : (h.modPort p f).port p = f (h.port p) := by
  simp [Hub.port, nth_modAt_same _ _ _ _ hp]

theorem Hub.port_modPort_other (h : Hub) {p q : Nat} (f : Port → Port) (hq : q ≠ p) : (h.modPort p f).port q = h.port q := by
  simp [Hub.port, nth_modAt_other _ _ _ hq]

/-- Two changes of one port, as one. -/
theorem Hub.modPort_modPort (h : Hub) (p : Nat) (f g : Port → Port) : (h.modPort p f).modPort p g = h.modPort p (fun q => g (f q)) := by
  simp [Hub.modPort]

theorem Hub.modPort_big (h : Hub) (p : Nat) (f : Port → Port) (hp : h.ports.length ≤ p) : h.modPort p f = h := by
  simp [Hub.modPort, modAt_big _ _ _ hp]

/-- What a change of a port leaves its state as, when the change itself leaves the state. -/
theorem Hub.portUp_modPort (h : Hub) (p q : Nat) (f : Port → Port) (hf : ∀ x, (f x).state = x.state) : (h.modPort p f).portUp q = h.portUp q := by
  by_cases hp : p < h.ports.length
  · by_cases hq : q = p
    · subst hq
      simp [Hub.portUp, Hub.port_modPort_same h q f hp, hf]
    · simp [Hub.portUp, Hub.port_modPort_other h f hq]
  · rw [Hub.modPort_big h p f (Nat.le_of_not_lt hp)]

/-- Blocks, flits and side frames leave every port's state as it is (R81, R95). -/
theorem Hub.sendBlock_portUp (h : Hub) (p : Nat) (fs : List Flit) (q : Nat) : (h.sendBlock p fs).portUp q = h.portUp q := by
  simp only [Hub.sendBlock]
  split <;> exact Hub.portUp_modPort _ _ _ _ (fun _ => rfl)

theorem Hub.cutBlocks_portUp (n p : Nat) (h : Hub) (q : Nat) : (Hub.cutBlocks n p h).portUp q = h.portUp q := by
  induction n generalizing h with
  | zero => rfl
  | succ n ih =>
    simp only [Hub.cutBlocks]
    split
    · rfl
    · rw [ih, Hub.sendBlock_portUp]; exact Hub.portUp_modPort _ _ _ _ (fun _ => rfl)

theorem Hub.putFlits_portUp (h : Hub) (p : Nat) (fs : List Flit) (q : Nat) : (h.putFlits p fs).portUp q = h.portUp q :=
  (Hub.cutBlocks_portUp _ _ _ _).trans (Hub.portUp_modPort _ _ _ _ (fun _ => rfl))

theorem Hub.idleBlock_portUp (h : Hub) (p q : Nat) : (h.idleBlock p).portUp q = h.portUp q := by
  unfold Hub.idleBlock
  split
  · exact Hub.sendBlock_portUp _ _ _ _
  · split
    · exact Hub.sendBlock_portUp _ _ _ _
    · exact Hub.putFlits_portUp _ _ _ _

theorem Hub.flushSides_portUp (h : Hub) (p q : Nat) : (h.flushSides p).portUp q = h.portUp q := by
  have k : ∀ n (h : Hub), (Hub.flushSide n p h).portUp q = h.portUp q := by
    intro n
    induction n with
    | zero => intro h; rfl
    | succ n ih =>
      intro h
      simp only [Hub.flushSide]
      split
      · rfl
      · exact (ih _).trans (Hub.idleBlock_portUp _ _ _)
  exact k _ h

theorem Hub.sendSide_portUp (h : Hub) (p t : Nat) (f : List Byte) (q : Nat) : (h.sendSide p t f).portUp q = h.portUp q := by
  simp only [Hub.sendSide]
  split
  · rfl
  · have e : ∀ g : Hub, (∃ x : Port → Port, (∀ y, (x y).state = y.state) ∧ g = (h.out (Output.side p t f)).modPort p x) → g.portUp q = h.portUp q := by
      rintro g ⟨x, hx, rfl⟩
      exact Hub.portUp_modPort _ _ _ _ hx
    let x : Port → Port := fun q => { q with tx := { q.tx with queue := q.tx.queue ++ [sideFrame t f] } }
    split
    · exact e _ ⟨x, fun _ => rfl, rfl⟩
    · rw [Hub.flushSides_portUp]; exact e _ ⟨x, fun _ => rfl, rfl⟩

theorem Hub.sendStatuses_portUp (h : Hub) (p : Nat) (r : Bool) (n q : Nat) : (h.sendStatuses p r n).portUp q = h.portUp q := by
  rw [Hub.sendStatuses, Hub.flushSides_portUp]
  induction n with
  | zero => rfl
  | succ n ih => rw [List.range_succ, List.foldl_append]; exact (Hub.sendSide_portUp _ _ _ _ _).trans ih

/-- A lane's receiver replaced leaves the partner's RESTING mark. -/
theorem PortRx.setLane_resting (r : PortRx) (lane : Nat) (l : LaneRx) : (r.setLane lane l).resting = r.resting := by
  unfold PortRx.setLane; split <;> rfl

/-- The receiver of a lane just replaced. -/
theorem PortRx.lane_setLane (r : PortRx) (lane : Nat) (l : LaneRx) : (r.setLane lane l).lane lane = l := by
  unfold PortRx.setLane PortRx.lane; split <;> simp_all

/-- What a run of codewords does to a lane (R80): the lane judged, then its lock gained or lost by the criteria. -/
theorem Hub.laneSaw_eq (h : Hub) (p lane : Nat) (seen : List Seen) (hp : p < h.ports.length) :
    h.laneSaw p lane seen =
      let l := seen.foldl (fun l w => l.judge (h.port p).rxShort (h.locked p lane) w.lead w.bad) ((h.port p).rx.lane lane)
      let g := h.modRx p (fun r => r.setLane lane l)
      if h.locked p lane then (if l.loses (h.port p).rxShort then g.lockLost p lane else g)
      else if l.gains (h.port p).rxShort then g.lockGained p lane else g := by
  simp only [Hub.laneSaw, Hub.relockLane]
  have e : ∀ l, (h.modRx p (fun r => r.setLane lane l)).port p = { h.port p with rx := (h.port p).rx.setLane lane l } := fun l => by
    simp [Hub.modRx, Hub.port_modPort_same _ _ _ hp]
  have k : ∀ l, (h.modRx p (fun r => r.setLane lane l)).locked p lane = h.locked p lane := fun l => by simp [Hub.locked, e]
  simp only [e, k, PortRx.lane_setLane]
  rfl

/-- A side frame changes nothing of the port but its transmitter (R81). -/
theorem Hub.sendSide_port (h : Hub) (p t : Nat) (f : List Byte) (hp : p < h.ports.length) :
    ∃ x, (h.sendSide p t f).port p = { h.port p with tx := x } := by
  have kb : ∀ (g : Hub) (fs : List Flit), p < g.ports.length →
      ∃ x, (g.sendBlock p fs).port p = { g.port p with tx := x } ∧ p < (g.sendBlock p fs).ports.length := by
    intro g fs hg
    simp only [Hub.sendBlock]
    split <;> exact ⟨_, Hub.port_modPort_same _ _ _ hg, by simpa using hg⟩
  have kf : ∀ (n : Nat) (g : Hub), p < g.ports.length → g.portUp p = false →
      ∃ x, (Hub.flushSide n p g).port p = { g.port p with tx := x } := by
    intro n
    induction n with
    | zero => intro g _ _; exact ⟨_, rfl⟩
    | succ n ih =>
      intro g hg hgu
      simp only [Hub.flushSide]
      split
      · exact ⟨_, rfl⟩
      · have e : g.idleBlock p = g.sendBlock p (List.replicate 8 .idle) := by simp [Hub.idleBlock, hgu]
        obtain ⟨x, hx, hl⟩ := kb g (List.replicate 8 .idle) hg
        obtain ⟨y, hy⟩ := ih (g.idleBlock p) (by rw [e]; exact hl) (by rw [Hub.idleBlock_portUp]; exact hgu)
        exact ⟨y, by rw [hy, e, hx]⟩
  simp only [Hub.sendSide]
  split
  · exact ⟨_, rfl⟩
  · have e := Hub.port_modPort_same (h.out (.side p t f)) p (fun q => { q with tx := { q.tx with queue := q.tx.queue ++ [sideFrame t f] } }) hp
    split
    · exact ⟨_, e⟩
    · rename_i hn
      obtain ⟨y, hy⟩ := kf _ ((h.out (.side p t f)).modPort p (fun q => { q with tx := { q.tx with queue := q.tx.queue ++ [sideFrame t f] } }))
        (by simpa using hp) (Bool.eq_false_iff.mpr hn)
      exact ⟨y, by rw [Hub.flushSides, hy, e]; rfl⟩

/-- So does a TRAIN frame. -/
theorem Hub.sendTrain_port (h : Hub) (p : Nat) (hp : p < h.ports.length) :
    ∃ x, (h.sendTrain p).port p = { h.port p with tx := x } := Hub.sendSide_port _ _ _ _ hp

/-- What arrives is routed alike by two ways of routing that agree on the hub that holds it. -/
theorem Hub.arriving_congr (h : Hub) (inp : Nat) (c : Cell) (f g : Hub → Hub) (e : ∀ a, f { h with sw := a } = g { h with sw := a }) :
    h.arriving inp c f = h.arriving inp c g := by simp only [Hub.arriving, e]

/-- A cell of a pool that takes no place in a queue: its space is free at once (R156). -/
theorem Hub.arriving_refused (h : Hub) (p : Nat) (c : Cell) (f : Hub → Hub) (hi : (h.island 3).inReset = false) (hp : p < 3)
    (hc : 2 ≤ c.cls) (hr : h.holdsRef p h.sw.nextRef = false)
    (k : ∀ a, f { h with sw := a } = { f h with sw := a }) :
    h.arriving p c f = (f { h with sw := { h.sw with nextRef := h.sw.nextRef + 1, arrival := none } }).creditFree p c.cls (cellFlits c) := by
  simp only [Hub.holdsRef] at hr
  unfold Hub.arriving
  have k1 := k { h.sw with nextRef := h.sw.nextRef + 1, arrival := some ⟨h.sw.nextRef, none⟩ }
  have k2 := k { h.sw with nextRef := h.sw.nextRef + 1, arrival := none }
  dsimp only at k1 k2 ⊢
  rw [k1, k2]
  simp [Hub.freed, Hub.holdsRef, hi, hp, hc, hr]

end Sys2Proof.Machine
end

