-- ==== Sys2Proof/Laws/Requests.lean ====
section
/-!
SUPPORT. Fields of byte strings, memory read back after a write, and the one law of mailbox requests: a request that is served at once leaves
what its command's meaning leaves, answered.
-/
namespace Sys2Proof.Machine

@[simp] theorem length_leBytes (n v : Nat) : (leBytes n v).length = n := by
  induction n generalizing v with
  | zero => rfl
  | succ n ih => simp [leBytes, ih]

/-- n bytes of a number stand for it, modulo 2^(8n). -/
theorem leNat_leBytes (n v : Nat) : leNat (leBytes n v) = v % 256 ^ n := by
  induction n generalizing v with
  | zero => simp [leBytes, leNat, Nat.mod_one]
  | succ n ih =>
    have e : (byte v).toNat = v % 256 := by simp [byte]
    rw [leBytes, leNat, ih, e, pow_succ', Nat.mod_mul]

/-- A field that stands between two other parts of a string. -/
theorem le_at (pre mid post : List Byte) (o n : Nat) (ho : pre.length = o) (hn : mid.length = n) : le (pre ++ (mid ++ post)) o n = leNat mid := by
  subst ho hn
  simp [le, slice]

/-- A field of a string that n bytes of a number stand in. -/
theorem le_field (pre post : List Byte) (o n v : Nat) (ho : pre.length = o) (hv : v < 256 ^ n) : le (pre ++ (leBytes n v ++ post)) o n = v := by
  rw [le_at _ _ _ _ _ ho (length_leBytes n v), leNat_leBytes, Nat.mod_eq_of_lt hv]

theorem drop_modAt_before {β : Type} (l : List β) (o k : Nat) (f : β → β) (h : k ≤ o) : (modAt l o f).drop k = modAt (l.drop k) (o - k) f := by
  induction l generalizing o k with
  | nil => simp [modAt]
  | cons x l ih =>
    cases k with
    | zero => simp
    | succ k =>
      cases o with
      | zero => omega
      | succ o => simpa [modAt] using ih o k (by omega)

theorem drop_modAt_after {β : Type} (l : List β) (o k : Nat) (f : β → β) (h : o < k) : (modAt l o f).drop k = l.drop k := by
  induction l generalizing o k with
  | nil => simp [modAt]
  | cons x l ih =>
    cases k with
    | zero => omega
    | succ k =>
      cases o with
      | zero => simp [modAt]
      | succ o => simpa [modAt] using ih o k (by omega)

theorem take_modAt {β : Type} (l : List β) (o n : Nat) (f : β → β) (h : n ≤ o) : (modAt l o f).take n = l.take n := by
  induction l generalizing o n with
  | nil => simp [modAt]
  | cons x l ih =>
    cases n with
    | zero => simp
    | succ n =>
      cases o with
      | zero => omega
      | succ o => simpa [modAt] using ih o n (by omega)

/-- A row's fixed payload byte leaves the length of the payload. -/
@[simp] theorem length_force (q : Req) (o v : Nat) : (force q o v).payload.length = q.payload.length := by simp [force]

/-- A row's fixed payload byte, read. -/
theorem le_force_same (q : Req) (o v : Nat) (h : o < q.payload.length) : le (force q o v).payload o 1 = v % 256 := by
  have e : ∀ (l : List Byte) (o : Nat), o < l.length → ((modAt l o (fun _ => byte v)).drop o).take 1 = [byte v] := by
    intro l
    induction l with
    | nil => intro o h; simp at h
    | cons x l ih =>
      intro o h
      cases o with
      | zero => simp [modAt]
      | succ o => simpa [modAt] using ih o (by simpa using h)
  simp only [le, slice, force, e q.payload o h]
  simp [leNat, byte]

/-- Another field of the payload beside a row's fixed byte. -/
theorem le_force_other (q : Req) (o v k n : Nat) (h : k + n ≤ o ∨ o < k) : le (force q o v).payload k n = le q.payload k n := by
  have e : ((force q o v).payload.drop k).take n = (q.payload.drop k).take n := by
    rcases h with h | h
    · simp only [force, drop_modAt_before _ _ _ _ (show k ≤ o by omega)]
      exact take_modAt _ _ _ _ (by omega)
    · simp only [force, drop_modAt_after _ _ _ _ h]
  simp only [le, slice, e]

/-- A field of one byte. -/
theorem le_one (b : List Byte) (i : Nat) : le b i 1 = byteAt b i := by
  simp only [le, slice, byteAt]
  cases b.drop i with
  | nil => rfl
  | cons x l => simp [leNat]

/-- A row's fixed payload byte, as a byte. -/
theorem byteAt_force (q : Req) (o v : Nat) (h : o < q.payload.length) : byteAt (force q o v).payload o = v % 256 := by
  rw [← le_force_same q o v h]
  exact (le_one _ _).symm

/-- Any other payload byte. -/
theorem byteAt_force_other (q : Req) (o v k : Nat) (h : k < o ∨ o < k) : byteAt (force q o v).payload k = byteAt q.payload k := by
  have e := le_force_other q o v k 1 (by omega)
  rwa [le_one, le_one] at e

/-- A byte below the written ones reads as before. -/
theorem readByte_writeMem_before (m : List Host.Cell) (a : Nat) (bs : List Byte) (x : Nat) (hx : x < a) : readByte (writeMem m a bs) x = readByte m x := by
  induction bs generalizing m a with
  | nil => rfl
  | cons b bs ih => rw [writeMem, ih _ _ (by omega), readByte_writeByte_other _ _ (by omega)]

/-- A byte outside the written ones reads as before. -/
theorem readByte_writeMem_outside (m : List Host.Cell) (a : Nat) (bs : List Byte) (x : Nat) (hx : x < a ∨ a + bs.length ≤ x) :
    readByte (writeMem m a bs) x = readByte m x := by
  induction bs generalizing m a with
  | nil => rfl
  | cons b bs ih =>
    simp only [List.length_cons] at hx
    rw [writeMem, ih _ _ (by omega), readByte_writeByte_other _ _ (by omega)]

/-- A written byte reads as written, in a memory of canonical form. -/
theorem readByte_writeMem_inside (m : List Host.Cell) (a : Nat) (bs : List Byte) (i : Nat) (hw : Memory.wf m = true) (hi : i < bs.length) :
    readByte (writeMem m a bs) (a + i) = bs[i] := by
  induction bs generalizing m a i with
  | nil => simp at hi
  | cons b bs ih =>
    cases i with
    | zero =>
      rw [writeMem, readByte_writeMem_before _ _ _ _ (by omega)]
      exact readByte_writeByte_same m a b hw
    | succ i =>
      have := ih (writeByte m a b) (a + 1) i (writeByte_wf m a b hw) (by simpa using hi)
      rw [writeMem, show a + (i + 1) = a + 1 + i by omega, this]
      rfl

@[simp] theorem length_readMem (m : List Host.Cell) (a n : Nat) : (readMem m a n).length = n := by simp [readMem]

/-- What stands at the written address: the written bytes, then what stood behind them. -/
theorem readMem_writeMem (m : List Host.Cell) (a n : Nat) (bs : List Byte) (hw : Memory.wf m = true) (hn : bs.length ≤ n) :
    readMem (writeMem m a bs) a n = bs ++ readMem m (a + bs.length) (n - bs.length) := by
  apply List.ext_getElem
  · simp; omega
  · intro i h1 h2
    rw [List.getElem_append]
    simp only [readMem, List.getElem_map, List.getElem_range]
    split
    · rename_i h; exact readByte_writeMem_inside m a bs i hw h
    · rename_i h
      rw [readByte_writeMem_outside _ _ _ _ (by omega)]
      congr 1
      omega

/-! ## Requests -/

theorem Hub.mb_modMb_same (h : Hub) (m : Nat) (f : Mailbox → Mailbox) (hm : m < h.ctl.mbs.length) : (h.modMb m f).mb m = f (h.mb m) :=
  nth_modAt_same _ _ _ _ hm

/-- What a change of a mailbox leaves of whether it is served, when the change leaves RING_EN and the held response. -/
theorem Hub.mbServed_modMb (h : Hub) (m : Nat) (f : Mailbox → Mailbox) (hm : m < h.ctl.mbs.length)
    (he : (f (h.mb m)).ringEn = (h.mb m).ringEn) (hh : (f (h.mb m)).held = (h.mb m).held) : (h.modMb m f).mbServed m = h.mbServed m := by
  unfold Hub.mbServed
  rw [Hub.mb_modMb_same h m f hm, he, hh]
  rfl

theorem reqBytes_length (q : Req) (code : Nat) : (reqBytes q code).length = 16 + q.payload.length := by
  simp [reqBytes]; omega

/-- The header fields and the payload of a request that stands at the front of a string. -/
theorem reqBytes_fields (q : Req) (code : Nat) (post : List Byte) (hc : code < 65536) (hs : q.seq < 65536) (ht : q.txn < 2 ^ 32)
    (hf : q.flags < 65536) (hl : q.length = q.payload.length) (hb : q.length < 65536) :
    le (reqBytes q code ++ post) 0 2 = code ∧ le (reqBytes q code ++ post) 2 2 = q.seq ∧ le (reqBytes q code ++ post) 4 2 = q.length ∧
    le (reqBytes q code ++ post) 6 2 = q.flags ∧ le (reqBytes q code ++ post) 8 4 = q.txn ∧
    ((reqBytes q code ++ post).drop 16).take q.length = q.payload := by
  refine ⟨?_, ?_, ?_, ?_, ?_, ?_⟩
  · have := le_field [] (leBytes 2 q.seq ++ leBytes 2 q.length ++ leBytes 2 q.flags ++ leBytes 4 q.txn ++ leBytes 4 q.status ++ q.payload ++ post)
      0 2 code rfl (by simpa using hc)
    simpa [reqBytes] using this
  · have := le_field (leBytes 2 code) (leBytes 2 q.length ++ leBytes 2 q.flags ++ leBytes 4 q.txn ++ leBytes 4 q.status ++ q.payload ++ post)
      2 2 q.seq (by simp) (by simpa using hs)
    simpa [reqBytes] using this
  · have := le_field (leBytes 2 code ++ leBytes 2 q.seq) (leBytes 2 q.flags ++ leBytes 4 q.txn ++ leBytes 4 q.status ++ q.payload ++ post)
      4 2 q.length (by simp) (by simpa using hb)
    simpa [reqBytes] using this
  · have := le_field (leBytes 2 code ++ leBytes 2 q.seq ++ leBytes 2 q.length) (leBytes 4 q.txn ++ leBytes 4 q.status ++ q.payload ++ post)
      6 2 q.flags (by simp) (by simpa using hf)
    simpa [reqBytes] using this
  · have := le_field (leBytes 2 code ++ leBytes 2 q.seq ++ leBytes 2 q.length ++ leBytes 2 q.flags) (leBytes 4 q.status ++ q.payload ++ post)
      8 4 q.txn (by simp) (by simpa using ht)
    simpa [reqBytes] using this
  · have e : reqBytes q code ++ post =
        (leBytes 2 code ++ leBytes 2 q.seq ++ leBytes 2 q.length ++ leBytes 2 q.flags ++ leBytes 4 q.txn ++ leBytes 4 q.status) ++ (q.payload ++ post) := by
      simp [reqBytes]
    rw [e, List.drop_left' (by simp), hl, List.take_left' rfl]

/-- A request that a mailbox holds alone, its header as R39 says, is answered by its meaning. -/
theorem Hub.answer_eq (h : Hub) (q : Req) (code : Nat) (post : List Byte) (entry : Nat) (body : Hub → Request → Hub × Reply)
    (hc : code < 65536) (hs : q.seq < 65536) (ht : q.txn < 2 ^ 32) (hf : q.flags < 16) (h0 : bit q.flags 0 = false) (h1 : bit q.flags 1 = false)
    (hl : q.length = q.payload.length) (hb : q.length ≤ 4080) (hp : q.mb = 1 ∨ q.mb = 2 ∨ post = [])
    (hr : h.isRepeat q.mb q.seq = false) (hrom : h.mg.romHold = false ∨ romServes code = true) (hhold : h.ky.hold = false ∨ holdServes code = true)
    (hx : q.txn = 0 ∨ knownCode code = false ∨ takesTxn code = true) :
    h.answer q.mb (reqBytes q code ++ post) entry body =
      let g := h.modMb q.mb (fun b => { b with lastSeq := some q.seq, lastAt := h.clk.up, stored := [] })
      let r : Request := ⟨q.mb, code, q.seq, q.txn, q.payload, entry⟩
      Hub.sendReply g (body (g.touchTxn r) r).1 r (body (g.touchTxn r) r).2 := by
  obtain ⟨f0, f1, f2, f3, f4, f5⟩ := reqBytes_fields q code post hc hs ht (by omega) hl (by omega)
  have hbad : headerBad q.mb (reqBytes q code ++ post) = false := by
    unfold headerBad
    simp only [f3, f2, h0, h1, reqBytes_length, List.length_append]
    have e1 : decide (16 ≤ q.flags) = false := by simp; omega
    have e2 : decide (4080 < q.length) = false := by simp; omega
    have e3 : (!(q.mb == 1 || q.mb == 2) && 16 + q.payload.length + post.length != 16 + q.length) = false := by
      rcases hp with hp | hp | hp
      · simp [hp]
      · simp [hp]
      · simp [hp, hl]
    rw [e1, e2, e3]
    rfl
  unfold Hub.answer
  simp only [f0, f1, f2, f4, f5, hr, hbad]
  have hm : ((h.modMb q.mb (fun b => { b with lastSeq := some q.seq, lastAt := h.clk.up })).modMb q.mb (fun b => { b with stored := [] })) =
      h.modMb q.mb (fun b => { b with lastSeq := some q.seq, lastAt := h.clk.up, stored := [] }) := by
    simp [Hub.modMb]
  simp only [Bool.false_eq_true, if_false, hm]
  unfold Hub.execute
  have k1 : (decide ((h.modMb q.mb (fun b => { b with lastSeq := some q.seq, lastAt := h.clk.up, stored := [] })).mg.romHold = true) &&
      !romServes code) = false := by
    rcases hrom with e | e
    · simp [e]
    · simp [e]
  rcases hrom with e1 | e1 <;> rcases hhold with e2 | e2 <;> rcases hx with e3 | e3 | e3 <;> simp [e1, e2, e3]

/-- Where a slot lies depends on the ring's base and order alone. -/
theorem slotAt_of_mb (h g : Hub) (m i : Nat) (hb : (h.mb m).base = (g.mb m).base) (ho : (h.mb m).ringOrder = (g.mb m).ringOrder) :
    h.slotAt m i = g.slotAt m i := by
  unfold Hub.slotAt Hub.ringSize
  rw [ho]
  split
  · rename_i e; rw [← e, hb]
  · rfl

/-- A request served at once leaves what its command's meaning leaves, answered. -/
theorem Hub.request_eq (h : Hub) (q : Req) (code : Nat) (body : Hub → Request → Hub × Reply) (ha : h.asks q code = true) :
    h.request code q body =
      h.answered q code (body ((h.asked q code).touchTxn (reqOn q code)) (reqOn q code)).1
        (body ((h.asked q code).touchTxn (reqOn q code)) (reqOn q code)).2 := by
  unfold Hub.asks at ha
  simp only [Bool.and_eq_true, beq_iff_eq, decide_eq_true_eq, Bool.or_eq_true, Bool.not_eq_true'] at ha
  obtain ⟨⟨⟨⟨⟨⟨⟨⟨⟨⟨⟨⟨⟨⟨⟨⟨⟨⟨hlen, hm⟩, hserved⟩, hw⟩, hring⟩, hwf1⟩, hwf2⟩, hc⟩, hs⟩, ht⟩, hf⟩, hf0⟩, hf1⟩, hl⟩, hb⟩, hrep⟩, hrom⟩, hhold⟩, hx⟩ := ha
  unfold Hub.request
  have ex : (if q.time = 0 then h else h.untilLine q.time).examine q.mb = h.whenAsked q := by
    show (h.whenAsked q).examine q.mb = _
    rw [Hub.examine, hw]; rfl
  simp only [ex, hw]
  generalize hg : h.whenAsked q = g at *
  have hbs : leBytes 2 code ++ leBytes 2 q.seq ++ leBytes 2 q.length ++ leBytes 2 q.flags ++ leBytes 4 q.txn ++ leBytes 4 q.status ++ q.payload =
      reqBytes q code := rfl
  rw [hbs]
  have hgate : g.clockGated 10 = false := by
    simp only [Hub.mbServed, Hub.running, Bool.and_eq_true] at hserved
    simp [Hub.clockGated, hserved]
  simp only [hgate, Bool.false_eq_true, if_false, if_true]
  -- what the placed request leaves
  have key : ∀ p : Hub, g.place q.mb (reqBytes q code) q.entry = p → p.mbServed q.mb = true → p.waitingCount q.mb ≠ 0 →
      (∃ post entry, p.front q.mb = (reqBytes q code ++ post, entry) ∧ entry = (reqOn q code).entry ∧ (q.mb = 1 ∨ q.mb = 2 ∨ post = [])) →
      (p.pop q.mb).isRepeat q.mb q.seq = false → (p.pop q.mb).mg = g.mg → (p.pop q.mb).ky = g.ky → (p.pop q.mb).clk = g.clk →
      p.serveOne q.mb body = h.answered q code (body ((h.asked q code).touchTxn (reqOn q code)) (reqOn q code)).1
        (body ((h.asked q code).touchTxn (reqOn q code)) (reqOn q code)).2 := by
    intro p hp h1 h2 ⟨post, entry, h3, h4, h5⟩ h6 h7 h8 h9
    have hnews : p.isFoldNews q.mb (reqBytes q code ++ post) = false := by
      obtain ⟨_, _, _, f3, _, _⟩ := reqBytes_fields q code post hc hs ht (by omega) hl (by omega)
      simp [Hub.isFoldNews, f3, hf0, hf1]
    have hlong : ¬ (reqBytes q code ++ post).length < 16 := by simp [reqBytes_length]; omega
    unfold Hub.serveOne
    simp only [h1, h2, h3, hnews, hlong, Bool.not_true, Bool.false_eq_true, decide_false, Bool.or_self, if_false]
    rw [Hub.answer_eq (p.pop q.mb) q code post entry body hc hs ht hf hf0 hf1 hl hb h5 h6 (by rw [h7]; exact hrom) (by rw [h8]; exact hhold)
      (by simpa [or_assoc] using hx)]
    subst h4
    have ha : h.asked q code = (p.pop q.mb).modMb q.mb (fun b => { b with lastSeq := some q.seq, lastAt := (p.pop q.mb).clk.up, stored := [] }) := by
      rw [Hub.asked, hg, hp, h9]
    rw [Hub.answered, ha]
    rfl
  have hm' : q.mb < g.ctl.mbs.length := by omega
  by_cases hq : (q.mb == 1 || q.mb == 2) = true
  · obtain ⟨ht1, ht2⟩ : (g.mb q.mb).reqTail = (g.mb q.mb).reqHead ∧ (g.mb q.mb).reqHead < 65536 := by
      rcases hring with e | e
      · rw [hq] at e; cases e
      · exact e
    have hsize : ¬ g.ringSize q.mb ≤ 0 := by
      unfold Hub.ringSize
      split
      · omega
      · simp only; split <;> simp
    have hq' : (decide (q.mb = 1) || decide (q.mb = 2)) = true := by simpa using hq
    let x : Hub := if q.mb = 1 then { g with hostMem := writeMem g.hostMem (g.slotAt q.mb (g.mb q.mb).reqTail) ((reqBytes q code).take 4096) }
        else { g with ctl := { g.ctl with window := writeMem g.ctl.window (g.slotAt q.mb (g.mb q.mb).reqTail) ((reqBytes q code).take 4096) } }
    have hx1 : x.ctl.mbs = g.ctl.mbs := by simp only [x]; split <;> rfl
    have hx2 : x.mb q.mb = g.mb q.mb := by simp only [Hub.mb, hx1]
    have hx3 : ∀ o : Nat, x.mbServed o = g.mbServed o := by intro o; simp only [x]; split <;> rfl
    have hp : g.place q.mb (reqBytes q code) q.entry = x.modMb q.mb (fun b => { b with reqTail := (b.reqTail + 1) % 65536 }) := by
      unfold Hub.place
      simp only [hw, hq', hsize, if_true, if_false]
      rfl
    have hmx : q.mb < x.ctl.mbs.length := by rw [hx1]; exact hm'
    have hmb := Hub.mb_modMb_same x q.mb (fun b => { b with reqTail := (b.reqTail + 1) % 65536 }) hmx
    have hwc : (x.modMb q.mb (fun b => { b with reqTail := (b.reqTail + 1) % 65536 })).waitingCount q.mb = 1 := by
      unfold Hub.waitingCount
      rw [if_pos hq', hmb, hx2, ht1]
      simp only [ringUsed]
      omega
    have hslot : (x.modMb q.mb (fun b => { b with reqTail := (b.reqTail + 1) % 65536 })).slotAt q.mb (g.mb q.mb).reqHead =
        g.slotAt q.mb (g.mb q.mb).reqTail := by
      rw [ht1]
      exact slotAt_of_mb _ _ _ _ (by rw [hmb, hx2]) (by rw [hmb, hx2])
    rw [hp]
    refine key _ hp ?_ (by rw [hwc]; decide) ?_ ?_ ?_ ?_ ?_
    · rw [Hub.mbServed_modMb _ _ _ hmx rfl rfl, hx3]; exact hserved
    · have hlen4 : (reqBytes q code).length ≤ 4096 := by rw [reqBytes_length]; omega
      have hhead : ((x.modMb q.mb (fun b => { b with reqTail := (b.reqTail + 1) % 65536 })).mb q.mb).reqHead = (g.mb q.mb).reqHead := by
        rw [hmb, hx2]
      rcases (by simpa using hq : q.mb = 1 ∨ q.mb = 2) with e | e
      · refine ⟨readMem g.hostMem (g.slotAt q.mb (g.mb q.mb).reqTail + (reqBytes q code).length) (4096 - (reqBytes q code).length), 1024, ?_, ?_, .inl e⟩
        · rw [← readMem_writeMem _ _ _ _ hwf1 hlen4]
          unfold Hub.front
          rw [if_pos e]
          rw [e] at hslot hhead ⊢
          rw [hhead, hslot]
          simp only [x, e, if_true, List.take_of_length_le hlen4]
          rfl
        · simp [reqOn, e]
      · refine ⟨readMem g.ctl.window (g.slotAt q.mb (g.mb q.mb).reqTail + (reqBytes q code).length) (4096 - (reqBytes q code).length), 1024, ?_, ?_, .inr (.inl e)⟩
        · rw [← readMem_writeMem _ _ _ _ hwf2 hlen4]
          unfold Hub.front
          rw [if_neg (by omega), if_pos e]
          rw [e] at hslot hhead ⊢
          rw [hhead, hslot]
          simp only [x, e, List.take_of_length_le hlen4]
          rfl
        · simp [reqOn, e]
    · refine Eq.trans ?_ hrep
      unfold Hub.isRepeat Hub.pop
      rw [Hub.mb_modMb_same _ _ _ (by simpa [Hub.modMb] using hmx), hmb, hx2]
      have : x.clk = g.clk := by simp only [x]; split <;> rfl
      show (_ && decide (x.clk.up ≤ _) && _) = _
      rw [this]
    · show x.mg = g.mg
      simp only [x]; split <;> rfl
    · show x.ky = g.ky
      simp only [x]; split <;> rfl
    · show x.clk = g.clk
      simp only [x]; split <;> rfl
  · have hq' : (decide (q.mb = 1) || decide (q.mb = 2)) = false := by simpa using hq
    have hwait : (g.mb q.mb).waiting = [] := by
      unfold Hub.waitingCount at hw
      rw [hq'] at hw
      simpa using hw
    have hp : g.place q.mb (reqBytes q code) q.entry = g.modMb q.mb (fun b => { b with waiting := b.waiting ++ [⟨reqBytes q code, q.entry⟩] }) := by
      unfold Hub.place
      simp only [hq', Bool.false_eq_true, if_false]
    have hmb := Hub.mb_modMb_same g q.mb (fun b => { b with waiting := b.waiting ++ [⟨reqBytes q code, q.entry⟩] }) hm'
    rw [hp]
    obtain ⟨n1, n2⟩ : q.mb ≠ 1 ∧ q.mb ≠ 2 := by simpa using hq
    refine key _ hp ?_ ?_ ⟨[], q.entry, ?_, ?_, .inr (.inr rfl)⟩ ?_ rfl rfl rfl
    · rw [Hub.mbServed_modMb _ _ _ hm' rfl rfl]; exact hserved
    · unfold Hub.waitingCount
      rw [hq', hmb]
      simp
    · unfold Hub.front
      rw [if_neg n1, if_neg n2, hmb, hwait]
      simp
    · simp [reqOn, n1, n2]
    · refine Eq.trans ?_ hrep
      unfold Hub.isRepeat Hub.pop
      rw [Hub.mb_modMb_same _ _ _ (by simpa [Hub.modMb] using hm'), hmb]
      rfl

/-- A request served at once, by what its meaning answers. -/
theorem Hub.request_done (h : Hub) (q : Req) (code : Nat) (body : Hub → Request → Hub × Reply) (a g : Hub) (x : Reply) (ha : h.asks q code = true)
    (hA : a = (h.asked q code).touchTxn (reqOn q code)) (hb : body a (reqOn q code) = (g, x)) : h.request code q body = h.answered q code g x := by
  rw [Hub.request_eq h q code body ha, ← hA, hb]

/-- A request with TXN_ID 0 starts no idle time anew. -/
theorem Hub.touchTxn_zero (h : Hub) (r : Request) (hr : r.txn = 0) : h.touchTxn r = h := by simp [Hub.touchTxn, hr]

/-- A command that takes no TXN_ID is served at once with TXN_ID 0 only. -/
theorem Hub.asks_txn (h : Hub) (q : Req) (code : Nat) (hk : (knownCode code && !takesTxn code) = true) (ha : h.asks q code = true) : q.txn = 0 := by
  unfold Hub.asks at ha
  simp only [Bool.and_eq_true, beq_iff_eq, Bool.or_eq_true, Bool.not_eq_true'] at ha hk
  rcases ha.2 with (e | e) | e
  · exact e
  · rw [hk.1] at e; cases e
  · rw [hk.2] at e; cases e

/-- A request of such a command served at once, by what its meaning answers. -/
theorem Hub.request_plain (h : Hub) (q : Req) (code : Nat) (body : Hub → Request → Hub × Reply) (a g : Hub) (x : Reply)
    (hk : (knownCode code && !takesTxn code) = true) (ha : h.asks q code = true)
    (hA : a = h.asked q code) (hb : body a (reqOn q code) = (g, x)) : h.request code q body = h.answered q code g x :=
  Hub.request_done h q code body a g x ha (by rw [Hub.touchTxn_zero _ _ (Hub.asks_txn h q code hk ha), hA]) hb

/-- A request outside any transaction served at once, by what its meaning answers. -/
theorem Hub.request_zero (h : Hub) (q : Req) (code : Nat) (body : Hub → Request → Hub × Reply) (a g : Hub) (x : Reply) (ht : q.txn = 0)
    (ha : h.asks q code = true) (hA : a = h.asked q code) (hb : body a (reqOn q code) = (g, x)) : h.request code q body = h.answered q code g x :=
  Hub.request_done h q code body a g x ha (by rw [Hub.touchTxn_zero _ _ ht, hA]) hb

/-- A long operation starts when fewer than 16 are pending. -/
theorem Hub.startOp_eq (h : Hub) (mb cmd : Nat) (work : Pending) (hn : h.ctl.ops.length < 16) :
    h.startOp mb cmd work = (h.withOp mb cmd work, .long h.ctl.nextToken) := by
  simp only [Hub.startOp, Nat.not_le.mpr hn, if_false, Hub.withOp]

end Sys2Proof.Machine
end

