-- ==== Sys2Proof/Laws/Resets.lean ====
section
/-!
SUPPORT. What the shared parts of a reset can do: a Lint record touches the log and a counter alone, the recorded cause besides that the
sequencer, and a release the straps, line time, rails and the management subsystem.
-/
namespace Sys2Proof.Machine

/-- A Lint record leaves mailboxes, tables, memories, the configuration store, images and keys alone. -/
theorem Hub.lintRec_frame (h : Hub) (code sev : Nat) (a : List Byte) (b : Bool) :
    (h.lintRec code sev a b).ctl = h.ctl ∧ (h.lintRec code sev a b).tables = h.tables ∧ (h.lintRec code sev a b).dram = h.dram ∧
      (h.lintRec code sev a b).nvStore = h.nvStore ∧ (h.lintRec code sev a b).hostMem = h.hostMem ∧ (h.lintRec code sev a b).mg = h.mg ∧
      (h.lintRec code sev a b).ky = h.ky := by
  simp only [Hub.lintRec]
  split <;> exact ⟨rfl, rfl, rfl, rfl, rfl, rfl, rfl⟩

/-- So does the recorded reset cause. -/
theorem Hub.noteCause_frame (h : Hub) (c : Nat) :
    (h.noteCause c).ctl = h.ctl ∧ (h.noteCause c).tables = h.tables ∧ (h.noteCause c).dram = h.dram ∧ (h.noteCause c).nvStore = h.nvStore ∧
      (h.noteCause c).hostMem = h.hostMem ∧ (h.noteCause c).mg = h.mg ∧ (h.noteCause c).ky = h.ky := Hub.lintRec_frame _ _ _ _ _

/-- What no pin and no pulse of a reset touches: mailboxes, tables, memories, the configuration store, images and keys. -/
def Hub.stores (h : Hub) : Control × Map Nat × List (Nat × Byte) × List (FlashCopy (Map Value)) × List (Nat × Byte) × Mgmt × Keys :=
  (h.ctl, h.tables, h.dram, h.nvStore, h.hostMem, h.mg, h.ky)

/-- What every round of a fold leaves alone, the fold leaves alone. -/
theorem Hub.kept_foldl {α β : Type} (k : Hub → β) (f : Hub → α → Hub) (hf : ∀ h a, k (f h a) = k h) (l : List α) (h : Hub) :
    k (l.foldl f h) = k h := by
  induction l generalizing h with
  | nil => rfl
  | cons a l ih => rw [List.foldl_cons, ih, hf]

theorem Hub.stores_setPps (h : Hub) (b : Bool) : (h.setPps b).stores = h.stores := by
  unfold Hub.setPps
  split <;> rfl

theorem Hub.stores_floatPins (h : Hub) : h.floatPins.stores = h.stores := by
  unfold Hub.floatPins
  refine Hub.kept_foldl Hub.stores _ (fun h n => ?_) _ h
  split <;> rfl

theorem Hub.stores_gpioModes (h : Hub) : h.gpioModes.stores = h.stores := by
  unfold Hub.gpioModes
  refine Hub.kept_foldl Hub.stores _ (fun h k => ?_) _ h
  rfl

/-! ## Events

An event touches mailboxes, their rings, Seams, the Lint log and counters; long operations, transactions, tables, the management subsystem, the
configuration store and keys it leaves. -/

/-- What an event leaves alone. -/
def Hub.untold (h : Hub) : List LongOp × List Txn × Map Nat × Mgmt × List (FlashCopy (Map Value)) × Keys :=
  (h.ctl.ops, h.ctl.txns, h.tables, h.mg, h.nvStore, h.ky)

theorem Hub.untold_lintRec (h : Hub) (code sev : Nat) (a : List Byte) (b : Bool) : (h.lintRec code sev a b).untold = h.untold := by
  simp only [Hub.lintRec]
  split <;> rfl

theorem Hub.untold_raise (h : Hub) (m : Nat) : (h.raise m).untold = h.untold := by
  simp only [Hub.raise, Hub.raiseNow]
  split
  · rfl
  · split
    · refine (Hub.kept_foldl Hub.untold _ (fun g n => ?_) _ _).trans ?_ <;> rfl
    · rfl

theorem Hub.untold_placeRing (h : Hub) (m : Nat) (bs : List Byte) : (h.placeRing m bs).untold = h.untold := by
  simp only [Hub.placeRing]
  split <;> rfl

theorem Hub.untold_placeEvent (h : Hub) (m : Nat) (bs : List Byte) : (h.placeEvent m bs).untold = h.untold := by
  simp only [Hub.placeEvent]
  split
  · rw [Hub.untold_raise, Hub.untold_placeRing]
  · split <;> rfl

theorem Hub.untold_deliver (h : Hub) (e : Ev) (sev status : Nat) (args : List Byte) : (h.deliver e sev status args).untold = h.untold := by
  simp only [Hub.deliver]
  refine (Hub.kept_foldl Hub.untold _ (fun g m => ?_) _ _).trans ?_
  · split
    · exact Hub.untold_placeEvent _ _ _
    · rfl
  · simp only [Hub.countRaised]
    split <;> rfl

theorem Hub.untold_eventClear (h : Hub) (e : Ev) (args : List (Nat × Nat × Nat)) : (h.eventClear e args).untold = h.untold :=
  (Hub.untold_deliver _ _ _ _ _).trans (Hub.untold_lintRec _ _ _ _ _)

/-- An island back from a reset is told of, and at I-MGMT the doorbells ring. -/
theorem Hub.untold_seamsBack (h : Hub) (i : Nat) : (h.seamsBack i).untold = h.untold := by
  simp only [Hub.seamsBack]
  have k : ∀ g : Hub, ((crossingsOf i).foldl (fun h x =>
      if (h.seam x).lost = some i then (h.modSeam x (fun _ => Crossing.reset)).eventClear .seamReset [(0, 1, x), (1, 1, i), (2, 1, 0)] else h) g).untold
        = g.untold := by
    intro g
    refine Hub.kept_foldl Hub.untold _ (fun h x => ?_) _ _
    split
    · rw [Hub.untold_eventClear]; rfl
    · rfl
  split
  · exact (Hub.kept_foldl Hub.untold (fun g m => g.modSeam (bellCrossing m) Crossing.pulse) (fun g m => rfl) _ _).trans (k h)
  · exact k h

theorem Hub.untold_aonBack (h : Hub) : h.aonBack.untold = h.untold := by
  simp only [Hub.aonBack]
  refine Hub.kept_foldl Hub.untold _ (fun h x => ?_) _ _
  split
  · exact Hub.untold_seamsBack _ _
  · rfl

/-- The end of a debug unlock leaves images, the configuration store and the key slots alone. -/
theorem Hub.unlockEnd_frame (h : Hub) (c : Nat) :
    (h.unlockEnd c).mg = h.mg ∧ (h.unlockEnd c).nvStore = h.nvStore ∧ (h.unlockEnd c).ky.slots = h.ky.slots := by
  simp only [Hub.unlockEnd]
  split
  · exact ⟨rfl, rfl, rfl⟩
  · have k := fun (g : Hub) e a => Hub.untold_eventClear g e a
    simp only [Hub.untold, Prod.mk.injEq] at k
    exact ⟨(k _ _ _).2.2.2.1, (k _ _ _).2.2.2.2.1, (congrArg Keys.slots (k _ _ _).2.2.2.2.2).trans rfl⟩

/-- Pins that follow their levels leave the stores, the clocks and the straps. -/
theorem Hub.kept_showPins (h : Hub) : (h.showPins.stores, h.showPins.clk, h.showPins.straps) = (h.stores, h.clk, h.straps) := by
  unfold Hub.showPins
  refine Hub.kept_foldl (fun h => (h.stores, h.clk, h.straps)) _ (fun h n => ?_) _ h
  simp only [Hub.showPin]
  split <;> rfl

/-- A release samples the straps and starts line time and the management subsystem; the rest it leaves. -/
theorem Hub.release_frame (h : Hub) (st : Nat) :
    (h.release st).ctl = h.ctl ∧ (h.release st).tables = h.tables ∧ (h.release st).dram = h.dram ∧ (h.release st).nvStore = h.nvStore ∧
      (h.release st).hostMem = h.hostMem ∧ (h.release st).mg.slots = h.mg.slots ∧ (h.release st).ky = h.ky ∧ (h.release st).clk.ns = 0 ∧
      (h.release st).clk.frac = 0 ∧ (h.release st).straps = st % 128 ∧ (h.release st).mg.full = false := by
  have e : h.perstLow.ctl = h.ctl ∧ h.perstLow.tables = h.tables ∧ h.perstLow.dram = h.dram ∧ h.perstLow.nvStore = h.nvStore ∧
      h.perstLow.hostMem = h.hostMem ∧ h.perstLow.mg = h.mg ∧ h.perstLow.ky = h.ky := by
    unfold Hub.perstLow
    split <;> exact ⟨rfl, rfl, rfl, rfl, rfl, rfl, rfl⟩
  obtain ⟨e1, e2, e3, e4, e5, e6, e7⟩ := e
  have k := fun g : Hub => Hub.kept_showPins g
  simp only [Hub.stores, Prod.mk.injEq] at k
  refine ⟨?_, ?_, ?_, ?_, ?_, ?_, ?_, ?_, ?_, ?_, ?_⟩
  · exact (k _).1.1.trans e1
  · exact (k _).1.2.1.trans e2
  · exact (k _).1.2.2.1.trans e3
  · exact (k _).1.2.2.2.1.trans e4
  · exact (k _).1.2.2.2.2.1.trans e5
  · have a : (h.release st).mg.slots = h.perstLow.mg.slots := by
      rw [Hub.release, (k _).1.2.2.2.2.2.1]; rfl
    exact a.trans (congrArg (fun m : Mgmt => m.slots) e6)
  · exact (k _).1.2.2.2.2.2.2.trans e7
  · exact congrArg (·.ns) (k _).2.1
  · exact congrArg (·.frac) (k _).2.1
  · exact (k _).2.2
  · exact congrArg (·.full) (k _).1.2.2.2.2.2.1

end Sys2Proof.Machine
end

