-- ==== Sys2Proof/Laws/Step.lean ====
section
/-!
SUPPORT. What the state after a command holds, and what settling ends with.
-/
namespace Sys2Proof.Machine

@[simp] theorem State.after_hub (s : State) (g : Hub) : (s.after g).hub = Hub.settle s.hub g := by simp only [State.after]

@[simp] theorem State.after_pending (s : State) (g : Hub) : (s.after g).pending = s.pending := by simp only [State.after]

/-- A command with the meaning f leaves the state after f. -/
theorem State.run_eq (f : Hub → Hub) (s : State) : s.run f = .next (s.after (f s.hub)) := by simp only [State.run, State.after]

/-- Pads driven or released are outputs: what the hub holds else they leave. -/
theorem Hub.padsOut_ctl (old h : Hub) : (Hub.padsOut old h).ctl = h.ctl := by
  unfold Hub.padsOut
  generalize List.filter _ _ = l
  induction l generalizing h with
  | nil => rfl
  | cons a l ih => exact ih _

/-- Settling ends with INT_N and the pads; what the host can read is as INT_N leaves it. -/
theorem settle_ends_with_intPin (old h : Hub) : ∃ x : Hub, (Hub.settle old h).ctl = x.intPin.ctl := by
  unfold Hub.settle; exact ⟨_, Hub.padsOut_ctl _ _⟩

/-- INT_N as `intPin` leaves it. -/
theorem Hub.intPin_intLow (h : Hub) : h.intPin.ctl.regs.intLow = decide (h.ctl.regs.intStatus &&& h.ctl.regs.intMask ≠ 0) := by
  unfold Hub.intPin
  simp only
  split
  · assumption
  · rfl

/-- INT_STATUS and INT_MASK as `intPin` leaves them. -/
theorem Hub.intPin_regs (h : Hub) : h.intPin.ctl.regs.intStatus = h.ctl.regs.intStatus ∧ h.intPin.ctl.regs.intMask = h.ctl.regs.intMask := by
  unfold Hub.intPin
  simp only
  split <;> exact ⟨rfl, rfl⟩

end Sys2Proof.Machine
end

