-- ==== Sys2Proof/Tests/Wit.lean ====
section
/-!
SUPPORT. Small states and requests for the witnesses.
-/
namespace Sys2Proof.Machine

/-- The reset hub once its firmware is in full service, with a host at the service port. -/
def W.h : Hub :=
  { Hub.reset with
    svcHost := true
    usb := { Usb.reset with svc := { Usb.reset.svc with vbus := true, configured := true } }
    mg := { Mgmt.reset with loaded := true, express := true, ready := true, full := true } }

/-- A small change of it. -/
def W.on (f : Hub → Hub) : State := ⟨[], f W.h⟩

/-- A request on mailbox `mb`. -/
def W.q (p : List Byte) (mb txn : Nat) : Req := ⟨mb, 0, 1, p.length, 0, txn, 0, p, 1024⟩

/-- Zero bytes. -/
abbrev W.z (n : Nat) : List Byte := List.replicate n 0#8

end Sys2Proof.Machine
end

