-- ==== Sys2Proof/Tests/Slice0.lean ====
section
/-!
SUPPORT. The model's own small tests: well-formedness refuses an ill-formed command for each of its checks, and single steps whose expected
values come from the spec's tables.
-/
namespace Sys2Proof.Tests.Slice0
open Sys2Proof Sys2Proof.Machine
set_option Elab.async false
set_option maxRecDepth 8000

/-- A request with every field in range. -/
def req : Req := ⟨0, 0, 0, 0, 0, 0, 0, [], 1024⟩

/-- A cell with every field in range. -/
def cell : Cell := ⟨0, true, true, 0, 0, 0, 0, 0, false, 0, false, 8, []⟩

/-! ## Well-formedness -/

/-- The terms that the ill-formed ones below change are well formed. -/
theorem test_wf_good :
    [Instr.identify req, .unknownCommand 65535 req, .lineCellRx 2 cell, .msgShort 3 0, .supplySkew 23 0 0, .discardEntryExpire 3].all Instr.wf = true := by
  decide +kernel

/-- Each field of a request outside its width is refused (R39). -/
theorem test_wf_requests :
    [.identify ({ req with mb := 4 }),
     .identify ({ req with seq := 65536 }),
     .identify ({ req with length := 65536 }),
     .identify ({ req with flags := 65536 }),
     .identify ({ req with txn := 2 ^ 32 }),
     .identify ({ req with status := 2 ^ 32 }),
     .identify ({ req with entry := 1025 })].all (fun i => !Instr.wf i) = true := by decide +kernel

/-- Each field of a cell outside its width is refused (R103). -/
theorem test_wf_cells :
    [.linkLocalBad 0 ({ cell with cls := 4 }),
     .linkLocalBad 0 ({ cell with kind := 16 }),
     .linkLocalBad 0 ({ cell with dest := 4096 }),
     .linkLocalBad 0 ({ cell with src := 4096 }),
     .linkLocalBad 0 ({ cell with tid := 65536 }),
     .linkLocalBad 0 ({ cell with seq := 65536 }),
     .linkLocalBad 0 ({ cell with rail := 2 }),
     .linkLocalBad 0 ({ cell with hops := 8192 }),
     .linkLocalBad 0 ({ cell with payload := List.replicate 257 0#8 })].all (fun i => !Instr.wf i) = true := by decide +kernel

/-- Each operand outside its range is refused: messages, ports, tunnels, rails. -/
theorem test_wf_operands_a :
    [.unknownCommand 65536 req,
     .msgShort 4 0,
     .txnCommitDone (2 ^ 64),
     .longOpStep 100,
     .pairTimeout 65536 0,
     .pairTimeout 0 65536,
     .rspHeadWrite 0 65536,
     .intStatusClear (2 ^ 64),
     .registerWrite 0 0 (2 ^ 64),
     .signalDetect 3,
     .codewordLock 0 ⟨2, []⟩,
     .lnEnableWrite 0 (2 ^ 64),
     .sideFrameBad ⟨3, 0⟩,
     .sideFrameBad ⟨0, 2 ^ 108⟩,
     .blockRx 0 ⟨[], [], []⟩,
     .blockRx 0 ⟨List.replicate 544 1, List.replicate 272 1, []⟩,
     .darnAck 0 65536,
     .marginMeasure 0 2 0 0,
     .tunnelCellRx 10 0,
     .tunnelCellRx 0 4,
     .resyncRx 1024 cell,
     .discardEntryExpire 4,
     .creditRx 0 0 (2 ^ 64),
     .epochCancel 0 (2 ^ 64)].all (fun i => !Instr.wf i) = true := by decide +kernel

/-- Each operand outside its range is refused: windows, ports of the I/O blocks, supplies, counters, partner messages. -/
theorem test_wf_operands_b :
    [.tcapEdge 2 false 0,
     .decisionFrameRx ⟨1025, 0, false, []⟩,
     .decisionFrameRx ⟨0, 4096, false, []⟩,
     .gpioEdge 32 false 0,
     .apertureRequest ⟨.read, 0, 2 ^ 64, 4, [], [], 0⟩,
     .apertureRequest ⟨.read, 0, 0, 4097, [], [], 0⟩,
     .apertureRequest ⟨.read, 6, 0, 4, [], [], 0⟩,
     .windowReadRx ⟨⟨1025, 0, false, []⟩, false⟩,
     .prefetchExpire 64,
     .ethFrameRx 4 ⟨[], true, 0⟩,
     .ethFrameRx 0 ⟨List.replicate 16385 0#8, true, 0⟩,
     .usbTransferComplete 8 0 0 [],
     .svcAttach ⟨true, false, 128, true, false⟩,
     .regRead ⟨256, 1, 0, 0, 4⟩,
     .regRead ⟨0xC0, 256, 0, 0, 4⟩,
     .regRead ⟨0xC0, 1, 65536, 0, 4⟩,
     .regRead ⟨0xC0, 1, 0, 65536, 4⟩,
     .regRead ⟨0xC0, 1, 0, 0, 65536⟩,
     .svcBusReset ⟨4, 0, false, false⟩,
     .svcBusReset ⟨0, 256, false, false⟩,
     .tcEnableWrite 4 0,
     .dsFrameBoundary 2,
     .fuseRampDone ⟨5, 0, 0⟩,
     .fuseLimitEngage ⟨5, 0, 0, 0⟩,
     .fuseLimitRelease ⟨5, 0, 0⟩,
     .faultTimerClear 5,
     .fastTrip ⟨5, 0⟩,
     .supplySkew 24 0 0,
     .seamReset 0 12 0,
     .thermalShutdown 24 0,
     .sampleCapture 4 0,
     .sourceCapabilitiesRx 0 ⟨List.replicate 8 (5000, 900)⟩,
     .structuredVdmResponseRx 0 ⟨6, true, 0, false, false, false, false, false⟩].all (fun i => !Instr.wf i) = true := by decide +kernel

/-- The table gives no row a bit pattern, so no word spells a command. -/
theorem test_decode_none : decodeTableWord 0 0 = none ∧ decodeTableWord 16 0x0101 = none := by decide

/-! ## Checks of the wire -/

/-- The characters 1 to 9, the input of the published check values of both CRCs. -/
def digits : List Byte := [0x31#8, 0x32#8, 0x33#8, 0x34#8, 0x35#8, 0x36#8, 0x37#8, 0x38#8, 0x39#8]

/-- CRC-32C gives its published check value (R106). -/
theorem test_crc32c_check : crc32c digits = 0xE3069283 := by decide +kernel

/-- The CRC-32 of IEEE 802.3 gives its published check value (R281, R339). -/
theorem test_crc32_check : crc32 digits = 0xCBF43926 := by decide +kernel

/-! ## Reset -/

/-- After reset memory lists nothing, no command waits, INT_N is released and no port is up (R3, R44). -/
theorem test_reset_quiet :
    State.reset.pending = [] ∧ State.reset.hub.dram = [] ∧ State.reset.hub.ctl.regs.intLow = false ∧
      [0, 1, 2].all (fun p => !State.reset.hub.portUp p) = true := by decide +kernel

/-! ## Single steps -/

/-- The hub after one command. -/
def after (c : Instr) (s : State) : Hub := match exec c s with | .next t => t.hub | _ => s.hub

/-- ECHO (0x0106) with sequence 1: the 16-byte header of R39 with FINAL and RSP set and STATUS OK, then the payload unchanged (R47). -/
theorem test_echo :
    (after (.echo (W.q [0xA5#8, 0x5A#8] 3 0)) (W.on id)).outbox.head? = some (.message 3
      ([0x06#8, 0x01#8, 0x01#8, 0x00#8, 0x02#8, 0x00#8, 0x05#8, 0x00#8] ++ List.replicate 8 0#8 ++ [0xA5#8, 0x5A#8])) := by decide +kernel

/-- Signal in DETECT leads to IDENT (R85). -/
theorem test_signal_detect :
    (after (.signalDetect 0) (W.on (fun h => h.modPort 0 (fun y => { y with state := .detect })))).lnState 0 = .ident := by decide +kernel

/-- PARAM_SET of LN_RATE_MAX of port 0 (PID 0x0101) is in force at once (R50). -/
theorem test_param_set :
    (after (.paramSet (W.q [0x01#8, 0x01#8, 0#8, 0#8, 0#8, 0#8, 0#8, 0#8, 3#8, 0#8, 0#8, 0#8, 0#8, 0#8, 0#8, 0#8] 3 0)) (W.on id)).pget 0x0101 0 = 3 := by
  decide +kernel

/-- F0 with an input of 48 V, on, after n trips. -/
def f0 (n : Nat) : State := W.on (fun h => (h.pset P.FU_ENABLE 0 1).modFuse 0 (fun y => { y with state := .on, vin := 48000, n := n }))

/-- The first trip waits 100 ms in BACKOFF, the fourth latches: the first and last rows of the spec's worked example (R356). -/
theorem test_fast_trip :
    ((after (.fastTrip ⟨0, 60000⟩) (f0 0)).fuse 0).state = .backoff ∧ ((after (.fastTrip ⟨0, 60000⟩) (f0 0)).fuse 0).endAt = 100000000 ∧
      ((after (.fastTrip ⟨0, 60000⟩) (f0 3)).fuse 0).state = .latched := by decide +kernel

/-- A tamper source latches and counts (R426). -/
theorem test_tamper :
    (after (.tamperAlarm ⟨2, 20⟩) (W.on id)).pget P.KY_TAMPER_LATCH 0 = 4 ∧ (after (.tamperAlarm ⟨2, 20⟩) (W.on id)).pget P.KY_TAMPER_EVENTS 2 = 1 := by
  decide +kernel

/-- A pulse of 19 ns on the external pin is filtered (R424). -/
theorem test_tamper_filter : (after (.tamperAlarm ⟨2, 19⟩) (W.on id)).pget P.KY_TAMPER_LATCH 0 = 0 := by decide +kernel

/-- REG_READ of word 0x120, which R34 does not list, gets a STALL on the service port (R307). -/
theorem test_reg_read :
    (after (.regRead ⟨0xC0, 1, 0, 0x120, 4⟩) (W.on id)).outbox.head? = some (.usb 8 "SVC_STALL" []) := by decide +kernel

/-- A device on a powered port attaches at its own speed (R309). -/
theorem test_usb_attach :
    ((after (.usbAttach 4 true 3) (W.on (fun h => (h.modUsb 4 (fun y => { y with power := true })).pset P.US_PORT_ENABLE 4 1))).usbp 4).speed = 3 := by
  decide +kernel

end Sys2Proof.Tests.Slice0
end

