-- ==== Sys2Proof/Tests/Witness1.lean ====
section
/-!
SUPPORT. Witnesses that no obligation has empty hypotheses, part 1: for each statement one theorem that shows a state and operands for
every clause that has hypotheses.  The states are the hub after reset and start, changed by the named operations.
-/
namespace Sys2Proof.Tests.Witness1
open Sys2Proof Sys2Proof.Machine
set_option Elab.async false
set_option maxRecDepth 8000
set_option linter.unusedVariables false

/-- States and operands that meet the hypotheses of `Obligations.StepRunsFrontCommand`, clause by clause. -/
theorem test_witness_StepRunsFrontCommand :
    (∃ (s : State), (s.pending = [])) :=
  ⟨W.on id, by decide +kernel⟩

/-- States and operands that meet the hypotheses of `Obligations.StepsEmptyTheQueue`, clause by clause. -/
theorem test_witness_StepsEmptyTheQueue :
    (∃ (s : State) (k : Nat), k ≤ s.pending.length) :=
  ⟨⟨[.pressLatch, .svcAttach ⟨true, false, 0, true, false⟩], W.h⟩, 1, by decide +kernel⟩

/-- States and operands that meet the hypotheses of `Obligations.IntPinFollowsStatusAndMask`, clause by clause. -/
theorem test_witness_IntPinFollowsStatusAndMask :
    (∃ (s t : State), s.hub.IntOk ∧ (step s = .next t)) :=
  ⟨W.on id, _, by unfold Hub.IntOk; decide +kernel, rfl⟩

/-- States and operands that meet the hypotheses of `Obligations.PortTransitionsWriteWhatTheRulesSay`, clause by clause. -/
theorem test_witness_PortTransitionsWriteWhatTheRulesSay :
    (∃ (h : Hub) (p reason : Nat) (i : TrainInfo), ((h.port p).train.partner = some i)) ∧
    (∃ (h : Hub) (p : Nat), p < 2 ∧ ((h.port p).rx.delin.part = []) ∧ ((h.port p).darn.stored = [])) :=
  ⟨⟨(W.on (fun h => let h := h.modPort 0 (fun y => { y with train := { y.train with partner := some ⟨64, 0, 0, 0, 0, 0, true, false, false, false, 0, 0⟩ } }); h)).hub,
    0, 0, ⟨64, 0, 0, 0, 0, 0, true, false, false, false, 0, 0⟩, by decide +kernel⟩,
   ⟨(W.on (fun h => let h := h.modPort 1 (fun y => { y with rx := { y.rx with delin := { y.rx.delin with part := [] } } }); let h := h.modPort 1 (fun y => { y with darn := { y.darn with stored := [] } }); h)).hub,
    1, by decide +kernel⟩⟩

/-- States and operands that meet the hypotheses of `Obligations.TrainingCommandsMovePorts`, clause by clause. -/
theorem test_witness_TrainingCommandsMovePorts :
    (∃ (s : State) (p : Nat), (s.hub.portAbsent p = false) ∧ (s.hub.lnState p = .detect)) ∧
    (∃ (s : State) (p n : Nat) (i : TrainInfo) (k : Mode) (x : Hub), (x = s.hub.trainRepeats p n) ∧ (x.lnState p = .ident) ∧ ((x.port p).train.partner = some i) ∧ 8 ≤ (x.port p).train.goodRun ∧
      (x.partnerCheck p i = 0) ∧ ((x.port p).train.pick = some k)) ∧
    (∃ (s : State) (p n : Nat) (i : TrainInfo) (x : Hub), (x = s.hub.trainRepeats p n) ∧ (x.lnState p = .ident) ∧ ((x.port p).train.partner = some i) ∧ 8 ≤ (x.port p).train.goodRun ∧
      (x.partnerCheck p i ≠ 0)) ∧
    (∃ (s : State) (p : Nat), (s.hub.lnState p = .ident)) ∧
    (∃ (s : State) (p : Nat) (i : TrainInfo) (short : Bool), (s.hub.lnState p = .train) ∧ ((s.hub.port p).train.failWait = false) ∧ ((s.hub.port p).train.lock0 = true) ∧
      ((s.hub.port p).train.lock1 = true) ∧ ((s.hub.port p).train.agreed = some short) ∧ ((s.hub.port p).train.partner = some i) ∧
      (i.phase = 3)) ∧
    (∃ (s : State) (p : Nat) (i : TrainInfo), (s.hub.lnState p = .train) ∧ ((s.hub.port p).train.failWait = false) ∧ ((s.hub.port p).train.lock0 = true) ∧
      ((s.hub.port p).train.lock1 = true) ∧ ((s.hub.port p).train.agreed = none) ∧ ((s.hub.port p).train.partner = some i)) ∧
    (∃ (s : State) (p : Nat) (x : Hub) (k : Mode), (s.hub.lnState p = .train) ∧ ((s.hub.port p).train.failWait = false) ∧ ((s.hub.port p).train.lock0 = false) ∧
      (x = (s.hub.until ((s.hub.port p).since + ms 6)).modPort p (fun q => { q with train := { q.train with failed := q.train.target :: q.train.failed } })) ∧
      ((x.port p).train.pick = some k)) ∧
    (∃ (s : State) (p : Nat) (x : Hub), (s.hub.lnState p = .train) ∧ ((s.hub.port p).train.failWait = false) ∧ ((s.hub.port p).train.lock0 = false) ∧
      (x = (s.hub.until ((s.hub.port p).since + ms 6)).modPort p (fun q => { q with train := { q.train with failed := q.train.target :: q.train.failed } })) ∧
      ((x.port p).train.pick = none) ∧ (p ≠ 2)) ∧
    (∃ (s : State) (p : Nat), (s.hub.lnState p = .train) ∧ ((s.hub.port p).train.failWait = true)) ∧
    (∃ (s : State) (p : Nat), (s.hub.lnState p = .train)) ∧
    (∃ (s : State) (p e0 e1 : Nat) (i : TrainInfo), (s.hub.lnState p = .measure) ∧ ((s.hub.port p).train.partner = some i) ∧ (i.done = true)) ∧
    (∃ (s : State) (p e0 e1 : Nat) (i : TrainInfo), (s.hub.lnState p = .measure) ∧ ((s.hub.port p).train.partner = some i) ∧ (i.done = false)) ∧
    (∃ (s : State) (p : Nat) (i : TrainInfo), (s.hub.lnState p = .measure) ∧ ((s.hub.port p).train.partner = some i) ∧ (i.done = false)) ∧
    (∃ (s : State) (p lane : Nat) (seen : List Seen) (l : LaneRx),
      ((s.hub.lnState p = .train ∨ s.hub.lnState p = .measure)) ∧ (s.hub.locked p lane = false) ∧
      (l = seen.foldl (fun l w => l.judge (s.hub.port p).rxShort false w.lead w.bad) ((s.hub.port p).rx.lane lane)) ∧
      (l.gains (s.hub.port p).rxShort = true)) ∧
    (∃ (h : Hub) (p lane : Nat) (on : Bool) (x : Hub),
      (x = h.modPort p (fun q => { q with train := if lane = 0 then { q.train with lock0 := on } else { q.train with lock1 := on } }))) :=
  ⟨⟨W.on (fun h => let h := h.modPort 0 (fun y => { y with state := .detect }); h), 0, by decide +kernel⟩,
   ⟨W.on (fun h => let h := h.modPort 0 (fun y => { y with state := .ident }); let h := h.modPort 0 (fun y => { y with train := { y.train with partner := some ⟨64, 0, 0, 0, 0, 0, true, false, false, false, 0, 0⟩, goodRun := 1, rateMax := 1 } }); h),
    0, 7, ⟨64, 0, 0, 0, 0, 0, true, false, false, false, 0, 0⟩, 1, _, rfl, by decide +kernel⟩,
   ⟨W.on (fun h => let h := h.modPort 0 (fun y => { y with state := .ident }); let h := h.modPort 0 (fun y => { y with train := { y.train with partner := some ⟨0, 0, 0, 0, 0, 0, true, false, false, false, 0, 0⟩, goodRun := 1 } }); h),
    0, 7, ⟨0, 0, 0, 0, 0, 0, true, false, false, false, 0, 0⟩, _, rfl, by decide +kernel⟩,
   ⟨W.on (fun h => let h := h.modPort 0 (fun y => { y with state := .ident }); h), 0, by decide +kernel⟩,
   ⟨W.on (fun h => let h := h.modPort 0 (fun y => { y with state := .train }); let h := h.modPort 0 (fun y => { y with train := { y.train with lock0 := true, lock1 := true, agreed := some true, partner := some ⟨64, 0, 0, 0, 3, 0, true, false, false, false, 0, 0⟩ } }); h),
    0, ⟨64, 0, 0, 0, 3, 0, true, false, false, false, 0, 0⟩, true, by decide +kernel⟩,
   ⟨W.on (fun h => let h := h.modPort 0 (fun y => { y with state := .train }); let h := h.modPort 0 (fun y => { y with train := { y.train with lock0 := true, lock1 := true, agreed := none, partner := some ⟨64, 0, 0, 0, 0, 0, true, false, false, false, 0, 0⟩ } }); h),
    0, ⟨64, 0, 0, 0, 0, 0, true, false, false, false, 0, 0⟩, by decide +kernel⟩,
   ⟨W.on (fun h => let h := h.modPort 0 (fun y => { y with state := .train }); let h := h.modPort 0 (fun y => { y with train := { y.train with failWait := false, lock0 := false, target := 1, rateMax := 1, failed := [] } }); h),
    0, _, 2, by decide +kernel, by decide +kernel, by decide +kernel, rfl, by decide +kernel⟩,
   ⟨W.on (fun h => let h := h.modPort 0 (fun y => { y with state := .train }); let h := h.modPort 0 (fun y => { y with train := { y.train with failWait := false, lock0 := false, rateMax := 4, target := 4, failed := [] } }); h),
    0, _, by decide +kernel, by decide +kernel, by decide +kernel, rfl, by decide +kernel⟩,
   ⟨W.on (fun h => let h := h.modPort 0 (fun y => { y with state := .train }); let h := h.modPort 0 (fun y => { y with train := { y.train with failWait := true } }); h),
    0, by decide +kernel⟩,
   ⟨W.on (fun h => let h := h.modPort 0 (fun y => { y with state := .train }); h), 0, by decide +kernel⟩,
   ⟨W.on (fun h => let h := h.modPort 0 (fun y => { y with state := .measure }); let h := h.modPort 0 (fun y => { y with train := { y.train with partner := some ⟨64, 0, 0, 0, 0, 0, true, true, false, false, 0, 0⟩ } }); h),
    0, 0, 0, ⟨64, 0, 0, 0, 0, 0, true, true, false, false, 0, 0⟩, by decide +kernel⟩,
   ⟨W.on (fun h => let h := h.modPort 0 (fun y => { y with state := .measure }); let h := h.modPort 0 (fun y => { y with train := { y.train with partner := some ⟨64, 0, 0, 0, 0, 0, true, false, false, false, 0, 0⟩ } }); h),
    0, 0, 0, ⟨64, 0, 0, 0, 0, 0, true, false, false, false, 0, 0⟩, by decide +kernel⟩,
   ⟨W.on (fun h => let h := h.modPort 0 (fun y => { y with state := .measure }); let h := h.modPort 0 (fun y => { y with train := { y.train with partner := some ⟨64, 0, 0, 0, 0, 0, true, false, false, false, 0, 0⟩ } }); h),
    0, ⟨64, 0, 0, 0, 0, 0, true, false, false, false, 0, 0⟩, by decide +kernel⟩,
   ⟨W.on (fun h => let h := h.modPort 0 (fun y => { y with state := .train }); h), 0, 0,
    [⟨0, false⟩, ⟨1, false⟩, ⟨2, false⟩, ⟨0, false⟩, ⟨1, false⟩, ⟨2, false⟩, ⟨0, false⟩, ⟨1, false⟩], _, by decide +kernel,
    by decide +kernel, rfl, by decide +kernel⟩,
   ⟨(W.on id).hub, 0, 0, false, _, rfl⟩⟩

/-- States and operands that meet the hypotheses of `Obligations.LossAndControlMovePorts`, clause by clause. -/
theorem test_witness_LossAndControlMovePorts :
    (∃ (s : State) (p : Nat) (x : Hub), ((s.hub.port p).state = .up) ∧ ((s.hub.port p).rx.resting = false) ∧
      (x = (s.hub.modPort p (fun q => { q with rxDown := true })).sendStatuses p false 2)) ∧
    (∃ (s : State) (p lane : Nat) (seen : List Seen) (l : LaneRx) (x : Hub), ((s.hub.port p).state = .up) ∧ ((s.hub.port p).rx.resting = false) ∧
      (l = seen.foldl (fun l w => l.judge (s.hub.port p).rxShort true w.lead w.bad) ((s.hub.port p).rx.lane lane)) ∧
      (l.loses (s.hub.port p).rxShort = true) ∧
      (x = (s.hub.modPort p (fun q => { q with rx := q.rx.setLane lane l, rxDown := true })).sendStatuses p false 2)) ∧
    (∃ (s : State) (p lane : Nat) (seen : List Seen) (l : LaneRx), ((s.hub.port p).state = .train) ∧ (s.hub.locked p lane = true) ∧
      (l = seen.foldl (fun l w => l.judge (s.hub.port p).rxShort true w.lead w.bad) ((s.hub.port p).rx.lane lane)) ∧
      (l.loses (s.hub.port p).rxShort = true)) ∧
    (∃ (s : State) (p lane : Nat) (seen : List Seen) (l : LaneRx), ((s.hub.port p).state = .measure) ∧ (s.hub.locked p lane = true) ∧
      (l = seen.foldl (fun l w => l.judge (s.hub.port p).rxShort true w.lead w.bad) ((s.hub.port p).rx.lane lane)) ∧
      (l.loses (s.hub.port p).rxShort = true)) ∧
    (∃ (s : State) (p : Nat), ((s.hub.port p).state = .held)) ∧
    (∃ (s : State) (p : Nat), p < 3 ∧ ((s.hub.stored P.LN_ENABLE p 1).portAbsent p = false) ∧ ((s.hub.stored P.LN_ENABLE p 1).lnState p = .disabled)) ∧
    (∃ (s : State) (p : Nat) (x : Hub), p < 3 ∧ (x = (s.hub.stored P.LN_ENABLE p 0).pset P.LN_ENABLE p 0) ∧ (x.portAbsent p = false) ∧ (x.portUp p = true)) ∧
    (∃ (s : State) (p : Nat) (x : Hub), p < 3 ∧ (x = (s.hub.stored P.LN_ENABLE p 0).pset P.LN_ENABLE p 0) ∧ (x.portAbsent p = false) ∧
      (x.lnState p = .ident ∨ x.lnState p = .train ∨ x.lnState p = .held)) ∧
    (∃ (s : State) (p : Nat) (x : Hub), p < 3 ∧ (x = (s.hub.stored P.LN_RETRAIN p 1).modPort p (fun q => { q with train := { q.train with failed := [] } })) ∧
      (x.portAbsent p = false) ∧ (x.lnState p = .up)) ∧
    (∃ (s : State) (p : Nat) (x : Hub), p < 3 ∧ (x = (s.hub.stored P.LN_RETRAIN p 1).modPort p (fun q => { q with train := { q.train with failed := [] } })) ∧
      (x.portAbsent p = false) ∧ (x.lnState p = .held)) ∧
    (∃ (s : State) (v : Nat), (s.hub.isHead = true) ∧ v ≤ 1) :=
  ⟨⟨W.on (fun h => let h := h.modPort 0 (fun y => { y with state := .up }); let h := h.modPort 0 (fun y => { y with rx := { y.rx with resting := false } }); h),
    0, _, by decide +kernel, by decide +kernel, rfl⟩,
   ⟨W.on (fun h => let h := h.modPort 0 (fun y => { y with state := .up }); let h := h.modPort 0 (fun y => { y with rx := { y.rx with resting := false } }); h),
    0, 0, List.replicate 8 ⟨0, true⟩, _, _, by decide +kernel, by decide +kernel, rfl, by decide +kernel, rfl⟩,
   ⟨W.on (fun h => let h := h.modPort 0 (fun y => { y with state := .train }); let h := h.modPort 0 (fun y => { y with state := .train, train := { y.train with lock0 := true } }); h),
    0, 0, List.replicate 8 ⟨0, true⟩, _, by decide +kernel, by decide +kernel, rfl, by decide +kernel⟩,
   ⟨W.on (fun h => let h := h.modPort 0 (fun y => { y with state := .measure }); let h := h.modPort 0 (fun y => { y with state := .measure, train := { y.train with lock0 := true } }); h),
    0, 0, List.replicate 8 ⟨0, true⟩, _, by decide +kernel, by decide +kernel, rfl, by decide +kernel⟩,
   ⟨W.on (fun h => let h := h.modPort 0 (fun y => { y with state := .held }); h), 0, by decide +kernel⟩,
   ⟨W.on id, 2, by decide +kernel⟩,
   ⟨W.on (fun h => let h := h.modPort 2 (fun y => { y with state := .up }); let h := h.modPort 2 (fun y => { y with state := .up }); h), 2, _,
    by decide +kernel, rfl, by decide +kernel⟩,
   ⟨W.on (fun h => let h := h.modPort 0 (fun y => { y with state := .train }); h), 0, _, by decide +kernel, rfl, by decide +kernel⟩,
   ⟨W.on (fun h => let h := h.modPort 2 (fun y => { y with state := .up }); h), 2, _, by decide +kernel, rfl, by decide +kernel⟩,
   ⟨W.on (fun h => let h := h.modPort 0 (fun y => { y with state := .held }); h), 0, _, by decide +kernel, rfl, by decide +kernel⟩,
   ⟨W.on (fun h => let h : Hub := { h with straps := 5 }; h), 1, by decide +kernel⟩⟩

/-- States and operands that meet the hypotheses of `Obligations.SideFramesAndMonitoring`, clause by clause. -/
theorem test_witness_SideFramesAndMonitoring :
    (∃ (s : State) (p : Nat) (f : List Byte), (s.hub.portAbsent p = false) ∧ (s.hub.lnState p ≠ .disabled) ∧ (s.hub.lnState p ≠ .quiet)) ∧
    (∃ (h : Hub) (p : Nat), ((h.port p).state ≠ .measure)) ∧
    (∃ (s : State) (f : List Byte), (s.hub.isHead = true)) ∧
    (∃ (s : State) (p : Nat) (f : List Byte) (x : Hub), (x = s.hub.takeSide p 2 f) ∧ (x.portUp p = true) ∧ (bit (byteAt f 0) 7 = false) ∧ (bit (byteAt f 0) 6 = false) ∧ (bit (byteAt f 0) 5 = true)) ∧
    (∃ (s : State) (p : Nat) (f : List Byte) (x : Hub), (x = s.hub.takeSide p 2 f) ∧ (x.portUp p = true) ∧ (bit (byteAt f 0) 6 = true) ∧ (bit (byteAt f 0) 5 = true) ∧ ((x.port p).rx.badRun = 1)) ∧
    (∃ (s : State) (p f : Nat), (s.hub.portAbsent p = false) ∧ (sideGood f = false)) ∧
    (∃ (s : State) (p : Nat), (s.hub.portUp p = true)) ∧
    (∃ (s : State) (p lane v w : Nat), (s.hub.portUp p = true)) ∧
    (∃ (s : State) (p c n u : Nat) (x : Hub), (s.hub.portUp p = true) ∧ ((s.hub.port p).rx.degraded0 = false) ∧
      (x = (s.hub.pset P.LN_PRE_BER (2 * p) (min c 0xFFFFFFFF)).modPort p (fun q => { q with rx := { q.rx with degraded0 := true } })) ∧
      (s.hub.pset P.LN_PRE_BER (2 * p) (min c 0xFFFFFFFF)).pget P.LN_UNCORR_LIMIT p < u ∧
      ((x.event .linkDegraded [(0, 1, p), (1, 1, 0), (4, 4, min c 0xFFFFFFFF), (8, 4, min u 0xFFFFFFFF)]).pget P.LN_DEGRADE_ACTION p ≠ 1)) ∧
    (∃ (s : State) (p : Nat) (c : Cell), (s.hub.portUp p = true) ∧ (localGood c = false)) ∧
    (∃ (s : State), (s.hub.isHead = false) ∧ (s.hub.portUp 0 = true) ∧ (s.hub.portUp 1 = false) ∧ (s.hub.rl.tail = false)) :=
  ⟨⟨W.on (fun h => let h := h.modPort 0 (fun y => { y with state := .ident }); h), 0, [0x20#8], by decide +kernel⟩,
   ⟨(W.on id).hub, 0, by decide +kernel⟩,
   ⟨W.on (fun h => let h : Hub := { h with straps := 5 }; h), [], by decide +kernel⟩,
   ⟨W.on (fun h => let h := h.modPort 0 (fun y => { y with state := .up }); h), 0, [0x20#8], _, rfl, by decide +kernel⟩,
   ⟨W.on (fun h => let h := h.modPort 0 (fun y => { y with state := .up }); let h := h.modPort 0 (fun y => { y with rx := { y.rx with badRun := 1 } }); h),
    0, [0x60#8], _, rfl, by decide +kernel⟩,
   ⟨W.on id, 0, 1, by decide +kernel⟩,
   ⟨W.on (fun h => let h := h.modPort 0 (fun y => { y with state := .up }); h), 0, by decide +kernel⟩,
   ⟨W.on (fun h => let h := h.modPort 0 (fun y => { y with state := .up }); h), 0, 0, 0, 0, by decide +kernel⟩,
   ⟨W.on (fun h => let h := h.modPort 1 (fun y => { y with state := .up }); let h := h.modPort 1 (fun y => { y with rx := { y.rx with degraded0 := false } }); h),
    1, 0, 0, 300, _, by decide +kernel, by decide +kernel, rfl, by decide +kernel⟩,
   ⟨W.on (fun h => let h := h.modPort 0 (fun y => { y with state := .up }); h), 0, ⟨2, true, true, 0, 0, 0, 0, 0, false, 0, false, 8, []⟩,
    by decide +kernel⟩,
   ⟨W.on (fun h => let h : Hub := { h with straps := 0 }; let h := h.modPort 0 (fun y => { y with state := .up }); let h := h.modPort 1 (fun y => { y with state := .detect }); let h : Hub := { h with rl := { h.rl with tail := false } }; h),
    by decide +kernel⟩⟩

/-- States and operands that meet the hypotheses of `Obligations.DarnCommandsFollowTheRules`, clause by clause. -/
theorem test_witness_DarnCommandsFollowTheRules :
    (∃ (s : State) (p : Nat) (w : Words),
      (w.lane0.length ≠ wordBits (s.hub.port p).rxShort / (if isPam4 (s.hub.port p).rxMode then 2 else 1))) ∧
    (∃ (s : State) (p n at_ w0 w1 map : Nat) (w : Words) (pam short : Bool) (x : Hub) (a b : Hub × LaneWord) (g : Hub),
      (s.hub.portAbsent p = false) ∧ ((s.hub.port p).state ≠ .disabled) ∧ ((s.hub.port p).state ≠ .quiet) ∧
      (pam = isPam4 (s.hub.port p).rxMode) ∧ (short = (s.hub.port p).rxShort) ∧ (n = wordBits short / (if pam then 2 else 1)) ∧
      (w.lane0.length = n) ∧ (w.lane1.length = n) ∧ (map = (s.hub.port p).mapFor w) ∧ (w0 = pinWord w pam map 0) ∧
      (w1 = pinWord w pam map 1) ∧ (x = s.hub.modPort p (fun q => { q with train := { q.train with laneMap := map } })) ∧
      (at_ = (s.hub.port p).rx.lane0.place short (x.locked p 0) (w0 / 2 ^ (wordBits short - 2))) ∧ (a = x.laneWord p 0 w0) ∧
      (b = a.1.laneWord p 1 w1) ∧ (g = ((b.1.sideIn p at_ a.2.side b.2.side).relockLane p 0).relockLane p 1)) ∧
    (∃ (h : Hub) (p : Nat) (b : Block) (c : Scan), (h.portUp p = true) ∧ (h.darnOn p = false) ∧ (c = scanBlock (h.port p).rx.delin b (8 * (h.port p).rx.next))) ∧
    (∃ (h : Hub) (p : Nat) (b : Block), (h.portUp p = true) ∧ (h.darnOn p = true) ∧ (b.numbered = false) ∧ ((b.isReplay && decide (1 < wordBlocks (h.port p).rxShort)) = false)) ∧
    (∃ (h : Hub) (p : Nat) (b : Block) (c : Cell), (h.portUp p = true) ∧ (h.darnOn p = true) ∧ (b.isReplay = true) ∧ 1 < wordBlocks (h.port p).rxShort ∧ (cellOf (b.flits.take 2) = some c) ∧
      (localGood c = true)) ∧
    (∃ (h : Hub) (p : Nat) (b : Block), ((h.port p).rx.nakAt.isSome = true)) ∧
    (∃ (h : Hub) (p : Nat) (b : Block) (d : DarnScan), ((h.port p).rx.nakAt = none) ∧ p < h.ports.length ∧ (d = darnScan (h.port p).rx.delin b (8 * (h.port p).rx.next)) ∧ (d.failed = true)) ∧
    (∃ (s : State) (p : Nat), ((s.hub.port p).rx.next ≠ 0)) ∧
    (∃ (s : State) (p t : Nat), (s.hub.portUp p = true) ∧ ((s.hub.port p).rx.nakAt = some t)) ∧
    (∃ (s : State) (p seq : Nat) (b : Nat × List Flit),
      ((((s.hub.takeLocal p 1).port p).darn.stored).find? (fun b => b.1 % 65536 == seq % 65536) = some b)) ∧
    (∃ (s : State) (p seq reason : Nat) (b : Nat × List Flit), ((s.hub.takeLocal p 2).portUp p = true) ∧
      ((((s.hub.takeLocal p 2).port p).darn.stored).find? (fun b => b.1 % 65536 == seq % 65536) = some b)) ∧
    (∃ (s : State) (p seq : Nat), (((s.hub.takeLocal p 3).port p).rx.nakAt.isSome = true) ∧ (((s.hub.takeLocal p 3).port p).rx.next % 65536 = seq % 65536) ∧
      ((((s.hub.takeLocal p 3).port p).rx.starts).find? (fun t => t.1 == ((s.hub.takeLocal p 3).port p).rx.next) = none)) ∧
    (∃ (s : State) (p : Nat) (b : Nat × List Flit) (l : List (Nat × List Flit)), (s.hub.portUp p = true) ∧ ((s.hub.port p).darn.stored = b :: l)) :=
  ⟨⟨W.on id, 0, ⟨[], [], []⟩, by decide +kernel⟩,
   ⟨W.on (fun h => let h := h.modPort 0 (fun y => { y with state := .ident }); h), 0, _, _, _, _, _,
    ⟨List.replicate 544 1, List.replicate 544 1, []⟩, _, _, _, _, _, _, by decide +kernel, by decide +kernel, by decide +kernel, rfl, rfl,
    rfl, by decide +kernel, by decide +kernel, rfl, rfl, rfl, rfl, rfl, rfl, rfl, rfl⟩,
   ⟨(W.on (fun h => let h := h.modPort 0 (fun y => { y with state := .up }); h)).hub, 0, ⟨.clean, .clean, false, false, []⟩, _,
    by decide +kernel, by decide +kernel, rfl⟩,
   ⟨(W.on (fun h => let h := h.modPort 0 (fun y => { y with state := .up, train := { y.train with darnEn := 1 }, rx := { y.rx with darnOn := true } }); h)).hub,
    0, ⟨.clean, .clean, false, false, []⟩, by decide +kernel⟩,
   ⟨(W.on (fun h => let h := h.modPort 0 (fun y => { y with state := .up, train := { y.train with darnEn := 1 }, rx := { y.rx with darnOn := true } }); h)).hub,
    0, ⟨.clean, .clean, false, false, flitsOf (linkLocal 0 ([3#8] ++ W.z 7)) ++ List.replicate 6 []⟩, _,
    by decide +kernel, by decide +kernel, by decide +kernel, (by decide +kernel),
    (Option.some_get (by decide +kernel : Option.isSome _ = true)).symm, by decide +kernel⟩,
   ⟨(W.on (fun h => let h := h.modPort 0 (fun y => { y with rx := { y.rx with nakAt := some 0 } }); h)).hub, 0,
    ⟨.clean, .clean, false, false, []⟩, by decide +kernel⟩,
   ⟨(W.on id).hub, 0, ⟨.uncorrectable, .uncorrectable, false, true, List.replicate 8 []⟩, _, by decide +kernel, by decide +kernel, rfl,
    by decide +kernel⟩,
   ⟨W.on (fun h => let h := h.modPort 0 (fun y => { y with rx := { y.rx with next := 1 } }); h), 0, by decide +kernel⟩,
   ⟨W.on (fun h => let h := h.modPort 0 (fun y => { y with state := .up }); let h := h.modPort 0 (fun y => { y with rx := { y.rx with nakAt := some 0 } }); h),
    0, 0, by decide +kernel⟩,
   ⟨W.on (fun h => let h := h.modPort 0 (fun y => { y with rx := { y.rx with cells := [⟨0, true, true, 6, 0, 0, 0, 0, false, 0, false, 1, ([1#8] ++ W.z 7)⟩] } }); let h := h.modPort 0 (fun y => { y with darn := { y.darn with stored := [(0, [])] } }); h),
    0, 0, (0, []), by decide +kernel⟩,
   ⟨W.on (fun h => let h := h.modPort 0 (fun y => { y with state := .up }); let h := h.modPort 0 (fun y => { y with rx := { y.rx with cells := [⟨0, true, true, 6, 0, 0, 0, 0, false, 0, false, 1, ([2#8] ++ W.z 7)⟩] } }); let h := h.modPort 0 (fun y => { y with darn := { y.darn with stored := [(0, [])] } }); h),
    0, 0, 0, (0, []), by decide +kernel⟩,
   ⟨W.on (fun h => let h := h.modPort 0 (fun y => { y with rx := { y.rx with cells := [⟨0, true, true, 6, 0, 0, 0, 0, false, 0, false, 1, ([3#8] ++ W.z 7)⟩] } }); let h := h.modPort 0 (fun y => { y with rx := { y.rx with nakAt := some 0 } }); h),
    0, 0, by decide +kernel⟩,
   ⟨W.on (fun h => let h := h.modPort 0 (fun y => { y with state := .up }); let h := h.modPort 0 (fun y => { y with darn := { y.darn with stored := default :: [] } }); h),
    0, default, [], by decide +kernel⟩⟩

/-- States and operands that meet the hypotheses of `Obligations.IdentityEchoAndResetRequests`, clause by clause. -/
theorem test_witness_IdentityEchoAndResetRequests :
    (∃ (s : State) (q : Req) (a : Hub), (s.hub.asks q 0x0101 = true) ∧ (a = s.hub.asked q 0x0101) ∧ (q.payload = [])) ∧
    (∃ (s : State) (q : Req) (a : Hub), (s.hub.asks q 0x0101 = true) ∧ (a = s.hub.asked q 0x0101) ∧ (q.payload ≠ [])) ∧
    (∃ (s : State) (q : Req) (a : Hub), (s.hub.asks q 0x0106 = true) ∧ (a = s.hub.asked q 0x0106)) ∧
    (∃ (s : State) (q : Req) (a : Hub), (s.hub.asks q 0x0105 = true) ∧ (a = s.hub.asked q 0x0105) ∧ (q.payload = [])) ∧
    (∃ (s : State) (q : Req) (a : Hub), (s.hub.asks q 0x0105 = true) ∧ (a = s.hub.asked q 0x0105) ∧ (q.payload ≠ [])) ∧
    (∃ (s : State) (q : Req) (a : Hub) (l : List ParamDesc), (s.hub.asks q 0x0104 = true) ∧ (a = s.hub.asked q 0x0104) ∧ (q.payload.length = 2) ∧
      (l = allParams.filter (fun d => le q.payload 0 2 ≤ d.pid))) ∧
    (∃ (s : State) (q : Req) (a : Hub) (cmd : Nat), (s.hub.asks q cmd = true) ∧ (a = s.hub.asked q cmd) ∧ (q.txn = 0) ∧ (knownCode cmd = false)) :=
  ⟨⟨W.on id, (W.q [] 3 0), _, by decide +kernel, rfl, by decide +kernel⟩,
   ⟨W.on id, (W.q [0#8] 3 0), _, by decide +kernel, rfl, by decide +kernel⟩,
   ⟨W.on id, (W.q [] 3 0), _, by decide +kernel, rfl⟩,
   ⟨W.on id, (W.q [] 3 0), _, by decide +kernel, rfl, by decide +kernel⟩,
   ⟨W.on id, (W.q [0#8] 3 0), _, by decide +kernel, rfl, by decide +kernel⟩,
   ⟨W.on id, (W.q [0#8, 0#8] 3 0), _, _, by decide +kernel, rfl, by decide +kernel, rfl⟩,
   ⟨W.on id, (W.q [] 3 0), _, 0, by decide +kernel, rfl, by decide +kernel⟩⟩

/-- States and operands that meet the hypotheses of `Obligations.ParameterRequestsReadAndWrite`, clause by clause. -/
theorem test_witness_ParameterRequestsReadAndWrite :
    (∃ (s : State) (q : Req) (a : Hub), (s.hub.asks q 0x0102 = true) ∧ (a = s.hub.asked q 0x0102) ∧ (itemsGood q.payload = true) ∧
      (∀ i ∈ itemsOf q.payload, ∃ d, descOf i.pid = some d ∧ i.inst < d.count ∧ d.first ≤ i.inst ∧ d.access ≠ .wo ∧ d.access ≠ .rc)) ∧
    (∃ (s : State) (q : Req) (a : Hub), (s.hub.asks q 0x0102 = true) ∧ (a = s.hub.asked q 0x0102) ∧ (itemsGood q.payload = true)) ∧
    (∃ (s : State) (q : Req) (a : Hub), (s.hub.asks q 0x0102 = true) ∧ (a = s.hub.asked q 0x0102) ∧ (itemsGood q.payload = false)) ∧
    (∃ (s : State) (q : Req) (a : Hub) (o : List Status × Plan) (x : Hub), (s.hub.asks q 0x0103 = true) ∧ (a = s.hub.asked q 0x0103) ∧ (q.txn = 0) ∧ (itemsGood q.payload = true) ∧
      (o = a.setOutcomes q.mb (itemsOf q.payload)) ∧ (∀ y ∈ o.1, y = Status.ok) ∧
      (x = ({ a with ctl := { a.ctl with pairs := o.2.opens } } : Hub).applyChange ⟨o.2.apply, [], []⟩)) ∧
    (∃ (s : State) (q : Req) (a : Hub) (o : List Status × Plan), (s.hub.asks q 0x0103 = true) ∧ (a = s.hub.asked q 0x0103) ∧ (q.txn = 0) ∧ (itemsGood q.payload = true) ∧
      (o = a.setOutcomes q.mb (itemsOf q.payload)) ∧ ((¬ ∀ y ∈ o.1, y = Status.ok))) ∧
    (∃ (s : State) (q : Req) (a : Hub) (t : Txn) (x : Hub), (s.hub.asks q 0x0103 = true) ∧ (a = (s.hub.asked q 0x0103).touchTxn (reqOn q 0x0103)) ∧ (itemsGood q.payload = true) ∧
      (a.ownTxn q.mb q.txn = some t) ∧ (t.sched = none) ∧ (q.txn ≠ 0) ∧
      (∀ y ∈ ((itemsOf q.payload).map formOf).map (a.stageOutcome (a.viewOf (t.with_ (goodItems ((itemsOf q.payload).map formOf)) [] [])) q.mb t.id), y = Status.ok) ∧
      (a.stage t (goodItems ((itemsOf q.payload).map formOf)) [] [] = some x)) :=
  ⟨⟨W.on id, (W.q [0x01#8, 0x01#8, 0#8, 0#8, 0#8, 0#8, 0#8, 0#8, 3#8, 0#8, 0#8, 0#8, 0#8, 0#8, 0#8, 0#8] 3 0), _, by decide +kernel, rfl,
    by decide +kernel,
    by intro i hi; have e : itemsOf (W.q [0x01#8, 0x01#8, 0#8, 0#8, 0#8, 0#8, 0#8, 0#8, 3#8, 0#8, 0#8, 0#8, 0#8, 0#8, 0#8, 0#8] 3 0).payload = [⟨0x0101, 0, 3⟩] := (by decide +kernel); rw [e, List.mem_singleton] at hi; subst hi; exact ⟨_, rfl, by decide, by decide, by decide, by decide⟩⟩,
   ⟨W.on id, (W.q [0x01#8, 0x01#8, 0#8, 0#8, 0#8, 0#8, 0#8, 0#8, 3#8, 0#8, 0#8, 0#8, 0#8, 0#8, 0#8, 0#8] 3 0), _, by decide +kernel, rfl,
    by decide +kernel⟩,
   ⟨W.on id, (W.q [] 3 0), _, by decide +kernel, rfl, by decide +kernel⟩,
   ⟨W.on id, (W.q [0x01#8, 0x01#8, 0#8, 0#8, 0#8, 0#8, 0#8, 0#8, 3#8, 0#8, 0#8, 0#8, 0#8, 0#8, 0#8, 0#8] 3 0), _, _, _, by decide +kernel, rfl,
    by decide +kernel, by decide +kernel, rfl, by decide +kernel, rfl⟩,
   ⟨W.on id, (W.q [0xFE#8, 0xFF#8, 0#8, 0#8, 0#8, 0#8, 0#8, 0#8, 3#8, 0#8, 0#8, 0#8, 0#8, 0#8, 0#8, 0#8] 3 0), _, _, by decide +kernel, rfl,
    by decide +kernel, by decide +kernel, rfl, by decide +kernel⟩,
   ⟨W.on (fun h => let h : Hub := { h with ctl := { h.ctl with txns := [⟨1, 3, none, [], [], [], 0⟩] } }; h),
    (W.q [0x01#8, 0x01#8, 0#8, 0#8, 0#8, 0#8, 0#8, 0#8, 3#8, 0#8, 0#8, 0#8, 0#8, 0#8, 0#8, 0#8] 3 1), _, ⟨1, 3, none, [], [], [], 0⟩, _,
    by decide +kernel, rfl, by decide +kernel, by decide +kernel, by decide +kernel, (by decide +kernel), by decide +kernel, rfl⟩⟩

/-- States and operands that meet the hypotheses of `Obligations.TransactionRequests`, clause by clause. -/
theorem test_witness_TransactionRequests :
    (∃ (s : State) (q : Req) (a : Hub), (s.hub.asks q 0x0201 = true) ∧ (a = s.hub.asked q 0x0201) ∧ (q.payload = []) ∧ (a.ctl.txns.any (fun t => t.mb == q.mb) = false)) ∧
    (∃ (s : State) (q : Req) (a : Hub), (s.hub.asks q 0x0201 = true) ∧ (a = s.hub.asked q 0x0201) ∧ (q.payload = []) ∧ (a.ctl.txns.any (fun t => t.mb == q.mb) = true)) ∧
    (∃ (s : State) (q : Req) (a : Hub) (t : Txn) (x : Hub), (s.hub.asks q 0x0202 = true) ∧ (a = (s.hub.asked q 0x0202).touchTxn (reqOn q 0x0202)) ∧ (q.payload = []) ∧ (a.ownTxn q.mb q.txn = some t) ∧
      (t.sched = none) ∧ (a.failing t = none) ∧ (a.cmdFailing t = none) ∧ (a.touchedScans t = []) ∧ (a.touched t = []) ∧
      (x = a.applyChange ⟨t.items, t.entries, t.cmds⟩)) ∧
    (∃ (s : State) (q : Req) (a : Hub) (t : Txn) (x : Hub), (s.hub.asks q 0x0202 = true) ∧ (a = (s.hub.asked q 0x0202).touchTxn (reqOn q 0x0202)) ∧ (q.payload = []) ∧ (a.ownTxn q.mb q.txn = some t) ∧
      (t.sched = none) ∧ (a.failing t = none) ∧ (a.cmdFailing t = none) ∧ (a.touchedScans t = []) ∧ (a.touched t ≠ []) ∧
      (x = a.applyChange ⟨t.items, t.entries, t.cmds⟩)) ∧
    (∃ (s : State) (q : Req) (a : Hub) (t : Txn), (s.hub.asks q 0x0202 = true) ∧ (a = (s.hub.asked q 0x0202).touchTxn (reqOn q 0x0202)) ∧ (q.payload = []) ∧ (a.ownTxn q.mb q.txn = some t) ∧
      (t.sched = none) ∧ (a.failing t = none) ∧ (a.cmdFailing t = none) ∧ (a.touchedScans t ≠ []) ∧ a.ctl.ops.length < 16) ∧
    (∃ (s : State) (q : Req) (a : Hub) (t : Txn) (f : Failing), (s.hub.asks q 0x0202 = true) ∧ (a = (s.hub.asked q 0x0202).touchTxn (reqOn q 0x0202)) ∧ (q.payload = []) ∧ (a.ownTxn q.mb q.txn = some t) ∧
      (t.sched = none) ∧ (a.failing t = some f)) ∧
    (∃ (s : State) (q : Req) (a : Hub) (t : Txn), (s.hub.asks q 0x0203 = true) ∧ (a = (s.hub.asked q 0x0203).touchTxn (reqOn q 0x0203)) ∧ (q.payload.length = 8) ∧
      (a.ownTxn q.mb q.txn = some t) ∧ (t.sched = none) ∧ (a.failing t = none) ∧ (a.cmdFailing t = none) ∧
      (a.timeRefusal (le q.payload 0 8) = none) ∧ a.ctl.ops.length < 16) ∧
    (∃ (s : State) (q : Req) (a : Hub) (t : Txn), (s.hub.asks q 0x0204 = true) ∧ (a = (s.hub.asked q 0x0204).touchTxn (reqOn q 0x0204)) ∧ (q.payload = []) ∧ (a.ownTxn q.mb q.txn = some t) ∧
      (t.sched = none)) ∧
    (∃ (s : State) (q : Req) (a : Hub) (t : Txn) (z : Schedule), (s.hub.asks q 0x0204 = true) ∧ (a = (s.hub.asked q 0x0204).touchTxn (reqOn q 0x0204)) ∧ (q.payload = []) ∧ (a.ownTxn q.mb q.txn = some t) ∧
      (t.sched = some z) ∧ a.clk.ns + us 50 ≤ z.instant) ∧
    (∃ (s : State) (q : Req) (a : Hub) (t : Txn) (z : Schedule), (s.hub.asks q 0x0204 = true) ∧ (a = (s.hub.asked q 0x0204).touchTxn (reqOn q 0x0204)) ∧ (q.payload = []) ∧ (a.ownTxn q.mb q.txn = some t) ∧
      (t.sched = some z) ∧ z.instant < a.clk.ns + us 50) ∧
    (∃ (s : State) (q : Req) (a : Hub) (t : Txn), (s.hub.asks q 0x0205 = true) ∧ (a = (s.hub.asked q 0x0205).touchTxn (reqOn q 0x0205)) ∧ (q.payload = []) ∧ (a.ownTxn q.mb q.txn = some t)) ∧
    (∃ (s : State) (q : Req) (a : Hub) (t : TxnRecord), (s.hub.asks q 0x0205 = true) ∧ (a = (s.hub.asked q 0x0205).touchTxn (reqOn q 0x0205)) ∧ (q.payload = []) ∧ (a.ownTxn q.mb q.txn = none) ∧
      (a.ctl.doneTxns.find? (fun t => t.id == q.txn && t.mb == q.mb) = some t)) ∧
    (∃ (s : State) (mb : Nat) (t : Txn),
      (s.hub.ctl.txns.find? (fun t => t.mb == mb && t.sched.isNone) = some t) ∧ (t.sched = none)) ∧
    (∃ (s : State) (mb i : Nat) (t : Txn) (z : Schedule) (o : LongOp) (x y : Hub),
      (s.hub.ctl.txns.find? (fun t => t.mb == mb && t.sched.isSome) = some t) ∧ (t.sched = some z) ∧ (s.hub.op z.token = some o) ∧
      (o.work = .scheduled i) ∧ (x = s.hub.untilLine z.instant) ∧ (y = x.applyChange ⟨t.items, t.entries, t.cmds⟩) ∧ (x.touched t = []) ∧
      (Hub.mustDrain x y = false)) ∧
    (∃ (s : State) (mb i : Nat) (t : Txn) (z : Schedule) (o : LongOp) (x y : Hub),
      (s.hub.ctl.txns.find? (fun t => t.mb == mb && t.sched.isSome) = some t) ∧ (t.sched = some z) ∧ (s.hub.op z.token = some o) ∧
      (o.work = .scheduled i) ∧ (x = s.hub.untilLine z.instant) ∧ (y = x.applyChange ⟨t.items, t.entries, t.cmds⟩) ∧ (x.touched t ≠ [])) ∧
    (∃ (s : State) (token id at_ : Nat) (us : List WorkUnit) (o : LongOp), (s.hub.op token = some o) ∧ (o.work = .commit id us at_) ∧ (us.filter s.hub.runs = []) ∧
      (s.hub.ag.drains.any (fun d => d.reply == some (.step o.token o.cmd)) = false)) ∧
    (∃ (s : State) (token id at_ : Nat) (us : List WorkUnit) (o : LongOp), (s.hub.op token = some o) ∧ (o.work = .commit id us at_) ∧ (us.filter s.hub.runs ≠ [])) :=
  ⟨⟨W.on id, (W.q [] 3 0), _, by decide +kernel, rfl, by decide +kernel⟩,
   ⟨W.on (fun h => let h : Hub := { h with ctl := { h.ctl with txns := [⟨1, 3, none, [], [], [], 0⟩] } }; h), (W.q [] 3 0), _,
    by decide +kernel, rfl, by decide +kernel⟩,
   ⟨W.on (fun h => let h : Hub := { h with ctl := { h.ctl with txns := [⟨1, 3, none, [], [], [], 0⟩] } }; h), (W.q [] 3 1), _,
    ⟨1, 3, none, [], [], [], 0⟩, _, by decide +kernel, rfl, by decide +kernel, by decide +kernel, by decide +kernel, (by decide +kernel),
    by decide +kernel, by decide +kernel, by decide +kernel, rfl⟩,
   ⟨W.on (fun h => let h : Hub := { h with ctl := { h.ctl with txns := [⟨1, 3, none, [⟨0x0903, 0, 0⟩], [], [], 0⟩] } }; let h := h.modUsb 0 (fun y => { y with xfers := [⟨0, 0, 0, 0, 0, 0, [], [], true⟩] }); h),
    (W.q [] 3 1), _, ⟨1, 3, none, [⟨0x0903, 0, 0⟩], [], [], 0⟩, _, by decide +kernel, rfl, by decide +kernel, by decide +kernel,
    by decide +kernel, (by decide +kernel), by decide +kernel, by decide +kernel, by decide +kernel, rfl⟩,
   ⟨W.on (fun h => let h : Hub := { h with ctl := { h.ctl with txns := [⟨1, 3, none, [⟨0x0C00, 0, 0⟩], [], [], 0⟩] } }; let h := h.modHead 0 (fun y => { y with scan := some ⟨0, none, 0, false, 0, 0, 0, 0, 0, 0⟩ }); h),
    (W.q [] 3 1), _, ⟨1, 3, none, [⟨0x0C00, 0, 0⟩], [], [], 0⟩, by decide +kernel, rfl, by decide +kernel⟩,
   ⟨W.on (fun h => let h : Hub := { h with ctl := { h.ctl with txns := [⟨1, 3, none, [⟨P.RL_TIME_STEP, 0, 0⟩], [], [], 0⟩] } }; h),
    (W.q [] 3 1), _, ⟨1, 3, none, [⟨P.RL_TIME_STEP, 0, 0⟩], [], [], 0⟩, ⟨.denied, 0, 0, P.RL_TIME_STEP, 0⟩, by decide +kernel, rfl,
    by decide +kernel⟩,
   ⟨W.on (fun h => let h : Hub := { h with ctl := { h.ctl with txns := [⟨1, 3, none, [], [], [], 0⟩] } }; h),
    (W.q ([160#8, 134#8, 1#8] ++ W.z 5) 3 1), _, ⟨1, 3, none, [], [], [], 0⟩, by decide +kernel, rfl, by decide +kernel⟩,
   ⟨W.on (fun h => let h : Hub := { h with ctl := { h.ctl with txns := [⟨1, 3, none, [], [], [], 0⟩] } }; h), (W.q [] 3 1), _,
    ⟨1, 3, none, [], [], [], 0⟩, by decide +kernel, rfl, by decide +kernel⟩,
   ⟨W.on (fun h => let h : Hub := { h with ctl := { h.ctl with txns := [⟨1, 3, some ⟨1000000, 1000000, 1⟩, [], [], [], 0⟩] } }; h),
    (W.q [] 3 1), _, ⟨1, 3, some ⟨1000000, 1000000, 1⟩, [], [], [], 0⟩, ⟨1000000, 1000000, 1⟩, by decide +kernel, rfl, by decide +kernel⟩,
   ⟨W.on (fun h => let h : Hub := { h with ctl := { h.ctl with txns := [⟨1, 3, some ⟨49999, 49999, 1⟩, [], [], [], 0⟩] } }; h), (W.q [] 3 1),
    _, ⟨1, 3, some ⟨49999, 49999, 1⟩, [], [], [], 0⟩, ⟨49999, 49999, 1⟩, by decide +kernel, rfl, by decide +kernel⟩,
   ⟨W.on (fun h => let h : Hub := { h with ctl := { h.ctl with txns := [⟨1, 3, none, [], [], [], 0⟩] } }; h), (W.q [] 3 1), _,
    ⟨1, 3, none, [], [], [], 0⟩, by decide +kernel, rfl, by decide +kernel⟩,
   ⟨W.on (fun h => let h : Hub := { h with ctl := { h.ctl with doneTxns := [⟨1, 3, true, 0, 0, 0⟩] } }; h), (W.q [] 3 1), _,
    ⟨1, 3, true, 0, 0, 0⟩, by decide +kernel, rfl, by decide +kernel⟩,
   ⟨W.on (fun h => let h : Hub := { h with ctl := { h.ctl with txns := [⟨1, 3, none, [], [], [], 0⟩] } }; h), 3, ⟨1, 3, none, [], [], [], 0⟩,
    by decide +kernel⟩,
   ⟨W.on (fun h => let h : Hub := { h with ctl := { h.ctl with txns := [⟨1, 3, some ⟨1000000, 1000000, 1⟩, [], [], [], 0⟩] } }; let h : Hub := { h with ctl := { h.ctl with ops := [⟨1, 0x0203, 3, 0, .scheduled 1⟩] } }; h),
    3, 1, ⟨1, 3, some ⟨1000000, 1000000, 1⟩, [], [], [], 0⟩, ⟨1000000, 1000000, 1⟩, ⟨1, 0x0203, 3, 0, .scheduled 1⟩, _, _,
    by decide +kernel, by decide +kernel, by decide +kernel, (by decide +kernel), rfl, rfl, by decide +kernel⟩,
   ⟨W.on (fun h => let h : Hub := { h with ctl := { h.ctl with txns := [⟨1, 3, some ⟨1000000, 1000000, 1⟩, [⟨0x0C00, 0, 0⟩], [], [], 0⟩] } }; let h : Hub := { h with ctl := { h.ctl with ops := [⟨1, 0x0203, 3, 0, .scheduled 1⟩] } }; let h := h.modHead 0 (fun y => { y with scan := some ⟨0, none, 0, false, 0, 0, 0, 0, 0, 0⟩ }); h),
    3, 1, ⟨1, 3, some ⟨1000000, 1000000, 1⟩, [⟨0x0C00, 0, 0⟩], [], [], 0⟩, ⟨1000000, 1000000, 1⟩, ⟨1, 0x0203, 3, 0, .scheduled 1⟩, _, _,
    by decide +kernel, by decide +kernel, by decide +kernel, (by decide +kernel), rfl, rfl, by decide +kernel⟩,
   ⟨W.on (fun h => let h : Hub := { h with ctl := { h.ctl with ops := [⟨1, 0x0203, 3, 0, .commit 1 [] 0⟩] } }; h), 1, 1, 0, [],
    ⟨1, 0x0203, 3, 0, .commit 1 [] 0⟩, by decide +kernel⟩,
   ⟨W.on (fun h => let h : Hub := { h with ctl := { h.ctl with ops := [⟨1, 0x0203, 3, 0, .commit 1 [.scan 0] 0⟩] } }; let h := h.modHead 0 (fun y => { y with scan := some ⟨0, none, 0, false, 0, 0, 0, 0, 0, 0⟩ }); h),
    1, 1, 0, [.scan 0], ⟨1, 0x0203, 3, 0, .commit 1 [.scan 0] 0⟩, by decide +kernel⟩⟩

/-- States and operands that meet the hypotheses of `Obligations.StepRequestsAndLongOperations`, clause by clause. -/
theorem test_witness_StepRequestsAndLongOperations :
    (∃ (s : State) (q : Req) (a : Hub) (o : LongOp), (s.hub.asks q 0x0301 = true) ∧ (a = s.hub.asked q 0x0301) ∧ (q.payload.length = 4) ∧ (a.op (le q.payload 0 4) = some o)) ∧
    (∃ (s : State) (q : Req) (a : Hub) (o : OpRecord), (s.hub.asks q 0x0301 = true) ∧ (a = s.hub.asked q 0x0301) ∧ (q.payload.length = 4) ∧ (a.op (le q.payload 0 4) = none) ∧
      (a.ctl.doneOps.find? (fun o => o.token == le q.payload 0 4) = some o)) ∧
    (∃ (s : State) (q : Req) (a : Hub), (s.hub.asks q 0x0301 = true) ∧ (a = s.hub.asked q 0x0301) ∧ (q.payload.length = 4) ∧ (a.op (le q.payload 0 4) = none) ∧
      (a.ctl.doneOps.find? (fun o => o.token == le q.payload 0 4) = none)) ∧
    (∃ (s : State) (q : Req) (a : Hub) (o : LongOp) (p : List Byte) (t : Nat), (s.hub.asks q 0x0302 = true) ∧ (a = s.hub.asked q 0x0302) ∧ (q.payload.length = 4) ∧ (a.op (le q.payload 0 4) = some o) ∧ (o.mb = q.mb) ∧
      (o.work = .tableClear p t)) ∧
    (∃ (s : State) (q : Req) (a : Hub) (o : LongOp), (s.hub.asks q 0x0302 = true) ∧ (a = s.hub.asked q 0x0302) ∧ (q.payload.length = 4) ∧ (a.op (le q.payload 0 4) = some o) ∧ (o.mb ≠ q.mb)) ∧
    (∃ (s : State) (x y : Hub) (o : LongOp) (l : List LongOp) (p : List Byte) (t n : Nat),
      (x = [0, 1, 2, 3].foldl (fun h m => h.serveOne m Hub.runCode) s.hub) ∧ (x.ctl.ops = o :: l) ∧
      (y = { x with ctl := { x.ctl with ops := l ++ [o] } }) ∧ (y.op o.token = some o) ∧ (o.work = .tableClear p t) ∧
      (s.hub.running 10 = true)) ∧
    (∃ (s : State) (x y : Hub) (o : LongOp) (l : List LongOp) (b n : Nat),
      (x = [0, 1, 2, 3].foldl (fun h m => h.serveOne m Hub.runCode) s.hub) ∧ (x.ctl.ops = o :: l) ∧
      (y = { x with ctl := { x.ctl with ops := l ++ [o] } }) ∧ (y.op o.token = some o) ∧ (o.work = .bankCheck b) ∧ (s.hub.running 10 = true)) ∧
    (∃ (s : State) (n : Nat), (s.hub.running 10 = false)) ∧
    (∃ (s : State) (pid inst : Nat) (o : OpenPair) (x : Hub),
      (s.hub.ctl.pairs.find? (fun o => o.pid == pid && o.inst == inst) = some o) ∧
      (x = s.hub.until (o.since + ms (s.hub.pget P.MG_PAIR_TIMEOUT 0)))) :=
  ⟨⟨W.on (fun h => let h : Hub := { h with ctl := { h.ctl with ops := [⟨1, 0, 3, 0, .tableClear [] 0⟩] } }; h), (W.q [1#8, 0#8, 0#8, 0#8] 3 0),
    _, ⟨1, 0, 3, 0, .tableClear [] 0⟩, by decide +kernel, rfl, by decide +kernel⟩,
   ⟨W.on (fun h => let h : Hub := { h with ctl := { h.ctl with doneOps := [⟨1, 3, 1, 0⟩] } }; h), (W.q [1#8, 0#8, 0#8, 0#8] 3 0), _,
    ⟨1, 3, 1, 0⟩, by decide +kernel, rfl, by decide +kernel⟩,
   ⟨W.on id, (W.q [0#8, 0#8, 0#8, 0#8] 3 0), _, by decide +kernel, rfl, by decide +kernel⟩,
   ⟨W.on (fun h => let h : Hub := { h with ctl := { h.ctl with ops := [⟨1, 0, 3, 0, .tableClear [] 0⟩] } }; h), (W.q [1#8, 0#8, 0#8, 0#8] 3 0),
    _, ⟨1, 0, 3, 0, .tableClear [] 0⟩, [], 0, by decide +kernel, rfl, by decide +kernel⟩,
   ⟨W.on (fun h => let h : Hub := { h with ctl := { h.ctl with ops := [⟨1, 0, 2, 0, .tableClear [] 0⟩] } }; h), (W.q [1#8, 0#8, 0#8, 0#8] 3 0),
    _, ⟨1, 0, 2, 0, .tableClear [] 0⟩, by decide +kernel, rfl, by decide +kernel⟩,
   ⟨W.on (fun h => let h : Hub := { h with ctl := { h.ctl with ops := (⟨1, 0, 3, 0, .tableClear [] 0⟩) :: [] } }; let h : Hub := { h with ctl := { h.ctl with ops := [⟨1, 0, 3, 0, .tableClear [] 0⟩] } }; h),
    _, _, ⟨1, 0, 3, 0, .tableClear [] 0⟩, [], [], 0, 0, rfl, by decide +kernel, rfl, by decide +kernel⟩,
   ⟨W.on (fun h => let h : Hub := { h with ctl := { h.ctl with ops := (⟨1, 0, 3, 0, .bankCheck 0⟩) :: [] } }; let h : Hub := { h with ctl := { h.ctl with ops := [⟨1, 0, 3, 0, .bankCheck 0⟩] } }; h),
    _, _, ⟨1, 0, 3, 0, .bankCheck 0⟩, [], 0, 0, rfl, by decide +kernel, rfl, by decide +kernel⟩,
   ⟨W.on (fun h => let h := h.modIsland 10 (fun y => { y with clock := false }); h), 0, by decide +kernel⟩,
   ⟨W.on (fun h => let h : Hub := { h with ctl := { h.ctl with pairs := [⟨0, 0, 0, 3, 0⟩] } }; h), 0, 0, ⟨0, 0, 0, 3, 0⟩, _, by decide +kernel,
    rfl⟩⟩

/-- States and operands that meet the hypotheses of `Obligations.HostRegistersAndRings`, clause by clause. -/
theorem test_witness_HostRegistersAndRings :
    (∃ (s : State) (o size v : Nat), (size ≠ 4)) ∧
    (∃ (s : State) (o v : Nat), (o % 4 ≠ 0)) ∧
    (∃ (s : State) (mb : Nat), ((s.hub.island 10).powered = true) ∧ ((s.hub.island 10).inReset = false)) ∧
    (∃ (s : State) (mb : Nat), (s.hub.reach.ctl.txns.find? (fun t => t.mb == mb) = none)) ∧
    (∃ (s : State) (mb idx : Nat), (mb = 1 ∨ mb = 2)) ∧
    (∃ (s : State) (bs : List Byte), ((s.hub.mb 0).held = some bs) ∧ (s.hub.canSend 0 (some (s.hub.mb 0).heldEntry) = true)) ∧
    (∃ (s : State), (s.hub.mg.ready = true) ∧ ((s.hub.island 10).clock = true)) :=
  ⟨⟨W.on id, 0, 0, 0, by decide +kernel⟩,
   ⟨W.on id, 1, 0, by decide +kernel⟩,
   ⟨W.on (fun h => let h := h.modIsland 10 (fun y => { y with powered := true }); let h := h.modIsland 10 (fun y => { y with inReset := false }); h),
    0, by decide +kernel⟩,
   ⟨W.on id, 0, by decide +kernel⟩,
   ⟨W.on id, 2, 65535, by decide +kernel⟩,
   ⟨W.on (fun h => let h := h.modMb 0 (fun y => { y with held := some [] }); let h : Hub := { h with svcHost := true }; let h : Hub := { h with rl := { h.rl with idValid := true } }; let h := h.modMb 0 (fun y => { y with heldEntry := 3 }); let h := h.tset 1 3 2315255808; h),
    [], by decide +kernel⟩,
   ⟨W.on (fun h => let h : Hub := { h with mg := { h.mg with ready := true } }; let h := h.modIsland 10 (fun y => { y with clock := true }); h),
    by decide +kernel⟩⟩

/-- States and operands that meet the hypotheses of `Obligations.TableRequests`, clause by clause. -/
theorem test_witness_TableRequests :
    (∃ (s : State) (q : Req) (a : Hub), (s.hub.asks q 0x0401 = true) ∧ (a = s.hub.asked q 0x0401) ∧ (tablePrefix (reqOn q 0x0401) (fun _ _ => 0) = none) ∧
      8 + le q.payload 4 2 * entrySize (le q.payload 0 1) ≤ 4080) ∧
    (∃ (s : State) (q : Req) (a : Hub) (es : List TableItem), (s.hub.asks q 0x0402 = true) ∧ (a = s.hub.asked q 0x0402) ∧ (q.txn = 0) ∧ (tablePrefix (reqOn q 0x0402) (fun n size => n * size) = none) ∧
      (a.txn 0 = none) ∧ (es = entriesOf (le q.payload 0 1) (le q.payload 2 2) (le q.payload 4 2) (q.payload.drop 8)) ∧
      (a.entriesRefusal (a.overlay [] es) q.mb 0 es = none)) ∧
    (∃ (s : State) (q : Req) (a : Hub) (es : List TableItem) (f : Status) (d : Nat),
      (s.hub.asks q 0x0402 = true) ∧ (a = s.hub.asked q 0x0402) ∧ (q.txn = 0) ∧ (tablePrefix (reqOn q 0x0402) (fun n size => n * size) = none) ∧
      (a.txn 0 = none) ∧ (es = entriesOf (le q.payload 0 1) (le q.payload 2 2) (le q.payload 4 2) (q.payload.drop 8)) ∧
      (a.entriesRefusal (a.overlay [] es) q.mb 0 es = some (f, d)) ∧ (f ≠ .ok)) ∧
    (∃ (s : State) (q : Req) (a : Hub) (es : List TableItem) (t : Txn) (x : Hub), (s.hub.asks q 0x0402 = true) ∧ (a = (s.hub.asked q 0x0402).touchTxn (reqOn q 0x0402)) ∧
      (tablePrefix (reqOn q 0x0402) (fun n size => n * size) = none) ∧ (q.txn ≠ 0) ∧ (a.ownTxn q.mb q.txn = some t) ∧ (t.sched = none) ∧
      (a.txn t.id = some t) ∧ (es = entriesOf (le q.payload 0 1) (le q.payload 2 2) (le q.payload 4 2) (q.payload.drop 8)) ∧
      (a.entriesRefusal (a.viewOf (t.with_ [] es [])) q.mb t.id es = none) ∧ (a.stage t [] es [] = some x)) ∧
    (∃ (s : State) (q : Req) (a : Hub), (s.hub.asks q 0x0403 = true) ∧ (a = (s.hub.asked q 0x0403).touchTxn (reqOn q 0x0403)) ∧ a.ctl.ops.length < 16) ∧
    (∃ (s : State) (q : Req) (a : Hub), (s.hub.asks q 0x0404 = true) ∧ (a = (s.hub.asked q 0x0404).touchTxn (reqOn q 0x0404)) ∧ a.ctl.ops.length < 16) ∧
    (∃ (s : State) (token : Nat) (o : LongOp) (p : List Byte) (t e : Nat) (x y : Hub),
      (y = [0, 1, 2, 3].foldl (fun h m => h.serveOne m Hub.runCode) s.hub) ∧ (y.op token = some o) ∧ (o.work = .tableLoad p t e) ∧
      (x = y.fillDone) ∧ ((x.loadOutcome o.mb p t e).2.1 = .ok) ∧ (Hub.mustDrain x (x.loadOutcome o.mb p t e).1 = false)) ∧
    (∃ (s : State) (token : Nat) (o : LongOp) (p : List Byte) (t e : Nat) (x y : Hub),
      (y = [0, 1, 2, 3].foldl (fun h m => h.serveOne m Hub.runCode) s.hub) ∧ (y.op token = some o) ∧ (o.work = .tableLoad p t e) ∧
      (x = y.fillDone) ∧ ((x.loadOutcome o.mb p t e).2.1 ≠ .ok)) :=
  ⟨⟨W.on id, (W.q [1#8, 0#8, 255#8, 3#8, 1#8, 0#8, 0#8, 0#8] 3 0), _, by decide +kernel, rfl, by decide +kernel⟩,
   ⟨W.on id,
    (W.q ([33#8, 0#8, 255#8, 3#8, 1#8] ++ W.z 19) 3 0),
    _, _, by decide +kernel, rfl, by decide +kernel, by decide +kernel, by decide +kernel, rfl, by decide +kernel⟩,
   ⟨W.on id,
    (W.q ([2#8, 0#8, 0#8, 0#8, 1#8] ++ W.z 35) 3 0),
    _, _, .denied, 0, by decide +kernel, rfl, by decide +kernel, by decide +kernel, by decide +kernel, rfl, by decide +kernel⟩,
   ⟨W.on (fun h => let h : Hub := { h with ctl := { h.ctl with txns := [⟨1, 3, none, [], [], [], 0⟩] } }; h),
    (W.q ([33#8, 0#8, 255#8, 3#8, 1#8] ++ W.z 19) 3 1),
    _, _, ⟨1, 3, none, [], [], [], 0⟩, _, by decide +kernel, rfl, by decide +kernel, by decide +kernel, by decide +kernel,
    (by decide +kernel), by decide +kernel, rfl, by decide +kernel, rfl⟩,
   ⟨W.on id, (W.q [] 3 0), _, by decide +kernel, rfl, by decide +kernel⟩,
   ⟨W.on id, (W.q [] 3 0), _, by decide +kernel, rfl, by decide +kernel⟩,
   ⟨W.on (fun h => let h : Hub := { h with ctl := { h.ctl with ops := [⟨1, 0x0403, 3, 0, .tableLoad ([33#8, 0#8, 5#8, 0#8, 1#8] ++ W.z 11 ++ [234#8, 154#8, 112#8, 66#8, 0#8, 0#8, 0#8, 0#8]) 0 1024⟩] } }; let h := h.pset P.BR_MEMT_SIZE 0 1048576; h),
    1,
    ⟨1, 0x0403, 3, 0, .tableLoad ([33#8, 0#8, 5#8, 0#8, 1#8] ++ W.z 11 ++ [234#8, 154#8, 112#8, 66#8, 0#8, 0#8, 0#8, 0#8]) 0 1024⟩,
    ([33#8, 0#8, 5#8, 0#8, 1#8] ++ W.z 11 ++ [234#8, 154#8, 112#8, 66#8, 0#8, 0#8, 0#8, 0#8]), 0,
    1024, _, _, rfl, by decide +kernel, by decide +kernel, rfl, by decide +kernel⟩,
   ⟨W.on (fun h => let h : Hub := { h with ctl := { h.ctl with ops := [⟨1, 0x0403, 3, 0, .tableLoad [] 0 1024⟩] } }; h), 1,
    ⟨1, 0x0403, 3, 0, .tableLoad [] 0 1024⟩, [], 0, 1024, _, _, rfl, by decide +kernel, by decide +kernel, rfl, by decide +kernel⟩⟩

/-- States and operands that meet the hypotheses of `Obligations.ShortMessagesAreDiscarded`, clause by clause. -/
theorem test_witness_ShortMessagesAreDiscarded :
    (∃ (s : State) (mb n : Nat), (mb = 0 ∨ mb = 3) ∧ mb < s.hub.ctl.mbs.length ∧ (s.hub.mbServed mb = true) ∧ ((s.hub.mb mb).waiting = []) ∧ n < 16) :=
  ⟨W.on (fun h => let h := h.modMb 3 (fun y => { y with waiting := [] }); let h := { h with svcHost := true }; h), 3, 15, by decide +kernel⟩

/-- States and operands that meet the hypotheses of `Obligations.CellsAreRoutedAsTheHeaderSays`, clause by clause. -/
theorem test_witness_CellsAreRoutedAsTheHeaderSays :
    (∃ (s : State) (p : Nat) (c : Cell) (x : Hub), (s.hub.portUp p = true) ∧ p < 2 ∧ c.kind < 5 ∧ (c.detour = false) ∧ (c.dest ≠ 0xFFF) ∧ (x = (s.hub.takeCell p c).countIn p c) ∧
      (x.idValid = true) ∧ (c.dest ≠ x.ownId) ∧ (x.canRoute p (x.towards c.dest) c = true) ∧ 2 ≤ c.hops) ∧
    (∃ (s : State) (p : Nat) (c : Cell) (x : Hub), (s.hub.portUp p = true) ∧ p < 2 ∧ c.kind < 5 ∧ (c.detour = false) ∧ (c.dest ≠ 0xFFF) ∧ (x = (s.hub.takeCell p c).countIn p c) ∧
      (x.idValid = true) ∧ (c.dest ≠ x.ownId) ∧ (x.canRoute p (x.towards c.dest) c = true) ∧ c.hops ≤ 1) ∧
    (∃ (s : State) (p : Nat) (c : Cell) (x : Hub), (s.hub.portUp p = true) ∧ p < 2 ∧ c.kind < 5 ∧ (c.detour = false) ∧ (c.dest ≠ 0xFFF) ∧ (x = (s.hub.takeCell p c).countIn p c) ∧
      (x.idValid = true) ∧ (c.dest ≠ x.ownId) ∧ (x.canRoute p (x.towards c.dest) c = false)) ∧
    (∃ (s : State) (p i : Nat) (c : Cell) (x : Hub) (e : TEntry), (s.hub.portUp p = true) ∧ p < 2 ∧ c.kind < 5 ∧ (c.kind ≠ 2) ∧ (c.detour = false) ∧ (x = (s.hub.takeCell p c).countIn p c) ∧
      (x.idValid = true) ∧ (c.dest = x.ownId) ∧ (c.dest ≠ 0xFFF) ∧ (x.tunnels = true) ∧ (x.pget P.AG_LOCK 0 = 1) ∧
      (x.rxEntry c.tid = some (i, e)) ∧ (e.peer = 0xFFF ∨ e.peer = c.src) ∧ (c.kind = 1 ∨ (c.kind = dataKind e.type ∧ c.payload.length ≠ 0))) ∧
    (∃ (s : State) (p : Nat) (c : Cell) (x : Hub), (s.hub.portUp p = true) ∧ p < 2 ∧ c.kind < 5 ∧ (c.kind ≠ 2) ∧ (c.detour = false) ∧ (x = (s.hub.takeCell p c).countIn p c) ∧
      (x.idValid = true) ∧ (c.dest = x.ownId) ∧ (c.dest ≠ 0xFFF) ∧ (x.tunnels = true) ∧ (x.pget P.AG_LOCK 0 = 1) ∧
      (x.rxEntry c.tid = none) ∧ (x.portUp 2 = false)) ∧
    (∃ (s : State) (p i : Nat) (c : Cell) (x : Hub) (e : TEntry), (s.hub.portUp p = true) ∧ p < 2 ∧ c.kind < 5 ∧ (c.kind ≠ 2) ∧ (c.detour = false) ∧ (x = (s.hub.takeCell p c).countIn p c) ∧
      (x.idValid = true) ∧ (c.dest = x.ownId) ∧ (c.dest ≠ 0xFFF) ∧ (x.tunnels = true) ∧ (x.pget P.AG_LOCK 0 = 1) ∧
      (x.rxEntry c.tid = some (i, e)) ∧ (e.peer ≠ 0xFFF) ∧ (e.peer ≠ c.src)) ∧
    (∃ (s : State) (p i : Nat) (c : Cell) (x : Hub) (e : TEntry), (s.hub.portUp p = true) ∧ p < 2 ∧ c.kind < 5 ∧ (c.kind ≠ 2) ∧ (c.detour = false) ∧ (x = (s.hub.takeCell p c).countIn p c) ∧
      (x.idValid = true) ∧ (c.dest = x.ownId) ∧ (c.dest ≠ 0xFFF) ∧ (x.tunnels = true) ∧ (x.pget P.AG_LOCK 0 = 1) ∧
      (x.rxEntry c.tid = some (i, e)) ∧ (e.peer = 0xFFF ∨ e.peer = c.src) ∧ (c.kind ≠ 1) ∧ (c.kind ≠ dataKind e.type)) ∧
    (∃ (s : State) (p i : Nat) (c : Cell) (x : Hub) (e : TEntry), (s.hub.portUp p = true) ∧ p < 2 ∧ c.kind < 5 ∧ (c.kind ≠ 2) ∧ (c.detour = false) ∧ (x = (s.hub.takeCell p c).countIn p c) ∧
      (x.idValid = true) ∧ (c.dest = x.ownId) ∧ (c.dest ≠ 0xFFF) ∧ (x.tunnels = true) ∧ (x.pget P.AG_LOCK 0 = 1) ∧
      (x.rxEntry c.tid = some (i, e)) ∧ (e.peer = 0xFFF ∨ e.peer = c.src) ∧ (c.kind ≠ 1) ∧ (c.kind = dataKind e.type) ∧ (c.payload = [])) ∧
    (∃ (s : State) (p : Nat) (c : Cell), (s.hub.portUp p = true) ∧ (c.kind = 5)) ∧
    (∃ (h : Hub) (p pid i : Nat) (c : Cell), ((h.island 3).inReset = false) ∧ p < 3 ∧ 2 ≤ c.cls ∧ (h.holdsRef p h.sw.nextRef = false)) :=
  ⟨⟨W.on (fun h => let h := h.modPort 0 (fun y => { y with state := .up }); let h : Hub := { h with rl := { h.rl with idValid := true } }; let h : Hub := { h with rl := { h.rl with idValid := true } }; let h : Hub := { h with rl := { h.rl with nodeId := 3 } }; let h := h.modPort 0 (fun y => { y with state := .up }); let h := h.modPort 1 (fun y => { y with state := .up }); h),
    0, ⟨2, true, true, 0, 7, 0, 0, 0, false, 0, false, 2, []⟩, _, by decide +kernel, by decide +kernel, by decide +kernel,
    (by decide +kernel), by decide +kernel, rfl, by decide +kernel⟩,
   ⟨W.on (fun h => let h := h.modPort 0 (fun y => { y with state := .up }); let h : Hub := { h with rl := { h.rl with idValid := true } }; let h : Hub := { h with rl := { h.rl with idValid := true } }; let h : Hub := { h with rl := { h.rl with nodeId := 3 } }; let h := h.modPort 0 (fun y => { y with state := .up }); let h := h.modPort 1 (fun y => { y with state := .up }); h),
    0, ⟨2, true, true, 0, 7, 0, 0, 0, false, 0, false, 1, []⟩, _, by decide +kernel, by decide +kernel, by decide +kernel,
    (by decide +kernel), by decide +kernel, rfl, by decide +kernel⟩,
   ⟨W.on (fun h => let h := h.modPort 0 (fun y => { y with state := .up }); let h : Hub := { h with rl := { h.rl with idValid := true } }; let h : Hub := { h with rl := { h.rl with idValid := true } }; let h : Hub := { h with rl := { h.rl with nodeId := 3 } }; let h := h.modPort 0 (fun y => { y with state := .up }); h),
    0, ⟨2, true, true, 0, 7, 0, 0, 0, false, 0, false, 1, []⟩, _, by decide +kernel, by decide +kernel, by decide +kernel,
    (by decide +kernel), by decide +kernel, rfl, by decide +kernel⟩,
   ⟨W.on (fun h => let h := h.modPort 1 (fun y => { y with state := .up }); let h : Hub := { h with rl := { h.rl with idValid := true } }; let h : Hub := { h with rl := { h.rl with idValid := true } }; let h := h.pset P.AG_LOCK 0 1; let h : Hub := { h with rl := { h.rl with idValid := true } }; let h : Hub := { h with rl := { h.rl with nodeId := 3 } }; let h := h.tset 1 1023 23655874569; h),
    1, 1023, ⟨2, true, true, 0, 3, 9, 5, 0, false, 0, false, 8, [1#8]⟩, _, (TEntry.ofNat 23655874569), by decide +kernel,
    by decide +kernel, by decide +kernel, (by decide +kernel), by decide +kernel, rfl, by decide +kernel⟩,
   ⟨W.on (fun h => let h := h.modPort 1 (fun y => { y with state := .up }); let h : Hub := { h with rl := { h.rl with idValid := true } }; let h : Hub := { h with rl := { h.rl with idValid := true } }; let h := h.pset P.AG_LOCK 0 1; let h := h.modPort 2 (fun y => { y with state := .detect }); let h : Hub := { h with rl := { h.rl with idValid := true } }; let h : Hub := { h with rl := { h.rl with nodeId := 3 } }; h),
    1, ⟨2, true, true, 0, 3, 9, 5, 0, false, 0, false, 8, [1#8]⟩, _, by decide +kernel, by decide +kernel, by decide +kernel,
    (by decide +kernel), by decide +kernel, rfl, by decide +kernel⟩,
   ⟨W.on (fun h => let h := h.modPort 0 (fun y => { y with state := .up }); let h : Hub := { h with rl := { h.rl with idValid := true } }; let h : Hub := { h with rl := { h.rl with idValid := true } }; let h := h.pset P.AG_LOCK 0 1; let h : Hub := { h with rl := { h.rl with idValid := true } }; let h : Hub := { h with rl := { h.rl with nodeId := 3 } }; let h := h.modPort 0 (fun y => { y with state := .up }); let h := h.tset 1 0 23655874569; h),
    0, 0, ⟨2, true, true, 0, 3, 8, 5, 0, false, 0, false, 8, []⟩, _, (TEntry.ofNat 23655874569), by decide +kernel, by decide +kernel,
    by decide +kernel, (by decide +kernel), by decide +kernel, rfl, by decide +kernel⟩,
   ⟨W.on (fun h => let h := h.modPort 1 (fun y => { y with state := .up }); let h : Hub := { h with rl := { h.rl with idValid := true } }; let h : Hub := { h with rl := { h.rl with idValid := true } }; let h := h.pset P.AG_LOCK 0 1; let h : Hub := { h with rl := { h.rl with idValid := true } }; let h : Hub := { h with rl := { h.rl with nodeId := 3 } }; let h := h.tset 1 0 23655874569; h),
    1, 0, ⟨2, true, true, 3, 3, 9, 5, 0, false, 0, false, 8, []⟩, _, (TEntry.ofNat 23655874569), by decide +kernel, by decide +kernel,
    by decide +kernel, (by decide +kernel), by decide +kernel, rfl, by decide +kernel⟩,
   ⟨W.on (fun h => let h := h.modPort 0 (fun y => { y with state := .up }); let h : Hub := { h with rl := { h.rl with idValid := true } }; let h : Hub := { h with rl := { h.rl with idValid := true } }; let h := h.pset P.AG_LOCK 0 1; let h : Hub := { h with rl := { h.rl with idValid := true } }; let h : Hub := { h with rl := { h.rl with nodeId := 3 } }; let h := h.modPort 0 (fun y => { y with state := .up }); let h := h.tset 1 0 23655874569; h),
    0, 0, ⟨2, true, true, 0, 3, 9, 5, 0, false, 0, false, 8, []⟩, _, (TEntry.ofNat 23655874569), by decide +kernel, by decide +kernel,
    by decide +kernel, (by decide +kernel), by decide +kernel, rfl, by decide +kernel⟩,
   ⟨W.on (fun h => let h := h.modPort 0 (fun y => { y with state := .up }); h), 0, ⟨2, true, true, 5, 0, 0, 0, 0, false, 0, false, 8, []⟩,
    by decide +kernel⟩,
   ⟨(W.on (fun h => let h := h.modIsland 3 (fun y => { y with inReset := false }); h)).hub, 2, 0, 0,
    ⟨2, true, true, 0, 0, 0, 0, 0, false, 0, false, 8, []⟩, by decide +kernel⟩⟩

/-- States and operands that meet the hypotheses of `Obligations.TunnelsReceiveInOrder`, clause by clause. -/
theorem test_witness_TunnelsReceiveInOrder :
    (∃ (s : State) (o cls i : Nat) (q : QCell) (l : List QCell) (e : TEntry) (x : Hub),
      (s.hub.dlv o cls = q :: l) ∧ 16 * ([0, 1, 2, 3].map s.hub.reasm).sum < s.hub.pget P.SW_REASM_LIMIT 0 ∧ (s.hub.levelOpen o q.cell = true) ∧
      (s.hub.earlierHead o cls = false) ∧ (o < 4 ∨ (s.hub.island (outIsland o)).inReset = false) ∧
      ((s.hub.setDlv o cls l).tunnels = true) ∧ (q.cell.kind ≠ 2) ∧ (q.cell.dest ≠ 0xFFF) ∧
      ((s.hub.setDlv o cls l).rxEntry q.cell.tid = some (i, e)) ∧ (x = (s.hub.setDlv o cls l).receive i e q.cell)) ∧
    (∃ (s : State) (o cls : Nat) (q : QCell) (l : List QCell), (s.hub.dlv o cls = q :: l) ∧ 16 * ([0, 1, 2, 3].map s.hub.reasm).sum < s.hub.pget P.SW_REASM_LIMIT 0 ∧ (s.hub.levelOpen o q.cell = true) ∧
      (s.hub.earlierHead o cls = false) ∧ (o < 4 ∨ (s.hub.island (outIsland o)).inReset = false) ∧
      ((s.hub.setDlv o cls l).tunnels = true) ∧ (q.cell.kind ≠ 2) ∧ (q.cell.dest ≠ 0xFFF) ∧
      ((s.hub.setDlv o cls l).rxEntry q.cell.tid = none)) ∧
    (∃ (s : State) (o cls : Nat), (s.hub.dlv o cls = [])) ∧
    (∃ (s : State) (i : Nat) (c : Cell) (x : Ctx), (s.hub.tunnels = true) ∧ ((s.hub.tun i).valid = true) ∧ ((s.hub.tun i).dir.receives = true) ∧ (s.hub.ctx i c.src = some x) ∧
      (isResync c = true) ∧ (be c.payload 4 4 ≠ x.tag) ∧ (be c.payload 4 4 ≠ x.prevTag)) ∧
    (∃ (s : State) (i : Nat) (c : Cell) (x : Ctx), (s.hub.tunnels = true) ∧ ((s.hub.tun i).valid = true) ∧ ((s.hub.tun i).dir.receives = true) ∧ ((s.hub.tun i).prot = false) ∧
      (s.hub.ctx i c.src = some x) ∧ (isResync c = false) ∧ (x.based = true) ∧ (seqDist c.seq x.high = 1)) ∧
    (∃ (s : State) (i src : Nat) (x : Ctx) (g : Nat × Nat × Nat) (l : List (Nat × Nat × Nat)) (y : Hub),
      (s.hub.ctx i src = some x) ∧ (x.gaps = g :: l) ∧ (y = s.hub.until (g.2.2 + us (s.hub.pget P.TN_GAP_WAIT 0)))) ∧
    (∃ (s : State) (i src : Nat) (x : Ctx) (f : OpenFrame), (s.hub.ctx i src = some x) ∧ (x.frame = some f)) ∧
    (∃ (s : State) (buf : Nat) (k : DiscardKey) (l : List DiscardKey) (x : Hub),
      (nth s.hub.sw.discard buf [] = k :: l) ∧ (x = s.hub.until (k.at_ + us (s.hub.pget P.TN_REASM_TIMEOUT 0)))) :=
  ⟨⟨W.on (fun h => let h := h.setDlv 6 2 [⟨⟨2, true, true, 0, 3, 9, 5, 0, false, 0, false, 8, [1#8]⟩, 0, 0, 0, none⟩]; let h := h.tset 1 1 23655874569; let h : Hub := { h with rl := { h.rl with idValid := true } }; let h : Hub := { h with rl := { h.rl with nodeId := 3 } }; h),
    6, 2, 1, ⟨⟨2, true, true, 0, 3, 9, 5, 0, false, 0, false, 8, [1#8]⟩, 0, 0, 0, none⟩, [], (TEntry.ofNat 23655874569), _,
    by decide +kernel, by decide +kernel, by decide +kernel, (by decide +kernel), by decide +kernel, by decide +kernel, by decide +kernel,
    (by decide +kernel), by decide +kernel, rfl⟩,
   ⟨W.on (fun h => let h := h.setDlv 6 2 [⟨⟨2, true, true, 0, 3, 9, 5, 0, false, 0, false, 8, [1#8]⟩, 0, 0, 0, none⟩]; let h : Hub := { h with rl := { h.rl with idValid := true } }; let h : Hub := { h with rl := { h.rl with nodeId := 3 } }; h),
    6, 2, ⟨⟨2, true, true, 0, 3, 9, 5, 0, false, 0, false, 8, [1#8]⟩, 0, 0, 0, none⟩, [], by decide +kernel⟩,
   ⟨W.on id, 0, 0, by decide +kernel⟩,
   ⟨W.on (fun h => let h : Hub := { h with rl := { h.rl with idValid := true } }; let h := h.tset 1 0 2181038089; let h : Hub := { h with tn := { h.tn with ctxs := [⟨0, 9, false, false, 0, 0, 0, [], [], none, false, 1, 2, 0, 0, 0⟩] } }; h),
    0, ⟨2, true, true, 1, 0, 9, 0, 0, false, 0, false, 8, ([0#8, 1#8] ++ W.z 5 ++ [7#8])⟩,
    ⟨0, 9, false, false, 0, 0, 0, [], [], none, false, 1, 2, 0, 0, 0⟩, by decide +kernel⟩,
   ⟨W.on (fun h => let h : Hub := { h with rl := { h.rl with idValid := true } }; let h := h.tset 1 0 2181038089; let h : Hub := { h with tn := { h.tn with ctxs := [⟨0, 9, false, true, 0, 0, 0, [], [], none, false, 0, 0, 0, 0, 0⟩] } }; h),
    0, ⟨2, true, true, 1, 0, 9, 0, 1, false, 0, false, 8, (W.z 8)⟩,
    ⟨0, 9, false, true, 0, 0, 0, [], [], none, false, 0, 0, 0, 0, 0⟩, by decide +kernel⟩,
   ⟨W.on (fun h => let h : Hub := { h with tn := { h.tn with ctxs := [⟨0, 9, false, false, 0, 0, 0, [], [(1, 2, 3)], none, false, 0, 0, 0, 0, 0⟩] } }; h),
    0, 9, ⟨0, 9, false, false, 0, 0, 0, [], [(1, 2, 3)], none, false, 0, 0, 0, 0, 0⟩, (1, 2, 3), [], _, by decide +kernel,
    by decide +kernel, rfl⟩,
   ⟨W.on (fun h => let h : Hub := { h with tn := { h.tn with ctxs := [⟨0, 9, false, false, 0, 0, 0, [], [], some ⟨[], 1, 1, 0⟩, false, 0, 0, 0, 0, 0⟩] } }; h),
    0, 9, ⟨0, 9, false, false, 0, 0, 0, [], [], some ⟨[], 1, 1, 0⟩, false, 0, 0, 0, 0, 0⟩, ⟨[], 1, 1, 0⟩, by decide +kernel⟩,
   ⟨W.on (fun h => let h : Hub := { h with sw := { h.sw with discard := [[], [], [], [⟨1, 2, 0, 0⟩]] } }; h), 3, ⟨1, 2, 0, 0⟩, [], _,
    by decide +kernel, rfl⟩⟩

end Sys2Proof.Tests.Witness1
end

