-- ==== Sys2Proof/Tests/Witness2.lean ====
section
/-!
SUPPORT. Witnesses that no obligation has empty hypotheses, part 2: for each statement one theorem that shows a state and operands for
every clause that has hypotheses.  The states are the hub after reset and start, changed by the named operations.
-/
namespace Sys2Proof.Tests.Witness2
open Sys2Proof Sys2Proof.Machine
set_option Elab.async false
set_option maxRecDepth 8000
set_option linter.unusedVariables false

/-- States and operands that meet the hypotheses of `Obligations.FramesLeaveThroughTheirTunnel`, clause by clause. -/
theorem test_witness_FramesLeaveThroughTheirTunnel :
    (∃ (s : State) (o i n : Nat) (bs : List Byte),
      ((s.hub.tun i).valid = false ∨ (s.hub.tun i).dir.sends = false ∨ s.hub.tunnels = false ∨ bs = [] ∨ (s.hub.tun i).limit < bs.length)) ∧
    (∃ (s : State) (o i n : Nat) (bs : List Byte), ((s.hub.tun i).valid = true) ∧ ((s.hub.tun i).dir.sends = true) ∧ (s.hub.tunnels = true) ∧ (bs ≠ []) ∧ bs.length ≤ (s.hub.tun i).limit ∧
      ((s.hub.tun i).mcast = false) ∧ ((s.hub.tun i).peer = s.hub.ownId)) ∧
    (∃ (s : State) (o i n : Nat) (bs : List Byte), ((s.hub.tun i).valid = true) ∧ ((s.hub.tun i).dir.sends = true) ∧ (s.hub.tunnels = true) ∧ (bs ≠ []) ∧ bs.length ≤ (s.hub.tun i).limit ∧
      ((s.hub.tun i).mcast = true ∨ (s.hub.tun i).peer ≠ s.hub.ownId) ∧ ((s.hub.police i (s.hub.tun i) n).2 = false)) ∧
    (∃ (s : State) (o i n : Nat) (bs : List Byte) (x : Hub), ((s.hub.tun i).valid = true) ∧ ((s.hub.tun i).dir.sends = true) ∧ (s.hub.tunnels = true) ∧ (bs ≠ []) ∧ bs.length ≤ (s.hub.tun i).limit ∧
      ((s.hub.tun i).mcast = true ∨ (s.hub.tun i).peer ≠ s.hub.ownId) ∧ (s.hub.police i (s.hub.tun i) n = (x, true)) ∧
      (x.tn.waiting.any (fun w => w.entry == i) = true ∨ x.shaperOpen i (s.hub.tun i) = false)) ∧
    (∃ (s : State) (o i n : Nat) (bs : List Byte) (x y : Hub), ((s.hub.tun i).valid = true) ∧ ((s.hub.tun i).dir.sends = true) ∧ (s.hub.tunnels = true) ∧ (bs ≠ []) ∧ bs.length ≤ (s.hub.tun i).limit ∧
      ((s.hub.tun i).mcast = true ∨ (s.hub.tun i).peer ≠ s.hub.ownId) ∧ ((s.hub.tun i).enc = false) ∧
      (s.hub.police i (s.hub.tun i) n = (x, true)) ∧ (x.tn.waiting.any (fun w => w.entry == i) = false) ∧
      (x.shaperOpen i (s.hub.tun i) = true) ∧ (x.makeRoom 3 (s.hub.tun i).cls (x.needFlits i (s.hub.tun i) false bs.length) = (y, true))) ∧
    (∃ (s : State) (i : Nat), (s.hub.shaperOpen i (s.hub.tun i) = false) ∧ ((rateOf (s.hub.tget 0x22 i)).2.1 ≠ 0)) :=
  ⟨⟨W.on id, 0, 0, 0, [], by decide +kernel⟩,
   ⟨W.on (fun h => let h : Hub := { h with rl := { h.rl with idValid := true } }; let h : Hub := { h with rl := { h.rl with idValid := true } }; let h : Hub := { h with rl := { h.rl with nodeId := 3 } }; let h := h.tset 1 2 2248146947; h),
    3, 2, 0, [1#8], by decide +kernel⟩,
   ⟨W.on (fun h => let h : Hub := { h with rl := { h.rl with idValid := true } }; let h : Hub := { h with rl := { h.rl with idValid := true } }; let h : Hub := { h with rl := { h.rl with nodeId := 3 } }; let h := h.tset 1 2 2248146953; let h := h.tset 0x21 2 2147483648; h),
    3, 2, 1, [1#8], by decide +kernel⟩,
   ⟨W.on (fun h => let h : Hub := { h with rl := { h.rl with idValid := true } }; let h : Hub := { h with rl := { h.rl with idValid := true } }; let h : Hub := { h with rl := { h.rl with nodeId := 3 } }; let h := h.tset 1 2 2248146953; let h : Hub := { h with tn := { h.tn with waiting := [⟨3, 2, false, [], 0, false⟩] } }; h),
    3, 2, 0, [1#8], _, by decide +kernel, by decide +kernel, by decide +kernel, (by decide +kernel), by decide +kernel, by decide +kernel,
    Prod.ext rfl (by decide +kernel), by decide +kernel⟩,
   ⟨W.on (fun h => let h : Hub := { h with rl := { h.rl with idValid := true } }; let h : Hub := { h with rl := { h.rl with idValid := true } }; let h : Hub := { h with rl := { h.rl with nodeId := 3 } }; let h := h.tset 1 2 2248146953; h),
    3, 2, 0, [1#8], _, _, by decide +kernel, by decide +kernel, by decide +kernel, (by decide +kernel), by decide +kernel,
    by decide +kernel, by decide +kernel, Prod.ext rfl (by decide +kernel), by decide +kernel, by decide +kernel,
    Prod.ext rfl (by decide +kernel)⟩,
   ⟨W.on (fun h => let h : Hub := { h with rl := { h.rl with idValid := true } }; let h : Hub := { h with rl := { h.rl with nodeId := 3 } }; let h := h.tset 1 2 2248146953; let h := h.tset 0x22 2 2147483653; let h : Hub := { h with tn := { h.tn with shape := [(2, ⟨1, 0⟩)] } }; h),
    2, by decide +kernel⟩⟩

/-- States and operands that meet the hypotheses of `Obligations.OutputsSendAndCreditFlows`, clause by clause. -/
theorem test_witness_OutputsSendAndCreditFlows :
    (∃ (s : State) (o : Nat), o < 3 ∧ (s.hub.portUp o = false)) ∧
    (∃ (s : State) (o : Nat), o < 3 ∧ (s.hub.portUp o = true) ∧ (s.hub.darnFull o = true) ∧ ((s.hub.island 3).inReset = false)) ∧
    (∃ (s : State) (o : Nat), 3 ≤ o ∧ ((s.hub.cleanHeads o).choose o = none) ∧ ((s.hub.island 3).inReset = false)) ∧
    (∃ (s : State) (o q i : Nat) (qc : QCell) (k : Choice) (x : Hub), 3 ≤ o ∧ ((s.hub.cleanHeads o).choose o = some k) ∧ (k.cand = (q, i, qc)) ∧ (k.alt = false) ∧ (x = s.hub.cleanHeads o) ∧
      ((s.hub.island 3).inReset = false)) ∧
    (∃ (s : State) (o : Nat), ((s.hub.island 3).inReset = true)) ∧
    (∃ (s : State) (p : Nat), (s.hub.portUp p = true)) ∧
    (∃ (h x : Hub) (p k : Nat),
      (x = (h.sendLinkLocal p ([byte (0x10 + k), 0#8, 0#8, 0#8] ++ beBytes 4 ((((h.port p).credit k).grant + ((h.port p).credit k).freed) % 2 ^ 32))).portEv p 15 1)) ∧
    (∃ (s : State) (p cls l : Nat), (s.hub.portUp p = true) ∧ (cls = 2 ∨ cls = 3) ∧ l < 2 ^ 32) ∧
    (∃ (s : State) (p cls : Nat) (c b : Nat × Nat) (l : List (Nat × Nat)) (x : Hub), (s.hub.portUp p = true) ∧ (((s.hub.port p).credit cls).told = false) ∧ (s.hub.creditHeads p cls = c :: l) ∧
      (b = l.foldl (fun b w => if w.1 < b.1 then w else b) c) ∧ (x = s.hub.until (b.1 + ms (s.hub.pget P.SW_CREDIT_STALL 0)))) :=
  ⟨⟨W.on (fun h => let h := h.modPort 2 (fun y => { y with state := .detect }); h), 2, by decide +kernel⟩,
   ⟨W.on (fun h => let h := h.modPort 1 (fun y => { y with state := .up }); let h := h.modIsland 3 (fun y => { y with inReset := false }); let h := h.modPort 1 (fun y => { y with train := { y.train with darnEn := 1 }, rx := { y.rx with darnOn := true }, darn := { y.darn with stored := List.replicate 8192 (0, []) } }); h),
    1, by decide +kernel⟩,
   ⟨W.on (fun h => let h := h.modIsland 3 (fun y => { y with inReset := false }); h), 3, by decide +kernel⟩,
   ⟨W.on (fun h => let h := h.modIsland 3 (fun y => { y with inReset := false }); let h := h.setVoq 0 6 0 [⟨⟨0, true, true, 0, 3, 0, 0, 0, false, 0, false, 8, []⟩, 0, 0, 0, none⟩]; h),
    6, 6, 0, ⟨⟨0, true, true, 0, 3, 0, 0, 0, false, 0, false, 8, []⟩, 0, 0, 0, none⟩, _, _, by decide +kernel,
    (Option.some_get (by decide +kernel : Option.isSome _ = true)).symm, by decide +kernel, by decide +kernel, rfl, by decide +kernel⟩,
   ⟨W.on (fun h => let h := h.modIsland 3 (fun y => { y with inReset := true }); h), 0, by decide +kernel⟩,
   ⟨W.on (fun h => let h := h.modPort 0 (fun y => { y with state := .up }); h), 0, by decide +kernel⟩,
   ⟨(W.on id).hub, _, 0, 0, rfl⟩,
   ⟨W.on (fun h => let h := h.modPort 0 (fun y => { y with state := .up }); h), 0, 3, 2 ^ 32 - 1, by decide +kernel⟩,
   ⟨W.on (fun h => let h := h.modPort 0 (fun y => { y with state := .up }); let h := h.modPort 0 (fun y => { y with state := .up }); let h := h.setVoq 1 0 2 [⟨⟨2, true, true, 0, 3, 0, 0, 0, false, 0, false, 8, []⟩, 1, 0, 0, some (5, 5)⟩]; h),
    0, 2, (5, 5), _, [], _, by decide +kernel, by decide +kernel, by decide +kernel, rfl, rfl⟩⟩

/-- States and operands that meet the hypotheses of `Obligations.CellsReadBackFromTheWire`, clause by clause. -/
theorem test_witness_CellsReadBackFromTheWire :
    (∃ (c : Cell), c.cls < 4 ∧ c.kind ≤ 6 ∧ c.dest < 4096 ∧ c.src < 4096 ∧ c.tid < 65536 ∧ c.seq < 65536 ∧ c.rail < 2 ∧ c.hops < 8192 ∧ c.payload.length ≤ 256) :=
  ⟨⟨2, true, true, 0, 0, 0, 0, 0, false, 0, false, 8, []⟩, by decide +kernel⟩

/-- States and operands that meet the hypotheses of `Obligations.CreditIsTheDistanceToTheLimit`, clause by clause. -/
theorem test_witness_CreditIsTheDistanceToTheLimit :
    (∃ (s : State) (p cls l : Nat) (x : Hub), (s.hub.portUp p = true) ∧ (cls = 2 ∨ cls = 3) ∧ l < 2 ^ 32 ∧ (x = (s.hub.takeLocal p (0x10 + cls)).portEv p 16 1)) ∧
    (∃ (s : State) (p cls l : Nat) (x : Hub), (s.hub.portUp p = true) ∧ (cls = 2 ∨ cls = 3) ∧ l < 2 ^ 32 ∧ (x = (s.hub.takeLocal p (0x10 + cls)).portEv p 16 1) ∧
      (l + 2 ^ 32 - ((x.port p).credit cls).limit) % 2 ^ 32 < 2 ^ 31 ∧ p < x.ports.length) ∧
    (∃ (s : State) (p cls l : Nat) (x : Hub), (s.hub.portUp p = true) ∧ (cls = 2 ∨ cls = 3) ∧ l < 2 ^ 32 ∧ (x = (s.hub.takeLocal p (0x10 + cls)).portEv p 16 1) ∧
      2 ^ 31 ≤ (l + 2 ^ 32 - ((x.port p).credit cls).limit) % 2 ^ 32) :=
  ⟨⟨W.on (fun h => let h := h.modPort 0 (fun y => { y with state := .up }); h), 0, 2, 1, _, by decide +kernel, by decide +kernel,
    by decide +kernel, rfl⟩,
   ⟨W.on (fun h => let h := h.modPort 0 (fun y => { y with state := .up }); h), 0, 3, 1, _, by decide +kernel, by decide +kernel,
    by decide +kernel, rfl, by decide +kernel⟩,
   ⟨W.on (fun h => let h := h.modPort 0 (fun y => { y with state := .up }); let h := h.modPort 0 (fun y => { y with c3 := { y.c3 with limit := 2 } }); h),
    0, 3, 1, _, by decide +kernel, by decide +kernel, by decide +kernel, rfl, by decide +kernel⟩⟩

/-- States and operands that meet the hypotheses of `Obligations.CellsWithoutCreditAreDropped`, clause by clause. -/
theorem test_witness_CellsWithoutCreditAreDropped :
    (∃ (h : Hub) (p o : Nat) (c : Cell), p < 3 ∧ 2 ≤ c.cls ∧ (h.sw.arrival.bind (fun a => a.ok) = none) ∧ h.pool p c.cls < h.occ p c.cls + cellFlits c) ∧
    (∃ (s : State) (p : Nat) (c : Cell) (x : Hub), p < 2 ∧ (s.hub.portUp p = true) ∧ c.kind < 5 ∧ (c.detour = false) ∧ (c.dest ≠ 0xFFF) ∧ (x = (s.hub.takeCell p c).countIn p c) ∧
      (x.idValid = true) ∧ (c.dest ≠ x.ownId) ∧ (x.canRoute p (x.towards c.dest) c = true) ∧ 2 ≤ c.hops ∧ ((x.island 3).inReset = false) ∧
      2 ≤ c.cls ∧ x.pool p c.cls < x.occ p c.cls + cellFlits c) :=
  ⟨⟨(W.on (fun h => let h := h.modPort 0 (fun y => { y with train := { y.train with poolC2 := 0 } }); h)).hub, 0, 0,
    ⟨2, true, true, 0, 7, 0, 0, 0, false, 0, false, 8, []⟩, by decide +kernel⟩,
   ⟨W.on (fun h => let h := h.modPort 0 (fun y => { y with state := .up }); let h : Hub := { h with rl := { h.rl with idValid := true } }; let h := h.modIsland 3 (fun y => { y with inReset := false }); let h : Hub := { h with rl := { h.rl with idValid := true } }; let h : Hub := { h with rl := { h.rl with nodeId := 3 } }; let h := h.modPort 0 (fun y => { y with state := .up }); let h := h.modPort 1 (fun y => { y with state := .up }); let h := h.modPort 0 (fun y => { y with train := { y.train with poolC2 := 0 } }); h),
    0, ⟨2, true, true, 0, 7, 0, 0, 0, false, 0, false, 8, []⟩, _, by decide +kernel, by decide +kernel, by decide +kernel,
    (by decide +kernel), by decide +kernel, rfl, by decide +kernel⟩⟩

/-- States and operands that meet the hypotheses of `Obligations.MemoryReadsWhatWasWritten`, clause by clause. -/
theorem test_witness_MemoryReadsWhatWasWritten :
    (∃ (m : List Host.Cell) (a : Nat) (bs : List Byte), (Memory.wf m = true)) :=
  ⟨[], 0, [], by decide +kernel⟩

/-- States and operands that meet the hypotheses of `Obligations.AllotmentsAndEpochs`, clause by clause. -/
theorem test_witness_AllotmentsAndEpochs :
    (∃ (s : State) (x : Hub), (s.hub.rl.steps = []) ∧ (x = (s.hub.untilLine (boundaryAt (s.hub.clk.ns + 1))).reload)) ∧
    (∃ (s : State) (mb v : Nat), 1 ≤ v ∧ v ≤ 3 ∧ (s.hub.isHead = true) ∧ (s.hub.conflictsOutside mb P.AL_EPOCH_ARM 0 = false) ∧
      (s.hub.ctl.pairs.find? (fun o => o.pid == P.AL_EPOCH_TIME && o.inst == 0 && o.mb == mb) = none) ∧
      s.hub.clk.ns + ms (max 2 (s.hub.pget P.AL_EPOCH_LEAD 0)) ≤ s.hub.pget P.AL_EPOCH_TIME 0 ∧
      s.hub.pget P.AL_EPOCH_TIME 0 ≤ s.hub.clk.ns + 60000000000 ∧ s.hub.al.lastTe ≤ s.hub.clk.ns ∧ s.hub.al.sent < 65535) ∧
    (∃ (s : State) (mb id : Nat), id < 2 ^ 64 ∧ (s.hub.isHead = true) ∧ (s.hub.al.sent ≠ 0) ∧ (id = s.hub.al.sentId) ∧ s.hub.clk.ns + 1500000 ≤ s.hub.al.sentTe ∧
      (s.hub.conflictsOutside mb P.AL_EPOCH_CANCEL 0 = false)) ∧
    (∃ (s : State) (t : EpochTx) (x : Hub), (s.hub.epochNext = some t) ∧ (x = s.hub.untilLine t.nextAt)) ∧
    (∃ (h y z : Hub) (t : EpochTx) (c : Cell),
      (c = h.epochCell (if t.cancel then 2 else 1) t.flags t.copy t.id t.te t.plan) ∧ (h.makeRoom 3 0 (cellFlits c) = (y, true)) ∧ 2 ≤ t.left ∧
      (z = y.arriving 8 c (fun g => [1, 2].foldl (fun g p => if g.portUp p then g.enqueue 8 p c else g.noRoute 8 c) g))) ∧
    (∃ (s : State) (p : Nat) (c : Cell) (x : Hub), (s.hub.portUp p = true) ∧ (c.kind = 5) ∧ (x = (s.hub.takeCell p c).countIn p c)) ∧
    (∃ (h : Hub) (p : Nat) (c : Cell), p < 2 ∧ (epochGood c = false)) ∧
    (∃ (h x : Hub) (p : Nat) (c : Cell) (m : EpochMsg), p < 2 ∧ (epochGood c = true) ∧ (m = EpochMsg.of c.payload) ∧ (x = (h.portEv p 20 1).forwardTo p (1 - p) c) ∧
      (x.al.crossed.contains (m.id, m.sub) = true)) ∧
    (∃ (h x y : Hub) (p : Nat) (c : Cell) (m : EpochMsg), p < 2 ∧ (epochGood c = true) ∧ (m = EpochMsg.of c.payload) ∧ (x = (h.portEv p 20 1).forwardTo p (1 - p) c) ∧
      (x.al.crossed.contains (m.id, m.sub) = false) ∧ (y = { x with al := { x.al with crossed := x.al.crossed ++ [(m.id, m.sub)] } })) ∧
    (∃ (h : Hub) (m : EpochMsg), (m.sub = 1) ∧ (h.al.armed = none) ∧ (m.id ≠ h.pget P.AL_EPOCH_APPLIED 0) ∧ h.clk.ns ≤ m.te + 1000000000 ∧
      ((m.plan = 0 ∨ m.plan = h.pget P.AL_PLAN_ID_SHADOW 0 ∨ bit m.flags 0 = false)) ∧ h.clk.ns + 1000 ≤ boundaryAt m.te) ∧
    (∃ (h : Hub) (m : EpochMsg) (a : Armed), (m.sub = 2) ∧ (h.al.armed = some a) ∧ (a.id = m.id)) ∧
    (∃ (s : State) (a : Armed) (r x y : Hub), (s.hub.synced = true) ∧ (s.hub.al.armed = some a) ∧ (r = (s.hub.untilLine a.boundary).quiesceDue) ∧ (r.synced = true) ∧
      (r.al.armed = some a) ∧ (a.allot = true) ∧ (a.decision = false) ∧ (x = r.disarm.reload.swapAllot) ∧
      (y = ((x.pset P.AL_EPOCH_APPLIED 0 a.id).pset P.AL_EPOCH_APPLIED_TIME 0 a.boundary).event .epochApplied [(0, 4, a.id), (4, 1, 1), (8, 8, a.boundary)]) ∧
      (y.rl.steps = [])) :=
  ⟨⟨W.on (fun h => let h : Hub := { h with rl := { h.rl with steps := [] } }; h), _, by decide +kernel, rfl⟩,
   ⟨W.on (fun h => let h : Hub := { h with straps := 5 }; let h := h.pset P.AL_EPOCH_TIME 0 60000000000; h), 0, 3, by decide +kernel⟩,
   ⟨W.on (fun h => let h : Hub := { h with straps := 5 }; let h : Hub := { h with al := { h.al with sent := 1 } }; let h : Hub := { h with al := { h.al with sentId := 9 } }; let h : Hub := { h with al := { h.al with sentTe := 1500000000 } }; let h := { h with straps := 5 }; h),
    0, 9, by decide +kernel⟩,
   ⟨W.on (fun h => let h : Hub := { h with al := { h.al with sending := [⟨false, 1, 1, 1000, 0, 1, 2, 0⟩] } }; h),
    ⟨false, 1, 1, 1000, 0, 1, 2, 0⟩, _, by decide +kernel, rfl⟩,
   ⟨(W.on id).hub, _, _, ⟨false, 1, 1, 1000, 0, 1, 2, 0⟩, _, rfl, Prod.ext rfl (by decide +kernel), by decide +kernel, rfl⟩,
   ⟨W.on (fun h => let h := h.modPort 1 (fun y => { y with state := .up }); h), 1, ⟨2, true, true, 5, 0, 0, 0, 0, false, 0, false, 8, []⟩, _,
    by decide +kernel, by decide +kernel, rfl⟩,
   ⟨(W.on id).hub, 1, ⟨2, true, true, 0, 0, 0, 0, 0, false, 0, false, 8, []⟩, by decide +kernel⟩,
   ⟨(W.on (fun h => let h : Hub := { h with al := { h.al with crossed := [(1, 1)] } }; h)).hub, _, 1,
    ⟨2, true, true, 5, 4095, 0, 0, 0, false, 0, false, 8, ([1#8, 1#8, 1#8, 0#8, 0#8, 0#8, 0#8, 1#8] ++ W.z 6 ++ [3#8, 232#8] ++ W.z 8)⟩,
    _, by decide +kernel, by decide +kernel, rfl, rfl, by decide +kernel⟩,
   ⟨(W.on id).hub, _, _, 1,
    ⟨2, true, true, 5, 4095, 0, 0, 0, false, 0, false, 8, ([1#8, 1#8, 1#8, 0#8, 0#8, 0#8, 0#8, 1#8] ++ W.z 6 ++ [3#8, 232#8] ++ W.z 8)⟩,
    _, by decide +kernel, by decide +kernel, rfl, rfl, by decide +kernel, rfl⟩,
   ⟨(W.on (fun h => let h : Hub := { h with al := { h.al with armed := none } }; h)).hub, ⟨1, 0, 0, 9, 1000000, 0⟩, by decide +kernel⟩,
   ⟨(W.on (fun h => let h : Hub := { h with al := { h.al with armed := some ⟨9, true, true, 0, 0, 0⟩ } }; h)).hub, ⟨2, 0, 0, 9, 0, 0⟩,
    ⟨9, true, true, 0, 0, 0⟩, by decide +kernel⟩,
   ⟨W.on (fun h => let h : Hub := { h with al := { h.al with armed := some ⟨1, true, false, 1000, 0, 1000⟩ } }; let h : Hub := { h with rl := { h.rl with ts := .locked } }; h),
    ⟨1, true, false, 1000, 0, 1000⟩, _, _, _, by decide +kernel, by decide +kernel, rfl, by decide +kernel, by decide +kernel,
    by decide +kernel, (by decide +kernel), rfl, rfl, by decide +kernel⟩⟩

/-- States and operands that meet the hypotheses of `Obligations.TheGovernorFollowsTemperatureAndPower`, clause by clause. -/
theorem test_witness_TheGovernorFollowsTemperatureAndPower :
    (∃ (s : State) (power d : Nat) (x y : Hub), (x = s.hub.gradientStep) ∧
      (y = x.modGov (fun g => { g with
      tmax := x.tmax, power := power,
      caps := (List.range 4).map (x.pget P.AL_GOV_DE_CAP) ++ [P.AL_GOV_IDLE_SUSPEND, P.AL_GOV_C3_CAP, P.AL_GOV_DWELL].map (fun k => x.pget k 0),
      tempLvl := x.tempDemand x.tmax, powLvl := x.powerDemand power })) ∧
      (d = y.demands.foldl max 0)) ∧
    (∃ (s : State) (t : Nat) (x : Hub), (s.hub.al.gov.lowSince = some t) ∧ (x = s.hub.until (t + ms (s.hub.govNow 6 P.AL_GOV_DWELL 0)))) ∧
    (∃ (h : Hub) (l : Nat), (l ≠ h.al.gov.level)) :=
  ⟨⟨W.on id, 0, _, _, _, rfl, rfl, rfl⟩,
   ⟨W.on (fun h => let h : Hub := { h with al := { h.al with gov := { h.al.gov with lowSince := some 0 } } }; h), 0, _, by decide +kernel, rfl⟩,
   ⟨(W.on id).hub, 1, by decide +kernel⟩⟩

/-- States and operands that meet the hypotheses of `Obligations.DetoursAndNodeIds`, clause by clause. -/
theorem test_witness_DetoursAndNodeIds :
    (∃ (s : State), (s.hub.portUp 2 = true)) ∧
    (∃ (s : State) (f : List Byte), (s.hub.portUp 2 = true)) ∧
    (∃ (s : State) (f : List Byte), (s.hub.portUp 2 = false)) ∧
    (∃ (s : State) (p : Nat) (x : Hub), ((s.hub.detour p).active = true) ∧ ((s.hub.detour p).releasing = none) ∧ (s.hub.portUp p = true) ∧
      (x = s.hub.until ((s.hub.port p).since + ms (s.hub.pget P.RL_DETOUR_RELEASE 0)))) ∧
    (∃ (s : State) (p t : Nat) (x : Hub), ((s.hub.detour p).releasing = some t) ∧ ((s.hub.detour p).active = true) ∧ (s.hub.portUp p = true) ∧
      (x = s.hub.until (if (s.hub.detour p).cells = 0 then t else max t ((s.hub.detour p).lastAt + us (s.hub.pget P.RL_DETOUR_QUIET 0))))) ∧
    (∃ (s : State) (p t : Nat) (x : Hub), (s.hub.portUp p = true) ∧ (x = s.hub.untilLine t)) ∧
    (∃ (s : State) (p : Nat) (f : List Byte) (l : LineState) (x : Hub), (s.hub.portUp p = true) ∧
      (l = ⟨bit (byteAt f 0) 7, bit (byteAt f 0) 6, b2n (bit (byteAt f 0) 5), be f 1 2 % 4096, byteAt f 3 / 16, byteAt f 3 % 16, be f 4 2, be f 6 4⟩) ∧
      (x = s.hub.modPort p (fun q => { q with time := { q.time with line := some l } })) ∧ (x.idConflicts p l = false)) ∧
    (∃ (s : State) (p : Nat) (f : List Byte) (l : LineState) (x : Hub), (s.hub.portUp p = true) ∧
      (l = ⟨bit (byteAt f 0) 7, bit (byteAt f 0) 6, b2n (bit (byteAt f 0) 5), be f 1 2 % 4096, byteAt f 3 / 16, byteAt f 3 % 16, be f 4 2, be f 6 4⟩) ∧
      (x = s.hub.modPort p (fun q => { q with time := { q.time with line := some l } })) ∧ (x.idConflicts p l = true)) ∧
    (∃ (h : Hub) (l : LineState), (h.isHead = false) ∧ (h.rl.idValid = false) ∧ (h.pget P.RL_ID_MODE 0 = 0) ∧ (h.portUp 0 = true) ∧ ((h.port 0).time.line = some l) ∧
      (l.idValid = true) ∧ l.nodeId ≤ 4093) ∧
    (∃ (h : Hub) (l : LineState), (h.isHead = false) ∧ (h.rl.idValid = false) ∧ (h.pget P.RL_ID_MODE 0 = 0) ∧ (h.portUp 0 = true) ∧ ((h.port 0).time.line = some l) ∧
      (l.idValid = true) ∧ (l.nodeId = 4094)) ∧
    (∃ (s : State) (mb n : Nat) (x : Hub), (s.hub.isHead = false) ∧ (s.hub.conflictsOutside mb P.RL_REENUMERATE 0 = false) ∧
      (x = s.hub.modRail (fun r => { r with idValid := false, nodeId := 0, overTold := false })) ∧ (s.hub.pget P.RL_ID_MODE 0 = 1) ∧
      (n = s.hub.pget P.RL_NODE_ID_FIXED 0) ∧ 1 ≤ n ∧ n ≤ 4094) :=
  ⟨⟨W.on (fun h => let h := h.modPort 2 (fun y => { y with state := .up }); h), by decide +kernel⟩,
   ⟨W.on (fun h => let h := h.modPort 2 (fun y => { y with state := .up }); h), [], by decide +kernel⟩,
   ⟨W.on (fun h => let h := h.modPort 2 (fun y => { y with state := .detect }); h), [], by decide +kernel⟩,
   ⟨W.on (fun h => let h := h.modDetour 0 (fun y => { y with active := true }); let h := h.modDetour 0 (fun y => { y with releasing := none }); let h := h.modPort 0 (fun y => { y with state := .up }); h),
    0, _, by decide +kernel, by decide +kernel, by decide +kernel, rfl⟩,
   ⟨W.on (fun h => let h := h.modDetour 0 (fun y => { y with releasing := some 0 }); let h := h.modDetour 0 (fun y => { y with active := true }); let h := h.modPort 0 (fun y => { y with state := .up }); h),
    0, 0, _, by decide +kernel, by decide +kernel, by decide +kernel, rfl⟩,
   ⟨W.on (fun h => let h := h.modPort 0 (fun y => { y with state := .up }); h), 0, 0, _, by decide +kernel, rfl⟩,
   ⟨W.on (fun h => let h := h.modPort 0 (fun y => { y with state := .up }); h), 0, [], _, _, by decide +kernel, rfl, rfl, by decide +kernel⟩,
   ⟨W.on (fun h => let h := h.modPort 0 (fun y => { y with state := .up }); let h : Hub := { h with rl := { h.rl with idValid := true } }; let h : Hub := { h with rl := { h.rl with nodeId := 3 } }; h),
    0, ([128#8, 0#8, 9#8] ++ W.z 7), _, _, by decide +kernel, rfl, rfl, by decide +kernel⟩,
   ⟨(W.on (fun h => let h : Hub := { h with straps := 0 }; let h : Hub := { h with rl := { h.rl with idValid := false } }; let h := h.pset P.RL_ID_MODE 0 0; let h := h.modPort 0 (fun y => { y with state := .up }); let h := h.modPort 0 (fun y => { y with time := { y.time with line := some ⟨true, false, 0, 4, 0, 0, 0, 0⟩ } }); h)).hub,
    ⟨true, false, 0, 4, 0, 0, 0, 0⟩, by decide +kernel⟩,
   ⟨(W.on (fun h => let h : Hub := { h with straps := 0 }; let h : Hub := { h with rl := { h.rl with idValid := false } }; let h := h.pset P.RL_ID_MODE 0 0; let h := h.modPort 0 (fun y => { y with state := .up }); let h := h.modPort 0 (fun y => { y with time := { y.time with line := some ⟨true, false, 0, 4094, 0, 0, 0, 0⟩ } }); h)).hub,
    ⟨true, false, 0, 4094, 0, 0, 0, 0⟩, by decide +kernel⟩,
   ⟨W.on (fun h => let h : Hub := { h with straps := 0 }; let h := h.pset P.RL_ID_MODE 0 1; let h := h.pset P.RL_NODE_ID_FIXED 0 4094; h), 0,
    4094, _, by decide +kernel, by decide +kernel, rfl, by decide +kernel⟩⟩

/-- States and operands that meet the hypotheses of `Obligations.LineTimeIsCarriedAndCaptured`, clause by clause. -/
theorem test_witness_LineTimeIsCarriedAndCaptured :
    (∃ (s : State) (p t : Nat) (x : Hub), (s.hub.portUp p = true) ∧ (x = s.hub.untilLine t)) ∧
    (∃ (s : State) (p t frac : Nat) (f : List Byte) (x : Hub) (o : Int), (s.hub.portUp p = true) ∧ (x = s.hub.atPin t frac) ∧
      (o = (be f 0 8 : Int) * 65536 + be f 8 2 + (x.port p).time.delay + x.pgetSigned P.RL_ASYM p * 65536 / 2000 - ((t : Int) * 65536 + frac)) ∧
      (x.timeMaster = false) ∧ (x.pickSource = some p) ∧ (x.rl.ts = .free) ∧ (x.pget P.RL_TIME_SOURCE_MODE 0 ≠ 3) ∧
      16 ≤ (x.port p).time.delays.length) ∧
    (∃ (s : State) (p t frac : Nat) (f : List Byte), (s.hub.portUp p = true) ∧ ((s.hub.atPin t frac).timeMaster = true ∨ (s.hub.atPin t frac).pickSource ≠ some p)) ∧
    (∃ (s : State) (p t : Nat) (x : Hub), (s.hub.portUp p = true) ∧ (x = s.hub.untilLine t)) ∧
    (∃ (s : State) (p t frac : Nat) (f : List Byte), (s.hub.portUp p = true)) ∧
    (∃ (s : State) (p t n rx : Nat) (x : Hub), (s.hub.portUp p = true) ∧ ((s.hub.port p).time.answer = some (n, rx)) ∧ (x = s.hub.untilLine t)) ∧
    (∃ (s : State) (p t frac n t3 : Nat) (f : List Byte), (s.hub.portUp p = true) ∧ ((s.hub.port p).time.reqAt = some (n, t3)) ∧ (byteAt f 0 = n)) ∧
    (∃ (s : State) (x : Hub), (s.hub.rl.ts = .holdover) ∧ (x = s.hub.until (s.hub.rl.holdAt + 1000000000 * s.hub.pget P.RL_HOLDOVER_LIMIT 0))) ∧
    (∃ (s : State) (mb v : Nat), v < 2 ^ 64 ∧ (s.hub.isHead = true) ∧ (s.hub.isTwinB = false) ∧ (s.hub.conflictsOutside mb P.RL_TIME_STEP 0 = false)) ∧
    (∃ (s : State) (x : Hub), (x = s.hub.untilLine (roundUp (s.hub.clk.ns + 1) 1000000000)) ∧
      (x.pget P.RL_PPS_MODE 0 = 2 ∨ (x.pget P.RL_PPS_MODE 0 = 1 ∧ x.synced = true)) ∧ (x.rl.pps = false)) ∧
    (∃ (s : State) (x : Hub), (s.hub.rl.pps = true) ∧ (x = s.hub.untilLine (s.hub.clk.ns / 1000000000 * 1000000000 + us (s.hub.pget P.RL_PPS_WIDTH 0))) ∧
      (x.rl.pps = true)) ∧
    (∃ (s : State) (i t : Nat) (r : Bool) (x : Hub), (x = s.hub.untilLine t) ∧ (bit (x.pget P.RL_TCAP_EDGE i) (if r then 0 else 1) = true) ∧ (x.rl.tcap i).1.length < 16) ∧
    (∃ (s : State) (i t : Nat) (r : Bool) (x : Hub), (x = s.hub.untilLine t) ∧ (bit (x.pget P.RL_TCAP_EDGE i) (if r then 0 else 1) = true) ∧ 16 ≤ (x.rl.tcap i).1.length) :=
  ⟨⟨W.on (fun h => let h := h.modPort 0 (fun y => { y with state := .up }); h), 0, 0, _, by decide +kernel, rfl⟩,
   ⟨W.on (fun h => let h := h.modPort 0 (fun y => { y with state := .up }); let h : Hub := { h with rl := { h.rl with ts := .free } }; let h := h.modPort 0 (fun y => { y with time := { y.time with line := some ⟨true, false, 0, 2, 4, 1, 0, 0⟩, delays := List.replicate 16 0 } }); h),
    0, 0, 0, [], _, _, by decide +kernel, rfl, rfl, by decide +kernel⟩,
   ⟨W.on (fun h => let h := h.modPort 0 (fun y => { y with state := .up }); h), 0, 0, 0, [], by decide +kernel⟩,
   ⟨W.on (fun h => let h := h.modPort 0 (fun y => { y with state := .up }); h), 0, 0, _, by decide +kernel, rfl⟩,
   ⟨W.on (fun h => let h := h.modPort 0 (fun y => { y with state := .up }); h), 0, 0, 0, [], by decide +kernel⟩,
   ⟨W.on (fun h => let h := h.modPort 0 (fun y => { y with state := .up }); let h := h.modPort 0 (fun y => { y with time := { y.time with answer := some (0, 0) } }); h),
    0, 0, 0, 0, _, by decide +kernel, by decide +kernel, rfl⟩,
   ⟨W.on (fun h => let h := h.modPort 0 (fun y => { y with state := .up }); let h := h.modPort 0 (fun y => { y with time := { y.time with reqAt := some (0, 0) } }); h),
    0, 0, 0, 0, 0, [], by decide +kernel⟩,
   ⟨W.on (fun h => let h : Hub := { h with rl := { h.rl with ts := .holdover } }; h), _, by decide +kernel, rfl⟩,
   ⟨W.on (fun h => let h : Hub := { h with straps := 5 }; h), 0, 2 ^ 64 - 1, by decide +kernel⟩,
   ⟨W.on (fun h => let h : Hub := { h with rl := { h.rl with pps := false } }; let h := h.pset P.RL_PPS_MODE 0 2; h), _, rfl, by decide +kernel⟩,
   ⟨W.on (fun h => let h : Hub := { h with rl := { h.rl with pps := true } }; let h : Hub := { h with rl := { h.rl with pps := true } }; h), _,
    by decide +kernel, rfl, by decide +kernel⟩,
   ⟨W.on (fun h => let h := h.pset P.RL_TCAP_EDGE 1 1; h), 1, 0, true, _, rfl, by decide +kernel⟩,
   ⟨W.on (fun h => let h := h.pset P.RL_TCAP_EDGE 0 2; let h : Hub := { h with rl := { h.rl with tcap0 := List.replicate 16 ⟨0, true⟩ } }; h),
    0, 0, false, _, rfl, by decide +kernel⟩⟩

/-- States and operands that meet the hypotheses of `Obligations.EventsAreDispatchedOneByOne`, clause by clause. -/
theorem test_witness_EventsAreDispatchedOneByOne :
    (∃ (s : State), (s.hub.works 5 = false)) ∧
    (∃ (s : State) (src : Nat) (e : DEvent) (rest : List DEvent) (x y : Hub), (s.hub.works 5 = true) ∧ (s.hub.nextSource = some src) ∧ (nth s.hub.de.queues src [] = e :: rest) ∧
      (y = (if s.hub.de.lastAt = 0 then s.hub else s.hub.until (s.hub.de.lastAt - 1 + s.hub.dispatchGap))) ∧
      (x = (y.modDe (fun d => { d with queues := modAt d.queues src (fun _ => rest), last := src, lastAt := y.clk.up + 1 })).bump P.DE_LOOKUPS 0) ∧
      (x.de.active.bind (fun b => x.lookup b (fit 32 e.key) e.source) = none) ∧ ((x.bump P.DE_MISS 0).pget P.DE_MISS_ACTION 0 ≠ 1)) ∧
    (∃ (s : State) (src : Nat) (e : DEvent) (rest : List DEvent) (x y : Hub), (s.hub.works 5 = true) ∧ (s.hub.nextSource = some src) ∧ (nth s.hub.de.queues src [] = e :: rest) ∧
      (y = (if s.hub.de.lastAt = 0 then s.hub else s.hub.until (s.hub.de.lastAt - 1 + s.hub.dispatchGap))) ∧
      (x = (y.modDe (fun d => { d with queues := modAt d.queues src (fun _ => rest), last := src, lastAt := y.clk.up + 1 })).bump P.DE_LOOKUPS 0) ∧
      (x.de.active.bind (fun b => x.lookup b (fit 32 e.key) e.source) = none) ∧ ((x.bump P.DE_MISS 0).pget P.DE_MISS_ACTION 0 = 1)) ∧
    (∃ (s : State) (src : Nat) (e : DEvent) (rest : List DEvent) (x y : Hub) (f : Found) (g : Hub),
      (s.hub.works 5 = true) ∧ (s.hub.nextSource = some src) ∧ (nth s.hub.de.queues src [] = e :: rest) ∧
      (y = (if s.hub.de.lastAt = 0 then s.hub else s.hub.until (s.hub.de.lastAt - 1 + s.hub.dispatchGap))) ∧
      (x = (y.modDe (fun d => { d with queues := modAt d.queues src (fun _ => rest), last := src, lastAt := y.clk.up + 1 })).bump P.DE_LOOKUPS 0) ∧
      (x.de.active.bind (fun b => x.lookup b (fit 32 e.key) e.source) = some f) ∧
      (g = ((x.bump P.DE_HITS 0).cacheHit (fit 32 e.key) f).1) ∧ (((x.bump P.DE_HITS 0).cacheHit (fit 32 e.key) f).2 = true)) ∧
    (∃ (s : State) (src : Nat) (e : DEvent) (rest : List DEvent) (x y : Hub) (f : Found) (g : Hub),
      (s.hub.works 5 = true) ∧ (s.hub.nextSource = some src) ∧ (nth s.hub.de.queues src [] = e :: rest) ∧
      (y = (if s.hub.de.lastAt = 0 then s.hub else s.hub.until (s.hub.de.lastAt - 1 + s.hub.dispatchGap))) ∧
      (x = (y.modDe (fun d => { d with queues := modAt d.queues src (fun _ => rest), last := src, lastAt := y.clk.up + 1 })).bump P.DE_LOOKUPS 0) ∧
      (x.de.active.bind (fun b => x.lookup b (fit 32 e.key) e.source) = some f) ∧
      (g = ((x.bump P.DE_HITS 0).cacheHit (fit 32 e.key) f).1) ∧ (((x.bump P.DE_HITS 0).cacheHit (fit 32 e.key) f).2 = false)) ∧
    (∃ (s : State) (f : Frame), (f.control = true ∨ decisionGood f.bytes = false)) ∧
    (∃ (s : State) (f : Frame) (x : Hub), (f.control = false) ∧ (decisionGood f.bytes = true) ∧ (byteAt f.bytes 0 ≠ 2) ∧ (x = s.hub.takeFrame 7 f) ∧ (x.pget P.DE_ENABLE 0 ≠ 0) ∧
      (x.works 5 = true) ∧ (nth x.de.queues 0 []).length < 1024) ∧
    (∃ (s : State) (f : Frame) (x : Hub), (f.control = false) ∧ (decisionGood f.bytes = true) ∧ (byteAt f.bytes 0 ≠ 2) ∧ (x = s.hub.takeFrame 7 f) ∧
      (x.pget P.DE_ENABLE 0 = 0 ∨ 1024 ≤ (nth x.de.queues 0 []).length)) ∧
    (∃ (s : State) (f : Frame) (x : Hub) (w size : Nat), (f.control = false) ∧ (decisionGood f.bytes = true) ∧ (byteAt f.bytes 0 = 2) ∧ (x = s.hub.takeFrame 7 f) ∧ (w = x.pget P.DE_FWD_WRITE 0) ∧
      (size = x.pget P.DE_FWD_RING_SIZE 0) ∧ (size ≠ 0) ∧ ((w + 2 ^ 32 - x.pget P.DE_FWD_READ 0) % 2 ^ 32 ≠ size) ∧
      ((w + 2 ^ 32 - x.pget P.DE_FWD_READ 0) % 2 ^ 32 ≠ 0)) ∧
    (∃ (s : State) (f : Frame) (x : Hub), (f.control = false) ∧ (gpioGood f.bytes = true) ∧ (byteAt f.bytes 0 ≠ 1) ∧ (x = s.hub.takeFrame 7 f)) ∧
    (∃ (s : State) (n t : Nat) (r : Bool) (x : Hub),
      (x = (s.hub.untilLine t).modPin n (fun p => { p with input := r })) ∧ ((x.pinCfg n).dir = 1) ∧ (x.works 5 = true) ∧
      ((x.pinCfg n).glitch = 0) ∧ ((if r then (x.pinCfg n).rising else (x.pinCfg n).falling) = true) ∧ ((x.pinCfg n).toDe = true) ∧
      ((x.pinCfg n).report = false) ∧ (x.pget P.DE_ENABLE 0 ≠ 0) ∧ (nth x.de.queues 3 []).length < 1024 ∧ (x.pw.state = .run)) ∧
    (∃ (s : State) (n t : Nat) (r : Bool) (x : Hub),
      (x = (s.hub.untilLine t).modPin n (fun p => { p with input := r })) ∧ ((x.pinCfg n).dir = 1) ∧ (x.works 5 = false) ∧
      ((x.pinCfg n).glitch = 0) ∧ ((if r then (x.pinCfg n).rising else (x.pinCfg n).falling) = true) ∧ ((x.pinCfg n).toDe = true) ∧
      (x.pw.state = .run)) ∧
    (∃ (s : State) (n t : Nat) (r : Bool) (x : Hub),
      (x = (s.hub.untilLine t).modPin n (fun p => { p with input := r })) ∧ ((x.pinCfg n).dir ≠ 1) ∧ (x.pw.state = .run)) :=
  ⟨⟨W.on (fun h => let h := h.modIsland 5 (fun y => { y with inReset := true }); h), by decide +kernel⟩,
   ⟨W.on (fun h => let h : Hub := { h with de := { h.de with queues := [[⟨0, [], 0, 0, 0, 0⟩], [], [], []] } }; let h := h.pset P.DE_MISS_ACTION 0 0; h),
    0, ⟨0, [], 0, 0, 0, 0⟩, [], _, _, by decide +kernel, by decide +kernel, by decide +kernel, rfl, rfl, by decide +kernel⟩,
   ⟨W.on (fun h => let h : Hub := { h with de := { h.de with queues := [[⟨0, [], 0, 0, 0, 0⟩], [], [], []] } }; let h := h.pset P.DE_MISS_ACTION 0 1; h),
    0, ⟨0, [], 0, 0, 0, 0⟩, [], _, _, by decide +kernel, by decide +kernel, by decide +kernel, rfl, rfl, by decide +kernel⟩,
   ⟨W.on (fun h => let h : Hub := { h with de := { h.de with queues := [[⟨0, [], 0, 0, 0, 0⟩], [], [], []] } }; let h : Hub := { h with de := { h.de with active := some 1 } }; let h := h.pset P.DE_BUCKET_ORDER 1 8; let h : Hub := { h with dram := writeMem h.dram 536914432 (W.z 56 ++ [128#8] ++ W.z 7) }; let h := h.modDe (fun d => { d with cache := [(1706, [⟨680, false⟩])] }); h),
    0, ⟨0, [], 0, 0, 0, 0⟩, [], _, _,
    ⟨170, false, 0, (W.z 56 ++ [128#8] ++ W.z 7)⟩,
    _, by decide +kernel, by decide +kernel, by decide +kernel, rfl, rfl, by decide +kernel, rfl, by decide +kernel⟩,
   ⟨W.on (fun h => let h : Hub := { h with de := { h.de with queues := [[⟨0, [], 0, 0, 0, 0⟩], [], [], []] } }; let h : Hub := { h with de := { h.de with active := some 1 } }; let h := h.pset P.DE_BUCKET_ORDER 1 8; let h : Hub := { h with dram := writeMem h.dram 536914432 (W.z 56 ++ [128#8] ++ W.z 7) }; h),
    0, ⟨0, [], 0, 0, 0, 0⟩, [], _, _,
    ⟨170, false, 0, (W.z 56 ++ [128#8] ++ W.z 7)⟩,
    _, by decide +kernel, by decide +kernel, by decide +kernel, rfl, rfl, by decide +kernel, rfl, by decide +kernel⟩,
   ⟨W.on id, ⟨0, 0, false, []⟩, by decide +kernel⟩,
   ⟨W.on id,
    ⟨0, 0, false, ([1#8, 0#8, 1#8] ++ W.z 29 ++ [1#8])⟩,
    _, by decide +kernel, by decide +kernel, by decide +kernel, rfl, by decide +kernel⟩,
   ⟨W.on (fun h => let h := h.pset P.DE_ENABLE 0 0; h),
    ⟨0, 0, false, ([1#8, 0#8, 1#8] ++ W.z 29 ++ [1#8])⟩,
    _, by decide +kernel, by decide +kernel, by decide +kernel, rfl, by decide +kernel⟩,
   ⟨W.on (fun h => let h := h.pset P.DE_FWD_WRITE 0 1; let h := h.pset P.DE_FWD_RING_SIZE 0 4; h),
    ⟨0, 0, false, ([2#8, 0#8, 1#8] ++ W.z 29 ++ [1#8])⟩,
    _, 1, 4, by decide +kernel, by decide +kernel, by decide +kernel, rfl, by decide +kernel⟩,
   ⟨W.on id, ⟨0, 0, false, ([2#8, 31#8, 1#8] ++ W.z 13)⟩, _, by decide +kernel,
    by decide +kernel, by decide +kernel, rfl⟩,
   ⟨W.on (fun h => let h : Hub := { h with pw := { h.pw with state := .run } }; let h := h.pset P.DE_GPIO_CFG 31 21; h), 31, 0, true, _, rfl,
    by decide +kernel⟩,
   ⟨W.on (fun h => let h : Hub := { h with pw := { h.pw with state := .run } }; let h := h.pset P.DE_GPIO_CFG 31 21; let h := h.modIsland 5 (fun y => { y with inReset := true }); h),
    31, 0, true, _, rfl, by decide +kernel⟩,
   ⟨W.on (fun h => let h : Hub := { h with pw := { h.pw with state := .run } }; h), 0, 0, false, _, rfl, by decide +kernel⟩⟩

/-- States and operands that meet the hypotheses of `Obligations.ActuationsKeepTheirDueTime`, clause by clause. -/
theorem test_witness_ActuationsKeepTheirDueTime :
    (∃ (s : State) (f : Frame) (n : Nat) (x : Hub), (f.control = false) ∧ (gpioGood f.bytes = true) ∧ (byteAt f.bytes 0 = 1) ∧ (n = byteAt f.bytes 1) ∧ (x = s.hub.takeFrame 7 f) ∧
      ((x.pinCfg n).dir = 2) ∧ x.clk.ns ≤ be f.bytes 8 8 ∧ be f.bytes 8 8 - x.clk.ns ≤ 2 ^ 40 ∧ (x.pin n).queue.length < 16) ∧
    (∃ (s : State) (f : Frame) (n : Nat) (x : Hub), (f.control = false) ∧ (gpioGood f.bytes = true) ∧ (byteAt f.bytes 0 = 1) ∧ (n = byteAt f.bytes 1) ∧ (x = s.hub.takeFrame 7 f) ∧
      ((x.pinCfg n).dir = 2) ∧ x.clk.ns ≤ be f.bytes 8 8 ∧ be f.bytes 8 8 - x.clk.ns ≤ 2 ^ 40 ∧ 16 ≤ (x.pin n).queue.length) ∧
    (∃ (s : State) (f : Frame) (n : Nat) (x : Hub), (f.control = false) ∧ (gpioGood f.bytes = true) ∧ (byteAt f.bytes 0 = 1) ∧ (n = byteAt f.bytes 1) ∧ (x = s.hub.takeFrame 7 f) ∧
      ((x.pinCfg n).dir = 2) ∧ x.clk.ns + 2 ^ 40 < be f.bytes 8 8) ∧
    (∃ (s : State) (f : Frame) (n : Nat) (x : Hub), (f.control = false) ∧ (gpioGood f.bytes = true) ∧ (byteAt f.bytes 0 = 1) ∧ (n = byteAt f.bytes 1) ∧ (x = s.hub.takeFrame 7 f) ∧
      ((x.pinCfg n).dir ≠ 2)) ∧
    (∃ (s : State) (f : Frame) (n : Nat) (x : Hub), (f.control = false) ∧ (gpioGood f.bytes = true) ∧ (byteAt f.bytes 0 = 1) ∧ (n = byteAt f.bytes 1) ∧ (x = s.hub.takeFrame 7 f) ∧
      ((x.pinCfg n).dir = 2) ∧ be f.bytes 8 8 < x.clk.ns ∧ x.clk.ns - be f.bytes 8 8 ≤ us (x.pget P.DE_LATE_GRACE 0)) ∧
    (∃ (s : State) (f : Frame) (n : Nat) (x : Hub), (f.control = false) ∧ (gpioGood f.bytes = true) ∧ (byteAt f.bytes 0 = 1) ∧ (n = byteAt f.bytes 1) ∧ (x = s.hub.takeFrame 7 f) ∧
      ((x.pinCfg n).dir = 2) ∧ be f.bytes 8 8 < x.clk.ns ∧ us (x.pget P.DE_LATE_GRACE 0) < x.clk.ns - be f.bytes 8 8) ∧
    (∃ (s : State) (f : Frame), (f.control = true ∨ gpioGood f.bytes = false)) ∧
    (∃ (s : State) (n : Nat) (c : PinCmd) (cs : List PinCmd) (x : Hub), ((s.hub.pin n).queue = c :: cs) ∧ (x = (s.hub.untilLine c.due).modPin n (fun p => { p with queue := cs })) ∧ (c.mode = 0)) ∧
    (∃ (s : State) (n : Nat) (c : PinCmd) (cs : List PinCmd) (x : Hub), ((s.hub.pin n).queue = c :: cs) ∧ (x = (s.hub.untilLine c.due).modPin n (fun p => { p with queue := cs })) ∧ (c.mode ≠ 0)) ∧
    (∃ (s : State) (n e : Nat), ((s.hub.pin n).pulse = some e)) :=
  ⟨⟨W.on (fun h => let h := h.pset P.DE_GPIO_CFG 31 2; h),
    ⟨0, 0, false, ([1#8, 31#8] ++ W.z 5 ++ [1#8, 0#8, 0#8, 1#8] ++ W.z 5)⟩, _, _, by decide +kernel,
    by decide +kernel, by decide +kernel, rfl, rfl, by decide +kernel⟩,
   ⟨W.on (fun h => let h := h.pset P.DE_GPIO_CFG 31 2; let h := h.modPin 31 (fun y => { y with queue := List.replicate 16 ⟨0, 0, 1⟩ }); h),
    ⟨0, 0, false, ([1#8, 31#8] ++ W.z 5 ++ [1#8] ++ W.z 8)⟩, _, _, by decide +kernel,
    by decide +kernel, by decide +kernel, rfl, rfl, by decide +kernel⟩,
   ⟨W.on (fun h => let h := h.pset P.DE_GPIO_CFG 31 2; h),
    ⟨0, 0, false, ([1#8, 31#8] ++ W.z 5 ++ [1#8, 0#8, 0#8, 1#8, 0#8, 0#8, 0#8, 0#8, 1#8])⟩, _, _, by decide +kernel,
    by decide +kernel, by decide +kernel, rfl, rfl, by decide +kernel⟩,
   ⟨W.on id, ⟨0, 0, false, ([1#8, 31#8] ++ W.z 5 ++ [1#8] ++ W.z 8)⟩, _, _, by decide +kernel,
    by decide +kernel, by decide +kernel, rfl, rfl, by decide +kernel⟩,
   ⟨W.on (fun h => let h := h.pset P.DE_GPIO_CFG 31 2; let h : Hub := { h with clk := { h.clk with ns := 1000000 } }; h),
    ⟨0, 0, false, ([1#8, 31#8] ++ W.z 5 ++ [1#8] ++ W.z 8)⟩, _, _, by decide +kernel,
    by decide +kernel, by decide +kernel, rfl, rfl, by decide +kernel⟩,
   ⟨W.on (fun h => let h := h.pset P.DE_GPIO_CFG 31 2; let h : Hub := { h with clk := { h.clk with ns := 1000001 } }; h),
    ⟨0, 0, false, ([1#8, 31#8] ++ W.z 5 ++ [1#8] ++ W.z 8)⟩, _, _, by decide +kernel,
    by decide +kernel, by decide +kernel, rfl, rfl, by decide +kernel⟩,
   ⟨W.on id, ⟨0, 0, false, []⟩, by decide +kernel⟩,
   ⟨W.on (fun h => let h := h.modPin 0 (fun y => { y with queue := [⟨5, 0, 1⟩] }); h), 0, ⟨5, 0, 1⟩, [], _, by decide +kernel, rfl,
    by decide +kernel⟩,
   ⟨W.on (fun h => let h := h.modPin 0 (fun y => { y with queue := [⟨5, 2, 0⟩] }); h), 0, ⟨5, 2, 0⟩, [], _, by decide +kernel, rfl,
    by decide +kernel⟩,
   ⟨W.on (fun h => let h := h.modPin 0 (fun y => { y with pulse := some 0 }); h), 0, 0, by decide +kernel⟩⟩

/-- States and operands that meet the hypotheses of `Obligations.BanksAreLoadedCheckedAndRead`, clause by clause. -/
theorem test_witness_BanksAreLoadedCheckedAndRead :
    (∃ (s : State) (q : Req) (a : Hub) (off n : Nat), (s.hub.asks q 0x0501 = true) ∧ (a = s.hub.asked q 0x0501) ∧ (q.payload.length = 24) ∧ (off = le q.payload 8 4) ∧ (n = le q.payload 12 4) ∧
      (le q.payload 20 4 = 0) ∧ (off % 256 = 0) ∧ (n % 256 = 0) ∧ off + n ≤ 0x20000000 ∧ (a.inMemt (le q.payload 0 8) n = true) ∧
      (a.bankRefusal = none) ∧ a.ctl.ops.length < 16) ∧
    (∃ (s : State) (q : Req) (a : Hub), (s.hub.asks q 0x0502 = true) ∧ (a = s.hub.asked q 0x0502) ∧ (q.payload.length = 4) ∧ (le q.payload 0 4 = 0) ∧ (a.bankRefusal = none) ∧
      a.ctl.ops.length < 16) ∧
    (∃ (s : State) (q : Req) (a : Hub), (s.hub.asks q 0x0502 = true) ∧ (a = s.hub.asked q 0x0502) ∧ (q.payload.length = 4) ∧ (le q.payload 0 4 = 0) ∧ (a.bankOp.isSome = true)) ∧
    (∃ (s : State) (token b src off n crc : Nat) (o : LongOp) (x y : Hub), (y = s.hub.serveTurn) ∧ (y.op token = some o) ∧ (o.work = .bankLoad b src off n crc) ∧
      (x = { y with dram := copyMem y.dram (y.memt src) (bankBase b + off) n })) ∧
    (∃ (s : State) (token b r bk : Nat) (o : LongOp) (y : Hub), (y = s.hub.serveTurn) ∧ (y.op token = some o) ∧ (o.work = .bankCheck b) ∧ (y.bankFault b = some (r, bk))) ∧
    (∃ (s : State) (token b : Nat) (o : LongOp) (y : Hub), (y = s.hub.serveTurn) ∧ (y.op token = some o) ∧ (o.work = .bankCheck b) ∧ (y.bankFault b = none)) ∧
    (∃ (s : State) (q : Req) (a : Hub), (s.hub.asks q 0x0503 = true) ∧ (a = s.hub.asked q 0x0503) ∧ (q.payload = [])) ∧
    (∃ (s : State) (q : Req) (a : Hub) (n : Nat) (k : List Byte) (f : Found), (s.hub.asks q 0x0504 = true) ∧ (a = s.hub.asked q 0x0504) ∧ (q.payload.length = 36) ∧ (n = le q.payload 1 1) ∧ (le q.payload 3 1 = 0) ∧
      le q.payload 0 1 ≤ 1 ∧ 1 ≤ n ∧ n ≤ 32 ∧ le q.payload 2 1 ≤ 3 ∧ (k = fit 32 (slice q.payload 4 n)) ∧
      ((if le q.payload 0 1 = 1 then some a.shadow else a.de.active).bind (fun b => a.lookup b k (le q.payload 2 1)) = some f)) :=
  ⟨⟨W.on id,
    (W.q (W.z 24) 3 0), _,
    _, _, by decide +kernel, rfl, by decide +kernel, rfl, rfl, by decide +kernel⟩,
   ⟨W.on id, (W.q [0#8, 0#8, 0#8, 0#8] 3 0), _, by decide +kernel, rfl, by decide +kernel⟩,
   ⟨W.on (fun h => let h : Hub := { h with ctl := { h.ctl with ops := [⟨1, 0, 3, 0, .bankCheck 1⟩] } }; h), (W.q [0#8, 0#8, 0#8, 0#8] 3 0), _,
    by decide +kernel, rfl, by decide +kernel⟩,
   ⟨W.on (fun h => let h : Hub := { h with ctl := { h.ctl with ops := [⟨1, 0, 3, 0, .bankLoad 1 0 0 64 0⟩] } }; h), 1, 1, 0, 0, 64, 0,
    ⟨1, 0, 3, 0, .bankLoad 1 0 0 64 0⟩, _, _, rfl, by decide +kernel, by decide +kernel, rfl⟩,
   ⟨W.on (fun h => let h : Hub := { h with ctl := { h.ctl with ops := [⟨1, 0, 3, 0, .bankCheck 1⟩] } }; let h : Hub := { h with dram := writeMem h.dram 536871680 (W.z 56 ++ [128#8, 0#8, 1#8] ++ W.z 5) }; h),
    1, 1, 1, 3, ⟨1, 0, 3, 0, .bankCheck 1⟩, _, rfl, by decide +kernel⟩,
   ⟨W.on (fun h => let h : Hub := { h with ctl := { h.ctl with ops := [⟨1, 0, 3, 0, .bankCheck 1⟩] } }; h), 1, 1, ⟨1, 0, 3, 0, .bankCheck 1⟩,
    _, rfl, by decide +kernel⟩,
   ⟨W.on id, (W.q [] 3 0), _, by decide +kernel, rfl, by decide +kernel⟩,
   ⟨W.on (fun h => let h : Hub := { h with de := { h.de with queues := [[⟨0, [], 0, 0, 0, 0⟩], [], [], []] } }; let h : Hub := { h with de := { h.de with active := some 1 } }; let h := h.pset P.DE_BUCKET_ORDER 1 8; let h : Hub := { h with dram := writeMem h.dram 536914432 (W.z 56 ++ [128#8] ++ W.z 7) }; h),
    (W.q ([0#8, 32#8, 0#8, 0#8] ++ List.replicate 32 0#8) 3 0), _, _, _,
    ⟨170, false, 0, (W.z 56 ++ [128#8] ++ W.z 7)⟩,
    by decide +kernel, rfl, by decide +kernel, rfl, by decide +kernel, by decide +kernel, by decide +kernel, (by decide +kernel),
    by decide +kernel, rfl, by decide +kernel⟩⟩

/-- States and operands that meet the hypotheses of `Obligations.WindowRequestsReachTheirTarget`, clause by clause. -/
theorem test_witness_WindowRequestsReachTheirTarget :
    (∃ (s : State) (f : Frame) (x : Hub), (f.control = false) ∧ (windowGood f.bytes = true) ∧ byteAt f.bytes 0 ≤ 3 ∧ (x = s.hub.takeFrame 3 f) ∧ (x.frameHolds f = false) ∧
      (x.ag.waiting = []) ∧ (x.ag.fillEnd = none) ∧ f ∉ x.br.ecc ∧ (x.targetWin f.entry (be f.bytes 8 8) (be f.bytes 4 2) = none)) ∧
    (∃ (s : State) (f : Frame) (x : Hub), (f.control = false) ∧ (windowGood f.bytes = true) ∧ byteAt f.bytes 0 ≤ 3 ∧ (x = s.hub.takeFrame 3 f) ∧ (x.frameHolds f = true)) ∧
    (∃ (s : State) (f : Frame) (x : Hub),
      (f.control = true ∨ windowGood f.bytes = false ∨ 3 < byteAt f.bytes 0) ∧ (x = s.hub.takeFrame 3 f)) ∧
    (∃ (h : Hub) (f : Frame) (i : Nat) (w : Window),
      (h.targetWin f.entry (be f.bytes 8 8) (be f.bytes 4 2) = some (i, w))) ∧
    (∃ (s : State) (f : Frame) (x : Hub) (m : Match) (w : Window) (st ex : List (Nat × Nat)) (g : Hub × Bool) (a : Nat),
      (f.control = false) ∧ (windowGood f.bytes = true) ∧ byteAt f.bytes 0 ≤ 3 ∧ (x = s.hub.takeFrame 3 f) ∧ (x.frameHolds f = false) ∧
      (x.ag.waiting = []) ∧ (x.ag.fillEnd = none) ∧ f ∉ x.br.ecc ∧ (x.matched f = some m) ∧ (w = m.window) ∧ (w.sel = 1) ∧
      (m.holds (w.trans + (be f.bytes 8 8 - w.base)) (be f.bytes 4 2) = true) ∧
      (w.convert (if byteAt f.bytes 0 = 3 then x.br.mrrs else x.br.mps) (be f.bytes 8 8) (be f.bytes 4 2) (byteAt f.bytes 0 ≠ 3) = some st) ∧
      (a = m.base + (w.trans + (be f.bytes 8 8 - w.base))) ∧
      (ex = (if byteAt f.bytes 0 = 3 then m.extraSteps (if byteAt f.bytes 0 = 3 then x.br.mrrs else x.br.mps) (be f.bytes 8 8) (be f.bytes 4 2) (be f.bytes 6 2) else [])) ∧
      (g = x.guard ⟨0, a, be f.bytes 4 2 + (ex.map (·.2)).sum, byteAt f.bytes 0 ≠ 3, 3, f.entry, if w.colour = 0 then (x.tun f.entry).colour else w.colour⟩ (byteAt f.bytes 0 = 1)) ∧
      (g.2 = false)) ∧
    (∃ (s : State) (f : Frame) (x : Hub) (m : Match) (w : Window) (st ex : List (Nat × Nat)) (g : Hub × Bool) (a : Nat),
      (f.control = false) ∧ (windowGood f.bytes = true) ∧ byteAt f.bytes 0 ≤ 3 ∧ (x = s.hub.takeFrame 3 f) ∧ (x.frameHolds f = false) ∧
      (x.ag.waiting = []) ∧ (x.ag.fillEnd = none) ∧ f ∉ x.br.ecc ∧ (x.matched f = some m) ∧ (w = m.window) ∧ (w.sel = 1) ∧
      (m.holds (w.trans + (be f.bytes 8 8 - w.base)) (be f.bytes 4 2) = true) ∧
      (w.convert (if byteAt f.bytes 0 = 3 then x.br.mrrs else x.br.mps) (be f.bytes 8 8) (be f.bytes 4 2) (byteAt f.bytes 0 ≠ 3) = some st) ∧
      (a = m.base + (w.trans + (be f.bytes 8 8 - w.base))) ∧
      (ex = (if byteAt f.bytes 0 = 3 then m.extraSteps (if byteAt f.bytes 0 = 3 then x.br.mrrs else x.br.mps) (be f.bytes 8 8) (be f.bytes 4 2) (be f.bytes 6 2) else [])) ∧
      (g = x.guard ⟨0, a, be f.bytes 4 2 + (ex.map (·.2)).sum, byteAt f.bytes 0 ≠ 3, 3, f.entry, if w.colour = 0 then (x.tun f.entry).colour else w.colour⟩ (byteAt f.bytes 0 = 1)) ∧
      (g.2 = true) ∧ (byteAt f.bytes 0 = 1)) ∧
    (∃ (s : State) (f : Frame) (x : Hub) (m : Match) (w : Window) (st ex : List (Nat × Nat)) (g : Hub × Bool) (a : Nat),
      (f.control = false) ∧ (windowGood f.bytes = true) ∧ byteAt f.bytes 0 ≤ 3 ∧ (x = s.hub.takeFrame 3 f) ∧ (x.frameHolds f = false) ∧
      (x.ag.waiting = []) ∧ (x.ag.fillEnd = none) ∧ f ∉ x.br.ecc ∧ (x.matched f = some m) ∧ (w = m.window) ∧ (w.sel = 1) ∧
      (m.holds (w.trans + (be f.bytes 8 8 - w.base)) (be f.bytes 4 2) = true) ∧
      (w.convert (if byteAt f.bytes 0 = 3 then x.br.mrrs else x.br.mps) (be f.bytes 8 8) (be f.bytes 4 2) (byteAt f.bytes 0 ≠ 3) = some st) ∧
      (a = m.base + (w.trans + (be f.bytes 8 8 - w.base))) ∧
      (ex = (if byteAt f.bytes 0 = 3 then m.extraSteps (if byteAt f.bytes 0 = 3 then x.br.mrrs else x.br.mps) (be f.bytes 8 8) (be f.bytes 4 2) (be f.bytes 6 2) else [])) ∧
      (g = x.guard ⟨0, a, be f.bytes 4 2 + (ex.map (·.2)).sum, byteAt f.bytes 0 ≠ 3, 3, f.entry, if w.colour = 0 then (x.tun f.entry).colour else w.colour⟩ (byteAt f.bytes 0 = 1)) ∧
      (g.2 = true) ∧ (byteAt f.bytes 0 = 2)) ∧
    (∃ (s : State) (f : Frame) (x : Hub) (m : Match) (w : Window) (st ex : List (Nat × Nat)) (g : Hub × Bool) (a : Nat),
      (f.control = false) ∧ (windowGood f.bytes = true) ∧ byteAt f.bytes 0 ≤ 3 ∧ (x = s.hub.takeFrame 3 f) ∧ (x.frameHolds f = false) ∧
      (x.ag.waiting = []) ∧ (x.ag.fillEnd = none) ∧ f ∉ x.br.ecc ∧ (x.matched f = some m) ∧ (w = m.window) ∧ (w.sel = 1) ∧
      (m.holds (w.trans + (be f.bytes 8 8 - w.base)) (be f.bytes 4 2) = true) ∧
      (w.convert (if byteAt f.bytes 0 = 3 then x.br.mrrs else x.br.mps) (be f.bytes 8 8) (be f.bytes 4 2) (byteAt f.bytes 0 ≠ 3) = some st) ∧
      (a = m.base + (w.trans + (be f.bytes 8 8 - w.base))) ∧
      (ex = (if byteAt f.bytes 0 = 3 then m.extraSteps (if byteAt f.bytes 0 = 3 then x.br.mrrs else x.br.mps) (be f.bytes 8 8) (be f.bytes 4 2) (be f.bytes 6 2) else [])) ∧
      (g = x.guard ⟨0, a, be f.bytes 4 2 + (ex.map (·.2)).sum, byteAt f.bytes 0 ≠ 3, 3, f.entry, if w.colour = 0 then (x.tun f.entry).colour else w.colour⟩ (byteAt f.bytes 0 = 1)) ∧
      (g.2 = true) ∧ (byteAt f.bytes 0 = 3)) ∧
    (∃ (h : Hub) (f : Frame) (m : Match) (st ex : List (Nat × Nat)), (byteAt f.bytes 0 = 3) ∧ (m.window.sel = 1 ∨ m.window.sel = 2)) ∧
    (∃ (s : State) (id st : Nat) (d : List Byte) (t : Target) (x : Hub),
      (s.hub.br.targets.find? (fun t => t.id == id) = some t) ∧
      (x = s.hub.modBr (fun r => { r with targets := r.targets.filter (fun x => x.id != id) })) ∧ (st ≠ 0)) ∧
    (∃ (s : State) (id : Nat) (d : List Byte) (t : Target) (x : Hub),
      (s.hub.br.targets.find? (fun t => t.id == id) = some t) ∧
      (x = s.hub.modBr (fun r => { r with targets := r.targets.filter (fun x => x.id != id) })) ∧ (t.op = 1)) ∧
    (∃ (s : State) (id : Nat) (d : List Byte) (t : Target) (x y : Hub),
      (s.hub.br.targets.find? (fun t => t.id == id) = some t) ∧
      (x = s.hub.modBr (fun r => { r with targets := r.targets.filter (fun x => x.id != id) })) ∧ (t.op ≠ 1) ∧
      (y = x.reply t.entry t.src t.op t.tag t.off 0 (swapUnits t.unit 4097 (fit (t.len + t.pf) d)))) :=
  ⟨⟨W.on (fun h => let h : Hub := { h with ag := { h.ag with waiting := [] } }; let h : Hub := { h with ag := { h.ag with fillEnd := none } }; h),
    ⟨4, 0, false, ([3#8, 0#8, 0#8, 0#8, 0#8, 1#8] ++ W.z 9 ++ [9#8] ++ W.z 8)⟩,
    _, by decide +kernel, by decide +kernel, by decide +kernel, rfl, by decide +kernel⟩,
   ⟨W.on (fun h => let h : Hub := { h with br := { h.br with targets := [⟨7, 4, 0, 1, 0, 0, 1, 0, 63, 1, 0, 0⟩] } }; h),
    ⟨4, 0, false, ([3#8, 0#8, 0#8, 0#8, 0#8, 1#8] ++ W.z 18)⟩,
    _, by decide +kernel, by decide +kernel, by decide +kernel, rfl, by decide +kernel⟩,
   ⟨W.on id, ⟨0, 0, false, []⟩, _, by decide +kernel, rfl⟩,
   ⟨(W.on (fun h => let h := h.tset 0x10 63 1393456292541243007882519017433110429827072; let h := h.pset P.BR_MEMT_SIZE 0 1048576; h)).hub,
    ⟨4, 0, false, ([1#8, 0#8, 0#8, 0#8, 0#8, 1#8] ++ W.z 8 ++ [15#8, 255#8] ++ W.z 8 ++ [1#8])⟩,
    63, (Window.ofNat 1393456292541243007882519017433110429827072), by decide +kernel⟩,
   ⟨W.on (fun h => let h : Hub := { h with ag := { h.ag with waiting := [] } }; let h : Hub := { h with ag := { h.ag with fillEnd := none } }; let h := h.tset 0x10 63 1393456292541243007882519017433110429827072; let h := h.pset P.BR_MEMT_SIZE 0 1048576; let h := h.pset P.AG_LOCK 0 1; h),
    ⟨4, 0, false, ([1#8, 0#8, 0#8, 0#8, 0#8, 1#8] ++ W.z 8 ++ [15#8, 255#8] ++ W.z 8 ++ [1#8])⟩,
    _, _, _, [(4095, 1)], _, _, _, by decide +kernel, by decide +kernel, by decide +kernel, rfl, by decide +kernel, by decide +kernel,
    by decide +kernel, (by decide +kernel), (Option.some_get (by decide +kernel : Option.isSome _ = true)).symm, rfl, by decide +kernel,
    by decide +kernel, by decide +kernel, rfl, rfl, rfl, by decide +kernel⟩,
   ⟨W.on (fun h => let h : Hub := { h with ag := { h.ag with waiting := [] } }; let h : Hub := { h with ag := { h.ag with fillEnd := none } }; let h := h.tset 0x10 63 1393456292541243007882519017433110429827072; let h := h.pset P.BR_MEMT_SIZE 0 1048576; h),
    ⟨4, 0, false, ([1#8, 0#8, 0#8, 0#8, 0#8, 1#8] ++ W.z 8 ++ [15#8, 255#8] ++ W.z 8 ++ [1#8])⟩,
    _, _, _, [(4095, 1)], _, _, _, by decide +kernel, by decide +kernel, by decide +kernel, rfl, by decide +kernel, by decide +kernel,
    by decide +kernel, (by decide +kernel), (Option.some_get (by decide +kernel : Option.isSome _ = true)).symm, rfl, by decide +kernel,
    by decide +kernel, by decide +kernel, rfl, rfl, rfl, by decide +kernel⟩,
   ⟨W.on (fun h => let h : Hub := { h with ag := { h.ag with waiting := [] } }; let h : Hub := { h with ag := { h.ag with fillEnd := none } }; let h := h.tset 0x10 63 1393456292541243007882519017433110429827072; let h := h.pset P.BR_MEMT_SIZE 0 1048576; h),
    ⟨4, 0, false, ([2#8, 0#8, 0#8, 0#8, 0#8, 1#8] ++ W.z 8 ++ [15#8, 255#8] ++ W.z 8 ++ [1#8])⟩,
    _, _, _, [(4095, 1)], _, _, _, by decide +kernel, by decide +kernel, by decide +kernel, rfl, by decide +kernel, by decide +kernel,
    by decide +kernel, (by decide +kernel), (Option.some_get (by decide +kernel : Option.isSome _ = true)).symm, rfl, by decide +kernel,
    by decide +kernel, by decide +kernel, rfl, rfl, rfl, by decide +kernel⟩,
   ⟨W.on (fun h => let h : Hub := { h with ag := { h.ag with waiting := [] } }; let h : Hub := { h with ag := { h.ag with fillEnd := none } }; let h := h.tset 0x10 63 1393456292541243007882519017433110429827072; let h := h.pset P.BR_MEMT_SIZE 0 1048576; h),
    ⟨4, 0, false, ([3#8, 0#8, 0#8, 0#8, 0#8, 1#8] ++ W.z 8 ++ [15#8, 255#8] ++ W.z 8)⟩,
    _, _, _, [(4095, 1)], _, _, _, by decide +kernel, by decide +kernel, by decide +kernel, rfl, by decide +kernel, by decide +kernel,
    by decide +kernel, (by decide +kernel), (Option.some_get (by decide +kernel : Option.isSome _ = true)).symm, rfl, by decide +kernel,
    by decide +kernel, by decide +kernel, rfl, rfl, rfl, by decide +kernel⟩,
   ⟨(W.on id).hub,
    ⟨4, 0, false, ([3#8, 0#8, 0#8, 0#8, 0#8, 1#8] ++ W.z 18)⟩,
    ⟨63, 1393456292541243007882519017433110429827072, 0, 1048576⟩, [], [], by decide +kernel⟩,
   ⟨W.on (fun h => let h : Hub := { h with br := { h.br with targets := [⟨7, 4, 0, 1, 0, 0, 1, 0, 63, 1, 0, 0⟩] } }; h), 7, 1, [],
    ⟨7, 4, 0, 1, 0, 0, 1, 0, 63, 1, 0, 0⟩, _, by decide +kernel, rfl, by decide +kernel⟩,
   ⟨W.on (fun h => let h : Hub := { h with br := { h.br with targets := [⟨7, 4, 0, 1, 0, 0, 1, 0, 63, 1, 0, 0⟩] } }; h), 7, [],
    ⟨7, 4, 0, 1, 0, 0, 1, 0, 63, 1, 0, 0⟩, _, by decide +kernel, rfl, by decide +kernel⟩,
   ⟨W.on (fun h => let h : Hub := { h with br := { h.br with targets := [⟨7, 4, 0, 3, 0, 0, 1, 0, 63, 1, 0, 0⟩] } }; h), 7, [],
    ⟨7, 4, 0, 3, 0, 0, 1, 0, 63, 1, 0, 0⟩, _, _, by decide +kernel, rfl, by decide +kernel, rfl⟩⟩

/-- States and operands that meet the hypotheses of `Obligations.ApertureRequestsCross`, clause by clause. -/
theorem test_witness_ApertureRequestsCross :
    (∃ (s : State) (q : PcieReq), (s.hub.works 6 = false)) ∧
    (∃ (s : State) (q : PcieReq), (s.hub.works 6 = true) ∧ (s.hub.strapFault = false) ∧ (q.kind = .other)) ∧
    (∃ (s : State) (q : PcieReq), (s.hub.works 6 = true) ∧ (s.hub.strapFault = false) ∧ (q.kind = .read) ∧ (s.hub.isEndpoint = true) ∧ q.bar < 2 ∧ (q.len = 4) ∧
      (q.addr % 4 = 0)) ∧
    (∃ (s : State) (q : PcieReq), (s.hub.works 6 = true) ∧ (s.hub.strapFault = false) ∧ (q.kind = .write) ∧ (s.hub.isEndpoint = true) ∧ q.bar < 2 ∧ (q.data.length = 4) ∧
      (q.addr % 4 = 0) ∧ (q.lanes = [])) ∧
    (∃ (s : State) (q : PcieReq) (a n : Nat) (x y : Hub), (s.hub.works 6 = true) ∧ (s.hub.strapFault = false) ∧ (q.kind = .read) ∧ (y = s.hub.linkPower false) ∧ (y.isEndpoint = false) ∧
      (cutApertures (y.wins true) 130 q.addr (max 1 q.len) = [(a, n, none)]) ∧
      (x = y.modBr (fun b => { b with nextId := y.br.nextId + 1, reads := b.reads ++ [⟨y.br.nextId, q.tag, 0, [none]⟩] }))) ∧
    (∃ (s : State) (q : PcieReq) (a n ap : Nat) (x y : Hub), (s.hub.works 6 = true) ∧ (s.hub.strapFault = false) ∧ (q.kind = .read) ∧ (y = s.hub.linkPower false) ∧ (y.isEndpoint = false) ∧
      (cutApertures (y.wins true) 130 q.addr (max 1 q.len) = [(a, n, some ap)]) ∧
      (x = y.modBr (fun b => { b with nextId := y.br.nextId + 1, reads := b.reads ++ [⟨y.br.nextId, q.tag, 0, [none]⟩] }))) ∧
    (∃ (x : Hub) (p : Piece) (w : Window) (e : TEntry), (x.br.held = []) ∧ (x.npWaits p.ap = false) ∧ (w = p.seen.window) ∧ (w.valid = true) ∧ (w.isAp = true) ∧ (w.sel = 0) ∧ (w.posted = true) ∧
      (p.write = true) ∧ w.tunnel < 1024 ∧ (e = x.tun w.tunnel) ∧ (e.valid = true) ∧ (e.type = tWindow) ∧ (e.dir = .both)) :=
  ⟨⟨W.on (fun h => let h := h.modIsland 6 (fun y => { y with inReset := true }); h), ⟨.read, 0, 0, 4, [], [], 0⟩, by decide +kernel⟩,
   ⟨W.on id, ⟨.other, 0, 0, 4, [], [], 0⟩, by decide +kernel⟩,
   ⟨W.on (fun h => let h : Hub := { h with straps := h.straps ||| 4 }; h), ⟨.read, 1, 0, 4, [], [], 0⟩, by decide +kernel⟩,
   ⟨W.on (fun h => let h : Hub := { h with straps := h.straps ||| 4 }; h), ⟨.write, 1, 0, 4, [], [1#8, 0#8, 0#8, 0#8], 0⟩, by decide +kernel⟩,
   ⟨W.on id, ⟨.read, 0, 8192, 4, [], [], 0⟩, 8192, 4, _, _, by decide +kernel, by decide +kernel, by decide +kernel, rfl, by decide +kernel,
    by decide +kernel, rfl⟩,
   ⟨W.on (fun h => let h := h.tset 0x10 63 2787252867449406954304059273199548144549888; h), ⟨.read, 0, 8188, 4, [], [], 0⟩, 8188, 4, 63, _, _,
    by decide +kernel, by decide +kernel, by decide +kernel, rfl, by decide +kernel, by decide +kernel, rfl⟩,
   ⟨(W.on (fun h => let h : Hub := { h with br := { h.br with held := [] } }; let h := h.tset 0x10 63 2787252867449406954304059273199548152938496; let h := h.tset 1 4 2583691273; h)).hub,
    ⟨63, true, 4096, 4, [0#8, 0#8, 0#8, 0#8], 0, 0, ⟨63, 2787252867449406954304059273199548152938496, 0, 0⟩⟩, _, _, by decide +kernel,
    by decide +kernel, rfl, by decide +kernel, by decide +kernel, by decide +kernel, (by decide +kernel), by decide +kernel,
    by decide +kernel, rfl, by decide +kernel⟩⟩

end Sys2Proof.Tests.Witness2
end

