-- ==== Sys2Proof/Tests/Witness3.lean ====
section
/-!
SUPPORT. Witnesses that no obligation has empty hypotheses, part 3: for each statement one theorem that shows a state and operands for
every clause that has hypotheses.  The states are the hub after reset and start, changed by the named operations.
-/
namespace Sys2Proof.Tests.Witness3
open Sys2Proof Sys2Proof.Machine
set_option Elab.async false
set_option maxRecDepth 8000
set_option linter.unusedVariables false

/-- States and operands that meet the hypotheses of `Obligations.RepliesAndNoticesEndRequests`, clause by clause. -/
theorem test_witness_RepliesAndNoticesEndRequests :
    (∃ (s : State) (f : Frame) (x : Hub), (f.control = true ∨ windowGood f.bytes = false) ∧ (x = s.hub.takeFrame 3 f)) ∧
    (∃ (s : State) (f : Frame) (x : Hub), (f.control = false) ∧ (windowGood f.bytes = true) ∧ (byteAt f.bytes 0 = 4) ∧ (x = s.hub.takeFrame 3 f) ∧
      (x.br.out.find? (fun o => o.tag == be f.bytes 2 2 && o.entry == f.entry && !o.piece.write) = none)) ∧
    (∃ (s : State) (f : Frame) (x : Hub) (o : Outstanding), (f.control = false) ∧ (windowGood f.bytes = true) ∧ (byteAt f.bytes 0 = 4) ∧ (x = s.hub.takeFrame 3 f) ∧
      (x.br.out.find? (fun o => o.tag == be f.bytes 2 2 && o.entry == f.entry && !o.piece.write) = some o) ∧ (byteAt f.bytes 1 % 2 = 0) ∧
      (byteAt f.bytes 16 = 0) ∧ ((f.bytes.drop 24).length = o.piece.len)) ∧
    (∃ (s : State) (f : Frame) (x : Hub) (o : Outstanding) (y : Hub), (f.control = false) ∧ (windowGood f.bytes = true) ∧ (byteAt f.bytes 0 = 4) ∧ (x = s.hub.takeFrame 3 f) ∧
      (x.br.out.find? (fun o => o.tag == be f.bytes 2 2 && o.entry == f.entry && !o.piece.write) = some o) ∧ (byteAt f.bytes 1 % 2 = 0) ∧
      (byteAt f.bytes 16 ≠ 0) ∧ (y = x.modBr (fun r => { r with out := r.out.filter (fun y => y.tag != o.tag) }))) ∧
    (∃ (s : State) (f : Frame) (x : Hub) (o : Outstanding) (y : Hub), (f.control = false) ∧ (windowGood f.bytes = true) ∧ (byteAt f.bytes 0 = 5) ∧ (x = s.hub.takeFrame 3 f) ∧
      (x.br.out.find? (fun o => o.tag == be f.bytes 2 2 && o.entry == f.entry && o.piece.write) = some o) ∧ (byteAt f.bytes 1 % 2 = 0) ∧
      (y = x.modBr (fun r => { r with out := r.out.filter (fun y => y.tag != o.tag) }))) ∧
    (∃ (s : State) (tag : Nat) (o : Outstanding), (s.hub.br.out.find? (fun o => o.tag == tag) = some o)) ∧
    (∃ (s : State) (ap : Nat) (b : Prefetch), (s.hub.buf ap = some b)) ∧
    (∃ (s : State) (org tid win last : Nat) (n : Notice) (y z : Hub) (c : Cell),
      (s.hub.br.notices.find? (fun n => n.origin == org && n.win == win && n.tid == tid) = some n) ∧
      (last = mget 0 s.hub.br.noticed (org * 65536 + win)) ∧
      (y = (if last = 0 then s.hub else s.hub.until (last - 1 + us (s.hub.pget P.BR_NOTICE_INTERVAL 0)))) ∧
      (z = y.modBr (fun b => { b with notices := b.notices.erase n, noticed := mset 0 b.noticed (org * 65536 + win) (y.clk.up + 1) })) ∧
      (c = ⟨0, true, true, 2, org, z.ownId, tid, 0, false, z.rail, false, z.pget P.TN_HOPS_DEFAULT 0, [byte n.status, byte n.win] ++ beBytes 2 n.count ++ [byte (b2n (n.status == 2)), 0#8, 0#8, 0#8] ++ beBytes 8 n.off ++ beBytes 8 n.time⟩) ∧
      (z.tunnels = true) ∧ ((z.makeRoom 3 0 (cellFlits c)).2 = true)) ∧
    (∃ (s : State) (c : Cell) (x : Hub),
      (x = (s.hub.takeFrame 3 ⟨1024, c.src, true, c.payload⟩).setDlv 3 0 ((s.hub.dlv 3 0).filter (fun q => q.cell != c))) ∧
      (c.payload.length = 24) ∧ (c.kind = 2)) ∧
    (∃ (s : State) (c : Cell) (x : Hub),
      (x = (s.hub.takeFrame 3 ⟨1024, c.src, true, c.payload⟩).setDlv 3 0 ((s.hub.dlv 3 0).filter (fun q => q.cell != c))) ∧
      (c.payload.length ≠ 24 ∨ c.kind ≠ 2)) ∧
    (∃ (s : State) (c : Nat), (s.hub.isEndpoint = true) ∧ (s.hub.br.up = true)) ∧
    (∃ (s : State) (c : Nat), (s.hub.isEndpoint = false)) ∧
    (∃ (s : State) (sp wd mps mrrs : Nat) (l1 : Bool) (x : Hub), (s.hub.works 6 = true) ∧ (s.hub.strapFault = false) ∧ (l1 = false ∨ s.hub.br.up = false) ∧
      (x = s.hub.modBr (fun b => { b with
      up := true, speed := max 1 (min sp (s.hub.pget P.BR_PCIE_SPEED_MAX 0)), width := s.hub.linkWidth wd, l1 := false }))) ∧
    (∃ (s : State) (sp wd mps mrrs : Nat), (s.hub.br.up = true)) ∧
    (∃ (s : State) (sp wd mps mrrs : Nat) (l1 : Bool) (x : Hub),
      (x = (((s.hub.modBr (fun b => { b with
      up := false, speed := 0, width := 0, l1 := false })).raise (2 ^ intLink)).event .pcieLink [(0, 1, 0), (1, 1, sp), (2, 1, wd)]).failTargets)) ∧
    (∃ (s : State) (mb : Nat), (s.hub.conflictsOutside mb P.BR_LINK_RESET 0 = false) ∧ (s.hub.isEndpoint = false) ∧ (s.hub.br.up = false)) ∧
    (∃ (h : Hub) (b : Bool), (h.isEndpoint = false) ∧ (h.br.perstHi = !b)) ∧
    (∃ (s : State) (mb : Nat), (s.hub.conflictsOutside mb P.BR_PWERR_CLEAR 0 = false)) :=
  ⟨⟨W.on id, ⟨0, 0, false, []⟩, _, by decide +kernel, rfl⟩,
   ⟨W.on id,
    ⟨4, 0, false, ([4#8, 0#8, 0#8, 5#8, 0#8, 1#8] ++ W.z 18 ++ [1#8])⟩,
    _, by decide +kernel, by decide +kernel, by decide +kernel, rfl, by decide +kernel⟩,
   ⟨W.on (fun h => let h : Hub := { h with br := { h.br with out := [⟨5, 4, 0, ⟨0, false, 0, 1, [], 0, 0, ⟨0, 0, 0, 0⟩⟩, 0, false, 0, 0, 0⟩] } }; h),
    ⟨4, 0, false, ([4#8, 0#8, 0#8, 5#8, 0#8, 1#8] ++ W.z 18 ++ [1#8])⟩,
    _, ⟨5, 4, 0, ⟨0, false, 0, 1, [], 0, 0, ⟨0, 0, 0, 0⟩⟩, 0, false, 0, 0, 0⟩, by decide +kernel, by decide +kernel, by decide +kernel,
    rfl, by decide +kernel⟩,
   ⟨W.on (fun h => let h : Hub := { h with br := { h.br with out := [⟨5, 4, 0, ⟨0, false, 0, 1, [], 0, 0, ⟨0, 0, 0, 0⟩⟩, 0, false, 0, 0, 0⟩] } }; h),
    ⟨4, 0, false, ([4#8, 0#8, 0#8, 5#8] ++ W.z 12 ++ [1#8] ++ W.z 7)⟩,
    _, ⟨5, 4, 0, ⟨0, false, 0, 1, [], 0, 0, ⟨0, 0, 0, 0⟩⟩, 0, false, 0, 0, 0⟩, _, by decide +kernel, by decide +kernel, by decide +kernel,
    rfl, by decide +kernel, by decide +kernel, by decide +kernel, rfl⟩,
   ⟨W.on (fun h => let h : Hub := { h with br := { h.br with out := [⟨5, 4, 0, ⟨0, true, 0, 1, [1#8], 0, 0, ⟨0, 0, 0, 0⟩⟩, 0, false, 0, 0, 0⟩] } }; h),
    ⟨4, 0, false, ([5#8, 0#8, 0#8, 5#8] ++ W.z 20)⟩,
    _, ⟨5, 4, 0, ⟨0, true, 0, 1, [1#8], 0, 0, ⟨0, 0, 0, 0⟩⟩, 0, false, 0, 0, 0⟩, _, by decide +kernel, by decide +kernel,
    by decide +kernel, rfl, by decide +kernel, by decide +kernel, rfl⟩,
   ⟨W.on (fun h => let h : Hub := { h with br := { h.br with out := [⟨5, 4, 0, ⟨0, false, 0, 1, [], 0, 0, ⟨0, 0, 0, 0⟩⟩, 0, false, 0, 0, 0⟩] } }; h),
    5, ⟨5, 4, 0, ⟨0, false, 0, 1, [], 0, 0, ⟨0, 0, 0, 0⟩⟩, 0, false, 0, 0, 0⟩, by decide +kernel⟩,
   ⟨W.on (fun h => let h : Hub := { h with br := { h.br with bufs := [⟨3, 4, 0, [1#8], [false], 0⟩] } }; h), 3, ⟨3, 4, 0, [1#8], [false], 0⟩,
    by decide +kernel⟩,
   ⟨W.on (fun h => let h := h.tset 1 4 24058527744; let h : Hub := { h with br := { h.br with notices := [⟨9, 5, 3, 1, 1, 0, 0⟩] } }; let h : Hub := { h with rl := { h.rl with idValid := true } }; h),
    9, 5, 3, _, ⟨9, 5, 3, 1, 1, 0, 0⟩, _, _, _, by decide +kernel, rfl, rfl, rfl, rfl, by decide +kernel⟩,
   ⟨W.on id,
    ⟨2, true, true, 2, 0, 0, 0, 0, false, 0, false, 8, (W.z 24)⟩,
    _, rfl, by decide +kernel⟩,
   ⟨W.on id, ⟨2, true, true, 0, 0, 0, 0, 0, false, 0, false, 8, []⟩, _, rfl, by decide +kernel⟩,
   ⟨W.on (fun h => let h : Hub := { h with straps := h.straps ||| 4 }; let h : Hub := { h with br := { h.br with up := true } }; h), 0,
    by decide +kernel⟩,
   ⟨W.on id, 0, by decide +kernel⟩,
   ⟨W.on id, 0, 0, 0, 0, false, _, by decide +kernel, by decide +kernel, by decide +kernel, rfl⟩,
   ⟨W.on (fun h => let h : Hub := { h with br := { h.br with up := true } }; h), 0, 0, 0, 0, by decide +kernel⟩,
   ⟨W.on id, 0, 0, 0, 0, false, _, rfl⟩,
   ⟨W.on (fun h => let h : Hub := { h with br := { h.br with up := false } }; h), 0, by decide +kernel⟩,
   ⟨(W.on (fun h => let h : Hub := { h with br := { h.br with perstHi := !false } }; h)).hub, false, by decide +kernel⟩,
   ⟨W.on id, 0, by decide +kernel⟩⟩

/-- States and operands that meet the hypotheses of `Obligations.EthernetFramesEnter`, clause by clause. -/
theorem test_witness_EthernetFramesEnter :
    (∃ (s : State) (p : Nat) (f : EthFrame) (x : Hub), (x = s.hub.untilLine f.time) ∧ ((x.ethp p).up = false ∨ x.works 7 = false)) ∧
    (∃ (s : State) (p : Nat) (f : EthFrame) (x : Hub), (x = s.hub.untilLine f.time) ∧ ((x.ethp p).up = true) ∧ (x.works 7 = true) ∧ (f.phyOk = false)) ∧
    (∃ (s : State) (p : Nat) (f : EthFrame) (x : Hub), (x = s.hub.untilLine f.time) ∧ ((x.ethp p).up = true) ∧ (x.works 7 = true) ∧ (f.phyOk = true) ∧ f.bytes.length < 64) ∧
    (∃ (s : State) (p : Nat) (f : EthFrame) (x : Hub), (x = s.hub.untilLine f.time) ∧ ((x.ethp p).up = true) ∧ (x.works 7 = true) ∧ (f.phyOk = true) ∧ 64 ≤ f.bytes.length ∧
      x.pget P.EN_MAX_FRAME p < f.bytes.length) ∧
    (∃ (s : State) (p : Nat) (f : EthFrame) (x : Hub), (x = s.hub.untilLine f.time) ∧ ((x.ethp p).up = true) ∧ (x.works 7 = true) ∧ (f.phyOk = true) ∧ 64 ≤ f.bytes.length ∧
      f.bytes.length ≤ x.pget P.EN_MAX_FRAME p ∧ (fcsGood f.bytes = false)) ∧
    (∃ (s : State) (p : Nat) (f : EthFrame) (x : Hub) (y : Hub), (x = s.hub.untilLine f.time) ∧ ((x.ethp p).up = true) ∧ (x.works 7 = true) ∧ (f.phyOk = true) ∧ 64 ≤ f.bytes.length ∧
      f.bytes.length ≤ x.pget P.EN_MAX_FRAME p ∧ (fcsGood f.bytes = true) ∧ (be f.bytes 12 2 = 0x8808) ∧ (be f.bytes 14 2 = 1) ∧
      (y = x.bump P.EN_RX_PAUSE p) ∧ (bit (y.pget P.EN_PAUSE p) 0 = true) ∧ (be f.bytes 16 2 ≠ 0) ∧ p < y.eth.length) ∧
    (∃ (s : State) (p : Nat) (f : EthFrame) (x : Hub) (y : Hub), (x = s.hub.untilLine f.time) ∧ ((x.ethp p).up = true) ∧ (x.works 7 = true) ∧ (f.phyOk = true) ∧ 64 ≤ f.bytes.length ∧
      f.bytes.length ≤ x.pget P.EN_MAX_FRAME p ∧ (fcsGood f.bytes = true) ∧ (be f.bytes 12 2 ≠ 0x8808) ∧
      (y = (x.bump P.EN_RX_FRAMES p).bumpBy P.EN_RX_BYTES p f.bytes.length) ∧ (y.filtersOf p f.bytes = []) ∧
      (y.vlanMap p (y.ethVid p f.bytes) = none)) ∧
    (∃ (s : State) (p : Nat) (f : EthFrame) (x : Hub) (y : Hub) (i : Nat), (x = s.hub.untilLine f.time) ∧ ((x.ethp p).up = true) ∧ (x.works 7 = true) ∧ (f.phyOk = true) ∧ 64 ≤ f.bytes.length ∧
      f.bytes.length ≤ x.pget P.EN_MAX_FRAME p ∧ (fcsGood f.bytes = true) ∧ (be f.bytes 12 2 ≠ 0x8808) ∧
      (y = (x.bump P.EN_RX_FRAMES p).bumpBy P.EN_RX_BYTES p f.bytes.length) ∧ (y.filtersOf p f.bytes = []) ∧
      (y.vlanMap p (y.ethVid p f.bytes) = some (i, true)) ∧ ((y.tun i).valid = true) ∧ ((y.tun i).dir.sends = true) ∧
      ((y.tun i).type = tEthernet) ∧ (y.ethp p).occupancy + f.bytes.length ≤ ethRxSize) ∧
    (∃ (s : State) (p : Nat) (f : EthFrame) (x : Hub) (y : Hub) (i : Nat), (x = s.hub.untilLine f.time) ∧ ((x.ethp p).up = true) ∧ (x.works 7 = true) ∧ (f.phyOk = true) ∧ 64 ≤ f.bytes.length ∧
      f.bytes.length ≤ x.pget P.EN_MAX_FRAME p ∧ (fcsGood f.bytes = true) ∧ (be f.bytes 12 2 ≠ 0x8808) ∧
      (y = (x.bump P.EN_RX_FRAMES p).bumpBy P.EN_RX_BYTES p f.bytes.length) ∧ (y.filtersOf p f.bytes = []) ∧
      (y.vlanMap p (y.ethVid p f.bytes) = some (i, true)) ∧ ((y.tun i).valid = true) ∧ ((y.tun i).dir.sends = true) ∧
      ((y.tun i).type = tEthernet) ∧ ethRxSize < (y.ethp p).occupancy + f.bytes.length) ∧
    (∃ (s : State) (p : Nat) (f : EthFrame) (x : Hub) (y : Hub) (i v t : Nat) (fs : List (Nat × Nat)) (on : Bool),
      (x = s.hub.untilLine f.time) ∧ ((x.ethp p).up = true) ∧ (x.works 7 = true) ∧ (f.phyOk = true) ∧ 64 ≤ f.bytes.length ∧
      f.bytes.length ≤ x.pget P.EN_MAX_FRAME p ∧ (fcsGood f.bytes = true) ∧ (be f.bytes 12 2 ≠ 0x8808) ∧
      (y = (x.bump P.EN_RX_FRAMES p).bumpBy P.EN_RX_BYTES p f.bytes.length) ∧ (y.filtersOf p f.bytes = (i, v) :: fs) ∧
      (((i, v) :: fs).any (fun e => bit e.2 30) = true) ∧
      ((y.filterAct i v f.bytes f.time).vlanMap p ((y.filterAct i v f.bytes f.time).ethVid p f.bytes) = some (t, on))) :=
  ⟨⟨W.on (fun h => let h := h.modEth 0 (fun y => { y with up := false }); h), 0,
    ⟨(W.z 60 ++ [8#8, 137#8, 18#8, 4#8]), true, 0⟩,
    _, rfl, by left; decide +kernel⟩,
   ⟨W.on (fun h => let h := h.modEth 0 (fun y => { y with up := true }); h), 0,
    ⟨(W.z 60 ++ [8#8, 137#8, 18#8, 4#8]), false, 0⟩,
    _, rfl, by decide +kernel⟩,
   ⟨W.on (fun h => let h := h.modEth 0 (fun y => { y with up := true }); h), 0, ⟨[], true, 0⟩, _, rfl, by decide +kernel⟩,
   ⟨W.on (fun h => let h := h.modEth 0 (fun y => { y with up := true }); let h := h.pset P.EN_MAX_FRAME 0 64; h), 0,
    ⟨(W.z 61 ++ [54#8, 117#8, 221#8, 220#8]), true, 0⟩,
    _, rfl, by decide +kernel⟩,
   ⟨W.on (fun h => let h := h.modEth 0 (fun y => { y with up := true }); h), 0,
    ⟨(W.z 60 ++ [9#8, 137#8, 18#8, 4#8]), true, 0⟩,
    _, rfl, by decide +kernel⟩,
   ⟨W.on (fun h => let h := h.modEth 0 (fun y => { y with up := true }); let h := h.pset P.EN_PAUSE 0 1; h), 0,
    ⟨([1#8, 128#8, 194#8, 0#8, 0#8, 1#8] ++ W.z 6 ++ [136#8, 8#8, 0#8, 1#8, 0#8, 9#8] ++ W.z 42 ++ [198#8, 32#8, 177#8, 24#8]), true, 0⟩,
    _, _, rfl, by decide +kernel, by decide +kernel, by decide +kernel, (by decide +kernel), by decide +kernel, by decide +kernel,
    by decide +kernel, (by decide +kernel), rfl, by decide +kernel⟩,
   ⟨W.on (fun h => let h := h.modEth 0 (fun y => { y with up := true }); h), 0,
    ⟨(W.z 60 ++ [8#8, 137#8, 18#8, 4#8]), true, 0⟩,
    _, _, rfl, by decide +kernel, by decide +kernel, by decide +kernel, (by decide +kernel), by decide +kernel, by decide +kernel,
    by decide +kernel, rfl, by decide +kernel⟩,
   ⟨W.on (fun h => let h := h.modEth 0 (fun y => { y with up := true }); let h := h.pset P.EN_PVID 0 1; let h := h.tset 0x30 0 4295262209; let h := h.tset 1 4 24259854345; h),
    0,
    ⟨(W.z 60 ++ [8#8, 137#8, 18#8, 4#8]), true, 0⟩,
    _, _, 4, rfl, by decide +kernel, by decide +kernel, by decide +kernel, (by decide +kernel), by decide +kernel, by decide +kernel,
    by decide +kernel, rfl, by decide +kernel⟩,
   ⟨W.on (fun h => let h := h.modEth 0 (fun y => { y with up := true }); let h := h.pset P.EN_PVID 0 1; let h := h.tset 0x30 0 4295262209; let h := h.tset 1 4 24259854345; let h := h.modEth 0 (fun y => { y with rx := [⟨4, List.replicate 65536 0#8, true⟩, ⟨4, List.replicate 65536 0#8, true⟩, ⟨4, List.replicate 65536 0#8, true⟩] }); h),
    0,
    ⟨(W.z 60 ++ [8#8, 137#8, 18#8, 4#8]), true, 0⟩,
    _, _, 4, rfl, by decide +kernel, by decide +kernel, by decide +kernel, (by decide +kernel), by decide +kernel, by decide +kernel,
    by decide +kernel, rfl, by decide +kernel⟩,
   ⟨W.on (fun h => let h := h.modEth 0 (fun y => { y with up := true }); let h := h.pset P.EN_PVID 0 1; let h := h.tset 0x30 0 4295262209; let h := h.tset 1 4 24259854345; let h := h.tset 0x31 3 73786976298881515520; h),
    0,
    ⟨(W.z 60 ++ [8#8, 137#8, 18#8, 4#8]), true, 0⟩,
    _, _, 3, 73786976298881515520, 4, [], true, rfl, by decide +kernel, by decide +kernel, by decide +kernel, (by decide +kernel),
    by decide +kernel, by decide +kernel, by decide +kernel, rfl, by decide +kernel⟩⟩

/-- States and operands that meet the hypotheses of `Obligations.EthernetFramesLeave`, clause by clause. -/
theorem test_witness_EthernetFramesLeave :
    (∃ (s : State) (p : Nat), ((s.hub.ethp p).rx = [])) ∧
    (∃ (s : State) (p : Nat) (f : EthHeld) (rest : List EthHeld) (e : TEntry), ((s.hub.ethp p).rx = f :: rest) ∧ (e = s.hub.tun f.entry) ∧
      ((e.valid && e.dir.sends && decide (e.type = tEthernet) && s.hub.tunnels) = false)) ∧
    (∃ (s : State) (p : Nat) (f : EthHeld) (rest : List EthHeld) (e : TEntry), ((s.hub.ethp p).rx = f :: rest) ∧ (e = s.hub.tun f.entry) ∧
      ((e.valid && e.dir.sends && decide (e.type = tEthernet) && s.hub.tunnels) = true) ∧ e.limit < f.bytes.length) ∧
    (∃ (s : State) (p : Nat) (f : EthHeld) (rest : List EthHeld) (e : TEntry) (y z : Hub),
      ((s.hub.ethp p).rx = f :: rest) ∧ (e = s.hub.tun f.entry) ∧
      ((e.valid && e.dir.sends && decide (e.type = tEthernet) && s.hub.tunnels) = true) ∧ f.bytes.length ≤ e.limit ∧
      ((!e.mcast && decide (e.peer = s.hub.ownId)) = false) ∧ (f.policed = true) ∧ (s.hub.shaped f.entry e = false) ∧
      (s.hub.shaperOpen f.entry e = true) ∧ (s.hub.trySend ⟨4, f.entry, false, f.bytes, f.bytes.length, true⟩ e = (z, .sent))) ∧
    (∃ (s : State) (p : Nat), (bit (s.hub.pget P.EN_PAUSE p) 1 = true) ∧ ((s.hub.ethp p).up = true) ∧ s.hub.pget P.EN_PAUSE_XOFF p < (s.hub.ethp p).occupancy ∧
      ((s.hub.ethp p).xoff = false)) ∧
    (∃ (s : State) (p : Nat), (bit (s.hub.pget P.EN_PAUSE p) 1 = true) ∧ ((s.hub.ethp p).up = true) ∧ (s.hub.ethp p).occupancy < s.hub.pget P.EN_PAUSE_XON p ∧
      ((s.hub.ethp p).xoff = true)) ∧
    (∃ (s : State) (p : Nat), (bit (s.hub.pget P.EN_PAUSE p) 1 = false ∨ (s.hub.ethp p).up = false)) ∧
    (∃ (s : State) (p : Nat), (bit (s.hub.pget P.EN_PAUSE p) 1 = true) ∧ ((s.hub.ethp p).up = true) ∧ ((s.hub.ethp p).xoff = true)) ∧
    (∃ (s : State) (p t : Nat), ((s.hub.ethp p).paused = some t)) ∧
    (∃ (s : State) (f : Frame) (p : Nat) (b : List Byte), (p = bits (s.hub.tun f.entry).binding 14 2) ∧ (b = retag (s.hub.tun f.entry).binding f.bytes) ∧ (s.hub.ethBehind f = false) ∧
      (s.hub.works 7 = true) ∧ ((s.hub.ethp p).up = true) ∧ b.length ≤ s.hub.pget P.EN_MAX_FRAME p ∧
      (s.hub.ethp p).fifo + b.length ≤ ethTxSize ∧ ((s.hub.ethp p).paused = none)) ∧
    (∃ (s : State) (f : Frame) (p : Nat) (b : List Byte), (p = bits (s.hub.tun f.entry).binding 14 2) ∧ (b = retag (s.hub.tun f.entry).binding f.bytes) ∧ (s.hub.ethBehind f = false) ∧
      (s.hub.works 7 = true) ∧ ((s.hub.ethp p).up = true) ∧ b.length ≤ s.hub.pget P.EN_MAX_FRAME p ∧
      ethTxSize < (s.hub.ethp p).fifo + b.length) ∧
    (∃ (s : State) (f : Frame) (p : Nat), (p = bits (s.hub.tun f.entry).binding 14 2) ∧ (s.hub.ethBehind f = false) ∧ (s.hub.works 7 = true) ∧ ((s.hub.ethp p).up = false)) ∧
    (∃ (s : State) (f : Frame), (s.hub.ethBehind f = true)) ∧
    (∃ (s : State) (p : Nat), ((s.hub.ethp p).up = false) ∧ (s.hub.pget P.EN_ENABLE p ≠ 0) ∧ (s.hub.pget P.EN_MODE p ≠ 0) ∧ (s.hub.works 7 = true)) ∧
    (∃ (s : State) (p : Nat), ((s.hub.ethp p).up = true)) ∧
    (∃ (s : State) (p en mode : Nat) (x : Hub), p < 4 ∧ en ≤ 1 ∧ mode ≤ 4 ∧
      (x = (if s.hub.storeChanges ⟨P.EN_ENABLE, p, en⟩ || s.hub.storeChanges ⟨P.EN_MODE, p, mode⟩ then (s.hub.overlay [⟨P.EN_ENABLE, p, en⟩, ⟨P.EN_MODE, p, mode⟩] []).modMg (fun m => { m with dirty := true }) else s.hub.overlay [⟨P.EN_ENABLE, p, en⟩, ⟨P.EN_MODE, p, mode⟩] []))) ∧
    (∃ (h : Hub) (p : Nat), (h.works 7 = true) ∧ (h.pget P.EN_ENABLE p = 1) ∧ (h.pget P.EN_MODE p = 4)) :=
  ⟨⟨W.on (fun h => let h := h.modEth 0 (fun y => { y with rx := [] }); h), 0, by decide +kernel⟩,
   ⟨W.on (fun h => let h := h.modEth 0 (fun y => { y with rx := [⟨4, List.replicate 64 0#8, true⟩] }); h), 0, ⟨4, List.replicate 64 0#8, true⟩,
    [], _, by decide +kernel, rfl, by decide +kernel⟩,
   ⟨W.on (fun h => let h := h.modEth 0 (fun y => { y with rx := [⟨4, List.replicate 2000 0#8, true⟩] }); let h := h.tset 1 4 5070602400912917605989597839369; let h : Hub := { h with rl := { h.rl with idValid := true } }; let h : Hub := { h with rl := { h.rl with nodeId := 3 } }; h),
    0, ⟨4, List.replicate 2000 0#8, true⟩, [], _, by decide +kernel, rfl, by decide +kernel⟩,
   ⟨W.on (fun h => let h : Hub := { h with rl := { h.rl with idValid := true } }; let h : Hub := { h with rl := { h.rl with nodeId := 3 } }; let h := h.modEth 0 (fun y => { y with rx := [⟨4, List.replicate 64 0#8, true⟩] }); let h := h.tset 1 4 24259854345; h),
    0, ⟨4, List.replicate 64 0#8, true⟩, [], _, W.h, _, by decide +kernel, rfl, by decide +kernel, by decide +kernel, by decide +kernel,
    (by decide +kernel), by decide +kernel, by decide +kernel, Prod.ext rfl (by decide +kernel)⟩,
   ⟨W.on (fun h => let h := h.modEth 0 (fun y => { y with up := true }); let h := h.modEth 0 (fun y => { y with xoff := false }); let h := h.pset P.EN_PAUSE 0 2; let h := h.pset P.EN_PAUSE_XOFF 0 32; let h := h.modEth 0 (fun y => { y with rx := [⟨4, List.replicate 64 0#8, true⟩] }); h),
    0, by decide +kernel⟩,
   ⟨W.on (fun h => let h := h.modEth 0 (fun y => { y with up := true }); let h := h.modEth 0 (fun y => { y with xoff := true }); let h := h.pset P.EN_PAUSE 0 2; let h := h.pset P.EN_PAUSE_XON 0 32; h),
    0, by decide +kernel⟩,
   ⟨W.on id, 0, by decide +kernel⟩,
   ⟨W.on (fun h => let h := h.modEth 0 (fun y => { y with up := true }); let h := h.modEth 0 (fun y => { y with xoff := true }); let h := h.pset P.EN_PAUSE 0 2; h),
    0, by decide +kernel⟩,
   ⟨W.on (fun h => let h := h.modEth 0 (fun y => { y with paused := some 0 }); h), 0, 0, by decide +kernel⟩,
   ⟨W.on (fun h => let h := h.modEth 0 (fun y => { y with up := true }); h),
    ⟨4, 0, false, (List.replicate 64 0)⟩,
    _, _, rfl, rfl, by decide +kernel⟩,
   ⟨W.on (fun h => let h := h.modEth 0 (fun y => { y with up := true, tx := [List.replicate 65536 0#8] }); h),
    ⟨4, 0, false, (List.replicate 64 0)⟩,
    _, _, rfl, rfl, by decide +kernel⟩,
   ⟨W.on id,
    ⟨4, 0, false, (List.replicate 64 0)⟩,
    _, rfl, by decide +kernel⟩,
   ⟨W.on (fun h => let h : Hub := { h with inbox := [(4, ⟨4, 0, false, (List.replicate 64 1)⟩)] }; h),
    ⟨4, 0, false, (List.replicate 64 0)⟩,
    by decide +kernel⟩,
   ⟨W.on (fun h => let h := h.modEth 0 (fun y => { y with up := false }); let h := h.pset P.EN_ENABLE 0 1; let h := h.pset P.EN_MODE 0 4; h),
    0, by decide +kernel⟩,
   ⟨W.on (fun h => let h := h.modEth 0 (fun y => { y with up := true }); h), 0, by decide +kernel⟩,
   ⟨W.on id, 3, 1, 4, _, by decide +kernel, by decide +kernel, by decide +kernel, rfl⟩,
   ⟨(W.on (fun h => let h := h.pset P.EN_ENABLE 0 1; let h := h.pset P.EN_MODE 0 4; h)).hub, 0, by decide +kernel⟩⟩

/-- States and operands that meet the hypotheses of `Obligations.PortCommandsMoveUsbPorts`, clause by clause. -/
theorem test_witness_PortCommandsMoveUsbPorts :
    (∃ (s : State) (f : Frame) (p : Nat) (y : Hub), (s.hub.works usbIsland = true) ∧ (s.hub.hostEntry f.entry = false) ∧ (f.control = false) ∧ (usbGood f.bytes = true) ∧
      (p = byteAt f.bytes 4) ∧ (y = (s.hub.takeFrame 5 f).modUsb p (fun u => { u with lastAt := (s.hub.takeFrame 5 f).clk.up })) ∧
      (y.usbAllowed f = true) ∧ (byteAt f.bytes 0 = 3) ∧ (byteAt f.bytes 6 = 1) ∧ 4 ≤ p ∧ (y.pget P.US_OC_MODE 0 ≠ 1)) ∧
    (∃ (s : State) (f : Frame) (p : Nat) (y : Hub), (s.hub.works usbIsland = true) ∧ (s.hub.hostEntry f.entry = false) ∧ (f.control = false) ∧ (usbGood f.bytes = true) ∧
      (p = byteAt f.bytes 4) ∧ (y = (s.hub.takeFrame 5 f).modUsb p (fun u => { u with lastAt := (s.hub.takeFrame 5 f).clk.up })) ∧
      (y.usbAllowed f = true) ∧ (byteAt f.bytes 0 = 3) ∧ (byteAt f.bytes 6 = 1) ∧ p < 4 ∧ ((y.fuse (p + 1)).state = .latched)) ∧
    (∃ (s : State) (f : Frame) (p : Nat) (y : Hub), (s.hub.works usbIsland = true) ∧ (s.hub.hostEntry f.entry = false) ∧ (f.control = false) ∧ (usbGood f.bytes = true) ∧
      (p = byteAt f.bytes 4) ∧ (y = (s.hub.takeFrame 5 f).modUsb p (fun u => { u with lastAt := (s.hub.takeFrame 5 f).clk.up })) ∧
      (y.usbAllowed f = true) ∧ (byteAt f.bytes 0 = 3) ∧ (byteAt f.bytes 6 = 2)) ∧
    (∃ (s : State) (f : Frame) (p : Nat) (y : Hub) (z : Hub), (s.hub.works usbIsland = true) ∧ (s.hub.hostEntry f.entry = false) ∧ (f.control = false) ∧ (usbGood f.bytes = true) ∧
      (p = byteAt f.bytes 4) ∧ (y = (s.hub.takeFrame 5 f).modUsb p (fun u => { u with lastAt := (s.hub.takeFrame 5 f).clk.up })) ∧
      (y.usbAllowed f = true) ∧ (byteAt f.bytes 0 = 3) ∧ (byteAt f.bytes 6 = 3) ∧ (z = y.endXfers p 7 (fun _ => true)) ∧
      ((z.usbp p).speed ≠ 0) ∧ (z.usbPowered p = true) ∧ (z.usbServes p = true)) ∧
    (∃ (s : State) (f : Frame) (p : Nat) (y : Hub) (z : Hub), (s.hub.works usbIsland = true) ∧ (s.hub.hostEntry f.entry = false) ∧ (f.control = false) ∧ (usbGood f.bytes = true) ∧
      (p = byteAt f.bytes 4) ∧ (y = (s.hub.takeFrame 5 f).modUsb p (fun u => { u with lastAt := (s.hub.takeFrame 5 f).clk.up })) ∧
      (y.usbAllowed f = true) ∧ (byteAt f.bytes 0 = 3) ∧ (byteAt f.bytes 6 = 3) ∧ (z = y.endXfers p 7 (fun _ => true)) ∧
      ((z.usbp p).speed = 0)) ∧
    (∃ (s : State) (f : Frame) (p : Nat) (y : Hub), (s.hub.works usbIsland = true) ∧ (s.hub.hostEntry f.entry = false) ∧ (f.control = false) ∧ (usbGood f.bytes = true) ∧
      (p = byteAt f.bytes 4) ∧ (y = (s.hub.takeFrame 5 f).modUsb p (fun u => { u with lastAt := (s.hub.takeFrame 5 f).clk.up })) ∧
      (y.usbAllowed f = true) ∧ (byteAt f.bytes 0 = 3) ∧ (byteAt f.bytes 6 = 4) ∧ ((y.usbp p).addressed = true) ∧ (y.usbPowered p = true) ∧
      (y.usbServes p = true)) ∧
    (∃ (s : State) (f : Frame) (p : Nat) (y : Hub), (s.hub.works usbIsland = true) ∧ (s.hub.hostEntry f.entry = false) ∧ (f.control = false) ∧ (usbGood f.bytes = true) ∧
      (p = byteAt f.bytes 4) ∧ (y = (s.hub.takeFrame 5 f).modUsb p (fun u => { u with lastAt := (s.hub.takeFrame 5 f).clk.up })) ∧
      (y.usbAllowed f = true) ∧ (byteAt f.bytes 0 = 3) ∧ (byteAt f.bytes 6 = 5) ∧ ((y.usbp p).addressed = true) ∧ (y.usbPowered p = true) ∧
      (y.usbServes p = true) ∧ ((y.usbp p).suspended = true) ∧ ((y.usbp p).resume = none)) ∧
    (∃ (s : State) (f : Frame) (p : Nat) (y : Hub), (s.hub.works usbIsland = true) ∧ (s.hub.hostEntry f.entry = false) ∧ (f.control = false) ∧ (usbGood f.bytes = true) ∧
      (p = byteAt f.bytes 4) ∧ (y = (s.hub.takeFrame 5 f).modUsb p (fun u => { u with lastAt := (s.hub.takeFrame 5 f).clk.up })) ∧
      (y.usbAllowed f = true) ∧ (byteAt f.bytes 0 = 3) ∧ (byteAt f.bytes 6 = 4 ∨ byteAt f.bytes 6 = 5) ∧ ((y.usbp p).addressed = false)) ∧
    (∃ (s : State) (f : Frame) (p : Nat) (y : Hub), (s.hub.works usbIsland = true) ∧ (s.hub.hostEntry f.entry = false) ∧ (f.control = false) ∧ (usbGood f.bytes = true) ∧
      (p = byteAt f.bytes 4) ∧ (y = (s.hub.takeFrame 5 f).modUsb p (fun u => { u with lastAt := (s.hub.takeFrame 5 f).clk.up })) ∧
      (y.usbAllowed f = true) ∧ (byteAt f.bytes 0 = 3) ∧ (byteAt f.bytes 6 = 6)) ∧
    (∃ (s : State) (f : Frame) (p : Nat) (y : Hub), (s.hub.works usbIsland = true) ∧ (s.hub.hostEntry f.entry = false) ∧ (f.control = false) ∧ (usbGood f.bytes = true) ∧
      (p = byteAt f.bytes 4) ∧ (y = (s.hub.takeFrame 5 f).modUsb p (fun u => { u with lastAt := (s.hub.takeFrame 5 f).clk.up })) ∧
      (y.usbAllowed f = true) ∧ (byteAt f.bytes 0 = 6)) ∧
    (∃ (s : State) (f : Frame) (p : Nat) (y : Hub), (s.hub.works usbIsland = true) ∧ (s.hub.hostEntry f.entry = false) ∧ (f.control = false) ∧ (usbGood f.bytes = true) ∧
      (p = byteAt f.bytes 4) ∧ (y = (s.hub.takeFrame 5 f).modUsb p (fun u => { u with lastAt := (s.hub.takeFrame 5 f).clk.up })) ∧
      (y.usbAllowed f = false) ∧ (byteAt f.bytes 0 ≠ 1)) ∧
    (∃ (s : State) (f : Frame), (s.hub.works usbIsland = true) ∧ (s.hub.hostEntry f.entry = false) ∧ (f.control = true ∨ usbGood f.bytes = false)) ∧
    (∃ (s : State) (f : Frame), (s.hub.works usbIsland = false) ∧ (s.hub.al.gov.level ≠ 3)) :=
  ⟨⟨W.on (fun h => let h := h.tset 1 4 71776143656615945; let h := h.pset P.US_PORT_ENABLE 4 1; h),
    ⟨4, 0, false, ([3#8, 0#8, 0#8, 0#8, 4#8, 0#8, 1#8] ++ W.z 25)⟩,
    _, _, by decide +kernel, by decide +kernel, by decide +kernel, (by decide +kernel), rfl, rfl, by decide +kernel⟩,
   ⟨W.on (fun h => let h := h.tset 1 4 71776143656615945; let h := h.pset P.US_PORT_ENABLE 4 1; let h := h.pset P.US_PORT_ENABLE 1 1; let h := h.modFuse 2 (fun y => { y with state := .latched }); h),
    ⟨4, 0, false, ([3#8, 0#8, 0#8, 0#8, 1#8, 0#8, 1#8] ++ W.z 25)⟩,
    _, _, by decide +kernel, by decide +kernel, by decide +kernel, (by decide +kernel), rfl, rfl, by decide +kernel⟩,
   ⟨W.on (fun h => let h := h.tset 1 4 71776143656615945; let h := h.pset P.US_PORT_ENABLE 4 1; h),
    ⟨4, 0, false, ([3#8, 0#8, 0#8, 0#8, 4#8, 0#8, 2#8] ++ W.z 25)⟩,
    _, _, by decide +kernel, by decide +kernel, by decide +kernel, (by decide +kernel), rfl, rfl, by decide +kernel⟩,
   ⟨W.on (fun h => let h := h.tset 1 4 71776143656615945; let h := h.pset P.US_PORT_ENABLE 4 1; let h := h.modUsb 4 (fun y => { y with speed := 3, power := true, addressed := true }); h),
    ⟨4, 0, false, ([3#8, 0#8, 0#8, 0#8, 4#8, 0#8, 3#8] ++ W.z 25)⟩,
    _, _, _, by decide +kernel, by decide +kernel, by decide +kernel, (by decide +kernel), rfl, rfl, by decide +kernel, by decide +kernel,
    by decide +kernel, rfl, by decide +kernel⟩,
   ⟨W.on (fun h => let h := h.tset 1 4 71776143656615945; let h := h.pset P.US_PORT_ENABLE 4 1; h),
    ⟨4, 0, false, ([3#8, 0#8, 0#8, 0#8, 4#8, 0#8, 3#8] ++ W.z 25)⟩,
    _, _, _, by decide +kernel, by decide +kernel, by decide +kernel, (by decide +kernel), rfl, rfl, by decide +kernel, by decide +kernel,
    by decide +kernel, rfl, by decide +kernel⟩,
   ⟨W.on (fun h => let h := h.tset 1 4 71776143656615945; let h := h.pset P.US_PORT_ENABLE 4 1; let h := h.modUsb 4 (fun y => { y with speed := 3, power := true, addressed := true }); h),
    ⟨4, 0, false, ([3#8, 0#8, 0#8, 0#8, 4#8, 0#8, 4#8] ++ W.z 25)⟩,
    _, _, by decide +kernel, by decide +kernel, by decide +kernel, (by decide +kernel), rfl, rfl, by decide +kernel⟩,
   ⟨W.on (fun h => let h := h.tset 1 4 71776143656615945; let h := h.pset P.US_PORT_ENABLE 4 1; let h := h.modUsb 4 (fun y => { y with speed := 3, power := true, addressed := true }); let h := h.modUsb 4 (fun y => { y with suspended := true }); h),
    ⟨4, 0, false, ([3#8, 0#8, 0#8, 0#8, 4#8, 0#8, 5#8] ++ W.z 25)⟩,
    _, _, by decide +kernel, by decide +kernel, by decide +kernel, (by decide +kernel), rfl, rfl, by decide +kernel⟩,
   ⟨W.on (fun h => let h := h.tset 1 4 71776143656615945; let h := h.pset P.US_PORT_ENABLE 4 1; h),
    ⟨4, 0, false, ([3#8, 0#8, 0#8, 0#8, 4#8, 0#8, 4#8] ++ W.z 25)⟩,
    _, _, by decide +kernel, by decide +kernel, by decide +kernel, (by decide +kernel), rfl, rfl, by decide +kernel⟩,
   ⟨W.on (fun h => let h := h.tset 1 4 71776143656615945; let h := h.pset P.US_PORT_ENABLE 4 1; h),
    ⟨4, 0, false, ([3#8, 0#8, 0#8, 0#8, 4#8, 0#8, 6#8] ++ W.z 25)⟩,
    _, _, by decide +kernel, by decide +kernel, by decide +kernel, (by decide +kernel), rfl, rfl, by decide +kernel⟩,
   ⟨W.on (fun h => let h := h.tset 1 4 71776143656615945; let h := h.pset P.US_PORT_ENABLE 4 1; h),
    ⟨4, 0, false, ([6#8, 0#8, 0#8, 0#8, 4#8] ++ W.z 27)⟩,
    _, _, by decide +kernel, by decide +kernel, by decide +kernel, (by decide +kernel), rfl, rfl, by decide +kernel⟩,
   ⟨W.on id,
    ⟨4, 0, false, ([3#8, 0#8, 0#8, 0#8, 4#8, 0#8, 1#8] ++ W.z 25)⟩,
    _, _, by decide +kernel, by decide +kernel, by decide +kernel, (by decide +kernel), rfl, rfl, by decide +kernel⟩,
   ⟨W.on id, ⟨0, 0, false, []⟩, by decide +kernel⟩,
   ⟨W.on (fun h => let h := h.modIsland 8 (fun y => { y with inReset := true }); h), ⟨0, 0, false, []⟩, by decide +kernel⟩⟩

/-- States and operands that meet the hypotheses of `Obligations.TransfersRunAndEnd`, clause by clause. -/
theorem test_witness_TransfersRunAndEnd :
    (∃ (s : State) (f : Frame) (p : Nat) (y : Hub) (x : Xfer) (st : Nat), (s.hub.works usbIsland = true) ∧ (s.hub.hostEntry f.entry = false) ∧ (f.control = false) ∧ (usbGood f.bytes = true) ∧
      (p = byteAt f.bytes 4) ∧ (y = (s.hub.takeFrame 5 f).modUsb p (fun u => { u with lastAt := (s.hub.takeFrame 5 f).clk.up })) ∧
      (byteAt f.bytes 0 = 1) ∧
      (x = ⟨f.entry, be f.bytes 2 2, byteAt f.bytes 5, byteAt f.bytes 6, byteAt f.bytes 1, be f.bytes 8 4, slice f.bytes 12 12, f.bytes.drop 32, false⟩) ∧
      (y.xferRefusal f = some st)) ∧
    (∃ (s : State) (f : Frame) (p : Nat) (y : Hub) (x : Xfer) (z : Hub), (s.hub.works usbIsland = true) ∧ (s.hub.hostEntry f.entry = false) ∧ (f.control = false) ∧ (usbGood f.bytes = true) ∧
      (p = byteAt f.bytes 4) ∧ (y = (s.hub.takeFrame 5 f).modUsb p (fun u => { u with lastAt := (s.hub.takeFrame 5 f).clk.up })) ∧
      (byteAt f.bytes 0 = 1) ∧
      (x = ⟨f.entry, be f.bytes 2 2, byteAt f.bytes 5, byteAt f.bytes 6, byteAt f.bytes 1, be f.bytes 8 4, slice f.bytes 12 12, f.bytes.drop 32, false⟩) ∧
      (y.xferRefusal f = none) ∧ (z = y.modUsb p (fun u => { u with xfers := u.xfers ++ [x] })) ∧ ((z.usbp p).suspended = false)) ∧
    (∃ (s : State) (f : Frame) (p : Nat) (y : Hub) (x : Xfer) (z : Hub), (s.hub.works usbIsland = true) ∧ (s.hub.hostEntry f.entry = false) ∧ (f.control = false) ∧ (usbGood f.bytes = true) ∧
      (p = byteAt f.bytes 4) ∧ (y = (s.hub.takeFrame 5 f).modUsb p (fun u => { u with lastAt := (s.hub.takeFrame 5 f).clk.up })) ∧
      (byteAt f.bytes 0 = 1) ∧
      (x = ⟨f.entry, be f.bytes 2 2, byteAt f.bytes 5, byteAt f.bytes 6, byteAt f.bytes 1, be f.bytes 8 4, slice f.bytes 12 12, f.bytes.drop 32, false⟩) ∧
      (y.xferRefusal f = none) ∧ (z = y.modUsb p (fun u => { u with xfers := u.xfers ++ [x] })) ∧ ((z.usbp p).suspended = true) ∧
      ((z.usbp p).resume = none)) ∧
    (∃ (s : State) (p ep got : Nat) (d : List Byte) (x : Xfer) (y : Hub),
      ((s.hub.usbp p).xfers.find? (fun x => x.ep == ep && x.started) = some x) ∧
      (y = s.hub.modUsb p (fun u => { u with xfers := u.xfers.erase x })) ∧ (bit x.ep 7 = true) ∧ (x.xtype ≠ 1) ∧ (got = d.length) ∧
      got ≤ x.len) ∧
    (∃ (s : State) (p ep : Nat) (d : List Byte) (x : Xfer) (y : Hub),
      ((s.hub.usbp p).xfers.find? (fun x => x.ep == ep && x.started) = some x) ∧
      (y = s.hub.modUsb p (fun u => { u with xfers := u.xfers.erase x })) ∧ (bit x.ep 7 = false)) ∧
    (∃ (s : State) (i v : Nat), (v = s.hub.tget 0x40 i) ∧ (s.hub.polls v = true)) ∧
    (∃ (s : State) (i : Nat), (s.hub.polls (s.hub.tget 0x40 i) = false)) ∧
    (∃ (s : State) (i v o n : Nat) (b : List Byte) (x : Hub), (v = s.hub.pollOf i) ∧ (s.hub.polls v = true) ∧ (x = s.hub.endPoll i) ∧ (o = bits v 32 16) ∧ (n = bits v 48 8) ∧
      (bit v 5 = false ∨ byteAt b 0 = bits v 24 8) ∧ o + n ≤ b.length ∧ (bit v 6 = true)) ∧
    (∃ (s : State) (i v t : Nat) (b : List Byte) (x : Hub), (v = s.hub.pollOf i) ∧ (s.hub.polls v = true) ∧ (x = s.hub.endPoll i) ∧ (bit v 5 = false ∨ byteAt b 0 = bits v 24 8) ∧
      b.length < bits v 32 16 + bits v 48 8 ∧ (bit v 6 = false) ∧ (x.usbOwner (bindPort v) = some t)) ∧
    (∃ (s : State) (n : Nat), (s.hub.isHead = true) ∧ (s.hub.pget P.US_RING_ORDER 0 ≠ 0) ∧ (s.hub.works usbIsland = true) ∧
      (n = min (2 ^ s.hub.pget P.US_RING_ORDER 0) ((s.hub.ringIndex 0 + 2 ^ 32 - s.hub.ringIndex 4) % 2 ^ 32))) ∧
    (∃ (s : State), (s.hub.isHead = false ∨ s.hub.pget P.US_RING_ORDER 0 = 0)) :=
  ⟨⟨W.on id,
    ⟨4, 0, false, ([1#8, 0#8, 0#8, 0#8, 4#8] ++ W.z 27)⟩,
    _, _, _, 10, by decide +kernel, by decide +kernel, by decide +kernel, (by decide +kernel), rfl, rfl, by decide +kernel, rfl,
    by decide +kernel⟩,
   ⟨W.on (fun h => let h := h.tset 1 4 71776143656615945; let h := h.pset P.US_PORT_ENABLE 4 1; let h := h.modUsb 4 (fun y => { y with speed := 3, power := true, addressed := true }); h),
    ⟨4, 0, false, ([1#8, 0#8, 0#8, 0#8, 4#8] ++ W.z 27)⟩,
    _, _, _, _, by decide +kernel, by decide +kernel, by decide +kernel, (by decide +kernel), rfl, rfl, by decide +kernel, rfl,
    by decide +kernel, rfl, by decide +kernel⟩,
   ⟨W.on (fun h => let h := h.tset 1 4 71776143656615945; let h := h.pset P.US_PORT_ENABLE 4 1; let h := h.modUsb 4 (fun y => { y with speed := 3, power := true, addressed := true }); let h := h.modUsb 4 (fun y => { y with suspended := true }); h),
    ⟨4, 0, false, ([1#8, 0#8, 0#8, 0#8, 4#8] ++ W.z 27)⟩,
    _, _, _, _, by decide +kernel, by decide +kernel, by decide +kernel, (by decide +kernel), rfl, rfl, by decide +kernel, rfl,
    by decide +kernel, rfl, by decide +kernel⟩,
   ⟨W.on (fun h => let h := h.modUsb 4 (fun y => { y with xfers := [⟨0, 0, 129, 0, 0, 0, [], [], true⟩] }); h), 4, 0x81, _, [],
    ⟨0, 0, 129, 0, 0, 0, [], [], true⟩, _, by decide +kernel, rfl, by decide +kernel, by decide +kernel, rfl, by decide +kernel⟩,
   ⟨W.on (fun h => let h := h.modUsb 4 (fun y => { y with xfers := [⟨0, 0, 1, 0, 0, 0, [], [], true⟩] }); h), 4, 1, [],
    ⟨0, 0, 1, 0, 0, 0, [], [], true⟩, _, by decide +kernel, rfl, by decide +kernel⟩,
   ⟨W.on (fun h => let h := h.modUsb 4 (fun y => { y with speed := 3, power := true, addressed := true }); let h := h.tset 0x40 0 147647136083621250176; h),
    0, _, rfl, by decide +kernel⟩,
   ⟨W.on id, 0, by decide +kernel⟩,
   ⟨W.on (fun h => let h := h.modUsb 4 (fun y => { y with speed := 3, power := true, addressed := true }); let h := h.tset 0x40 0 147647136083621250240; h),
    0, _, _, _, List.replicate 4 0#8, _, rfl, by decide +kernel, rfl, rfl, rfl, by decide +kernel⟩,
   ⟨W.on (fun h => let h := h.modUsb 4 (fun y => { y with speed := 3, power := true, addressed := true }); let h := h.tset 1 4 71776143656615945; let h := h.tset 0x40 0 147647136083621250176; h),
    0, _, 4, [], _, rfl, by decide +kernel, rfl, by decide +kernel⟩,
   ⟨W.on (fun h => let h : Hub := { h with straps := 5 }; let h := h.pset P.US_RING_ORDER 0 1; h), _, by decide +kernel, by decide +kernel,
    by decide +kernel, rfl⟩,
   ⟨W.on id, by decide +kernel⟩⟩

/-- States and operands that meet the hypotheses of `Obligations.UsbPortsAndTheServicePort`, clause by clause. -/
theorem test_witness_UsbPortsAndTheServicePort :
    (∃ (s : State) (p : Nat), (s.hub.works usbIsland = true) ∧ 4 ≤ p ∧ (s.hub.pget P.US_OC_MODE 0 ≠ 1)) ∧
    (∃ (s : State), (s.hub.works usbIsland = true) ∧ (s.hub.pget P.US_OC_MODE 0 = 1)) ∧
    (∃ (s : State) (p : Nat), (s.hub.idleTime ≠ 0) ∧ (s.hub.works usbIsland = true) ∧ ((s.hub.usbp p).speed ≠ 0) ∧ (s.hub.usbPowered p = true) ∧
      ((s.hub.usbp p).suspended = false) ∧ ((s.hub.usbp p).xfers = []) ∧ (s.hub.bindings.any (fun e => bindPort e.2 == p) = false)) ∧
    (∃ (s : State) (p : Nat), (s.hub.works usbIsland = true) ∧ ((s.hub.usbp p).suspended = true) ∧ ((s.hub.usbp p).resume = none)) ∧
    (∃ (s : State) (p t : Nat), (s.hub.works usbIsland = true) ∧ ((s.hub.usbp p).suspended = true) ∧ ((s.hub.usbp p).resume = some t) ∧ s.hub.clk.up < t + ms 20) ∧
    (∃ (s : State) (p t : Nat) (x : Hub), ((s.hub.usbp p).resume = some t) ∧ (x = (if 4 ≤ (s.hub.usbp p).speed then s.hub else s.hub.until (t + ms 30)))) ∧
    (∃ (s : State) (p v sp : Nat), (s.hub.works usbIsland = true) ∧ (s.hub.usbServes p = true) ∧ (s.hub.usbPowered p = true) ∧ (s.hub.pget P.US_PORT_ENABLE p ≠ 0) ∧
      ((s.hub.usbp p).speed = 0) ∧ 1 ≤ v ∧ v ≤ 5 ∧ (sp = min v (s.hub.usbTop p))) ∧
    (∃ (s : State) (p v : Nat), ((s.hub.usbp p).speed ≠ 0)) ∧
    (∃ (s : State) (start : Int), (s.hub.works usbIsland = true) ∧ (s.hub.pget P.US_SOF_MODE 0 ≠ 2) ∧
      (start = (if s.hub.usb.sofAt = 0 then (s.hub.clk.up * 960 : Int) else s.hub.usb.sofAt))) ∧
    (∃ (s : State), (s.hub.works usbIsland = false)) ∧
    (∃ (s : State) (q : Req) (a : Hub) (z : Hub × Reply), (s.hub.asks q 0x0C01 = true) ∧ (a = s.hub.asked q 0x0C01) ∧
      (z = ((Config.usbPortControl q.payload).elim (a, Reply.err .badParam) (fun x => if 8 ≤ x.1 then (a, .err .range) else ((a.portCmd x.1 x.2).1, if (a.portCmd x.1 x.2).2 = 0 then .ok [] else .err .conflict))))) ∧
    (∃ (s : State) (b : SvcBus) (x : Hub),
      (x = s.hub.modUsbc (fun u => { u with svc := b, woke := u.woke && b.suspended })) ∧ (x.svcPulled = true)) ∧
    (∃ (s : State) (b : SvcBus) (x : Hub),
      (x = s.hub.modUsbc (fun u => { u with svc := b, woke := u.woke && b.suspended })) ∧ (x.svcPulled = false)) ∧
    (∃ (s : State) (bs : List Byte), (s.hub.svcHost = true) ∧ (s.hub.usb.svc.configured = true) ∧ (s.hub.usb.svc.suspended = false)) ∧
    (∃ (s : State) (bs : List Byte), (s.hub.svcHost = true) ∧ (s.hub.usb.svc.configured = false ∨ s.hub.usb.svc.suspended = true)) ∧
    (∃ (s : State) (q : Setup), (s.hub.svcHost = true) ∧ (setupFor q 0xC0 1 = true)) ∧
    (∃ (s : State) (q : Setup) (v : Nat), (s.hub.svcHost = true) ∧ (setupFor q 0x40 2 = true)) ∧
    (∃ (s : State) (q : Setup) (d : List Byte), (s.hub.svcHost = true) ∧ (q.type = 0x80) ∧ (q.request = 6) ∧ (q.value % 256 = 0) ∧ (svcDescriptor (q.value / 256) = some d)) ∧
    (∃ (s : State) (q : Setup) (v : Nat), (s.hub.svcHost = true) ∧ (setupFor q 0x40 2 = false)) ∧
    (∃ (s : State) (q : Setup), (s.hub.svcHost = true) ∧ (setupFor q 0xC0 1 = false) ∧ (q.type ≠ 0x80)) ∧
    (∃ (s : State), (s.hub.svcHost = true)) ∧
    (∃ (s : State) (c : SvcCut) (x : Hub), (s.hub.svcHost = true) ∧ (x = s.hub.modUsbc (fun u => { u with svc := { Usb.reset.svc with vbus := u.svc.vbus }, woke := false }))) ∧
    (∃ (s : State) (q : Setup) (v : Nat) (c : SvcCut) (bs : List Byte), (s.hub.svcHost = false)) :=
  ⟨⟨W.on id, 4, by decide +kernel⟩,
   ⟨W.on (fun h => let h := h.pset P.US_OC_MODE 0 1; h), by decide +kernel⟩,
   ⟨W.on (fun h => let h := h.modUsb 4 (fun y => { y with suspended := false }); let h := h.modUsb 4 (fun y => { y with xfers := [] }); let h := h.modUsb 4 (fun y => { y with speed := 3, power := true, addressed := true }); h),
    4, by decide +kernel⟩,
   ⟨W.on (fun h => let h := h.modUsb 0 (fun y => { y with suspended := true }); let h := h.modUsb 0 (fun y => { y with resume := none }); h),
    0, by decide +kernel⟩,
   ⟨W.on (fun h => let h := h.modUsb 0 (fun y => { y with suspended := true }); let h := h.modUsb 0 (fun y => { y with resume := some 0 }); h),
    0, 0, by decide +kernel⟩,
   ⟨W.on (fun h => let h := h.modUsb 0 (fun y => { y with resume := some 0 }); h), 0, 0, _, by decide +kernel, rfl⟩,
   ⟨W.on (fun h => let h := h.modUsb 4 (fun y => { y with speed := 0 }); let h := h.modUsb 4 (fun y => { y with power := true }); let h := h.pset P.US_PORT_ENABLE 4 1; h),
    4, 3, _, by decide +kernel, by decide +kernel, by decide +kernel, (by decide +kernel), by decide +kernel, by decide +kernel,
    by decide +kernel, rfl⟩,
   ⟨W.on (fun h => let h := h.modUsb 4 (fun y => { y with speed := 3, power := true, addressed := true }); h), 4, 0, by decide +kernel⟩,
   ⟨W.on (fun h => let h := h.pset P.US_SOF_MODE 0 0; h), _, by decide +kernel, by decide +kernel, rfl⟩,
   ⟨W.on (fun h => let h := h.modIsland 8 (fun y => { y with inReset := true }); h), by decide +kernel⟩,
   ⟨W.on id, (W.q [] 3 0), _, _, by decide +kernel, rfl, rfl⟩,
   ⟨W.on (fun h => let h := h.pset P.US_SVC_ENABLE 0 1; h), ⟨true, false, 0, true, false⟩, _, rfl, by decide +kernel⟩,
   ⟨W.on id, ⟨false, false, 0, false, false⟩, _, rfl, by decide +kernel⟩,
   ⟨W.on (fun h => let h : Hub := { h with svcHost := true }; let h : Hub := { h with usb := { h.usb with svc := { h.usb.svc with configured := true } } }; let h : Hub := { h with usb := { h.usb with svc := { h.usb.svc with suspended := false } } }; h),
    [], by decide +kernel⟩,
   ⟨W.on (fun h => let h : Hub := { h with svcHost := true }; let h : Hub := { h with usb := { h.usb with svc := { h.usb.svc with configured := false } } }; h),
    [], by decide +kernel⟩,
   ⟨W.on (fun h => let h : Hub := { h with svcHost := true }; h), ⟨0xC0, 1, 0, 0, 4⟩, by decide +kernel⟩,
   ⟨W.on (fun h => let h : Hub := { h with svcHost := true }; h), ⟨0x40, 2, 0, 0, 4⟩, 0, by decide +kernel⟩,
   ⟨W.on (fun h => let h : Hub := { h with svcHost := true }; h), ⟨0x80, 6, 0x0100, 0, 18⟩, _, by decide +kernel, by decide +kernel,
    by decide +kernel, (by decide +kernel), (Option.some_get (by decide +kernel : Option.isSome _ = true)).symm⟩,
   ⟨W.on (fun h => let h : Hub := { h with svcHost := true }; h), ⟨0x40, 3, 0, 0, 4⟩, 0, by decide +kernel⟩,
   ⟨W.on (fun h => let h : Hub := { h with svcHost := true }; h), ⟨0xC0, 9, 0, 0, 4⟩, by decide +kernel⟩,
   ⟨W.on (fun h => let h : Hub := { h with svcHost := true }; h), by decide +kernel⟩,
   ⟨W.on (fun h => let h : Hub := { h with svcHost := true }; h), ⟨0, 0, false, false⟩, _, by decide +kernel, rfl⟩,
   ⟨W.on (fun h => let h : Hub := { h with svcHost := false }; h), ⟨0xC0, 1, 0, 0, 4⟩, 0, ⟨0, 0, false, false⟩, [], by decide +kernel⟩⟩

/-- States and operands that meet the hypotheses of `Obligations.TypeCPortsAttachAndDetach`, clause by clause. -/
theorem test_witness_TypeCPortsAttachAndDetach :
    (∃ (s : State) (n : Nat) (x : Hub), n < 4 ∧ (x = s.hub.stored P.TC_ENABLE n 1) ∧ ((x.tcp n).state = .disabled)) ∧
    (∃ (s : State) (n : Nat) (x : Hub), n < 4 ∧ (x = s.hub.stored P.TC_ENABLE n 1) ∧ ((x.tcp n).state ≠ .disabled)) ∧
    (∃ (s : State) (n : Nat) (x : Hub) (y : Hub), n < 4 ∧ (x = s.hub.stored P.TC_ENABLE n 0) ∧ ((x.tcp n).state ≠ .disabled) ∧ (y = (x.tcLeave n .disabled).vbusOff n)) ∧
    (∃ (s : State) (n c1 c2 : Nat), ((s.hub.tcp n).state = .unattached) ∧ (c1 = 1 ∨ c1 = 2 ∨ c2 = 1 ∨ c2 = 2) ∧ (s.hub.pw.state = .run ∨ (s.hub.tcp n).wakes = true)) ∧
    (∃ (s : State) (n c1 c2 : Nat), ((s.hub.tcp n).state = .attachWait) ∧ (c1 ≠ 1 ∧ c1 ≠ 2 ∧ c2 ≠ 1 ∧ c2 ≠ 2)) ∧
    (∃ (s : State) (n : Nat) (cable : Bool) (x : Hub), ((s.hub.tcp n).state = .attachWait) ∧ (((s.hub.tcp n).cc1, (s.hub.tcp n).cc2) = (if cable then (1, 2) else (1, 0))) ∧
      (x = (s.hub.until ((s.hub.tcp n).since + ms 150)).safe5 n)) ∧
    (∃ (s : State) (n term : Nat) (x y : Hub), ((s.hub.tcp n).state = .attachWait) ∧ (((s.hub.tcp n).cc1, (s.hub.tcp n).cc2) = (1, 1)) ∧
      (x = s.hub.until ((s.hub.tcp n).since + ms 150)) ∧ (term = (if x.debugAllowed then 3 else 4)) ∧
      (y = x.modTc n (fun t => { t with state := .accessory, since := x.clk.up, term := term, vbus := term == 3 }))) ∧
    (∃ (s : State) (n : Nat), ((s.hub.tcp n).state = .attachWait) ∧ (((s.hub.tcp n).cc1, (s.hub.tcp n).cc2) = (0, 0))) ∧
    (∃ (s : State) (n : Nat), ((s.hub.tcp n).state = .attachedSrc) ∧ ((s.hub.tcp n).high = false) ∧ ((s.hub.tcp n).openAt = none)) ∧
    (∃ (s : State) (n : Nat), ((s.hub.tcp n).state = .attachedSrc) ∧ ((s.hub.tcp n).high = true)) ∧
    (∃ (s : State) (n t : Nat), ((s.hub.tcp n).openAt = some t) ∧ ((s.hub.tcp n).state = .attachedSrc)) ∧
    (∃ (s : State) (n : Nat), ((s.hub.tcp n).state = .errorRecovery) ∧ ((s.hub.fuse (n + 1)).state = .off)) ∧
    (∃ (s : State) (n : Nat), ((s.hub.tcp n).state = .errorRecovery) ∧ ((s.hub.fuse (n + 1)).state ≠ .off)) ∧
    (∃ (s : State) (n : Nat), ((s.hub.tcp n).state = .attachedSnk)) ∧
    (∃ (s : State) (n : Nat) (x : Hub), ((s.hub.tcp n).vconn = true) ∧
      (x = ((s.hub.modTc n (fun t => { t with vconn := false, vFault := true, cableMa := 3000, cableEpr := false })).bump P.TC_VCONN_TRIP n).event .tcVconnFault [(0, 1, n)])) ∧
    (∃ (s : State) (n : Nat), ((s.hub.tcp n).vconn = false)) :=
  ⟨⟨W.on (fun h => let h := h.modTc 3 (fun y => { y with state := .disabled }); h), 3, _, by decide +kernel, rfl, by decide +kernel⟩,
   ⟨W.on (fun h => let h := h.modTc 0 (fun y => { y with state := .attachedSrc }); h), 0, _, by decide +kernel, rfl, by decide +kernel⟩,
   ⟨W.on (fun h => let h := h.modTc 0 (fun y => { y with state := .attachedSrc }); h), 0, _, _, by decide +kernel, rfl, by decide +kernel, rfl⟩,
   ⟨W.on (fun h => let h := h.modTc 0 (fun y => { y with state := .unattached }); h), 0, 1, 0, by decide +kernel⟩,
   ⟨W.on (fun h => let h := h.modTc 0 (fun y => { y with state := .attachWait }); h), 0, 0, 0, by decide +kernel⟩,
   ⟨W.on (fun h => let h := h.modTc 0 (fun y => { y with state := .attachWait }); let h := h.modTc 0 (fun y => { y with cc1 := 1, cc2 := 2 }); h),
    0, true, _, by decide +kernel, by decide +kernel, rfl⟩,
   ⟨W.on (fun h => let h := h.modTc 0 (fun y => { y with state := .attachWait }); let h := h.modTc 0 (fun y => { y with cc1 := 1, cc2 := 1 }); h),
    0, _, _, _, by decide +kernel, by decide +kernel, rfl, rfl, rfl⟩,
   ⟨W.on (fun h => let h := h.modTc 0 (fun y => { y with state := .attachWait }); h), 0, by decide +kernel⟩,
   ⟨W.on (fun h => let h := h.modTc 0 (fun y => { y with state := .attachedSrc }); let h := h.modTc 0 (fun y => { y with openAt := none }); h),
    0, by decide +kernel⟩,
   ⟨W.on (fun h => let h := h.modTc 0 (fun y => { y with state := .attachedSrc }); let h := h.modTc 0 (fun y => { y with mv := 9000 }); h), 0,
    by decide +kernel⟩,
   ⟨W.on (fun h => let h := h.modTc 0 (fun y => { y with openAt := some 0 }); let h := h.modTc 0 (fun y => { y with state := .attachedSrc }); h),
    0, 0, by decide +kernel⟩,
   ⟨W.on (fun h => let h := h.modTc 0 (fun y => { y with state := .errorRecovery }); let h := h.modFuse (0 + 1) (fun y => { y with state := .off }); h),
    0, by decide +kernel⟩,
   ⟨W.on (fun h => let h := h.modTc 0 (fun y => { y with state := .errorRecovery }); let h := h.modFuse 1 (fun y => { y with state := .on }); h),
    0, by decide +kernel⟩,
   ⟨W.on (fun h => let h := h.modTc 0 (fun y => { y with state := .attachedSnk }); h), 0, by decide +kernel⟩,
   ⟨W.on (fun h => let h := h.modTc 0 (fun y => { y with vconn := true }); h), 0, _, by decide +kernel, rfl⟩,
   ⟨W.on (fun h => let h := h.modTc 0 (fun y => { y with vconn := false }); h), 0, by decide +kernel⟩⟩

/-- States and operands that meet the hypotheses of `Obligations.PowerDeliveryFollowsItsRules`, clause by clause. -/
theorem test_witness_PowerDeliveryFollowsItsRules :
    (∃ (h : Hub) (n : Nat), ((h.tcp n).swap ≠ 2) ∧ ((h.tcp n).swap ≠ 3) ∧ ((h.tcp n).swap ≠ 1 ∨ (h.tcp n).asked = false)) ∧
    (∃ (h : Hub) (n : Nat), ((h.tcp n).swap = 1) ∧ ((h.tcp n).asked = true)) ∧
    (∃ (s : State) (n : Nat) (y : Hub) (pos mA i mv top : Nat), (y = s.hub.tcAnswered n) ∧ (y.pdWorks = true) ∧ ((y.tcp n).state = .attachedSrc) ∧ ((y.tcp n).recover = false) ∧
      ((y.tcp n).offer.find? (fun x => x.1 == pos) = some (i, mv, top)) ∧ mA ≤ top) ∧
    (∃ (s : State) (n : Nat) (y : Hub) (pos mA : Nat), (y = s.hub.tcAnswered n) ∧ (y.pdWorks = true) ∧ ((y.tcp n).state = .attachedSrc) ∧ ((y.tcp n).recover = false) ∧
      ((y.tcp n).offer.find? (fun x => x.1 == pos) = none)) ∧
    (∃ (s : State) (n : Nat) (y : Hub) (pos mA i mv top : Nat), (y = s.hub.tcAnswered n) ∧ (y.pdWorks = true) ∧ ((y.tcp n).state = .attachedSrc) ∧ ((y.tcp n).recover = false) ∧
      ((y.tcp n).offer.find? (fun x => x.1 == pos) = some (i, mv, top)) ∧ top < mA) ∧
    (∃ (s : State) (n mv ma : Nat), ((s.hub.tcp n).next = some (mv, ma)) ∧ ((s.hub.tcp n).state = .attachedSrc)) ∧
    (∃ (s : State) (n : Nat) (y : Hub) (pdp : Nat), (y = s.hub.tcAnswered n) ∧ (y.pdWorks = true) ∧ ((y.tcp n).state = .attachedSrc) ∧ (y.eprAllowed n = true)) ∧
    (∃ (s : State) (n : Nat) (y : Hub) (pdp : Nat), (y = s.hub.tcAnswered n) ∧ (y.pdWorks = true) ∧ ((y.tcp n).state = .attachedSrc) ∧ (y.eprAllowed n = false)) ∧
    (∃ (s : State) (n : Nat) (y : Hub), (y = s.hub.tcAnswered n) ∧ (y.pdWorks = true) ∧ ((y.tcp n).state = .attachedSrc) ∧ (y.pget P.TC_SINK_ALLOW n = 1)) ∧
    (∃ (s : State) (n : Nat) (y : Hub), (y = s.hub.tcAnswered n) ∧ (y.pdWorks = true) ∧ ((y.tcp n).state = .attachedSrc) ∧ (y.pget P.TC_SINK_ALLOW n ≠ 1)) ∧
    (∃ (s : State) (n : Nat) (y : Hub), (y = s.hub.tcAnswered n) ∧ (y.pdWorks = true) ∧ ((y.tcp n).attached = true) ∧ (y.pget P.TC_DR_SWAP_ALLOW n = 1)) ∧
    (∃ (s : State) (n : Nat) (y : Hub), (y = s.hub.tcAnswered n) ∧ (y.pdWorks = true) ∧ ((y.tcp n).attached = true) ∧ (y.pget P.TC_DR_SWAP_ALLOW n ≠ 1)) ∧
    (∃ (s : State) (n : Nat) (y : Hub), (y = s.hub.tcAnswered n) ∧ (y.pdWorks = true) ∧ ((y.tcp n).attached = true)) ∧
    (∃ (s : State) (n : Nat), ((s.hub.tcp n).attached = false)) ∧
    (∃ (s : State) (n : Nat) (x : Hub), ((s.hub.tcp n).state = .attachedSrc) ∧ (s.hub.pdWorks = true) ∧ ((s.hub.tcp n).swap = 0) ∧ (x = (s.hub.altExit n true).vbusOff n)) ∧
    (∃ (s : State) (n : Nat), ((s.hub.tcp n).due = true) ∧ ((s.hub.tcp n).state = .attachedSrc) ∧ (s.hub.pdWorks = true) ∧ ((s.hub.tcp n).swap = 0) ∧
      ((s.hub.tcp n).recover = false) ∧ ((s.hub.tcp n).next = none) ∧ ((s.hub.tcp n).offer ≠ []) ∧ ((s.hub.tcp n).epr = false)) ∧
    (∃ (s : State) (n : Nat), ((s.hub.tcp n).due = true) ∧ ((s.hub.tcp n).state = .attachedSrc) ∧ (s.hub.pdWorks = true) ∧ ((s.hub.tcp n).swap = 0) ∧
      ((s.hub.tcp n).recover = false) ∧ ((s.hub.tcp n).next = none) ∧ ((s.hub.tcp n).offer ≠ []) ∧ ((s.hub.tcp n).epr = true) ∧
      (s.hub.eprAllowed n = false)) ∧
    (∃ (s : State) (n : Nat), ((s.hub.tcp n).due = false)) ∧
    (∃ (s : State) (n t : Nat), ((s.hub.tcp n).offerAt = some t)) ∧
    (∃ (s : State) (n : Nat), ((s.hub.tcp n).recover = true) ∧ ((s.hub.tcp n).dis = false)) ∧
    (∃ (s : State) (n : Nat) (y : Hub) (pd : List (Nat × Nat)) (w : Nat) (b c : Nat × Nat),
      (y = s.hub.tcAnswered n) ∧ (y.pdWorks = true) ∧ ((y.tcp n).state = .attachedSnk) ∧ (w = y.pget P.TC_SINK_MAX_CURRENT n) ∧
      (b = (pd.filter (fun x => x.1 ≤ 20000 && w ≤ x.2)).foldl (fun (a : Nat × Nat) x => if a.1 ≤ x.1 then (x.1, w) else a) (0, 0)) ∧
      (c = (if b.1 ≠ 0 then b else (5000, min w (((pd.find? (fun x => x.1 == 5000)).map (·.2)).getD 0))))) ∧
    (∃ (s : State) (n mv ma : Nat) (y : Hub), (y = s.hub.tcSwapped n) ∧ (y.pdWorks = true) ∧ ((y.tcp n).state = .attachedSnk) ∧ ((y.tcp n).swap = 0) ∧ ((y.tcp n).next = some (mv, ma))) ∧
    (∃ (s : State) (n : Nat) (y x : Hub), (y = s.hub.tcSwapped n) ∧ (y.pdWorks = true) ∧ ((y.tcp n).state = .attachedSrc) ∧ ((y.tcp n).swap = 1) ∧
      (x = (if (y.tcp n).vbus then (y.vbusOff n).pd n "PS_RDY" [] else y))) ∧
    (∃ (s : State) (n : Nat) (y : Hub), (y = s.hub.tcAnswered n) ∧ (y.pdWorks = true) ∧ ((y.tcp n).epr = true)) ∧
    (∃ (s : State) (n : Nat) (y : Hub), (y = s.hub.tcAnswered n) ∧ (y.pdWorks = true) ∧ ((y.tcp n).attached = true)) ∧
    (∃ (s : State) (n : Nat) (y : Hub) (msg : Nat), (y = s.hub.tcAnswered n) ∧ (y.pdWorks = true) ∧ ((y.tcp n).attached = true) ∧ (msg ≠ 8)) ∧
    (∃ (s : State) (n : Nat), ((s.hub.tcp n).altStep = 6) ∧ (s.hub.altAllowed n = true) ∧ ((s.hub.tcp n).hpd = false)) ∧
    (∃ (s : State) (n : Nat), ((s.hub.tcp n).altStep = 6) ∧ (s.hub.altAllowed n = true) ∧ ((s.hub.tcp n).hpd = true)) ∧
    (∃ (s : State) (n : Nat), ((s.hub.tcp n).altStep = 6) ∧ (s.hub.altAllowed n = true)) ∧
    (∃ (s : State) (n : Nat) (y : Hub) (v : Vdm), (y = s.hub.tcAnswered n) ∧ (y.pdWorks = true) ∧ ((y.tcp n).state = .attachedSrc) ∧ ((y.tcp n).vconn = true) ∧ ((y.tcp n).vFault = false) ∧
      (v.step = 1)) ∧
    (∃ (s : State) (n : Nat) (y : Hub) (v : Vdm), (y = s.hub.tcAnswered n) ∧ (y.pdWorks = true) ∧ (y.altAllowed n = true) ∧ ((y.tcp n).attached = true) ∧ (v.step = 4) ∧
      ((y.tcp n).altStep = 4) ∧ (v.ack = true)) ∧
    (∃ (s : State) (n : Nat) (y : Hub) (v : Vdm), (y = s.hub.tcAnswered n) ∧ (y.pdWorks = true) ∧ (y.altAllowed n = true) ∧ ((y.tcp n).attached = true) ∧ (v.step = 5) ∧
      ((y.tcp n).altStep = 5)) ∧
    (∃ (s : State) (n : Nat) (hpd : Bool) (x : Hub), (x = s.hub.tcAttention n hpd)) :=
  ⟨⟨(W.on id).hub, 0, by decide +kernel⟩,
   ⟨(W.on (fun h => let h := h.modTc 0 (fun y => { y with swap := 1 }); let h := h.modTc 0 (fun y => { y with asked := true }); h)).hub, 0,
    by decide +kernel⟩,
   ⟨W.on (fun h => let h := h.modTc 0 (fun y => { y with state := .attachedSrc }); let h := h.modTc 0 (fun y => { y with offer := [(1, 5000, 3000)] }); h),
    0, _, 1, 3000, 1, 5000, 3000, rfl, by decide +kernel⟩,
   ⟨W.on (fun h => let h := h.modTc 0 (fun y => { y with state := .attachedSrc }); let h := h.modTc 0 (fun y => { y with offer := [(1, 5000, 3000)] }); h),
    0, _, 2, 0, rfl, by decide +kernel⟩,
   ⟨W.on (fun h => let h := h.modTc 0 (fun y => { y with state := .attachedSrc }); let h := h.modTc 0 (fun y => { y with offer := [(1, 5000, 3000)] }); h),
    0, _, 1, 3001, 1, 5000, 3000, rfl, by decide +kernel⟩,
   ⟨W.on (fun h => let h := h.modTc 0 (fun y => { y with next := some (0, 0) }); let h := h.modTc 0 (fun y => { y with state := .attachedSrc }); h),
    0, 0, 0, by decide +kernel⟩,
   ⟨W.on (fun h => let h := h.modTc 0 (fun y => { y with state := .attachedSrc }); let h := h.modTc 0 (fun y => { y with cableEpr := true, cableMa := 5000 }); let h := h.pset P.TC_EPR_ENABLE 0 1; let h := h.pset P.TC_MAX_VOLTAGE 0 48000; let h := h.pset P.TC_POWER_BUDGET 0 400000; h),
    0, _, 0, rfl, by decide +kernel⟩,
   ⟨W.on (fun h => let h := h.modTc 0 (fun y => { y with state := .attachedSrc }); h), 0, _, 0, rfl, by decide +kernel⟩,
   ⟨W.on (fun h => let h := h.modTc 0 (fun y => { y with state := .attachedSrc }); let h := h.pset P.TC_SINK_ALLOW 0 1; h), 0, _, rfl,
    by decide +kernel⟩,
   ⟨W.on (fun h => let h := h.modTc 0 (fun y => { y with state := .attachedSrc }); let h := h.pset P.TC_SINK_ALLOW 0 0; h), 0, _, rfl,
    by decide +kernel⟩,
   ⟨W.on (fun h => let h := h.modTc 0 (fun y => { y with state := .attachedSrc }); let h := h.pset P.TC_DR_SWAP_ALLOW 0 1; h), 0, _, rfl,
    by decide +kernel⟩,
   ⟨W.on (fun h => let h := h.modTc 0 (fun y => { y with state := .attachedSrc }); let h := h.pset P.TC_DR_SWAP_ALLOW 0 0; h), 0, _, rfl,
    by decide +kernel⟩,
   ⟨W.on (fun h => let h := h.modTc 0 (fun y => { y with state := .attachedSrc }); h), 0, _, rfl, by decide +kernel⟩,
   ⟨W.on id, 0, by decide +kernel⟩,
   ⟨W.on (fun h => let h := h.modTc 0 (fun y => { y with state := .attachedSrc }); let h := h.modTc 0 (fun y => { y with swap := 0 }); h), 0,
    _, by decide +kernel, by decide +kernel, by decide +kernel, rfl⟩,
   ⟨W.on (fun h => let h := h.modTc 0 (fun y => { y with due := true }); let h := h.modTc 0 (fun y => { y with state := .attachedSrc }); let h := h.modTc 0 (fun y => { y with swap := 0 }); let h := h.modTc 0 (fun y => { y with recover := false }); let h := h.modTc 0 (fun y => { y with next := none }); let h := h.modTc 0 (fun y => { y with offer := [default] }); let h := h.modTc 0 (fun y => { y with epr := false }); h),
    0, by decide +kernel⟩,
   ⟨W.on (fun h => let h := h.modTc 0 (fun y => { y with due := true }); let h := h.modTc 0 (fun y => { y with state := .attachedSrc }); let h := h.modTc 0 (fun y => { y with swap := 0 }); let h := h.modTc 0 (fun y => { y with recover := false }); let h := h.modTc 0 (fun y => { y with next := none }); let h := h.modTc 0 (fun y => { y with offer := [default] }); let h := h.modTc 0 (fun y => { y with epr := true }); h),
    0, by decide +kernel⟩,
   ⟨W.on (fun h => let h := h.modTc 0 (fun y => { y with due := false }); h), 0, by decide +kernel⟩,
   ⟨W.on (fun h => let h := h.modTc 0 (fun y => { y with offerAt := some 0 }); h), 0, 0, by decide +kernel⟩,
   ⟨W.on (fun h => let h := h.modTc 0 (fun y => { y with recover := true }); let h := h.modTc 0 (fun y => { y with dis := false }); h), 0,
    by decide +kernel⟩,
   ⟨W.on (fun h => let h := h.modTc 0 (fun y => { y with state := .attachedSnk }); h), 0, _, [(5000, 3000)], _, _, _, rfl, by decide +kernel,
    by decide +kernel, rfl, rfl, rfl⟩,
   ⟨W.on (fun h => let h := h.modTc 0 (fun y => { y with state := .attachedSnk }); let h := h.modTc 0 (fun y => { y with next := some (5000, 900) }); h),
    0, 5000, 900, _, rfl, by decide +kernel⟩,
   ⟨W.on (fun h => let h := h.modTc 0 (fun y => { y with state := .attachedSrc }); let h := h.modTc 0 (fun y => { y with swap := 1 }); h), 0,
    _, _, rfl, by decide +kernel, by decide +kernel, by decide +kernel, rfl⟩,
   ⟨W.on (fun h => let h := h.modTc 0 (fun y => { y with epr := true }); h), 0, _, rfl, by decide +kernel⟩,
   ⟨W.on (fun h => let h := h.modTc 0 (fun y => { y with state := .attachedSrc, dfp := true }); h), 0, _, rfl, by decide +kernel⟩,
   ⟨W.on (fun h => let h := h.modTc 0 (fun y => { y with state := .attachedSrc }); h), 0, _, 0, rfl, by decide +kernel⟩,
   ⟨W.on (fun h => let h := h.modHead 0 (fun y => { y with route := 2 }); let h := h.modTc 0 (fun y => { y with state := .attachedSrc, dfp := true, altStep := 6, hpd := false }); h),
    0, by decide +kernel⟩,
   ⟨W.on (fun h => let h := h.modHead 0 (fun y => { y with route := 2 }); let h := h.modTc 0 (fun y => { y with state := .attachedSrc, dfp := true, altStep := 6, hpd := true }); h),
    0, by decide +kernel⟩,
   ⟨W.on (fun h => let h := h.modHead 0 (fun y => { y with route := 2 }); let h := h.modTc 0 (fun y => { y with state := .attachedSrc, dfp := true, altStep := 6 }); h),
    0, by decide +kernel⟩,
   ⟨W.on (fun h => let h := h.modTc 0 (fun y => { y with state := .attachedSrc, dfp := true, vconn := true, vFault := false }); h), 0, _,
    ⟨1, true, 5000, false, false, false, false, false⟩, rfl, by decide +kernel⟩,
   ⟨W.on (fun h => let h := h.modHead 0 (fun y => { y with route := 2 }); let h := h.modTc 0 (fun y => { y with state := .attachedSrc, dfp := true, altStep := 4 }); h),
    0, _, ⟨4, true, 0, false, true, true, false, false⟩, rfl, by decide +kernel⟩,
   ⟨W.on (fun h => let h := h.modHead 0 (fun y => { y with route := 2 }); let h := h.modTc 0 (fun y => { y with state := .attachedSrc, dfp := true, altStep := 5 }); h),
    0, _, ⟨5, true, 0, false, true, true, false, false⟩, rfl, by decide +kernel⟩,
   ⟨W.on id, 0, false, _, rfl⟩⟩

end Sys2Proof.Tests.Witness3
end

