-- ==== Sys2Proof/Tests/Witness4.lean ====
section
/-!
SUPPORT. Witnesses that no obligation has empty hypotheses, part 4: for each statement one theorem that shows a state and operands for
every clause that has hypotheses.  The states are the hub after reset and start, changed by the named operations.
-/
namespace Sys2Proof.Tests.Witness4
open Sys2Proof Sys2Proof.Machine
set_option Elab.async false
set_option maxRecDepth 8000
set_option linter.unusedVariables false

/-- States and operands that meet the hypotheses of `Obligations.TypeCCommandsAct`, clause by clause. -/
theorem test_witness_TypeCCommandsAct :
    (∃ (s : State) (q : Req) (a : Hub) (n : Nat), (s.hub.asks (force q 1 1) 0x0C02 = true) ∧ (a = s.hub.asked (force q 1 1) 0x0C02) ∧ (q.payload.length = 4) ∧ (n = le q.payload 0 1) ∧
      (le q.payload 2 2 = 0) ∧ n ≤ 3 ∧ ((a.tcp n).attached = true) ∧ (a.pdWorks = true)) ∧
    (∃ (s : State) (q : Req) (a : Hub) (n : Nat), (s.hub.asks (force q 1 2) 0x0C02 = true) ∧ (a = s.hub.asked (force q 1 2) 0x0C02) ∧ (q.payload.length = 4) ∧ (n = le q.payload 0 1) ∧
      (le q.payload 2 2 = 0) ∧ n ≤ 3 ∧ ((a.tcp n).attached = true) ∧ (a.pdWorks = true) ∧ ((a.tcp n).swap = 0) ∧
      ((a.tcp n).recover = false) ∧ ((a.tcp n).next = none) ∧ ((a.tcp n).state ≠ .attachedSnk ∨ (a.tcp n).snk = false)) ∧
    (∃ (s : State) (q : Req) (a : Hub) (n : Nat), (s.hub.asks (force q 1 3) 0x0C02 = true) ∧ (a = s.hub.asked (force q 1 3) 0x0C02) ∧ (q.payload.length = 4) ∧ (n = le q.payload 0 1) ∧
      (le q.payload 2 2 = 0) ∧ n ≤ 3 ∧ ((a.tcp n).attached = true) ∧ (a.pdWorks = true) ∧ ((a.tcp n).swap = 0) ∧
      ((a.tcp n).recover = false) ∧ ((a.tcp n).next = none)) ∧
    (∃ (s : State) (q : Req) (a : Hub) (n : Nat), (s.hub.asks (force q 1 4) 0x0C02 = true) ∧ (a = s.hub.asked (force q 1 4) 0x0C02) ∧ (q.payload.length = 4) ∧ (n = le q.payload 0 1) ∧
      (le q.payload 2 2 = 0) ∧ n ≤ 3 ∧ ((a.tcp n).attached = true) ∧ (a.pdWorks = true) ∧ ((a.tcp n).swap = 0) ∧
      ((a.tcp n).recover = false) ∧ ((a.tcp n).next = none)) ∧
    (∃ (s : State) (q : Req) (a : Hub) (n : Nat), (s.hub.asks (force q 1 5) 0x0C02 = true) ∧ (a = s.hub.asked (force q 1 5) 0x0C02) ∧ (q.payload.length = 4) ∧ (n = le q.payload 0 1) ∧
      (le q.payload 2 2 = 0) ∧ n ≤ 3 ∧ ((a.tcp n).attached = true) ∧ (a.pdWorks = true) ∧ ((a.tcp n).swap = 0) ∧
      ((a.tcp n).recover = false) ∧ ((a.tcp n).next = none) ∧ ((a.tcp n).state = .attachedSrc) ∧ ((a.tcp n).offer ≠ []) ∧
      ((a.tcp n).epr = false)) ∧
    (∃ (s : State) (q : Req) (a : Hub) (n : Nat), (s.hub.asks (force q 1 6) 0x0C02 = true) ∧ (a = s.hub.asked (force q 1 6) 0x0C02) ∧ (q.payload.length = 4) ∧ (n = le q.payload 0 1) ∧
      (le q.payload 2 2 = 0) ∧ n ≤ 3 ∧ ((a.tcp n).attached = true) ∧ (a.pdWorks = true) ∧ ((a.tcp n).swap = 0) ∧
      ((a.tcp n).recover = false) ∧ ((a.tcp n).next = none) ∧ ((a.tcp n).alt ≠ 0)) ∧
    (∃ (s : State) (q : Req) (a : Hub) (n : Nat), (s.hub.asks (force q 1 6) 0x0C02 = true) ∧ (a = s.hub.asked (force q 1 6) 0x0C02) ∧ (q.payload.length = 4) ∧ (n = le q.payload 0 1) ∧
      (le q.payload 2 2 = 0) ∧ n ≤ 3 ∧ ((a.tcp n).attached = true) ∧ (a.pdWorks = true) ∧ ((a.tcp n).swap = 0) ∧
      ((a.tcp n).recover = false) ∧ ((a.tcp n).next = none) ∧ ((a.tcp n).alt = 0)) ∧
    (∃ (s : State) (q : Req) (a : Hub) (n : Nat), (s.hub.asks (force q 1 2) 0x0C02 = true) ∧ (a = s.hub.asked (force q 1 2) 0x0C02) ∧ (q.payload.length = 4) ∧ (n = le q.payload 0 1) ∧
      (le q.payload 2 2 = 0) ∧ n ≤ 3 ∧ ((a.tcp n).attached = false ∨ (a.tcp n).swap ≠ 0)) ∧
    (∃ (s : State) (q : Req) (a : Hub) (n : Nat), (s.hub.asks q 0x0C03 = true) ∧ (a = s.hub.asked q 0x0C03) ∧ (q.payload.length = 1) ∧ (n = le q.payload 0 1) ∧ n ≤ 3) :=
  ⟨⟨W.on (fun h => let h := h.modTc 0 (fun y => { y with state := .attachedSrc }); h), (W.q [0#8, 0#8, 0#8, 0#8] 3 0), _, _, by decide +kernel,
    rfl, by decide +kernel, rfl, by decide +kernel⟩,
   ⟨W.on (fun h => let h := h.modTc 0 (fun y => { y with state := .attachedSrc }); h), (W.q [0#8, 0#8, 0#8, 0#8] 3 0), _, _, by decide +kernel,
    rfl, by decide +kernel, rfl, by decide +kernel⟩,
   ⟨W.on (fun h => let h := h.modTc 0 (fun y => { y with state := .attachedSrc }); h), (W.q [0#8, 0#8, 0#8, 0#8] 3 0), _, _, by decide +kernel,
    rfl, by decide +kernel, rfl, by decide +kernel⟩,
   ⟨W.on (fun h => let h := h.modTc 0 (fun y => { y with state := .attachedSrc }); h), (W.q [0#8, 0#8, 0#8, 0#8] 3 0), _, _, by decide +kernel,
    rfl, by decide +kernel, rfl, by decide +kernel⟩,
   ⟨W.on (fun h => let h := h.modTc 0 (fun y => { y with state := .attachedSrc, offer := [(1, 5000, 3000)] }); h),
    (W.q [0#8, 0#8, 0#8, 0#8] 3 0), _, _, by decide +kernel, rfl, by decide +kernel, rfl, by decide +kernel⟩,
   ⟨W.on (fun h => let h := h.modTc 0 (fun y => { y with state := .attachedSrc }); let h := h.modTc 0 (fun y => { y with alt := 3 }); h),
    (W.q [0#8, 0#8, 0#8, 0#8] 3 0), _, _, by decide +kernel, rfl, by decide +kernel, rfl, by decide +kernel⟩,
   ⟨W.on (fun h => let h := h.modTc 0 (fun y => { y with state := .attachedSrc }); h), (W.q [0#8, 0#8, 0#8, 0#8] 3 0), _, _, by decide +kernel,
    rfl, by decide +kernel, rfl, by decide +kernel⟩,
   ⟨W.on id, (W.q [0#8, 0#8, 0#8, 0#8] 3 0), _, _, by decide +kernel, rfl, by decide +kernel, rfl, by decide +kernel, by decide +kernel,
    by left; decide +kernel⟩,
   ⟨W.on id, (W.q [0#8] 3 0), _, _, by decide +kernel, rfl, by decide +kernel, rfl, by decide +kernel⟩⟩

/-- States and operands that meet the hypotheses of `Obligations.LinePacketsFillFrameStores`, clause by clause. -/
theorem test_witness_LinePacketsFillFrameStores :
    (∃ (s : State) (f : Frame) (d : Nat) (x : Hub), (d = (s.hub.tun f.entry).binding % 2) ∧ (x = s.hub.takeFrame 6 f) ∧ (x.works 9 = false)) ∧
    (∃ (s : State) (f : Frame) (d : Nat) (x : Hub), (d = (s.hub.tun f.entry).binding % 2) ∧ (x = s.hub.takeFrame 6 f) ∧ (x.works 9 = true) ∧ (d = 1) ∧ (x.clone = true)) ∧
    (∃ (s : State) (f : Frame) (d : Nat) (x : Hub) (fr : Nat), (d = (s.hub.tun f.entry).binding % 2) ∧ (x = s.hub.takeFrame 6 f) ∧ (x.works 9 = true) ∧ ((decide (d = 1) && x.clone) = false) ∧
      (fr = be f.bytes 2 2) ∧ (packetGood f.bytes = false)) ∧
    (∃ (s : State) (f : Frame) (d : Nat) (x : Hub) (fr : Nat) (o : DsOpen),
      (d = (s.hub.tun f.entry).binding % 2) ∧ (x = s.hub.takeFrame 6 f) ∧ (x.works 9 = true) ∧ ((decide (d = 1) && x.clone) = false) ∧
      (fr = be f.bytes 2 2) ∧ (packetGood f.bytes = true) ∧ ((x.head d).opened = some o) ∧ ((x.head d).last = some fr) ∧
      (o.line = be f.bytes 4 2) ∧ (byteAt f.bytes 0 / 16 ≠ 2)) ∧
    (∃ (s : State) (f : Frame) (d : Nat) (x : Hub) (fr : Nat) (y : Hub) (o : DsOpen),
      (d = (s.hub.tun f.entry).binding % 2) ∧ (x = s.hub.takeFrame 6 f) ∧ (x.works 9 = true) ∧ ((decide (d = 1) && x.clone) = false) ∧
      (fr = be f.bytes 2 2) ∧ (packetGood f.bytes = true) ∧ (byteAt f.bytes 0 / 16 ≠ 2) ∧ ((x.head d).opened = none) ∧
      (be f.bytes 4 2 = 0) ∧ ((x.head d).last ≠ some fr) ∧
      (y = x.dsOpen d f.bytes (((x.head d).pps.find? (fun e => e.1 == byteAt f.bytes 8 && ppsGood e.2 (x.geometry d))).map (·.2) |>.getD [])) ∧
      ((y.head d).opened = some o) ∧ (o.line = 0)) ∧
    (∃ (s : State) (f : Frame) (d : Nat) (x : Hub) (fr : Nat) (y : Hub), (d = (s.hub.tun f.entry).binding % 2) ∧ (x = s.hub.takeFrame 6 f) ∧ (x.works 9 = true) ∧ ((decide (d = 1) && x.clone) = false) ∧
      (fr = be f.bytes 2 2) ∧ (packetGood f.bytes = true) ∧ (byteAt f.bytes 0 / 16 ≠ 2) ∧ ((x.head d).opened = none) ∧
      (be f.bytes 4 2 = 0) ∧ ((x.head d).last ≠ some fr) ∧
      (y = x.dsOpen d f.bytes (((x.head d).pps.find? (fun e => e.1 == byteAt f.bytes 8 && ppsGood e.2 (x.geometry d))).map (·.2) |>.getD [])) ∧
      ((y.head d).opened = none)) ∧
    (∃ (h : Hub) (d : Nat) (b pps : List Byte) (x : Hub),
      (x = h.modHead d (fun y => { y with last := some (be b 2 2) })) ∧ (x.freeBuf d = none)) ∧
    (∃ (h : Hub) (d k : Nat) (b pps : List Byte) (x : Hub),
      (x = h.modHead d (fun y => { y with last := some (be b 2 2) })) ∧ (x.freeBuf d = some k)) ∧
    (∃ (h : Hub) (d y : Nat) (o : DsOpen) (b : List Byte) (q : DsBuf),
      (q = nth (h.head d).bufs o.buf DsBuf.reset) ∧ (y = be b 4 2) ∧ ((q.w < be b 6 2 ∨ q.h ≤ y))) ∧
    (∃ (h : Hub) (d y : Nat) (o : DsOpen) (b : List Byte) (q : DsBuf),
      (q = nth (h.head d).bufs o.buf DsBuf.reset) ∧ (y = be b 4 2) ∧ be b 6 2 ≤ q.w ∧ y < q.h ∧ (packetLength b o.pps = true) ∧
      (byteAt b 0 / 16 = 0) ∧ (bit (byteAt b 1) 1 = false)) ∧
    (∃ (h : Hub) (d y : Nat) (o : DsOpen) (b : List Byte) (q : DsBuf) (x : Hub),
      (q = nth (h.head d).bufs o.buf DsBuf.reset) ∧ (y = be b 4 2) ∧ be b 6 2 ≤ q.w ∧ (y + 1 = q.h) ∧ (packetLength b o.pps = true) ∧
      (byteAt b 0 / 16 = 0) ∧ (bit (byteAt b 1) 1 = true) ∧
      (x = { h with dram := writeMem h.dram (pixelAt d o.buf q.w q.h 0 y) ((rgb8 (be b 6 2) (b.drop 16)).flatMap (leBytes 4)) }) ∧
      ((x.head d).newest = none)) ∧
    (∃ (s : State) (i d : Nat) (c : Cell) (x : Hub), (d = (s.hub.tun i).binding % 2) ∧ (x = s.hub.takeFrame 6 ⟨i, (s.hub.tun i).peer, true, c.payload⟩) ∧ (x.works 9 = true) ∧
      (byteAt c.payload 0 = 0x10) ∧ (c.payload.length = 140) ∧ (allZero (slice (c.payload.drop 8) 1 3) = true) ∧
      (ppsGood ((c.payload.drop 8).drop 4) (x.geometry d) = true)) ∧
    (∃ (s : State) (i d : Nat) (c : Cell) (x : Hub), (d = (s.hub.tun i).binding % 2) ∧ (x = s.hub.takeFrame 6 ⟨i, (s.hub.tun i).peer, true, c.payload⟩) ∧ (x.works 9 = true) ∧
      (byteAt c.payload 0 = 0x10) ∧ (c.payload.length = 140) ∧ (allZero (slice (c.payload.drop 8) 1 3) = true) ∧
      (ppsGood ((c.payload.drop 8).drop 4) (x.geometry d) = false)) ∧
    (∃ (s : State) (i d : Nat) (c : Cell) (x : Hub), (d = (s.hub.tun i).binding % 2) ∧ (x = s.hub.takeFrame 6 ⟨i, (s.hub.tun i).peer, true, c.payload⟩) ∧ (x.works 9 = true) ∧
      (byteAt c.payload 0 ≠ 0x10 ∨ c.payload.length ≠ 140)) :=
  ⟨⟨W.on (fun h => let h := h.modIsland 9 (fun y => { y with inReset := true }); h), ⟨0, 0, false, []⟩, _, _, rfl, rfl, by decide +kernel⟩,
   ⟨W.on (fun h => let h := h.tset 1 8 281498632585225; let h := h.pset P.DS_CLONE 0 1; h),
    ⟨8, 0, false, [0, 0, 0, 5, 0, 0, 0, 2, 0, 0, 0, 0, 0, 0, 0, 0]⟩, _, _, rfl, rfl, by decide +kernel⟩,
   ⟨W.on id, ⟨0, 0, false, []⟩, _, _, _, rfl, rfl, by decide +kernel, by decide +kernel, rfl, by decide +kernel⟩,
   ⟨W.on (fun h => let h := h.tset 1 8 23655874569; let h := h.modHead 0 (fun y => { y with opened := some ⟨0, 1, [], []⟩, last := some 5 }); let h := h.pset P.DS_H_ACTIVE 0 2; let h := h.pset P.DS_V_ACTIVE 0 2; h),
    ⟨8, 0, false, [0, 0, 0, 5, 0, 1, 0, 2, 0, 0, 0, 0, 0, 0, 0, 0]⟩, _, _, _, ⟨0, 1, [], []⟩, rfl, rfl, by decide +kernel,
    by decide +kernel, rfl, by decide +kernel⟩,
   ⟨W.on (fun h => let h := h.tset 1 8 23655874569; let h := h.pset P.DS_H_ACTIVE 0 2; let h := h.pset P.DS_V_ACTIVE 0 2; h),
    ⟨8, 0, false, [0, 0, 0, 5, 0, 0, 0, 2, 0, 0, 0, 0, 0, 0, 0, 0]⟩, _, _, _, _, ⟨0, 0, [], []⟩, rfl, rfl, by decide +kernel,
    by decide +kernel, rfl, by decide +kernel, by decide +kernel, by decide +kernel, (by decide +kernel), by decide +kernel, rfl,
    by decide +kernel⟩,
   ⟨W.on (fun h => let h := h.tset 1 8 23655874569; let h := h.pset P.DS_H_ACTIVE 0 2; let h := h.pset P.DS_V_ACTIVE 0 2; let h := h.modHead 0 (fun y => { y with scan := some ⟨0, some 0, 0, false, 2, 2, 0, 0, 0, 0⟩, newest := some 2 }); let h := h.modHead 1 (fun y => { y with scan := some ⟨0, some 1, 0, false, 2, 2, 0, 0, 0, 0⟩ }); h),
    ⟨8, 0, false, [0, 0, 0, 5, 0, 0, 0, 2, 0, 0, 0, 0, 0, 0, 0, 0]⟩, _, _, _, _, rfl, rfl, by decide +kernel, by decide +kernel, rfl,
    by decide +kernel, by decide +kernel, by decide +kernel, (by decide +kernel), by decide +kernel, rfl, by decide +kernel⟩,
   ⟨(W.on (fun h => let h := h.pset P.DS_H_ACTIVE 0 2; let h := h.pset P.DS_V_ACTIVE 0 2; let h := h.modHead 0 (fun y => { y with scan := some ⟨0, some 0, 0, false, 2, 2, 0, 0, 0, 0⟩, newest := some 2 }); let h := h.modHead 1 (fun y => { y with scan := some ⟨0, some 1, 0, false, 2, 2, 0, 0, 0, 0⟩ }); h)).hub,
    0, [], [], _, rfl, by decide +kernel⟩,
   ⟨(W.on (fun h => let h := h.pset P.DS_H_ACTIVE 0 2; let h := h.pset P.DS_V_ACTIVE 0 2; h)).hub, 0, 0, [], [], _, rfl, by decide +kernel⟩,
   ⟨(W.on id).hub, 0, _, ⟨0, 0, [], []⟩, [], _, rfl, rfl, by decide +kernel⟩,
   ⟨(W.on (fun h => let h := h.modHead 0 (fun y => { y with bufs := [⟨5, false, 2, 2, false, []⟩, ⟨5, false, 2, 2, false, []⟩, ⟨5, false, 2, 2, false, []⟩] }); h)).hub,
    0, _, ⟨0, 0, [], []⟩, ([0#8, 0#8, 0#8, 5#8, 0#8, 0#8, 0#8, 2#8] ++ W.z 14),
    _, rfl, rfl, by decide +kernel⟩,
   ⟨(W.on (fun h => let h := h.modHead 0 (fun y => { y with newest := none }); let h := h.modHead 0 (fun y => { y with bufs := [⟨5, false, 2, 2, false, []⟩, ⟨5, false, 2, 2, false, []⟩, ⟨5, false, 2, 2, false, []⟩] }); h)).hub,
    0, _, ⟨0, 1, [], []⟩, ([0#8, 2#8, 0#8, 5#8, 0#8, 1#8, 0#8, 2#8] ++ W.z 14),
    _, _, rfl, rfl, by decide +kernel, by decide +kernel, by decide +kernel, (by decide +kernel), by decide +kernel, rfl, by decide +kernel⟩,
   ⟨W.on (fun h => let h := h.tset 1 8 23655874569; let h := h.pset P.DS_H_ACTIVE 0 2; let h := h.pset P.DS_V_ACTIVE 0 2; h), 8, _,
    ⟨2, true, true, 3, 0, 9, 5, 0, false, 0, false, 8, ([16#8] ++ W.z 11 ++ [18#8, 0#8, 0#8, 128#8, 16#8, 0#8, 0#8, 2#8, 0#8, 2#8, 0#8, 0#8, 0#8, 2#8, 0#8, 2#8] ++ W.z 112)⟩,
    _, rfl, rfl, by decide +kernel⟩,
   ⟨W.on (fun h => let h := h.tset 1 8 23655874569; let h := h.pset P.DS_H_ACTIVE 0 2; let h := h.pset P.DS_V_ACTIVE 0 2; h), 8, _,
    ⟨2, true, true, 3, 0, 9, 5, 0, false, 0, false, 8, ([16#8] ++ W.z 139)⟩,
    _, rfl, rfl, by decide +kernel⟩,
   ⟨W.on (fun h => let h := h.tset 1 8 23655874569; let h := h.pset P.DS_H_ACTIVE 0 2; let h := h.pset P.DS_V_ACTIVE 0 2; h), 8, _,
    ⟨2, true, true, 3, 0, 9, 5, 0, false, 0, false, 8, [1#8]⟩, _, rfl, rfl, by decide +kernel, by left; decide +kernel⟩⟩

/-- States and operands that meet the hypotheses of `Obligations.HeadsScanAndAlarm`, clause by clause. -/
theorem test_witness_HeadsScanAndAlarm :
    (∃ (s : State) (d : Nat) (x y z : Hub), (z = s.hub.scanEnd d) ∧ (z.pget P.DS_ROUTE d = z.routeOf d) ∧ (x = z.dsCarry d) ∧ (x.routeOf d ≠ 0) ∧ ((x.head d).up = true) ∧
      ((x.head d).video = true) ∧ (x.dsOutput d = true) ∧ (y = x.modHead d (fun z => { z with half := x.wantHalf d }))) ∧
    (∃ (s : State) (d : Nat) (x z : Hub), (z = s.hub.scanEnd d) ∧
      (x = (if z.pget P.DS_ROUTE d = z.routeOf d then z else (z.modHead d (fun y => { y with scan := none })).dsRouted d).dsCarry d) ∧
      (x.routeOf d = 0 ∨ (x.head d).up = false)) ∧
    (∃ (h : Hub) (d : Nat), ((h.head d).up = true) ∧ ((h.head d).video = true) ∧ (h.dsFits d = false)) ∧
    (∃ (h : Hub) (d g old : Nat) (sc : DsScan), ((h.head d).scan = some sc) ∧ (g = h.signature d sc) ∧ ((h.head d).sig = some old)) ∧
    (∃ (h : Hub) (d : Nat), ((h.head (h.storeOf d)).newest = none)) ∧
    (∃ (h : Hub) (d : Nat), ((h.head d).frozen = false) ∧ h.pget P.DS_FREEZE_N d ≤ (h.head d).same) ∧
    (∃ (h : Hub) (d : Nat), ((h.head d).starved = true) ∧ ((h.head d).stale = 0) ∧ (bit (h.pget P.DS_ALARM_LATCH d) 1 = false)) ∧
    (∃ (s : State) (d line px : Nat) (sc : DsScan) (x : Hub), ((s.hub.head d).scan = some sc) ∧
      (x = (s.hub.modHead d (fun y => { y with under := y.under ++ [(line, px)], recent := s.hub.clk.up :: y.recent.filter (fun t => s.hub.clk.up < t + ms 1000) })).bump P.DS_UNDERRUN d) ∧
      ((x.head d).toldAt = 0)) ∧
    (∃ (s : State) (d line px : Nat) (sc : DsScan) (x : Hub), ((s.hub.head d).scan = some sc) ∧
      (x = (s.hub.modHead d (fun y => { y with under := y.under ++ [(line, px)], recent := s.hub.clk.up :: y.recent.filter (fun t => s.hub.clk.up < t + ms 1000) })).bump P.DS_UNDERRUN d) ∧
      ((x.head d).toldAt ≠ 0) ∧ s.hub.clk.up < (x.head d).toldAt - 1 + ms 1000) ∧
    (∃ (s : State) (d l r : Nat) (irq : Bool), (s.hub.dsOutput d = false)) ∧
    (∃ (s : State) (d l r : Nat) (irq : Bool), (s.hub.dsOutput d = true) ∧ (l = 0 ∨ r = 0)) ∧
    (∃ (s : State) (d r n : Nat) (irq : Bool) (x : Hub), (s.hub.dsOutput d = true) ∧ (n = min r (bits (s.hub.pget P.DS_LINK_MAX d) 0 4)) ∧ 4 ≤ s.hub.dsLanes d ∧ 1 ≤ n ∧
      (x = s.hub.modHead d (fun y => { y with up := true, lanes := 4, rate := n })) ∧ (x.dsFits d = true)) ∧
    (∃ (s : State) (mb d v : Nat) (x : Hub), d ≤ 1 ∧ v ≤ 5 ∧ (s.hub.conflictsOutside mb P.DS_ROUTE d = false) ∧ ((s.hub.overlay [⟨P.DS_ROUTE, d, v⟩] []).routeRefused d v = false) ∧
      (x = s.hub.stored P.DS_ROUTE d v) ∧ (x.pget P.DS_ROUTE d = v) ∧ (x.routeOf d = v ∨ (x.head d).scan.isSome = true)) ∧
    (∃ (s : State) (mb d v : Nat) (x : Hub), d ≤ 1 ∧ v ≤ 5 ∧ (s.hub.conflictsOutside mb P.DS_ROUTE d = false) ∧ ((s.hub.overlay [⟨P.DS_ROUTE, d, v⟩] []).routeRefused d v = false) ∧
      (x = s.hub.stored P.DS_ROUTE d v) ∧ (x.pget P.DS_ROUTE d = v) ∧ ((x.head d).scan = none) ∧ (x.routeOf d = 0) ∧ 2 ≤ v ∧
      ((x.head d).up = false)) ∧
    (∃ (s : State) (mb d v : Nat) (x : Hub), d ≤ 1 ∧ v ≤ 5 ∧ (s.hub.conflictsOutside mb P.DS_ROUTE d = false) ∧ ((s.hub.overlay [⟨P.DS_ROUTE, d, v⟩] []).routeRefused d v = false) ∧
      (x = s.hub.stored P.DS_ROUTE d v) ∧ (x.pget P.DS_ROUTE d = v) ∧ ((x.head d).scan = none) ∧ (v = 0) ∧ 2 ≤ x.routeOf d ∧
      ((x.head d).up = false)) ∧
    (∃ (s : State) (q : Req) (a : Hub) (d : Nat), (s.hub.asks q 0x0B01 = true) ∧ (a = s.hub.asked q 0x0B01) ∧ (q.payload.length = 4) ∧ (d = le q.payload 0 1) ∧ (le q.payload 1 3 = 0) ∧ d ≤ 1) ∧
    (∃ (s : State) (q : Req) (a : Hub) (d m : Nat), (s.hub.asks q 0x0B02 = true) ∧ (a = s.hub.asked q 0x0B02) ∧ (q.payload.length = 4) ∧ (d = le q.payload 0 1) ∧ (m = le q.payload 1 1) ∧
      (le q.payload 2 2 = 0) ∧ d ≤ 1 ∧ m ≤ 3 ∧ (((a.head d).frozen && bit m 0) = false) ∧ (((a.head d).starved && bit m 1) = false)) ∧
    (∃ (s : State) (q : Req) (a : Hub) (d : Nat), (s.hub.asks q 0x0B02 = true) ∧ (a = s.hub.asked q 0x0B02) ∧ (q.payload.length = 4) ∧ (d = le q.payload 0 1) ∧ (le q.payload 1 1 = 1) ∧
      (le q.payload 2 2 = 0) ∧ d ≤ 1 ∧ ((a.head d).frozen = true)) :=
  ⟨⟨W.on (fun h => let h := h.modHead 0 (fun y => { y with up := true }); let h := h.modHead 0 (fun y => { y with video := true }); let h := h.pset P.DS_ROUTE 0 1; let h := h.modHead 0 (fun y => { y with up := true, video := true, lanes := 4, rate := 4 }); let h := h.pset P.DS_PIXEL_CLOCK 0 148500; let h := h.pset P.DS_BPC 0 8; h),
    0, _, _, _, rfl, by decide +kernel, rfl, by decide +kernel, by decide +kernel, by decide +kernel, (by decide +kernel), rfl⟩,
   ⟨W.on (fun h => let h := h.pset P.DS_ROUTE 0 0; h), 0, _, _, rfl, rfl, by left; decide +kernel⟩,
   ⟨(W.on (fun h => let h := h.modHead 0 (fun y => { y with up := true }); let h := h.modHead 0 (fun y => { y with video := true }); h)).hub,
    0, by decide +kernel⟩,
   ⟨(W.on (fun h => let h := h.modHead 0 (fun y => { y with scan := some (⟨0, none, 0, false, 0, 0, 0, 0, 0, 0⟩) }); let h := h.modHead 0 (fun y => { y with sig := some 0 }); h)).hub,
    0, _, 0, ⟨0, none, 0, false, 0, 0, 0, 0, 0, 0⟩, by decide +kernel, rfl, by decide +kernel⟩,
   ⟨(W.on (fun h => let h := h.modHead 0 (fun y => { y with up := true, video := true }); let h := h.pset P.DS_PIXEL_CLOCK 0 148500; h)).hub,
    0, by decide +kernel⟩,
   ⟨(W.on (fun h => let h := h.modHead 0 (fun y => { y with frozen := false, same := 255 }); h)).hub, 0, by decide +kernel⟩,
   ⟨(W.on (fun h => let h := h.modHead 0 (fun y => { y with starved := true, stale := 0 }); h)).hub, 0, by decide +kernel⟩,
   ⟨W.on (fun h => let h := h.modHead 0 (fun y => { y with scan := some ⟨0, none, 0, false, 0, 0, 0, 0, 0, 0⟩ }); h), 0, 0, 0,
    ⟨0, none, 0, false, 0, 0, 0, 0, 0, 0⟩, _, by decide +kernel, rfl, by decide +kernel⟩,
   ⟨W.on (fun h => let h := h.modHead 0 (fun y => { y with scan := some ⟨0, none, 0, false, 0, 0, 0, 0, 0, 0⟩, toldAt := 1 }); h), 0, 0, 0,
    ⟨0, none, 0, false, 0, 0, 0, 0, 0, 0⟩, _, by decide +kernel, rfl, by decide +kernel⟩,
   ⟨W.on (fun h => let h := h.modHead 0 (fun y => { y with route := 0 }); h), 0, 0, 0, false, by decide +kernel⟩,
   ⟨W.on (fun h => let h := h.modHead 0 (fun y => { y with route := 1 }); h), 0, 0, 0, false, by decide +kernel, by left; decide +kernel⟩,
   ⟨W.on (fun h => let h := h.modHead 0 (fun y => { y with route := 1 }); let h := h.pset P.DS_PIXEL_CLOCK 0 148500; let h := h.pset P.DS_BPC 0 8; let h := h.pset P.DS_LINK_MAX 0 68; h),
    0, 4, _, false, _, by decide +kernel, rfl, by decide +kernel, by decide +kernel, rfl, by decide +kernel⟩,
   ⟨W.on (fun h => let h := h.modHead 0 (fun y => { y with route := 0 }); h), 0, 0, 0, _, by decide +kernel, by decide +kernel,
    by decide +kernel, (by decide +kernel), rfl, by decide +kernel, by left; decide +kernel⟩,
   ⟨W.on (fun h => let h := h.modHead 0 (fun y => { y with route := 0, up := false, scan := none }); h), 0, 0, 2, _, by decide +kernel,
    by decide +kernel, by decide +kernel, (by decide +kernel), rfl, by decide +kernel⟩,
   ⟨W.on (fun h => let h := h.modHead 0 (fun y => { y with route := 2, up := false, scan := none }); h), 0, 0, 0, _, by decide +kernel,
    by decide +kernel, by decide +kernel, (by decide +kernel), rfl, by decide +kernel⟩,
   ⟨W.on id, (W.q [0#8, 0#8, 0#8, 0#8] 3 0), _, _, by decide +kernel, rfl, by decide +kernel, rfl, by decide +kernel⟩,
   ⟨W.on id, (W.q [0#8, 0#8, 0#8, 0#8] 3 0), _, 0, _, by decide +kernel, rfl, by decide +kernel, by decide +kernel, rfl, by decide +kernel⟩,
   ⟨W.on (fun h => let h := h.modHead 0 (fun y => { y with frozen := true }); h), (W.q [0#8, 1#8, 0#8, 0#8] 3 0), _, _, by decide +kernel, rfl,
    by decide +kernel, rfl, by decide +kernel⟩⟩

/-- States and operands that meet the hypotheses of `Obligations.InputsSwitchOver`, clause by clause. -/
theorem test_witness_InputsSwitchOver :
    (∃ (s : State) (mv o : Nat) (x : Hub), (x = (s.hub.seeInput 0 mv).seeInput 1 o) ∧ (x.su.mainOk = false) ∧ (x.su.backOk = true) ∧ (x.su.inUse = 0)) ∧
    (∃ (s : State) (mv o : Nat) (x : Hub), (x = (s.hub.seeInput 1 mv).seeInput 0 o) ∧ (x.su.backOk = false) ∧ (x.su.mainOk = true) ∧ (x.su.inUse = 1)) ∧
    (∃ (h : Hub) (cause : Nat) (y x : Hub), (y = { h with free := h.free + 1 }) ∧
      (x = (((y.modSu (fun s => { s with busyTo := h.clk.up + 1 + Config.free h.free % us 2 })).modSu (fun s => { s with inUse := 1, backCut := false })).out (.power "SUPPLY" [1])).bump P.FU_SWITCHOVERS 1)) ∧
    (∃ (s : State) (mv o : Nat) (x : Hub), (s.hub.su.inUse = 0) ∧ (x = (s.hub.seeInput 0 mv).seeInput 1 o) ∧ (x.su.mainOk = false) ∧ (x.su.backOk = false) ∧ (x.su.inUse = 0)) ∧
    (∃ (s : State), (s.hub.su.inUse = 1) ∧ (s.hub.su.mainOk = true)) ∧
    (∃ (s : State), (s.hub.su.inUse = 0 ∨ s.hub.su.mainOk = false)) :=
  ⟨⟨W.on (fun h => let h : Hub := { h with su := { h.su with mainOk := false } }; let h : Hub := { h with su := { h.su with backOk := true } }; let h : Hub := { h with su := { h.su with inUse := 0 } }; h),
    0, 12000, _, rfl, by decide +kernel⟩,
   ⟨W.on (fun h => let h : Hub := { h with su := { h.su with inUse := 1 } }; h), 0, 12000, _, rfl, by decide +kernel⟩,
   ⟨(W.on id).hub, 0, _, _, rfl, rfl⟩,
   ⟨W.on (fun h => let h : Hub := { h with su := { h.su with inUse := 0 } }; let h : Hub := { h with su := { h.su with mainOk := false } }; let h : Hub := { h with su := { h.su with backOk := false } }; let h : Hub := { h with su := { h.su with inUse := 0 } }; h),
    0, 0, _, by decide +kernel, rfl, by decide +kernel⟩,
   ⟨W.on (fun h => let h : Hub := { h with su := { h.su with inUse := 1 } }; let h : Hub := { h with su := { h.su with mainOk := true } }; h),
    by decide +kernel⟩,
   ⟨W.on (fun h => let h : Hub := { h with su := { h.su with inUse := 0 } }; h), by left; decide +kernel⟩⟩

/-- States and operands that meet the hypotheses of `Obligations.FuseChannelsTripAndRecover`, clause by clause. -/
theorem test_witness_FuseChannelsTripAndRecover :
    (∃ (s : State) (c mA : Nat) (x : Hub), (c = 0) ∧ s.hub.pget P.FU_FAST_MULT c * s.hub.baseOf c < 16 * mA ∧ ((s.hub.fuse c).state.gate = true) ∧
      (x = (s.hub.fuseAmps c mA).modFuse c (fun f => { f with limit := none }))) ∧
    (∃ (s : State) (c mA : Nat) (x : Hub), (c ≠ 0) ∧ s.hub.pget P.FU_FAST_MULT c * s.hub.baseOf c < 16 * mA ∧ ((s.hub.fuse c).state.gate = true) ∧
      (x = (s.hub.fuseAmps c mA).modFuse c (fun f => { f with limit := none })) ∧ ((x.fuse c).state.gate = true)) ∧
    (∃ (s : State) (c mA : Nat),
      (16 * mA ≤ s.hub.pget P.FU_FAST_MULT c * s.hub.baseOf c ∨ (s.hub.fuse c).state.gate = false)) ∧
    (∃ (s : State) (c t : Nat) (x : Hub), (c = 0) ∧ (s.hub.soaAt c = some t) ∧ (x = s.hub.until t)) ∧
    (∃ (s : State) (c t : Nat) (x : Hub), (c ≠ 0) ∧ (s.hub.soaAt c = some t) ∧ (x = s.hub.until t) ∧ ((x.fuse c).state.gate = true)) ∧
    (∃ (s : State) (c : Nat), (s.hub.soaAt c = none)) ∧
    (∃ (s : State) (c k mA t : Nat) (z x : Hub), (c = 0) ∧ (z = s.hub.fuseAmps c mA) ∧ (z.curveAt c k = some t) ∧ (x = z.until t)) ∧
    (∃ (s : State) (c k mA t : Nat) (z x : Hub), (c ≠ 0) ∧ (z = s.hub.fuseAmps c mA) ∧ (z.curveAt c k = some t) ∧ (x = z.until t) ∧ ((x.fuse c).state.gate = true)) ∧
    (∃ (s : State) (c k mA : Nat) (z : Hub), (z = s.hub.fuseAmps c mA) ∧ (z.curveAt c k = none)) ∧
    (∃ (h : Hub) (c k : Nat), k < 8 ∧ ((h.curvePoint c k).1 ≠ 0) ∧ ((h.fuse c).state = .on ∨ (h.fuse c).state = .limit) ∧
      (h.curvePoint c k).1 * h.baseOf c ≤ h.fuseCurrent c) ∧
    (∃ (h : Hub) (c : Nat), (h.soaBudget c ≠ 0) ∧ ((h.fuse c).limit = none)) ∧
    (∃ (h : Hub) (c : Nat), (h.soaBudget c ≠ 0) ∧ ((h.fuse c).limit.isSome = true)) ∧
    (∃ (s : State) (t : Nat), (s.hub.faultAt 0 = some t) ∧ (((s.hub.until t).fuse 0).state.gate = true)) ∧
    (∃ (h : Hub) (c cause point n mA wait : Nat) (latched : Bool) (y z : Hub), ((h.fuse c).state.gate = true) ∧ (n = (h.fuse c).n + 1) ∧ (latched = decide (h.pget P.FU_RETRIES c < n)) ∧
      (wait = (if latched then 0 else 100 * 2 ^ (n - 1))) ∧ (mA = h.fuseCurrent c / 16) ∧
      (y = h.fuseGateOff c (if latched then .latched else .backoff)) ∧
      (z = (y.modFuse c (fun f => { f with n := n, endAt := y.clk.up + ms wait, last := y.clk.ns / 1000 % 2 ^ 48 * 65536 + min 255 (mA / 100) * 256 + point * 16 + cause })).bump P.FU_TRIPS c) ∧
      (cause ≠ 0) ∧ (latched = false)) ∧
    (∃ (s : State) (c vin vout : Nat) (x : Hub), (x = s.hub.fuseOutput c vin vout) ∧ (c = 0 ∨ (s.hub.fuse c).state ≠ .ramp ∨ (x.fuse c).state ≠ .on)) ∧
    (∃ (s : State) (c vin vout : Nat) (x : Hub), (x = s.hub.fuseOutput c vin vout) ∧ (c ≠ 0) ∧ ((s.hub.fuse c).state = .ramp) ∧ ((x.fuse c).state = .on)) ∧
    (∃ (f : Fuse) (now : Nat), (f.limit = none) ∧ (f.state = .on) ∧ 9 * f.vin ≤ 10 * f.vout) ∧
    (∃ (f : Fuse) (now : Nat), (f.limit = none) ∧ (f.state = .on) ∧ 10 * f.vout < 9 * f.vin) ∧
    (∃ (h : Hub) (c vin vout : Nat) (y : Hub), (y = h.fuseVolts c vin vout) ∧ ((nth y.fu c Fuse.reset).state = .ramp) ∧ ((nth y.fu c Fuse.reset).limit = none) ∧ 9 * vin ≤ 10 * vout ∧
      c < y.fu.length ∧ ((nth y.fu c Fuse.reset).vin = vin) ∧ ((nth y.fu c Fuse.reset).vout = vout)) ∧
    (∃ (s : State) (c vin vout mA : Nat) (x : Hub), (x = (s.hub.fuseVolts c vin vout).fuseAmps c mA) ∧ ((x.fuse c).state = .on) ∧ ((x.fuse c).limit = none) ∧ x.fuseLimit c ≤ 16 * mA) ∧
    (∃ (s : State) (c vin vout mA : Nat) (x : Hub), (x = (s.hub.fuseVolts c vin vout).fuseAmps c mA) ∧ ((x.fuse c).limit.isSome = true ∨ 16 * mA < x.fuseLimit c)) ∧
    (∃ (s : State) (c t vout mA : Nat) (x : Hub), (x = s.hub.fuseVolts c (s.hub.fuse c).vin vout) ∧ ((x.fuse c).limit = some t) ∧ 16 * mA < x.fuseLimit c) ∧
    (∃ (s : State) (c : Nat), ((s.hub.fuse c).limit = none)) ∧
    (∃ (s : State) (c t : Nat) (x : Hub), ((s.hub.fuse c).goodAt = some t) ∧ ((s.hub.fuse c).state = .on) ∧ ((s.hub.fuse c).pg = false) ∧ (x = s.hub.until (t + ms 1))) ∧
    (∃ (s : State) (c t : Nat), ((s.hub.fuse c).limit = some t)) ∧
    (∃ (s : State) (c : Nat), ((s.hub.fuse c).state = .on) ∧ ((s.hub.fuse c).pg = true)) ∧
    (∃ (s : State), ((s.hub.fuse 0).state = .backoff)) ∧
    (∃ (s : State) (c : Nat), (c ≠ 0) ∧ ((s.hub.fuse c).state = .backoff)) ∧
    (∃ (s : State) (mv : Nat) (x : Hub), (x = s.hub.fuseVolts 0 mv (s.hub.fuse 0).vout) ∧ (x.vinGood = false) ∧ ((x.fuse 0).state.gate = true)) ∧
    (∃ (s : State) (mv : Nat) (x : Hub), (x = s.hub.fuseVolts 0 mv (s.hub.fuse 0).vout) ∧ (x.vinGood = true) ∧ ((x.fuse 0).state = .noInput) ∧ (x.pget P.FU_ENABLE 0 = 1)) ∧
    (∃ (s : State) (mb : Nat) (x : Hub), (s.hub.conflictsOutside mb P.FU_ENABLE 0 = false) ∧ (x = s.hub.stored P.FU_ENABLE 0 1) ∧ ((x.fuse 0).state = .off) ∧
      (x.pget P.FU_ENABLE 0 = 1) ∧ (x.vinGood = true)) ∧
    (∃ (s : State) (mb : Nat) (x : Hub), (s.hub.conflictsOutside mb P.FU_ENABLE 0 = false) ∧ (x = s.hub.stored P.FU_ENABLE 0 0) ∧ ((x.fuse 0).state ≠ .off) ∧
      ((x.fuse 0).state ≠ .latched)) ∧
    (∃ (s : State) (q : Req) (a : Hub) (c : Nat), (s.hub.asks q 0x0805 = true) ∧ (a = s.hub.asked q 0x0805) ∧ (q.payload.length = 4) ∧ (c = le q.payload 0 1) ∧ (le q.payload 1 3 = 0) ∧
      1 ≤ c ∧ c ≤ 4 ∧ ((a.fuse c).state = .latched)) ∧
    (∃ (s : State) (q : Req) (a : Hub) (c : Nat), (s.hub.asks q 0x0805 = true) ∧ (a = s.hub.asked q 0x0805) ∧ (q.payload.length = 4) ∧ (c = le q.payload 0 1) ∧ (le q.payload 1 3 = 0) ∧
      c ≤ 4 ∧ ((a.fuse c).state ≠ .latched)) ∧
    (∃ (s : State) (q : Req) (a : Hub) (c : Nat), (s.hub.asks q 0x0805 = true) ∧ (a = s.hub.asked q 0x0805) ∧ (q.payload.length = 4) ∧ (c = le q.payload 0 1) ∧ (le q.payload 1 3 = 0) ∧ 4 < c) :=
  ⟨⟨W.on (fun h => let h := h.modFuse 0 (fun y => { y with state := .on }); h), 0, 60000, _, by decide +kernel, by decide +kernel,
    by decide +kernel, rfl⟩,
   ⟨W.on (fun h => let h := h.modFuse 1 (fun y => { y with state := .on }); h), 1, 60000, _, by decide +kernel, by decide +kernel,
    by decide +kernel, rfl, by decide +kernel⟩,
   ⟨W.on id, 0, 0, by decide +kernel⟩,
   ⟨W.on (fun h => let h := h.pset P.FU_SOA_BUDGET 0 5; let h := h.modFuse 0 (fun y => { y with state := .on, limit := some 0, vin := 20000, vout := 0 }); h),
    0, _, _, by decide +kernel, (Option.some_get (by decide +kernel : Option.isSome _ = true)).symm, rfl⟩,
   ⟨W.on (fun h => let h := h.pset P.FU_SOA_BUDGET 1 5; let h := h.modFuse 1 (fun y => { y with state := .on, limit := some 0, vin := 20000, vout := 0 }); h),
    1, _, _, by decide +kernel, (Option.some_get (by decide +kernel : Option.isSome _ = true)).symm, rfl, by decide +kernel⟩,
   ⟨W.on (fun h => let h := h.modFuse 0 (fun y => { y with state := .on }); h), 0, by decide +kernel⟩,
   ⟨W.on (fun h => let h := h.modFuse 0 (fun y => { y with state := .on }); let h := h.pset P.FU_CURVE 0 1099511628776; h), 0, 0, 60000, _, _,
    _, by decide +kernel, rfl, (Option.some_get (by decide +kernel : Option.isSome _ = true)).symm, rfl⟩,
   ⟨W.on (fun h => let h := h.modFuse 1 (fun y => { y with state := .on }); let h := h.pset P.FU_CURVE 8 1099511628776; h), 1, 0, 60000, _, _,
    _, by decide +kernel, rfl, (Option.some_get (by decide +kernel : Option.isSome _ = true)).symm, rfl, by decide +kernel⟩,
   ⟨W.on (fun h => let h := h.modFuse 1 (fun y => { y with state := .on }); h), 1, 8, 0, _, rfl, by decide +kernel⟩,
   ⟨(W.on (fun h => let h := h.modFuse 0 (fun y => { y with state := .on, limit := some 0 }); let h := h.pset P.FU_CURVE 0 1099511628776; h)).hub,
    0, 7, by decide +kernel⟩,
   ⟨(W.on (fun h => let h := h.modFuse 0 (fun y => { y with limit := none }); h)).hub, 0, by decide +kernel⟩,
   ⟨(W.on (fun h => let h := h.modFuse 0 (fun y => { y with state := .on, limit := some 0 }); let h := h.pset P.FU_SOA_BUDGET 0 5; h)).hub, 0,
    by decide +kernel⟩,
   ⟨W.on (fun h => let h := h.modFuse 0 (fun y => { y with state := .limit, limit := some 0 }); h), _, rfl, by decide +kernel⟩,
   ⟨(W.on (fun h => let h := h.modFuse 0 (fun y => { y with state := .on }); h)).hub, 0, 1, 0, _, _, _, _, _, _, by decide +kernel, rfl, rfl,
    rfl, rfl, rfl, rfl, by decide +kernel⟩,
   ⟨W.on id, 0, 0, 0, _, rfl, by decide +kernel⟩,
   ⟨W.on (fun h => let h := h.modFuse 1 (fun y => { y with state := .ramp }); h), 1, 12000, 12000, _, rfl, by decide +kernel⟩,
   ⟨{ Fuse.reset with state := .on, vin := 12000, vout := 12000, limit := none }, 0, by decide +kernel⟩,
   ⟨{ Fuse.reset with state := .on, vin := 12000, vout := 0, limit := none }, 0, by decide +kernel⟩,
   ⟨(W.on (fun h => let h := h.modFuse 0 (fun y => { y with state := .ramp, limit := none }); h)).hub, 0, 12000, 12000, _, rfl,
    by decide +kernel⟩,
   ⟨W.on (fun h => let h := h.modFuse 0 (fun y => { y with state := .on, limit := none }); h), 0, 12000, 0, 60000, _, rfl, by decide +kernel⟩,
   ⟨W.on id, 0, 0, 0, 0, _, rfl, by decide +kernel⟩,
   ⟨W.on (fun h => let h := h.modFuse 0 (fun y => { y with limit := some 0 }); h), 0, 0, 0, 0, _, rfl, by decide +kernel⟩,
   ⟨W.on (fun h => let h := h.modFuse 0 (fun y => { y with limit := none }); h), 0, by decide +kernel⟩,
   ⟨W.on (fun h => let h := h.modFuse 0 (fun y => { y with goodAt := some 0 }); let h := h.modFuse 0 (fun y => { y with state := .on }); let h := h.modFuse 0 (fun y => { y with pg := false }); h),
    0, 0, _, by decide +kernel, by decide +kernel, by decide +kernel, rfl⟩,
   ⟨W.on (fun h => let h := h.modFuse 0 (fun y => { y with limit := some 0 }); h), 0, 0, by decide +kernel⟩,
   ⟨W.on (fun h => let h := h.modFuse 0 (fun y => { y with state := .on }); let h := h.modFuse 0 (fun y => { y with pg := true }); h), 0,
    by decide +kernel⟩,
   ⟨W.on (fun h => let h := h.modFuse 0 (fun y => { y with state := .backoff }); h), by decide +kernel⟩,
   ⟨W.on (fun h => let h := h.modFuse 1 (fun y => { y with state := .backoff }); h), 1, by decide +kernel⟩,
   ⟨W.on (fun h => let h := h.modFuse 0 (fun y => { y with state := .on }); h), 0, _, rfl, by decide +kernel⟩,
   ⟨W.on (fun h => let h := h.modFuse 0 (fun y => { y with state := .noInput }); let h := h.pset P.FU_ENABLE 0 1; h), 65535, _, rfl,
    by decide +kernel⟩,
   ⟨W.on (fun h => let h := h.modFuse 0 (fun y => { y with state := .off }); let h := h.pset P.FU_ENABLE 0 1; let h := h.modFuse 0 (fun y => { y with vin := 65535 }); h),
    0, _, by decide +kernel, rfl, by decide +kernel⟩,
   ⟨W.on (fun h => let h := h.modFuse 0 (fun y => { y with state := .on }); h), 0, _, by decide +kernel, rfl, by decide +kernel⟩,
   ⟨W.on (fun h => let h := h.modFuse 1 (fun y => { y with state := .latched }); h), (W.q [1#8, 0#8, 0#8, 0#8] 3 0), _, _, by decide +kernel,
    rfl, by decide +kernel, rfl, by decide +kernel⟩,
   ⟨W.on id, (W.q [0#8, 0#8, 0#8, 0#8] 3 0), _, _, by decide +kernel, rfl, by decide +kernel, rfl, by decide +kernel⟩,
   ⟨W.on id, (W.q [5#8, 0#8, 0#8, 0#8] 3 0), _, _, by decide +kernel, rfl, by decide +kernel, rfl, by decide +kernel⟩⟩

/-- States and operands that meet the hypotheses of `Obligations.IslandsResetAndCross`, clause by clause. -/
theorem test_witness_IslandsResetAndCross :
    (∃ (h : Hub) (a b c d : Bool), (h.de.modes = [a, b, c, d])) ∧
    (∃ (h : Hub) (x i items n : Nat) (r : Nat × Hub) (z : Hub), ((h.seam x).lost ≠ some i) ∧ (n = (h.seam x).items.length + min items (2 * seamDepth x - (h.seam x).items.length)) ∧ (r = h.lastCount x) ∧
      (z = ((r.2.modSeam x (fun _ => { Crossing.reset with lost := some i })).bump P.PW_SEAM_RESETS x).bumpBy P.PW_SEAM_DISCARD x n)) ∧
    (∃ (h : Hub) (x i items : Nat), ((h.seam x).lost = some i)) ∧
    (∃ (h : Hub) (x : Nat), x < 3) ∧
    (∃ (s : State) (x i items : Nat), ((crossingsOf i).contains x = true) ∧ (s.hub.works i = true) ∧ (i ≠ 11)) ∧
    (∃ (s : State) (x i items : Nat), ((crossingsOf i).contains x = true) ∧ (s.hub.works i = false) ∧ (s.hub.works (otherSide x i) = true)) ∧
    (∃ (s : State) (x i : Nat),
      (i = (if (s.hub.island (crossing x).1).inReset then (crossing x).1 else (crossing x).2)) ∧ ((s.hub.island i).inReset = true) ∧
      ((s.hub.island i).skew = false)) ∧
    (∃ (s : State) (x i : Nat),
      (i = (if (s.hub.island (crossing x).1).inReset then (crossing x).1 else (crossing x).2)) ∧
      ((s.hub.island i).inReset = false ∨ (s.hub.island i).skew = true)) ∧
    (∃ (s : State) (x i a b : Nat) (y : Hub), (y = s.hub.skewSeen x a b) ∧ (i = (if skewOf (crossing x).2 b ≤ skewOf (crossing x).1 a then (crossing x).1 else (crossing x).2)) ∧
      200 < (a - b) + (b - a) ∧ (i ≠ 11) ∧ ((y.island i).skew = false)) ∧
    (∃ (s : State) (x a b : Nat), (a - b) + (b - a) ≤ 200) ∧
    (∃ (s : State) (x i a b : Nat) (y : Hub), (y = s.hub.skewSeen x a b) ∧ (i = (if (y.island (crossing x).1).skew then (crossing x).1 else (crossing x).2)) ∧ (a - b) + (b - a) ≤ 150 ∧
      ((y.island i).skew = true)) ∧
    (∃ (s : State) (i : Nat) (y : Hub), (s.hub.clockWanted i = true) ∧ (y = Hub.until { s.hub with free := s.hub.free + 1 } (s.hub.clk.up + Config.free s.hub.free % 1001))) ∧
    (∃ (s : State) (i : Nat), (s.hub.clockWanted i = false)) ∧
    (∃ (s : State) (ppm : Int), (s.hub.pget P.PW_AON_TRIM_MODE 0 = 1)) ∧
    (∃ (s : State) (p : Bool) (ppm : Int), (p = false ∨ s.hub.pget P.PW_AON_TRIM_MODE 0 ≠ 1)) ∧
    (∃ (s : State) (mb i : Nat), 5 ≤ i ∧ i ≤ 9 ∧ (s.hub.conflictsOutside mb P.PW_ISLAND_RESET 0 = false)) :=
  ⟨⟨(W.on (fun h => let h : Hub := { h with de := { h.de with modes := [false, false, false, false] } }; h)).hub, false, false, false, false,
    by decide +kernel⟩,
   ⟨(W.on id).hub, 0, 0, 0, _, _, _, by decide +kernel, rfl, rfl, rfl⟩,
   ⟨(W.on (fun h => let h := h.modSeam 0 (fun y => { y with lost := some 0 }); h)).hub, 0, 0, 0, by decide +kernel⟩,
   ⟨(W.on id).hub, 2, by decide +kernel⟩,
   ⟨W.on id, 0, 0, 0, by decide +kernel⟩,
   ⟨W.on (fun h => let h := h.modIsland 0 (fun y => { y with inReset := true }); h), 0, 0, 0, by decide +kernel⟩,
   ⟨W.on (fun h => let h := h.modIsland 0 (fun y => { y with inReset := true }); h), 0, _, rfl, by decide +kernel⟩,
   ⟨W.on id, 0, _, rfl, by left; decide +kernel⟩,
   ⟨W.on id, 0, _, 201, 0, _, rfl, rfl, by decide +kernel⟩,
   ⟨W.on id, 0, 0, 0, by decide +kernel⟩,
   ⟨W.on (fun h => let h := h.modIsland 0 (fun y => { y with skew := true }); h), 0, _, 0, 0, _, rfl, rfl, by decide +kernel⟩,
   ⟨W.on (fun h => let h := h.modIsland 10 (fun y => { y with clock := false }); let h : Hub := { h with ctl := { h.ctl with regs := { h.ctl.regs with late := 1 } } }; h),
    10, _, by decide +kernel, rfl⟩,
   ⟨W.on id, 0, by decide +kernel⟩,
   ⟨W.on (fun h => let h := h.pset P.PW_AON_TRIM_MODE 0 1; h), 0, by decide +kernel⟩,
   ⟨W.on id, false, 0, by left; decide +kernel⟩,
   ⟨W.on id, 0, 9, by decide +kernel⟩⟩

/-- States and operands that meet the hypotheses of `Obligations.PowerStatesAreEnteredAndLeft`, clause by clause. -/
theorem test_witness_PowerStatesAreEnteredAndLeft :
    (∃ (s : State) (q : Req) (a : Hub), (s.hub.asks (force q 0 1) 0x0801 = true) ∧ (a = s.hub.asked (force q 0 1) 0x0801) ∧ (q.payload.length = 4) ∧ le q.payload 1 1 ≤ 1 ∧
      (le q.payload 2 2 = 0) ∧ (a.pw.state = .run) ∧ a.ctl.ops.length < 16 ∧ (a.ctl.txns = [])) ∧
    (∃ (s : State) (q : Req) (a : Hub), (s.hub.asks (force q 0 1) 0x0801 = true) ∧ (a = s.hub.asked (force q 0 1) 0x0801) ∧ (q.payload.length = 4) ∧ le q.payload 1 1 ≤ 1 ∧
      (le q.payload 2 2 = 0) ∧ (a.pw.state = .doze) ∧ (a.ctl.txns = [])) ∧
    (∃ (s : State) (q : Req) (a : Hub), (s.hub.asks (force q 0 2) 0x0801 = true) ∧ (a = s.hub.asked (force q 0 2) 0x0801) ∧ (q.payload.length = 4) ∧ le q.payload 1 1 ≤ 1 ∧
      (le q.payload 2 2 = 0) ∧ (a.pw.state = .run) ∧ (a.isTail = true) ∧ (a.pw.armed = none) ∧ a.ctl.ops.length < 16 ∧ (a.ctl.txns = [])) ∧
    (∃ (s : State) (q : Req) (a : Hub), (s.hub.asks (force q 0 2) 0x0801 = true) ∧ (a = s.hub.asked (force q 0 2) 0x0801) ∧ (q.payload.length = 4) ∧ le q.payload 1 1 ≤ 1 ∧
      (le q.payload 2 2 = 0) ∧ (a.pw.state = .run) ∧ (a.isTail = false) ∧ (le q.payload 1 1 = 0) ∧ (a.ctl.txns = [])) ∧
    (∃ (s : State) (q : Req) (a : Hub), (s.hub.asks (force q 0 2) 0x0801 = true) ∧ (a = s.hub.asked (force q 0 2) 0x0801) ∧ (q.payload.length = 4) ∧ le q.payload 1 1 ≤ 1 ∧
      (le q.payload 2 2 = 0) ∧ (a.pw.state = .run) ∧ (a.isTail = false) ∧ (le q.payload 1 1 = 1) ∧ (a.pw.armed = none) ∧
      a.ctl.ops.length < 16 ∧ (a.ctl.txns = [])) ∧
    (∃ (s : State) (q : Req) (a : Hub), (s.hub.asks (force q 0 0) 0x0801 = true) ∧ (a = s.hub.asked (force q 0 0) 0x0801) ∧ (q.payload.length = 4) ∧ le q.payload 1 1 ≤ 1 ∧
      (le q.payload 2 2 = 0) ∧ (a.pw.state = .run) ∧ (a.pw.armed = none)) ∧
    (∃ (s : State) (q : Req) (a : Hub), (s.hub.asks (force q 0 0) 0x0801 = true) ∧ (a = s.hub.asked (force q 0 0) 0x0801) ∧ (q.payload.length = 4) ∧ le q.payload 1 1 ≤ 1 ∧
      (le q.payload 2 2 = 0) ∧ (a.pw.state = .doze) ∧ (a.pw.armed = none)) ∧
    (∃ (s : State) (q : Req) (a : Hub), (s.hub.asks (force q 0 1) 0x0801 = true) ∧ (a = s.hub.asked (force q 0 1) 0x0801) ∧ (q.payload.length = 4) ∧ le q.payload 1 1 ≤ 1 ∧
      (le q.payload 2 2 = 0) ∧ (a.pw.state = .run ∨ a.pw.state = .doze) ∧ (a.ctl.txns ≠ [])) ∧
    (∃ (s : State) (q : Req) (a : Hub), (s.hub.asks (force q 0 1) 0x0801 = true) ∧ (a = s.hub.asked (force q 0 1) 0x0801) ∧ (q.payload.length = 4) ∧ le q.payload 1 1 ≤ 1 ∧
      (le q.payload 2 2 = 0) ∧ (a.pw.state = .enterDoze ∨ a.pw.state = .enterRest) ∧ (a.ctl.txns = [])) ∧
    (∃ (s : State), (s.hub.pw.state = .enterDoze)) ∧
    (∃ (s : State), (s.hub.pw.state = .enterRest)) ∧
    (∃ (s : State) (t : Nat), (s.hub.pw.armed = some t) ∧ (s.hub.isTail = true) ∧ (s.hub.ctl.txns = []) ∧ (s.hub.pw.state = .run)) ∧
    (∃ (s : State) (c : Nat), (c ≠ 7) ∧ (s.hub.pw.state = .doze) ∧ (s.hub.wakeCounts c false = true)) ∧
    (∃ (s : State) (c : Nat), (c ≠ 7) ∧ (s.hub.pw.state = .rest) ∧ (s.hub.wakeCounts c true = true)) ∧
    (∃ (s : State) (c : Nat), (c ≠ 7) ∧ (s.hub.pw.state = .enterDoze) ∧ (s.hub.wakeCounts c false = true)) ∧
    (∃ (s : State) (c : Nat), (c ≠ 7) ∧ (s.hub.pw.state = .enterDoze) ∧ (s.hub.wakeCounts c false = true) ∧ 2 ≤ s.hub.stageDue) ∧
    (∃ (s : State) (c : Nat), (c ≠ 7) ∧ (s.hub.pw.state = .enterRest) ∧ (s.hub.wakeCounts c true = true)) ∧
    (∃ (s : State) (c : Nat), (c ≠ 7) ∧ (s.hub.pw.state = .rest) ∧ (s.hub.wakeCounts c true = false)) ∧
    (∃ (s : State), (s.hub.pw.timer = 0)) ∧
    (∃ (s : State), (s.hub.pw.wakeOut = true) ∧ ((s.hub.until (s.hub.pw.outAt + us s.hub.pw.width)).pw.wakeOut = true)) ∧
    (∃ (s : State) (q : Req) (a : Hub), (s.hub.asks q 0x0802 = true) ∧ (a = s.hub.asked q 0x0802) ∧ (q.payload = [])) :=
  ⟨⟨W.on (fun h => let h : Hub := { h with pw := { h.pw with state := .run } }; let h : Hub := { h with ctl := { h.ctl with txns := [] } }; h),
    (W.q [0#8, 0#8, 0#8, 0#8] 3 0), _, by decide +kernel, rfl, by decide +kernel⟩,
   ⟨W.on (fun h => let h : Hub := { h with pw := { h.pw with state := .doze } }; let h : Hub := { h with ctl := { h.ctl with txns := [] } }; h),
    (W.q [0#8, 0#8, 0#8, 0#8] 3 0), _, by decide +kernel, rfl, by decide +kernel⟩,
   ⟨W.on (fun h => let h : Hub := { h with pw := { h.pw with state := .run } }; let h : Hub := { h with rl := { h.rl with tail := true } }; let h : Hub := { h with pw := { h.pw with armed := none } }; let h : Hub := { h with ctl := { h.ctl with txns := [] } }; h),
    (W.q [0#8, 0#8, 0#8, 0#8] 3 0), _, by decide +kernel, rfl, by decide +kernel⟩,
   ⟨W.on (fun h => let h : Hub := { h with pw := { h.pw with state := .run } }; let h : Hub := { h with ctl := { h.ctl with txns := [] } }; h),
    (W.q [0#8, 0#8, 0#8, 0#8] 3 0), _, by decide +kernel, rfl, by decide +kernel⟩,
   ⟨W.on (fun h => let h : Hub := { h with pw := { h.pw with state := .run } }; let h : Hub := { h with pw := { h.pw with armed := none } }; let h : Hub := { h with ctl := { h.ctl with txns := [] } }; h),
    (W.q [0#8, 1#8, 0#8, 0#8] 3 0), _, by decide +kernel, rfl, by decide +kernel⟩,
   ⟨W.on (fun h => let h : Hub := { h with pw := { h.pw with state := .run } }; let h : Hub := { h with pw := { h.pw with armed := none } }; h),
    (W.q [0#8, 0#8, 0#8, 0#8] 3 0), _, by decide +kernel, rfl, by decide +kernel⟩,
   ⟨W.on (fun h => let h : Hub := { h with pw := { h.pw with state := .doze } }; let h : Hub := { h with pw := { h.pw with armed := none } }; h),
    (W.q [0#8, 0#8, 0#8, 0#8] 3 0), _, by decide +kernel, rfl, by decide +kernel⟩,
   ⟨W.on (fun h => let h : Hub := { h with ctl := { h.ctl with txns := [⟨1, 3, none, [], [], [], 0⟩] } }; h), (W.q [0#8, 0#8, 0#8, 0#8] 3 0),
    _, by decide +kernel, rfl, by decide +kernel⟩,
   ⟨W.on (fun h => let h : Hub := { h with ctl := { h.ctl with txns := [] } }; let h : Hub := { h with pw := { h.pw with state := PState.enterDoze } }; h),
    (W.q [0#8, 0#8, 0#8, 0#8] 3 0), _, by decide +kernel, rfl, by decide +kernel, by decide +kernel, by decide +kernel,
    by left; decide +kernel, by decide +kernel⟩,
   ⟨W.on (fun h => let h : Hub := { h with pw := { h.pw with state := .enterDoze } }; h), by decide +kernel⟩,
   ⟨W.on (fun h => let h : Hub := { h with pw := { h.pw with state := .enterRest } }; h), by decide +kernel⟩,
   ⟨W.on (fun h => let h : Hub := { h with pw := { h.pw with armed := some 0 } }; let h : Hub := { h with rl := { h.rl with tail := true } }; let h : Hub := { h with ctl := { h.ctl with txns := [] } }; let h : Hub := { h with pw := { h.pw with state := .run } }; h),
    0, by decide +kernel⟩,
   ⟨W.on (fun h => let h : Hub := { h with pw := { h.pw with state := .doze } }; h), 8, by decide +kernel⟩,
   ⟨W.on (fun h => let h : Hub := { h with pw := { h.pw with state := .rest } }; h), 8, by decide +kernel⟩,
   ⟨W.on (fun h => let h : Hub := { h with pw := { h.pw with state := PState.enterDoze } }; h), 8, by decide +kernel⟩,
   ⟨W.on (fun h => let h : Hub := { h with pw := { h.pw with state := PState.enterDoze } }; let h : Hub := { h with clk := { h.clk with up := 10 ^ 9 } }; h),
    8, by decide +kernel⟩,
   ⟨W.on (fun h => let h : Hub := { h with pw := { h.pw with state := .enterRest } }; h), 8, by decide +kernel⟩,
   ⟨W.on (fun h => let h : Hub := { h with pw := { h.pw with state := .rest } }; h), 0, by decide +kernel⟩,
   ⟨W.on (fun h => let h : Hub := { h with pw := { h.pw with timer := 0 } }; h), by decide +kernel⟩,
   ⟨W.on (fun h => let h : Hub := { h with pw := { h.pw with wakeOut := true } }; h), by decide +kernel⟩,
   ⟨W.on id, (W.q [] 3 0), _, by decide +kernel, rfl, by decide +kernel⟩⟩

/-- States and operands that meet the hypotheses of `Obligations.TheLineFoldsAndUnfolds`, clause by clause. -/
theorem test_witness_TheLineFoldsAndUnfolds :
    (∃ (s : State) (q : Req) (a : Hub), (s.hub.asks q 0x0803 = true) ∧ (a = s.hub.asked q 0x0803) ∧ (a.isHead = false)) ∧
    (∃ (s : State) (q : Req) (a : Hub) (first : Nat), (s.hub.asks q 0x0803 = true) ∧ (a = s.hub.asked q 0x0803) ∧ (a.isHead = true) ∧ (q.payload.length = 4) ∧ (first = le q.payload 0 2) ∧
      (le q.payload 2 2 = 0) ∧ 1 ≤ first ∧ first ≤ 4094 ∧ (a.pw.fold = none) ∧ a.ctl.ops.length < 16) ∧
    (∃ (s : State) (q : Req) (a : Hub), (s.hub.asks q 0x0803 = true) ∧ (a = s.hub.asked q 0x0803) ∧ (a.isHead = true) ∧ (q.payload.length = 4) ∧ (le q.payload 2 2 = 0) ∧
      1 ≤ le q.payload 0 2 ∧ le q.payload 0 2 ≤ 4094 ∧ (a.pw.fold ≠ none)) ∧
    (∃ (s : State) (f : Fold) (n e : Nat) (x : Hub), (s.hub.pw.fold = some f) ∧ (x = s.hub.until f.paceAt) ∧ (x.foldNext f.first f.next = some (n, e))) ∧
    (∃ (s : State), (s.hub.pw.fold = none)) ∧
    (∃ (s : State) (f : Fold) (x : Hub), (s.hub.pw.fold = some f) ∧ (x = s.hub.until f.endAt) ∧ (x.pw.fold = some f)) ∧
    (∃ (s : State) (q : Req) (a : Hub), (s.hub.asks q 0x0804 = true) ∧ (a = s.hub.asked q 0x0804) ∧ (a.isHead = false)) ∧
    (∃ (s : State) (q : Req) (a : Hub), (s.hub.asks q 0x0804 = true) ∧ (a = s.hub.asked q 0x0804) ∧ (a.isHead = true) ∧ (q.payload = []) ∧ (a.pw.unfold = none) ∧
      a.ctl.ops.length < 16 ∧ ((a.port 1).state = .detect) ∧ ((a.port 1).train.silent = true)) :=
  ⟨⟨W.on (fun h => let h : Hub := { h with straps := 0 }; h), (W.q [] 3 0), _, by decide +kernel, rfl, by decide +kernel⟩,
   ⟨W.on (fun h => let h : Hub := { h with straps := 5 }; let h : Hub := { h with pw := { h.pw with fold := none } }; h),
    (W.q [1#8, 0#8, 0#8, 0#8] 3 0), _, _, by decide +kernel, rfl, by decide +kernel, by decide +kernel, rfl, by decide +kernel⟩,
   ⟨W.on (fun h => let h : Hub := { h with straps := 5 }; let h : Hub := { h with pw := { h.pw with fold := some ⟨1, 1, 4094, false, 0, 0⟩ } }; h),
    (W.q [1#8, 0#8, 0#8, 0#8] 3 0), _, by decide +kernel, rfl, by decide +kernel⟩,
   ⟨W.on (fun h => let h : Hub := { h with pw := { h.pw with fold := some ⟨1, 1, 9, false, 0, 0⟩ } }; let h := h.tset 1 8 25132269577; h),
    ⟨1, 1, 9, false, 0, 0⟩, 9, 8, _, by decide +kernel, rfl, by decide +kernel⟩,
   ⟨W.on (fun h => let h : Hub := { h with pw := { h.pw with fold := none } }; h), by decide +kernel⟩,
   ⟨W.on (fun h => let h : Hub := { h with pw := { h.pw with fold := some (⟨1, 1, 4094, false, 0, 0⟩) } }; let h : Hub := { h with pw := { h.pw with fold := some (⟨1, 1, 4094, false, 0, 0⟩) } }; h),
    ⟨1, 1, 4094, false, 0, 0⟩, _, by decide +kernel, rfl, by decide +kernel⟩,
   ⟨W.on (fun h => let h : Hub := { h with straps := 0 }; h), (W.q [] 3 0), _, by decide +kernel, rfl, by decide +kernel⟩,
   ⟨W.on (fun h => let h : Hub := { h with straps := 5 }; let h : Hub := { h with pw := { h.pw with unfold := none } }; let h := h.modPort 1 (fun y => { y with state := .detect }); let h := h.modPort 1 (fun y => { y with train := { y.train with silent := true } }); h),
    (W.q [] 3 0), _, by decide +kernel, rfl, by decide +kernel⟩⟩

/-- States and operands that meet the hypotheses of `Obligations.ResetsStartTheHubAnew`, clause by clause. -/
theorem test_witness_ResetsStartTheHubAnew :
    (∃ (s : State) (w : Nat), w < 900) ∧
    (∃ (s : State) (w : Nat), 1000 ≤ w ∧ w ≤ 9000) ∧
    (∃ (s : State) (w : Nat), 10000 ≤ w) ∧
    (∃ (s : State) (c st : Nat), (s.hub.pw.resetDue = none)) ∧
    (∃ (s : State) (c st d : Nat), (s.hub.pw.resetDue = some d)) ∧
    (∃ (s : State) (n : Nat) (r : Int), (r < 155 ∨ s.hub.pw.state = .thermalOff)) ∧
    (∃ (s : State) (n : Nat) (r : Int) (x y : Hub), 155 ≤ r ∧ (s.hub.pw.state ≠ .thermalOff) ∧
      (x = (((s.hub.bump P.PW_TSD_EVENTS 0).lintRec Ev.thermalShutdown.code Ev.thermalShutdown.severity (fields 16 [(0, 1, n), (1, 2, ofSigned 16 r)]) true).deliver .thermalShutdown Ev.thermalShutdown.severity 0 (fields 16 [(0, 1, n), (1, 2, ofSigned 16 r)])).out (.pin "PMIC_EN" false)) ∧
      (y = [1, 2, 3, 4].foldl (fun h c => if (h.fuse c).state.gate then h.fuseGateOff c .off else h) x)) ∧
    (∃ (s : State) (t : Nat), (s.hub.pw.state = .thermalOff) ∧ (s.hub.pw.coolAt = some t)) ∧
    (∃ (s : State) (m b st : Nat), (goodAtStart m = false) ∧ (goodAtStart b = false)) ∧
    (∃ (s : State) (m b st : Nat) (x y z w : Hub), (goodAtStart m = true) ∧ ((decide (s.hub.pw.state = .off) && decide (s.hub.pget P.PW_RESET_CAUSE 0 = 2)) = false) ∧
      (x = s.hub.coldReset 1 st) ∧
      (y = { x with su := { Supply.reset with inUse := 0, mainMv := m, backMv := b, mainOk := true, backOk := goodAtStart b } }) ∧
      (z = (((y.out (.power "SUPPLY" [0])).advance (ms 2)).out (.pin "DRAM_EN" true)).advance (ms 6)) ∧
      (w = ((z.out (.pin "PMIC_EN" true)).modPw (fun p => { p with dramEn := true, pmicEn := true, pmicAt := z.clk.up })).advance (ms 3))) ∧
    (∃ (s : State) (m b st : Nat) (x y z w : Hub), (goodAtStart m = true) ∧ (s.hub.pw.state = .off) ∧ (s.hub.pget P.PW_RESET_CAUSE 0 = 2) ∧ (x = s.hub.coldReset 2 st) ∧
      (y = ({ x with su := { Supply.reset with inUse := 0, mainMv := m, backMv := b, mainOk := true, backOk := goodAtStart b } } : Hub).advance (ms 20)) ∧
      (z = (((y.out (.power "SUPPLY" [0])).advance (ms 2)).out (.pin "DRAM_EN" true)).advance (ms 6)) ∧
      (w = ((z.out (.pin "PMIC_EN" true)).modPw (fun p => { p with dramEn := true, pmicEn := true, pmicAt := z.clk.up })).advance (ms 3))) ∧
    (∃ (s : State), (s.hub.pw.pmicPg = true)) ∧
    (∃ (s : State) (x y z : Hub), (s.hub.pw.pmicPg = false) ∧ (x = ((s.hub.until (s.hub.pw.pmicAt + ms 100)).out (.pin "PMIC_EN" false)).out (.pin "DRAM_EN" false)) ∧
      (y = (x.lintRec lintNoPg 3 [] true).advance (ms 1000)) ∧ (z = (y.out (.pin "DRAM_EN" true)).advance (ms 6))) ∧
    (∃ (s : State) (x y : Hub), (s.hub.pw.pmicEn = true) ∧ (s.hub.pw.pmicPg = true) ∧ (x = ((s.hub.tamperAlarm 2 true).tamperRinsed).out (.pin "PMIC_EN" false)) ∧
      (y = ((x.advance (ms 20)).out (.pin "PMIC_EN" true)).advance (ms 1))) ∧
    (∃ (s : State), (s.hub.pw.pmicEn = false)) ∧
    (∃ (s : State) (mv : Nat) (x : Hub), mv < 6000 ∧
      (x = (((((s.hub.coldReset 1 s.hub.straps).out (.power "FET_OFF" [0])).out (.power "FET_OFF" [1])).out (.pin "PMIC_EN" false)).out (.pin "DRAM_EN" false)))) ∧
    (∃ (s : State) (mv : Nat), 7000 ≤ mv) ∧
    (∃ (s : State) (mv : Nat), 6000 ≤ mv ∧ (s.hub.su.mainOk = true ∨ s.hub.su.backOk = true)) :=
  ⟨⟨W.on id, 899, by decide +kernel⟩,
   ⟨W.on id, 9000, by decide +kernel⟩,
   ⟨W.on id, 10000, by decide +kernel⟩,
   ⟨W.on (fun h => let h : Hub := { h with pw := { h.pw with resetDue := none } }; h), 0, 0, by decide +kernel⟩,
   ⟨W.on (fun h => let h : Hub := { h with pw := { h.pw with resetDue := some 0 } }; h), 0, 0, 0, by decide +kernel⟩,
   ⟨W.on id, 0, 0, by decide +kernel⟩,
   ⟨W.on id, 0, 160, _, _, by decide +kernel, by decide +kernel, rfl, rfl⟩,
   ⟨W.on (fun h => let h : Hub := { h with pw := { h.pw with state := .thermalOff } }; let h : Hub := { h with pw := { h.pw with coolAt := some 0 } }; h),
    0, by decide +kernel⟩,
   ⟨W.on id, 0, 0, 0, by decide +kernel⟩,
   ⟨W.on id, 12000, 0, 0, _, _, _, _, by decide +kernel, by decide +kernel, rfl, rfl, rfl, rfl⟩,
   ⟨W.on (fun h => let h : Hub := { h with pw := { h.pw with state := .off } }; let h := h.pset P.PW_RESET_CAUSE 0 2; h), 12000, 0, 0, _, _, _,
    _, by decide +kernel, by decide +kernel, by decide +kernel, rfl, rfl, rfl, rfl⟩,
   ⟨W.on (fun h => let h : Hub := { h with pw := { h.pw with pmicPg := true } }; h), by decide +kernel⟩,
   ⟨W.on (fun h => let h : Hub := { h with pw := { h.pw with pmicPg := false } }; h), _, _, _, by decide +kernel, rfl, rfl, rfl⟩,
   ⟨W.on (fun h => let h : Hub := { h with pw := { h.pw with pmicEn := true } }; let h : Hub := { h with pw := { h.pw with pmicPg := true } }; h),
    _, _, by decide +kernel, by decide +kernel, rfl, rfl⟩,
   ⟨W.on (fun h => let h : Hub := { h with pw := { h.pw with pmicEn := false } }; h), by decide +kernel⟩,
   ⟨W.on id, 5999, _, by decide +kernel, rfl⟩,
   ⟨W.on id, 7000, by decide +kernel⟩,
   ⟨W.on (fun h => let h : Hub := { h with su := { h.su with mainOk := true } }; h), 6000, by decide +kernel, by left; decide +kernel⟩⟩

/-- States and operands that meet the hypotheses of `Obligations.TheGuardChecksEveryAccess`, clause by clause. -/
theorem test_witness_TheGuardChecksEveryAccess :
    (∃ (h : Hub) (a : GAccess) (p : Nat) (m : List (Nat × Region)), (m = h.regionsAt a.space p) ∧ (a.priv = false) ∧ 0xFE ≤ a.colour) ∧
    (∃ (h : Hub) (a : GAccess) (p : Nat) (m : List (Nat × Region)), (m = h.regionsAt a.space p) ∧ (a.cls = 5) ∧ (m.any (·.2.lock) = true)) ∧
    (∃ (h : Hub) (a : GAccess) (p : Nat) (m : List (Nat × Region)), (m = h.regionsAt a.space p) ∧ (a.priv = false) ∧ a.colour < 0xFE ∧ (m = []) ∧ (h.pget P.AG_LOCK 0 = 1)) ∧
    (∃ (h : Hub) (a : GAccess) (p : Nat) (m : List (Nat × Region)), (m = h.regionsAt a.space p) ∧ (a.cls ≠ 5) ∧ ((a.priv = true ∨ a.colour < 0xFE)) ∧ (m.any (fun r => !r.2.allows a) = true)) ∧
    (∃ (h : Hub) (a : GAccess) (p : Nat) (m : List (Nat × Region)), (m = h.regionsAt a.space p) ∧ (a.cls ≠ 5) ∧ ((a.priv = true ∨ a.colour < 0xFE)) ∧ (m.any (fun r => !r.2.allows a) = false) ∧
      (m.any (fun r => !colourMatch r.2.colour a.colour) = true)) ∧
    (∃ (h : Hub) (a : GAccess) (p : Nat) (m : List (Nat × Region)), (m = h.regionsAt a.space p) ∧ (a.priv = true) ∧ (m = []) ∧ (colourMatch (h.pageColour a.space p) a.colour = false)) ∧
    (∃ (h : Hub) (a : GAccess) (posted : Bool) (r : Refused) (x : Hub), (h.checkPages a a.pages = some r) ∧ (r.reason ≠ 5) ∧ (x = (h.bump P.AG_DENIED r.reason).raise (2 ^ intGuard))) ∧
    (∃ (h : Hub) (a : GAccess) (posted : Bool), (a.priv = true) ∧ (h.checkPages a a.pages = none)) ∧
    (∃ (h : Hub) (a : GAccess) (r : Refused), 16 ≤ h.ag.log.length) ∧
    (∃ (h : Hub) (a : GAccess) (r : Refused), h.ag.log.length < 16) ∧
    (∃ (s : State) (mb v : Nat) (g : Hub), v < 2 ^ 64 ∧ (s.hub.guardAdmin mb = true) ∧ (bits v 8 24 = 0) ∧ 0 < bits v 32 32 ∧ s.hub.pget P.AG_TAG_BASE 0 + bits v 32 32 ≤ 1048576 ∧
      (s.hub.ctl.pairs.find? (fun o => o.pid == P.AG_TAG_BASE && o.inst == 0 && o.mb == mb) = none) ∧
      (s.hub.conflictsOutside mb P.AG_TAG_FILL 0 = false) ∧
      (g = (s.hub.startFill (s.hub.pget P.AG_TAG_BASE 0) (bits v 32 32) (bits v 0 8)).guardCommit)) ∧
    (∃ (s : State) (mb v : Nat), v < 2 ^ 64 ∧ (s.hub.guardAdmin mb = false) ∧ (s.hub.ctl.pairs.find? (fun o => o.pid == P.AG_TAG_BASE && o.inst == 0 && o.mb == mb) = none)) ∧
    (∃ (s : State) (mb v : Nat) (o : OpenPair) (g : Hub), v < 2 ^ 64 ∧ (s.hub.guardAdmin mb = true) ∧ (bits v 8 24 = 0) ∧ 0 < bits v 32 32 ∧ o.value + bits v 32 32 ≤ 1048576 ∧
      (s.hub.ctl.pairs.find? (fun o => o.pid == P.AG_TAG_BASE && o.inst == 0 && o.mb == mb) = some o) ∧
      (s.hub.conflictsOutside mb P.AG_TAG_FILL 0 = false) ∧
      (g = ({ s.hub  with
      ctl := { s.hub.ctl with pairs := s.hub.ctl.pairs.filter (fun y => !(y.pid == P.AG_TAG_BASE && y.inst == 0)) } } : Hub).applyChange
        ⟨[⟨P.AG_TAG_BASE, 0, o.value⟩, ⟨P.AG_TAG_FILL, 0, v⟩], [], []⟩)) ∧
    (∃ (s : State), (s.hub.ag.fillEnd = none)) ∧
    (∃ (s : State) (t : Nat), (s.hub.ag.fillEnd = some t) ∧ (s.hub.ag.waiting = [])) ∧
    (∃ (s : State) (t a n : Nat) (wr : Bool) (d : List Byte), (s.hub.ag.fillEnd = some t) ∧ (s.hub.ag.waiting = [.debug a n wr d])) ∧
    (∃ (s : State), (s.hub.ag.drains = [])) ∧
    (∃ (s : State) (d : Drain) (x : Hub), (s.hub.ag.drains = [d]) ∧ (d.reply.isSome = true) ∧ (x = s.hub.until (d.at_ + us (s.hub.pget P.AG_DRAIN_TIMEOUT 0))) ∧
      (x.ag.drains = [d]) ∧ d.at_ + us (x.pget P.AG_DRAIN_TIMEOUT 0) ≤ x.clk.up) ∧
    (∃ (s : State) (d : Drain) (y : Hub), (s.hub.ag.drains = [d]) ∧ (s.hub.olderInFlight d.gen = false) ∧ (d.reply.isSome = true) ∧
      (y = s.hub.modGuard (fun g => { g with drains := [] }))) ∧
    (∃ (s : State) (mb : Nat), (s.hub.conflictsOutside mb P.AG_VIOL_CLEAR 0 = false)) ∧
    (∃ (s : State) (sp a len : Nat) (wr : Bool) (d : List Byte), (s.hub.debugPort = false) ∧ 0 < (if wr then d.length else len)) ∧
    (∃ (s : State) (a len : Nat) (wr : Bool) (d : List Byte), (s.hub.debugPort = true) ∧ 0 < (if wr then d.length else len) ∧ (s.hub.ag.fillEnd.isSome = true)) ∧
    (∃ (s : State) (a len : Nat) (g : Hub), (s.hub.debugPort = true) ∧ 0 < len ∧ (s.hub.ag.fillEnd = none) ∧ (s.hub.guard ⟨0, a, len, false, 5, 0, 0xFE⟩ false = (g, true))) ∧
    (∃ (s : State) (a : Nat) (d : List Byte) (g : Hub), (s.hub.debugPort = true) ∧ 0 < d.length ∧ (s.hub.ag.fillEnd = none) ∧ (s.hub.guard ⟨0, a, d.length, true, 5, 0, 0xFE⟩ false = (g, true))) ∧
    (∃ (h : Hub) (a n : Nat), a + n ≤ fwCopies) ∧
    (∃ (s : State) (sp a len : Nat) (g : Hub), (s.hub.debugPort = true) ∧ 0 < len ∧ (sp ≠ 0) ∧ (s.hub.guard ⟨sp, a, len, false, 5, 0, 0xFE⟩ false = (g, false))) :=
  ⟨⟨(W.on id).hub, ⟨0, 0, 4, false, 1, 0, 254⟩, 0, _, rfl, by decide +kernel⟩,
   ⟨(W.on (fun h => let h := h.tset 0x11 0 22300404916163702203072254898040932974723072; h)).hub, ⟨0, 0, 4, false, 5, 0, 254⟩, 0, _, rfl,
    by decide +kernel⟩,
   ⟨(W.on (fun h => let h := h.pset P.AG_LOCK 0 1; let h := h.pset P.AG_LOCK 0 1; h)).hub, ⟨0, 0, 4, false, 1, 0, 0⟩, 0, _, rfl,
    by decide +kernel⟩,
   ⟨(W.on (fun h => let h := h.tset 0x11 0 22300404916163702203072254898040931885252608; h)).hub, ⟨0, 0, 4, false, 1, 0, 0⟩, 0, _, rfl,
    by decide +kernel⟩,
   ⟨(W.on (fun h => let h := h.tset 0x11 0 22300404916163702203072254898040931900981504; h)).hub, ⟨0, 0, 4, false, 1, 0, 2⟩, 0, _, rfl,
    by decide +kernel⟩,
   ⟨(W.on (fun h => let h : Hub := { h with ag := { h.ag with colours := [(0, 1)] } }; h)).hub, ⟨0, 0, 4, false, 0, 0, 2⟩, 0, _, rfl,
    by decide +kernel⟩,
   ⟨(W.on id).hub, ⟨0, 0, 4, false, 1, 0, 254⟩, false, ⟨6, 0xFF, 0⟩, _, by decide +kernel, by decide +kernel, rfl⟩,
   ⟨(W.on id).hub, ⟨0, 0, 4, false, 0, 0, 0⟩, false, by decide +kernel⟩,
   ⟨(W.on (fun h => let h : Hub := { h with ag := { h.ag with log := List.replicate 16 (0, 0, 0) } }; h)).hub, ⟨0, 0, 4, false, 1, 0, 0⟩,
    ⟨6, 0xFF, 0⟩, by decide +kernel⟩,
   ⟨(W.on id).hub, ⟨0, 0, 4, false, 1, 0, 0⟩, ⟨6, 0xFF, 0⟩, by decide +kernel⟩,
   ⟨W.on id, 0, 4294967296, _, by decide +kernel, by decide +kernel, by decide +kernel, (by decide +kernel), by decide +kernel,
    by decide +kernel, by decide +kernel, rfl⟩,
   ⟨W.on (fun h => let h := h.pset P.AG_ADMIN_MB 0 0; h), 0, 0, by decide +kernel⟩,
   ⟨W.on (fun h => let h : Hub := { h with ctl := { h.ctl with pairs := [⟨P.AG_TAG_BASE, 0, 0, 0, 0⟩] } }; h), 0, 4294967296,
    ⟨P.AG_TAG_BASE, 0, 0, 0, 0⟩, _, by decide +kernel, by decide +kernel, by decide +kernel, (by decide +kernel), by decide +kernel,
    by decide +kernel, by decide +kernel, rfl⟩,
   ⟨W.on (fun h => let h : Hub := { h with ag := { h.ag with fillEnd := none } }; h), by decide +kernel⟩,
   ⟨W.on (fun h => let h : Hub := { h with ag := { h.ag with fillEnd := some 0 } }; let h : Hub := { h with ag := { h.ag with waiting := [] } }; h),
    0, by decide +kernel⟩,
   ⟨W.on (fun h => let h : Hub := { h with ag := { h.ag with fillEnd := some 0 } }; let h : Hub := { h with ag := { h.ag with waiting := [.debug 0 0 false []] } }; h),
    0, 0, 0, false, [], by decide +kernel⟩,
   ⟨W.on (fun h => let h : Hub := { h with ag := { h.ag with drains := [] } }; h), by decide +kernel⟩,
   ⟨W.on (fun h => let h : Hub := { h with ag := { h.ag with drains := [⟨0, 0, 3, some (.step 1 0x0502)⟩] } }; h),
    ⟨0, 0, 3, some (.step 1 0x0502)⟩, _, by decide +kernel, by decide +kernel, rfl, by decide +kernel⟩,
   ⟨W.on (fun h => let h : Hub := { h with ag := { h.ag with drains := [⟨0, 0, 3, some (.step 1 0x0502)⟩] } }; h),
    ⟨0, 0, 3, some (.step 1 0x0502)⟩, _, by decide +kernel, by decide +kernel, by decide +kernel, rfl⟩,
   ⟨W.on id, 0, by decide +kernel⟩,
   ⟨W.on (fun h => let h := h.pset P.KY_LIFE_CYCLE 0 2; h), 0, 0, 1, false, [], by decide +kernel⟩,
   ⟨W.on (fun h => let h : Hub := { h with ag := { h.ag with fillEnd := some 1000 } }; h), 0, 1, false, [], by decide +kernel⟩,
   ⟨W.on id, 0, 4, _, by decide +kernel, by decide +kernel, by decide +kernel, Prod.ext rfl (by decide +kernel)⟩,
   ⟨W.on id, 0, [1#8, 2#8, 3#8, 4#8], _, by decide +kernel, by decide +kernel, by decide +kernel, Prod.ext rfl (by decide +kernel)⟩,
   ⟨(W.on id).hub, 0, 0, by decide +kernel⟩,
   ⟨W.on (fun h => let h := h.pset P.KY_LIFE_CYCLE 0 3; let h := h.tset 0x11 0 22300404916163702203072254898040933243158528; h), 1, 0, 4, _,
    by decide +kernel, by decide +kernel, by decide +kernel, Prod.ext rfl (by decide +kernel)⟩⟩

end Sys2Proof.Tests.Witness4
end

