-- ==== Sys2Proof/Tests/Witness5.lean ====
section
/-!
SUPPORT. Witnesses that no obligation has empty hypotheses, part 5: for each statement one theorem that shows a state and operands for
every clause that has hypotheses.  The states are the hub after reset and start, changed by the named operations.
-/
namespace Sys2Proof.Tests.Witness5
open Sys2Proof Sys2Proof.Machine
set_option Elab.async false
set_option maxRecDepth 8000
set_option linter.unusedVariables false

/-- States and operands that meet the hypotheses of `Obligations.KeysAndLifeCycleFollowTheRules`, clause by clause. -/
theorem test_witness_KeysAndLifeCycleFollowTheRules :
    (∃ (s : State) (q : Req) (a : Hub), (s.hub.asks (force q 138 1) 0x0601 = true) ∧ (a = s.hub.asked (force q 138 1) 0x0601) ∧ a.ctl.ops.length < 16) ∧
    (∃ (s : State) (q : Req) (a : Hub), (s.hub.asks (force q 138 2) 0x0601 = true) ∧ (a = s.hub.asked (force q 138 2) 0x0601) ∧ a.ctl.ops.length < 16) ∧
    (∃ (h : Hub) (b : List Byte) (ok form : Bool),
      (ok = ((h.lc == 1 || h.lc == 2) && !h.ky.hold && h.ky.unlock.isNone)) ∧
      (form = (pkgGood 2 296 b && byteAt (slice b 136 64) 3 == 0 && decide (le (slice b 136 64) 4 4 ≤ 7) && allZero (slice (slice b 136 64) 48 16) && decide (byteAt (slice b 136 64) 0 ≤ 31) && (byteAt (slice b 136 64) 2 == 1 || byteAt (slice b 136 64) 2 == 2)))) ∧
    (∃ (h x y : Hub) (t k copy : Nat) (b : List Byte) (n : KeySlot), (k = byteAt (slice b 136 64) 0) ∧ (copy = 1 - (h.slot k).active) ∧
      (n = ⟨b2n (byteAt (slice b 136 64) 2 == 1), le (slice b 136 64) 4 4, pkgCounter b, copy, if copy = 0 then h.newKey b else (h.slot k).copyA, if copy = 0 then (h.slot k).copyB else h.newKey b⟩) ∧
      (x = ((h.nvCopy k copy (h.newKey b) n.policy).nvCommit k n).modKy (fun y => { y with slots := modAt y.slots k (fun _ => n) })) ∧
      (y = (x.endOp t .ok 0 []).event .keyChanged [(0, 1, k), (1, 1, n.state), (4, 4, n.policy), (8, 8, n.counter)])) ∧
    (∃ (s : State) (token : Nat) (b : List Byte) (g : Hub), (g = s.hub.serveTurn) ∧ ((g.op token).map LongOp.work = some (.keyUpdate b))) ∧
    (∃ (s : State) (token : Nat), (s.hub.serveTurn.op token = none)) ∧
    (∃ (s : State) (q : Req) (a : Hub), (s.hub.asks q 0x0602 = true) ∧ (a = s.hub.asked q 0x0602) ∧ (q.payload = [])) ∧
    (∃ (s : State) (q : Req) (a : Hub), (s.hub.asks q 0x0603 = true) ∧ (a = s.hub.asked q 0x0603) ∧ a.ctl.ops.length < 16) ∧
    (∃ (h x y z : Hub) (t s : Nat) (b : List Byte), (s = byteAt b 136) ∧
      (x = (if h.lc = 0 ∧ s = 1 then (h.pset P.KY_LIFE_CYCLE 0 s).modKy (fun y => { y with auth := some (BitVec.ofNat 384 (beNat (sha384 (pkgSigner b)))) }) else h.pset P.KY_LIFE_CYCLE 0 s)) ∧
      (y = (if s = 4 then x.unlockEnd 1 else x)) ∧ (z = ((y.lcRinse s).endOp t .ok 0 []).event .lcChanged [(0, 1, s), (1, 1, h.lc)])) ∧
    (∃ (s : State) (q : Req) (a : Hub), (s.hub.asks q 0x0604 = true) ∧ (a = s.hub.asked q 0x0604) ∧ (a.lc = 0 ∨ a.lc = 3)) ∧
    (∃ (s : State) (q : Req) (a : Hub), (s.hub.asks q 0x0604 = true) ∧ (a = s.hub.asked q 0x0604) ∧ 4 ≤ a.lc) ∧
    (∃ (s : State) (q : Req) (a : Hub), (s.hub.asks q 0x0604 = true) ∧ (a = s.hub.asked q 0x0604) ∧ (a.lc = 1 ∨ a.lc = 2) ∧ a.ctl.ops.length < 16) ∧
    (∃ (h : Hub) (b : List Byte) (form : Bool),
      (form = (pkgGood 3 248 b && allZero (slice b 140 12) && !(le b 136 4 == 0) && decide (le b 136 4 ≤ 86400)))) ∧
    (∃ (h x : Hub) (t d : Nat) (b : List Byte), (d = le b 136 4) ∧
      (x = (h.nvPair 196 (leBytes 8 (pkgCounter b))).modKy (fun y => { y with debugCtr := pkgCounter b, measured := false, debugged := true, unlock := some (h.clk.up + ms 1000 * d), duration := d }))) ∧
    (∃ (h : Hub) (cause t : Nat), (h.ky.unlock = some t)) ∧
    (∃ (s : State) (t : Nat), (s.hub.ky.unlock = some t)) ∧
    (∃ (s : State), (s.hub.ky.unlock = none)) :=
  ⟨⟨W.on id, (W.q [] 3 0), _, by decide +kernel, rfl, by decide +kernel⟩,
   ⟨W.on id, (W.q [] 3 0), _, by decide +kernel, rfl, by decide +kernel⟩,
   ⟨(W.on id).hub, [], _, _, rfl, rfl⟩,
   ⟨(W.on id).hub, _, _, 0, _, _, [], _, rfl, rfl, rfl, rfl, rfl⟩,
   ⟨W.on (fun h => let h : Hub := { h with ctl := { h.ctl with ops := [⟨1, 0x0601, 3, 0, .keyUpdate []⟩] } }; h), 1, [], _, rfl,
    by decide +kernel⟩,
   ⟨W.on id, 0, by decide +kernel⟩,
   ⟨W.on id, (W.q [] 3 0), _, by decide +kernel, rfl, by decide +kernel⟩,
   ⟨W.on id, (W.q [] 3 0), _, by decide +kernel, rfl, by decide +kernel⟩,
   ⟨(W.on id).hub, _, _, _, 0, _, [], rfl, rfl, rfl, rfl⟩,
   ⟨W.on (fun h => let h := h.pset P.KY_LIFE_CYCLE 0 0; h), (W.q [] 3 0), _, by decide +kernel, rfl, by left; decide +kernel⟩,
   ⟨W.on (fun h => let h := h.pset P.KY_LIFE_CYCLE 0 4; h), (W.q [] 3 0), _, by decide +kernel, rfl, by decide +kernel⟩,
   ⟨W.on (fun h => let h := h.pset P.KY_LIFE_CYCLE 0 1; h), (W.q [] 3 0), _, by decide +kernel, rfl, by left; decide +kernel, by decide +kernel⟩,
   ⟨(W.on id).hub, [], _, rfl⟩,
   ⟨(W.on id).hub, _, 0, _, [], rfl, rfl⟩,
   ⟨(W.on (fun h => let h : Hub := { h with ky := { h.ky with unlock := some 0 } }; h)).hub, 0, 0, by decide +kernel⟩,
   ⟨W.on (fun h => let h : Hub := { h with ky := { h.ky with unlock := some 0 } }; h), 0, by decide +kernel⟩,
   ⟨W.on (fun h => let h : Hub := { h with ky := { h.ky with unlock := none } }; h), by decide +kernel⟩⟩

/-- States and operands that meet the hypotheses of `Obligations.TamperAlarmsApplyTheirPolicy`, clause by clause. -/
theorem test_witness_TamperAlarmsApplyTheirPolicy :
    (∃ (s : State) (src held : Nat), held < s.hub.tamperHolds src) ∧
    (∃ (s : State) (src held : Nat) (x : Hub), s.hub.tamperHolds src ≤ held ∧ (x = s.hub.tamperAlarm src false) ∧ (x.pw.state = .run)) ∧
    (∃ (s : State) (src held : Nat) (x y : Hub) (c : Nat), s.hub.tamperHolds src ≤ held ∧ (x = s.hub.tamperAlarm src false) ∧ (x.pw.state ≠ .run) ∧
      (y = (if x.ky.rinse.isSome then (x.within (x.clk.up + ms 25)).tamperRinsed else x).wakeEvent 8) ∧ (y.pw.state = .run) ∧
      (y.pw.resetDue = some c)) ∧
    (∃ (s : State) (src held : Nat) (x y : Hub), s.hub.tamperHolds src ≤ held ∧ (x = s.hub.tamperAlarm src false) ∧ (x.pw.state ≠ .run) ∧
      (y = (if x.ky.rinse.isSome then (x.within (x.clk.up + ms 25)).tamperRinsed else x).wakeEvent 8) ∧
      (y.pw.state ≠ .run ∨ y.pw.resetDue = none)) ∧
    (∃ (h : Hub) (s : Nat) (force : Bool) (a : List Byte) (x y z w : Hub), s ≤ 5 ∧
      (x = (((h.modKy (fun y => { y with alarms := setBit y.alarms s true })).pset P.KY_TAMPER_LATCH 0 (setBit (h.pget P.KY_TAMPER_LATCH 0) s true)).bump P.KY_TAMPER_EVENTS s).raise (2 ^ intTamper)) ∧
      (a = fields 16 [(0, 1, s), (1, 1, (h.tamperPolicy s).1), (2, 1, 1), (3, 1, x.alarmState), (8, 8, h.clk.ns)]) ∧
      (y = (if x.pw.state = .rest ∨ x.pw.state = .doze then (x.lintRec Ev.tamperAlarm.code Ev.tamperAlarm.severity a true).lintEstimated else x.lintRec Ev.tamperAlarm.code Ev.tamperAlarm.severity a true)) ∧
      (z = (y.modKy (fun k => { k with heard := modAt k.heard s (fun _ => ((h.tamperPolicy s).1, y.alarmState, h.clk.ns)) })).abortKeyOps.unlockEnd 3) ∧
      (w = (z.applyPolicy s (h.tamperPolicy s).1 ((h.tamperPolicy s).2 || force)).deliver .tamperAlarm Ev.tamperAlarm.severity 0 a)) ∧
    (∃ (s : State) (src held : Nat), 5 < src ∧ (s.hub.pw.state = .run)) ∧
    (∃ (s : State) (src : Nat), (bit s.hub.ky.alarms src = false)) ∧
    (∃ (s : State) (src : Nat) (x : Hub) (a : Nat × Nat × Nat), src ≤ 5 ∧ (bit s.hub.ky.alarms src = true) ∧ (x = s.hub.modKy (fun y => { y with alarms := setBit y.alarms src false })) ∧
      (a = nth s.hub.ky.heard src (0, 0, 0))) ∧
    (∃ (s : State), (s.hub.ky.rinse = none)) ∧
    (∃ (s : State) (s0 : Nat) (x : Hub), (s.hub.ky.rinse = some (s0, false)) ∧ (x = ((s.hub.rinseSlots s.hub.ky.erase).eraseIntent []).modKy (fun y => { y with rinse := none }))) ∧
    (∃ (s : State) (s0 : Nat) (x : Hub), (s.hub.ky.rinse = some (s0, true)) ∧ (x = ((s.hub.rinseSlots s.hub.ky.erase).eraseIntent []).modKy (fun y => { y with rinse := none }))) ∧
    (∃ (s : State) (mb v : Nat), 2 ≤ mb ∧ v < 64 ∧ (v &&& s.hub.ky.alarms = 0) ∧ (s.hub.conflictsOutside mb P.KY_TAMPER_CLEAR 0 = false)) ∧
    (∃ (s : State) (mb v : Nat), v < 64 ∧ mb < 2) ∧
    (∃ (s : State) (mb v : Nat), v < 64 ∧ 2 ≤ mb ∧ (v &&& s.hub.ky.alarms ≠ 0)) :=
  ⟨⟨W.on id, 2, 0, by decide +kernel⟩,
   ⟨W.on id, 4, 0, _, by decide +kernel, rfl, by decide +kernel⟩,
   ⟨W.on (fun h => let h : Hub := { h with pw := { h.pw with state := PState.doze } }; let h := h.pset P.KY_TAMPER_POLICY 4 17; h), 4, 0, _, _,
    9, by decide +kernel, rfl, by decide +kernel, rfl, by decide +kernel⟩,
   ⟨W.on (fun h => let h : Hub := { h with pw := { h.pw with state := PState.doze } }; let h := h.pset P.KY_TAMPER_POLICY 4 1; h), 4, 0, _, _,
    by decide +kernel, rfl, by decide +kernel, rfl, by right; decide +kernel⟩,
   ⟨(W.on (fun h => let h := h.pset P.KY_TAMPER_POLICY 0 1; h)).hub, 0, false, _, _, _, _, _, by decide +kernel, rfl, rfl, rfl, rfl, rfl⟩,
   ⟨W.on (fun h => let h : Hub := { h with pw := { h.pw with state := .run } }; h), 6, 0, by decide +kernel⟩,
   ⟨W.on id, 0, by decide +kernel⟩,
   ⟨W.on (fun h => let h : Hub := { h with ky := { h.ky with alarms := 1 } }; h), 0, _, _, by decide +kernel, by decide +kernel, rfl, rfl⟩,
   ⟨W.on (fun h => let h : Hub := { h with ky := { h.ky with rinse := none } }; h), by decide +kernel⟩,
   ⟨W.on (fun h => let h : Hub := { h with ky := { h.ky with rinse := some (0, false) } }; h), 0, _, by decide +kernel, rfl⟩,
   ⟨W.on (fun h => let h : Hub := { h with ky := { h.ky with rinse := some (0, true) } }; h), 0, _, by decide +kernel, rfl⟩,
   ⟨W.on id, 2, 63, by decide +kernel⟩,
   ⟨W.on id, 1, 63, by decide +kernel⟩,
   ⟨W.on (fun h => let h : Hub := { h with ky := { h.ky with alarms := 1 } }; h), 3, 1, by decide +kernel⟩⟩

/-- States and operands that meet the hypotheses of `Obligations.BootStartsTheHub`, clause by clause. -/
theorem test_witness_BootStartsTheHub :
    (∃ (s : State), (s.hub.mg.loaded = true ∨ s.hub.mg.romHold = true)) ∧
    (∃ (s : State) (x : Hub × Bool) (g : Hub), (s.hub.mg.loaded = false) ∧ (s.hub.mg.romHold = false) ∧ (s.hub.pw.state = .run) ∧
      (x = (s.hub.within (s.hub.mg.startAt + ms 1)).nvLoad.finishErase.forbidRinse.readLatch.applyStore.bootLoad.chooseImage) ∧
      (x.2 = true) ∧ (g = x.1.modMg (fun m => { m with tellFall := m.tellFall.map (fun f => (f.1, m.running)) }))) ∧
    (∃ (s : State) (x : Hub × Bool), (s.hub.mg.loaded = false) ∧ (s.hub.mg.romHold = false) ∧ (s.hub.pw.state = .run) ∧
      (x = (s.hub.within (s.hub.mg.startAt + ms 1)).nvLoad.finishErase.forbidRinse.readLatch.applyStore.bootLoad.chooseImage) ∧
      (x.2 = false)) ∧
    (∃ (h : Hub) (c : List Byte), (c = readMem h.dram fwArea (h.fw h.mg.running).image.length)) ∧
    (∃ (s : State), (s.hub.mg.loaded = false) ∧ (s.hub.mg.romHold = false) ∧ (s.hub.pw.state = .exiting) ∧ (s.hub.copyGood = true)) ∧
    (∃ (s : State) (x : Hub), (s.hub.mg.loaded = false) ∧ (s.hub.mg.romHold = false) ∧ (s.hub.pw.state = .exiting) ∧ (s.hub.copyGood = false) ∧
      (x = (s.hub.lintRec lintCopy 3 [] true).toRun)) ∧
    (∃ (h : Hub) (s : Nat) (g : Hub), (g = h.modMg (fun m => { m with running := s })) ∧ ((h.fw s).state = 4) ∧ ((h.fw s).tries = 0)) ∧
    (∃ (h : Hub) (s : Nat) (g : Hub), (g = h.modMg (fun m => { m with running := s })) ∧ ((h.fw s).state ≠ 4) ∧ (g.fwPasses s = false)) ∧
    (∃ (h : Hub) (s : Nat) (g : Hub), (g = h.modMg (fun m => { m with running := s })) ∧ ((h.fw s).state = 3) ∧ (g.fwPasses s = true)) ∧
    (∃ (h : Hub) (s : Nat) (g : Hub), (g = h.modMg (fun m => { m with running := s })) ∧ ((h.fw s).state = 4) ∧ 0 < (h.fw s).tries ∧ (g.fwPasses s = true)) ∧
    (∃ (h : Hub) (s : Nat) (g : Hub), (g = h.modMg (fun m => { m with running := s })) ∧ ((h.fw s).state ≠ 3) ∧ ((h.fw s).state ≠ 4) ∧ (g.fwPasses s = true)) ∧
    (∃ (s : State), (s.hub.mg.loaded = false ∨ s.hub.mg.ready = true)) ∧
    (∃ (s : State), (s.hub.mg.loaded = true) ∧ (s.hub.mg.ready = false) ∧ (s.hub.pw.state = .run)) ∧
    (∃ (s : State) (x : Hub), (s.hub.mg.loaded = true) ∧ (s.hub.mg.ready = false) ∧ (s.hub.pw.state = .exiting) ∧ (x = s.hub.within (s.hub.mg.startAt + ms 18)) ∧
      (x.pw.resetDue = none)) ∧
    (∃ (s : State) (x : Hub) (c : Nat), (s.hub.mg.loaded = true) ∧ (s.hub.mg.ready = false) ∧ (s.hub.pw.state = .exiting) ∧ (x = s.hub.within (s.hub.mg.startAt + ms 18)) ∧
      (x.pw.resetDue = some c)) ∧
    (∃ (s : State), (s.hub.mg.ready = false ∨ s.hub.mg.full = true)) ∧
    (∃ (s : State) (x y : Hub), (s.hub.mg.ready = true) ∧ (s.hub.mg.full = false) ∧
      (y = ((if s.hub.mg.guarded then s.hub else s.hub.within (s.hub.mg.startAt + ms 120)).guardStart.within (s.hub.mg.startAt + ms 400)).deRecheck) ∧
      (x = y.modMg (fun m => { m with full := true, fullAt := y.clk.up }))) ∧
    (∃ (s : State) (pc : Nat) (x : Hub), (s.hub.mg.wdtArmed = true) ∧ ((s.hub.island 10).clock = true) ∧
      (x = ((s.hub.lintRec Ev.watchdog.code Ev.watchdog.severity (fields 16 [(8, 8, pc)]) true).deliver .watchdog Ev.watchdog.severity 0 (fields 16 [(8, 8, pc)])).bump P.MG_WDT_RESETS 0)) ∧
    (∃ (s : State) (pc : Nat), (s.hub.mg.wdtArmed = false ∨ (s.hub.island 10).clock = false)) ∧
    (∃ (s : State) (x : Hub), (s.hub.mg.ready = true) ∧ (s.hub.mg.dirty = true) ∧ (s.hub.onVback = false) ∧ (x = s.hub.until (s.hub.mg.storedAt + ms 1000))) ∧
    (∃ (s : State), (s.hub.mg.ready = false ∨ s.hub.mg.dirty = false ∨ s.hub.onVback = true)) :=
  ⟨⟨W.on id, by left; decide +kernel⟩,
   ⟨W.on (fun h => let h : Hub := { h with mg := { h.mg with loaded := false } }; let h : Hub := { h with mg := { h.mg with romHold := false } }; let h : Hub := { h with pw := { h.pw with state := .run } }; let h : Hub := { h with clk := { h.clk with up := 2000000 } }; let h : Hub := { h with mg := { h.mg with startAt := 0 } }; let h : Hub := { h with straps := 32 }; h),
    _, _, by decide +kernel, by decide +kernel, by decide +kernel, rfl, by decide +kernel, rfl⟩,
   ⟨W.on (fun h => let h : Hub := { h with mg := { h.mg with loaded := false } }; let h : Hub := { h with mg := { h.mg with romHold := false } }; let h : Hub := { h with pw := { h.pw with state := .run } }; let h : Hub := { h with clk := { h.clk with up := 2000000 } }; let h : Hub := { h with straps := 64 }; let h := h.modFw 1 (fun y => { y with good := false }); h),
    _, by decide +kernel, by decide +kernel, by decide +kernel, rfl, by decide +kernel⟩,
   ⟨(W.on id).hub, _, rfl⟩,
   ⟨W.on (fun h => let h : Hub := { h with mg := { h.mg with loaded := false } }; let h : Hub := { h with mg := { h.mg with romHold := false } }; let h : Hub := { h with pw := { h.pw with state := .exiting } }; h),
    by decide +kernel⟩,
   ⟨W.on (fun h => let h : Hub := { h with mg := { h.mg with loaded := false } }; let h : Hub := { h with pw := { h.pw with state := PState.exiting } }; let h := h.modFw h.mg.running (fun y => { y with good := false, image := [1#8] }); let h : Hub := { h with mg := { h.mg with mImage := [] } }; h),
    _, by decide +kernel, by decide +kernel, by decide +kernel, (by decide +kernel), rfl⟩,
   ⟨(W.on (fun h => let h := h.modFw 1 (fun y => { y with state := 4, tries := 0, good := true }); let h := h.modFw 1 (fun y => { y with head := List.replicate 200 0#8 }); h)).hub,
    1, _, rfl, by decide +kernel⟩,
   ⟨(W.on (fun h => let h := h.modFw 1 (fun y => { y with state := 2, tries := 0, good := false }); let h := h.modFw 1 (fun y => { y with head := List.replicate 200 0#8 }); h)).hub,
    1, _, rfl, by decide +kernel⟩,
   ⟨(W.on (fun h => let h := h.modFw 1 (fun y => { y with state := 3, tries := 0, good := true }); let h := h.modFw 1 (fun y => { y with head := List.replicate 200 0#8 }); h)).hub,
    1, _, rfl, by decide +kernel⟩,
   ⟨(W.on (fun h => let h := h.modFw 1 (fun y => { y with state := 4, tries := 1, good := true }); let h := h.modFw 1 (fun y => { y with head := List.replicate 200 0#8 }); h)).hub,
    1, _, rfl, by decide +kernel⟩,
   ⟨(W.on (fun h => let h := h.modFw 1 (fun y => { y with state := 2, tries := 0, good := true }); let h := h.modFw 1 (fun y => { y with head := List.replicate 200 0#8 }); h)).hub,
    1, _, rfl, by decide +kernel⟩,
   ⟨W.on (fun h => let h : Hub := { h with mg := { h.mg with loaded := false } }; h), by left; decide +kernel⟩,
   ⟨W.on (fun h => let h : Hub := { h with mg := { h.mg with loaded := true } }; let h : Hub := { h with mg := { h.mg with ready := false } }; let h : Hub := { h with pw := { h.pw with state := .run } }; h),
    by decide +kernel⟩,
   ⟨W.on (fun h => let h : Hub := { h with mg := { h.mg with loaded := true } }; let h : Hub := { h with mg := { h.mg with ready := false } }; let h : Hub := { h with pw := { h.pw with state := PState.exiting } }; let h : Hub := { h with clk := { h.clk with up := 10 ^ 9 } }; let h : Hub := { h with mg := { h.mg with startAt := 0 } }; let h : Hub := { h with pw := { h.pw with resetDue := none } }; h),
    _, by decide +kernel, by decide +kernel, by decide +kernel, rfl, by decide +kernel⟩,
   ⟨W.on (fun h => let h : Hub := { h with mg := { h.mg with loaded := true } }; let h : Hub := { h with mg := { h.mg with ready := false } }; let h : Hub := { h with pw := { h.pw with state := PState.exiting } }; let h : Hub := { h with clk := { h.clk with up := 10 ^ 9 } }; let h : Hub := { h with mg := { h.mg with startAt := 0 } }; let h : Hub := { h with pw := { h.pw with resetDue := some 9 } }; h),
    _, 9, by decide +kernel, by decide +kernel, by decide +kernel, rfl, by decide +kernel⟩,
   ⟨W.on (fun h => let h : Hub := { h with mg := { h.mg with ready := false } }; h), by left; decide +kernel⟩,
   ⟨W.on (fun h => let h : Hub := { h with mg := { h.mg with ready := true } }; let h : Hub := { h with mg := { h.mg with full := false } }; h),
    _, _, by decide +kernel, by decide +kernel, rfl, rfl⟩,
   ⟨W.on (fun h => let h : Hub := { h with mg := { h.mg with wdtArmed := true } }; let h := h.modIsland 10 (fun y => { y with clock := true }); h),
    0, _, by decide +kernel, by decide +kernel, rfl⟩,
   ⟨W.on (fun h => let h : Hub := { h with mg := { h.mg with wdtArmed := false } }; h), 0, by left; decide +kernel⟩,
   ⟨W.on (fun h => let h : Hub := { h with mg := { h.mg with ready := true } }; let h : Hub := { h with mg := { h.mg with dirty := true } }; h),
    _, by decide +kernel, by decide +kernel, by decide +kernel, rfl⟩,
   ⟨W.on (fun h => let h : Hub := { h with mg := { h.mg with ready := false } }; h), by left; decide +kernel⟩⟩

/-- States and operands that meet the hypotheses of `Obligations.FirmwareIsStagedAndActivated`, clause by clause. -/
theorem test_witness_FirmwareIsStagedAndActivated :
    (∃ (s : State) (q : Req) (a : Hub), (s.hub.asks q 0x0701 = true) ∧ (a = s.hub.asked q 0x0701) ∧ (q.payload.length ≠ 204)) ∧
    (∃ (s : State) (q : Req) (a : Hub), (s.hub.asks q 0x0701 = true) ∧ (a = s.hub.asked q 0x0701) ∧ (q.payload.length = 204) ∧ (a.onVback = true)) ∧
    (∃ (s : State) (q : Req) (a : Hub), (s.hub.asks q 0x0701 = true) ∧ (a = s.hub.asked q 0x0701) ∧ (q.payload.length = 204) ∧ (a.onVback = false) ∧ 2 < le q.payload 0 1) ∧
    (∃ (s : State) (q : Req) (a : Hub), (s.hub.asks q 0x0701 = true) ∧ (a = s.hub.asked q 0x0701) ∧ (q.payload.length = 204) ∧ (a.onVback = false) ∧ le q.payload 0 1 ≤ 2 ∧
      ((le q.payload 0 1 = a.mg.running ∧ a.mg.romHold = false) ∨ (a.fw (le q.payload 0 1)).state = 3 ∨ a.ky.hold = true)) ∧
    (∃ (s : State) (q : Req) (a : Hub) (s0 : Nat) (b : List Byte) (x : Hub × Reply),
      (s.hub.asks q 0x0701 = true) ∧ (a = s.hub.asked q 0x0701) ∧ (q.payload.length = 204) ∧ (a.onVback = false) ∧ (s0 = le q.payload 0 1) ∧
      s0 < 2 ∧ (s0 ≠ a.mg.running) ∧ ((a.fw s0).state ≠ 3) ∧ (a.ky.hold = false) ∧ (a.mg.staging = none) ∧ (le q.payload 1 3 = 0) ∧
      (b = q.payload.drop 4) ∧
      (x = (if fwFormat s0 b = false then (a, Reply.err .badParam) else if (!(slice b 16 16 == deviceId || allZero (slice b 16 16)) || sha384 (pkgSigner b) != beBytes 48 Config.firmwareAuthority.toNat) = true then (a, Reply.err .authFail) else if imgCounter b < a.floorOf then (a, Reply.err .replay) else (((if (a.fw s0).state = 1 then a.modFw s0 (fun x => { x with image := [] }) else a).modMg (fun m => { m with staging := some (s0, (if (a.fw s0).state = 1 then a.modFw s0 (fun x => { x with image := [] }) else a).clk.up), stageHead := b })), Reply.ok [])))) ∧
    (∃ (s : State) (q : Req) (a : Hub), (s.hub.asks q 0x0701 = true) ∧ (a = s.hub.asked q 0x0701) ∧ (q.payload.length = 204) ∧ (a.onVback = false) ∧ le q.payload 0 1 < 2 ∧
      (le q.payload 0 1 ≠ a.mg.running) ∧ ((a.fw (le q.payload 0 1)).state ≠ 3) ∧ (a.ky.hold = false) ∧ (a.mg.staging ≠ none)) ∧
    (∃ (s : State) (q : Req) (a : Hub) (s0 t : Nat) (d : List Byte), (s.hub.asks q 0x0702 = true) ∧ (a = s.hub.asked q 0x0702) ∧ (d = q.payload.drop 4) ∧ (d ≠ []) ∧ d.length ≤ 4072 ∧
      (a.mg.staging = some (s0, t)) ∧ (a.onVback = false) ∧ a.ctl.ops.length < 16) ∧
    (∃ (s : State) (q : Req) (a : Hub), (s.hub.asks q 0x0702 = true) ∧ (a = s.hub.asked q 0x0702) ∧ (a.mg.staging = none) ∧ (q.payload.drop 4 ≠ []) ∧
      (q.payload.drop 4).length ≤ 4072) ∧
    (∃ (h : Hub) (token s0 t : Nat) (p d : List Byte), (h.mg.staging = some (s0, t)) ∧ (d = p.drop 4)) ∧
    (∃ (s : State) (q : Req) (a : Hub) (s0 t : Nat), (s.hub.asks q 0x0703 = true) ∧ (a = s.hub.asked q 0x0703) ∧ (q.payload.length = 96) ∧ (a.mg.staging = some (s0, t)) ∧
      (a.staged s0 = imgLength a.mg.stageHead) ∧ a.ctl.ops.length < 16 ∧ (a.onVback = false)) ∧
    (∃ (s : State) (q : Req) (a : Hub) (s0 t : Nat), (s.hub.asks q 0x0703 = true) ∧ (a = s.hub.asked q 0x0703) ∧ (q.payload.length = 96) ∧ (a.mg.staging = some (s0, t)) ∧
      (a.staged s0 ≠ imgLength a.mg.stageHead) ∧ (a.onVback = false)) ∧
    (∃ (s : State) (q : Req) (a : Hub), (s.hub.asks q 0x0703 = true) ∧ (a = s.hub.asked q 0x0703) ∧ (q.payload.length = 96) ∧ (a.onVback = true)) ∧
    (∃ (s : State), (s.hub.mg.staging = none)) ∧
    (∃ (s : State) (s0 t : Nat) (x : Hub), (s.hub.mg.staging = some (s0, t)) ∧ (s.hub.ctl.ops = []) ∧ (x = s.hub.until (t + ms (s.hub.pget P.MG_TXN_TIMEOUT 0)))) ∧
    (∃ (s : State) (q : Req) (a : Hub), (s.hub.asks (force q 1 0) 0x0704 = true) ∧ (a = s.hub.asked (force q 1 0) 0x0704) ∧ (q.payload.length = 12) ∧ (le q.payload 2 2 = 0) ∧
      le q.payload 0 1 ≤ 2 ∧ (a.onVback = false) ∧ ((a.fw (le q.payload 0 1)).state = 2) ∧
      (∀ k, k ∈ [0, 1, 2] → k ≠ le q.payload 0 1 → (a.fw k).state ≠ 3) ∧ (a.stagingAt (le q.payload 0 1) = false)) ∧
    (∃ (s : State) (q : Req) (a : Hub), (s.hub.asks (force q 1 1) 0x0704 = true) ∧ (a = s.hub.asked (force q 1 1) 0x0704) ∧ (q.payload.length = 12) ∧ (le q.payload 2 2 = 0) ∧
      le q.payload 0 1 ≤ 2 ∧ (a.onVback = false) ∧ ((a.fw (le q.payload 0 1)).state = 2) ∧
      (∀ k, k ∈ [0, 1, 2] → k ≠ le q.payload 0 1 → (a.fw k).state ≠ 3) ∧ (a.stagingAt (le q.payload 0 1) = false)) ∧
    (∃ (s : State) (q : Req) (a : Hub), (s.hub.asks (force q 1 2) 0x0704 = true) ∧ (a = s.hub.asked (force q 1 2) 0x0704) ∧ (q.payload.length = 12) ∧ (le q.payload 2 2 = 0) ∧
      le q.payload 0 1 ≤ 2 ∧ (a.onVback = false) ∧ ((a.fw (le q.payload 0 1)).state = 2) ∧
      (∀ k, k ∈ [0, 1, 2] → k ≠ le q.payload 0 1 → (a.fw k).state ≠ 3) ∧ (a.stagingAt (le q.payload 0 1) = false) ∧
      a.clk.ns + us 100 ≤ le q.payload 4 8 ∧ le q.payload 4 8 ≤ a.clk.ns + 60000000000) ∧
    (∃ (s : State) (q : Req) (a : Hub), (s.hub.asks (force q 1 2) 0x0704 = true) ∧ (a = s.hub.asked (force q 1 2) 0x0704) ∧ (q.payload.length = 12) ∧ (le q.payload 2 2 = 0) ∧
      le q.payload 0 1 ≤ 2 ∧ (a.onVback = false) ∧ ((a.fw (le q.payload 0 1)).state = 2) ∧
      (∀ k, k ∈ [0, 1, 2] → k ≠ le q.payload 0 1 → (a.fw k).state ≠ 3) ∧ (a.stagingAt (le q.payload 0 1) = false) ∧
      le q.payload 4 8 < a.clk.ns + us 100) ∧
    (∃ (s : State) (q : Req) (a : Hub), (s.hub.asks (force q 1 0) 0x0704 = true) ∧ (a = s.hub.asked (force q 1 0) 0x0704) ∧ (q.payload.length = 12) ∧ (le q.payload 2 2 = 0) ∧
      le q.payload 0 1 ≤ 2 ∧ (a.onVback = false) ∧ ((a.fw (le q.payload 0 1)).state ≠ 2 ∨ a.stagingAt (le q.payload 0 1) = true)) ∧
    (∃ (s : State) (q : Req) (a : Hub), (s.hub.asks (force q 1 1) 0x0704 = true) ∧ (a = s.hub.asked (force q 1 1) 0x0704) ∧ (q.payload.length = 12) ∧ (le q.payload 2 2 = 0) ∧
      le q.payload 0 1 ≤ 2 ∧ (a.onVback = false) ∧ ((a.fw (le q.payload 0 1)).state ≠ 2 ∨ a.stagingAt (le q.payload 0 1) = true)) ∧
    (∃ (s : State) (q : Req) (a : Hub), (s.hub.asks (force q 1 2) 0x0704 = true) ∧ (a = s.hub.asked (force q 1 2) 0x0704) ∧ (q.payload.length = 12) ∧ (le q.payload 2 2 = 0) ∧
      le q.payload 0 1 ≤ 2 ∧ (a.onVback = false) ∧ ((a.fw (le q.payload 0 1)).state ≠ 2 ∨ a.stagingAt (le q.payload 0 1) = true)) ∧
    (∃ (s : State) (q : Req) (a : Hub), (s.hub.asks (force q 1 3) 0x0704 = true) ∧ (a = s.hub.asked (force q 1 3) 0x0704) ∧ (q.payload.length = 12) ∧ (le q.payload 2 2 = 0) ∧
      le q.payload 0 1 ≤ 2 ∧ ((a.fw a.mg.running).state = 4)) ∧
    (∃ (s : State) (q : Req) (a : Hub), (s.hub.asks (force q 1 3) 0x0704 = true) ∧ (a = s.hub.asked (force q 1 3) 0x0704) ∧ (q.payload.length = 12) ∧ (le q.payload 2 2 = 0) ∧
      le q.payload 0 1 ≤ 2 ∧ ((a.fw a.mg.running).state ≠ 4)) ∧
    (∃ (s : State) (q : Req) (a : Hub), (s.hub.asks (force q 1 4) 0x0704 = true) ∧ (a = s.hub.asked (force q 1 4) 0x0704) ∧ (q.payload.length = 12) ∧ (le q.payload 2 2 = 0) ∧
      le q.payload 0 1 ≤ 2 ∧ (a.onVback = false) ∧ ((a.fw a.mg.running).state = 5)) ∧
    (∃ (s : State) (q : Req) (a : Hub), (s.hub.asks (force q 1 4) 0x0704 = true) ∧ (a = s.hub.asked (force q 1 4) 0x0704) ∧ (q.payload.length = 12) ∧ (le q.payload 2 2 = 0) ∧
      le q.payload 0 1 ≤ 2 ∧ (a.onVback = false) ∧ ((a.fw a.mg.running).state ≠ 5)) ∧
    (∃ (s : State) (q : Req) (a : Hub), (s.hub.asks (force q 1 5) 0x0704 = true) ∧ (a = s.hub.asked (force q 1 5) 0x0704) ∧ (q.payload.length = 12) ∧ (le q.payload 2 2 = 0) ∧
      le q.payload 0 1 ≤ 2 ∧ ((a.fw (le q.payload 0 1)).state = 3)) ∧
    (∃ (s : State) (q : Req) (a : Hub), (s.hub.asks (force q 1 5) 0x0704 = true) ∧ (a = s.hub.asked (force q 1 5) 0x0704) ∧ (q.payload.length = 12) ∧ (le q.payload 2 2 = 0) ∧
      le q.payload 0 1 ≤ 2 ∧ ((a.fw (le q.payload 0 1)).state ≠ 3)) ∧
    (∃ (s : State) (k : Nat) (x y : Hub),
      ([0, 1, 2].find? (fun k => (s.hub.fw k).state == 3 && (s.hub.fw k).time != 0) = some k) ∧
      (x = s.hub.modFw k (fun x => { x with time := 0 })) ∧ (s.hub.pw.state = .run ∨ s.hub.pw.state = .doze) ∧
      (y = x.untilLine (boundaryAt (s.hub.fw k).time))) ∧
    (∃ (s : State), ([0, 1, 2].find? (fun k => (s.hub.fw k).state == 3 && (s.hub.fw k).time != 0) = none)) ∧
    (∃ (s : State), (s.hub.pget P.MG_FW_CONFIRM_TIME 0 ≠ 0) ∧ (s.hub.mg.full = true) ∧ ((s.hub.fw s.hub.mg.running).state = 4)) ∧
    (∃ (s : State),
      (s.hub.pget P.MG_FW_CONFIRM_TIME 0 = 0 ∨ s.hub.mg.full = false ∨ (s.hub.fw s.hub.mg.running).state ≠ 4)) ∧
    (∃ (s : State) (q : Req) (a : Hub), (s.hub.asks q 0x0705 = true) ∧ (a = s.hub.asked q 0x0705) ∧ (q.payload = [])) :=
  ⟨⟨W.on id, (W.q [] 3 0), _, by decide +kernel, rfl, by decide +kernel⟩,
   ⟨W.on (fun h => let h : Hub := { h with su := { h.su with inUse := 1 } }; h), (W.q (List.replicate 204 0#8) 3 0), _, by decide +kernel, rfl,
    by decide +kernel⟩,
   ⟨W.on id,
    (W.q ([3#8] ++ W.z 203) 3 0),
    _, by decide +kernel, rfl, by decide +kernel⟩,
   ⟨W.on (fun h => let h : Hub := { h with mg := { h.mg with running := 0 } }; let h : Hub := { h with mg := { h.mg with romHold := false } }; h),
    (W.q (List.replicate 204 0#8) 3 0), _, by decide +kernel, rfl, by decide +kernel⟩,
   ⟨W.on (fun h => let h : Hub := { h with ky := { h.ky with hold := false } }; let h : Hub := { h with mg := { h.mg with staging := none } }; let h : Hub := { h with mg := { h.mg with running := 0 } }; h),
    (W.q ([1#8] ++ W.z 203) 3 0),
    _, _, _, _, by decide +kernel, rfl, by decide +kernel, by decide +kernel, rfl, by decide +kernel, by decide +kernel, by decide +kernel,
    (by decide +kernel), by decide +kernel, by decide +kernel, rfl, rfl⟩,
   ⟨W.on (fun h => let h : Hub := { h with mg := { h.mg with running := 0 } }; let h : Hub := { h with mg := { h.mg with staging := some (1, 0) } }; h),
    (W.q ([1#8] ++ W.z 203) 3 0),
    _, by decide +kernel, rfl, by decide +kernel⟩,
   ⟨W.on (fun h => let h : Hub := { h with mg := { h.mg with staging := some (1, 0) } }; h), (W.q [0#8, 0#8, 0#8, 0#8, 1#8] 3 0), _, 1, 0, _,
    by decide +kernel, rfl, rfl, by decide +kernel⟩,
   ⟨W.on id, (W.q [0#8, 0#8, 0#8, 0#8, 1#8] 3 0), _, by decide +kernel, rfl, by decide +kernel⟩,
   ⟨(W.on (fun h => let h : Hub := { h with mg := { h.mg with staging := some (0, 0) } }; h)).hub, 0, 0, 0, [], _, by decide +kernel, rfl⟩,
   ⟨W.on (fun h => let h : Hub := { h with mg := { h.mg with staging := some (1, 0) } }; h), (W.q (List.replicate 96 0#8) 3 0), _, 1, 0,
    by decide +kernel, rfl, by decide +kernel⟩,
   ⟨W.on (fun h => let h : Hub := { h with mg := { h.mg with staging := some (1, 0) } }; let h : Hub := { h with mg := { h.mg with stageHead := List.replicate 203 1#8 } }; h),
    (W.q (List.replicate 96 0#8) 3 0), _, 1, 0, by decide +kernel, rfl, by decide +kernel⟩,
   ⟨W.on (fun h => let h : Hub := { h with su := { h.su with inUse := 1 } }; h), (W.q (List.replicate 96 0#8) 3 0), _, by decide +kernel, rfl,
    by decide +kernel⟩,
   ⟨W.on (fun h => let h : Hub := { h with mg := { h.mg with staging := none } }; h), by decide +kernel⟩,
   ⟨W.on (fun h => let h : Hub := { h with mg := { h.mg with staging := some (1, 0) } }; h), 1, 0, _, by decide +kernel, by decide +kernel, rfl⟩,
   ⟨W.on (fun h => let h := h.modFw 1 (fun y => { y with state := 2 }); h),
    (W.q ([1#8] ++ W.z 11) 3 0), _, by decide +kernel, rfl, by decide +kernel⟩,
   ⟨W.on (fun h => let h := h.modFw 1 (fun y => { y with state := 2 }); h),
    (W.q ([1#8] ++ W.z 11) 3 0), _, by decide +kernel, rfl, by decide +kernel⟩,
   ⟨W.on (fun h => let h := h.modFw 1 (fun y => { y with state := 2 }); h),
    (W.q [1#8, 0#8, 0#8, 0#8, 0#8, 202#8, 154#8, 59#8, 0#8, 0#8, 0#8, 0#8] 3 0), _, by decide +kernel, rfl, by decide +kernel⟩,
   ⟨W.on (fun h => let h := h.modFw 1 (fun y => { y with state := 2 }); h),
    (W.q ([1#8] ++ W.z 11) 3 0), _, by decide +kernel, rfl, by decide +kernel⟩,
   ⟨W.on (fun h => let h := h.modFw 1 (fun y => { y with state := 1 }); h),
    (W.q ([1#8] ++ W.z 11) 3 0), _, by decide +kernel, rfl, by decide +kernel,
    by decide +kernel, by decide +kernel, (by decide +kernel), by left; decide +kernel⟩,
   ⟨W.on (fun h => let h := h.modFw 1 (fun y => { y with state := 1 }); h),
    (W.q ([1#8] ++ W.z 11) 3 0), _, by decide +kernel, rfl, by decide +kernel,
    by decide +kernel, by decide +kernel, (by decide +kernel), by left; decide +kernel⟩,
   ⟨W.on (fun h => let h := h.modFw 1 (fun y => { y with state := 1 }); h),
    (W.q ([1#8] ++ W.z 11) 3 0), _, by decide +kernel, rfl, by decide +kernel,
    by decide +kernel, by decide +kernel, (by decide +kernel), by left; decide +kernel⟩,
   ⟨W.on (fun h => let h := h.modFw 0 (fun y => { y with state := 4 }); h),
    (W.q ([1#8] ++ W.z 11) 3 0), _, by decide +kernel, rfl, by decide +kernel⟩,
   ⟨W.on id, (W.q (W.z 12) 3 0), _, by decide +kernel, rfl, by decide +kernel⟩,
   ⟨W.on id, (W.q (W.z 12) 3 0), _, by decide +kernel, rfl, by decide +kernel⟩,
   ⟨W.on (fun h => let h := h.modFw 0 (fun y => { y with state := 2 }); h),
    (W.q ([1#8] ++ W.z 11) 3 0), _, by decide +kernel, rfl, by decide +kernel⟩,
   ⟨W.on (fun h => let h := h.modFw 1 (fun y => { y with state := 3, time := 5000000 }); h),
    (W.q ([1#8] ++ W.z 11) 3 0), _, by decide +kernel, rfl, by decide +kernel⟩,
   ⟨W.on id, (W.q (W.z 12) 3 0), _, by decide +kernel, rfl, by decide +kernel⟩,
   ⟨W.on (fun h => let h := h.modFw 1 (fun y => { y with state := 3, time := 5000000 }); h), 1, _, _, by decide +kernel, rfl,
    by left; decide +kernel, rfl⟩,
   ⟨W.on id, by decide +kernel⟩,
   ⟨W.on (fun h => let h := h.modFw h.mg.running (fun y => { y with state := 4 }); let h : Hub := { h with mg := { h.mg with full := true } }; h),
    by decide +kernel⟩,
   ⟨W.on (fun h => let h := h.pset P.MG_FW_CONFIRM_TIME 0 0; h), by left; decide +kernel⟩,
   ⟨W.on id, (W.q [] 3 0), _, by decide +kernel, rfl, by decide +kernel⟩⟩

/-- States and operands that meet the hypotheses of `Obligations.SensorsAndTheLintLogAreRead`, clause by clause. -/
theorem test_witness_SensorsAndTheLintLogAreRead :
    (∃ (s : State) (kind idx : Nat) (v : Int), (2 < kind ∨ sensorCount kind ≤ idx)) ∧
    (∃ (s : State) (kind idx : Nat) (v : Int), 1 ≤ kind ∧ kind ≤ 2 ∧ idx < sensorCount kind ∧ (2 ≤ idx ∧ (kind = 2 → 5 ≤ idx))) ∧
    (∃ (s : State) (kind idx : Nat) (v : Int), 1 ≤ kind ∧ kind ≤ 2 ∧ idx < sensorCount kind ∧ (kind = 1 ∧ idx < 2)) ∧
    (∃ (s : State) (kind idx : Nat) (v : Int), 1 ≤ kind ∧ kind ≤ 2 ∧ idx < sensorCount kind ∧ (kind = 2 ∧ idx < 5)) ∧
    (∃ (s : State) (idx : Nat) (v : Int), idx < 23 ∧ (s.hub.pw.state ≠ .rest) ∧ (s.hub.pw.state ≠ .thermalOff)) ∧
    (∃ (s : State) (idx : Nat) (v : Int), idx < 23 ∧ (s.hub.pw.state = .rest ∨ s.hub.pw.state = .thermalOff)) ∧
    (∃ (s : State) (v : Int) (x : Hub), (x = s.hub.sampleTemp 23 v) ∧ (x.pw.state = .thermalOff)) ∧
    (∃ (s : State) (v : Int) (x : Hub), (x = s.hub.sampleTemp 23 v) ∧ (x.pw.state ≠ .thermalOff)) ∧
    (∃ (h g : Hub),
      (g = (if bit h.ky.alarms 4 then (if h.temps.all (fun x => decide (x < 155000)) then h.tamperEnd 4 else h) else if h.temps.any (fun x => decide (160000 ≤ x)) then h.tamperSeen 4 else h))) ∧
    (∃ (h : Hub) (idx : Nat) (v : Int), 20 ≤ idx ∧ ((v < -60000 ∨ 200000 < v)) ∧ ((h.sensor 0 idx).fault = false) ∧ ((h.sensor 0 idx).valid = false)) ∧
    (∃ (h : Hub) (idx : Nat) (v : Int), 20 ≤ idx ∧ -60000 ≤ v ∧ v ≤ 200000 ∧ ((h.sensor 0 idx).fault = false) ∧ ((h.sensor 0 idx).valid = false)) ∧
    (∃ (s : State) (q : Req) (a : Hub), (s.hub.asks q 0x0A03 = true) ∧ (a = s.hub.asked q 0x0A03) ∧ (q.payload.length = 4) ∧ (le q.payload 3 1 = 0) ∧ le q.payload 0 1 ≤ 2 ∧
      1 ≤ le q.payload 2 1 ∧ le q.payload 2 1 ≤ 24 ∧ le q.payload 1 1 + le q.payload 2 1 ≤ sensorCount (le q.payload 0 1)) ∧
    (∃ (s : State) (q : Req) (a : Hub), (s.hub.asks q 0x0A03 = true) ∧ (a = s.hub.asked q 0x0A03) ∧ (q.payload.length = 4) ∧ (le q.payload 3 1 = 0) ∧
      (2 < le q.payload 0 1 ∨ le q.payload 2 1 = 0 ∨ sensorCount (le q.payload 0 1) < le q.payload 1 1 + le q.payload 2 1)) ∧
    (∃ (s : State) (q : Req) (a : Hub) (rs : List LintRec), (s.hub.asks q 0x0A01 = true) ∧ (a = s.hub.asked q 0x0A01) ∧ (q.payload.length = 8) ∧ (le q.payload 7 1 = 0) ∧ le q.payload 6 1 ≤ 3 ∧
      1 ≤ le q.payload 4 2 ∧ le q.payload 4 2 ≤ 127 ∧
      (rs = (((a.lint.copy (le q.payload 6 1)).filter (fun x => (x.seq + 2 ^ 32 - le q.payload 0 4) % 2 ^ 32 < 2 ^ 31)).reverse).take (le q.payload 4 2))) ∧
    (∃ (s : State) (q : Req) (a : Hub), (s.hub.asks q 0x0A01 = true) ∧ (a = s.hub.asked q 0x0A01) ∧ (q.payload.length = 8) ∧ (le q.payload 7 1 = 0) ∧ le q.payload 6 1 ≤ 3 ∧
      (le q.payload 4 2 = 0 ∨ 127 < le q.payload 4 2)) ∧
    (∃ (s : State) (q : Req) (a : Hub) (t : Nat), (s.hub.asks q 0x0A02 = true) ∧ (a = s.hub.asked q 0x0A02) ∧ (q.payload.length = 4) ∧ (le q.payload 1 3 = 0) ∧ (t = le q.payload 0 1) ∧
      (t &&& 0xF2 = 0) ∧ (bit t 3 = false ∨ a.onVback = false)) ∧
    (∃ (s : State) (q : Req) (a : Hub) (t : Nat), (s.hub.asks q 0x0A02 = true) ∧ (a = s.hub.asked q 0x0A02) ∧ (q.payload.length = 4) ∧ (le q.payload 1 3 = 0) ∧ (t = le q.payload 0 1) ∧
      (t &&& 0xF2 = 0) ∧ (bit t 3 = true) ∧ (a.onVback = true)) ∧
    (∃ (s : State), (s.hub.lint.queue = [])) ∧
    (∃ (s : State) (r : LintRec) (rest : List LintRec), (s.hub.lint.queue = r :: rest) ∧ (s.hub.onVback = true ∨ s.hub.mg.ready = false)) ∧
    (∃ (s : State) (r : LintRec) (rest : List LintRec) (n : Nat), (s.hub.lint.queue = r :: rest) ∧ (s.hub.onVback = false) ∧ (s.hub.mg.ready = true) ∧
      (n = (if s.hub.lint.second = s.hub.clk.up / 1000000000 then s.hub.lint.written else 0)) ∧ n < s.hub.pget P.MG_LOG_FLASH_RATE 0) ∧
    (∃ (s : State) (r : LintRec) (rest : List LintRec) (n : Nat), (s.hub.lint.queue = r :: rest) ∧ (s.hub.onVback = false) ∧ (s.hub.mg.ready = true) ∧
      (n = (if s.hub.lint.second = s.hub.clk.up / 1000000000 then s.hub.lint.written else 0)) ∧ s.hub.pget P.MG_LOG_FLASH_RATE 0 ≤ n) :=
  ⟨⟨W.on id, 3, 0, 0, by left; decide +kernel⟩,
   ⟨W.on id, 2, 5, 0, by decide +kernel⟩,
   ⟨W.on id, 1, 1, 0, by decide +kernel⟩,
   ⟨W.on id, 2, 0, 0, by decide +kernel⟩,
   ⟨W.on id, 22, 0, by decide +kernel⟩,
   ⟨W.on (fun h => let h : Hub := { h with pw := { h.pw with state := PState.rest } }; h), 22, 0, by decide +kernel, by left; decide +kernel⟩,
   ⟨W.on (fun h => let h : Hub := { h with pw := { h.pw with state := .thermalOff } }; h), 0, _, rfl, by decide +kernel⟩,
   ⟨W.on id, 0, _, rfl, by decide +kernel⟩,
   ⟨(W.on id).hub, _, rfl⟩,
   ⟨(W.on id).hub, 20, 200001, by decide +kernel⟩,
   ⟨(W.on id).hub, 20, 25000, by decide +kernel⟩,
   ⟨W.on id, (W.q [0#8, 0#8, 1#8, 0#8] 3 0), _, by decide +kernel, rfl, by decide +kernel⟩,
   ⟨W.on id, (W.q [0#8, 0#8, 0#8, 0#8] 3 0), _, by decide +kernel, rfl, by decide +kernel⟩,
   ⟨W.on id, (W.q [0#8, 0#8, 0#8, 0#8, 1#8, 0#8, 0#8, 0#8] 3 0), _, _, by decide +kernel, rfl, by decide +kernel, by decide +kernel,
    by decide +kernel, (by decide +kernel), by decide +kernel, rfl⟩,
   ⟨W.on id, (W.q (W.z 8) 3 0), _, by decide +kernel, rfl, by decide +kernel⟩,
   ⟨W.on id, (W.q [0#8, 0#8, 0#8, 0#8] 3 0), _, _, by decide +kernel, rfl, by decide +kernel, by decide +kernel, rfl, by decide +kernel⟩,
   ⟨W.on (fun h => let h : Hub := { h with su := { h.su with inUse := 1 } }; h), (W.q [8#8, 0#8, 0#8, 0#8] 3 0), _, _, by decide +kernel, rfl,
    by decide +kernel, by decide +kernel, rfl, by decide +kernel⟩,
   ⟨W.on (fun h => let h : Hub := { h with lint := { h.lint with queue := [] } }; h), by decide +kernel⟩,
   ⟨W.on (fun h => let h : Hub := { h with lint := { h.lint with queue := [⟨0, 0, 0, false, false, false, 0, []⟩] } }; let h : Hub := { h with mg := { h.mg with ready := false } }; h),
    ⟨0, 0, 0, false, false, false, 0, []⟩, [], by decide +kernel, by right; decide +kernel⟩,
   ⟨W.on (fun h => let h : Hub := { h with lint := { h.lint with queue := (⟨0, 0, 0, false, false, false, 0, []⟩) :: [] } }; let h : Hub := { h with mg := { h.mg with ready := true } }; h),
    ⟨0, 0, 0, false, false, false, 0, []⟩, [], _, by decide +kernel, by decide +kernel, by decide +kernel, rfl, by decide +kernel⟩,
   ⟨W.on (fun h => let h : Hub := { h with lint := { h.lint with queue := [⟨0, 0, 0, false, false, false, 0, []⟩] } }; let h := h.pset P.MG_LOG_FLASH_RATE 0 0; h),
    ⟨0, 0, 0, false, false, false, 0, []⟩, [], _, by decide +kernel, by decide +kernel, by decide +kernel, rfl, by decide +kernel⟩⟩

/-- States and operands that meet the hypotheses of `Obligations.CountersAreSelectedReadAndCleared`, clause by clause. -/
theorem test_witness_CountersAreSelectedReadAndCleared :
    (∃ (s : State) (q : Req) (a : Hub) (id : Nat) (x : Nat × Hub), (s.hub.asks q 0x0901 = true) ∧ (a = s.hub.asked q 0x0901) ∧ (q.payload.length = 4) ∧ (id = le q.payload 0 4) ∧ (validId id = true) ∧
      (x = a.counterRead id)) ∧
    (∃ (s : State) (q : Req) (a : Hub), (s.hub.asks q 0x0901 = true) ∧ (a = s.hub.asked q 0x0901) ∧ (q.payload.length ≠ 4 ∨ validId (le q.payload 0 4) = false)) ∧
    (∃ (s : State) (q : Req) (a : Hub), (s.hub.asks (force q 0 0) 0x0903 = true) ∧ (a = s.hub.asked (force q 0 0) 0x0903) ∧ (q.txn = 0) ∧
      (a.selectRefusal ((force q 0 0)).payload = none)) ∧
    (∃ (s : State) (q : Req) (a : Hub) (t : Status) (d : Nat), (s.hub.asks (force q 0 0) 0x0903 = true) ∧ (a = s.hub.asked (force q 0 0) 0x0903) ∧ (q.txn = 0) ∧
      (a.selectRefusal ((force q 0 0)).payload = some (t, d))) ∧
    (∃ (s : State) (q : Req) (a : Hub), (s.hub.asks (force q 0 1) 0x0903 = true) ∧ (a = s.hub.asked (force q 0 1) 0x0903) ∧ (q.txn = 0) ∧
      (a.selectRefusal ((force q 0 1)).payload = none)) ∧
    (∃ (s : State) (q : Req) (a : Hub) (t : Status) (d : Nat), (s.hub.asks (force q 0 1) 0x0903 = true) ∧ (a = s.hub.asked (force q 0 1) 0x0903) ∧ (q.txn = 0) ∧
      (a.selectRefusal ((force q 0 1)).payload = some (t, d))) ∧
    (∃ (s : State) (q : Req) (a : Hub), (s.hub.asks (force q 0 2) 0x0903 = true) ∧ (a = s.hub.asked (force q 0 2) 0x0903) ∧ (q.txn = 0) ∧
      (a.selectRefusal ((force q 0 2)).payload = none)) ∧
    (∃ (s : State) (q : Req) (a : Hub) (t : Status) (d : Nat), (s.hub.asks (force q 0 2) 0x0903 = true) ∧ (a = s.hub.asked (force q 0 2) 0x0903) ∧ (q.txn = 0) ∧
      (a.selectRefusal ((force q 0 2)).payload = some (t, d))) ∧
    (∃ (h : Hub) (p : List Byte) (id : Nat), (byteAt p 0 = 0)) ∧
    (∃ (h : Hub) (p : List Byte) (id : Nat), (byteAt p 0 = 1)) ∧
    (∃ (h : Hub) (p : List Byte) (id : Nat), (byteAt p 0 = 2)) ∧
    (∃ (s : State) (q : Req) (a : Hub) (x y z : Hub), (s.hub.asks (force q 0 0) 0x0902 = true) ∧ (a = s.hub.asked (force q 0 0) 0x0902) ∧ (q.payload.length = 4 + 4 * le q.payload 2 2) ∧
      1 ≤ le q.payload 2 2 ∧ (byteAt q.payload 1 = 0) ∧
      ((idsAt ((force q 0 0)).payload 4 (le ((force q 0 0)).payload 2 2)).findIdx? (fun i => !validId i) = none) ∧
      ((idsAt ((force q 0 0)).payload 4 (le ((force q 0 0)).payload 2 2)).findIdx? (fun i => groupOf i = 0 && !isCounter (i % 65536)) = none) ∧
      a.ctl.ops.length < 16 ∧ (x = a.withOp q.mb 0x0902 (.bankCheck 2)) ∧
      (y = (idsAt ((force q 0 0)).payload 4 (le ((force q 0 0)).payload 2 2)).foldl Hub.counterZero x) ∧
      (z = (if (idsAt ((force q 0 0)).payload 4 (le ((force q 0 0)).payload 2 2)).length = 1 then y else y.fresh.2.until (y.fresh.2.clk.up + 1 + y.fresh.1 % (ms 5 - 1))))) ∧
    (∃ (s : State) (q : Req) (a : Hub) (i : Nat), (s.hub.asks (force q 0 0) 0x0902 = true) ∧ (a = s.hub.asked (force q 0 0) 0x0902) ∧ (q.payload.length = 4 + 4 * le q.payload 2 2) ∧
      1 ≤ le q.payload 2 2 ∧ (byteAt q.payload 1 = 0) ∧
      ((idsAt ((force q 0 0)).payload 4 (le ((force q 0 0)).payload 2 2)).findIdx? (fun i => !validId i) = some i)) ∧
    (∃ (s : State) (q : Req) (a : Hub) (i : Nat), (s.hub.asks (force q 0 0) 0x0902 = true) ∧ (a = s.hub.asked (force q 0 0) 0x0902) ∧ (q.payload.length = 4 + 4 * le q.payload 2 2) ∧
      1 ≤ le q.payload 2 2 ∧ (byteAt q.payload 1 = 0) ∧
      ((idsAt ((force q 0 0)).payload 4 (le ((force q 0 0)).payload 2 2)).findIdx? (fun i => !validId i) = none) ∧
      ((idsAt ((force q 0 0)).payload 4 (le ((force q 0 0)).payload 2 2)).findIdx? (fun i => groupOf i = 0 && !isCounter (i % 65536)) = some i)) ∧
    (∃ (s : State) (q : Req) (a : Hub) (x y z : Hub), (s.hub.asks (force q 0 1) 0x0902 = true) ∧ (a = s.hub.asked (force q 0 1) 0x0902) ∧ (q.payload.length = 4) ∧ (le q.payload 2 2 = 0) ∧
      byteAt q.payload 1 ≤ 31 ∧ a.ctl.ops.length < 16 ∧ (x = a.withOp q.mb 0x0902 (.bankCheck 2)) ∧
      (y = ([0, 1, 2, 3, 4].filter (bit (byteAt q.payload 1))).foldl Hub.groupZero x) ∧
      (z = y.fresh.2.until (y.fresh.2.clk.up + 1 + y.fresh.1 % (ms 5 - 1)))) ∧
    (∃ (h : Hub) (p k : Nat), p < 10 ∧ k < 24 ∧ (mrising h.ct.events = true)) :=
  ⟨⟨W.on id, (W.q [0#8, 0#8, 0#8, 32#8] 3 0), _, _, _, by decide +kernel, rfl, by decide +kernel, rfl, by decide +kernel, rfl⟩,
   ⟨W.on id, (W.q [] 3 0), _, by decide +kernel, rfl, by decide +kernel⟩,
   ⟨W.on id, (W.q [0#8, 0#8, 1#8, 0#8, 0#8, 0#8, 0#8, 32#8] 3 0), _, by decide +kernel, rfl, by decide +kernel⟩,
   ⟨W.on id, (W.q [] 3 0), _, .badParam, 0, by decide +kernel, rfl, by decide +kernel⟩,
   ⟨W.on id, (W.q [0#8, 0#8, 1#8, 0#8, 0#8, 0#8, 0#8, 32#8] 3 0), _, by decide +kernel, rfl, by decide +kernel⟩,
   ⟨W.on id, (W.q [] 3 0), _, .badParam, 0, by decide +kernel, rfl, by decide +kernel⟩,
   ⟨W.on id, (W.q [0#8, 0#8, 1#8, 0#8, 0#8, 0#8, 0#8, 32#8] 3 0), _, by decide +kernel, rfl, by decide +kernel⟩,
   ⟨W.on id, (W.q [] 3 0), _, .badParam, 0, by decide +kernel, rfl, by decide +kernel⟩,
   ⟨(W.on id).hub, [0#8], 0, by decide +kernel⟩,
   ⟨(W.on id).hub, [1#8], 0, by decide +kernel⟩,
   ⟨(W.on id).hub, [2#8], 0, by decide +kernel⟩,
   ⟨W.on id, (W.q [0#8, 0#8, 1#8, 0#8, 0#8, 0#8, 0#8, 32#8] 3 0), _, _, _, _, by decide +kernel, rfl, by decide +kernel, by decide +kernel,
    by decide +kernel, (by decide +kernel), by decide +kernel, by decide +kernel, rfl, rfl, rfl⟩,
   ⟨W.on id, (W.q [0#8, 0#8, 1#8, 0#8, 0#8, 0#8, 0#8, 80#8] 3 0), _, 0, by decide +kernel, rfl, by decide +kernel⟩,
   ⟨W.on id, (W.q [0#8, 0#8, 1#8, 0#8, 1#8, 17#8, 0#8, 0#8] 3 0), _, 0, by decide +kernel, rfl, by decide +kernel⟩,
   ⟨W.on id, (W.q [0#8, 0#8, 0#8, 0#8] 3 0), _, _, _, _, by decide +kernel, rfl, by decide +kernel, by decide +kernel, by decide +kernel,
    (by decide +kernel), rfl, rfl, rfl⟩,
   ⟨(W.on id).hub, 9, 23, by decide +kernel⟩⟩

/-- States and operands that meet the hypotheses of `Obligations.PressAndWindowsRecordCounters`, clause by clause. -/
theorem test_witness_PressAndWindowsRecordCounters :
    (∃ (s : State) (q : Req) (a : Hub) (t : Status), (s.hub.asks (force q 0 0) 0x0904 = true) ∧ (a = s.hub.asked (force q 0 0) 0x0904) ∧ (q.txn = 0) ∧
      (a.pressRefusal ((force q 0 0)).payload = some t)) ∧
    (∃ (s : State) (q : Req) (a : Hub) (t : Status), (s.hub.asks (force q 0 1) 0x0904 = true) ∧ (a = s.hub.asked (force q 0 1) 0x0904) ∧ (q.txn = 0) ∧
      (a.pressRefusal ((force q 0 1)).payload = some t)) ∧
    (∃ (s : State) (q : Req) (a : Hub) (t : Status), (s.hub.asks (force q 0 2) 0x0904 = true) ∧ (a = s.hub.asked (force q 0 2) 0x0904) ∧ (q.txn = 0) ∧
      (a.pressRefusal ((force q 0 2)).payload = some t)) ∧
    (∃ (s : State) (q : Req) (a : Hub), (s.hub.asks (force q 0 0) 0x0904 = true) ∧ (a = s.hub.asked (force q 0 0) 0x0904) ∧ (q.txn = 0) ∧ (q.payload.length = 32) ∧
      (a.pressRefusal ((force q 0 0)).payload = none)) ∧
    (∃ (s : State) (q : Req) (a : Hub), (s.hub.asks (force q 0 1) 0x0904 = true) ∧ (a = s.hub.asked (force q 0 1) 0x0904) ∧ (q.txn = 0) ∧ (q.payload.length = 32) ∧
      (a.pressRefusal ((force q 0 1)).payload = none)) ∧
    (∃ (s : State) (q : Req) (a : Hub), (s.hub.asks (force q 0 2) 0x0904 = true) ∧ (a = s.hub.asked (force q 0 2) 0x0904) ∧ (q.txn = 0) ∧ (q.payload.length = 32) ∧
      (a.pressRefusal ((force q 0 2)).payload = none)) ∧
    (∃ (s : State), (s.hub.ct.press.running = false ∨ s.hub.profile = 0)) ∧
    (∃ (s : State) (x y : Hub) (slot : Nat) (r : List Byte × Hub), (s.hub.ct.press.running = true) ∧ (s.hub.profile ≠ 0) ∧ (s.hub.ct.press.stepped = false) ∧ (s.hub.ct.press.dest = 0) ∧
      (x = s.hub.untilLine s.hub.ct.press.next) ∧ (y = x.modPress (fun p => { p with k := p.k + 1, stepped := false })) ∧
      (r = y.pressRecord s.hub.ct.press.gap false) ∧ (slot = s.hub.ct.press.seq % max 1 s.hub.ct.press.slots) ∧
      (x.pget P.CT_PRESS_WRITE 0 + 2 ^ 32 - x.pget P.CT_PRESS_READ 0) % 2 ^ 32 < s.hub.ct.press.slots ∧
      (slot + 1) * r.2.slotSize ≤ 0x4000000 ∧ (r.2.pressWriting = false)) ∧
    (∃ (s : State) (x y : Hub) (r : List Byte × Hub), (s.hub.ct.press.running = true) ∧ (s.hub.profile ≠ 0) ∧ (s.hub.ct.press.stepped = false) ∧ (s.hub.ct.press.dest = 0) ∧
      (x = s.hub.untilLine s.hub.ct.press.next) ∧ (y = x.modPress (fun p => { p with k := p.k + 1, stepped := false })) ∧
      (r = y.pressRecord s.hub.ct.press.gap false) ∧
      s.hub.ct.press.slots ≤ (x.pget P.CT_PRESS_WRITE 0 + 2 ^ 32 - x.pget P.CT_PRESS_READ 0) % 2 ^ 32) ∧
    (∃ (s : State) (x y : Hub) (r : List Byte × Hub), (s.hub.ct.press.running = true) ∧ (s.hub.profile ≠ 0) ∧ (s.hub.ct.press.stepped = false) ∧ (x = s.hub.untilLine s.hub.ct.press.next) ∧
      (y = x.modPress (fun p => { p with k := p.k + 1, stepped := false })) ∧ (r = y.pressRecord s.hub.ct.press.gap false) ∧
      (r.2.pressWriting = true)) ∧
    (∃ (h : Hub) (gap stepped : Bool), (h.ct.enabled = [])) ∧
    (∃ (s : State) (port w : Nat) (b : Bandwidth) (x : Hub), (w = us (s.hub.pget P.CT_BW_WINDOW 0)) ∧ (b = nth s.hub.ct.bw port Bandwidth.reset) ∧
      (x = s.hub.untilLine (roundUp (b.endAt + 1) (max 1 w)))) ∧
    (∃ (s : State) (k hdr : Nat), ((s.hub.ct.wanted.drop k).headD false = false)) ∧
    (∃ (s : State) (k hdr : Nat) (x : Hub), ((s.hub.ct.wanted.drop k).headD false = true) ∧ (x = s.hub.modCt (fun c => { c with wanted := c.wanted.set k false })) ∧
      16 ≤ (nth x.ct.samples k []).length) ∧
    (∃ (s : State) (k hdr : Nat) (x : Hub), ((s.hub.ct.wanted.drop k).headD false = true) ∧ (x = s.hub.modCt (fun c => { c with wanted := c.wanted.set k false })) ∧
      (nth x.ct.samples k []).length < 16) :=
  ⟨⟨W.on id, (W.q [] 3 0), _, .badParam, by decide +kernel, rfl, by decide +kernel⟩,
   ⟨W.on id, (W.q [] 3 0), _, .badParam, by decide +kernel, rfl, by decide +kernel⟩,
   ⟨W.on id, (W.q [] 3 0), _, .badParam, by decide +kernel, rfl, by decide +kernel⟩,
   ⟨W.on id,
    (W.q (W.z 32) 3 0),
    _, by decide +kernel, rfl, by decide +kernel⟩,
   ⟨W.on (fun h => let h := h.pset P.CT_PROFILE 0 2; h),
    (W.q ([1#8] ++ W.z 8 ++ [202#8, 154#8, 59#8, 0#8, 0#8, 0#8, 0#8, 232#8, 3#8, 0#8, 0#8, 16#8] ++ W.z 11) 3 0),
    _, by decide +kernel, rfl, by decide +kernel⟩,
   ⟨W.on (fun h => let h := h.pset P.CT_PROFILE 0 2; let h : Hub := { h with ct := { h.ct with press := { h.ct.press with slots := 16 } } }; h),
    (W.q ([2#8] ++ W.z 8 ++ [202#8, 154#8, 59#8, 0#8, 0#8, 0#8, 0#8, 232#8, 3#8] ++ W.z 14) 3 0),
    _, by decide +kernel, rfl, by decide +kernel⟩,
   ⟨W.on id, by left; decide +kernel⟩,
   ⟨W.on (fun h => let h : Hub := { h with ct := { h.ct with press := { h.ct.press with running := true } } }; let h : Hub := { h with ct := { h.ct with press := { h.ct.press with stepped := false } } }; let h : Hub := { h with ct := { h.ct with press := { h.ct.press with dest := 0 } } }; let h := h.pset P.CT_PROFILE 0 2; let h : Hub := { h with ct := { h.ct with press := { h.ct.press with slots := 16 } } }; h),
    _, _, _, _, by decide +kernel, by decide +kernel, by decide +kernel, (by decide +kernel), rfl, rfl, rfl, rfl, by decide +kernel⟩,
   ⟨W.on (fun h => let h : Hub := { h with ct := { h.ct with press := { h.ct.press with running := true } } }; let h : Hub := { h with ct := { h.ct with press := { h.ct.press with stepped := false } } }; let h : Hub := { h with ct := { h.ct with press := { h.ct.press with dest := 0 } } }; let h := h.pset P.CT_PROFILE 0 2; h),
    _, _, _, by decide +kernel, by decide +kernel, by decide +kernel, (by decide +kernel), rfl, rfl, rfl, by decide +kernel⟩,
   ⟨W.on (fun h => let h : Hub := { h with ct := { h.ct with press := { h.ct.press with running := true } } }; let h : Hub := { h with ct := { h.ct with press := { h.ct.press with stepped := false } } }; let h := h.pset P.CT_PROFILE 0 2; let h : Hub := { h with ct := { h.ct with press := { h.ct.press with doneAt := 10 ^ 15 } } }; let h : Hub := { h with ct := { h.ct with press := { h.ct.press with running := true } } }; let h : Hub := { h with ct := { h.ct with press := { h.ct.press with slots := 16 } } }; h),
    _, _, _, by decide +kernel, by decide +kernel, by decide +kernel, rfl, rfl, rfl, by decide +kernel⟩,
   ⟨(W.on (fun h => let h : Hub := { h with ct := { h.ct with enabled := [] } }; h)).hub, false, false, by decide +kernel⟩,
   ⟨W.on id, 0, _, _, _, rfl, rfl, rfl⟩,
   ⟨W.on id, 0, 0, by decide +kernel⟩,
   ⟨W.on (fun h => let h : Hub := { h with ct := { h.ct with wanted := List.replicate 4 true } }; let h : Hub := { h with ct := { h.ct with samples := List.replicate 4 (List.replicate 16 ⟨0, 0⟩) } }; h),
    0, 0, _, by decide +kernel, rfl, by decide +kernel⟩,
   ⟨W.on (fun h => let h : Hub := { h with ct := { h.ct with wanted := List.replicate 4 true } }; h), 0, 0, _, by decide +kernel, rfl,
    by decide +kernel⟩⟩

/-- States and operands that meet the hypotheses of `Obligations.CodesCarryTheirBits`, clause by clause. -/
theorem test_witness_CodesCarryTheirBits :
    (∃ (pam : Bool) (n w : Nat), w < 2 ^ n ∧ ((pam = true → n % 2 = 0))) ∧
    (∃ (fs : List (List Byte)), ((∀ f ∈ fs, f.length = 16))) ∧
    (∃ (t : Nat) (p : List Byte), t < 16 ∧ (p.length = 12)) ∧
    (∃ (short : Bool) (f : Nat), f < 2 ^ 108) :=
  ⟨⟨false, 0, 0, by decide +kernel⟩,
   ⟨[], by decide +kernel⟩,
   ⟨15, List.replicate 12 1#8, by decide +kernel⟩,
   ⟨false, 2 ^ 108 - 1, by decide +kernel⟩⟩

end Sys2Proof.Tests.Witness5
end

section
/-!
SUPPORT. What a step does with its queue (O1).
-/
namespace Sys2Proof.Machine

theorem step_cons (s : State) (c : Instr) : step { s with pending := c :: s.pending } = exec c s := rfl

theorem step_nil (s : State) (hs : s.pending = []) : step s = .next s.idle := by simp only [step, hs]

theorem Hub.clockAfter_up (h : Hub) (n : Nat) : (h.clockAfter n).up = h.clk.up + n := rfl

/-- Settles O1: the front command runs on the queue behind it; an empty queue passes one nanosecond. -/
theorem stepRunsFrontCommand : Obligations.StepRunsFrontCommand := by
  unfold Obligations.StepRunsFrontCommand
  exact ⟨step_cons, fun s hs => ⟨step_nil s hs, Hub.clockAfter_up s.hub 1⟩⟩

end Sys2Proof.Machine
end

section
/-!
SUPPORT. A byte memory read back where it was written (O25).
-/
namespace Sys2Proof.Machine

theorem readMem_writeMem_same (m : List Host.Cell) (a : Nat) (bs : List Byte) (hw : Memory.wf m = true) :
    readMem (writeMem m a bs) a bs.length = bs := by
  rw [readMem_writeMem m a bs.length bs hw (Nat.le_refl _), Nat.sub_self]
  exact List.append_nil bs

/-- Settles O25, from what a write leaves inside and outside its range, and the form that writes and copies keep. -/
theorem memoryReadsWhatWasWritten : Obligations.MemoryReadsWhatWasWritten := by
  unfold Obligations.MemoryReadsWhatWasWritten
  intro m a bs hw
  exact ⟨readMem_writeMem_same m a bs hw, readByte_writeMem_outside m a bs, writeMem_wf m a bs hw, fun src dst n => copyMem_wf m src dst n hw⟩

end Sys2Proof.Machine
end

section
/-!
SUPPORT. Single parameter writes that only act, and reads that clear (R9, R50, R60).
-/
namespace Sys2Proof.Machine

/-- Writing 1 to a write-only field of no pair whose row has no rule of its own stores nothing: the field has its effect (R50, R60). -/
theorem Hub.writeParam_strobe (h : Hub) (mb pid : Nat) (d : ParamDesc) (hd : descOf pid = some d) (hw : d.access = .wo)
    (hk : bit d.kept letterN = false) (hp : d.pair = 0) (hf : formOf ⟨pid, 0, 1⟩ = .ok ⟨pid, 0, 1⟩) (ha : actsAlone pid = true)
    (ho : ∀ v : Hub, h.ownRefusal v mb pid 0 1 = none) (hc : h.conflictsOutside mb pid 0 = false) :
    h.writeParam mb pid 0 1 = Hub.paramHook h h ⟨pid, 0, 1⟩ := by
  have noMate : ∀ part, part ≠ 0 → mateOf pid part = none := fun part hpart => by simp [mateOf, hd, hp, Ne.symm hpart]
  rw [Hub.writeParam_eq h mb pid 0 1 1 hf (noMate 1 (by decide)) (noMate 2 (by decide)) ha (ho _) hc, Hub.stored_wo h pid 0 1 d hd hw hk]

/-- Reading a parameter that a read clears leaves 0 in it (R9). -/
theorem Hub.readEffect_rc (h : Hub) (pid inst : Nat) (d : ParamDesc) (hd : descOf pid = some d) (ha : d.access = .rc)
    (hp : pid ≠ P.RL_TCAP_READ) : h.readEffect pid inst = h.pset pid inst 0 := by
  simp only [Hub.readEffect, hd, ha, ne_eq, not_true_eq_false, if_false, hp]

end Sys2Proof.Machine
end

section
/-!
SUPPORT. The bridge at the originator and its port: what replies, notices and link events leave (O35).
-/
namespace Sys2Proof.Machine

/-! ## Replies at the originator (R259, R265, R266, R273, R274) -/

/-- A reply on the control channel, or whose frame is not well formed, counts and does nothing else (R259). -/
theorem Hub.completionRx_malformed (h : Hub) (f : Frame) (hb : f.control = true ∨ windowGood f.bytes = false) :
    h.completionRx f = (h.takeFrame 3 f).bump P.BR_FRAME_ERR 0 := by
  have bad : (f.control || !windowGood f.bytes || byteAt f.bytes 0 ≠ 4) = true := by rcases hb with hb | hb <;> simp [hb]
  simp only [Hub.completionRx, bad, if_true, Hub.windowBad]

theorem Hub.ackRx_malformed (h : Hub) (f : Frame) (hb : f.control = true ∨ windowGood f.bytes = false) :
    h.ackRx f = (h.takeFrame 3 f).bump P.BR_FRAME_ERR 0 := by
  have bad : (f.control || !windowGood f.bytes || byteAt f.bytes 0 ≠ 5) = true := by rcases hb with hb | hb <;> simp [hb]
  simp only [Hub.ackRx, bad, if_true, Hub.windowBad]

/-- A reply without the failure mark tells of none (R273). -/
theorem Hub.priorFails_unmarked (h : Hub) (f : Frame) (hm : byteAt f.bytes 1 % 2 = 0) : h.priorFails f = h := by
  simp [Hub.priorFails, hm]

section Completion
variable {h x : Hub} {f : Frame} (hc : f.control = false) (hg : windowGood f.bytes = true) (hop : byteAt f.bytes 0 = 4)
  (hx : x = h.takeFrame 3 f)
include hc hg hop hx

theorem Hub.completionRx_late
    (hn : x.br.out.find? (fun o => o.tag == be f.bytes 2 2 && o.entry == f.entry && !o.piece.write) = none) :
    h.completionRx f = x.bump P.BR_CPL_LATE 0 := by
  subst hx
  simp [Hub.completionRx, hc, hg, hop, hn]

variable {o : Outstanding} (ho : x.br.out.find? (fun o => o.tag == be f.bytes 2 2 && o.entry == f.entry && !o.piece.write) = some o)
  (hm : byteAt f.bytes 1 % 2 = 0)
include ho hm

/-- A good COMPLETION without bytes beyond those asked for (R266). -/
theorem Hub.completionRx_exact (hs : byteAt f.bytes 16 = 0) (hl : (f.bytes.drop 24).length = o.piece.len) :
    h.completionRx f =
      ((x.modBr (fun r => { r with out := r.out.filter (fun y => y.tag != o.tag) })).answerPart o.piece (0, f.bytes.drop 24)).releaseHeld := by
  subst hx
  have whole : ¬ f.bytes.length - 24 < o.piece.len := by rw [← List.length_drop, hl]; exact Nat.lt_irrefl _
  simp [Hub.completionRx, hc, hg, hop, ho, hs, whole, Hub.priorFails_unmarked _ f hm, List.take_of_length_le (Nat.le_of_eq hl),
    List.drop_eq_nil_of_le (Nat.le_of_eq hl)]

/-- A COMPLETION with an error status (R266): the read's part fails. -/
theorem Hub.completionRx_failed (hs : byteAt f.bytes 16 ≠ 0) :
    h.completionRx f = ((x.modBr (fun r => { r with out := r.out.filter (fun y => y.tag != o.tag) })).failPart o.piece).releaseHeld := by
  subst hx
  simp [Hub.completionRx, hc, hg, hop, ho, hs, Hub.priorFails_unmarked _ f hm]

end Completion

/-- A WRITE_ACK of an outstanding WRITE_NP ends it; one with a status is a write error (R274). -/
theorem Hub.ackRx_ends (h x y : Hub) (f : Frame) (o : Outstanding) (hc : f.control = false) (hg : windowGood f.bytes = true)
    (hop : byteAt f.bytes 0 = 5) (hx : x = h.takeFrame 3 f)
    (ho : x.br.out.find? (fun o => o.tag == be f.bytes 2 2 && o.entry == f.entry && o.piece.write) = some o) (hm : byteAt f.bytes 1 % 2 = 0)
    (hy : y = x.modBr (fun r => { r with out := r.out.filter (fun y => y.tag != o.tag) })) :
    h.ackRx f = (if byteAt f.bytes 16 = 0 then y
      else y.writeError ⟨(y.tun f.entry).tid, f.src, 0xFF, byteAt f.bytes 16, 0, false, false, true, o.off, y.clk.ns⟩).releaseHeld := by
  subst hy hx
  simp [Hub.ackRx, hc, hg, hop, ho, Hub.priorFails_unmarked _ f hm]

theorem Hub.cplTimeout_ends (h : Hub) (tag : Nat) (o : Outstanding) (ho : h.br.out.find? (fun o => o.tag == tag) = some o) :
    h.cplTimeout tag = (h.until (o.at_ + us (h.pget P.BR_CPL_TIMEOUT 0))).endRequest o := by
  simp only [Hub.cplTimeout, ho]

theorem Hub.prefetchExpire_drops (h : Hub) (ap : Nat) (b : Prefetch) (hb : h.buf ap = some b) :
    h.prefetchExpire ap = (h.until (b.at_ + us 10)).dropBuf ap := by
  simp only [Hub.prefetchExpire, hb]

/-! ## Notices (R270 to R272) -/

/-- The cell of a notice (R270). -/
def Hub.noticeCell (h : Hub) (origin tid : Nat) (n : Notice) : Cell :=
  ⟨0, true, true, 2, origin, h.ownId, tid, 0, false, h.rail, false, h.pget P.TN_HOPS_DEFAULT 0,
    [byte n.status, byte n.win] ++ beBytes 2 n.count ++ [byte (b2n (n.status == 2)), 0#8, 0#8, 0#8] ++ beBytes 8 n.off ++ beBytes 8 n.time⟩

theorem Hub.noticeSend_routes (h y z : Hub) (org tid win last : Nat) (n : Notice)
    (hn : h.br.notices.find? (fun n => n.origin == org && n.win == win && n.tid == tid) = some n)
    (hl : last = mget 0 h.br.noticed (org * 65536 + win))
    (hy : y = (if last = 0 then h else h.until (last - 1 + us (h.pget P.BR_NOTICE_INTERVAL 0))))
    (hz : z = y.modBr (fun b => { b with notices := b.notices.erase n, noticed := mset 0 b.noticed (org * 65536 + win) (y.clk.up + 1) }))
    (ht : z.tunnels = true) (hr : (z.makeRoom 3 0 (cellFlits (z.noticeCell org tid n))).2 = true) :
    h.noticeSend org tid win = (z.makeRoom 3 0 (cellFlits (z.noticeCell org tid n))).1.routeOwn 3 (z.noticeCell org tid n) := by
  subst hl
  simp only [Hub.noticeSend, hn, ← hy, ← hz, ht, Bool.not_true, Bool.false_eq_true, if_false]
  exact if_pos hr

section NoticeRx
variable {h x : Hub} {c : Cell}
  (hx : x = (h.takeFrame 3 ⟨1024, c.src, true, c.payload⟩).setDlv 3 0 ((h.dlv 3 0).filter (fun q => q.cell != c)))
include hx

theorem Hub.noticeRx_logged (hl : c.payload.length = 24) (hk : c.kind = 2) :
    h.noticeRx c = x.writeError ⟨c.tid, c.src, byteAt c.payload 1, byteAt c.payload 0, be c.payload 2 2, byteAt c.payload 4 % 2 == 1, false, false,
      be c.payload 8 8, be c.payload 16 8⟩ := by
  subst hx
  simp [Hub.noticeRx, hl, hk]

theorem Hub.noticeRx_malformed (hb : c.payload.length ≠ 24 ∨ c.kind ≠ 2) : h.noticeRx c = x.bump P.BR_FRAME_ERR 0 := by
  subst hx
  simp [Hub.noticeRx, hb]

end NoticeRx

/-! ## The PCIe port (R250, R253, R254, R279) -/

theorem Hub.pcieReset_endpoint (h : Hub) (he : h.isEndpoint = true) (hu : h.br.up = true) :
    h.pcieReset = (h.linkChange false 0 0).islandReset 6 := by
  simp [Hub.pcieReset, he, hu]

theorem Hub.pcieReset_rootPort (h : Hub) (he : h.isEndpoint = false) : h.pcieReset = h := by
  simp [Hub.pcieReset, he]

/-- The link comes up at the speed and width the hub allows (R250). -/
theorem Hub.linkChange_up (h : Hub) (sp wd : Nat) (hw : h.works 6 = true) (hf : h.strapFault = false) :
    h.linkChange true sp wd =
      ((h.modBr (fun b => { b with up := true, speed := max 1 (min sp (h.pget P.BR_PCIE_SPEED_MAX 0)), width := h.linkWidth wd, l1 := false })).raise
        (2 ^ intLink)).event .pcieLink [(0, 1, 1), (1, 1, max 1 (min sp (h.pget P.BR_PCIE_SPEED_MAX 0))), (2, 1, h.linkWidth wd)] := by
  simp [Hub.linkChange, hw, hf, b2n]

/-- The link goes down, and the accesses that wait for it end (R278, R279). -/
theorem Hub.linkChange_down (h : Hub) (sp wd : Nat) :
    h.linkChange false sp wd =
      (((h.modBr (fun b => { b with up := false, speed := 0, width := 0, l1 := false })).raise (2 ^ intLink)).event .pcieLink
        [(0, 1, 0), (1, 1, sp), (2, 1, wd)]).failTargets := by
  simp [Hub.linkChange, b2n]

theorem Hub.pcieLinkSeen_up (h : Hub) (sp wd mps mrrs : Nat) (l1 : Bool) (hl : l1 = false ∨ h.br.up = false) :
    h.pcieLinkSeen true sp wd mps mrrs l1 = (h.linkChange true sp wd).linkSizes mps mrrs := by
  have noL1 : (true && h.br.up && l1) = false := by rcases hl with hl | hl <;> simp [hl]
  simp only [Hub.pcieLinkSeen, noL1, Bool.false_eq_true, if_false, if_true]

theorem Hub.pcieLinkSeen_l1 (h : Hub) (sp wd mps mrrs : Nat) (hu : h.br.up = true) :
    h.pcieLinkSeen true sp wd mps mrrs true = h.linkPower true := by
  simp [Hub.pcieLinkSeen, hu]

/-- The link enters L1 while it is up and BR_ASPM_L1 advertises it (R250). -/
theorem Hub.linkPower_enter (h : Hub) :
    h.linkPower true = h.modBr (fun b => { b with l1 := b.up && h.pget P.BR_ASPM_L1 0 == 1 }) := by
  simp only [Hub.linkPower, Bool.true_and]

theorem Hub.pcieLinkSeen_down (h : Hub) (sp wd mps mrrs : Nat) (l1 : Bool) :
    h.pcieLinkSeen false sp wd mps mrrs l1 = if h.isEndpoint then (h.linkChange false sp wd).islandReset 6 else h.linkChange false sp wd := by
  simp [Hub.pcieLinkSeen]

theorem Hub.setPerst_drives (h : Hub) (b : Bool) (he : h.isEndpoint = false) (hp : h.br.perstHi = !b) :
    h.setPerst b = (h.modBr (fun r => { r with perstHi := b })).out (.pin "PE_PERST_N" b) := by
  simp [Hub.setPerst, he, hp]

@[simp] theorem Hub.setPerst_br_up (h : Hub) (b : Bool) : (h.setPerst b).br.up = h.br.up := by
  unfold Hub.setPerst
  split <;> rfl

/-- At a root port whose link is down already, BR_LINK_RESET drives PE_PERST_N alone (R253). -/
theorem Hub.linkReset_linkDown (h : Hub) (he : h.isEndpoint = false) (hu : h.br.up = false) :
    h.linkReset = (h.setPerst false).modBr (fun b => { b with perst := some (h.clk.up + ms 100) }) := by
  simp [Hub.linkReset, he, hu]

theorem Hub.writeParam_linkReset (h : Hub) (mb : Nat) (hc : h.conflictsOutside mb P.BR_LINK_RESET 0 = false) :
    h.writeParam mb P.BR_LINK_RESET 0 1 = h.linkReset :=
  (Hub.writeParam_strobe h mb P.BR_LINK_RESET _ rfl rfl rfl rfl rfl rfl (fun v => Hub.ownRefusal_none h v mb _ 0 1 rfl) hc).trans rfl

theorem Hub.writeParam_pwerrClear (h : Hub) (mb : Nat) (hc : h.conflictsOutside mb P.BR_PWERR_CLEAR 0 = false) :
    h.writeParam mb P.BR_PWERR_CLEAR 0 1 = h.modBr (fun b => { b with log := [] }) :=
  (Hub.writeParam_strobe h mb P.BR_PWERR_CLEAR _ rfl rfl rfl rfl rfl rfl (fun v => Hub.ownRefusal_none h v mb _ 0 1 rfl) hc).trans rfl

/-! ## The commands of replies, notices and the port -/

theorem exec_windowCompletionRx (f : Frame) (s : State) :
    exec (.windowCompletionRx f) s = .next (s.after (s.hub.completionRx f)) := rfl

theorem exec_windowWriteAckRx (f : Frame) (s : State) :
    exec (.windowWriteAckRx f) s = .next (s.after (s.hub.ackRx f)) := rfl

theorem exec_cplTimeout (tag : Nat) (s : State) :
    exec (.cplTimeout tag) s = .next (s.after (s.hub.cplTimeout tag)) := rfl

theorem exec_prefetchExpire (ap : Nat) (s : State) :
    exec (.prefetchExpire ap) s = .next (s.after (s.hub.prefetchExpire ap)) := rfl

theorem exec_noticeSend (org tid win : Nat) (s : State) :
    exec (.noticeSend org tid win) s = .next (s.after (s.hub.noticeSend org tid win)) := rfl

theorem exec_writeErrorNoticeRx (c : Cell) (s : State) :
    exec (.writeErrorNoticeRx c) s = .next (s.after (s.hub.noticeRx c)) := rfl

theorem exec_pcieIslandReset (cause : Nat) (s : State) :
    exec (.pcieIslandReset cause) s = .next (s.after s.hub.pcieReset) := rfl

theorem exec_pcieLink (up : Bool) (r : PcieRate) (t : PcieSet) (s : State) :
    exec (.pcieLink up r t) s = .next (s.after (s.hub.pcieLinkSeen up r.speed r.width t.mps t.mrrs t.l1)) := rfl

theorem exec_intxDrop (s : State) :
    exec .intxDrop s = .next (s.after s.hub.intx) := rfl

theorem exec_brLinkReset (mb v : Nat) (s : State) :
    exec (.brLinkReset mb v) s = .next (s.after (s.hub.writeParam mb P.BR_LINK_RESET 0 v)) := rfl

theorem exec_brPwerrClear (mb v : Nat) (s : State) :
    exec (.brPwerrClear mb v) s = .next (s.after (s.hub.writeParam mb P.BR_PWERR_CLEAR 0 v)) := rfl

theorem exec_brPwerrOverflowRead (mb : Nat) (s : State) :
    exec (.brPwerrOverflowRead mb) s = .next (s.after (s.hub.readEffect P.BR_PWERR_OVERFLOW 0)) := rfl

/-- Settles O35, each clause from the lemma on the bridge operation that its command runs. -/
theorem repliesAndNoticesEndRequests : Obligations.RepliesAndNoticesEndRequests := by
  unfold Obligations.RepliesAndNoticesEndRequests
  refine ⟨?malformed, ?late, ?good, ?failed, ?ack, ?timeout, ?prefetch, ?noticeSent, ?noticeLogged, ?noticeBad, ?resetEndpoint, ?resetRoot,
    ?linkUp, ?linkL1, ?linkDown, ?intx, ?linkReset, ?perst, ?pwerrClear, ?pwerrRead⟩
  case malformed =>
    rintro s f x hb rfl
    exact ⟨by rw [exec_windowCompletionRx, Hub.completionRx_malformed _ f hb], by rw [exec_windowWriteAckRx, Hub.ackRx_malformed _ f hb]⟩
  case late =>
    intro s f x hc hg hop hx hn
    rw [exec_windowCompletionRx, Hub.completionRx_late hc hg hop hx hn]
  case good =>
    intro s f x o hc hg hop hx ho hm hs hl
    rw [exec_windowCompletionRx, Hub.completionRx_exact hc hg hop hx ho hm hs hl]
  case failed =>
    rintro s f x o y hc hg hop hx ho hm hs rfl
    rw [exec_windowCompletionRx, Hub.completionRx_failed hc hg hop hx ho hm hs]
  case ack =>
    intro s f x o y hc hg hop hx ho hm hy
    rw [exec_windowWriteAckRx, Hub.ackRx_ends s.hub x y f o hc hg hop hx ho hm hy]
  case timeout =>
    intro s tag o ho
    rw [exec_cplTimeout, Hub.cplTimeout_ends s.hub tag o ho]
  case prefetch =>
    intro s ap b hb
    rw [exec_prefetchExpire, Hub.prefetchExpire_drops s.hub ap b hb]
  case noticeSent =>
    rintro s org tid win last n y z c hn hl hy hz rfl ht hr
    rw [exec_noticeSend, Hub.noticeSend_routes s.hub y z org tid win last n hn hl hy hz ht hr, Hub.noticeCell]
  case noticeLogged =>
    intro s c x hx hl hk
    rw [exec_writeErrorNoticeRx, Hub.noticeRx_logged hx hl hk]
  case noticeBad =>
    intro s c x hx hb
    rw [exec_writeErrorNoticeRx, Hub.noticeRx_malformed hx hb]
  case resetEndpoint =>
    intro s c he hu
    rw [exec_pcieIslandReset, Hub.pcieReset_endpoint s.hub he hu]
  case resetRoot =>
    intro s c he
    rw [exec_pcieIslandReset, Hub.pcieReset_rootPort s.hub he]
  case linkUp =>
    rintro s sp wd mps mrrs l1 x hw hf hl rfl
    rw [exec_pcieLink, Hub.pcieLinkSeen_up _ _ _ _ _ _ hl, Hub.linkChange_up _ _ _ hw hf, Hub.linkSizes]
  case linkL1 =>
    intro s sp wd mps mrrs hu
    rw [exec_pcieLink, Hub.pcieLinkSeen_l1 _ _ _ _ _ hu, Hub.linkPower_enter]
  case linkDown =>
    rintro s sp wd mps mrrs l1 x rfl
    rw [exec_pcieLink, Hub.pcieLinkSeen_down, Hub.linkChange_down]
  case intx => exact fun s => exec_intxDrop s
  case linkReset =>
    intro s mb hc he hu
    rw [exec_brLinkReset, Hub.writeParam_linkReset s.hub mb hc, Hub.linkReset_linkDown s.hub he hu]
  case perst => exact Hub.setPerst_drives
  case pwerrClear =>
    intro s mb hc
    rw [exec_brPwerrClear, Hub.writeParam_pwerrClear s.hub mb hc]
  case pwerrRead =>
    intro s mb
    rw [exec_brPwerrOverflowRead, Hub.readEffect_rc s.hub P.BR_PWERR_OVERFLOW 0 _ rfl rfl (by decide)]

end Sys2Proof.Machine
end

section
/-!
SUPPORT. The access guard: tests of a page, records, fills, drains and the debug master (O52).
-/
namespace Sys2Proof.Machine

/-! ## One page of an access (R399) -/

section Page
variable (h : Hub) (a : GAccess) (p : Nat)

theorem Hub.checkPage_badColour (hp : a.priv = false) (hc : 0xFE ≤ a.colour) : h.checkPage a p = some (6, 0xFF) := by
  simp [Hub.checkPage, hp, hc]

/-- The first test passes: the class is privileged, or the colour is one that an unprivileged access may bear. -/
theorem GAccess.colour_allowed {a : GAccess} (hc : a.priv = true ∨ a.colour < 0xFE) : (!a.priv && decide (0xFE ≤ a.colour)) = false := by
  rcases hc with hc | hc <;> simp [hc]

/-- The debug master is privileged (R391). -/
theorem GAccess.priv_debug {a : GAccess} (h5 : a.cls = 5) : a.priv = true := by simp [GAccess.priv, h5]

/-- An unprivileged access is none of the debug master's. -/
theorem GAccess.cls_of_unprivileged {a : GAccess} (hp : a.priv = false) : a.cls ≠ 5 := fun h5 => by simp [GAccess.priv_debug h5] at hp

theorem Hub.checkPage_locked (h5 : a.cls = 5) (hl : (h.regionsAt a.space p).any (·.2.lock) = true) :
    h.checkPage a p = some (5, (firstRegion (h.regionsAt a.space p) (·.lock)).getD 0xFF) := by
  simp only [Hub.checkPage, GAccess.colour_allowed (.inl (GAccess.priv_debug h5)), h5, hl, decide_true, Bool.and_self, Bool.false_eq_true, if_false, if_true]

theorem Hub.checkPage_noMatch (hp : a.priv = false) (hc : a.colour < 0xFE) (hm : h.regionsAt a.space p = []) (hl : h.pget P.AG_LOCK 0 = 1) :
    h.checkPage a p = some (1, 0xFF) := by
  simp [Hub.checkPage, hp, hc, hm, hl]

/-- A region that fails a test is one of the list. -/
theorem isEmpty_of_any {β : Type} {l : List β} {bad : β → Bool} (hb : l.any bad = true) : l.isEmpty = false := by
  cases l with
  | nil => simp at hb
  | cons x l => rfl

theorem Hub.checkPage_permission (h5 : a.cls ≠ 5) (hc : a.priv = true ∨ a.colour < 0xFE)
    (hb : (h.regionsAt a.space p).any (fun r => !r.2.allows a) = true) :
    h.checkPage a p = some (2, (firstRegion (h.regionsAt a.space p) (fun r => !r.allows a)).getD 0xFF) := by
  simp only [Hub.checkPage, GAccess.colour_allowed hc, h5, isEmpty_of_any hb, hb, decide_false, Bool.false_and, Bool.false_eq_true, if_false, if_true]

theorem Hub.checkPage_regionColour (h5 : a.cls ≠ 5) (hc : a.priv = true ∨ a.colour < 0xFE)
    (ha : (h.regionsAt a.space p).any (fun r => !r.2.allows a) = false)
    (hb : (h.regionsAt a.space p).any (fun r => !colourMatch r.2.colour a.colour) = true) :
    h.checkPage a p = some (3, (firstRegion (h.regionsAt a.space p) (fun r => !colourMatch r.colour a.colour)).getD 0xFF) := by
  simp only [Hub.checkPage, GAccess.colour_allowed hc, h5, isEmpty_of_any hb, ha, hb, decide_false, Bool.false_and, Bool.false_eq_true, if_false, if_true]

/-- Where no region stands and none has to, the page's colour decides. -/
theorem Hub.checkPage_byPageColour (hc : a.priv = true ∨ a.colour < 0xFE ∧ h.pget P.AG_LOCK 0 = 0) (hm : h.regionsAt a.space p = []) :
    h.checkPage a p = if colourMatch (h.pageColour a.space p) a.colour then none else some (4, 0xFF) := by
  have noTest : (!a.priv && decide (h.pget P.AG_LOCK 0 = 1)) = false := by
    rcases hc with hp | ⟨_, hl⟩
    · simp [hp]
    · simp [hl]
  have colourOk := GAccess.colour_allowed (hc.imp_right And.left)
  cases hcm : colourMatch (h.pageColour a.space p) a.colour <;> simp [Hub.checkPage, colourOk, hm, noTest, hcm]

end Page

/-! ## Refusals and their records (R400 to R404) -/

section Record
variable (h : Hub) (a : GAccess) (r : Refused)

theorem Hub.guard_refused (posted : Bool) (hr : h.checkPages a a.pages = some r) (h5 : r.reason ≠ 5) :
    h.guard a posted =
      (if posted then ((h.bump P.AG_DENIED r.reason).raise (2 ^ intGuard)).imprecise a r
        else ((h.bump P.AG_DENIED r.reason).raise (2 ^ intGuard)).precise a r, false) := by
  simp only [Hub.guard, hr, h5, if_false]

theorem Hub.guard_passes (posted : Bool) (hp : a.priv = true) (hn : h.checkPages a a.pages = none) : h.guard a posted = (h, true) := by
  simp [Hub.guard, hn, hp]

theorem Hub.precise_full (hl : 16 ≤ h.ag.log.length) :
    h.precise a r = (h.bump P.AG_VIOL_OVERFLOW 0).violation a r false (8, 8, max a.addr (r.page * 4096)) := by
  simp only [Hub.precise, Nat.not_lt.mpr hl, if_false]

theorem Hub.precise_logged (hl : h.ag.log.length < 16) :
    h.precise a r = (h.modGuard (fun g => { g with log := g.log ++ [(h.violInfo a r, max a.addr (r.page * 4096), h.clk.ns)] })).violation a r false
      (8, 8, max a.addr (r.page * 4096)) := by
  simp only [Hub.precise, hl, if_true]

end Record

theorem Hub.writeParam_violClear (h : Hub) (mb : Nat) (hc : h.conflictsOutside mb P.AG_VIOL_CLEAR 0 = false) :
    h.writeParam mb P.AG_VIOL_CLEAR 0 1 = h.violClear :=
  (Hub.writeParam_strobe h mb P.AG_VIOL_CLEAR _ rfl rfl rfl rfl rfl rfl (fun v => Hub.ownRefusal_none h v mb _ 0 1 rfl) hc).trans rfl

/-! ## Fills of page colours (R398) -/

section Fill
variable (h : Hub) (mb v : Nat)

theorem formOf_tagFill (hv : v < 2 ^ 64) : formOf ⟨P.AG_TAG_FILL, 0, v⟩ = .ok ⟨P.AG_TAG_FILL, 0, v⟩ :=
  formOf_any P.AG_TAG_FILL 0 v _ rfl (by decide) (by decide) hv (by decide) rfl

/-- AG_TAG_FILL of an admin mailbox whose reserved bits are 0 meets its own rule. -/
theorem Hub.ownRefusal_tagFill_none (w : Hub) (ha : h.guardAdmin mb = true) (hb : bits v 8 24 = 0) :
    h.ownRefusal w mb P.AG_TAG_FILL 0 v = none := by
  simp [Hub.ownRefusal_tagFill, ha, hb, firstOf, when_]

/-- A fill of pages that exist closes its pair (R398, R468). -/
theorem Hub.pairRefusal_tagFill_none (w : Hub) (base : Nat) (hn : 0 < bits v 32 32) (hr : base + bits v 32 32 ≤ 1048576) :
    h.pairRefusal w P.AG_TAG_FILL 0 base v = none := by
  simp [Hub.pairRefusal_tagFill, when_, Nat.ne_of_gt hn, Nat.not_lt.mpr hr]

theorem Hub.stored_tagFill : h.stored P.AG_TAG_FILL 0 v = h := Hub.stored_wo h P.AG_TAG_FILL 0 v _ rfl rfl rfl

variable (hv : v < 2 ^ 64)
include hv

/-- A fill whose base is the one in force is a commit of the guard. -/
theorem Hub.writeParam_tagFill (ha : h.guardAdmin mb = true) (hb : bits v 8 24 = 0) (hn : 0 < bits v 32 32)
    (hr : h.pget P.AG_TAG_BASE 0 + bits v 32 32 ≤ 1048576)
    (ho : h.ctl.pairs.find? (fun o => o.pid == P.AG_TAG_BASE && o.inst == 0 && o.mb == mb) = none)
    (hc : h.conflictsOutside mb P.AG_TAG_FILL 0 = false) :
    h.writeParam mb P.AG_TAG_FILL 0 v = (h.startFill (h.pget P.AG_TAG_BASE 0) (bits v 32 32) (bits v 0 8)).guardCommit := by
  rw [Hub.writeParam_close h mb P.AG_TAG_FILL 0 v v P.AG_TAG_BASE (formOf_tagFill v hv) rfl rfl ho (Hub.ownRefusal_tagFill_none h mb v _ ha hb) hc
    (Hub.pairRefusal_tagFill_none h v _ _ hn hr), Hub.applyChange_fill, Hub.stored_tagFill]

/-- A fill from a mailbox that AG_ADMIN_MB does not name writes nothing. -/
theorem Hub.writeParam_tagFill_denied (ha : h.guardAdmin mb = false)
    (ho : h.ctl.pairs.find? (fun o => o.pid == P.AG_TAG_BASE && o.inst == 0 && o.mb == mb) = none) :
    h.writeParam mb P.AG_TAG_FILL 0 v = h :=
  Hub.writeParam_refused_close h mb P.AG_TAG_FILL 0 v v P.AG_TAG_BASE .denied (formOf_tagFill v hv) rfl rfl ho
    (by simp [Hub.ownRefusal_tagFill, ha, firstOf, when_]) (by decide)

/-- A fill that closes the pair its mailbox has opened applies base and fill as one commit (R52). -/
theorem Hub.writeParam_tagFill_pair (o : OpenPair) (ha : h.guardAdmin mb = true) (hb : bits v 8 24 = 0) (hn : 0 < bits v 32 32)
    (hr : o.value + bits v 32 32 ≤ 1048576)
    (ho : h.ctl.pairs.find? (fun o => o.pid == P.AG_TAG_BASE && o.inst == 0 && o.mb == mb) = some o)
    (hc : h.conflictsOutside mb P.AG_TAG_FILL 0 = false) :
    h.writeParam mb P.AG_TAG_FILL 0 v =
      ({ h with ctl := { h.ctl with pairs := h.ctl.pairs.filter (fun y => !(y.pid == P.AG_TAG_BASE && y.inst == 0)) } } : Hub).applyChange
        ⟨[⟨P.AG_TAG_BASE, 0, o.value⟩, ⟨P.AG_TAG_FILL, 0, v⟩], [], []⟩ :=
  Hub.writeParam_pair h mb P.AG_TAG_FILL 0 v v P.AG_TAG_BASE o (formOf_tagFill v hv) rfl rfl ho (Hub.ownRefusal_tagFill_none h mb v _ ha hb) hc
    (Hub.pairRefusal_tagFill_none h v _ _ hn hr)

end Fill

/-- A write that leaves the guard's generation has nothing to drain. -/
theorem Hub.mustDrain_self (h : Hub) : Hub.mustDrain h h = false := by simp [Hub.mustDrain]

/-- The drain a fill begins, by what its write leaves (R398, R406). -/
theorem Hub.tagFill_of_write {h g : Hub} {mb v : Nat} (hw : h.writeParam mb P.AG_TAG_FILL 0 v = g) :
    h.tagFill mb v = if Hub.mustDrain h g then g.addDrain mb (some .quiet) else g := by
  simp only [Hub.tagFill, hw]

theorem Hub.startFill_fillEnd (h : Hub) (a n c : Nat) :
    (h.startFill a n c).ag.fillEnd = some (max h.clk.up (h.ag.fillEnd.getD 0) + ceilDiv (1000 * n) 16384) := rfl

theorem Hub.fillDone_idle (h : Hub) (hf : h.ag.fillEnd = none) : h.fillDone = h := by simp only [Hub.fillDone, hf]

theorem Hub.fillDone_noWaiter (h : Hub) (t : Nat) (hf : h.ag.fillEnd = some t) (hw : h.ag.waiting = []) :
    h.fillDone = (h.until t).modGuard (fun g => { g with fillEnd := none, waiting := [] }) := by
  simp only [Hub.fillDone, hf, hw, List.foldl_nil]

theorem Hub.fillDone_debug (h : Hub) (t a n : Nat) (wr : Bool) (d : List Byte) (hf : h.ag.fillEnd = some t)
    (hw : h.ag.waiting = [.debug a n wr d]) :
    h.fillDone = ((h.until t).modGuard (fun g => { g with fillEnd := none, waiting := [] })).debugRun a n wr d := by
  simp only [Hub.fillDone, hf, hw, List.foldl_cons, List.foldl_nil]

/-! ## Drains (R406) -/

theorem Hub.drainTimeout_none (h : Hub) (hd : h.ag.drains = []) : h.drainTimeout = h := by
  simp only [Hub.drainTimeout, hd, List.find?_nil]

theorem Hub.drainTimeout_one (h x : Hub) (d : Drain) (hd : h.ag.drains = [d]) (hr : d.reply.isSome = true)
    (hx : x = h.until (d.at_ + us (h.pget P.AG_DRAIN_TIMEOUT 0))) (hxd : x.ag.drains = [d])
    (hdue : d.at_ + us (x.pget P.AG_DRAIN_TIMEOUT 0) ≤ x.clk.up) :
    h.drainTimeout = (x.modGuard (fun g => { g with drains := [{ d with reply := none }] })).answerDrain d false := by
  simp [Hub.drainTimeout, hd, hr, ← hx, hxd, hdue, Hub.modGuard]

/-- A drain that still owes its answer is none of those that were told DRAIN_PENDING. -/
theorem Hub.tellDrained_owed (h : Hub) (mb : Nat) (d : Drain) (hr : d.reply.isSome = true) : h.tellDrained mb [d] = h := by
  have owes : d.reply.isNone = false := by simpa using hr
  simp [Hub.tellDrained, owes]

theorem Hub.drained_one (h : Hub) (d : Drain) (hd : h.ag.drains = [d]) (ho : h.olderInFlight d.gen = false) (hr : d.reply.isSome = true) :
    h.drained = (h.modGuard (fun g => { g with drains := [] })).answerDrain d true := by
  simp [Hub.drained, hd, ho, hr, Hub.tellDrained_owed _ _ d hr, Hub.modGuard]

/-! ## The debug master (R404) -/

section Debug
variable (h : Hub)

/-- A debug access while the port is not connected moves nothing and is told so (R421). -/
theorem Hub.debugAccess_unconnected (sp a len : Nat) (wr : Bool) (d : List Byte) (hp : h.debugPort = false)
    (hn : 0 < (if wr then d.length else len)) :
    h.debugAccess sp a len wr d = h.out (.debug false (if wr then [] else List.replicate (if wr then d.length else len) 0#8)) := by
  simp only [Hub.debugAccess, Nat.ne_of_gt hn, hp, Bool.not_false, if_false, if_true]

theorem Hub.debugAccess_waits (a len : Nat) (wr : Bool) (d : List Byte) (hp : h.debugPort = true) (hn : 0 < (if wr then d.length else len))
    (hf : h.ag.fillEnd.isSome = true) :
    h.debugAccess 0 a len wr d = h.modGuard (fun g => { g with waiting := g.waiting ++ [.debug a (if wr then d.length else len) wr d] }) := by
  have holds : h.fillHolds 0 = true := by simp [Hub.fillHolds, hf]
  simp only [Hub.debugAccess, Nat.ne_of_gt hn, hp, holds, Bool.not_true, Bool.false_eq_true, if_false, if_true]

/-- A debug access of DRAM that no fill holds runs at once. -/
theorem Hub.debugAccess_runs (a len : Nat) (wr : Bool) (d : List Byte) (hp : h.debugPort = true) (hn : 0 < (if wr then d.length else len))
    (hf : h.ag.fillEnd = none) :
    h.debugAccess 0 a len wr d = h.debugRun a (if wr then d.length else len) wr d := by
  have free : h.fillHolds 0 = false := by simp [Hub.fillHolds, hf]
  simp only [Hub.debugAccess, Nat.ne_of_gt hn, hp, free, Bool.not_true, Bool.false_eq_true, if_false, if_true]

theorem Hub.debugRun_read (a n : Nat) (d : List Byte) (g : Hub) (hg : h.guard ⟨0, a, n, false, 5, 0, 0xFE⟩ false = (g, true)) :
    h.debugRun a n false d = (g.debugRead a n).2.out (.debug true (g.debugRead a n).1) := by
  simp [Hub.debugRun, hg]

theorem Hub.debugRun_write (a n : Nat) (d : List Byte) (g : Hub) (hg : h.guard ⟨0, a, n, true, 5, 0, 0xFE⟩ false = (g, true)) :
    h.debugRun a n true d = (g.debugWrite a d).out (.debug true []) := by
  simp [Hub.debugRun, hg]

theorem Hub.debugRead_below (a n : Nat) (hb : a + n ≤ fwCopies) : h.debugRead a n = (readMem h.dram a n, h) := by
  simp only [Hub.debugRead, hb, if_true]

theorem Hub.debugAccess_refused (sp a len : Nat) (g : Hub) (hp : h.debugPort = true) (hn : 0 < len) (hs : sp ≠ 0)
    (hg : h.guard ⟨sp, a, len, false, 5, 0, 0xFE⟩ false = (g, false)) :
    h.debugAccess sp a len false [] = g.out (.debug false (List.replicate len 0#8)) := by
  simp [Hub.debugAccess, Nat.ne_of_gt hn, hp, Hub.fillHolds, hs, hg]

end Debug

/-! ## The commands of the guard -/

theorem exec_tagFill (mb v : Nat) (s : State) : exec (.tagFill mb v) s = .next (s.after (s.hub.tagFill mb v)) := rfl

theorem exec_tagFillDone (s : State) : exec .tagFillDone s = .next (s.after s.hub.fillDone) := rfl

theorem exec_guardDrainTimeout (s : State) : exec .guardDrainTimeout s = .next (s.after s.hub.drainTimeout) := rfl

theorem exec_guardDrained (s : State) : exec .guardDrained s = .next (s.after s.hub.drained) := rfl

theorem exec_agViolClear (mb v : Nat) (s : State) :
    exec (.agViolClear mb v) s = .next (s.after (s.hub.writeParam mb P.AG_VIOL_CLEAR 0 v)) := rfl

theorem exec_agViolOverflowRead (mb : Nat) (s : State) :
    exec (.agViolOverflowRead mb) s = .next (s.after (s.hub.readEffect P.AG_VIOL_OVERFLOW 0)) := rfl

theorem exec_debugAccess (sp a len : Nat) (wr : Bool) (d : List Byte) (s : State) :
    exec (.debugAccess sp a len wr d) s = .next (s.after (s.hub.debugAccess sp a len wr d)) := rfl

/-- Settles O52: the tests of a page in their order, then each command from the lemma on the guard operation it runs. -/
theorem theGuardChecksEveryAccess : Obligations.TheGuardChecksEveryAccess := by
  unfold Obligations.TheGuardChecksEveryAccess
  refine ⟨?page, ?refused, ?passes, ?full, ?logged, ?fill, ?fillDenied, ?fillPair, ?fillEnd, ?doneIdle, ?doneAlone, ?doneDebug, ?drainNone,
    ?drainPending, ?drainOver, ?violClear, ?violRead, ?debugPort, ?debugWaits, ?debugRead, ?debugWrite, ?debugBytes, ?debugRefused⟩
  case page =>
    rintro h a p m rfl
    refine ⟨h.checkPage_badColour a p, h.checkPage_locked a p, h.checkPage_noMatch a p, h.checkPage_permission a p, h.checkPage_regionColour a p,
      ?_, ?_, ?_⟩
    · intro hp hm hc
      rw [h.checkPage_byPageColour a p (.inl hp) hm, hc, if_neg (by decide)]
    · intro hp hm hc
      rw [h.checkPage_byPageColour a p (.inl hp) hm, hc, if_pos rfl]
    · intro _ hl hm hlock hc
      rw [h.checkPage_byPageColour a p (.inr ⟨hl, hlock⟩) hm, hc, if_pos rfl]
  case refused =>
    rintro h a posted r x hr h5 rfl
    exact h.guard_refused a r posted hr h5
  case passes => exact Hub.guard_passes
  case full => exact Hub.precise_full
  case logged => exact Hub.precise_logged
  case fill =>
    rintro s mb v g hv ha hb hn hr ho hc rfl
    rw [exec_tagFill, Hub.tagFill_of_write (Hub.writeParam_tagFill s.hub mb v hv ha hb hn hr ho hc)]
  case fillDenied =>
    intro s mb v hv ha ho
    rw [exec_tagFill, Hub.tagFill_of_write (Hub.writeParam_tagFill_denied s.hub mb v hv ha ho), Hub.mustDrain_self, if_neg (by decide)]
  case fillPair =>
    rintro s mb v o g hv ha hb hn hr ho hc rfl
    rw [exec_tagFill, Hub.tagFill_of_write (Hub.writeParam_tagFill_pair s.hub mb v hv o ha hb hn hr ho hc)]
  case fillEnd => exact Hub.startFill_fillEnd
  case doneIdle =>
    intro s hf
    rw [exec_tagFillDone, Hub.fillDone_idle s.hub hf]
  case doneAlone =>
    intro s t hf hw
    rw [exec_tagFillDone, Hub.fillDone_noWaiter s.hub t hf hw]
  case doneDebug =>
    intro s t a n wr d hf hw
    rw [exec_tagFillDone, Hub.fillDone_debug s.hub t a n wr d hf hw]
  case drainNone =>
    intro s hd
    rw [exec_guardDrainTimeout, Hub.drainTimeout_none s.hub hd]
  case drainPending =>
    intro s d x hd hr hx hxd hdue
    rw [exec_guardDrainTimeout, Hub.drainTimeout_one s.hub x d hd hr hx hxd hdue]
  case drainOver =>
    rintro s d y hd ho hr rfl
    rw [exec_guardDrained, Hub.drained_one s.hub d hd ho hr]
  case violClear =>
    intro s mb hc
    rw [exec_agViolClear, Hub.writeParam_violClear s.hub mb hc]
  case violRead =>
    intro s mb
    rw [exec_agViolOverflowRead, Hub.readEffect_rc s.hub P.AG_VIOL_OVERFLOW 0 _ rfl rfl (by decide)]
  case debugPort =>
    intro s sp a len wr d hp hn
    rw [exec_debugAccess, Hub.debugAccess_unconnected s.hub sp a len wr d hp hn]
  case debugWaits =>
    intro s a len wr d hp hn hf
    rw [exec_debugAccess, Hub.debugAccess_waits s.hub a len wr d hp hn hf]
  case debugRead =>
    intro s a len g hp hn hf hg
    rw [exec_debugAccess, Hub.debugAccess_runs s.hub a len false [] hp hn hf, if_neg Bool.false_ne_true, Hub.debugRun_read s.hub a len [] g hg]
  case debugWrite =>
    intro s a d g hp hn hf hg
    rw [exec_debugAccess, Hub.debugAccess_runs s.hub a 0 true d hp hn hf, if_pos rfl, Hub.debugRun_write s.hub a d.length d g hg, Hub.debugWrite]
  case debugBytes => exact Hub.debugRead_below
  case debugRefused =>
    intro s sp a len g hp hn hs hg
    rw [exec_debugAccess, Hub.debugAccess_refused s.hub sp a len g hp hn hs hg]

end Sys2Proof.Machine
end

section
/-!
SUPPORT. A line or twin port that loses signal or lock, or that LN_ENABLE and LN_RETRAIN move (O8).
-/
namespace Sys2Proof.Machine

/-! ## Leaving UP (R93, R102) -/

theorem Hub.portUp_iff (h : Hub) (p : Nat) : h.portUp p = true ↔ (h.port p).state = .up := beq_iff_eq

/-- A part of a port that the change of one port keeps is kept in every port. -/
theorem Hub.kept_modPort {β : Type} (k : Port → β) (h : Hub) (p q : Nat) (f : Port → Port) (hf : ∀ x, k (f x) = k x) :
    k ((h.modPort p f).port q) = k (h.port q) := by
  by_cases hq : q = p
  · subst hq
    by_cases hp : q < h.ports.length
    · rw [Hub.port_modPort_same h q f hp, hf]
    · rw [Hub.modPort_big h q f (Nat.le_of_not_lt hp)]
  · rw [Hub.port_modPort_other h f hq]

theorem Hub.lnState_modRx (h : Hub) (p : Nat) (f : PortRx → PortRx) : (h.modRx p f).lnState p = h.lnState p :=
  Hub.kept_modPort Port.state h p p (fun q => { q with rx := f q.rx }) (fun _ => rfl)

theorem Hub.linkDown_up (h : Hub) (p cause : Nat) (hu : h.portUp p = true) :
    h.linkDown p cause = (h.leaveUp p).event .linkDown [(0, 1, p), (1, 1, cause)] :=
  if_neg (not_not.mpr ((h.portUp_iff p).mp hu))

theorem Hub.linkDown_notUp (h : Hub) (p cause : Nat) (hs : (h.port p).state ≠ .up) : h.linkDown p cause = h := if_pos hs

/-- A receiver without signal or lock takes its port to DETECT behind two STATUS frames with RX_DOWN (R93). -/
theorem Hub.portDown_receiver (h x : Hub) (p cause : Nat) (hu : (h.port p).state = .up) (hc : cause < 2)
    (hx : x = (h.modPort p (fun q => { q with rxDown := true })).sendStatuses p false 2) :
    h.portDown p cause false = ((x.leaveUp p).event .linkDown [(0, 1, p), (1, 1, cause)]).toDetect p := by
  have up : x.portUp p = true := by
    rw [hx, Hub.sendStatuses_portUp]
    exact (Hub.portUp_modPort h p p _ (by intro; rfl)).trans ((h.portUp_iff p).mpr hu)
  simp only [Hub.portDown, if_neg (not_not.mpr hu), if_pos hc, ← hx, Hub.linkDown_up x p cause up, Bool.false_eq_true, if_false]

/-! ## Codeword lock (R80) -/

section Lock
variable {h : Hub} {p lane : Nat} {seen : List Seen} {l : LaneRx}
  (hl : l = seen.foldl (fun l w => l.judge (h.port p).rxShort true w.lead w.bad) ((h.port p).rx.lane lane))
  (hls : l.loses (h.port p).rxShort = true)
include hl hls

/-- A run of codewords by which a lane with lock meets the criteria of its loss. -/
theorem Hub.laneSaw_loses (hs : (h.port p).state ≠ .disabled) (hk : h.locked p lane = true) :
    h.laneSaw p lane seen = (h.modRx p (fun r => r.setLane lane l)).lockLost p lane := by
  rw [Hub.laneSaw_eq h p lane seen (h.lt_of_state p hs)]
  simp only [hk, ← hl, hls, if_true]

/-- In UP the loss takes the port down with cause 1. -/
theorem Hub.laneSaw_up (x : Hub) (hs : (h.port p).state = .up) (hr : (h.port p).rx.resting = false)
    (hx : x = (h.modPort p (fun q => { q with rx := q.rx.setLane lane l, rxDown := true })).sendStatuses p false 2) :
    h.laneSaw p lane seen = ((x.leaveUp p).event .linkDown [(0, 1, p), (1, 1, 1)]).toDetect p := by
  rw [Hub.laneSaw_loses hl hls (by simp [hs]) (by simp [Hub.locked, hs])]
  have gr : ((h.modRx p (fun r => r.setLane lane l)).port p).rx.resting = false :=
    (Hub.kept_modPort (fun q => q.rx.resting) h p p _ (fun q => PortRx.setLane_resting q.rx lane l)).trans hr
  have gs : (h.modRx p (fun r => r.setLane lane l)).lnState p = .up := (Hub.lnState_modRx h p _).trans hs
  have gx : x = ((h.modRx p (fun r => r.setLane lane l)).modPort p (fun q => { q with rxDown := true })).sendStatuses p false 2 := by
    rw [hx, Hub.modRx, Hub.modPort_modPort]
  simp only [Hub.lockLost, gs, gr, Hub.portDown_receiver _ x p 1 gs (by decide) gx]

/-- In TRAIN it clears the lane's lock. -/
theorem Hub.laneSaw_train (hs : h.lnState p = .train) (hk : h.locked p lane = true) :
    h.laneSaw p lane seen = (h.modRx p (fun r => r.setLane lane l)).setLock p lane false := by
  have on : (h.port p).state ≠ .disabled := by rw [show (h.port p).state = .train from hs]; decide
  simp only [Hub.laneSaw_loses hl hls on hk, Hub.lockLost, Hub.lnState_modRx, hs]

/-- In MEASURE it ends the measure. -/
theorem Hub.laneSaw_measure (hs : h.lnState p = .measure) (hk : h.locked p lane = true) :
    h.laneSaw p lane seen = (h.modRx p (fun r => r.setLane lane l)).toDetect p := by
  have on : (h.port p).state ≠ .disabled := by rw [show (h.port p).state = .measure from hs]; decide
  simp only [Hub.laneSaw_loses hl hls on hk, Hub.lockLost, Hub.measureAbandon, Hub.lnState_modRx, hs, if_true]

end Lock

/-! ## LN_ENABLE and LN_RETRAIN (R21, R85, R86) -/

/-- A flag of a parameter that takes 0 and 1 is well formed. -/
theorem formOf_flag (pid inst v : Nat) (d : ParamDesc) (hd : descOf pid = some d) (ha : d.access ≠ .ro ∧ d.access ≠ .rc)
    (hi : d.first ≤ inst ∧ inst < d.count) (hv : v ≤ 1) (hw : d.width = 1) (hg : d.signed = false) (hp : pid ≠ P.PW_ISLAND_RESET)
    (hc : d.check = .range 0 1) : formOf ⟨pid, inst, v⟩ = .ok ⟨pid, inst, v⟩ := by
  have hv' : v < 256 := by omega
  simp [formOf, paramForm, hd, ha.1, ha.2, Nat.not_lt.mpr hi.1, Nat.not_le.mpr hi.2, ParamDesc.norm, hw, hg, hv', hp, ParamDesc.refuses, hc, hv]

theorem Hub.takeEffect_enable (h : Hub) (p v : Nat) (hp : p < 3) (hv : v ≤ 1) :
    h.takeEffect [⟨P.LN_ENABLE, p, v⟩] = (h.stored P.LN_ENABLE p v).lnEnable p v := by
  have form := formOf_flag P.LN_ENABLE p v _ rfl (by decide) ⟨Nat.zero_le p, hp⟩ hv rfl rfl (by decide) rfl
  have alone : actsAlone P.LN_ENABLE = true := by decide
  rw [Hub.takeEffect_one h _ form, Hub.applyChange_one h _ alone]
  rfl

theorem Hub.takeEffect_retrain (h : Hub) (p v : Nat) (hp : p < 3) (hv : v ≤ 1) :
    h.takeEffect [⟨P.LN_RETRAIN, p, v⟩] = if v = 1 then (h.stored P.LN_RETRAIN p v).lnRetrain p else h.stored P.LN_RETRAIN p v := by
  have form := formOf_flag P.LN_RETRAIN p v _ rfl (by decide) ⟨Nat.zero_le p, hp⟩ hv rfl rfl (by decide) rfl
  have alone : actsAlone P.LN_RETRAIN = true := by decide
  rw [Hub.takeEffect_one h _ form, Hub.applyChange_one h _ alone]
  rfl

/-- LN_ENABLE 1 starts a disabled port. -/
theorem Hub.lnEnable_starts (h : Hub) (p : Nat) (ha : h.portAbsent p = false) (hs : h.lnState p = .disabled) :
    h.lnEnable p 1 = (h.pset P.LN_ENABLE p 1).toDetect p := by
  have ga : (h.pset P.LN_ENABLE p 1).portAbsent p = false := ha
  have gs : (h.pset P.LN_ENABLE p 1).lnState p = .disabled := hs
  simp only [Hub.lnEnable, ga, gs, Bool.false_eq_true, if_false, if_true]

section Disable
variable {h x : Hub} {p : Nat} (hx : x = h.pset P.LN_ENABLE p 0) (ha : x.portAbsent p = false)
include hx ha

/-- LN_ENABLE 0 takes an UP port down through GOING_DOWN. -/
theorem Hub.lnEnable_stops_up (hu : x.portUp p = true) :
    h.lnEnable p 0 = (((x.goingDown p false).linkDown p 7).enter p .disabled).modTrain p (fun t => { t.forget with hold := 0, partner := none }) := by
  have hs : x.lnState p = .up := (x.portUp_iff p).mp hu
  simp only [Hub.lnEnable, ← hx, ha, hu, hs, Bool.false_eq_true, zero_ne_one, reduceCtorEq, if_false, if_true]

/-- Another port that is not disabled it stops at once. -/
theorem Hub.lnEnable_stops (hd : x.lnState p ≠ .disabled) (hu : x.lnState p ≠ .up) :
    h.lnEnable p 0 = (x.enter p .disabled).modTrain p (fun t => { t.forget with hold := 0, partner := none }) := by
  have notUp : x.portUp p = false := Bool.eq_false_iff.mpr (fun e => hu ((x.portUp_iff p).mp e))
  simp only [Hub.lnEnable, ← hx, ha, notUp, hd, x.linkDown_notUp p 7 hu, Bool.false_eq_true, zero_ne_one, if_false]

end Disable

section Retrain
variable {h x : Hub} {p : Nat} (hx : x = h.modTrain p (fun t => { t with failed := [] })) (ha : x.portAbsent p = false)
include hx ha

/-- LN_RETRAIN takes an UP port to DETECT with cause 6. -/
theorem Hub.lnRetrain_up (hs : x.lnState p = .up) : h.lnRetrain p = ((x.goingDown p false).linkDown p 6).toDetect p := by
  have here : h.portAbsent p = false := by rw [hx] at ha; exact ha
  simp only [Hub.lnRetrain, here, ← hx, hs, Bool.false_eq_true, if_false]

/-- LN_RETRAIN takes a HELD port to DETECT. -/
theorem Hub.lnRetrain_held (hs : x.lnState p = .held) : h.lnRetrain p = (x.goingDown p false).toDetect p := by
  have here : h.portAbsent p = false := by rw [hx] at ha; exact ha
  simp only [Hub.lnRetrain, here, ← hx, hs, Bool.false_eq_true, if_false]

end Retrain

/-- A head's L0 ignores LN_RETRAIN (R21). -/
theorem Hub.lnRetrain_absent (h : Hub) (p : Nat) (ha : h.portAbsent p = true) : h.lnRetrain p = h := if_pos ha

/-- Storing a parameter leaves the straps. -/
theorem Hub.stored_isHead (h : Hub) (pid inst v : Nat) : (h.stored pid inst v).isHead = h.isHead := by
  have put : (h.putParam pid inst v).isHead = h.isHead := by
    unfold Hub.putParam
    split
    · split <;> rfl
    · rfl
  unfold Hub.stored
  split <;> exact put

/-! ## The commands -/

theorem exec_portSignalLoss (p : Nat) (s : State) :
    exec (.portSignalLoss p) s = .next (s.after (s.hub.portDown p 0 (s.hub.port p).rx.resting)) := rfl

theorem exec_lockLoss (p : Nat) (run : LaneRun) (s : State) :
    exec (.lockLoss p run) s = .next (s.after (s.hub.laneSaw p run.lane run.seen)) := rfl

theorem exec_heldSignalLoss (p : Nat) (s : State) : exec (.heldSignalLoss p) s = .next (s.after (s.hub.heldLoss p)) := rfl

theorem exec_lnEnableWrite (p v : Nat) (s : State) :
    exec (.lnEnableWrite p v) s = .next (s.after (s.hub.takeEffect [⟨P.LN_ENABLE, p, v⟩])) := rfl

theorem exec_lnRetrain (p v : Nat) (s : State) :
    exec (.lnRetrain p v) s = .next (s.after (s.hub.takeEffect [⟨P.LN_RETRAIN, p, v⟩])) := rfl

/-- Settles O8, each clause from the lemma on what its command makes of the port in that state. -/
theorem lossAndControlMovePorts : Obligations.LossAndControlMovePorts := by
  unfold Obligations.LossAndControlMovePorts
  refine ⟨?signalLoss, ?lockUp, ?lockTrain, ?lockMeasure, ?held, ?enable, ?disableUp, ?disableOther, ?retrainUp, ?retrainHeld, ?head⟩
  case signalLoss =>
    intro s p x hs hr hx
    rw [exec_portSignalLoss, hr, Hub.portDown_receiver s.hub x p 0 hs (by decide) hx]
  case lockUp =>
    intro s p lane seen l x hs hr hl hls hx
    rw [exec_lockLoss, Hub.laneSaw_up hl hls x hs hr hx]
  case lockTrain =>
    intro s p lane seen l hs hk hl hls
    rw [exec_lockLoss, Hub.laneSaw_train hl hls hs hk, Hub.modRx]
  case lockMeasure =>
    intro s p lane seen l hs hk hl hls
    rw [exec_lockLoss, Hub.laneSaw_measure hl hls hs hk, Hub.modRx]
  case held =>
    intro s p hs
    rw [exec_heldSignalLoss, Hub.heldLoss, Hub.lnState, if_pos hs]
  case enable =>
    intro s p hp ha hs
    rw [exec_lnEnableWrite, Hub.takeEffect_enable _ p 1 hp (by decide), Hub.lnEnable_starts _ p ha hs]
  case disableUp =>
    intro s p x hp hx ha hu
    rw [exec_lnEnableWrite, Hub.takeEffect_enable _ p 0 hp (by decide), Hub.lnEnable_stops_up hx ha hu, Hub.modTrain]
  case disableOther =>
    intro s p x hp hx ha hs
    have hd : x.lnState p ≠ .disabled := by rcases hs with e | e | e <;> simp [e]
    have hu : x.lnState p ≠ .up := by rcases hs with e | e | e <;> simp [e]
    rw [exec_lnEnableWrite, Hub.takeEffect_enable _ p 0 hp (by decide), Hub.lnEnable_stops hx ha hd hu, Hub.modTrain]
  case retrainUp =>
    intro s p x hp hx ha hs
    rw [exec_lnRetrain, Hub.takeEffect_retrain _ p 1 hp (by decide), if_pos rfl, Hub.lnRetrain_up hx ha hs]
  case retrainHeld =>
    intro s p x hp hx ha hs
    rw [exec_lnRetrain, Hub.takeEffect_retrain _ p 1 hp (by decide), if_pos rfl, Hub.lnRetrain_held hx ha hs]
  case head =>
    intro s v hh hv
    have ha : (s.hub.stored P.LN_RETRAIN 0 v).portAbsent 0 = true := by simp [Hub.portAbsent, Hub.stored_isHead, hh]
    rw [exec_lnRetrain, Hub.takeEffect_retrain _ 0 v (by decide) hv, Hub.lnRetrain_absent _ 0 ha, ite_self]

end Sys2Proof.Machine
end

section
/-!
SUPPORT. What side frames, the monitors of an UP port and the tail wait do (O9).
-/
namespace Sys2Proof.Machine

/-! ## Side frames taken (R21, R83, R93, R94) -/

/-- The partner that a TRAIN frame shows (R83). -/
def trainInfo (f : List Byte) : TrainInfo :=
  ⟨byteAt f 0, be f 1 2 % 4096, bits (byteAt f 3) 4 4, bits (byteAt f 3) 2 2, bits (byteAt f 4) 4 4, bits (byteAt f 4) 0 4,
    bit (byteAt f 5) 7, bit (byteAt f 5) 6, bit (byteAt f 5) 5, bit (byteAt f 5) 4, be f 6 2, byteAt f 8⟩

theorem Hub.trainFrame_records (h : Hub) (p : Nat) (f : List Byte) (ha : h.portAbsent p = false) (hd : h.lnState p ≠ .disabled)
    (hq : h.lnState p ≠ .quiet) :
    h.trainFrame p f = ((h.modPort p (fun q => { q with
      rx := { q.rx with frames := q.rx.frames.erase (sideFrame 1 f) },
      train := { q.train with partner := some (trainInfo f), goodRun := q.train.goodRun + 1, lastGood := h.clk.up } })).measureEnd p) := by
  have ga : (h.takeSide p 1 f).portAbsent p = false := ha
  have gs : (h.takeSide p 1 f).lnState p = h.lnState p := Hub.lnState_modRx h p _
  simp only [Hub.trainFrame, ga, gs, hd, hq, decide_false, Bool.or_self, Bool.false_eq_true, if_false]
  rw [Hub.takeSide, Hub.modRx, Hub.modTrain, Hub.modPort_modPort]
  rfl

/-- A head's L0 takes the frame and does no more (R21). -/
theorem Hub.trainFrame_absent (h : Hub) (p : Nat) (f : List Byte) (ha : h.portAbsent p = true) : h.trainFrame p f = h.takeSide p 1 f := by
  have ga : (h.takeSide p 1 f).portAbsent p = true := ha
  simp only [Hub.trainFrame, ga, Bool.true_or, if_true]

theorem Hub.measureEnd_otherState (h : Hub) (p : Nat) (hs : (h.port p).state ≠ .measure) : h.measureEnd p = h := by
  simp only [Hub.measureEnd, hs, decide_false, Bool.false_and, Bool.false_eq_true, if_false]
  split <;> rfl

section Status
variable {h x : Hub} {p : Nat} {f : List Byte} (hx : x = h.takeSide p 2 f) (hu : x.portUp p = true) (h5 : bit (byteAt f 0) 5 = true)
include hx hu h5

/-- A STATUS frame with neither RX_DOWN nor GOING_DOWN ends the run of those. -/
theorem Hub.statusFrame_good (h7 : bit (byteAt f 0) 7 = false) (h6 : bit (byteAt f 0) 6 = false) :
    h.statusFrame p f = x.modRx p (fun r => { r with darnOn := true, badRun := 0, resting := bit (byteAt f 0) 4 }) := by
  simp [Hub.statusFrame, ← hx, hu, h5, h6, h7]

/-- The second in a row with GOING_DOWN takes the port down with cause 3. -/
theorem Hub.statusFrame_goingDown (h6 : bit (byteAt f 0) 6 = true) (hr : (x.port p).rx.badRun = 1) :
    h.statusFrame p f = (x.modRx p (fun r => { r with darnOn := true, badRun := 2, resting := bit (byteAt f 0) 4 })).portDown p 3
      (bit (byteAt f 0) 4) := by
  simp [Hub.statusFrame, ← hx, hu, h5, h6, hr]

end Status

theorem Hub.sideBad_counts (h : Hub) (p f : Nat) (ha : h.portAbsent p = false) (hg : sideGood f = false) :
    h.sideBad p f = ((h.modRx p (fun r => { r with frames := r.frames.erase f })).bump P.LN_SIDE_ERR p).modTrain p
      (fun t => { t with goodRun := 0 }) := by
  have ga : (h.modRx p (fun r => { r with frames := r.frames.erase f })).portAbsent p = false := ha
  simp only [Hub.sideBad, ga, hg, Bool.false_and, Bool.or_self, Bool.false_eq_true, if_false]

/-! ## Monitoring (R96, R100, R101) and the tail (R92) -/

theorem Hub.margin_up (h : Hub) (p lane v w : Nat) (hu : h.portUp p = true) :
    h.margin p lane v w = h.pset P.LN_MARGIN (2 * p + lane) (v % 256 * 256 + w % 256) := if_pos hu

/-- A window of lane 0 whose uncorrectable codewords exceed their limit warns once. -/
theorem Hub.degradeWindow_warns (h g x : Hub) (p c n u : Nat) (hu : h.portUp p = true) (hd : (h.port p).rx.degraded0 = false)
    (hg : g = h.pset P.LN_PRE_BER (2 * p) (min c 0xFFFFFFFF)) (hl : g.pget P.LN_UNCORR_LIMIT p < u)
    (hx : x = (g.modRx p (fun r => { r with degraded0 := true })).event .linkDegraded
      [(0, 1, p), (1, 1, 0), (4, 4, min c 0xFFFFFFFF), (8, 4, min u 0xFFFFFFFF)])
    (ha : x.pget P.LN_DEGRADE_ACTION p ≠ 1) : h.degradeWindow p 0 c n u = x := by
  have gd : (g.port p).rx.degraded0 = false := by rw [hg]; exact hd
  simp only [Hub.degradeWindow, hu, Nat.add_zero, ← hg, hl, gd, decide_true, Bool.or_true, Bool.not_true, Bool.not_false, Bool.and_self,
    Bool.false_eq_true, if_false, if_true, ← hx, ha]

theorem Hub.localBad_counts (h : Hub) (p : Nat) (c : Cell) (hu : h.portUp p = true) (hc : localGood c = false) :
    h.localBad p c = (h.takeCell p c).bump P.LN_LL_ERR p := by
  have gu : (h.takeCell p c).portUp p = true := ((h.takeCell p c).portUp_iff p).mpr ((Hub.lnState_modRx h p _).trans ((h.portUp_iff p).mp hu))
  simp only [Hub.localBad, gu, hc, Bool.not_false, Bool.and_self, if_true]

theorem Hub.tailWait_marks (h : Hub) (hh : h.isHead = false) (h0 : h.portUp 0 = true) (h1 : h.portUp 1 = false) (ht : h.rl.tail = false) :
    h.tailWait = ((h.until ((h.port 0).since + ms (h.pget P.LN_TAIL_WAIT 0))).modRail (fun r => { r with tail := true })).event .tailChange
      [(0, 1, 1)] := by
  simp only [Hub.tailWait, hh, h0, h1, ht, Bool.not_false, Bool.and_self, if_true]
  rfl

/-! ## The commands -/

theorem exec_trainFrameRx (p : Nat) (f : List Byte) (s : State) : exec (.trainFrameRx p f) s = .next (s.after (s.hub.trainFrame p f)) := rfl

theorem exec_statusFrameRx (p : Nat) (f : List Byte) (s : State) : exec (.statusFrameRx p f) s = .next (s.after (s.hub.statusFrame p f)) := rfl

theorem exec_sideFrameBad (f : SideFrame) (s : State) : exec (.sideFrameBad f) s = .next (s.after (s.hub.sideBad f.port f.bits)) := rfl

theorem exec_statusTx (p : Nat) (s : State) :
    exec (.statusTx p) s = .next (s.after (if s.hub.portUp p then s.hub.sendStatus p false else s.hub)) := rfl

theorem exec_marginMeasure (p lane v w : Nat) (s : State) :
    exec (.marginMeasure p lane v w) s = .next (s.after (s.hub.margin p lane v w)) := rfl

theorem exec_degradeWindow (p lane c n u : Nat) (s : State) :
    exec (.degradeWindow p lane c n u) s = .next (s.after (s.hub.degradeWindow p lane c n u)) := rfl

theorem exec_linkLocalBad (p : Nat) (c : Cell) (s : State) : exec (.linkLocalBad p c) s = .next (s.after (s.hub.localBad p c)) := rfl

theorem exec_tailWait (s : State) : exec .tailWait s = .next (s.after s.hub.tailWait) := rfl

/-- Settles O9, each clause from the lemma on the port operation that its command runs. -/
theorem sideFramesAndMonitoring : Obligations.SideFramesAndMonitoring := by
  unfold Obligations.SideFramesAndMonitoring
  refine ⟨?train, ?notMeasuring, ?trainHead, ?statusGood, ?statusGoingDown, ?sideBad, ?statusTx, ?margin, ?degraded, ?localBad, ?tail⟩
  case train =>
    intro s p f ha hd hq
    rw [exec_trainFrameRx, Hub.trainFrame_records s.hub p f ha hd hq, trainInfo]
  case notMeasuring => exact Hub.measureEnd_otherState
  case trainHead =>
    intro s f hh
    have ha : s.hub.portAbsent 0 = true := by simp [Hub.portAbsent, hh]
    rw [exec_trainFrameRx, Hub.trainFrame_absent s.hub 0 f ha, Hub.takeSide, Hub.modRx]
  case statusGood =>
    intro s p f x hx hu h7 h6 h5
    rw [exec_statusFrameRx, Hub.statusFrame_good hx hu h5 h7 h6, Hub.modRx]
  case statusGoingDown =>
    intro s p f x hx hu h6 h5 hr
    rw [exec_statusFrameRx, Hub.statusFrame_goingDown hx hu h5 h6 hr, Hub.modRx]
  case sideBad =>
    intro s p f ha hg
    rw [exec_sideFrameBad, Hub.sideBad_counts s.hub p f ha hg, Hub.modRx, Hub.modTrain]
  case statusTx =>
    intro s p hu
    simp only [exec_statusTx, hu, if_true, Hub.sendStatus, show b2n false * 16 = 0 from rfl, Nat.add_zero]
  case margin =>
    intro s p lane v w hu
    rw [exec_marginMeasure, Hub.margin_up s.hub p lane v w hu]
  case degraded =>
    rintro s p c n u x hu hd rfl hl ha
    rw [exec_degradeWindow, Hub.degradeWindow_warns s.hub _ _ p c n u hu hd rfl hl rfl ha, Hub.modRx]
  case localBad =>
    intro s p c hu hc
    rw [exec_linkLocalBad, Hub.localBad_counts s.hub p c hu hc, Hub.takeCell, Hub.modRx]
  case tail =>
    intro s hh h0 h1 ht
    rw [exec_tailWait, Hub.tailWait_marks s.hub hh h0 h1 ht]

end Sys2Proof.Machine
end

section
/-!
SUPPORT. What resets keep and take, and the sequences of thermal shutdown, power-up, power-good and power-fail (O51).
-/
namespace Sys2Proof.Machine

/-! ## Warm and cold resets (R388, R389) -/

/-- A warm reset's losses: tables and what the mailboxes hold. -/
theorem Hub.warmLoss_empty (h : Hub) : h.warmLoss.tables = [] ∧ h.warmLoss.ctl.ops = [] ∧ h.warmLoss.ctl.txns = [] := ⟨rfl, rfl, rfl⟩

/-- I-AON's Seams and the recorded cause leave tables, long operations and transactions. -/
theorem Hub.noteCause_aonBack_frame (h : Hub) (c : Nat) :
    (h.aonBack.noteCause c).tables = h.tables ∧ (h.aonBack.noteCause c).ctl.ops = h.ctl.ops ∧ (h.aonBack.noteCause c).ctl.txns = h.ctl.txns := by
  have untold := Hub.untold_aonBack h
  simp only [Hub.untold, Prod.mk.injEq] at untold
  obtain ⟨ops, txns, tables, -⟩ := untold
  obtain ⟨ctl, tables', -⟩ := Hub.noteCause_frame h.aonBack c
  exact ⟨tables'.trans tables, (congrArg Control.ops ctl).trans ops, (congrArg Control.txns ctl).trans txns⟩

theorem Hub.warmReset_frame (h : Hub) (c st : Nat) :
    (h.warmReset c st).tables = [] ∧ (h.warmReset c st).clk.ns = 0 ∧ (h.warmReset c st).clk.frac = 0 ∧ (h.warmReset c st).ctl.ops = [] ∧
      (h.warmReset c st).ctl.txns = [] ∧ (h.warmReset c st).straps = st % 128 ∧ (h.warmReset c st).mg.full = false := by
  let lost : Hub := { h.aonSees.warmLoss with seams := h.aonSees.aonSeams }
  obtain ⟨noTables, noOps, noTxns⟩ := Hub.warmLoss_empty h.aonSees
  obtain ⟨tables, ops, txns⟩ := Hub.noteCause_aonBack_frame lost c
  obtain ⟨ctl', tables', -, -, -, -, -, ns, frac, straps, full⟩ := Hub.release_frame (lost.aonBack.noteCause c) st
  refine ⟨tables'.trans (tables.trans noTables), ns, frac, ?_, ?_, straps, full⟩
  · exact (congrArg Control.ops ctl').trans (ops.trans noOps)
  · exact (congrArg Control.txns ctl').trans (txns.trans noTxns)

/-- What a hub holds comes through the end of a cold reset: its pins float, GPIO takes its modes, the cause is recorded and the hub released. -/
theorem Hub.coldEnd_frame (g : Hub) (c st : Nat) (x : Hub) (hx : x = (g.floatPins.gpioModes.noteCause c).release st) :
    x.tables = g.tables ∧ x.dram = g.dram ∧ x.clk.ns = 0 ∧ x.straps = st % 128 ∧ x.mg.slots = g.mg.slots ∧ x.ky = g.ky ∧
      x.nvStore = g.nvStore ∧ x.hostMem = g.hostMem := by
  have pins : g.floatPins.gpioModes.stores = g.stores := (Hub.stores_gpioModes _).trans (Hub.stores_floatPins g)
  simp only [Hub.stores, Prod.mk.injEq] at pins
  obtain ⟨-, tables, dram, nv, host, mg, ky⟩ := pins
  obtain ⟨-, tables', dram', nv', host', mg', ky'⟩ := Hub.noteCause_frame g.floatPins.gpioModes c
  obtain ⟨-, tables'', dram'', nv'', host'', slots, ky'', ns, -, straps, -⟩ := Hub.release_frame (g.floatPins.gpioModes.noteCause c) st
  subst hx
  exact ⟨tables''.trans (tables'.trans tables), dram''.trans (dram'.trans dram), ns, straps, slots.trans (congrArg Mgmt.slots (mg'.trans mg)),
    ky''.trans (ky'.trans ky), nv''.trans (nv'.trans nv), host''.trans (host'.trans host)⟩

/-- The hub that a cold reset takes its images, keys and host memory from: an unlock has ended, PPS_OUT and the gates are low. -/
def Hub.coldFrom (h : Hub) : Hub :=
  [0, 1, 2, 3, 4].foldl (fun h c => h.out (.power "FU_GATE" [c, 0])) ((h.unlockEnd 1).setPps false)

theorem Hub.coldFrom_frame (h : Hub) :
    h.coldFrom.mg.slots = h.mg.slots ∧ h.coldFrom.ky.slots = h.ky.slots ∧ h.coldFrom.nvStore = h.nvStore ∧
      h.coldFrom.hostMem = (h.unlockEnd 1).hostMem := by
  have stores : h.coldFrom.stores = (h.unlockEnd 1).stores :=
    (Hub.kept_foldl Hub.stores _ (by exact fun _ _ => rfl) _ _).trans (Hub.stores_setPps _ _)
  simp only [Hub.stores, Prod.mk.injEq] at stores
  obtain ⟨-, -, -, nv, host, mg, ky⟩ := stores
  obtain ⟨mg', nv', slots'⟩ := h.unlockEnd_frame 1
  exact ⟨congrArg Mgmt.slots (mg.trans mg'), (congrArg Keys.slots ky).trans slots', nv.trans nv', host⟩

/-- The new hub of a cold reset: no tables, no DRAM, the old hub's images, key slots, configuration store and host memory. -/
theorem Hub.coldReset_new (h : Hub) (c st : Nat) : ∃ g : Hub, h.coldReset c st = (g.floatPins.gpioModes.noteCause c).release st ∧
    g.tables = [] ∧ g.dram = [] ∧ g.mg.slots = h.coldFrom.mg.slots ∧ g.ky.slots = h.coldFrom.ky.slots ∧
      g.nvStore = h.coldFrom.nvStore ∧ g.hostMem = h.coldFrom.hostMem := by
  unfold Hub.coldReset
  rw [← Hub.coldFrom]
  generalize h.coldFrom = old
  exact ⟨_, rfl, rfl, rfl, rfl, rfl, rfl, rfl⟩

theorem Hub.coldReset_frame (h : Hub) (c st : Nat) :
    (h.coldReset c st).tables = [] ∧ (h.coldReset c st).dram = [] ∧ (h.coldReset c st).clk.ns = 0 ∧ (h.coldReset c st).straps = st % 128 ∧
      (h.coldReset c st).mg.slots = h.mg.slots ∧ (h.coldReset c st).ky.slots = h.ky.slots ∧ (h.coldReset c st).nvStore = h.nvStore ∧
      (h.coldReset c st).hostMem = (h.unlockEnd 1).hostMem := by
  obtain ⟨fSlots, fKeys, fNv, fHost⟩ := h.coldFrom_frame
  obtain ⟨g, hg, gTables, gDram, gSlots, gKeys, gNv, gHost⟩ := h.coldReset_new c st
  obtain ⟨tables, dram, ns, straps, slots, ky, nv, host⟩ := g.coldEnd_frame c st (h.coldReset c st) hg
  refine ⟨tables.trans gTables, dram.trans gDram, ns, straps, slots.trans (gSlots.trans fSlots), ?_, nv.trans (gNv.trans fNv),
    host.trans (gHost.trans fHost)⟩
  exact (congrArg Keys.slots ky).trans (gKeys.trans fKeys)

/-! ## RESET_N (R388) -/

theorem Hub.resetPulse_short (h : Hub) (w : Nat) (hw : w < 900) : h.resetPulse w = h := if_pos hw

theorem Hub.resetPulse_warm (h : Hub) (w : Nat) (h1 : 1000 ≤ w) (h9 : w ≤ 9000) : h.resetPulse w = h.warmReset causePulse h.straps := by
  rw [Hub.resetPulse, if_neg (by omega), if_neg (by omega), if_pos h9]

theorem Hub.resetPulse_cold (h : Hub) (w : Nat) (h10 : 10000 ≤ w) : h.resetPulse w = h.coldStart causeLong h.straps := by
  rw [Hub.resetPulse, if_neg (by omega), if_neg (by omega), if_neg (by omega), if_neg (by omega)]

/-! ## Thermal shutdown (R386) -/

theorem Hub.thermalShutdown_ignored (h : Hub) (n : Nat) (r : Int) (hr : r < 155 ∨ h.pw.state = .thermalOff) : h.thermalShutdown n r = h :=
  if_pos (by simpa using hr)

theorem Hub.thermalShutdown_trips (h x y : Hub) (n : Nat) (r : Int) (hr : 155 ≤ r) (hs : h.pw.state ≠ .thermalOff)
    (hx : x = (((h.bump P.PW_TSD_EVENTS 0).lintRec Ev.thermalShutdown.code Ev.thermalShutdown.severity
        (fields 16 [(0, 1, n), (1, 2, ofSigned 16 r)]) true).deliver .thermalShutdown Ev.thermalShutdown.severity 0
        (fields 16 [(0, 1, n), (1, 2, ofSigned 16 r)])).out (.pin "PMIC_EN" false))
    (hy : y = [1, 2, 3, 4].foldl (fun h c => if (h.fuse c).state.gate then h.fuseGateOff c .off else h) x) :
    h.thermalShutdown n r = y.coreOff.modPw (fun p => { p with state := .thermalOff, pmicEn := false, pmicPg := false, coolAt := none }) := by
  rw [hy, hx]
  exact if_neg (by simp [hs, hr])

theorem Hub.thermalRestart_restarts (h : Hub) (t : Nat) (hs : h.pw.state = .thermalOff) (hc : h.pw.coolAt = some t) :
    h.thermalRestart = ((h.until (t + ms 1000)).out (.pin "PMIC_EN" true)).warmReset causeThermal h.straps := by
  simp only [Hub.thermalRestart, hs, hc]

/-! ## Power-up and power-good (R483, R484) -/

theorem Hub.powerUp_noInput (h : Hub) (m b st : Nat) (hm : goodAtStart m = false) (hb : goodAtStart b = false) : h.powerUp m b st = h := by
  simp [Hub.powerUp, hm, hb]

/-- The supplies that a start finds when VMAIN is good. -/
def Supply.mainStart (m b : Nat) : Supply :=
  { Supply.reset with inUse := 0, mainMv := m, backMv := b, mainOk := true, backOk := goodAtStart b }

/-- The enables rise in their order, PMIC_PG comes, and the hub is released (R483). -/
def Hub.sequence (y : Hub) (st : Nat) : Hub :=
  let z := (((y.out (.power "SUPPLY" [0])).advance (ms 2)).out (.pin "DRAM_EN" true)).advance (ms 6)
  let w := ((z.out (.pin "PMIC_EN" true)).modPw (fun p => { p with dramEn := true, pmicEn := true, pmicAt := z.clk.up })).advance (ms 3)
  [0, 1, 2, 3].foldl Hub.tcAonStart ((w.modPw (fun p => { p with pmicPg := true })).release st)

section PowerUp
variable (h : Hub) (m b st : Nat) (hm : goodAtStart m = true)
include hm

theorem Hub.powerUp_first (ha : (decide (h.pw.state = .off) && decide (h.pget P.PW_RESET_CAUSE 0 = causeInputs)) = false) :
    h.powerUp m b st = ({ h.coldReset causePowerOn st with su := Supply.mainStart m b } : Hub).sequence st := by
  simp only [Hub.powerUp, hm, ha, Bool.not_true, Bool.false_and, Bool.false_eq_true, if_false]
  rfl

/-- An input that comes back after a power-fail keeps both enables low for 20 ms first (R486). -/
theorem Hub.powerUp_again (ho : h.pw.state = .off) (hc : h.pget P.PW_RESET_CAUSE 0 = causeInputs) :
    h.powerUp m b st = (({ h.coldReset causeInputs st with su := Supply.mainStart m b } : Hub).advance (ms 20)).sequence st := by
  simp only [Hub.powerUp, hm, ho, hc, decide_true, Bool.and_self, Bool.not_true, Bool.false_and, Bool.false_eq_true, if_false, if_true]
  rfl

end PowerUp

theorem Hub.pgTimeout_come (h : Hub) (hp : h.pw.pmicPg = true) : h.pgTimeout = h := if_pos hp

theorem Hub.pgTimeout_retries (h x y z : Hub) (hp : h.pw.pmicPg = false)
    (hx : x = ((h.until (h.pw.pmicAt + ms 100)).out (.pin "PMIC_EN" false)).out (.pin "DRAM_EN" false))
    (hy : y = (x.lintRec lintNoPg 3 [] true).advance (ms 1000)) (hz : z = (y.out (.pin "DRAM_EN" true)).advance (ms 6)) :
    h.pgTimeout = (z.out (.pin "PMIC_EN" true)).modPw (fun p => { p with dramEn := true, pmicEn := true, pmicAt := z.clk.up }) := by
  subst hz hy hx
  exact if_neg (by simp [hp])

theorem Hub.pgFall_resets (h x y : Hub) (he : h.pw.pmicEn = true) (hp : h.pw.pmicPg = true)
    (hx : x = ((h.tamperAlarm 2 true).tamperRinsed).out (.pin "PMIC_EN" false))
    (hy : y = ((x.advance (ms 20)).out (.pin "PMIC_EN" true)).advance (ms 1)) : h.pgFall = y.warmReset causeTamper y.straps := by
  subst hy hx
  exact if_neg (by simp [he, hp])

theorem Hub.pgFall_disabled (h : Hub) (he : h.pw.pmicEn = false) : h.pgFall = h := if_pos (by simp [he])

/-! ## Power-fail (R486) -/

theorem Hub.powerFail_low (h x : Hub) (mv : Nat) (hv : mv < 6000)
    (hx : x = ((((h.coldReset causePowerOn h.straps).out (.power "FET_OFF" [0])).out (.power "FET_OFF" [1])).out (.pin "PMIC_EN" false)).out
      (.pin "DRAM_EN" false)) :
    h.powerFail mv = x.coreOff.modPw (fun p => { p with state := .off, dramEn := false, pmicEn := false, pmicPg := false }) := by
  simp only [Hub.powerFail, hv, decide_true, Bool.or_true, if_true, ← hx]

/-- VCOM of 7.0 V or more, or of 6.0 V or more with a good input, is enough. -/
theorem Hub.powerFail_enough (h : Hub) (mv : Nat) (h6 : 6000 ≤ mv) (hv : 7000 ≤ mv ∨ h.su.mainOk = true ∨ h.su.backOk = true) :
    h.powerFail mv = h := by
  refine if_neg ?_
  rcases hv with hv | hv | hv <;> simp [hv] <;> omega

/-! ## The commands -/

theorem exec_resetNPulse (w : Nat) (s : State) : exec (.resetNPulse w) s = .next (s.after (s.hub.resetPulse w)) := rfl

theorem exec_resetNLong (s : State) : exec .resetNLong s = .next (s.after (s.hub.coldStart causeLong s.hub.straps)) := rfl

theorem exec_warmReset (c st : Nat) (s : State) : exec (.warmReset c st) s = .next (s.after (s.hub.warmStart c st)) := rfl

theorem exec_thermalShutdown (n : Nat) (r : Int) (s : State) :
    exec (.thermalShutdown n r) s = .next (s.after (s.hub.thermalShutdown n r)) := rfl

theorem exec_thermalRestart (s : State) : exec .thermalRestart s = .next (s.after s.hub.thermalRestart) := rfl

theorem exec_aonPowerUp (m b st : Nat) (s : State) : exec (.aonPowerUp m b st) s = .next (s.after (s.hub.powerUp m b st)) := rfl

theorem exec_pmicPgTimeout (s : State) : exec .pmicPgTimeout s = .next (s.after s.hub.pgTimeout) := rfl

theorem exec_pmicPgFall (s : State) : exec .pmicPgFall s = .next (s.after s.hub.pgFall) := rfl

theorem exec_powerFail (mv : Nat) (s : State) : exec (.powerFail mv) s = .next (s.after (s.hub.powerFail mv)) := rfl

/-- Settles O51: what the resets keep and take from what their parts do, then each command from the lemma on the sequence it runs. -/
theorem resetsStartTheHubAnew : Obligations.ResetsStartTheHubAnew := by
  unfold Obligations.ResetsStartTheHubAnew
  refine ⟨?pulseShort, ?pulseWarm, ?pulseCold, ?warm, ?warmDue, ?warmFrame, ?coldFrame, ?thermalIgnored, ?thermalTrips, ?thermalRestart, ?noInput,
    ?powerUp, ?powerUpAgain, ?pgCame, ?pgRetries, ?pgFalls, ?pgDisabled, ?failLow, ?failHigh, ?failGood⟩
  case pulseShort =>
    intro s w hw
    rw [exec_resetNPulse, Hub.resetPulse_short s.hub w hw]
  case pulseWarm =>
    intro s w h1 h9
    rw [exec_resetNPulse, Hub.resetPulse_warm s.hub w h1 h9, causePulse]
  case pulseCold =>
    intro s w h10
    exact ⟨by rw [exec_resetNPulse, Hub.resetPulse_cold s.hub w h10, Hub.coldStart, causeLong], by rw [exec_resetNLong, Hub.coldStart, causeLong]⟩
  case warm =>
    intro s c st hd
    rw [exec_warmReset, Hub.warmStart, hd, Option.getD_none]
  case warmDue =>
    intro s c st d hd
    rw [exec_warmReset, Hub.warmStart, hd, Option.getD_some]
  case warmFrame => exact Hub.warmReset_frame
  case coldFrame => exact Hub.coldReset_frame
  case thermalIgnored =>
    intro s n r hr
    rw [exec_thermalShutdown, Hub.thermalShutdown_ignored s.hub n r hr]
  case thermalTrips =>
    intro s n r x y hr hs hx hy
    rw [exec_thermalShutdown, Hub.thermalShutdown_trips s.hub x y n r hr hs hx hy]
  case thermalRestart =>
    intro s t hs hc
    rw [exec_thermalRestart, Hub.thermalRestart_restarts s.hub t hs hc, causeThermal]
  case noInput =>
    intro s m b st hm hb
    rw [exec_aonPowerUp, Hub.powerUp_noInput s.hub m b st hm hb]
  case powerUp =>
    rintro s m b st x y z w hm ha rfl rfl rfl rfl
    rw [exec_aonPowerUp, Hub.powerUp_first s.hub m b st hm ha, Hub.sequence, Supply.mainStart, causePowerOn]
  case powerUpAgain =>
    rintro s m b st x y z w hm ho hc rfl rfl rfl rfl
    rw [exec_aonPowerUp, Hub.powerUp_again s.hub m b st hm ho hc, Hub.sequence, Supply.mainStart, causeInputs]
  case pgCame =>
    intro s hp
    rw [exec_pmicPgTimeout, Hub.pgTimeout_come s.hub hp]
  case pgRetries =>
    intro s x y z hp hx hy hz
    rw [exec_pmicPgTimeout, Hub.pgTimeout_retries s.hub x y z hp hx hy hz]
  case pgFalls =>
    intro s x y he hp hx hy
    rw [exec_pmicPgFall, Hub.pgFall_resets s.hub x y he hp hx hy, causeTamper]
  case pgDisabled =>
    intro s he
    rw [exec_pmicPgFall, Hub.pgFall_disabled s.hub he]
  case failLow =>
    intro s mv x hv hx
    rw [exec_powerFail, Hub.powerFail_low s.hub x mv hv hx]
  case failHigh =>
    intro s mv hv
    rw [exec_powerFail, Hub.powerFail_enough s.hub mv (by omega) (.inl hv)]
  case failGood =>
    intro s mv h6 hg
    rw [exec_powerFail, Hub.powerFail_enough s.hub mv h6 (.inr hg)]

end Sys2Proof.Machine
end

section
/-!
SUPPORT. Every command's meaning leaves a settled hub (O2 to O4): a run of steps consumes the queue, and INT_N follows INT_STATUS and INT_MASK.
-/
namespace Sys2Proof.Machine

/-- Every command leaves the hub of its meaning settled, and the queue as it was: the meanings of the dispatch, command by command. -/
theorem exec_next (c : Instr) (s : State) : ∃ g : Hub, exec c s = .next (s.after g) := by
  cases c <;> exact ⟨_, rfl⟩

/-- Settles O2: a command leaves its meaning's hub settled, and nothing else of the state changed. -/
theorem everyCommandAnswersANextState : Obligations.EveryCommandAnswersANextState := by
  unfold Obligations.EveryCommandAnswersANextState
  intro c s
  obtain ⟨g, hg⟩ := exec_next c s
  exact ⟨Hub.settle s.hub g, hg⟩

/-- A step with a command in front answers a next state whose queue is the rest. -/
theorem step_pops (s : State) (c : Instr) (rest : List Instr) (hs : s.pending = c :: rest) :
    ∃ t : State, step s = .next t ∧ t.pending = rest := by
  obtain ⟨g, hg⟩ := exec_next c { s with pending := rest }
  exact ⟨_, by simp only [step, hs]; exact hg, State.after_pending _ g⟩

/-- k steps drop the first k commands of a queue that holds as many. -/
theorem run_drops (k : Nat) (s : State) (hk : k ≤ s.pending.length) :
    ∃ t : State, Sys2Proof.core.run k s = .next t ∧ t.pending = s.pending.drop k := by
  induction k generalizing s with
  | zero => exact ⟨s, rfl, rfl⟩
  | succ k ih =>
    cases hs : s.pending with
    | nil => simp [hs] at hk
    | cons c rest =>
      obtain ⟨u, hu, hrest⟩ := step_pops s c rest hs
      have hlen : k ≤ u.pending.length := by simpa [hs, hrest] using hk
      obtain ⟨t, ht, hdrop⟩ := ih u hlen
      have hrun : Sys2Proof.core.run (k + 1) s = Sys2Proof.core.run k u := by
        have hstep : Sys2Proof.core.step s = .next u := hu
        simp only [Host.Core.run, hstep]
      exact ⟨t, hrun.trans ht, by rw [hdrop, hrest, List.drop_succ_cons]⟩

/-- Settles O3: a run of k steps, by induction on k, each step taking the front command. -/
theorem stepsEmptyTheQueue : Obligations.StepsEmptyTheQueue := by
  unfold Obligations.StepsEmptyTheQueue
  exact fun s k hk => run_drops k s hk

/-- Whether INT_N is right depends on the control model's registers alone. -/
theorem Hub.IntOk_of_ctl {h g : Hub} (hc : h.ctl = g.ctl) : h.IntOk ↔ g.IntOk := by
  simp only [Hub.IntOk, hc]

theorem Hub.intPin_intOk (h : Hub) : h.intPin.IntOk := by
  obtain ⟨hstatus, hmask⟩ := Hub.intPin_regs h
  rw [Hub.IntOk, hstatus, hmask, Hub.intPin_intLow]

/-- Settling leaves INT_N right, whatever the command did to it. -/
theorem Hub.settle_intOk (old h : Hub) : (Hub.settle old h).IntOk := by
  obtain ⟨x, hx⟩ := settle_ends_with_intPin old h
  exact (Hub.IntOk_of_ctl hx).mpr x.intPin_intOk

theorem exec_intOk {c : Instr} {s t : State} (h : exec c s = .next t) : t.hub.IntOk := by
  obtain ⟨g, hg⟩ := exec_next c s
  obtain rfl : s.after g = t := by injection hg.symm.trans h
  rw [State.after_hub]
  exact Hub.settle_intOk s.hub g

/-- An idle nanosecond moves the clock alone. -/
theorem idle_intOk (s : State) (h : s.hub.IntOk) : s.idle.hub.IntOk := (Hub.IntOk_of_ctl rfl).mpr h

/-- Settles O4: a command ends with settling, which sets INT_N; the idle step leaves the registers. -/
theorem intPinFollowsStatusAndMask : Obligations.IntPinFollowsStatusAndMask := by
  unfold Obligations.IntPinFollowsStatusAndMask
  intro s t hs ht
  cases hq : s.pending with
  | nil =>
    obtain rfl : s.idle = t := by injection (step_nil s hq).symm.trans ht
    exact idle_intOk s hs
  | cons c rest =>
    have hexec : exec c { s with pending := rest } = .next t := by simpa only [step, hq] using ht
    exact exec_intOk hexec

end Sys2Proof.Machine
end

section
/-!
SUPPORT. The state after reset (O5).
-/
namespace Sys2Proof.Machine

/-- INT_STATUS and INT_MASK are 0 at reset, and INT_N is not driven. -/
theorem reset_intOk : State.reset.hub.IntOk := by unfold Hub.IntOk; rfl

theorem reset_memOk : State.reset.hub.MemOk := ⟨rfl, rfl, rfl⟩

/-- Settles O5: each field from the reset state. -/
theorem resetIsQuiet : Obligations.ResetIsQuiet := by
  unfold Obligations.ResetIsQuiet
  exact ⟨rfl, reset_intOk, reset_memOk, rfl, rfl, rfl, rfl, rfl, rfl, rfl, rfl, rfl, rfl⟩

end Sys2Proof.Machine
end

section
/-!
SUPPORT. The request as a command's meaning gets it, and the small requests of the control model: identity, echo, reset, list of parameters,
unknown commands, messages too short to be requests (O11, O17).
-/
namespace Sys2Proof.Machine

/-! ## A request's fields -/

@[simp] theorem reqOn_mb (q : Req) (code : Nat) : (reqOn q code).mb = q.mb := rfl
@[simp] theorem reqOn_cmd (q : Req) (code : Nat) : (reqOn q code).cmd = code := rfl
@[simp] theorem reqOn_txn (q : Req) (code : Nat) : (reqOn q code).txn = q.txn := rfl
@[simp] theorem reqOn_payload (q : Req) (code : Nat) : (reqOn q code).payload = q.payload := rfl
@[simp] theorem reqOn_arg (q : Req) (code o n : Nat) : (reqOn q code).arg o n = le q.payload o n := rfl

/-- The payload has n bytes, as a meaning tests it. -/
@[simp] theorem Request.has_iff (r : Request) (n : Nat) : r.has n = true ↔ r.payload.length = n := by
  simp only [Request.has, beq_iff_eq]

/-- A request with the payload's length passes the length test of its meaning. -/
theorem Request.not_has (r : Request) (n : Nat) (hp : r.payload.length = n) : (!r.has n) = false := by
  rw [(r.has_iff n).mpr hp, Bool.not_true]

theorem Request.has_zero (r : Request) : r.has 0 = true ↔ r.payload = [] := by
  rw [Request.has_iff, List.length_eq_zero_iff]

/-! ## What the small requests answer -/

theorem Hub.identify_ok (h : Hub) (r : Request) (hp : r.payload = []) : h.identify r = (h, .ok h.identity) := by
  rw [Hub.identify, if_pos (r.has_zero.mpr hp)]

theorem Hub.identify_badParam (h : Hub) (r : Request) (hp : r.payload ≠ []) : h.identify r = (h, .err .badParam) := by
  rw [Hub.identify, if_neg (mt r.has_zero.mp hp)]

theorem Hub.systemReset_ok (h : Hub) (r : Request) (hp : r.payload = []) :
    h.systemReset r = (h.modPw (fun p => { p with resetDue := some (if r.mb = 0 then causeLine else causeSystem) }), .ok []) := by
  rw [Hub.systemReset, if_pos (r.has_zero.mpr hp)]

theorem Hub.systemReset_badParam (h : Hub) (r : Request) (hp : r.payload ≠ []) : h.systemReset r = (h, .err .badParam) := by
  rw [Hub.systemReset, if_neg (mt r.has_zero.mp hp)]

/-- The PID with which a list of descriptors goes on after the 254 of one response, 0xFFFF after the last (R51). -/
def nextPid (l : List ParamDesc) : Nat := match (l.drop 254).head? with | some d => d.pid | none => 0xFFFF

theorem Hub.paramList_ok (h : Hub) (r : Request) (l : List ParamDesc) (hp : r.payload.length = 2)
    (hl : l = allParams.filter (fun d => r.arg 0 2 ≤ d.pid)) :
    h.paramList r = (h, .ok (leBytes 2 (nextPid l) ++ leBytes 2 (min 254 l.length) ++ List.replicate 12 0#8 ++
      (l.take 254).flatMap h.descBytes)) := by
  simp only [Hub.paramList, r.not_has 2 hp, Bool.false_eq_true, if_false, ← hl, List.length_take]
  rfl

/-- A code of no list has no meaning but BAD_COMMAND (R40). -/
theorem Hub.runCode_unknown (h : Hub) (r : Request) (hk : knownCode r.cmd = false) : h.runCode r = (h, .err .badCommand) := by
  unfold Hub.runCode
  split
  case h_48 => rfl
  all_goals
    rename_i hcode
    rw [hcode] at hk
    exact absurd hk (by decide)

/-! ## The commands -/

theorem exec_identify (q : Req) (s : State) : exec (.identify q) s = .next (s.after (s.hub.request 0x0101 q Hub.identify)) := rfl

theorem exec_paramList (q : Req) (s : State) : exec (.paramList q) s = .next (s.after (s.hub.request 0x0104 q Hub.paramList)) := rfl

theorem exec_systemReset (q : Req) (s : State) : exec (.systemReset q) s = .next (s.after (s.hub.request 0x0105 q Hub.systemReset)) := rfl

theorem exec_echo (q : Req) (s : State) : exec (.echo q) s = .next (s.after (s.hub.request 0x0106 q Hub.echo)) := rfl

theorem exec_unknownCommand (cmd : Nat) (q : Req) (s : State) :
    exec (.unknownCommand cmd q) s = .next (s.after (s.hub.request cmd q Hub.runCode)) := rfl

theorem exec_msgShort (mb n : Nat) (s : State) : exec (.msgShort mb n) s = .next (s.after (s.hub.shortMessage mb n)) := rfl

/-- Settles O11, each clause from what its command's meaning answers. -/
theorem identityEchoAndResetRequests : Obligations.IdentityEchoAndResetRequests := by
  unfold Obligations.IdentityEchoAndResetRequests
  refine ⟨?identify, ?identifyBad, ?echo, ?reset, ?resetBad, ?list, ?unknown⟩
  case identify =>
    intro s q a ha hA hp
    rw [exec_identify, Hub.request_plain s.hub q _ _ a a _ (by decide) ha hA (Hub.identify_ok a _ hp), Hub.identity]
  case identifyBad =>
    intro s q a ha hA hp
    rw [exec_identify, Hub.request_plain s.hub q _ _ a a _ (by decide) ha hA (Hub.identify_badParam a _ hp)]
  case echo =>
    intro s q a ha hA
    rw [exec_echo, Hub.request_plain s.hub q _ Hub.echo a a (.ok q.payload) (by decide) ha hA rfl]
  case reset =>
    intro s q a ha hA hp
    rw [exec_systemReset, Hub.request_plain s.hub q _ _ a _ _ (by decide) ha hA (Hub.systemReset_ok a _ hp), reqOn_mb]
  case resetBad =>
    intro s q a ha hA hp
    rw [exec_systemReset, Hub.request_plain s.hub q _ _ a a _ (by decide) ha hA (Hub.systemReset_badParam a _ hp)]
  case list =>
    intro s q a l ha hA hp hl
    rw [exec_paramList, Hub.request_plain s.hub q _ _ a a _ (by decide) ha hA (Hub.paramList_ok a _ l hp hl)]
    rfl
  case unknown =>
    intro s q a cmd ha hA ht hk
    rw [exec_unknownCommand, Hub.request_zero s.hub q _ _ a a _ ht ha hA (Hub.runCode_unknown a _ hk)]

/-! ## Messages too short to be requests (R494) -/

/-- A mailbox with one more message behind those that wait. -/
def Mailbox.holding (w : RawMsg) (b : Mailbox) : Mailbox := { b with waiting := b.waiting ++ [w] }

/-- A message placed on a mailbox without a ring waits behind the others. -/
theorem Hub.place_transport (h : Hub) (m : Nat) (bs : List Byte) (entry : Nat) (hm : m ≠ 1 ∧ m ≠ 2) :
    h.place m bs entry = h.modMb m (Mailbox.holding ⟨bs, entry⟩) := by
  simp only [Hub.place, hm.1, hm.2, decide_false, Bool.or_self, Bool.false_eq_true, if_false]
  rfl

/-- A message that waits alone and is taken away leaves the hub as it was. -/
theorem Hub.modMb_holding_drop (h : Hub) (m : Nat) (w : RawMsg) (hw : (h.mb m).waiting = []) :
    (h.modMb m (Mailbox.holding w)).modMb m (fun b => { b with waiting := b.waiting.drop 1 }) = h := by
  have hone : { h.mb m with waiting := ((h.mb m).waiting ++ [w]).drop 1 } = h.mb m := by
    rw [hw, List.nil_append, List.drop_one, List.tail_cons, ← hw]
  simp only [Hub.modMb, modAt_modAt, Mailbox.holding]
  rw [modAt_fix h.ctl.mbs m _ (Mailbox.reset 0) hone]

theorem Hub.waitingCount_transport (h : Hub) (m : Nat) (hm : m ≠ 1 ∧ m ≠ 2) : h.waitingCount m = (h.mb m).waiting.length := by
  simp only [Hub.waitingCount, hm.1, hm.2, decide_false, Bool.or_self, Bool.false_eq_true, if_false]

/-- A mailbox with nothing waiting is examined in vain. -/
theorem Hub.examine_idle (h : Hub) (m : Nat) (hw : h.waitingCount m = 0) : h.examine m = h := by
  rw [Hub.examine, hw, Hub.serveN]

/-- A short message alone on a served mailbox goes as it came, but for its count. -/
theorem Hub.serveOne_short (h : Hub) (m : Nat) (w : RawMsg) (body : Hub → Request → Hub × Reply) (hm : m ≠ 1 ∧ m ≠ 2)
    (hlen : m < h.ctl.mbs.length) (hs : h.mbServed m = true) (hw : (h.mb m).waiting = []) (hb : w.bytes.length < 16) :
    (h.modMb m (Mailbox.holding w)).serveOne m body = h.bump P.MG_MSG_SHORT m := by
  have hwait : ((h.modMb m (Mailbox.holding w)).mb m).waiting = [w] := by
    rw [Hub.mb_modMb_same h m _ hlen, Mailbox.holding, hw, List.nil_append]
  have hserved : (h.modMb m (Mailbox.holding w)).mbServed m = true := (Hub.mbServed_modMb h m _ hlen rfl rfl).trans hs
  have hfront : (h.modMb m (Mailbox.holding w)).front m = (w.bytes, w.entry) := by
    simp only [Hub.front, hm.1, hm.2, if_false, hwait]
  rw [Hub.serveOne, hserved, Hub.waitingCount_transport _ m hm, hfront, hwait]
  simp only [List.length_singleton, hb, Bool.not_true, decide_false, Bool.or_self, Bool.false_eq_true, one_ne_zero, if_true,
    if_false, Hub.modMb_holding_drop h m w hw]

theorem Hub.shortMessage_alone (h : Hub) (m n : Nat) (hm : m = 0 ∨ m = 3) (hlen : m < h.ctl.mbs.length) (hs : h.mbServed m = true)
    (hw : (h.mb m).waiting = []) : h.shortMessage m n = h.bump P.MG_MSG_SHORT m := by
  have hring : m ≠ 1 ∧ m ≠ 2 := by omega
  have hcount : h.waitingCount m = 0 := by rw [Hub.waitingCount_transport h m hring, hw, List.length_nil]
  have hshort : (List.replicate (min n 15) 0#8).length < 16 := by rw [List.length_replicate]; omega
  have hcond : (decide (m = 0) || decide (m = 3)) = true := by simpa using hm
  rw [Hub.shortMessage, if_pos hcond, Hub.examine_idle h m hcount]
  simp only [hcount, if_true, Hub.place_transport h m _ _ hring]
  exact Hub.serveOne_short h m _ Hub.unknown hring hlen hs hw hshort

/-- Settles O17: the message is placed alone, and consumed and counted at once. -/
theorem shortMessagesAreDiscarded : Obligations.ShortMessagesAreDiscarded := by
  unfold Obligations.ShortMessagesAreDiscarded
  intro s mb n hm hlen hs hw _
  rw [exec_msgShort, Hub.shortMessage_alone s.hub mb n hm hlen hs hw]

end Sys2Proof.Machine
end

section
/-!
SUPPORT. PARAM_GET and PARAM_SET: items read without effect, items written as one commit, refused, or staged (O12).
-/
namespace Sys2Proof.Machine

/-! ## The header of a response to items (R49, R50) -/

theorem firstFailure_none (l : List Status) (hl : ∀ y ∈ l, y = Status.ok) : firstFailure l = none := by
  have hfind : l.findIdx? (fun s => s != .ok) = none := List.findIdx?_eq_none_iff.mpr (fun y hy => by simp [hl y hy])
  simp only [firstFailure, hfind]

theorem itemsReply_ok (l : List Status) (p : List Byte) (hl : ∀ y ∈ l, y = Status.ok) : itemsReply l p = .ok p := by
  simp only [itemsReply, firstFailure_none l hl]

theorem all_ok_iff (l : List Status) : l.all (fun s => s == .ok) = true ↔ ∀ y ∈ l, y = Status.ok := by
  simp only [List.all_eq_true, beq_iff_eq]

/-! ## PARAM_GET (R49) -/

/-- An item that exists, can be read and is not cleared by reading. -/
def readable (i : ParamItem) : Prop :=
  ∃ d, descOf i.pid = some d ∧ i.inst < d.count ∧ d.first ≤ i.inst ∧ d.access ≠ .wo ∧ d.access ≠ .rc

/-- What PARAM_GET shows of a readable item: the value in force in the width of its parameter. -/
def Hub.readBytes (h : Hub) (i : ParamItem) : List Byte :=
  itemBytes i .ok (h.isStaged i.pid i.inst) (h.pread i.pid i.inst % 2 ^ (8 * ((descOf i.pid).map (·.width)).getD 8))

theorem Hub.getItem_readable (h : Hub) (i : ParamItem) (hi : readable i) :
    h.getItem i.pid i.inst = (h, .ok, h.pread i.pid i.inst % 2 ^ (8 * ((descOf i.pid).map (·.width)).getD 8)) := by
  obtain ⟨d, hd, hcount, hfirst, hwo, hrc⟩ := hi
  simp only [Hub.getItem, hd, Nat.not_le.mpr hcount, Nat.not_lt.mpr hfirst, hwo, Hub.paramRead, Hub.readEffect, hrc, ne_eq, not_false_eq_true,
    decide_false, Bool.or_self, Bool.false_eq_true, if_true, if_false, Option.map_some, Option.getD_some]

/-- Readable items leave the hub as it is, and each is shown. -/
theorem Hub.getItems_readable (l : List ParamItem) (h : Hub) (hl : ∀ i ∈ l, readable i) :
    Hub.getItems l h = (h, l.map (fun _ => Status.ok), l.flatMap h.readBytes) := by
  induction l with
  | nil => rfl
  | cons i l ih =>
    simp only [Hub.getItems, Hub.getItem_readable h i (hl i List.mem_cons_self), ih (fun j hj => hl j (List.mem_cons_of_mem i hj)),
      List.map_cons, List.flatMap_cons, Hub.readBytes]

theorem Hub.paramGet_good (h : Hub) (r : Request) (hg : itemsGood r.payload = true) :
    h.paramGet r = ((Hub.getItems (itemsOf r.payload) h).1,
      itemsReply (Hub.getItems (itemsOf r.payload) h).2.1 (Hub.getItems (itemsOf r.payload) h).2.2) := by
  rw [Hub.paramGet, hg, if_neg (by decide)]

theorem Hub.paramGet_readable (h : Hub) (r : Request) (hg : itemsGood r.payload = true) (hr : ∀ i ∈ itemsOf r.payload, readable i) :
    h.paramGet r = (h, .ok ((itemsOf r.payload).flatMap h.readBytes)) := by
  rw [Hub.paramGet_good h r hg, Hub.getItems_readable _ h hr, itemsReply_ok]
  intro y hy
  obtain ⟨-, -, rfl⟩ := List.mem_map.mp hy
  rfl

theorem Hub.paramGet_badParam (h : Hub) (r : Request) (hg : itemsGood r.payload = false) : h.paramGet r = (h, .err .badParam) := by
  rw [Hub.paramGet, hg, if_pos (by decide)]

/-! ## PARAM_SET outside a transaction (R50, R52) -/

/-- The hub with the first fields that a PARAM_SET leaves open. -/
def Hub.withPairs (h : Hub) (l : List OpenPair) : Hub := { h with ctl := { h.ctl with pairs := l } }

/-- Items that are all acceptable apply as one commit. -/
theorem Hub.writeParams_accepted (h : Hub) (mb : Nat) (l : List ParamItem) (hok : ∀ y ∈ (h.setOutcomes mb l).1, y = Status.ok) :
    h.writeParams mb l =
      ((h.withPairs (h.setOutcomes mb l).2.opens).applyChange ⟨(h.setOutcomes mb l).2.apply, [], []⟩, (h.setOutcomes mb l).1) := by
  simp only [Hub.writeParams, (all_ok_iff _).mpr hok, if_true, Hub.withPairs]

/-- With any of them refused none applies. -/
theorem Hub.writeParams_refused (h : Hub) (mb : Nat) (l : List ParamItem) (hbad : ¬ ∀ y ∈ (h.setOutcomes mb l).1, y = Status.ok) :
    h.writeParams mb l = (h, (h.setOutcomes mb l).1) := by
  simp only [Hub.writeParams, mt (all_ok_iff _).mp hbad, Bool.false_eq_true, if_false]

theorem Hub.paramSet_now (h : Hub) (r : Request) (ht : r.txn = 0) (hg : itemsGood r.payload = true) :
    h.paramSet r = ((h.writeParams r.mb (itemsOf r.payload)).1, itemsReply (h.writeParams r.mb (itemsOf r.payload)).2
      ((h.writeParams r.mb (itemsOf r.payload)).1.setItems ((itemsOf r.payload).zip (h.writeParams r.mb (itemsOf r.payload)).2))) := by
  rw [Hub.paramSet, if_pos ht, Hub.paramSetNow, hg, if_neg (by decide)]

theorem Hub.paramSet_accepted (h x : Hub) (r : Request) (o : List Status × Plan) (ht : r.txn = 0) (hg : itemsGood r.payload = true)
    (ho : o = h.setOutcomes r.mb (itemsOf r.payload)) (hok : ∀ y ∈ o.1, y = Status.ok)
    (hx : x = (h.withPairs o.2.opens).applyChange ⟨o.2.apply, [], []⟩) :
    h.paramSet r = (x, .ok (x.setItems ((itemsOf r.payload).zip o.1))) := by
  subst ho hx
  rw [Hub.paramSet_now h r ht hg, Hub.writeParams_accepted h _ _ hok, itemsReply_ok _ _ hok]

theorem Hub.paramSet_refused (h : Hub) (r : Request) (o : List Status × Plan) (ht : r.txn = 0) (hg : itemsGood r.payload = true)
    (ho : o = h.setOutcomes r.mb (itemsOf r.payload)) (hbad : ¬ ∀ y ∈ o.1, y = Status.ok) :
    h.paramSet r = (h, itemsReply o.1 (h.setItems ((itemsOf r.payload).zip o.1))) := by
  subst ho
  rw [Hub.paramSet_now h r ht hg, Hub.writeParams_refused h _ _ hbad]

/-! ## PARAM_SET in a transaction (R50, R54) -/

/-- The outcomes of the items of a PARAM_SET in a transaction. -/
def Hub.stageOutcomes (h : Hub) (mb : Nat) (t : Txn) (l : List ParamItem) : List Status :=
  (l.map formOf).map (h.stageOutcome (h.viewOf (t.with_ (goodItems (l.map formOf)) [] [])) mb t.id)

theorem Hub.paramSet_staged (h x : Hub) (r : Request) (t : Txn) (hr : r.txn ≠ 0) (hg : itemsGood r.payload = true)
    (ho : h.ownTxn r.mb r.txn = some t) (hs : t.sched = none) (hok : ∀ y ∈ h.stageOutcomes r.mb t (itemsOf r.payload), y = Status.ok)
    (hx : h.stage t (goodItems ((itemsOf r.payload).map formOf)) [] [] = some x) :
    h.paramSet r = (x, .ok (x.setItems ((itemsOf r.payload).zip (h.stageOutcomes r.mb t (itemsOf r.payload))))) := by
  have hall := (all_ok_iff _).mpr hok
  simp only [Hub.stageOutcomes] at hall ⊢
  simp only [Hub.paramSet, hr, if_false, Hub.paramSetIn, hg, Bool.not_true, Bool.false_eq_true, ho, hs, Option.isSome_none, hall, if_true, hx]

/-! ## The commands -/

theorem exec_paramGet (q : Req) (s : State) : exec (.paramGet q) s = .next (s.after (s.hub.request 0x0102 q Hub.paramGet)) := rfl

theorem exec_paramSet (q : Req) (s : State) : exec (.paramSet q) s = .next (s.after (s.hub.request 0x0103 q Hub.paramSet)) := rfl

/-- Settles O12, each clause from what its command's meaning answers. -/
theorem parameterRequestsReadAndWrite : Obligations.ParameterRequestsReadAndWrite := by
  unfold Obligations.ParameterRequestsReadAndWrite
  refine ⟨?getPlain, ?get, ?getBad, ?setAccepted, ?setRefused, ?setStaged⟩
  case getPlain =>
    intro s q a ha hA hg hr
    rw [exec_paramGet, Hub.request_plain s.hub q _ _ a a _ (by decide) ha hA (Hub.paramGet_readable a _ hg hr)]
    rfl
  case get =>
    intro s q a ha hA hg
    rw [exec_paramGet, Hub.request_plain s.hub q _ _ a _ _ (by decide) ha hA (Hub.paramGet_good a _ hg), reqOn_payload]
  case getBad =>
    intro s q a ha hA hg
    rw [exec_paramGet, Hub.request_plain s.hub q _ _ a a _ (by decide) ha hA (Hub.paramGet_badParam a _ hg)]
  case setAccepted =>
    intro s q a o x ha hA ht hg ho hok hx
    rw [exec_paramSet, Hub.request_zero s.hub q _ _ a x _ ht ha hA (Hub.paramSet_accepted a x _ o ht hg ho hok hx), reqOn_payload]
  case setRefused =>
    intro s q a o ha hA ht hg ho hbad
    rw [exec_paramSet, Hub.request_zero s.hub q _ _ a a _ ht ha hA (Hub.paramSet_refused a _ o ht hg ho hbad), reqOn_payload]
  case setStaged =>
    intro s q a t x ha hA hg ho hs hq hok hx
    rw [exec_paramSet, Hub.request_done s.hub q _ _ a x _ ha hA (Hub.paramSet_staged a x _ t hq hg ho hs hok hx)]
    rfl

end Sys2Proof.Machine
end

section
/-!
SUPPORT. Transactions: begin, commit, schedule, abort, status and their ends (O13).
-/
namespace Sys2Proof.Machine

/-! ## TXN_BEGIN and TXN_STATUS (R56, R62) -/

/-- A request without payload passes the length test of its meaning. -/
theorem Request.not_has_zero (r : Request) (hp : r.payload = []) : (!r.has 0) = false :=
  r.not_has 0 (List.length_eq_zero_iff.mpr hp)

/-- The hub with the next transaction open on a mailbox. -/
def Hub.withTxn (h : Hub) (mb : Nat) : Hub :=
  { h with ctl := { h.ctl with txns := h.ctl.txns ++ [⟨h.ctl.nextTxn, mb, none, [], [], [], h.clk.up⟩], nextTxn := h.ctl.nextTxn + 1 } }

theorem Hub.txnBegin_opens (h : Hub) (r : Request) (hp : r.payload = []) (hn : h.ctl.txns.any (fun t => t.mb == r.mb) = false) :
    h.txnBegin r = (h.withTxn r.mb, .ok []) := by
  simp only [Hub.txnBegin, r.not_has_zero hp, hn, Bool.false_eq_true, if_false, Hub.withTxn]

theorem Hub.txnBegin_full (h : Hub) (r : Request) (hp : r.payload = []) (hn : h.ctl.txns.any (fun t => t.mb == r.mb) = true) :
    h.txnBegin r = (h, .err .txnFull) := by
  simp only [Hub.txnBegin, r.not_has_zero hp, hn, Bool.false_eq_true, if_false, if_true]

theorem Hub.txnStatus_own (h : Hub) (r : Request) (t : Txn) (hp : r.payload = []) (ho : h.ownTxn r.mb r.txn = some t) :
    h.txnStatus r = (h, .ok ([byte (if t.sched.isSome then 1 else 0), byte t.mb] ++ leBytes 2 t.items.length ++ leBytes 4 t.tableBytes ++
      leBytes 8 ((t.sched.map (·.t)).getD 0))) := by
  simp only [Hub.txnStatus, r.not_has_zero hp, ho, Bool.false_eq_true, if_false]
  cases t.sched <;> rfl

theorem Hub.txnStatus_done (h : Hub) (r : Request) (t : TxnRecord) (hp : r.payload = []) (hn : h.ownTxn r.mb r.txn = none)
    (hd : h.ctl.doneTxns.find? (fun t => t.id == r.txn && t.mb == r.mb) = some t) :
    h.txnStatus r = (h, .ok ([byte (if t.committed then 2 else 3), byte t.mb] ++ leBytes 2 t.items ++ leBytes 4 t.bytes ++ leBytes 8 t.applied)) := by
  simp only [Hub.txnStatus, r.not_has_zero hp, hn, hd, Bool.false_eq_true, if_false]

/-! ## TXN_COMMIT and TXN_COMMIT_AT (R58 to R61) -/

/-- An open transaction of the mailbox is what a command of it acts on. -/
theorem Hub.inTxn_open (h : Hub) (r : Request) (f : Txn → Hub × Reply) (t : Txn) (ho : h.ownTxn r.mb r.txn = some t) (hs : t.sched = none) :
    h.inTxn r f = f t := by
  simp only [Hub.inTxn, ho, hs, Option.isSome_none, Bool.false_eq_true, if_false]

theorem Hub.validated_ok (h : Hub) (r : Request) (f : Txn → Hub × Reply) (t : Txn) (ho : h.ownTxn r.mb r.txn = some t) (hs : t.sched = none)
    (hf : h.failing t = none) (hc : h.cmdFailing t = none) : h.validated r f = f t := by
  simp only [Hub.validated, Hub.inTxn_open h r _ t ho hs, hf, hc]

theorem Hub.validated_failing (h : Hub) (r : Request) (f : Txn → Hub × Reply) (t : Txn) (x : Failing) (ho : h.ownTxn r.mb r.txn = some t)
    (hs : t.sched = none) (hf : h.failing t = some x) : h.validated r f = (h, x.reply) := by
  simp only [Hub.validated, Hub.inTxn_open h r _ t ho hs, hf]

section Commit

variable (h : Hub) (r : Request) (t : Txn) (hp : r.payload = []) (ho : h.ownTxn r.mb r.txn = some t) (hs : t.sched = none)
include hp ho hs

/-- A transaction that touches no unit under way applies and answers OK. -/
theorem Hub.txnCommit_free (hf : h.failing t = none) (hc : h.cmdFailing t = none) (hu : h.touchedScans t = []) (hv : h.touched t = []) :
    h.txnCommit r = (h.commit t, .ok []) := by
  simp only [Hub.txnCommit, r.not_has_zero hp, Hub.validated_ok h r _ t ho hs hf hc, hu, hv, List.isEmpty_nil, Bool.not_true,
    Bool.false_eq_true, if_false, if_true]

/-- One that touches transfers or accesses applies, and owes its OK until they are over. -/
theorem Hub.txnCommit_held (hf : h.failing t = none) (hc : h.cmdFailing t = none) (hu : h.touchedScans t = []) (hv : h.touched t ≠ []) :
    h.txnCommit r = (h.commit t, .held t.id (h.touched t)) := by
  simp only [Hub.txnCommit, r.not_has_zero hp, Hub.validated_ok h r _ t ho hs hf hc, hu, List.isEmpty_nil, Bool.not_true,
    List.isEmpty_eq_false_iff.mpr hv, Bool.false_eq_true, if_false]

/-- One that touches the scan of a head applies, and its end is that of an operation. -/
theorem Hub.txnCommit_long (hf : h.failing t = none) (hc : h.cmdFailing t = none) (hu : h.touchedScans t ≠ []) (hn : h.ctl.ops.length < 16) :
    h.txnCommit r = (Hub.drainStep h ((h.withOp r.mb r.cmd (.commit t.id (h.touched t) h.clk.ns)).commit t) r.mb h.ctl.nextToken r.cmd,
      .long h.ctl.nextToken) := by
  simp only [Hub.txnCommit, r.not_has_zero hp, Hub.validated_ok h r _ t ho hs hf hc, List.isEmpty_eq_false_iff.mpr hu, Bool.not_false,
    Hub.startOp_eq h _ _ _ hn, Bool.false_eq_true, if_false, if_true]

theorem Hub.txnCommit_failing (f : Failing) (hf : h.failing t = some f) : h.txnCommit r = (h, f.reply) := by
  simp only [Hub.txnCommit, r.not_has_zero hp, Hub.validated_failing h r _ t f ho hs hf, Bool.false_eq_true, if_false]

end Commit

/-- The hub with a transaction scheduled for the allotment cycle boundary at or after T. -/
def Hub.schedule (h : Hub) (id at_ token : Nat) : Hub :=
  h.modTxns (fun l => l.map (fun x => if x.id = id then { x with sched := some ⟨at_, boundaryAt at_, token⟩ } else x))

theorem Hub.txnCommitAt_schedules (h : Hub) (r : Request) (t : Txn) (hp : r.payload.length = 8) (ho : h.ownTxn r.mb r.txn = some t)
    (hs : t.sched = none) (hf : h.failing t = none) (hc : h.cmdFailing t = none) (ht : h.timeRefusal (r.arg 0 8) = none)
    (hn : h.ctl.ops.length < 16) :
    h.txnCommitAt r =
      ((h.withOp r.mb r.cmd (.scheduled t.id)).schedule t.id (r.arg 0 8) h.ctl.nextToken, .long h.ctl.nextToken) := by
  simp only [Hub.txnCommitAt, r.not_has 8 hp, Hub.validated_ok h r _ t ho hs hf hc, ht, Hub.startOp_eq h _ _ _ hn, Bool.false_eq_true,
    if_false, Hub.schedule]

/-! ## TXN_ABORT and MG_TXN_TIMEOUT (R55) -/

theorem Hub.abandon_open (h : Hub) (t : Txn) (hs : t.sched = none) : h.abandon t = h.retire t false 0 := by
  simp only [Hub.abandon, hs]

theorem Hub.abandon_scheduled (h : Hub) (t : Txn) (z : Schedule) (hs : t.sched = some z) :
    h.abandon t = (h.retire t false 0).endOp z.token .aborted 0 [] := by
  simp only [Hub.abandon, hs]

theorem Hub.txnAbort_open (h : Hub) (r : Request) (t : Txn) (hp : r.payload = []) (ho : h.ownTxn r.mb r.txn = some t) (hs : t.sched = none) :
    h.txnAbort r = (h.retire t false 0, .ok []) := by
  simp only [Hub.txnAbort, r.not_has_zero hp, ho, hs, Hub.abandon_open h t hs, Bool.false_eq_true, if_false]

theorem Hub.txnAbort_scheduled (h : Hub) (r : Request) (t : Txn) (z : Schedule) (hp : r.payload = []) (ho : h.ownTxn r.mb r.txn = some t)
    (hs : t.sched = some z) (hz : h.clk.ns + us 50 ≤ z.instant) :
    h.txnAbort r = ((h.retire t false 0).endOp z.token .aborted 0 [], .ok []) := by
  have hcan : h.canAbandon z = true := decide_eq_true hz
  simp only [Hub.txnAbort, r.not_has_zero hp, ho, hs, hcan, Hub.abandon_scheduled h t z hs, Bool.false_eq_true, if_false, if_true]

theorem Hub.txnAbort_busy (h : Hub) (r : Request) (t : Txn) (z : Schedule) (hp : r.payload = []) (ho : h.ownTxn r.mb r.txn = some t)
    (hs : t.sched = some z) (hz : z.instant < h.clk.ns + us 50) : h.txnAbort r = (h, .err .busy) := by
  have hcan : h.canAbandon z = false := decide_eq_false (Nat.not_le.mpr hz)
  simp only [Hub.txnAbort, r.not_has_zero hp, ho, hs, hcan, Bool.false_eq_true, if_false]

theorem Hub.txnTimeout_expires (h : Hub) (mb : Nat) (t : Txn) (hf : h.ctl.txns.find? (fun t => t.mb == mb && t.sched.isNone) = some t)
    (hs : t.sched = none) :
    h.txnTimeout mb =
      ((h.until (t.lastCmd + ms (h.pget P.MG_TXN_TIMEOUT 0))).retire t false 0).notify .txnExpired 0 [(0, 4, t.id)] := by
  simp only [Hub.txnTimeout, hf, Hub.abandon_open _ t hs]

/-! ## The ends of commits (R54, R60, R61, R65) -/

section Scheduled

variable (h x : Hub) (mb i : Nat) (t : Txn) (z : Schedule) (o : LongOp)
  (hf : h.ctl.txns.find? (fun t => t.mb == mb && t.sched.isSome) = some t) (hs : t.sched = some z) (ho : h.op z.token = some o)
  (hw : o.work = .scheduled i) (hx : x = h.untilLine z.instant)
include hf hs ho hw hx

/-- A scheduled transaction with no unit to wait for ends with its outcome at its instant. -/
theorem Hub.scheduledApply_ends (hu : x.touched t = []) (hd : Hub.mustDrain x (x.applyTxn t) = false) :
    h.scheduledApply mb =
      ((((x.applyTxn t).retire t true (x.applyTxn t).clk.ns).endOp z.token .ok 0 []).txnApplied t.id) := by
  subst hx
  simp only [Hub.scheduledApply, hf, hs, Option.bind_some, ho, Option.map_some, hw, hu, hd, List.isEmpty_nil, Bool.not_true, Bool.or_self,
    Bool.false_eq_true, if_false]

/-- One that touched units under way has applied, and its operation waits for them. -/
theorem Hub.scheduledApply_waits (hu : x.touched t ≠ []) :
    h.scheduledApply mb = (Hub.drainStep x (x.applyTxn t) t.mb z.token 0x0203).modOp z.token
      (fun o => { o with work := .commit t.id (x.touched t) (x.applyTxn t).clk.ns }) := by
  subst hx
  simp only [Hub.scheduledApply, hf, hs, Option.bind_some, ho, Option.map_some, hw, List.isEmpty_eq_false_iff.mpr hu, Bool.not_false,
    Bool.true_or, if_true]

end Scheduled

section CommitDone

variable (h : Hub) (token id at_ : Nat) (us : List WorkUnit) (o : LongOp) (ho : h.op token = some o) (hw : o.work = .commit id us at_)
include ho hw

/-- A commit that waited ends once every unit it touched is over and no drain owes its outcome. -/
theorem Hub.commitDone_ends (hu : us.filter h.runs = []) (hd : h.drainOwes o = false) :
    h.commitDone token = h.finishCommit token id at_ .ok := by
  simp only [Hub.commitDone, ho, hw, hu, hd, List.isEmpty_nil, Bool.not_false, Bool.and_self, if_true]

/-- Before that it does not. -/
theorem Hub.commitDone_waits (hu : us.filter h.runs ≠ []) : h.commitDone token = h := by
  simp only [Hub.commitDone, ho, hw, List.isEmpty_eq_false_iff.mpr hu, Bool.false_and, Bool.false_eq_true, if_false]

end CommitDone

/-! ## The commands -/

theorem exec_txnBegin (q : Req) (s : State) : exec (.txnBegin q) s = .next (s.after (s.hub.request 0x0201 q Hub.txnBegin)) := rfl

theorem exec_txnCommit (q : Req) (s : State) : exec (.txnCommit q) s = .next (s.after (s.hub.request 0x0202 q Hub.txnCommit)) := rfl

theorem exec_txnCommitAt (q : Req) (s : State) : exec (.txnCommitAt q) s = .next (s.after (s.hub.request 0x0203 q Hub.txnCommitAt)) := rfl

theorem exec_txnAbort (q : Req) (s : State) : exec (.txnAbort q) s = .next (s.after (s.hub.request 0x0204 q Hub.txnAbort)) := rfl

theorem exec_txnStatus (q : Req) (s : State) : exec (.txnStatus q) s = .next (s.after (s.hub.request 0x0205 q Hub.txnStatus)) := rfl

theorem exec_txnTimeout (mb : Nat) (s : State) : exec (.txnTimeout mb) s = .next (s.after (s.hub.txnTimeout mb)) := rfl

theorem exec_txnScheduledApply (mb : Nat) (s : State) : exec (.txnScheduledApply mb) s = .next (s.after (s.hub.scheduledApply mb)) := rfl

theorem exec_txnCommitDone (token : Nat) (s : State) : exec (.txnCommitDone token) s = .next (s.after (s.hub.commitDone token)) := rfl

/-- Settles O13, each clause from what its command's meaning does to the transaction. -/
theorem transactionRequests : Obligations.TransactionRequests := by
  unfold Obligations.TransactionRequests
  refine ⟨?begins, ?full, ?commitFree, ?commitHeld, ?commitLong, ?commitFails, ?commitAt, ?abortOpen, ?abortScheduled, ?abortBusy, ?statusOwn,
    ?statusDone, ?timeout, ?scheduledEnds, ?scheduledWaits, ?doneEnds, ?doneWaits⟩
  case begins =>
    intro s q a ha hA hp hn
    rw [exec_txnBegin, Hub.request_plain s.hub q _ _ a _ _ (by decide) ha hA (Hub.txnBegin_opens a _ hp hn)]
    rfl
  case full =>
    intro s q a ha hA hp hn
    rw [exec_txnBegin, Hub.request_plain s.hub q _ _ a a _ (by decide) ha hA (Hub.txnBegin_full a _ hp hn)]
  case commitFree =>
    rintro s q a t x ha hA hp ho hs hf hc hu hv rfl
    rw [exec_txnCommit, Hub.request_done s.hub q _ _ a _ _ ha hA (Hub.txnCommit_free a _ t hp ho hs hf hc hu hv), Hub.commit, Hub.applyTxn]
  case commitHeld =>
    rintro s q a t x ha hA hp ho hs hf hc hu hv rfl
    rw [exec_txnCommit, Hub.request_done s.hub q _ _ a _ _ ha hA (Hub.txnCommit_held a _ t hp ho hs hf hc hu hv), Hub.commit, Hub.applyTxn]
  case commitLong =>
    intro s q a t ha hA hp ho hs hf hc hu hn
    rw [exec_txnCommit, Hub.request_done s.hub q _ _ a _ _ ha hA (Hub.txnCommit_long a _ t hp ho hs hf hc hu hn), reqOn_mb, reqOn_cmd]
  case commitFails =>
    intro s q a t f ha hA hp ho hs hf
    rw [exec_txnCommit, Hub.request_done s.hub q _ _ a a _ ha hA (Hub.txnCommit_failing a _ t hp ho hs f hf), Failing.reply, Failing.bytes]
  case commitAt =>
    intro s q a t ha hA hp ho hs hf hc ht hn
    rw [exec_txnCommitAt, Hub.request_done s.hub q _ _ a _ _ ha hA (Hub.txnCommitAt_schedules a _ t hp ho hs hf hc ht hn)]
    rfl
  case abortOpen =>
    intro s q a t ha hA hp ho hs
    rw [exec_txnAbort, Hub.request_done s.hub q _ _ a _ _ ha hA (Hub.txnAbort_open a _ t hp ho hs)]
  case abortScheduled =>
    intro s q a t z ha hA hp ho hs hz
    rw [exec_txnAbort, Hub.request_done s.hub q _ _ a _ _ ha hA (Hub.txnAbort_scheduled a _ t z hp ho hs hz)]
  case abortBusy =>
    intro s q a t z ha hA hp ho hs hz
    rw [exec_txnAbort, Hub.request_done s.hub q _ _ a a _ ha hA (Hub.txnAbort_busy a _ t z hp ho hs hz)]
  case statusOwn =>
    intro s q a t ha hA hp ho
    rw [exec_txnStatus, Hub.request_done s.hub q _ _ a a _ ha hA (Hub.txnStatus_own a _ t hp ho)]
  case statusDone =>
    intro s q a t ha hA hp hn hd
    rw [exec_txnStatus, Hub.request_done s.hub q _ _ a a _ ha hA (Hub.txnStatus_done a _ t hp hn hd)]
  case timeout =>
    intro s mb t hf hs
    rw [exec_txnTimeout, Hub.txnTimeout_expires s.hub mb t hf hs]
  case scheduledEnds =>
    rintro s mb i t z o x y hf hs ho hw hx rfl hu hd
    rw [exec_txnScheduledApply, Hub.scheduledApply_ends s.hub x mb i t z o hf hs ho hw hx hu hd, Hub.applyTxn]
  case scheduledWaits =>
    rintro s mb i t z o x y hf hs ho hw hx rfl hu
    rw [exec_txnScheduledApply, Hub.scheduledApply_waits s.hub x mb i t z o hf hs ho hw hx hu, Hub.applyTxn]
  case doneEnds =>
    intro s token id at_ us o ho hw hu hd
    rw [exec_txnCommitDone, Hub.commitDone_ends s.hub token id at_ us o ho hw hu hd, Hub.finishCommit]
  case doneWaits =>
    intro s token id at_ us o ho hw hu
    rw [exec_txnCommitDone, Hub.commitDone_waits s.hub token id at_ us o ho hw hu]

end Sys2Proof.Machine
end

section
/-!
SUPPORT. Long operations: their status, their cancelling, and their turns (O14).
-/
namespace Sys2Proof.Machine

/-! ## STEP_STATUS and STEP_CANCEL (R66, R67) -/

section Pending

variable (h : Hub) (r : Request) (hp : r.payload.length = 4)
include hp

theorem Hub.stepStatus_pending (o : LongOp) (ho : h.op (r.arg 0 4) = some o) :
    h.stepStatus r = (h, .ok ([0#8, byte o.percent, 0#8, 0#8] ++ leBytes 4 0)) := by
  simp only [Hub.stepStatus, r.not_has 4 hp, ho, Bool.false_eq_true, if_false]

theorem Hub.stepStatus_ended (o : OpRecord) (hn : h.op (r.arg 0 4) = none)
    (hd : h.ctl.doneOps.find? (fun o => o.token == r.arg 0 4) = some o) :
    h.stepStatus r = (h, .ok ([byte o.state, 100#8, 0#8, 0#8] ++ leBytes 4 o.status)) := by
  simp only [Hub.stepStatus, r.not_has 4 hp, hn, hd, Bool.false_eq_true, if_false]

theorem Hub.stepStatus_unknown (hn : h.op (r.arg 0 4) = none) (hd : h.ctl.doneOps.find? (fun o => o.token == r.arg 0 4) = none) :
    h.stepStatus r = (h, .err .badParam) := by
  simp only [Hub.stepStatus, r.not_has 4 hp, hn, hd, Bool.false_eq_true, if_false]

theorem Hub.stepCancel_own (o : LongOp) (ho : h.op (r.arg 0 4) = some o) (hm : o.mb = r.mb) : h.stepCancel r = h.cancelOp o := by
  simp only [Hub.stepCancel, r.not_has 4 hp, ho, hm, ne_eq, not_true_eq_false, Bool.false_eq_true, if_false]

theorem Hub.stepCancel_denied (o : LongOp) (ho : h.op (r.arg 0 4) = some o) (hm : o.mb ≠ r.mb) : h.stepCancel r = (h, .err .denied) := by
  simp only [Hub.stepCancel, r.not_has 4 hp, ho, hm, ne_eq, not_false_eq_true, Bool.false_eq_true, if_false, if_true]

end Pending

theorem Hub.cancelOp_tableClear (h : Hub) (o : LongOp) (p : List Byte) (t : Nat) (hw : o.work = .tableClear p t) :
    h.cancelOp o = (h.endOp o.token .aborted 0 [], .ok []) := by
  simp only [Hub.cancelOp, hw]

/-! ## The turns of the operations (R64) -/

/-- The first of the pending operations goes to the end of the round. -/
def Hub.rotated (h : Hub) (o : LongOp) (l : List LongOp) : Hub := { h with ctl := { h.ctl with ops := l ++ [o] } }

/-- The operation whose turn it is goes to the end of the round and runs a step. -/
theorem Hub.opTurn_steps (h : Hub) (o : LongOp) (l : List LongOp) (n : Nat) (hl : h.ctl.ops = o :: l) :
    h.opTurn n = (h.rotated o l).opStep o.token n := by
  simp only [Hub.opTurn, hl, Hub.rotated]

theorem Hub.tableClearDone_ends (h : Hub) (token : Nat) (o : LongOp) (p : List Byte) (t : Nat) (ho : h.op token = some o)
    (hw : o.work = .tableClear p t) : h.tableClearDone token = Hub.endTable h o (h.clearOutcome o.mb p t) := by
  simp only [Hub.tableClearDone, ho, hw]

theorem Hub.opStep_tableClear (h : Hub) (token n : Nat) (o : LongOp) (p : List Byte) (t : Nat) (ho : h.op token = some o)
    (hw : o.work = .tableClear p t) : h.opStep token n = Hub.endTable h o (h.clearOutcome o.mb p t) := by
  rw [← Hub.tableClearDone_ends h token o p t ho hw]
  simp only [Hub.opStep, ho, hw]

/-- A bank check, which another event ends, moves its percent on, below 100 and never back. -/
theorem Hub.opStep_bankCheck (h : Hub) (token n : Nat) (o : LongOp) (b : Nat) (ho : h.op token = some o) (hw : o.work = .bankCheck b) :
    h.opStep token n = h.modOp token (fun o => { o with percent := max o.percent (n % 100) }) := by
  simp only [Hub.opStep, ho, hw]

/-! ## Pair timeout (R53) -/

theorem Hub.pairTimeout_discards (h x : Hub) (pid inst : Nat) (o : OpenPair)
    (ho : h.ctl.pairs.find? (fun o => o.pid == pid && o.inst == inst) = some o)
    (hx : x = h.until (o.since + ms (h.pget P.MG_PAIR_TIMEOUT 0))) :
    h.pairTimeout pid inst = (x.withPairs (x.ctl.pairs.filter (fun y => !(y.pid == pid && y.inst == inst)))).event .pairDiscarded
      [(0, 2, pid), (2, 2, inst)] := by
  subst hx
  simp only [Hub.pairTimeout, ho, Hub.withPairs]

/-! ## The commands -/

theorem exec_stepStatus (q : Req) (s : State) : exec (.stepStatus q) s = .next (s.after (s.hub.request 0x0301 q Hub.stepStatus)) := rfl

theorem exec_stepCancel (q : Req) (s : State) : exec (.stepCancel q) s = .next (s.after (s.hub.request 0x0302 q Hub.stepCancel)) := rfl

theorem exec_longOpStep (n : Nat) (s : State) :
    exec (.longOpStep n) s = .next (s.after (if s.hub.running 10 then s.hub.serveTurn.opTurn n else s.hub)) := rfl

theorem exec_pairTimeout (pid inst : Nat) (s : State) : exec (.pairTimeout pid inst) s = .next (s.after (s.hub.pairTimeout pid inst)) := rfl

/-- While I-MGMT runs, one request of each mailbox is served and the first pending operation runs a step. -/
theorem exec_longOpStep_running (n : Nat) (s : State) (x y : Hub) (o : LongOp) (l : List LongOp) (hr : s.hub.running 10 = true)
    (hx : x = s.hub.serveTurn) (hl : x.ctl.ops = o :: l) (hy : y = x.rotated o l) :
    exec (.longOpStep n) s = .next (s.after (y.opStep o.token n)) := by
  rw [exec_longOpStep, if_pos hr, ← hx, Hub.opTurn_steps x o l n hl, ← hy]

/-- Settles O14, each clause from what its command's meaning does to the operation. -/
theorem stepRequestsAndLongOperations : Obligations.StepRequestsAndLongOperations := by
  unfold Obligations.StepRequestsAndLongOperations
  refine ⟨?statusPending, ?statusEnded, ?statusUnknown, ?cancel, ?cancelDenied, ?clearStep, ?checkStep, ?stopped, ?pair⟩
  case statusPending =>
    intro s q a o ha hA hp ho
    rw [exec_stepStatus, Hub.request_plain s.hub q _ _ a a _ (by decide) ha hA (Hub.stepStatus_pending a _ hp o ho)]
  case statusEnded =>
    intro s q a o ha hA hp hn hd
    rw [exec_stepStatus, Hub.request_plain s.hub q _ _ a a _ (by decide) ha hA (Hub.stepStatus_ended a _ hp o hn hd)]
  case statusUnknown =>
    intro s q a ha hA hp hn hd
    rw [exec_stepStatus, Hub.request_plain s.hub q _ _ a a _ (by decide) ha hA (Hub.stepStatus_unknown a _ hp hn hd)]
  case cancel =>
    intro s q a o p t ha hA hp ho hm hw
    have hbody := (Hub.stepCancel_own a (reqOn q 0x0302) hp o ho hm).trans (Hub.cancelOp_tableClear a o p t hw)
    rw [exec_stepCancel, Hub.request_plain s.hub q _ _ a _ _ (by decide) ha hA hbody]
  case cancelDenied =>
    intro s q a o ha hA hp ho hm
    rw [exec_stepCancel, Hub.request_plain s.hub q _ _ a a _ (by decide) ha hA (Hub.stepCancel_denied a _ hp o ho hm)]
  case clearStep =>
    intro s x y o l p t n hx hl hy ho hw hr
    rw [exec_longOpStep_running n s x y o l hr hx hl hy, Hub.opStep_tableClear y _ n o p t ho hw]
  case checkStep =>
    intro s x y o l b n hx hl hy ho hw hr
    rw [exec_longOpStep_running n s x y o l hr hx hl hy, Hub.opStep_bankCheck y _ n o b ho hw]
  case stopped =>
    intro s n hr
    rw [exec_longOpStep, hr, if_neg (by decide)]
  case pair =>
    intro s pid inst o x ho hx
    rw [exec_pairTimeout, Hub.pairTimeout_discards s.hub x pid inst o ho hx, Hub.withPairs]

end Sys2Proof.Machine
end

section
/-!
SUPPORT. The host register block and the rings (O15).
-/
namespace Sys2Proof.Machine

/-! ## Registers (R34, R35) -/

/-- SCRATCH keeps the 32 bits written to it. -/
theorem Hub.writeRegister_scratch (h : Hub) (v : Nat) :
    h.writeRegister 0x34 v = h.modRegs (fun r => { r with scratch := v % 2 ^ 32 }) := rfl

/-- An access that is not 4-byte aligned writes nothing. -/
theorem Hub.writeRegister_unaligned (h : Hub) (o v : Nat) (ho : o % 4 ≠ 0) : h.writeRegister o v = h := by
  simp only [Hub.writeRegister, ho, ne_eq, not_false_eq_true, decide_true, Bool.true_or, if_true]

/-- An access while the clock of I-MGMT stands still restarts it (R370). -/
theorem Hub.reach_running (h : Hub) (hc : h.clockGated 10 = false) : h.reach = h := by
  rw [Hub.reach, hc, if_neg (by decide)]

theorem Hub.reach_gated (h : Hub) (hc : h.clockGated 10 = true) : h.reach = h.restart 10 := by
  rw [Hub.reach, if_pos hc]

/-! ## Rings (R36 to R38, R43) -/

/-- A pulse reaches I-MGMT while its island is powered and out of reset. -/
theorem Hub.ring_pulses (h : Hub) (m : Nat) (hp : (h.island 10).powered = true) (hr : (h.island 10).inReset = false) :
    h.ring m = (h.modSeam (bellCrossing m) Crossing.pulse).seamFlow := by
  rw [Hub.ring, hp, hr, if_pos (by decide)]

/-- MB_RESET of a mailbox without a transaction empties it. -/
theorem Hub.mbReset_plain (h : Hub) (m : Nat) (ht : h.ctl.txns.find? (fun t => t.mb == m) = none) :
    h.mbReset m = h.modMb m (fun b => { b with
      reqTail := 0, reqHead := 0, rspTail := 0, rspHead := 0, waiting := [], held := none, events := [], overflow := 0 }) := by
  simp only [Hub.mbReset, Hub.modMb, ht]

theorem Hub.writeRspHead_ring (h : Hub) (m v : Nat) (hm : m = 1 ∨ m = 2) :
    h.writeRspHead m v = h.modMb m (fun b => { b with rspHead := v % 65536 }) := by
  have hring : hasRing m = true := by rcases hm with rfl | rfl <;> rfl
  rw [Hub.writeRspHead, if_pos hring]

/-- A held response that can leave does, and the messages behind it follow. -/
theorem Hub.flushN_held (h : Hub) (m n : Nat) (bs : List Byte) (hh : (h.mb m).held = some bs)
    (hc : h.canSend m (some (h.mb m).heldEntry) = true) : Hub.flushN (n + 1) m h = Hub.flushN n m (h.sendHeld m bs) := by
  simp only [Hub.flushN, Hub.flushStep, hh, hc, if_true]

/-! ## The commands -/

theorem exec_intStatusClear (mask : Nat) (s : State) : exec (.intStatusClear mask) s = .next (s.after (s.hub.reach.intClear mask)) := rfl

theorem exec_intForce (mask : Nat) (s : State) : exec (.intForce mask) s = .next (s.after (s.hub.reach.raise mask)) := rfl

theorem exec_ltimeRead (s : State) : exec .ltimeRead s = .next (s.after s.hub.reach.ltimeLatch) := rfl

theorem exec_registerWrite (o size v : Nat) (s : State) :
    exec (.registerWrite o size v) s = .next (s.after (if size = 4 then s.hub.reach.writeRegister o v else s.hub)) := rfl

theorem exec_ringPoll (mb : Nat) (s : State) : exec (.ringPoll mb) s = .next (s.after (s.hub.examine mb)) := rfl

theorem exec_doorbell (mb : Nat) (s : State) : exec (.doorbell mb) s = .next (s.after (s.hub.ring mb)) := rfl

theorem exec_mbReset (mb : Nat) (s : State) : exec (.mbReset mb) s = .next (s.after ((s.hub.reach.mbReset mb).ring mb)) := rfl

theorem exec_rspHeadWrite (mb idx : Nat) (s : State) : exec (.rspHeadWrite mb idx) s = .next (s.after (s.hub.reach.writeRspHead mb idx)) := rfl

theorem exec_mb0ReturnSend (s : State) : exec .mb0ReturnSend s = .next (s.after (Hub.flushN 66 0 s.hub)) := rfl

theorem exec_heartbeat (s : State) :
    exec .heartbeat s = .next (s.after (if s.hub.mg.ready && (s.hub.island 10).clock then
      s.hub.modRegs (fun r => { r with heartbeat := (r.heartbeat + 1) % 2 ^ 32 }) else s.hub)) := rfl

/-- Settles O15, each clause from the lemma on the register or ring operation that its command runs. -/
theorem hostRegistersAndRings : Obligations.HostRegistersAndRings := by
  unfold Obligations.HostRegistersAndRings
  refine ⟨?clear, ?force, ?ltime, ?scratch, ?narrow, ?unaligned, ?reach, ?poll, ?doorbell, ?mbReset, ?rspHead, ?returnSend, ?heartbeat⟩
  case clear =>
    intro s mask
    rw [exec_intStatusClear, Hub.intClear]
  case force => exact fun s mask => exec_intForce mask s
  case ltime =>
    intro s
    rw [exec_ltimeRead, Hub.ltimeLatch]
  case scratch =>
    intro s v
    rw [exec_registerWrite, if_pos rfl, Hub.writeRegister_scratch]
  case narrow =>
    intro s o size v hsize
    rw [exec_registerWrite, if_neg hsize]
  case unaligned =>
    intro s o v ho
    rw [exec_registerWrite, if_pos rfl, Hub.writeRegister_unaligned _ o v ho]
  case reach => exact fun h => ⟨h.reach_running, h.reach_gated⟩
  case poll =>
    intro s mb
    rw [exec_ringPoll, Hub.examine]
  case doorbell =>
    intro s mb hp hr
    rw [exec_doorbell, Hub.ring_pulses s.hub mb hp hr]
    rfl
  case mbReset =>
    intro s mb ht
    rw [exec_mbReset, Hub.mbReset_plain _ mb ht]
  case rspHead =>
    intro s mb idx hm
    rw [exec_rspHeadWrite, Hub.writeRspHead_ring _ mb idx hm]
  case returnSend =>
    intro s bs hh hc
    rw [exec_mb0ReturnSend, Hub.flushN_held s.hub 0 65 bs hh hc, Hub.sendHeld, Nat.pow_zero]
  case heartbeat =>
    intro s hr hc
    rw [exec_heartbeat, hr, hc, if_pos (by decide)]

end Sys2Proof.Machine
end

section
/-!
SUPPORT. TABLE_READ, TABLE_WRITE, TABLE_LOAD and TABLE_CLEAR (O16).
-/
namespace Sys2Proof.Machine

/-! ## TABLE_READ and TABLE_WRITE (R115, R116) -/

theorem Hub.tableRead_ok (h : Hub) (r : Request) (hp : tablePrefix r (fun _ _ => 0) = none)
    (hs : 8 + r.arg 4 2 * entrySize (r.arg 0 1) ≤ 4080) :
    h.tableRead r = (h, .ok (r.payload.take 6 ++ leBytes 2 (entrySize (r.arg 0 1)) ++
      (List.range (r.arg 4 2)).flatMap (fun k => leBytes (entrySize (r.arg 0 1)) (h.entryValue (r.arg 0 1) (r.arg 2 2 + k))))) := by
  simp only [Hub.tableRead, hp, Nat.not_lt.mpr hs, if_false]

/-- The entries that a TABLE_WRITE carries. -/
def Request.entries (r : Request) : List TableItem := entriesOf (r.arg 0 1) (r.arg 2 2) (r.arg 4 2) (r.payload.drop 8)

theorem reqOn_entries (q : Req) (code : Nat) :
    (reqOn q code).entries = entriesOf (le q.payload 0 1) (le q.payload 2 2) (le q.payload 4 2) (q.payload.drop 8) := rfl

/-- How a TABLE_WRITE is answered. -/
def writeReply (st : Status) (detail : Nat) : Reply := if st = .ok then .ok [] else .at st detail

/-- Outside a transaction a TABLE_WRITE answers what the writing of its entries comes to. -/
theorem Hub.tableWrite_now (h g : Hub) (r : Request) (st : Status) (d : Nat) (ht : r.txn = 0)
    (hp : tablePrefix r (fun n size => n * size) = none) (hw : h.writeEntries r.mb 0 r.entries = (g, st, d)) :
    h.tableWrite r = (g, writeReply st d) := by
  rw [Request.entries] at hw
  simp only [Hub.tableWrite, ht, if_true, hp, hw]
  rfl

/-- In an open transaction, what their staging comes to. -/
theorem Hub.tableWrite_in (h g : Hub) (r : Request) (t : Txn) (st : Status) (d : Nat) (ht : r.txn ≠ 0) (ho : h.ownTxn r.mb r.txn = some t)
    (hs : t.sched = none) (hp : tablePrefix r (fun n size => n * size) = none) (hw : h.writeEntries r.mb t.id r.entries = (g, st, d)) :
    h.tableWrite r = (g, writeReply st d) := by
  rw [Request.entries] at hw
  simp only [Hub.tableWrite, ht, if_false, Hub.inTxn_open h r _ t ho hs, hp, hw]
  rfl

theorem Hub.writeEntries_applies (h : Hub) (mb : Nat) (es : List TableItem) (ht : h.txn 0 = none)
    (he : h.entriesRefusal (h.overlay [] es) mb 0 es = none) : h.writeEntries mb 0 es = (h.applyChange ⟨[], es, []⟩, .ok, 0) := by
  simp only [Hub.writeEntries, ht, he]

theorem Hub.writeEntries_refused (h : Hub) (mb : Nat) (es : List TableItem) (f : Status) (d : Nat) (ht : h.txn 0 = none)
    (he : h.entriesRefusal (h.overlay [] es) mb 0 es = some (f, d)) : h.writeEntries mb 0 es = (h, f, d) := by
  simp only [Hub.writeEntries, ht, he]

theorem Hub.writeEntries_stages (h x : Hub) (mb : Nat) (es : List TableItem) (t : Txn) (ht : h.txn t.id = some t)
    (he : h.entriesRefusal (h.viewOf (t.with_ [] es [])) mb t.id es = none) (hx : h.stage t [] es [] = some x) :
    h.writeEntries mb t.id es = (x, .ok, 0) := by
  simp only [Hub.writeEntries, ht, he, hx]

/-! ## TABLE_LOAD and TABLE_CLEAR (R64, R116) -/

theorem Hub.tableLoad_starts (h : Hub) (r : Request) (hn : h.ctl.ops.length < 16) :
    h.tableLoad r = (h.withOp r.mb r.cmd (.tableLoad r.payload r.txn r.entry), .long h.ctl.nextToken) :=
  Hub.startOp_eq h r.mb r.cmd _ hn

theorem Hub.tableClear_starts (h : Hub) (r : Request) (hn : h.ctl.ops.length < 16) :
    h.tableClear r = (h.withOp r.mb r.cmd (.tableClear r.payload r.txn), .long h.ctl.nextToken) :=
  Hub.startOp_eq h r.mb r.cmd _ hn

theorem Hub.tableLoadDone_ends (h x : Hub) (token : Nat) (o : LongOp) (p : List Byte) (t e : Nat) (ho : h.op token = some o)
    (hw : o.work = .tableLoad p t e) (hx : x = h.fillDone) : h.tableLoadDone token = Hub.endTable x o (x.loadOutcome o.mb p t e) := by
  subst hx
  simp only [Hub.tableLoadDone, ho, hw]

/-- Entries that were written, with no older access to wait for, end the operation with OK. -/
theorem Hub.endTable_ok (old : Hub) (o : LongOp) (w : Hub × Status × Nat) (hw : w.2.1 = .ok) (hd : Hub.mustDrain old w.1 = false) :
    Hub.endTable old o w = w.1.endOp o.token .ok 0 [] := by
  rw [Hub.endTable, if_pos hw, Hub.endCommit, hd, if_neg (by decide)]

theorem Hub.endTable_failed (old : Hub) (o : LongOp) (w : Hub × Status × Nat) (hw : w.2.1 ≠ .ok) :
    Hub.endTable old o w = w.1.endOp o.token w.2.1 w.2.2 [] := by
  rw [Hub.endTable, if_neg hw]

/-! ## The commands -/

theorem exec_tableRead (q : Req) (s : State) : exec (.tableRead q) s = .next (s.after (s.hub.request 0x0401 q Hub.tableRead)) := rfl

theorem exec_tableWrite (q : Req) (s : State) : exec (.tableWrite q) s = .next (s.after (s.hub.request 0x0402 q Hub.tableWrite)) := rfl

theorem exec_tableLoad (q : Req) (s : State) : exec (.tableLoad q) s = .next (s.after (s.hub.request 0x0403 q Hub.tableLoad)) := rfl

theorem exec_tableClear (q : Req) (s : State) : exec (.tableClear q) s = .next (s.after (s.hub.request 0x0404 q Hub.tableClear)) := rfl

theorem exec_tableLoadDone (token : Nat) (s : State) :
    exec (.tableLoadDone token) s = .next (s.after (s.hub.serveTurn.tableLoadDone token)) := rfl

/-- Settles O16, each clause from what its command's meaning does with the entries. -/
theorem tableRequests : Obligations.TableRequests := by
  unfold Obligations.TableRequests
  refine ⟨?read, ?writeApplies, ?writeRefused, ?writeStages, ?load, ?clear, ?loadDone, ?loadFails⟩
  case read =>
    intro s q a ha hA hp hs
    rw [exec_tableRead, Hub.request_plain s.hub q _ _ a a _ (by decide) ha hA (Hub.tableRead_ok a _ hp hs)]
    rfl
  case writeApplies =>
    rintro s q a es ha hA ht hp hn rfl he
    have hbody := Hub.tableWrite_now a _ (reqOn q 0x0402) .ok 0 ht hp (Hub.writeEntries_applies a q.mb _ hn he)
    rw [exec_tableWrite, Hub.request_zero s.hub q _ _ a _ _ ht ha hA hbody, writeReply, if_pos rfl, reqOn_entries]
  case writeRefused =>
    rintro s q a es f d ha hA ht hp hn rfl he hf
    have hbody := Hub.tableWrite_now a a (reqOn q 0x0402) f d ht hp (Hub.writeEntries_refused a q.mb _ f d hn he)
    rw [exec_tableWrite, Hub.request_zero s.hub q _ _ a a _ ht ha hA hbody, writeReply, if_neg hf, Reply.at]
  case writeStages =>
    rintro s q a es t x ha hA hp hq ho hs ht rfl he hx
    have hbody := Hub.tableWrite_in a x (reqOn q 0x0402) t .ok 0 hq ho hs hp (Hub.writeEntries_stages a x q.mb _ t ht he hx)
    rw [exec_tableWrite, Hub.request_done s.hub q _ _ a x _ ha hA hbody, writeReply, if_pos rfl]
  case load =>
    intro s q a ha hA hn
    rw [exec_tableLoad, Hub.request_done s.hub q _ _ a _ _ ha hA (Hub.tableLoad_starts a _ hn)]
    rfl
  case clear =>
    intro s q a ha hA hn
    rw [exec_tableClear, Hub.request_done s.hub q _ _ a _ _ ha hA (Hub.tableClear_starts a _ hn)]
    rfl
  case loadDone =>
    rintro s token o p t e x y rfl ho hw hx hok hd
    rw [exec_tableLoadDone, Hub.serveTurn, Hub.tableLoadDone_ends _ x token o p t e ho hw hx, Hub.endTable_ok x o _ hok hd]
  case loadFails =>
    rintro s token o p t e x y rfl ho hw hx hbad
    rw [exec_tableLoadDone, Hub.serveTurn, Hub.tableLoadDone_ends _ x token o p t e ho hw hx, Hub.endTable_failed x o _ hbad]

end Sys2Proof.Machine
end

section
/-!
SUPPORT. Allotment boundaries, and epochs sent, taken, cancelled and applied (O26).
-/
namespace Sys2Proof.Machine

/-! ## The allotment cycle boundary (R173, R217) -/

theorem Hub.rl_untilLine (h : Hub) (t : Nat) : (h.untilLine t).rl = h.rl := by
  rw [Hub.untilLine]
  split <;> rfl

theorem Hub.rl_setRemaining (h : Hub) (out n : Nat) (v : Int) : (h.setRemaining out n v).rl = h.rl := rfl

/-- Reloading allotments leaves the rails alone. -/
theorem Hub.rl_reload (h : Hub) : h.reload.rl = h.rl := by
  simp only [Hub.reload]
  refine (Hub.kept_foldl Hub.rl _ (fun g e => ?_) _ _).trans ?_
  · exact Hub.rl_setRemaining g _ _ _
  · rfl

/-- With no step of line time waiting, none is taken. -/
theorem Hub.stepDue_none (h : Hub) (hs : h.rl.steps = []) : h.stepDue = h := by
  have hrl : { h.rl with steps := [] } = h.rl := by rw [← hs]
  rw [Hub.stepDue, hs, List.foldl_nil, Hub.modRail, hrl]

theorem Hub.cycleBoundary_reloads (h : Hub) (hs : h.rl.steps = []) :
    h.cycleBoundary = (h.untilLine (boundaryAt (h.clk.ns + 1))).reload := by
  rw [Hub.cycleBoundary, Hub.stepDue_none _ (by rw [Hub.rl_reload, Hub.rl_untilLine, hs])]

/-! ## Sending and cancelling an epoch (R181, R182, R187) -/

/-- A head sends an epoch whose time lies far enough ahead and not too far, while none of its own is under way. -/
theorem Hub.epochRefusal_none (h : Hub) (te v : Nat) (h1 : 1 ≤ v) (h3 : v ≤ 3) (hh : h.isHead = true)
    (hlead : h.clk.ns + ms (max 2 (h.pget P.AL_EPOCH_LEAD 0)) ≤ te) (hfar : te ≤ h.clk.ns + 60000000000)
    (hlast : h.al.lastTe ≤ h.clk.ns) (hsent : h.al.sent < 65535) : h.epochRefusal te v = none := by
  have hv : (decide (v = 0) || decide (4 ≤ v)) = false := by
    rw [Bool.or_eq_false_iff, decide_eq_false_iff_not, decide_eq_false_iff_not]; omega
  simp only [Hub.epochRefusal, hh, hv, Nat.not_lt.mpr hlead, Nat.not_lt.mpr hfar, Nat.not_lt.mpr hlast, Nat.not_le.mpr hsent, Bool.not_true,
    Bool.false_eq_true, if_false]

/-- The flags 1 to 3 are well-formed values of AL_EPOCH_ARM. -/
theorem formOf_epochArm (v : Nat) (h1 : 1 ≤ v) (h3 : v ≤ 3) : formOf ⟨P.AL_EPOCH_ARM, 0, v⟩ = .ok ⟨P.AL_EPOCH_ARM, 0, v⟩ := by
  interval_cases v <;> rfl

/-- Writing AL_EPOCH_ARM alone stores nothing: it sends an epoch for the time in force. -/
theorem Hub.applyChange_epochArm (h : Hub) (v : Nat) :
    h.applyChange ⟨[⟨P.AL_EPOCH_ARM, 0, v⟩], [], []⟩ = h.epochSend (h.pget P.AL_EPOCH_TIME 0) v := by
  rw [Hub.applyChange_one h _ (show actsAlone P.AL_EPOCH_ARM = true by decide), Hub.stored_wo h P.AL_EPOCH_ARM 0 v _ rfl rfl rfl]
  rfl

theorem Hub.writeParam_epochArm (h : Hub) (mb v : Nat) (h1 : 1 ≤ v) (h3 : v ≤ 3) (hc : h.conflictsOutside mb P.AL_EPOCH_ARM 0 = false)
    (hn : h.ctl.pairs.find? (fun o => o.pid == P.AL_EPOCH_TIME && o.inst == 0 && o.mb == mb) = none)
    (hr : h.epochRefusal (h.pget P.AL_EPOCH_TIME 0) v = none) :
    h.writeParam mb P.AL_EPOCH_ARM 0 v = h.epochSend (h.pget P.AL_EPOCH_TIME 0) v := by
  rw [Hub.writeParam_close h mb P.AL_EPOCH_ARM 0 v v P.AL_EPOCH_TIME (formOf_epochArm v h1 h3) rfl rfl hn (Hub.ownRefusal_none _ _ _ _ _ _ rfl)
    hc ((Hub.pairRefusal_arm _ _ _ _ _).trans hr), Hub.applyChange_epochArm]

/-- A head cancels the epoch it sent last until 1.5 ms before its time. -/
theorem Hub.cancelRefusal_none (h : Hub) (id : Nat) (hh : h.isHead = true) (hs : h.al.sent ≠ 0) (hid : id = h.al.sentId)
    (ht : h.clk.ns + 1500000 ≤ h.al.sentTe) : h.cancelRefusal id = none := by
  simp only [Hub.cancelRefusal, hh, hs, hid, Nat.not_lt.mpr ht, Bool.not_true, Bool.false_eq_true, ne_eq, not_true_eq_false, decide_false,
    Bool.or_self, if_false]

theorem Hub.writeParam_epochCancel (h : Hub) (mb id : Nat) (hid : id < 2 ^ 64) (hc : h.conflictsOutside mb P.AL_EPOCH_CANCEL 0 = false)
    (hr : h.cancelRefusal id = none) : h.writeParam mb P.AL_EPOCH_CANCEL 0 id = h.cancelSend id := by
  have hform : formOf ⟨P.AL_EPOCH_CANCEL, 0, id⟩ = .ok ⟨P.AL_EPOCH_CANCEL, 0, id⟩ :=
    formOf_any P.AL_EPOCH_CANCEL 0 id _ rfl (by decide) (by decide) hid (by decide) rfl
  rw [Hub.writeParam_eq h mb P.AL_EPOCH_CANCEL 0 id id hform rfl rfl rfl ((Hub.ownRefusal_cancel _ _ _ _ _).trans hr) hc,
    Hub.stored_wo h P.AL_EPOCH_CANCEL 0 id _ rfl rfl rfl]
  rfl

/-- The owed copy that is due first goes out at its time. -/
theorem Hub.epochCopy_sends (h x : Hub) (t : EpochTx) (hn : h.epochNext = some t) (hx : x = h.untilLine t.nextAt) :
    h.epochCopy = ({ x with al := { x.al with sending := x.al.sending.erase t } } : Hub).epochOut t := by
  subst hx
  simp only [Hub.epochCopy, hn]

/-- A copy that finds room leaves by L1 and TW, and the copies after it stay owed. -/
theorem Hub.epochOut_goesOn (h y z : Hub) (t : EpochTx) (c : Cell)
    (hc : c = h.epochCell (if t.cancel then 2 else 1) t.flags t.copy t.id t.te t.plan) (hr : h.makeRoom 3 0 (cellFlits c) = (y, true))
    (hl : 2 ≤ t.left)
    (hz : z = y.arriving 8 c (fun g => [1, 2].foldl (fun g p => if g.portUp p then g.enqueue 8 p c else g.noRoute 8 c) g)) :
    h.epochOut t = { z with
      al := { z.al with
        sending := z.al.sending ++
          [{ t with copy := t.copy + 1, left := t.left - 1, nextAt := z.clk.ns + us (z.pget P.AL_EPOCH_SPACING 0) }] } } := by
  subst hz
  simp only [Hub.epochOut, ← hc, hr, if_true, show ¬ t.left ≤ 1 by omega, if_false]

/-! ## Epoch cells that arrive (R142, R182 to R185) -/

/-- An epoch cell from a port that is UP reaches the allotment logic. -/
theorem Hub.lineCell_epoch (h x : Hub) (p : Nat) (c : Cell) (hu : h.portUp p = true) (hk : c.kind = 5)
    (hx : x = (h.takeCell p c).countIn p c) : h.lineCell p c = x.arriving p c (fun g => g.epochArrive p c) := by
  subst hx
  simp only [Hub.lineCell, hu, hk, Bool.not_true, show ¬ 6 ≤ 5 by decide, decide_false, Bool.or_self, Bool.false_eq_true, if_false, if_true]

section Arrive

variable (h x : Hub) (p : Nat) (c : Cell) (m : EpochMsg) (hp : p < 2)
include hp

/-- A bad epoch cell goes on along the line, and is counted. -/
theorem Hub.epochArrive_bad (hg : epochGood c = false) :
    h.epochArrive p c = ((h.portEv p 20 1).forwardTo p (1 - p) c).bump P.AL_EPOCH_BAD 0 := by
  simp only [Hub.epochArrive, show p ≠ 2 by omega, hg, Bool.false_and, Bool.not_false, Bool.false_eq_true, if_false, if_true]

variable (hg : epochGood c = true) (hm : m = EpochMsg.of c.payload) (hx : x = (h.portEv p 20 1).forwardTo p (1 - p) c)
include hg hm hx

/-- A good one that has crossed to the twin before acts here alone. -/
theorem Hub.epochArrive_again (hc : x.al.crossed.contains (m.id, m.sub) = true) : h.epochArrive p c = x.epochAct m := by
  subst hx hm
  simp only [Hub.epochArrive, show p ≠ 2 by omega, hg, hc, Bool.not_true, Bool.and_false, Bool.false_eq_true, if_false]

/-- A good one that has not crosses once, then acts. -/
theorem Hub.epochArrive_crosses (y : Hub) (hc : x.al.crossed.contains (m.id, m.sub) = false)
    (hy : y = { x with al := { x.al with crossed := x.al.crossed ++ [(m.id, m.sub)] } }) :
    h.epochArrive p c = (if y.portUp 2 && y.idValid then y.forward p c (fun d g => g.enqueue p 2 d) else y).epochAct m := by
  subst hy hx hm
  simp only [Hub.epochArrive, show p ≠ 2 by omega, hg, hc, Bool.not_true, Bool.not_false, Bool.and_self, Bool.false_eq_true, if_false, if_true]

end Arrive

/-- An idle hub arms an epoch that is new, fresh and of its shadow plan for the boundary at or after its time. -/
theorem Hub.epochAct_arms (h : Hub) (m : EpochMsg) (hsub : m.sub = 1) (hidle : h.al.armed = none) (hnew : m.id ≠ h.pget P.AL_EPOCH_APPLIED 0)
    (hfresh : h.clk.ns ≤ m.te + 1000000000) (hplan : m.plan = 0 ∨ m.plan = h.pget P.AL_PLAN_ID_SHADOW 0 ∨ bit m.flags 0 = false)
    (htime : h.clk.ns + 1000 ≤ boundaryAt m.te) :
    h.epochAct m =
      { h with al := { h.al with armed := some ⟨m.id, bit m.flags 0, bit m.flags 1, m.te, m.plan, boundaryAt m.te⟩ } } := by
  have hmatch : (bit m.flags 0 && decide (m.plan ≠ 0) && decide (m.plan ≠ h.pget P.AL_PLAN_ID_SHADOW 0)) = false := by
    rcases hplan with e | e | e <;> simp [e]
  simp only [Hub.epochAct, hidle, hsub, show ¬ 1 = 2 by decide, if_false, Hub.armIdle, hnew, Nat.not_lt.mpr hfresh, hmatch, Bool.false_eq_true,
    Hub.armAt, htime, decide_true, Bool.true_or, if_true]

/-- An armed hub disarms on the cancel of its epoch. -/
theorem Hub.epochAct_cancels (h : Hub) (m : EpochMsg) (a : Armed) (hsub : m.sub = 2) (ha : h.al.armed = some a) (hid : a.id = m.id) :
    h.epochAct m = h.disarm.event .epochCancelled [(0, 4, m.id)] := by
  simp only [Hub.epochAct, ha, hsub, hid, if_true]

/-! ## The armed boundary (R185, R186) -/

theorem Hub.reachBoundary_armed (h : Hub) (a : Armed) (hs : h.synced = true) (ha : h.al.armed = some a) :
    h.reachBoundary = (h.untilLine a.boundary).quiesceDue := by
  simp only [Hub.reachBoundary, hs, if_true, ha]

/-- At the armed boundary of a synchronised hub its allotment tables exchange, and EPOCH_APPLIED tells of it. -/
theorem Hub.epochSwap_allot (h r x y : Hub) (a : Armed) (hs : h.synced = true) (ha : h.al.armed = some a)
    (hr : r = (h.untilLine a.boundary).quiesceDue) (hrs : r.synced = true) (hra : r.al.armed = some a) (hallot : a.allot = true)
    (hdec : a.decision = false) (hx : x = r.disarm.reload.swapAllot)
    (hy : y = ((x.pset P.AL_EPOCH_APPLIED 0 a.id).pset P.AL_EPOCH_APPLIED_TIME 0 a.boundary).event .epochApplied
      [(0, 4, a.id), (4, 1, 1), (8, 8, a.boundary)])
    (hsteps : y.rl.steps = []) : h.epochSwap = y := by
  have hreach : h.reachBoundary = r := (Hub.reachBoundary_armed h a hs ha).trans hr.symm
  have hflags : epochFlags true false = 1 := rfl
  rw [← Hub.stepDue_none y hsteps, hy, hx]
  simp only [Hub.epochSwap, hreach, hrs, if_true, hra, hallot, hdec, Bool.false_eq_true, if_false, hflags]

/-! ## The commands -/

theorem exec_allotBoundary (s : State) : exec .allotBoundary s = .next (s.after s.hub.cycleBoundary) := rfl

theorem exec_epochArm (mb v : Nat) (s : State) : exec (.epochArm mb v) s = .next (s.after (s.hub.writeParam mb P.AL_EPOCH_ARM 0 v)) := rfl

theorem exec_epochCancel (mb id : Nat) (s : State) :
    exec (.epochCancel mb id) s = .next (s.after (s.hub.writeParam mb P.AL_EPOCH_CANCEL 0 id)) := rfl

theorem exec_epochCopyTx (s : State) : exec .epochCopyTx s = .next (s.after s.hub.epochCopy) := rfl

theorem exec_epochRx (p : Nat) (c : Cell) (s : State) : exec (.epochRx p c) s = .next (s.after (s.hub.lineCell p c)) := rfl

theorem exec_epochCancelRx (p : Nat) (c : Cell) (s : State) : exec (.epochCancelRx p c) s = .next (s.after (s.hub.lineCell p c)) := rfl

theorem exec_epochSwap (s : State) : exec .epochSwap s = .next (s.after s.hub.epochSwap) := rfl

/-- Settles O26, each clause from the lemma on the allotment or epoch operation it speaks of. -/
theorem allotmentsAndEpochs : Obligations.AllotmentsAndEpochs := by
  unfold Obligations.AllotmentsAndEpochs
  refine ⟨?boundary, ?arm, ?cancel, ?copy, ?out, ?rx, Hub.epochArrive_bad, Hub.epochArrive_again, ?crosses, Hub.epochAct_arms,
    Hub.epochAct_cancels, ?swap⟩
  case boundary =>
    rintro s x hs rfl
    rw [exec_allotBoundary, Hub.cycleBoundary_reloads s.hub hs]
  case arm =>
    intro s mb v h1 h3 hh hc hn hlead hfar hlast hsent
    have hr := Hub.epochRefusal_none s.hub _ v h1 h3 hh hlead hfar hlast hsent
    rw [exec_epochArm, Hub.writeParam_epochArm s.hub mb v h1 h3 hc hn hr]
  case cancel =>
    intro s mb id hid hh hsent hlast ht hc
    rw [exec_epochCancel, Hub.writeParam_epochCancel s.hub mb id hid hc (Hub.cancelRefusal_none s.hub id hh hsent hlast ht)]
  case copy =>
    intro s t x hn hx
    rw [exec_epochCopyTx, Hub.epochCopy_sends s.hub x t hn hx]
  case out => exact Hub.epochOut_goesOn
  case rx =>
    intro s p c x hu hk hx
    have hcell := Hub.lineCell_epoch s.hub x p c hu hk hx
    exact ⟨by rw [exec_epochRx, hcell], by rw [exec_epochCancelRx, hcell]⟩
  case crosses => exact fun h x y p c m hp hg hm hx hc hy => Hub.epochArrive_crosses h x p c m hp hg hm hx y hc hy
  case swap =>
    intro s a r x y hs ha hr hrs hra hallot hdec hx hy hsteps
    rw [exec_epochSwap, Hub.epochSwap_allot s.hub r x y a hs ha hr hrs hra hallot hdec hx hy hsteps]

end Sys2Proof.Machine
end

section
/-!
SUPPORT. The codes of a lane, read back from what was written (O60).
-/
namespace Sys2Proof.Machine

/-! ## Fields of a number (R76, R77, R81) -/

/-- What stands at bit m and above is not in a field that ends there. -/
theorem bits_of_low (a r m lo w : Nat) (h : lo + w ≤ m) : bits (a * 2 ^ m + r) lo w = bits r lo w := by
  obtain ⟨k, rfl⟩ := Nat.exists_eq_add_of_le h
  have e : a * 2 ^ (lo + w + k) + r = r + 2 ^ lo * (2 ^ w * (2 ^ k * a)) := by rw [pow_add, pow_add]; ring
  rw [bits, bits, e, Nat.add_mul_div_left _ _ (Nat.two_pow_pos lo), Nat.add_mul_mod_self_left]

/-- The field that starts where a low part ends. -/
theorem bits_of_high (a r m w : Nat) (ha : a < 2 ^ w) (hr : r < 2 ^ m) : bits (a * 2 ^ m + r) m w = a := by
  rw [bits, Nat.mul_comm a, Nat.mul_add_div (Nat.two_pow_pos m), Nat.div_eq_of_lt hr, Nat.add_zero, Nat.mod_eq_of_lt ha]

/-- The bits from lo + w on, with the field of w bits below them. -/
theorem div_append_bits (v lo w : Nat) : v / 2 ^ (lo + w) * 2 ^ w + bits v lo w = v / 2 ^ lo := by
  rw [bits, pow_add, ← Nat.div_div_eq_div_mul, Nat.div_add_mod']

/-! ## Levels and scrambler (R68, R76) -/

theorem bitsOf_levelsOf (pam : Bool) (n w : Nat) (hw : w < 2 ^ n) (hn : pam = true → n % 2 = 0) : bitsOf pam (levelsOf pam n w) = w := by
  rw [bitsOf, levelsOf_spell pam n w 0 hn, Nat.zero_mul, Nat.zero_add, Nat.mod_eq_of_lt hw]

/-- The same bits of PRBS31 lie over a word twice. -/
theorem scramble_scramble (short : Bool) (reg w : Nat) : scramble short reg (scramble short reg w).2 = ((scramble short reg w).1, w) := by
  simp only [scramble, Nat.xor_assoc, Nat.xor_self, Nat.xor_zero]

theorem scramble_lead (short : Bool) (reg w : Nat) :
    (scramble short reg w).2 / 2 ^ (wordBits short - 2) = w / 2 ^ (wordBits short - 2) :=
  xor_low_div w _ _ (prbs_bits_lt _ reg)

/-! ## Flits in a payload (R77) -/

/-- Flits of 16 bytes fill 128 bits each. -/
theorem flits_size (fs : List (List Byte)) (hf : ∀ f ∈ fs, f.length = 16) : 256 ^ fs.flatten.length = 2 ^ (128 * fs.length) := by
  rw [List.length_flatten, List.map_congr_left hf, List.map_const', List.sum_replicate, smul_eq_mul,
    show (256 : Nat) = 2 ^ 8 from rfl, ← pow_mul, Nat.mul_comm fs.length, ← Nat.mul_assoc]

/-- Flits of 16 bytes are laid as they are. -/
theorem flitBits_eq (fs : List (List Byte)) (hf : ∀ f ∈ fs, f.length = 16) : flitBits fs = beNat fs.flatten := by
  rw [flitBits, List.map_congr_left (fun f h => fit_of_length 16 f (hf f h)), List.map_id']

/-- The first flit is read from the upper bits of the payload, the others from the rest. -/
theorem flitsOfBits_cons (n a r : Nat) (ha : a < 2 ^ 128) (hr : r < 2 ^ (128 * n)) :
    flitsOfBits (n + 1) (a * 2 ^ (128 * n) + r) = beBytes 16 a :: flitsOfBits n r := by
  have first : bits (a * 2 ^ (128 * n) + r) (128 * (n + 1 - 1 - 0)) 128 = a := bits_of_high a r (128 * n) 128 ha hr
  have others : ∀ i ∈ List.range n, bits (a * 2 ^ (128 * n) + r) (128 * (n + 1 - 1 - (i + 1))) 128 = bits r (128 * (n - 1 - i)) 128 := by
    intro i hi
    have hi : i < n := List.mem_range.mp hi
    rw [show n + 1 - 1 - (i + 1) = n - 1 - i by omega]
    exact bits_of_low a r (128 * n) _ 128 (by omega)
  simp only [flitsOfBits, List.range_succ_eq_map, List.map_cons, List.map_map, first]
  exact congrArg _ (List.map_congr_left (fun i hi => congrArg (beBytes 16) (others i hi)))

theorem flitsOfBits_flitBits (fs : List (List Byte)) (hf : ∀ f ∈ fs, f.length = 16) : flitsOfBits fs.length (flitBits fs) = fs := by
  rw [flitBits_eq fs hf]
  induction fs with
  | nil => rfl
  | cons f fs ih =>
    have hlen : f.length = 16 := hf f List.mem_cons_self
    have hrest : ∀ g ∈ fs, g.length = 16 := fun g hg => hf g (List.mem_cons_of_mem f hg)
    have low : beNat fs.flatten < 2 ^ (128 * fs.length) := flits_size fs hrest ▸ beNat_lt fs.flatten
    have high : beNat f < 2 ^ 128 := by have := beNat_lt f; rwa [hlen] at this
    have bytes : beBytes 16 (beNat f) = f := by rw [← hlen, beBytes_beNat]
    rw [List.flatten_cons, beNat_append, flits_size fs hrest, List.length_cons, flitsOfBits_cons _ _ _ high low, bytes, ih hrest]

/-! ## Side frames (R81 to R83) -/

theorem crc8_lt_two_pow (t : Nat) (p : List Byte) : crc8 t p < 2 ^ 8 := crc8_lt t p

theorem sideBytes_lt (p : List Byte) (hp : p.length = 12) : beNat p < 2 ^ 96 := by have := beNat_lt p; rwa [hp] at this

section Frame
variable (t : Nat) (p : List Byte) (ht : t < 16) (hp : p.length = 12)
include ht hp

/-- A side frame is TYPE, payload and SFCRC side by side. -/
theorem sideFrame_eq : sideFrame t p = (t * 2 ^ 96 + beNat p) * 2 ^ 8 + crc8 t p := by
  rw [sideFrame, fit_of_length 12 p hp, Nat.mod_eq_of_lt ht]; ring

theorem sideType_sideFrame : sideType (sideFrame t p) = t := by
  have low : beNat p * 2 ^ 8 + crc8 t p < 2 ^ 104 := by
    have hc := crc8_lt_two_pow t p
    have hb := sideBytes_lt p hp
    omega
  have e : (t * 2 ^ 96 + beNat p) * 2 ^ 8 + crc8 t p = t * 2 ^ 104 + (beNat p * 2 ^ 8 + crc8 t p) := by ring
  rw [sideFrame_eq t p ht hp, e, sideType, bits_of_high t _ 104 4 ht low]

theorem sidePayload_sideFrame : sidePayload (sideFrame t p) = p := by
  have field : bits (sideFrame t p) 8 96 = beNat p := by
    rw [sideFrame_eq t p ht hp, bits, Nat.mul_comm, Nat.mul_add_div (by decide), Nat.div_eq_of_lt (crc8_lt_two_pow t p), Nat.add_zero,
      Nat.mul_comm, Nat.mul_add_mod, Nat.mod_eq_of_lt (sideBytes_lt p hp)]
  rw [sidePayload, field, ← hp, beBytes_beNat]

/-- Its SFCRC holds, so TYPE alone decides. -/
theorem sideGood_sideFrame : sideGood (sideFrame t p) = sideTypes.contains t := by
  have crc : bits (sideFrame t p) 0 8 = crc8 t p := by
    rw [sideFrame_eq t p ht hp, bits_of_low _ _ 8 0 8 (Nat.le_refl 8), bits, pow_zero, Nat.div_one, Nat.mod_eq_of_lt (crc8_lt_two_pow t p)]
  rw [sideGood, sideType_sideFrame t p ht hp, sidePayload_sideFrame t p ht hp, crc, beq_self_eq_true, Bool.true_and]

end Frame

/-- The two lanes' bits of the next codeword pair stand behind what the pairs before them carried. -/
theorem sideAppend_sideBits (short : Bool) (f n : Nat) (hn : 2 * wordSide short * (n + 1) ≤ 108) :
    sideAppend short (f / 2 ^ (108 - 2 * wordSide short * n)) (sideBits short f n 0) (sideBits short f n 1) =
      f / 2 ^ (108 - 2 * wordSide short * (n + 1)) := by
  have step : 108 - 2 * wordSide short * n = 108 - 2 * wordSide short * (n + 1) + wordSide short + wordSide short := by
    rw [Nat.mul_succ] at hn ⊢; omega
  simp only [sideAppend, sideBits, if_true, Nat.one_ne_zero, if_false, Nat.add_zero, step, div_append_bits]

/-- The bits of the first n codeword pairs spell the upper bits of the side frame. -/
theorem sideAppend_fold (short : Bool) (f n : Nat) (hf : f < 2 ^ 108) (hn : 2 * wordSide short * n ≤ 108) :
    (List.range n).foldl (fun acc k => sideAppend short acc (sideBits short f k 0) (sideBits short f k 1)) 0 =
      f / 2 ^ (108 - 2 * wordSide short * n) := by
  induction n with
  | zero => exact (Nat.div_eq_of_lt hf).symm
  | succ n ih =>
    have fewer : 2 * wordSide short * n ≤ 108 := le_trans (Nat.mul_le_mul_left _ (Nat.le_succ n)) hn
    rw [List.range_succ, List.foldl_append, ih fewer]
    exact sideAppend_sideBits short f n hn

theorem sideWords_carry (short : Bool) : 2 * wordSide short * sideWords short = 108 := by cases short <;> rfl

/-- The codeword pairs of a side frame carry it whole. -/
theorem sideAppend_whole (short : Bool) (f : Nat) (hf : f < 2 ^ 108) :
    (List.range (sideWords short)).foldl (fun acc k => sideAppend short acc (sideBits short f k 0) (sideBits short f k 1)) 0 = f := by
  have whole := sideAppend_fold short f (sideWords short) hf (sideWords_carry short).le
  rwa [sideWords_carry, Nat.sub_self, pow_zero, Nat.div_one] at whole

/-! ## The short code (R74) -/

theorem bchGen_degree : bchGen < 2 ^ 25 ∧ bit bchGen 24 = true := by decide

theorem bchEncode_message (msg : Nat) : bchEncode msg / 2 ^ 24 = msg := by
  obtain ⟨small, top⟩ := bchGen_degree
  have lt := gfRem_lt 24 bchGen 542 (msg * 2 ^ 24) 0 small top (by decide)
  rw [bchEncode, Nat.mul_comm, Nat.mul_add_div (by decide), Nat.mul_comm, Nat.div_eq_of_lt lt, Nat.add_zero]

theorem bchEncode_multiple (msg : Nat) : gfRem 24 bchGen 542 (bchEncode msg) 0 = 0 := by
  obtain ⟨small, top⟩ := bchGen_degree
  exact gfRem_codeword 24 bchGen 542 msg small top (by decide)

/-- Settles O60, each clause from the lemma on the code it speaks of. -/
theorem codesCarryTheirBits : Obligations.CodesCarryTheirBits := by
  unfold Obligations.CodesCarryTheirBits
  refine ⟨rfl, bitsOf_levelsOf, ?scrambler, flitsOfBits_flitBits, ?sideFrame, sideAppend_whole, ?bch⟩
  case scrambler => exact fun short reg w => ⟨scramble_scramble short reg w, scramble_lead short reg w⟩
  case sideFrame =>
    exact fun t p ht hp => ⟨sideType_sideFrame t p ht hp, sidePayload_sideFrame t p ht hp, sideGood_sideFrame t p ht hp⟩
  case bch => exact fun msg => ⟨bchEncode_message msg, bchEncode_multiple msg⟩

end Sys2Proof.Machine
end

section
/-!
SUPPORT. What DETECT, IDENT, HELD and leaving UP write on a line or twin port (O6).
-/
namespace Sys2Proof.Machine

/-! ## DETECT, IDENT and HELD (R85, R86, R91) -/

/-- The entry, what training found and the lanes' search for codewords are one change of the port. -/
theorem Hub.toDetect_eq (h : Hub) (p : Nat) :
    h.toDetect p = (h.modPort p (fun q => { q with
      state := .detect, since := h.clk.up, leaving := false, train := { q.train.forget with hold := 0 },
      rx := { q.rx with lane0 := PortRx.reset.lane0, lane1 := PortRx.reset.lane1, side := 0, sideN := 0 } })).sendTrain p := by
  simp only [Hub.toDetect, Hub.enter, Hub.modTrain, Hub.relock, Hub.modRx, Hub.modPort_modPort]

theorem Hub.toIdent_eq (h : Hub) (p : Nat) :
    h.toIdent p = (h.modPort p (fun q => { q with
      state := .ident, since := h.clk.up,
      rx := { q.rx with lane0 := PortRx.reset.lane0, lane1 := PortRx.reset.lane1, side := 0, sideN := 0 },
      train := { q.train.forget with
      lastGood := h.clk.up, rateMax := h.pget P.LN_RATE_MAX p, code := h.pget P.LN_CODE p, darnEn := h.pget P.LN_DARN_EN p,
      preset0 := h.pget P.LN_TX_PRESET (2 * p), preset1 := h.pget P.LN_TX_PRESET (2 * p + 1),
      poolC2 := h.pget P.SW_CREDIT_POOL 0, poolC3 := h.pget P.SW_CREDIT_POOL 1 } })).sendTrain p := by
  simp only [Hub.toIdent, Hub.enter, Hub.modTrain, Hub.relock, Hub.modRx, Hub.modPort_modPort]

theorem Hub.hold_partner (h : Hub) (p reason : Nat) (i : TrainInfo) (hi : (h.port p).train.partner = some i) :
    h.hold p reason =
      ((h.modPort p (fun q => { q with state := .held, since := h.clk.up, train := { q.train with hold := reason } })).raise
        (2 ^ intLink)).event .linkHeld [(0, 1, p), (1, 1, reason), (2, 2, i.nodeId), (4, 1, i.portId)] := by
  simp only [Hub.hold, hi, Hub.enter, Hub.modTrain, Hub.modPort_modPort]

/-! ## Leaving UP (R93, R102, R203) -/

/-- A line port at a cell boundary with no stored block leaves UP: its counters and margins, then the port, raise LINK. -/
theorem Hub.leaveUp_line (h : Hub) (p : Nat) (hp : p < 2) (hpart : (h.port p).rx.delin.part = []) (hstored : (h.port p).darn.stored = []) :
    ∃ x : Hub, h.leaveUp p = x.raise (2 ^ intLink) ∧
    x.ports = modAt h.ports p (fun q => { q with
      rate := 0, short := false, leaving := false, rxDown := false, tx := { PortTx.reset with prbs := q.tx.prbs },
      rx := { Port.reset.rx with cells := q.rx.cells, frames := q.rx.frames },
      darn := Port.reset.darn, c2 := Credit.reset, c3 := Credit.reset,
      time := { q.time with line := none, reqAt := none, answer := none } }) ∧
    x.params = ((((h.bump P.LN_LINK_DOWN p).bumpBy P.RL_DARN_UNACKED p 0).pset P.LN_MARGIN (2 * p) 0).pset P.LN_MARGIN (2 * p + 1) 0).params ∧
    x.outbox = h.outbox ∧ x.tables = h.tables ∧ x.lint = h.lint ∧ x.ctl = h.ctl := by
  simp only [Hub.leaveUp, hpart, hstored, List.isEmpty_nil, List.length_nil, hp, if_true]
  refine ⟨_, rfl, ?_⟩
  by_cases h0 : p = 0
  · simp [if_pos h0, Hub.bump, Hub.bumpBy]
  · simp [if_neg h0, Hub.bump, Hub.bumpBy]

/-- Settles O6, each clause from what the port operation writes. -/
theorem portTransitionsWriteWhatTheRulesSay : Obligations.PortTransitionsWriteWhatTheRulesSay := by
  unfold Obligations.PortTransitionsWriteWhatTheRulesSay
  exact ⟨fun _ => rfl, Hub.toDetect_eq, Hub.toIdent_eq, Hub.hold_partner, Hub.leaveUp_line⟩

end Sys2Proof.Machine
end

section
/-!
SUPPORT. Bring-up of a line or twin port: what each command makes of the port in the state of R85 (O7).
-/
namespace Sys2Proof.Machine

/-! ## DETECT and IDENT (R85, R86, R88) -/

/-- Signal takes a port in DETECT to IDENT; it is not QUIET, so nothing wakes. -/
theorem Hub.signalSeen_detect (h : Hub) (p : Nat) (ha : h.portAbsent p = false) (hs : h.lnState p = .detect) : h.signalSeen p = h.toIdent p := by
  simp only [Hub.signalSeen, Hub.signalDetect, hs, ha, reduceCtorEq, Bool.false_eq_true, if_false]

section Ident
variable {h : Hub} {p : Nat} {i : TrainInfo} (hs : h.lnState p = .ident) (hi : (h.port p).train.partner = some i)
  (hg : 8 ≤ (h.port p).train.goodRun)
include hs hi hg

/-- Eight good frames of a partner that passes the check lead to TRAIN in the fastest mode left. -/
theorem Hub.identDone_trains (k : Mode) (hc : h.partnerCheck p i = 0) (hk : (h.port p).train.pick = some k) :
    h.identDone p = (h.modPort p (fun q => { q with
      state := .train, since := h.clk.up,
      train := { q.train with target := k, agreed := q.train.agree k, lock0 := false, lock1 := false },
      rx := { q.rx with lane0 := PortRx.reset.lane0, lane1 := PortRx.reset.lane1, side := 0, sideN := 0 } })).sendTrain p := by
  have hs : (h.port p).state = .ident := hs
  simp only [Hub.identDone, hs, hi, Nat.not_lt.mpr hg, hc, hk, ne_eq, not_true_eq_false, if_false, Hub.enter, Hub.modTrain, Hub.relock, Hub.modRx,
    Hub.modPort_modPort]

/-- One that fails it is held with the reason. -/
theorem Hub.identDone_holds (hc : h.partnerCheck p i ≠ 0) : h.identDone p = h.hold p (h.partnerCheck p i) := by
  have hs : (h.port p).state = .ident := hs
  simp only [Hub.identDone, hs, hi, Nat.not_lt.mpr hg, hc, ne_eq, not_false_eq_true, if_false, if_true]

end Ident

/-- 2 ms without a good frame lead back to DETECT. -/
theorem Hub.identTimeout_detect (h : Hub) (p : Nat) (hs : h.lnState p = .ident) :
    h.identTimeout p = if p = 2 then ((h.until ((h.port p).train.lastGood + ms 2)).toDetect p).twinFails 1
      else (h.until ((h.port p).train.lastGood + ms 2)).toDetect p :=
  if_pos hs

/-! ## TRAIN (R85, R86) -/

section Train
variable {h : Hub} {p : Nat} (hs : h.lnState p = .train)
include hs

section Locked
variable {i : TrainInfo} (hw : (h.port p).train.failWait = false) (h0 : (h.port p).train.lock0 = true) (h1 : (h.port p).train.lock1 = true)
  (hi : (h.port p).train.partner = some i)
include hw h0 h1 hi

/-- Both lanes locked with an agreed code and a READY partner: UP. -/
theorem Hub.trainDone_up (short : Bool) (ha : (h.port p).train.agreed = some short) (hr : i.phase = 3) : h.trainDone p = h.linkUp p short := by
  have hs : (h.port p).state = .train := hs
  simp only [Hub.trainDone, hs, hw, h0, h1, hi, ha, hr, decide_true, Bool.not_false, Bool.and_self, if_true]

/-- Both lanes locked with no code agreed: MEASURE. -/
theorem Hub.trainDone_measure (ha : (h.port p).train.agreed = none) :
    h.trainDone p = (h.modPort p (fun q => { q with
      state := .measure, since := h.clk.up, train := { q.train with pass := false, done := false } })).sendTrain p := by
  have hs : (h.port p).state = .train := hs
  simp only [Hub.trainDone, hs, hw, h0, h1, hi, ha, decide_true, Bool.not_false, Bool.and_self, if_true, Hub.enter, Hub.modTrain,
    Hub.modPort_modPort]

end Locked

section Timeout
variable {x : Hub} (hw : (h.port p).train.failWait = false) (h0 : (h.port p).train.lock0 = false)
  (hx : x = (h.until ((h.port p).since + ms 6)).modTrain p (fun t => { t with failed := t.target :: t.failed }))
include hw h0 hx

/-- 6 ms without lock mark the mode failed and lead to IDENT for a lower one. -/
theorem Hub.trainTimeout_lower (k : Mode) (hk : (x.port p).train.pick = some k) : h.trainTimeout p = x.toIdent p := by
  have hs : (h.port p).state = .train := hs
  simp only [Hub.trainTimeout, hs, hw, h0, ← hx, hk, decide_true, Bool.not_false, Bool.false_and, Bool.and_self, if_true]

/-- With no mode left a line port waits. -/
theorem Hub.trainTimeout_waits (hk : (x.port p).train.pick = none) (hp : p ≠ 2) :
    h.trainTimeout p = (x.bump P.LN_TRAIN_FAIL p).modPort p (fun q =>
      { q with since := x.clk.up, train := { q.train with failWait := true } }) := by
  have hs : (h.port p).state = .train := hs
  simp only [Hub.trainTimeout, hs, hw, h0, ← hx, hk, hp, decide_true, Bool.not_false, Bool.false_and, Bool.and_self, if_true, if_false]

end Timeout

/-- The wait's end forgets the failed modes and leads to DETECT. -/
theorem Hub.failWaitEnd_detect (hw : (h.port p).train.failWait = true) :
    h.failWaitEnd p = ((h.until ((h.port p).since + ms 100)).modTrain p (fun t => { t with failed := [] })).toDetect p := by
  have hs : (h.port p).state = .train := hs
  simp only [Hub.failWaitEnd, hs, hw, decide_true, Bool.and_self, if_true]

/-- Loss of signal leads to DETECT, but not out of that wait. -/
theorem Hub.trainSignalLoss_train : h.trainSignalLoss p = if (h.port p).train.failWait then h else h.toDetect p := by
  simp only [Hub.trainSignalLoss, hs, decide_true, Bool.true_and]
  cases (h.port p).train.failWait <;> rfl

end Train

/-! ## MEASURE (R85, R87, R89) -/

/-- The partner's part of a measure that is not done ends nothing. -/
theorem Hub.measureEnd_waits (h : Hub) (p : Nat) (i : TrainInfo) (hi : (h.port p).train.partner = some i) (hd : i.done = false) :
    h.measureEnd p = h := by
  simp only [Hub.measureEnd, hi, hd, Bool.and_false, Bool.false_eq_true, if_false]

/-- A measure that both ends have done stores the choice and leads to UP. -/
theorem Hub.measureEnd_up (h : Hub) (p : Nat) (i : TrainInfo) (hs : (h.port p).state = .measure) (hi : (h.port p).train.partner = some i)
    (hd : (h.port p).train.done = true) (hid : i.done = true) :
    h.measureEnd p = (h.modTrain p (fun t => { t with stored := some ⟨i.tag, t.target, (h.port p).train.pass && i.pass⟩ })).linkUp p
      ((h.port p).train.pass && i.pass) := by
  simp only [Hub.measureEnd, hs, hi, hd, hid, decide_true, Bool.and_self, if_true]

/-- The own measure's result, shown in a TRAIN frame. -/
def Hub.showMeasure (h : Hub) (p : Nat) (pass : Bool) : Hub := (h.modTrain p (fun t => { t with done := true, pass := pass })).sendTrain p

section Measure
variable {h : Hub} {p : Nat} (hs : h.lnState p = .measure)
include hs

theorem Hub.measureDone_measuring (e0 e1 : Nat) : h.measureDone p e0 e1 = (h.showMeasure p (measurePass e0 e1)).measureEnd p := if_pos hs

/-- Showing the result changes the training part and the transmitter of the port alone. -/
theorem Hub.showMeasure_port (pass : Bool) :
    ∃ y : PortTx, (h.showMeasure p pass).port p = { h.port p with train := { (h.port p).train with done := true, pass := pass }, tx := y } := by
  have hp : p < h.ports.length := h.lt_of_state p (by rw [show (h.port p).state = .measure from hs]; decide)
  have trained := Hub.port_modPort_same h p (fun q => { q with train := { q.train with done := true, pass := pass } }) hp
  obtain ⟨y, hy⟩ := (h.modTrain p (fun t => { t with done := true, pass := pass })).sendTrain_port p (by simpa [Hub.modTrain] using hp)
  exact ⟨y, hy.trans (by rw [Hub.modTrain, trained])⟩

variable {i : TrainInfo} (hi : (h.port p).train.partner = some i)
include hi

/-- The measure ends with a partner that is done: UP with the short code if both pass, and that is the stored choice. -/
theorem Hub.measureDone_up (e0 e1 : Nat) (hd : i.done = true) :
    ∃ g : Hub, h.measureDone p e0 e1 = g.linkUp p (measurePass e0 e1 && i.pass) ∧
      (g.port p).train = { (h.port p).train with
        done := true, pass := measurePass e0 e1,
        stored := some ⟨i.tag, (h.port p).train.target, measurePass e0 e1 && i.pass⟩ } := by
  obtain ⟨y, hy⟩ := Hub.showMeasure_port hs (measurePass e0 e1)
  have measuring : ((h.showMeasure p (measurePass e0 e1)).port p).state = .measure := by rw [hy]; exact hs
  have ended := Hub.measureEnd_up (h.showMeasure p (measurePass e0 e1)) p i measuring (by rw [hy]; exact hi) (by rw [hy]) hd
  have stays : p < (h.showMeasure p (measurePass e0 e1)).ports.length := Hub.lt_of_state _ p (by rw [measuring]; decide)
  refine ⟨_, by rw [Hub.measureDone_measuring hs, ended, hy], ?_⟩
  rw [Hub.modTrain, Hub.port_modPort_same _ p _ stays, hy]

/-- With one that is not done the result is shown, and the port waits. -/
theorem Hub.measureDone_waits (e0 e1 : Nat) (hd : i.done = false) : h.measureDone p e0 e1 = h.showMeasure p (measurePass e0 e1) := by
  obtain ⟨y, hy⟩ := Hub.showMeasure_port hs (measurePass e0 e1)
  rw [Hub.measureDone_measuring hs, Hub.measureEnd_waits _ p i (by rw [hy]; exact hi) hd]

/-- Twice the measure time without the partner's result leads to UP with the long code. -/
theorem Hub.measureTimeout_up (hd : i.done = false) :
    h.measureTimeout p = (h.until ((h.port p).since + 2 * measureTime (h.port p).train.target)).linkUp p false := by
  have hs : (h.port p).state = .measure := hs
  simp only [Hub.measureTimeout, hs, hi, hd, decide_true, Bool.not_false, Bool.and_self, if_true]

end Measure

/-- Loss of signal or lock leads from MEASURE to DETECT. -/
theorem Hub.measureAbandon_detect (h : Hub) (p : Nat) (hs : h.lnState p = .measure) : h.measureAbandon p = h.toDetect p := if_pos hs

/-! ## Codeword lock (R80) -/

/-- Codewords by which a training lane without lock meets the criteria lock it. -/
theorem Hub.laneSaw_gains (h : Hub) (p lane : Nat) (seen : List Seen) (l : LaneRx) (hs : h.lnState p = .train ∨ h.lnState p = .measure)
    (hk : h.locked p lane = false)
    (hl : l = seen.foldl (fun l w => l.judge (h.port p).rxShort false w.lead w.bad) ((h.port p).rx.lane lane))
    (hg : l.gains (h.port p).rxShort = true) :
    h.laneSaw p lane seen = (h.modRx p (fun r => r.setLane lane l)).setLock p lane true := by
  have on : (h.port p).state ≠ .disabled := by rcases hs with e | e <;> rw [show (h.port p).state = _ from e] <;> decide
  rw [Hub.laneSaw_eq h p lane seen (h.lt_of_state p on)]
  simp only [hk, ← hl, hg, Bool.false_eq_true, if_false, if_true]
  rcases hs with e | e <;> simp only [Hub.lockGained, Hub.lnState_modRx, e]

/-! ## The commands -/

theorem exec_signalDetect (p : Nat) (s : State) : exec (.signalDetect p) s = .next (s.after (s.hub.signalSeen p)) := rfl

theorem exec_identDone (p n : Nat) (s : State) : exec (.identDone p n) s = .next (s.after ((s.hub.trainRepeats p n).identDone p)) := rfl

theorem exec_identTimeout (p : Nat) (s : State) : exec (.identTimeout p) s = .next (s.after (s.hub.identTimeout p)) := rfl

theorem exec_trainDone (p : Nat) (s : State) : exec (.trainDone p) s = .next (s.after (s.hub.trainDone p)) := rfl

theorem exec_trainTimeout (p : Nat) (s : State) : exec (.trainTimeout p) s = .next (s.after (s.hub.trainTimeout p)) := rfl

theorem exec_trainFailWaitEnd (p : Nat) (s : State) : exec (.trainFailWaitEnd p) s = .next (s.after (s.hub.failWaitEnd p)) := rfl

theorem exec_trainSignalLoss (p : Nat) (s : State) : exec (.trainSignalLoss p) s = .next (s.after (s.hub.trainSignalLoss p)) := rfl

theorem exec_measureDone (p : Nat) (e : LaneErrs) (s : State) :
    exec (.measureDone p e) s = .next (s.after (s.hub.measureDone p e.errs0 e.errs1)) := rfl

theorem exec_measureTimeout (p : Nat) (s : State) : exec (.measureTimeout p) s = .next (s.after (s.hub.measureTimeout p)) := rfl

theorem exec_measureAbandon (p : Nat) (s : State) : exec (.measureAbandon p) s = .next (s.after (s.hub.measureAbandon p)) := rfl

theorem exec_codewordLock (p : Nat) (run : LaneRun) (s : State) :
    exec (.codewordLock p run) s = .next (s.after (s.hub.laneSaw p run.lane run.seen)) := rfl

/-- Settles O7, each clause from the lemma on what its command makes of the port in that state. -/
theorem trainingCommandsMovePorts : Obligations.TrainingCommandsMovePorts := by
  unfold Obligations.TrainingCommandsMovePorts
  refine ⟨?detect, ?identTrain, ?identHeld, ?identTimeout, ?trainUp, ?trainMeasure, ?trainLower, ?trainWait, ?waitEnd, ?trainLoss, ?measured,
    ?measureWaits, ?measureOver, ?lock, ?setLock⟩
  case detect =>
    intro s p ha hs
    rw [exec_signalDetect, Hub.signalSeen_detect s.hub p ha hs]
  case identTrain =>
    rintro s p n i k x rfl hs hi hg hc hk
    rw [exec_identDone, Hub.identDone_trains hs hi hg k hc hk]
  case identHeld =>
    rintro s p n i x rfl hs hi hg hc
    rw [exec_identDone, Hub.identDone_holds hs hi hg hc]
  case identTimeout =>
    intro s p hs
    rw [exec_identTimeout, Hub.identTimeout_detect s.hub p hs]
  case trainUp =>
    intro s p i short hs hw h0 h1 ha hi hr
    rw [exec_trainDone, Hub.trainDone_up hs hw h0 h1 hi short ha hr]
  case trainMeasure =>
    intro s p i hs hw h0 h1 ha hi
    rw [exec_trainDone, Hub.trainDone_measure hs hw h0 h1 hi ha]
  case trainLower =>
    intro s p x k hs hw h0 hx hk
    rw [exec_trainTimeout, Hub.trainTimeout_lower hs hw h0 hx k hk]
  case trainWait =>
    intro s p x hs hw h0 hx hk hp
    rw [exec_trainTimeout, Hub.trainTimeout_waits hs hw h0 hx hk hp]
  case waitEnd =>
    intro s p hs hw
    rw [exec_trainFailWaitEnd, Hub.failWaitEnd_detect hs hw, Hub.modTrain]
  case trainLoss =>
    intro s p hs
    rw [exec_trainSignalLoss, Hub.trainSignalLoss_train hs]
  case measured =>
    intro s p e0 e1 i hs hi hd
    obtain ⟨g, hg, htrain⟩ := Hub.measureDone_up hs hi e0 e1 hd
    exact ⟨g, by rw [exec_measureDone, hg, measurePass], htrain⟩
  case measureWaits =>
    intro s p e0 e1 i hs hi hd
    rw [exec_measureDone, Hub.measureDone_waits hs hi e0 e1 hd, Hub.showMeasure, Hub.modTrain, measurePass]
  case measureOver =>
    intro s p i hs hi hd
    exact ⟨by rw [exec_measureTimeout, Hub.measureTimeout_up hs hi hd], by rw [exec_measureAbandon, Hub.measureAbandon_detect s.hub p hs]⟩
  case lock =>
    intro s p lane seen l hs hk hl hg
    rw [exec_codewordLock, Hub.laneSaw_gains s.hub p lane seen l hs hk hl hg, Hub.modRx]
  case setLock =>
    rintro h p lane on x rfl
    rfl

end Sys2Proof.Machine
end

section
/-!
SUPPORT. Blocks of an UP port and Darn: what reading a codeword pair and its blocks leaves, and what acknowledgements, replays and the two
timeouts do (O10).
-/
namespace Sys2Proof.Machine

/-! ## A codeword pair (R68, R69, R73 to R81) -/

/-- Levels of another length than a codeword's are none. -/
theorem Hub.blockRx_otherLength (h : Hub) (p : Nat) (w : Words)
    (hl : w.lane0.length ≠ wordBits (h.port p).rxShort / (if isPam4 (h.port p).rxMode then 2 else 1)) : h.blockRx p w = h := by
  simp only [Hub.blockRx, hl, ne_eq, not_false_eq_true, decide_true, Bool.or_true, Bool.true_or, if_true]

/-- A pair whose levels are a codeword's length is not passed over by a port that has a receiver. -/
theorem Hub.blockRx_receives (h : Hub) (p n : Nat) (w : Words) (ha : h.portAbsent p = false) (hd : (h.port p).state ≠ .disabled)
    (hq : (h.port p).state ≠ .quiet) (h0 : w.lane0.length = n) (h1 : w.lane1.length = n) :
    (h.portAbsent p || decide ((h.port p).state = .disabled) || decide ((h.port p).state = .quiet) || decide (w.lane0.length ≠ n) ||
      decide (w.lane1.length ≠ n)) = false := by
  simp only [ha, hd, hq, h0, h1, ne_eq, not_true_eq_false, decide_false, Bool.or_self]

/-! ## A block (R77 to R79, R94, R97, R98) -/

/-- What waits at a port and the delineation of what Darn discards, after a block that is not taken in order. -/
theorem Hub.discardBlock_eq (h : Hub) (p : Nat) (b : Block) :
    h.discardBlock p b = h.modPort p (fun q => { q with
      rx := { q.rx with cells := q.rx.cells ++ (strayBlock (h.port p).rx.stray b).locals, stray := (strayBlock (h.port p).rx.stray b).delin } }) := by
  simp only [Hub.discardBlock, Hub.takeCells, Hub.modRx, Hub.modPort_modPort]

/-- Without Darn a block is read from the delineation; damaged cells are counted and gone. -/
theorem Hub.plainBlock_eq (h : Hub) (p : Nat) (b : Block) (c : Scan) (hc : c = scanBlock (h.port p).rx.delin b (8 * (h.port p).rx.next)) :
    h.plainBlock p b =
      (((h.bumpBy P.LN_HUNT p c.hunts).bumpBy P.LN_HCRC_ERR p c.hunts).bumpBy P.LN_CRC_ERR p c.badCrc.length).modPort p (fun q => { q with
        rx := { q.rx with cells := q.rx.cells ++ c.cells.map (·.2), delin := c.delin, next := q.rx.next + 1 } }) := by
  simp only [Hub.plainBlock, ← hc, Hub.takeCells, Hub.modRx, Hub.modPort_modPort]

section Up
variable {h : Hub} {p : Nat} (hu : h.portUp p = true)
include hu

theorem Hub.blockIn_plain (b : Block) (hd : h.darnOn p = false) : h.blockIn p b = h.plainBlock p b := by
  simp only [Hub.blockIn, hu, hd, Bool.not_true, Bool.not_false, Bool.false_eq_true, if_false, if_true]

variable (b : Block) (hd : h.darnOn p = true)
include hd

/-- An unnumbered block that no replay message begins, or that stands alone in its pair, is read for its link-local cells alone. -/
theorem Hub.blockIn_unnumbered (hn : b.numbered = false) (hr : (b.isReplay && decide (1 < wordBlocks (h.port p).rxShort)) = false) :
    h.blockIn p b = h.discardBlock p b := by
  simp only [Hub.blockIn, hu, hd, hn, hr, Bool.not_true, Bool.false_and, Bool.false_eq_true, if_false]

/-- A replay block with others behind it in its pair acts as it comes. -/
theorem Hub.blockIn_replay (hr : b.isReplay = true) (hw : 1 < wordBlocks (h.port p).rxShort) :
    h.blockIn p b = (h.discardBlock p b).replayBlock p b := by
  simp only [Hub.blockIn, hu, hd, hr, hw, Bool.not_true, Bool.and_false, decide_true, Bool.and_self, Bool.false_eq_true, if_false, if_true]

end Up

theorem Hub.replayBlock_good (h : Hub) (p : Nat) (b : Block) (c : Cell) (hc : cellOf (b.flits.take 2) = some c) (hg : localGood c = true) :
    h.replayBlock p b = h.darnReplay p (be c.payload 2 2) := by
  simp only [Hub.replayBlock, hc, hg, if_true]

/-- While a DARN_NAK is outstanding a numbered block is not taken. -/
theorem Hub.darnBlock_awaits (h : Hub) (p : Nat) (b : Block) (hn : (h.port p).rx.nakAt.isSome = true) : h.darnBlock p b = h.discardBlock p b :=
  if_pos hn

/-- A bad numbered block asks for itself again; the good cells that are new and the link-local ones behind them wait at the port. -/
theorem Hub.darnBlock_failed (h : Hub) (p : Nat) (b : Block) (d : DarnScan) (hn : (h.port p).rx.nakAt = none) (hp : p < h.ports.length)
    (hd : d = darnScan (h.port p).rx.delin b (8 * (h.port p).rx.next)) (hf : d.failed = true) :
    ∃ x : Hub, h.darnBlock p b = x.sendNak p ∧ (x.port p).rx.cells = (h.port p).rx.cells ++
      (d.good.cells.filter (fun c => (h.port p).rx.delivered < c.1 + 1)).map (·.2) ++ d.stray.locals := by
  simp only [Hub.darnBlock, hn, Option.isSome_none, Bool.false_eq_true, if_false, ← hd, hf, if_true]
  refine ⟨_, rfl, ?_⟩
  simp [Hub.modRx, Hub.takeCells, Hub.port, Hub.bumpBy, nth_modAt_same, hp]

/-! ## Darn messages (R96, R98, R99) -/

theorem Hub.sendAck_some (h : Hub) (p : Nat) (hn : (h.port p).rx.next ≠ 0) :
    h.sendAck p = (h.modRx p (fun r => { r with sinceAck := 0 })).sendLinkLocal p
      ([1#8, 0#8] ++ beBytes 2 (((h.port p).rx.next - 1) % 65536) ++ beBytes 4 0) :=
  if_neg hn

theorem Hub.nakRepeat_up (h : Hub) (p t : Nat) (hu : h.portUp p = true) (hn : (h.port p).rx.nakAt = some t) :
    h.nakRepeat p = (h.until (t + us (h.pget P.LN_DARN_TIMEOUT p))).sendNak p := by
  simp only [Hub.nakRepeat, hn, hu, if_true]

/-- A stored block acknowledged frees itself and those before it. -/
theorem Hub.darnAck_stored (h x : Hub) (p seq : Nat) (b : Nat × List Flit) (hx : x = h.takeLocal p 1)
    (hb : (x.port p).darn.stored.find? (fun b => b.1 % 65536 == seq % 65536) = some b) :
    h.darnAck p seq = (x.freeBlocks p (b.1 + 1)).putFlits p [] := by
  simp only [Hub.darnAck, ← hx, hb]

/-- A stored block asked for frees those before it, and it and those behind it are sent again. -/
theorem Hub.darnNak_stored (h x : Hub) (p seq : Nat) (b : Nat × List Flit) (hx : x = h.takeLocal p 2) (hu : x.portUp p = true)
    (hb : (x.port p).darn.stored.find? (fun b => b.1 % 65536 == seq % 65536) = some b) :
    h.darnNak p seq = (((x.bump P.LN_DARN_NAK_RX p).freeBlocks p b.1).replay p b.1).putFlits p [] := by
  simp only [Hub.darnNak, ← hx, hu, hb, Bool.not_true, Bool.false_eq_true, if_false]

/-- The awaited block announced restarts acceptance; where its start is no longer known, delineation starts anew with it. -/
theorem Hub.darnReplay_restarts (h x : Hub) (p seq : Nat) (hx : x = h.takeLocal p 3) (hn : (x.port p).rx.nakAt.isSome = true)
    (hs : (x.port p).rx.next % 65536 = seq % 65536) (hf : (x.port p).rx.starts.find? (fun t => t.1 == (x.port p).rx.next) = none) :
    h.darnReplay p seq = x.modRx p (fun r => { r with
      nakAt := none, delin := ⟨[], false, 8 * (x.port p).rx.next⟩, stray := ⟨[], true, 0⟩, starts := r.starts.filter (fun t => t.1 < r.next) }) := by
  simp only [Hub.darnReplay, ← hx, hn, hs, hf, decide_true, Bool.and_self, if_true]

theorem Hub.replayTimeout_stored (h : Hub) (p : Nat) (b : Nat × List Flit) (l : List (Nat × List Flit)) (hu : h.portUp p = true)
    (hs : (h.port p).darn.stored = b :: l) :
    h.replayTimeout p = (h.until ((h.port p).darn.oldAt + us (h.pget P.LN_DARN_TIMEOUT p))).replay p b.1 := by
  simp only [Hub.replayTimeout, hs, hu, if_true]

/-! ## The commands -/

theorem exec_blockRx (p : Nat) (w : Words) (s : State) : exec (.blockRx p w) s = .next (s.after (s.hub.blockRx p w)) := rfl

theorem exec_darnAckTx (p : Nat) (s : State) : exec (.darnAckTx p) s = .next (s.after (s.hub.sendAck p)) := rfl

theorem exec_darnNakRepeat (p : Nat) (s : State) : exec (.darnNakRepeat p) s = .next (s.after (s.hub.nakRepeat p)) := rfl

theorem exec_darnAck (p seq : Nat) (s : State) : exec (.darnAck p seq) s = .next (s.after (s.hub.darnAck p seq)) := rfl

theorem exec_darnNak (p seq reason : Nat) (s : State) : exec (.darnNak p seq reason) s = .next (s.after (s.hub.darnNak p seq)) := rfl

theorem exec_darnReplay (p seq : Nat) (s : State) : exec (.darnReplay p seq) s = .next (s.after (s.hub.darnReplay p seq)) := rfl

theorem exec_darnReplayTimeout (p : Nat) (s : State) : exec (.darnReplayTimeout p) s = .next (s.after (s.hub.replayTimeout p)) := rfl

/-- Settles O10, each clause from the lemma on the block or the Darn operation it speaks of. -/
theorem darnCommandsFollowTheRules : Obligations.DarnCommandsFollowTheRules := by
  unfold Obligations.DarnCommandsFollowTheRules
  refine ⟨?otherLength, ?pair, ?plain, ?unnumbered, ?replayBlock, Hub.darnBlock_awaits, Hub.darnBlock_failed, ?ackTx, ?nakRepeat, ?ack, ?nak,
    ?replay, ?timeout⟩
  case otherLength =>
    intro s p w hl
    rw [exec_blockRx, Hub.blockRx_otherLength s.hub p w hl]
  case pair =>
    rintro s p n at_ w0 w1 map w pam short x a b g ha hd hq rfl rfl hn h0 h1 rfl rfl rfl rfl rfl rfl rfl rfl
    subst hn
    have receives := Hub.blockRx_receives s.hub p _ w ha hd hq h0 h1
    rw [exec_blockRx]
    exact congrArg (fun g => Host.Outcome.next (s.after g)) (if_neg (Bool.eq_false_iff.mp receives))
  case plain =>
    intro h p b c hu hd hc
    rw [Hub.blockIn_plain hu b hd, Hub.plainBlock_eq h p b c hc]
  case unnumbered =>
    intro h p b hu hd hn hr
    rw [Hub.blockIn_unnumbered hu b hd hn hr, Hub.discardBlock_eq]
  case replayBlock =>
    intro h p b c hu hd hr hw hc hg
    rw [Hub.blockIn_replay hu b hd hr hw, Hub.replayBlock_good _ p b c hc hg]
  case ackTx =>
    intro s p hn
    rw [exec_darnAckTx, Hub.sendAck_some s.hub p hn, Hub.modRx]
  case nakRepeat =>
    intro s p t hu hn
    rw [exec_darnNakRepeat, Hub.nakRepeat_up s.hub p t hu hn]
  case ack =>
    intro s p seq b hb
    rw [exec_darnAck, Hub.darnAck_stored s.hub _ p seq b rfl hb]
  case nak =>
    intro s p seq reason b hu hb
    rw [exec_darnNak, Hub.darnNak_stored s.hub _ p seq b rfl hu hb]
  case replay =>
    intro s p seq hn hs hf
    rw [exec_darnReplay, Hub.darnReplay_restarts s.hub _ p seq rfl hn hs hf, Hub.modRx]
  case timeout =>
    intro s p b l hu hs
    rw [exec_darnReplayTimeout, Hub.replayTimeout_stored s.hub p b l hu hs]

end Sys2Proof.Machine
end

section
/-!
SUPPORT. A cell on the wire, read back: its checks fit their fields, its flits are its bytes, its header says its fields (O22).
-/
namespace Sys2Proof.Machine

/-! ## The checks (R104, R106) -/

theorem crcBit_lt (w poly c : Nat) (b : Bool) (hp : poly < 2 ^ w) : crcBit w poly c b < 2 ^ w := by
  have shifted : c * 2 % 2 ^ w < 2 ^ w := Nat.mod_lt _ (Nat.two_pow_pos w)
  simp only [crcBit]
  split
  · exact Nat.xor_lt_two_pow shifted hp
  · exact shifted

theorem crc16_lt (bs : List Byte) : crc16 bs < 2 ^ 16 :=
  foldl_lt _ _ (fun _ b h => foldl_lt _ _ (fun c b _ => crcBit_lt 16 0x1021 c b (by decide)) (byteBits b) _ h) bs _ (by decide)

theorem crcRBit_lt (poly c : Nat) (hp : poly < 2 ^ 32) (hc : c < 2 ^ 32) : crcRBit poly c < 2 ^ 32 := by
  have half : c / 2 < 2 ^ 32 := lt_of_le_of_lt (Nat.div_le_self c 2) hc
  simp only [crcRBit]
  split
  · exact Nat.xor_lt_two_pow half hp
  · exact half

theorem crcRByte_lt (poly c : Nat) (b : Byte) (hp : poly < 2 ^ 32) (hc : c < 2 ^ 32) : crcRByte poly c b < 2 ^ 32 := by
  have byte : b.toNat < 2 ^ 32 := lt_trans b.isLt (by decide)
  have entry : c ^^^ b.toNat < 2 ^ 32 := Nat.xor_lt_two_pow hc byte
  have bitStep : ∀ x, x < 2 ^ 32 → crcRBit poly x < 2 ^ 32 := fun x hx => crcRBit_lt poly x hp hx
  exact bitStep _ (bitStep _ (bitStep _ (bitStep _ (bitStep _ (bitStep _ (bitStep _ (bitStep _ entry)))))))

theorem crc32c_lt (bs : List Byte) : crc32c bs < 2 ^ 32 :=
  Nat.xor_lt_two_pow (foldl_lt _ _ (fun c b h => crcRByte_lt poly32c c b (by decide) h) bs _ (by decide)) (by decide)

/-! ## Fields of a string of bytes (R6) -/

@[simp] theorem length_beBytes (n v : Nat) : (beBytes n v).length = n := by simp [beBytes]

theorem beNat_beBytes (n v : Nat) : beNat (beBytes n v) = v % 256 ^ n := by
  rw [beNat, beBytes, List.reverse_reverse, leNat_leBytes]

/-- The field that begins behind a part of the string and ends with it. -/
theorem be_at (pre mid : List Byte) (o n : Nat) (ho : pre.length = o) (hn : mid.length = n) : be (pre ++ mid) o n = beNat mid := by
  subst ho hn
  simp [be, slice]

/-- A string with zeros behind it up to the length of the field. -/
theorem fit_eq_append (n : Nat) (l : List Byte) (h : l.length ≤ n) : fit n l = l ++ List.replicate (n - l.length) 0#8 := by
  simp [fit, slice, List.take_of_length_le h]

/-! ## Flits (R105) -/

/-- Bytes that fill n flits are cut into n flits of 16 bytes, and these joined are the bytes. -/
theorem cutFlits_whole (n fuel : Nat) (bs : List Byte) (hn : n ≤ fuel) (hl : bs.length = 16 * n) :
    (cutFlits fuel bs).length = n ∧ (∀ f ∈ cutFlits fuel bs, f.length = 16) ∧ (cutFlits fuel bs).flatten = bs := by
  induction n generalizing fuel bs with
  | zero =>
    obtain rfl : bs = [] := List.length_eq_zero_iff.mp hl
    cases fuel <;> simp [cutFlits]
  | succ n ih =>
    obtain ⟨fuel, rfl⟩ := Nat.exists_eq_add_of_le' (Nat.le_of_add_left_le hn)
    have some_left : bs.isEmpty = false := by cases bs with | nil => simp at hl | cons b bs => rfl
    have first : fit 16 bs = bs.take 16 := by simp [fit, slice]; omega
    obtain ⟨count, sizes, joined⟩ := ih fuel (bs.drop 16) (by omega) (by rw [List.length_drop]; omega)
    simp only [cutFlits, some_left, first, Bool.false_eq_true, if_false]
    refine ⟨by simp [count], ?_, by simp [joined]⟩
    intro f hf
    obtain rfl | hf := List.mem_cons.mp hf
    · rw [List.length_take]; omega
    · exact sizes f hf

/-- The bytes of a cell begin with a flit of their own, the first 16. -/
theorem cutFlits_append (fuel : Nat) (f bs : List Byte) (hf : f.length = 16) : cutFlits (fuel + 1) (f ++ bs) = f :: cutFlits fuel bs := by
  have filled : (f ++ bs).isEmpty = false := by cases f with | nil => simp at hf | cons b f => rfl
  have first : fit 16 (f ++ bs) = f := by simp [fit, slice, ← hf]
  have others : (f ++ bs).drop 16 = bs := by rw [← hf, List.drop_left]
  simp only [cutFlits, filled, first, others, Bool.false_eq_true, if_false]

/-! ## The header (R103) -/

/-- A field above the one written last stands where it stood, that much higher. -/
theorem bits_above_field (a v n lo w : Nat) (h : n ≤ lo) : bits (a * 2 ^ n + v % 2 ^ n) lo w = bits a (lo - n) w := by
  have split : 2 ^ lo = 2 ^ n * 2 ^ (lo - n) := by rw [← pow_add, Nat.add_sub_cancel' h]
  have above : (a * 2 ^ n + v % 2 ^ n) / 2 ^ n = a := by
    rw [Nat.mul_comm, Nat.mul_add_div (Nat.two_pow_pos n), Nat.div_eq_of_lt (Nat.mod_lt v (Nat.two_pow_pos n)), Nat.add_zero]
  rw [bits, split, ← Nat.div_div_eq_div_mul, above, bits]

/-- The field written last. -/
theorem bits_of_field (a v n : Nat) : bits (a * 2 ^ n + v % 2 ^ n) 0 n = v % 2 ^ n := by
  rw [bits_of_low a (v % 2 ^ n) n 0 n (by omega), bits, pow_zero, Nat.div_one, Nat.mod_mod]

/-- What stands at bit m and above is in no field below. -/
theorem bits_of_mod (v m lo w : Nat) (h : lo + w ≤ m) : bits (v % 2 ^ m) lo w = bits v lo w := by
  rw [← bits_of_low (v / 2 ^ m) (v % 2 ^ m) m lo w h, Nat.div_add_mod']

/-- One bit is the field of width 1. -/
theorem bit_eq_bits (v i : Nat) : bit v i = decide (bits v i 1 = 1) := Nat.testBit_eq_decide_div_mod_eq

theorem decide_b2n (b : Bool) : decide (b2n b % 2 ^ 1 = 1) = b := by cases b <;> rfl

@[simp] theorem length_headerBytes (c : Cell) : (headerBytes c).length = 16 := by simp [headerBytes]

/-- The 128 bits of a header: its fields, the HCRC behind them. -/
theorem be_headerBytes (c : Cell) :
    be (headerBytes c) 0 16 = headerTop c % 2 ^ 112 * 2 ^ 16 + crc16 (beBytes 14 (headerTop c)) % 2 ^ 16 := by
  have whole := be_at [] (headerBytes c) 0 16 rfl (length_headerBytes c)
  rw [List.nil_append] at whole
  rw [whole, headerBytes, beNat_append, beNat_beBytes, beNat_beBytes, length_beBytes]
  rfl

/-- A field of the header, from the number its fields make. -/
theorem bits_headerBytes (c : Cell) (lo w : Nat) (h : 16 ≤ lo) (hw : lo + w ≤ 128) :
    bits (be (headerBytes c) 0 16) lo w = bits (headerTop c) (lo - 16) w := by
  rw [be_headerBytes, bits_above_field _ _ 16 lo w h, bits_of_mod _ 112 _ w (by omega)]

/-- The HCRC of a header is that of the bytes in front of it (R104). -/
theorem headerBytes_hcrc (c : Cell) : crc16 ((headerBytes c).take 14) = be (headerBytes c) 14 2 := by
  have fields : (headerBytes c).take 14 = beBytes 14 (headerTop c) := by simp [headerBytes]
  have hcrc := be_at (beBytes 14 (headerTop c)) (beBytes 2 (crc16 (beBytes 14 (headerTop c)))) 14 2 (length_beBytes _ _) (length_beBytes _ _)
  rw [fields, headerBytes, hcrc, beNat_beBytes]
  exact (Nat.mod_eq_of_lt (crc16_lt _)).symm

/-- Each field of the header, reserved bits included, at its place. -/
theorem headerTop_fields (c : Cell) :
    bits (headerTop c) 110 2 = c.cls % 2 ^ 2 ∧ bits (headerTop c) 109 1 = b2n c.first % 2 ^ 1 ∧ bits (headerTop c) 108 1 = b2n c.last % 2 ^ 1 ∧
    bits (headerTop c) 104 4 = c.kind % 2 ^ 4 ∧ bits (headerTop c) 92 12 = c.dest % 2 ^ 12 ∧ bits (headerTop c) 80 12 = c.src % 2 ^ 12 ∧
    bits (headerTop c) 64 16 = c.tid % 2 ^ 16 ∧ bits (headerTop c) 48 16 = c.seq % 2 ^ 16 ∧ bits (headerTop c) 47 1 = b2n c.dup % 2 ^ 1 ∧
    bits (headerTop c) 46 1 = c.rail % 2 ^ 1 ∧ bits (headerTop c) 45 1 = b2n c.detour % 2 ^ 1 ∧ bits (headerTop c) 32 13 = c.hops % 2 ^ 13 ∧
    bits (headerTop c) 23 9 = c.payload.length % 2 ^ 9 ∧ bits (headerTop c) 0 23 = 0 % 2 ^ 23 := by
  refine ⟨?_, ?_, ?_, ?_, ?_, ?_, ?_, ?_, ?_, ?_, ?_, ?_, ?_, ?_⟩ <;>
    simp only [headerTop, bits_above_field, bits_of_field, Nat.reduceLeDiff, Nat.reduceSub]

/-- The fields of a cell are in their widths (R103). -/
structure InWidths (c : Cell) : Prop where
  cls  : c.cls < 4
  kind : c.kind ≤ 6
  dest : c.dest < 4096
  src  : c.src < 4096
  tid  : c.tid < 65536
  seq  : c.seq < 65536
  rail : c.rail < 2
  hops : c.hops < 8192
  len  : c.payload.length ≤ 256

section Header
variable {c : Cell} (hw : InWidths c)
include hw

/-- A header read is the cell's fields and the length of its payload. -/
theorem headerOf_headerBytes : headerOf (headerBytes c) = ⟨{ c with payload := [] }, c.payload.length⟩ := by
  obtain ⟨cls, first, last, kind, dest, src, tid, seq, dup, rail, detour, hops, len, -⟩ := headerTop_fields c
  obtain ⟨wcls, wkind, wdest, wsrc, wtid, wseq, wrail, whops, wlen⟩ := hw
  simp only [headerOf, bit_eq_bits, bits_headerBytes, Nat.reduceLeDiff, Nat.reduceSub, Nat.reduceAdd, cls, first, last, kind, dest, src, tid,
    seq, dup, rail, detour, hops, len, decide_b2n]
  simp only [Nat.reducePow, Nat.mod_eq_of_lt, *]
  rw [Nat.mod_eq_of_lt (by omega : c.kind < 16), Nat.mod_eq_of_lt (by omega : c.payload.length < 512)]

/-- It passes the header check (R79). -/
theorem headerGood_headerBytes : headerGood (headerBytes c) = true := by
  obtain ⟨-, -, -, kind, -, -, -, -, -, -, -, -, len, reserved⟩ := headerTop_fields c
  have kindFits : c.kind % 2 ^ 4 ≤ 6 := le_trans (Nat.mod_le _ _) hw.kind
  have lenFits : c.payload.length % 2 ^ 9 ≤ 256 := le_trans (Nat.mod_le _ _) hw.len
  simp only [headerGood, headerBytes_hcrc, bits_headerBytes, Nat.reduceLeDiff, Nat.reduceSub, Nat.reduceAdd, kind, len, reserved, kindFits,
    lenFits, Nat.zero_mod, beq_self_eq_true, decide_true, Bool.and_self]

/-- It says how many flits the cell is (R105). -/
theorem headerFlits_headerBytes : headerFlits (headerBytes c) = cellFlits c := by
  simp only [headerFlits, headerOf_headerBytes hw, cellFlits, flitsFor]

end Header

/-! ## The cell (R105, R106) -/

/-- The flits behind the header: payload, pad and trailer; none of a cell without payload. -/
def tailWire (c : Cell) : List Byte :=
  if c.payload.length = 0 then [] else fit (16 * (cellFlits c - 1) - 4) c.payload ++ beBytes 4 (crc32c c.payload)

theorem cellWire_eq (c : Cell) : cellWire c = headerBytes c ++ tailWire c := by
  by_cases he : c.payload.length = 0
  · rw [cellWire, tailWire, if_pos he, if_pos he, List.append_nil]
  · rw [cellWire, tailWire, if_neg he, if_neg he, List.append_assoc]

/-- Payload and trailer have room in the flits behind the header. -/
theorem payload_fits (c : Cell) (he : c.payload.length ≠ 0) : c.payload.length + 4 ≤ 16 * (cellFlits c - 1) := by
  rw [cellFlits, if_neg he, ceilDiv]; omega

theorem cellFlits_pos (c : Cell) : 1 ≤ cellFlits c := by unfold cellFlits; split <;> omega

theorem cellFlits_le (c : Cell) (hl : c.payload.length ≤ 256) : cellFlits c ≤ 18 := by
  unfold cellFlits ceilDiv; split <;> omega

theorem length_tailWire (c : Cell) : (tailWire c).length = 16 * (cellFlits c - 1) := by
  by_cases he : c.payload.length = 0
  · rw [tailWire, if_pos he, cellFlits, if_pos he]; rfl
  · have room := payload_fits c he
    rw [tailWire, if_neg he, fit_eq_append _ _ (by omega)]
    simp only [List.length_append, List.length_replicate, length_beBytes]
    omega

/-- The flits of a cell: the header, and those that the tail fills. -/
theorem flitsOf_eq (c : Cell) : flitsOf c = headerBytes c :: cutFlits 17 (tailWire c) := by
  rw [flitsOf, cellWire_eq, cutFlits_append 17 _ _ (length_headerBytes c)]

/-- The flits behind the header are as many as the header says, of 16 bytes each, and spell the tail. -/
theorem cutFlits_tailWire {c : Cell} (hl : c.payload.length ≤ 256) :
    (cutFlits 17 (tailWire c)).length = cellFlits c - 1 ∧ (∀ f ∈ cutFlits 17 (tailWire c), f.length = 16) ∧
      (cutFlits 17 (tailWire c)).flatten = tailWire c :=
  cutFlits_whole (cellFlits c - 1) 17 (tailWire c) (by have := cellFlits_le c hl; omega) (length_tailWire c)

/-- The payload is the front of the tail. -/
theorem take_tailWire (c : Cell) (he : c.payload.length ≠ 0) : (tailWire c).take c.payload.length = c.payload := by
  have room := payload_fits c he
  rw [tailWire, if_neg he, fit_eq_append _ _ (by omega), List.append_assoc, List.take_left]

/-- The last four bytes of the tail are the CRC-32C of the payload (R106). -/
theorem be_tailWire (c : Cell) (he : c.payload.length ≠ 0) : be (tailWire c) ((tailWire c).length - 4) 4 = crc32c c.payload := by
  have room := payload_fits c he
  have front : (fit (16 * (cellFlits c - 1) - 4) c.payload).length = (tailWire c).length - 4 := by
    rw [length_tailWire, fit_eq_append _ _ (by omega), List.length_append, List.length_replicate]; omega
  have trailer := be_at (fit (16 * (cellFlits c - 1) - 4) c.payload) (beBytes 4 (crc32c c.payload)) _ 4 front (length_beBytes 4 _)
  have joined : fit (16 * (cellFlits c - 1) - 4) c.payload ++ beBytes 4 (crc32c c.payload) = tailWire c := by rw [tailWire, if_neg he]
  rw [joined, beNat_beBytes] at trailer
  exact trailer.trans (Nat.mod_eq_of_lt (crc32c_lt _))

/-- A cell read back from its own flits: the header says its fields, and the trailer checks. -/
theorem cellOf_flitsOf {c : Cell} (hw : InWidths c) : cellOf (flitsOf c) = some c := by
  obtain ⟨-, sizes, joined⟩ := cutFlits_tailWire hw.len
  have whole : (cutFlits 17 (tailWire c)).any (fun f => f.isEmpty) = false := by
    rw [List.any_eq_false]
    intro f hf
    have size := sizes f hf
    cases f with
    | nil => simp at size
    | cons b f => simp
  rw [flitsOf_eq]
  simp only [cellOf, headerOf_headerBytes hw, whole, joined, Bool.false_eq_true, if_false]
  by_cases he : c.payload.length = 0
  · rw [if_pos he, ← List.length_eq_zero_iff.mp he]
  · rw [if_neg he, take_tailWire c he, be_tailWire c he, if_pos rfl]

/-- Settles O22: the flits are the header and the tail, and each is read back. -/
theorem cellsReadBackFromTheWire : Obligations.CellsReadBackFromTheWire := by
  unfold Obligations.CellsReadBackFromTheWire
  intro c cls kind dest src tid seq rail hops len
  have hw : InWidths c := ⟨cls, kind, dest, src, tid, seq, rail, hops, len⟩
  obtain ⟨count, sizes, -⟩ := cutFlits_tailWire len
  have flits := flitsOf_eq c
  refine ⟨?_, ?_, ⟨_, _, flits, headerGood_headerBytes hw, headerFlits_headerBytes hw⟩, cellOf_flitsOf hw⟩
  · have := cellFlits_pos c
    rw [flits, List.length_cons, count]; omega
  · rw [flits]
    exact List.forall_mem_cons.mpr ⟨length_headerBytes c, sizes⟩

end Sys2Proof.Machine
end

section
/-!
SUPPORT. The express decision on a checked cell from a line port: where it goes, and which fault discards it (O18).
-/
namespace Sys2Proof.Machine

/-! ## A cell towards another node (R139, R140) -/

section Transit
variable (h : Hub) (p : Nat) (c : Cell)

/-- Without a route a cell from a line port is counted at that port alone: this hub did not build it. -/
theorem Hub.noRoute_line (hp : p < 2) : h.noRoute p c = (h.bump P.SW_NOROUTE_DROP p).portEv p 13 1 := by
  have fromPort : decide (3 ≤ p) = false := decide_eq_false (by omega)
  simp only [Hub.noRoute, fromPort, Bool.false_and, Bool.false_eq_true, if_false]

variable (q : Nat)

theorem Hub.forwardTo_open (hr : h.canRoute p q c = true) (hh : 2 ≤ c.hops) :
    h.forwardTo p q c = h.enqueue p q { c with hops := c.hops - 1 } := by
  have hopsLeft : ¬ c.hops ≤ 1 := by omega
  simp only [Hub.forwardTo, hr, if_true, Hub.forward, hopsLeft, if_false]

theorem Hub.forwardTo_spent (hr : h.canRoute p q c = true) (hh : c.hops ≤ 1) :
    h.forwardTo p q c = (h.bump P.SW_HOPS_DROP p).portEv p 12 1 := by
  simp only [Hub.forwardTo, hr, if_true, Hub.forward, hh]

theorem Hub.forwardTo_closed (hp : p < 2) (hr : h.canRoute p q c = false) :
    h.forwardTo p q c = (h.bump P.SW_NOROUTE_DROP p).portEv p 13 1 := by
  simp only [Hub.forwardTo, hr, Bool.false_eq_true, if_false, Hub.noRoute_line h p c hp]

end Transit

/-! ## The decision by DEST_NODE (R119, R140) -/

section Decision
variable (h : Hub) (p : Nat) (c : Cell) (hid : h.idValid = true) (hp : p < 2) (hd : c.detour = false) (hf : c.dest ≠ 0xFFF)
include hid hp hd hf

theorem Hub.routeCell_single : h.routeCell p c = h.routeSingle p c := by
  have line : p ≠ 2 := by omega
  simp only [Hub.routeCell, hid, hd, line, hf, Bool.not_true, Bool.false_eq_true, if_false]

theorem Hub.routeCell_elsewhere (hn : c.dest ≠ h.ownId) : h.routeCell p c = h.forwardTo p (h.towards c.dest) c := by
  rw [Hub.routeCell_single h p c hid hp hd hf, Hub.routeSingle, if_neg hn]

theorem Hub.routeCell_here (hn : c.dest = h.ownId) : h.routeCell p c = h.deliverLocal p c := by
  rw [Hub.routeCell_single h p c hid hp hd hf, Hub.routeSingle, if_pos hn]

end Decision

/-! ## A cell for this node (R120, R143) -/

section Local
variable (h : Hub) (p : Nat) (c : Cell) (hk : c.kind ≠ 2) (hf : c.dest ≠ 0xFFF) (ht : h.tunnels = true) (hl : h.pget P.AG_LOCK 0 = 1)
include hk hf ht hl

/-- With no entry to receive it and no twin to cross to, a cell is discarded. -/
theorem Hub.deliverLocal_noEntry (hr : h.rxEntry c.tid = none) (hu : h.portUp 2 = false) : h.deliverLocal p c = h.bump P.TN_NO_TUNNEL 0 := by
  simp only [Hub.deliverLocal, hk, hf, ht, hl, hr, hu, Hub.discard, decide_true, Bool.and_self, Bool.and_false, Bool.false_and, if_true,
    Bool.false_eq_true, if_false]

variable {i : Nat} {e : TEntry} (hr : h.rxEntry c.tid = some (i, e))
include hr

/-- What the entry of its TID makes of a cell: the checks in the order of R120, then the output of the entry's type. -/
theorem Hub.deliverLocal_entry : h.deliverLocal p c =
    if e.peer ≠ 0xFFF && e.peer ≠ c.src then (h.bump P.TN_NO_TUNNEL 0).countDrops i 1
    else if c.kind ≠ 1 && c.kind ≠ dataKind e.type then (h.bump P.TN_KIND_ERR 0).countDrops i 1
    else if c.kind ≠ 1 && c.payload.length = 0 then (h.bump P.TN_FRAME_ERR 0).countDrops i 1
    else h.enqueue p (typeOutput e.type) c := by
  simp only [Hub.deliverLocal, hk, hf, ht, hl, hr, Hub.discard, decide_true, Bool.and_self, if_true, if_false]

theorem Hub.deliverLocal_otherSource (ha : e.peer ≠ 0xFFF) (hs : e.peer ≠ c.src) :
    h.deliverLocal p c = (h.bump P.TN_NO_TUNNEL 0).countDrops i 1 := by
  rw [Hub.deliverLocal_entry h p c hk hf ht hl hr, if_pos (by simp [ha, hs])]

variable (hs : e.peer = 0xFFF ∨ e.peer = c.src)
include hs

theorem Hub.deliverLocal_source : h.deliverLocal p c =
    if c.kind ≠ 1 && c.kind ≠ dataKind e.type then (h.bump P.TN_KIND_ERR 0).countDrops i 1
    else if c.kind ≠ 1 && c.payload.length = 0 then (h.bump P.TN_FRAME_ERR 0).countDrops i 1
    else h.enqueue p (typeOutput e.type) c := by
  rw [Hub.deliverLocal_entry h p c hk hf ht hl hr, if_neg (by simpa using or_iff_not_imp_left.mp hs)]

theorem Hub.deliverLocal_otherKind (hc : c.kind ≠ 1) (hd : c.kind ≠ dataKind e.type) :
    h.deliverLocal p c = (h.bump P.TN_KIND_ERR 0).countDrops i 1 := by
  rw [Hub.deliverLocal_source h p c hk hf ht hl hr hs, if_pos (by simp [hc, hd])]

theorem Hub.deliverLocal_empty (hc : c.kind ≠ 1) (hd : c.kind = dataKind e.type) (hn : c.payload = []) :
    h.deliverLocal p c = (h.bump P.TN_FRAME_ERR 0).countDrops i 1 := by
  rw [Hub.deliverLocal_source h p c hk hf ht hl hr hs, if_neg (by simp [hd]), if_pos (by simp [hc, hn])]

/-- A control cell, or a data cell of the entry's KIND that is not empty, enters the queue of the output of the entry's type. -/
theorem Hub.deliverLocal_enters (hg : c.kind = 1 ∨ (c.kind = dataKind e.type ∧ c.payload.length ≠ 0)) :
    h.deliverLocal p c = h.enqueue p (typeOutput e.type) c := by
  rw [Hub.deliverLocal_source h p c hk hf ht hl hr hs]
  rcases hg with hc | ⟨hd, hn⟩
  · rw [if_neg (by simp [hc]), if_neg (by simp [hc])]
  · rw [if_neg (by simp [hd]), if_neg (by simp [hn])]

end Local

/-! ## The command -/

theorem exec_lineCellRx (p : Nat) (c : Cell) (s : State) : exec (.lineCellRx p c) s = .next (s.after (s.hub.lineCell p c)) := rfl

/-- A cell of KIND 0 to 4 on a port that is UP arrives, counted, and the express decision routes it. -/
theorem Hub.lineCell_routes (h x : Hub) (p : Nat) (c : Cell) (hu : h.portUp p = true) (hk : c.kind < 5) (hx : x = (h.takeCell p c).countIn p c) :
    h.lineCell p c = x.arriving p c (fun g => g.routeCell p c) := by
  have known : decide (6 ≤ c.kind) = false := decide_eq_false (by omega)
  have noEpoch : c.kind ≠ 5 := by omega
  simp only [Hub.lineCell, hu, known, noEpoch, ← hx, Bool.not_true, Bool.or_self, Bool.false_eq_true, if_false]

section Command
variable (s : State) {x : Hub} {p : Nat} {c : Cell} (hu : s.hub.portUp p = true) (hp : p < 2) (hk : c.kind < 5) (hd : c.detour = false)
  (hx : x = (s.hub.takeCell p c).countIn p c) (hid : x.idValid = true) (hf : c.dest ≠ 0xFFF) (f : Hub → Hub)
include hu hp hk hd hx hid hf

/-- For another node, the command does what the line port towards it makes of the cell: that reads nothing of the switch, in which the arrival
is marked. -/
theorem exec_lineCellRx_elsewhere (hn : c.dest ≠ x.ownId)
    (hr : ∀ a : Switch, ({ x with sw := a } : Hub).forwardTo p (x.towards c.dest) c = f { x with sw := a }) :
    exec (.lineCellRx p c) s = .next (s.after (x.arriving p c f)) := by
  have routed : ∀ a : Switch, ({ x with sw := a } : Hub).routeCell p c = f { x with sw := a } := fun a =>
    (Hub.routeCell_elsewhere { x with sw := a } p c hid hp hd hf hn).trans (hr a)
  rw [exec_lineCellRx, Hub.lineCell_routes s.hub x p c hu hk hx, Hub.arriving_congr x p c _ f routed]

/-- For this node, it does what the tunnel table makes of the cell. -/
theorem exec_lineCellRx_here (hn : c.dest = x.ownId)
    (hr : ∀ a : Switch, ({ x with sw := a } : Hub).deliverLocal p c = f { x with sw := a }) :
    exec (.lineCellRx p c) s = .next (s.after (x.arriving p c f)) := by
  have routed : ∀ a : Switch, ({ x with sw := a } : Hub).routeCell p c = f { x with sw := a } := fun a =>
    (Hub.routeCell_here { x with sw := a } p c hid hp hd hf hn).trans (hr a)
  rw [exec_lineCellRx, Hub.lineCell_routes s.hub x p c hu hk hx, Hub.arriving_congr x p c _ f routed]

end Command

/-- Settles O18, each clause from the lemma on the outcome of the express decision that it speaks of. -/
theorem cellsAreRoutedAsTheHeaderSays : Obligations.CellsAreRoutedAsTheHeaderSays := by
  unfold Obligations.CellsAreRoutedAsTheHeaderSays
  refine ⟨?forwarded, ?hopsSpent, ?noRoute, ?enters, ?noEntry, ?otherSource, ?otherKind, ?empty, ?epoch, ?refused⟩
  case forwarded =>
    intro s p c x hu hp hk hd hf hx hid hn hr hh
    exact exec_lineCellRx_elsewhere s hu hp hk hd hx hid hf _ hn (fun a => Hub.forwardTo_open { x with sw := a } p c (x.towards c.dest) hr hh)
  case hopsSpent =>
    intro s p c x hu hp hk hd hf hx hid hn hr hh
    exact exec_lineCellRx_elsewhere s hu hp hk hd hx hid hf _ hn (fun a => Hub.forwardTo_spent { x with sw := a } p c (x.towards c.dest) hr hh)
  case noRoute =>
    intro s p c x hu hp hk hd hf hx hid hn hr
    exact exec_lineCellRx_elsewhere s hu hp hk hd hx hid hf _ hn (fun a => Hub.forwardTo_closed { x with sw := a } p c (x.towards c.dest) hp hr)
  case enters =>
    intro s p i c x e hu hp hk hk2 hd hx hid hn hf ht hl hr hs hg
    exact exec_lineCellRx_here s hu hp hk hd hx hid hf _ hn (fun a => Hub.deliverLocal_enters { x with sw := a } p c hk2 hf ht hl hr hs hg)
  case noEntry =>
    intro s p c x hu hp hk hk2 hd hx hid hn hf ht hl hr ht2
    exact exec_lineCellRx_here s hu hp hk hd hx hid hf _ hn (fun a => Hub.deliverLocal_noEntry { x with sw := a } p c hk2 hf ht hl hr ht2)
  case otherSource =>
    intro s p i c x e hu hp hk hk2 hd hx hid hn hf ht hl hr ha hs
    exact exec_lineCellRx_here s hu hp hk hd hx hid hf _ hn (fun a => Hub.deliverLocal_otherSource { x with sw := a } p c hk2 hf ht hl hr ha hs)
  case otherKind =>
    intro s p i c x e hu hp hk hk2 hd hx hid hn hf ht hl hr hs hc hkind
    exact exec_lineCellRx_here s hu hp hk hd hx hid hf _ hn (fun a => Hub.deliverLocal_otherKind { x with sw := a } p c hk2 hf ht hl hr hs hc hkind)
  case empty =>
    intro s p i c x e hu hp hk hk2 hd hx hid hn hf ht hl hr hs hc hkind hnil
    exact exec_lineCellRx_here s hu hp hk hd hx hid hf _ hn (fun a => Hub.deliverLocal_empty { x with sw := a } p c hk2 hf ht hl hr hs hc hkind hnil)
  case epoch =>
    intro s p c hu hk
    rw [exec_lineCellRx, Hub.lineCell_epoch s.hub _ p c hu hk rfl]
  case refused =>
    intro h p pid i c hi hp hc hr
    exact Hub.arriving_refused h p c _ hi hp hc hr (fun _ => rfl)

end Sys2Proof.Machine
end

section
/-!
SUPPORT. The tunnel layer's receive side: the head of a delivery queue taken, a cell met by its receive context, and what the timers give up
(O19).
-/
namespace Sys2Proof.Machine

/-! ## The head of a delivery queue (R120, R147, R153) -/

/-- An empty delivery queue has nothing to take. -/
theorem Hub.takeTurn_empty (h : Hub) (o cls : Nat) (hq : h.dlv o cls = []) : h.takeTurn o cls = h := by
  have nothing : h.tunnelTake o cls = h := by simp only [Hub.tunnelTake, hq]
  simp only [Hub.takeTurn, nothing, ite_self]

/-- An output whose Seam does not refuse lets the tunnel layer take its head, unless that would deliver a frame for which there is no room. -/
theorem Hub.takeTurn_takes (h g : Hub) (o cls : Nat) (hi : o < 4 ∨ (h.island (outIsland o)).inReset = false) (hg : h.tunnelTake o cls = g) :
    h.takeTurn o cls = if (g.inbox.drop h.inbox.length).any (fun f => g.overfull f.1 f.2) then h else g := by
  have runs : (decide (4 ≤ o) && (h.island (outIsland o)).inReset) = false := by
    rcases hi with hi | hi
    · simp [Nat.not_le.mpr hi]
    · simp [hi]
  simp only [Hub.takeTurn, runs, hg, Bool.false_eq_true, if_false]

/-- Where nothing new is delivered, what was taken stays taken. -/
theorem Hub.takeTurn_quiet (h g : Hub) (o cls : Nat) (hi : o < 4 ∨ (h.island (outIsland o)).inReset = false) (hg : h.tunnelTake o cls = g)
    (hn : g.inbox = h.inbox) : h.takeTurn o cls = g := by
  have delivered : g.inbox.drop h.inbox.length = [] := by rw [hn, List.drop_length]
  rw [Hub.takeTurn_takes h g o cls hi hg, delivered]
  rfl

/-- Below the reassembly limit, with the level open and no head before it, nothing holds a head back. -/
theorem Hub.head_free (h : Hub) (o cls : Nat) (q : QCell) (hroom : 16 * ([0, 1, 2, 3].map h.reasm).sum < h.pget P.SW_REASM_LIMIT 0)
    (hlevel : h.levelOpen o q.cell = true) (hfirst : h.earlierHead o cls = false) :
    (decide (h.pget P.SW_REASM_LIMIT 0 ≤ 16 * ([0, 1, 2, 3].map h.reasm).sum) || !h.levelOpen o q.cell || h.earlierHead o cls) = false := by
  rw [decide_eq_false (Nat.not_le.mpr hroom), hlevel, hfirst]
  rfl

section Take
variable (h : Hub) (o cls : Nat) (q : QCell) (l : List QCell) (hq : h.dlv o cls = q :: l)
  (hroom : 16 * ([0, 1, 2, 3].map h.reasm).sum < h.pget P.SW_REASM_LIMIT 0) (hlevel : h.levelOpen o q.cell = true)
  (hfirst : h.earlierHead o cls = false) (ht : (h.setDlv o cls l).tunnels = true) (hk : q.cell.kind ≠ 2) (hd : q.cell.dest ≠ 0xFFF)
include hq hroom hlevel hfirst ht hk hd

/-- A head that nothing holds back leaves its queue for the entry that receives its TID. -/
theorem Hub.tunnelTake_received {i : Nat} {e : TEntry} (hr : (h.setDlv o cls l).rxEntry q.cell.tid = some (i, e)) :
    h.tunnelTake o cls = (h.setDlv o cls l).receive i e q.cell := by
  have free := Hub.head_free h o cls q hroom hlevel hfirst
  simp only [Hub.tunnelTake, hq, free, hd, hk, ht, hr, Bool.false_eq_true, if_false]

theorem Hub.tunnelTake_noTunnel (hr : (h.setDlv o cls l).rxEntry q.cell.tid = none) :
    h.tunnelTake o cls = (h.setDlv o cls l).bump P.TN_NO_TUNNEL 0 := by
  have free := Hub.head_free h o cls q hroom hlevel hfirst
  simp only [Hub.tunnelTake, hq, free, hd, hk, ht, hr, Bool.false_eq_true, if_false]

end Take

/-! ## A cell and its receive context (R121, R122, R130) -/

/-- An entry that is valid for receiving meets the cell. -/
theorem Hub.receiveAt_entry (h : Hub) (i : Nat) (c : Cell) (ht : h.tunnels = true) (hv : (h.tun i).valid = true)
    (hr : (h.tun i).dir.receives = true) : h.receiveAt i c = h.receive i (h.tun i) c := by
  simp only [Hub.receiveAt, ht, hv, hr, Bool.and_self, if_true]

section Receive
variable (h : Hub) (i : Nat) (e : TEntry) (c : Cell) (x : Ctx) (hx : h.ctx i c.src = some x)
include hx

theorem Hub.takeCtx_known : h.takeCtx i c.src e = (h, some x) := by simp only [Hub.takeCtx, hx]

/-- A RESYNC with a tag that is neither of the last two starts the context anew (R130). -/
theorem Hub.receive_resync (hr : isResync c = true) (hn : be c.payload 4 4 ≠ x.tag) (hp : be c.payload 4 4 ≠ x.prevTag) :
    h.receive i e c = (h.putCtx { x with lastUse := h.clk.up }).takeResync { x with lastUse := h.clk.up } (be c.payload 4 4) c := by
  simp only [Hub.receive, Hub.takeCtx_known h i e c x hx, hr, hn, hp, ne_eq, not_false_eq_true, decide_true, Bool.and_self, if_true]

/-- The next cell in sequence of an unprotected entry moves H and the window by one and is accepted. -/
theorem Hub.receive_inSequence (he : e.prot = false) (hr : isResync c = false) (hb : x.based = true) (hd : seqDist c.seq x.high = 1) :
    h.receive i e c = (h.putCtx { x with lastUse := h.clk.up }).accept
      { x with lastUse := h.clk.up, high := c.seq, window := x.window <<< 1 ||| 1#1024 } e c := by
  simp only [Hub.receive, Hub.takeCtx_known h i e c x hx, he, hr, hb, hd, Bool.false_and, Bool.not_true, Bool.false_eq_true, if_false]
  rfl

end Receive

/-! ## Timers (R123, R126, R162) -/

theorem Hub.gapExpire_gap (h : Hub) (i src : Nat) (x : Ctx) (g : Nat × Nat × Nat) (l : List (Nat × Nat × Nat)) (hx : h.ctx i src = some x)
    (hg : x.gaps = g :: l) (y : Hub) (hy : y = h.until (g.2.2 + us (h.pget P.TN_GAP_WAIT 0))) :
    h.gapExpire i src = (Hub.advanceD (2 * x.held.length + x.gaps.length + 4) x (y.tun i) y).1.putCtx
      (Hub.advanceD (2 * x.held.length + x.gaps.length + 4) x (y.tun i) y).2 := by
  subst hy
  simp only [Hub.gapExpire, hx, hg]

/-- An open frame whose time has passed is dropped, and the rest of it will be discarded. -/
theorem Hub.reasmTimeout_open (h : Hub) (i src : Nat) (x : Ctx) (f : OpenFrame) (hx : h.ctx i src = some x) (hf : x.frame = some f) :
    h.reasmTimeout i src = (((h.until (f.since + us (h.pget P.TN_REASM_TIMEOUT 0))).bump P.TN_TIMEOUT_DROP 0).countDrops x.entry f.cells).putCtx
      { x with frame := none, discard := true } := by
  simp only [Hub.reasmTimeout, hx, hf, Hub.dropFrame]

theorem Hub.discardExpire_oldest (h x : Hub) (buf : Nat) (k : DiscardKey) (l : List DiscardKey) (hk : nth h.sw.discard buf [] = k :: l)
    (hx : x = h.until (k.at_ + us (h.pget P.TN_REASM_TIMEOUT 0))) :
    h.discardExpire buf = { x with sw := { x.sw with discard := modAt x.sw.discard buf (fun t => t.drop 1) } } := by
  subst hx
  simp only [Hub.discardExpire, hk]

/-! ## The commands -/

theorem exec_tunnelCellRx (o cls : Nat) (s : State) : exec (.tunnelCellRx o cls) s = .next (s.after (s.hub.takeTurn o cls)) := rfl

theorem exec_resyncRx (i : Nat) (c : Cell) (s : State) : exec (.resyncRx i c) s = .next (s.after (s.hub.receiveAt i c)) := rfl

theorem exec_tunnelControlRx (i : Nat) (c : Cell) (s : State) : exec (.tunnelControlRx i c) s = .next (s.after (s.hub.receiveAt i c)) := rfl

theorem exec_gapWaitExpire (i src : Nat) (s : State) : exec (.gapWaitExpire i src) s = .next (s.after (s.hub.gapExpire i src)) := rfl

theorem exec_reasmTimeout (i src : Nat) (s : State) : exec (.reasmTimeout i src) s = .next (s.after (s.hub.reasmTimeout i src)) := rfl

theorem exec_discardEntryExpire (buf : Nat) (s : State) : exec (.discardEntryExpire buf) s = .next (s.after (s.hub.discardExpire buf)) := rfl

/-- Settles O19, each clause from the lemma on the receive step or the timer it speaks of. -/
theorem tunnelsReceiveInOrder : Obligations.TunnelsReceiveInOrder := by
  unfold Obligations.TunnelsReceiveInOrder
  refine ⟨?received, ?noTunnel, ?empty, ?resync, ?inSequence, ?gap, ?reassembly, ?discard⟩
  case received =>
    rintro s o cls i q l e x hq hroom hlevel hfirst hi ht hk hd hr rfl
    have taken := Hub.tunnelTake_received s.hub o cls q l hq hroom hlevel hfirst ht hk hd hr
    rw [exec_tunnelCellRx, Hub.takeTurn_takes s.hub _ o cls hi taken]
  case noTunnel =>
    intro s o cls q l hq hroom hlevel hfirst hi ht hk hd hr
    have taken := Hub.tunnelTake_noTunnel s.hub o cls q l hq hroom hlevel hfirst ht hk hd hr
    rw [exec_tunnelCellRx, Hub.takeTurn_quiet s.hub _ o cls hi taken rfl]
  case empty =>
    intro s o cls hq
    rw [exec_tunnelCellRx, Hub.takeTurn_empty s.hub o cls hq]
  case resync =>
    intro s i c x ht hv hr hx hresync hn hp
    rw [exec_resyncRx, Hub.receiveAt_entry s.hub i c ht hv hr, Hub.receive_resync s.hub i _ c x hx hresync hn hp]
    rfl
  case inSequence =>
    intro s i c x ht hv hr he hx hresync hb hd
    have accepted := (Hub.receiveAt_entry s.hub i c ht hv hr).trans (Hub.receive_inSequence s.hub i _ c x hx he hresync hb hd)
    exact ⟨by rw [exec_tunnelControlRx, accepted], by rw [exec_resyncRx, accepted]⟩
  case gap =>
    intro s i src x g l y hx hg hy
    rw [exec_gapWaitExpire, Hub.gapExpire_gap s.hub i src x g l hx hg y hy]
  case reassembly =>
    intro s i src x f hx hf
    rw [exec_reasmTimeout, Hub.reasmTimeout_open s.hub i src x f hx hf]
  case discard =>
    intro s buf k l x hk hx
    rw [exec_discardEntryExpire, Hub.discardExpire_oldest s.hub x buf k l hk hx]

end Sys2Proof.Machine
end

section
/-!
SUPPORT. A frame offered to a tunnel entry: what refuses it, what drops it, what holds it and how it leaves (O20).
-/
namespace Sys2Proof.Machine

/-! ## Frames the entry does not send (R118, R141) -/

/-- A frame that the entry cannot send, or none at all, changes nothing. -/
theorem Hub.frameSend_refused (h : Hub) (o i n : Nat) (bs : List Byte)
    (hr : (h.tun i).valid = false ∨ (h.tun i).dir.sends = false ∨ h.tunnels = false ∨ bs = [] ∨ (h.tun i).limit < bs.length) :
    h.frameSend o i false bs n = h := by
  have refused : (!((h.tun i).valid && (h.tun i).dir.sends && h.tunnels) || bs.isEmpty || decide ((h.tun i).limit < bs.length)) = true := by
    rcases hr with hv | hs | ht | rfl | hl
    · simp [hv]
    · simp [hs]
    · simp [ht]
    · simp
    · simp [hl]
  simp only [Hub.frameSend, Bool.not_false, Bool.true_and, refused, if_true]

/-! ## Sending (R118, R131, R153) -/

/-- A frame in the clear that the buffer has room for leaves whole, behind the RESYNC that its entry owes. -/
theorem Hub.trySend_clear (h y : Hub) (w : WaitFrame) (e : TEntry) (he : e.enc = false) (hc : w.control = false)
    (hm : h.makeRoom 3 e.cls (h.needFlits w.entry e false w.bytes.length) = (y, true)) :
    h.trySend w e =
      ((((if (y.txState w.entry).resync then y.sendResync w.out w.entry e else y).emitPieces w.out w.entry e (dataKind e.type)
        (cutFrame 70 w.bytes)).count w.entry (fun k => { k with bytes := satAdd 48 k.bytes w.counted })).shaperPay w.entry e w.counted,
        .sent) := by
  simp only [Hub.trySend, he, hc, hm, pieces, Bool.false_and, Bool.not_false, Bool.not_true, Bool.false_eq_true, if_false, if_true]

/-- A frame for others than the hub itself is not dropped for its destination (R141). -/
theorem Hub.frameSend_others (h : Hub) (i : Nat) (ho : (h.tun i).mcast = true ∨ (h.tun i).peer ≠ h.ownId) :
    (!(h.tun i).mcast && decide ((h.tun i).peer = h.ownId)) = false := by
  rcases ho with hm | hp
  · simp [hm]
  · simp [hp]

section Offer
variable (h : Hub) (o i n : Nat) (bs : List Byte) (hv : (h.tun i).valid = true) (hs : (h.tun i).dir.sends = true) (ht : h.tunnels = true)
  (hb : bs ≠ []) (hl : bs.length ≤ (h.tun i).limit)
include hv hs ht hb hl

/-- No refusal meets a frame that the entry can send, within its limit. -/
theorem Hub.frameSend_allowed :
    (!((h.tun i).valid && (h.tun i).dir.sends && h.tunnels) || bs.isEmpty || decide ((h.tun i).limit < bs.length)) = false := by
  simp [hv, hs, ht, hb, hl]

/-- A frame to the hub itself is dropped whole (R141). -/
theorem Hub.frameSend_toSelf (hm : (h.tun i).mcast = false) (hp : (h.tun i).peer = h.ownId) :
    h.frameSend o i false bs n =
      (h.countDrops i (cellsOf (h.tun i) false bs.length)).bumpBy P.SW_NOROUTE_DROP o (cellsOf (h.tun i) false bs.length) := by
  simp only [Hub.frameSend, Hub.frameSend_allowed h i bs hv hs ht hb hl, hm, hp, decide_true, Bool.not_false, Bool.true_and,
    Bool.false_eq_true, if_false, if_true]

variable (ho : (h.tun i).mcast = true ∨ (h.tun i).peer ≠ h.ownId)
include ho

/-- A frame that the policer refuses is dropped (R178). -/
theorem Hub.frameSend_overRate (hp : (h.police i (h.tun i) n).2 = false) : h.frameSend o i false bs n =
    ((h.police i (h.tun i) n).1.bump P.AL_POLICE_DROP 0).countDrops i (cellsOf (h.tun i) false bs.length) := by
  have allowed := Hub.frameSend_allowed h i bs hv hs ht hb hl
  have others := Hub.frameSend_others h i ho
  simp only [Hub.frameSend, Bool.not_false, Bool.true_and, allowed, others, hp, Bool.false_eq_true, if_false, if_true]

variable {x : Hub} (hp : h.police i (h.tun i) n = (x, true))
include hp

/-- A frame behind an earlier one of its entry, or whose shaper is shut, waits (R153, R180). -/
theorem Hub.frameSend_waits (hw : x.tn.waiting.any (fun w => w.entry == i) = true ∨ x.shaperOpen i (h.tun i) = false) :
    h.frameSend o i false bs n = { x with tn := { x.tn with waiting := x.tn.waiting ++ [⟨o, i, false, bs, n, true⟩] } } := by
  have allowed := Hub.frameSend_allowed h i bs hv hs ht hb hl
  have others := Hub.frameSend_others h i ho
  have held : (x.tn.waiting.any (fun w => w.entry == i) || !x.shaperOpen i (h.tun i)) = true := by
    rcases hw with hw | hw
    · simp [hw]
    · simp [hw]
  simp only [Hub.frameSend, Bool.not_false, Bool.true_and, allowed, others, hp, held, Bool.not_true, Bool.false_eq_true, if_false, if_true]

/-- A frame that nothing holds and the buffer has room for is sent. -/
theorem Hub.frameSend_sent (hw : x.tn.waiting.any (fun w => w.entry == i) = false) (hopen : x.shaperOpen i (h.tun i) = true) {g : Hub}
    (hg : x.trySend ⟨o, i, false, bs, n, true⟩ (h.tun i) = (g, .sent)) : h.frameSend o i false bs n = g := by
  have allowed := Hub.frameSend_allowed h i bs hv hs ht hb hl
  have others := Hub.frameSend_others h i ho
  simp only [Hub.frameSend, Bool.not_false, Bool.true_and, allowed, others, hp, hw, hopen, hg, Bool.not_true, Bool.or_self,
    Bool.false_eq_true, if_false]

end Offer

/-! ## The instant a shaper opens (R180) -/

/-- The clock reaches the instant at which the entry's bucket lacks less than its burst. -/
theorem Hub.shaperDue_opens (h : Hub) (i : Nat) (ho : h.shaperOpen i (h.tun i) = false) (hr : (rateOf (h.tget 0x22 i)).2.1 ≠ 0) :
    h.shaperDue i = h.advance (((mget ⟨0, 0⟩ h.tn.shape i).lackNow (rateOf (h.tget 0x22 i)).2.1 h.clk.up -
      (rateOf (h.tget 0x22 i)).2.2 * bucketUnit) / (rateOf (h.tget 0x22 i)).2.1 + 1) := by
  simp only [Hub.shaperDue, ho, hr, Bool.false_eq_true, if_false]

/-! ## The commands -/

theorem exec_frameSend (o i n : Nat) (bs : List Byte) (s : State) :
    exec (.frameSend o i bs n) s = .next (s.after (s.hub.frameSend o i false bs n)) := rfl

theorem exec_shaperRelease (i : Nat) (s : State) : exec (.shaperRelease i) s = .next (s.after (s.hub.shaperDue i)) := rfl

/-- Settles O20, each clause from the lemma on what becomes of the frame it speaks of. -/
theorem framesLeaveThroughTheirTunnel : Obligations.FramesLeaveThroughTheirTunnel := by
  unfold Obligations.FramesLeaveThroughTheirTunnel
  refine ⟨?refused, ?toSelf, ?overRate, ?waits, ?sent, ?shaper⟩
  case refused =>
    intro s o i n bs hr
    rw [exec_frameSend, Hub.frameSend_refused s.hub o i n bs hr]
  case toSelf =>
    intro s o i n bs hv hs ht hb hl hm hp
    rw [exec_frameSend, Hub.frameSend_toSelf s.hub o i n bs hv hs ht hb hl hm hp]
  case overRate =>
    intro s o i n bs hv hs ht hb hl ho hp
    rw [exec_frameSend, Hub.frameSend_overRate s.hub o i n bs hv hs ht hb hl ho hp]
  case waits =>
    intro s o i n bs x hv hs ht hb hl ho hp hw
    rw [exec_frameSend, Hub.frameSend_waits s.hub o i n bs hv hs ht hb hl ho hp hw]
  case sent =>
    intro s o i n bs x y hv hs ht hb hl ho he hp hw hopen hm
    have leaves := Hub.trySend_clear x y ⟨o, i, false, bs, n, true⟩ (s.hub.tun i) he rfl hm
    rw [exec_frameSend, Hub.frameSend_sent s.hub o i n bs hv hs ht hb hl ho hp hw hopen leaves]
  case shaper =>
    intro s i ho hr
    rw [exec_shaperRelease, Hub.shaperDue_opens s.hub i ho hr]

end Sys2Proof.Machine
end

section
/-!
SUPPORT. Credit at a line port: the messages that carry it, and the cells a pool has no room for (O23, O24).
-/
namespace Sys2Proof.Machine

/-! ## Credit held and credit heard (R158) -/

/-- A class's credit after a message with CREDIT_LIMIT l: a newer limit replaces the one held, an older one changes nothing (R158). -/
def Credit.heard (c : Credit) (l : Nat) : Credit :=
  if (l + 2 ^ 32 - c.limit) % 2 ^ 32 < 2 ^ 31 then { c with limit := l, told := c.told && l = c.limit } else c

theorem Credit.heard_newer (c : Credit) (l : Nat) (h : (l + 2 ^ 32 - c.limit) % 2 ^ 32 < 2 ^ 31) : (c.heard l).limit = l := by
  rw [Credit.heard, if_pos h]

theorem Credit.heard_older (c : Credit) (l : Nat) (h : 2 ^ 31 ≤ (l + 2 ^ 32 - c.limit) % 2 ^ 32) : c.heard l = c := by
  rw [Credit.heard, if_neg (Nat.not_lt.mpr h)]

/-- A class's credit read after it was changed. -/
theorem Port.credit_modCredit (q : Port) (cls : Nat) (f : Credit → Credit) : (q.modCredit cls f).credit cls = f (q.credit cls) := by
  by_cases h : cls = 2
  · simp only [Port.modCredit, Port.credit, h, if_true]
  · simp only [Port.modCredit, Port.credit, h, if_false]

/-- A class's credit at a port of the hub, read after it was changed there. -/
theorem Hub.credit_modPort (h : Hub) (p cls : Nat) (f : Credit → Credit) (hp : p < h.ports.length) :
    ((h.modPort p (fun q => q.modCredit cls f)).port p).credit cls = f ((h.port p).credit cls) := by
  rw [Hub.port_modPort_same h p _ hp, Port.credit_modCredit]

/-- A change that leaves the credit as it is leaves it so at every port, one that is not there included. -/
theorem Hub.credit_modPort_fix (h : Hub) (p cls : Nat) (f : Credit → Credit) (hf : f ((h.port p).credit cls) = (h.port p).credit cls) :
    ((h.modPort p (fun q => q.modCredit cls f)).port p).credit cls = (h.port p).credit cls := by
  by_cases hp : p < h.ports.length
  · rw [Hub.credit_modPort h p cls f hp, hf]
  · rw [Hub.modPort_big h p _ (Nat.le_of_not_lt hp)]

/-- On a port that is UP a credit message is taken, counted and heard (R158). -/
theorem Hub.creditRx_up (h : Hub) (p cls l : Nat) (hu : h.portUp p = true) (hc : cls = 2 ∨ cls = 3) (hl : l < 2 ^ 32) :
    h.creditRx p cls l = ((h.takeLocal p (0x10 + cls)).portEv p 16 1).modPort p (fun q => q.modCredit cls (fun c => c.heard l)) := by
  have credited : (decide (cls = 2) || decide (cls = 3)) = true := by simpa using hc
  simp only [Hub.creditRx, hu, credited, Nat.mod_eq_of_lt hl, Credit.heard, Bool.and_self, Bool.not_true, Bool.false_eq_true, if_false]

theorem exec_creditRx (p cls l : Nat) (s : State) : exec (.creditRx p cls l) s = .next (s.after (s.hub.creditRx p cls l)) := rfl

/-- A cell of n flits has credit by R158's test. -/
theorem Credit.covers_iff (c : Credit) (n : Nat) : c.covers n = true ↔ n ≤ c.avail ∧ c.avail < 2 ^ 31 := by
  rw [Credit.covers, Bool.and_eq_true, decide_eq_true_iff, decide_eq_true_iff]

/-- Settles O23: the credit test is that of the credit held, and what a message leaves as the limit is that of the credit heard. -/
theorem creditIsTheDistanceToTheLimit : Obligations.CreditIsTheDistanceToTheLimit := by
  unfold Obligations.CreditIsTheDistanceToTheLimit
  refine ⟨Credit.covers_iff, ?_⟩
  rintro s p cls l x hu hc hl rfl
  refine ⟨_, by rw [exec_creditRx, Hub.creditRx_up s.hub p cls l hu hc hl], ?newer, ?older⟩
  case newer =>
    intro newer hp
    rw [Hub.credit_modPort _ p cls _ hp, Credit.heard_newer _ l newer]
  case older =>
    intro older
    rw [Hub.credit_modPort_fix _ p cls (fun c => c.heard l) (Credit.heard_older _ l older)]

/-! ## Cells beyond the credit (R159) -/

/-- The Drops of a TID lie outside the switch core. -/
@[simp] theorem Hub.countTidDrops_sw (h : Hub) (tid n : Nat) : (h.countTidDrops tid n).sw = h.sw := by
  unfold Hub.countTidDrops
  split
  · rfl
  · rfl

/-- They are counted alike whatever the switch core holds. -/
theorem Hub.countTidDrops_withSw (h : Hub) (a : Switch) (tid n : Nat) :
    ({ h with sw := a } : Hub).countTidDrops tid n = { h.countTidDrops tid n with sw := a } := by
  have tuns : ({ h with sw := a } : Hub).tuns = h.tuns := rfl
  unfold Hub.countTidDrops
  rw [tuns]
  split
  · rfl
  · rfl

/-- The switch core while the next cell to arrive is being routed, `ok` what is decided about its place in the buffer. -/
def Switch.routing (w : Switch) (ok : Option Bool) : Switch := { w with nextRef := w.nextRef + 1, arrival := some ⟨w.nextRef, ok⟩ }

/-- Of a cell that was not taken in while it was routed no space comes free, and the arrival is over (R156, R159). -/
theorem Hub.arriving_notTaken (h g : Hub) (p : Nat) (c : Cell) (f : Hub → Hub) (hi : (h.island 3).inReset = false)
    (hf : f { h with sw := h.sw.routing none } = { g with sw := h.sw.routing (some false) }) :
    h.arriving p c f = { g with sw := { h.sw with nextRef := h.sw.nextRef + 1, arrival := none } } := by
  simp only [Switch.routing] at hf
  simp only [Hub.arriving, hi, hf, Bool.false_eq_true, if_false]
  rfl

section OverPool
variable (h : Hub) (p o : Nat) (c : Cell) (hp : p < 3) (hc : 2 ≤ c.cls) (hfull : h.pool p c.cls < h.occ p c.cls + cellFlits c)
include hp hc hfull

/-- A cell that its pool has no room for is not taken in: it is counted at its port and among its TID's Drops. -/
theorem Hub.takeIn_overPool : h.takeIn p c = ((h.bump P.SW_CREDIT_VIOL p).countTidDrops c.tid 1, false) := by
  simp only [Hub.takeIn, hp, Hub.admitLine, hc, hfull, if_true]

/-- Where nothing is decided about its arrival yet, it enters no queue, and no further copy of it will. -/
theorem Hub.enqueue_overPool (ha : h.sw.arrival.bind (fun a => a.ok) = none) :
    h.enqueue p o c = { (h.bump P.SW_CREDIT_VIOL p).countTidDrops c.tid 1 with
      sw := { h.sw with arrival := h.sw.arrival.map (fun a => { a with ok := some false }) } } := by
  have coreKept : ((h.bump P.SW_CREDIT_VIOL p).countTidDrops c.tid 1).sw = h.sw := Hub.countTidDrops_sw _ _ _
  simp only [Hub.enqueue, ha, Hub.takeIn_overPool h p c hp hc hfull, coreKept, Bool.false_eq_true, if_false]

/-- A cell that arrives and is to enter a queue then leaves the switch core as it was, but for the number of arrivals. -/
theorem Hub.arriving_overPool (hi : (h.island 3).inReset = false) (b : Cell) :
    h.arriving p b (fun g => g.enqueue p o c) = { (h.bump P.SW_CREDIT_VIOL p).countTidDrops c.tid 1 with
      sw := { h.sw with nextRef := h.sw.nextRef + 1, arrival := none } } := by
  have refused := Hub.enqueue_overPool { h with sw := h.sw.routing none } p o c hp hc hfull rfl
  have counted := Hub.countTidDrops_withSw (h.bump P.SW_CREDIT_VIOL p) (h.sw.routing none) c.tid 1
  exact Hub.arriving_notTaken h _ p b _ hi (refused.trans (congrArg (fun g : Hub => { g with sw := h.sw.routing (some false) }) counted))

end OverPool

/-- Settles O24: the cell is refused at its first copy, and of a refused cell no space comes free. -/
theorem cellsWithoutCreditAreDropped : Obligations.CellsWithoutCreditAreDropped := by
  unfold Obligations.CellsWithoutCreditAreDropped
  refine ⟨?enqueued, ?received⟩
  case enqueued =>
    intro h p o c hp hc ha hfull
    exact Hub.enqueue_overPool h p o c hp hc hfull ha
  case received =>
    intro s p c x hp hu hk hd hf hx hid hn hr hh hi hc hfull
    have routed := exec_lineCellRx_elsewhere s hu hp hk hd hx hid hf (fun g => g.enqueue p (x.towards c.dest) { c with hops := c.hops - 1 })
      hn (fun a => Hub.forwardTo_open { x with sw := a } p c (x.towards c.dest) hr hh)
    rw [routed, Hub.arriving_overPool x p (x.towards c.dest) { c with hops := c.hops - 1 } (by omega) hc hfull hi c]

end Sys2Proof.Machine
end

section
/-!
SUPPORT. The cell boundary of an output, and the credit messages and stalls of a line port (O21).
-/
namespace Sys2Proof.Machine

/-! ## An output's cell boundary (R148, R172) -/

section Output
variable (h : Hub) (o : Nat)

/-- An output that is not open sends nothing. -/
theorem Hub.sendOne_shut (hs : h.outOpen o = false) : h.sendOne o = (h, false) := by
  simp only [Hub.sendOne, hs, Bool.not_false, if_true]

/-- A line or twin output whose port is not UP is not open. -/
theorem Hub.outOpen_down (ho : o < 3) (hu : h.portUp o = false) : h.outOpen o = false := by
  have line : decide (3 ≤ o) = false := decide_eq_false (by omega)
  simp only [Hub.outOpen, line, hu, Bool.or_self, Bool.and_false]

theorem Hub.outOpen_inReset (hi : (h.island 3).inReset = true) : h.outOpen o = false := by
  simp only [Hub.outOpen, hi, Bool.not_true, Bool.false_and]

variable (hi : (h.island 3).inReset = false)
include hi

theorem Hub.outOpen_up (hu : h.portUp o = true) : h.outOpen o = true := by
  simp only [Hub.outOpen, hi, hu, Bool.not_false, Bool.or_true, Bool.and_self]

theorem Hub.outOpen_local (ho : 3 ≤ o) : h.outOpen o = true := by
  simp only [Hub.outOpen, hi, ho, decide_true, Bool.not_false, Bool.true_or, Bool.and_self]

/-- A line output whose replay memory is full sends a stall block (R99). -/
theorem Hub.sendOne_stalls (ho : o < 3) (hu : h.portUp o = true) (hf : h.darnFull o = true) :
    h.sendOne o = ((h.bump P.LN_DARN_STALL o).unnumbered o [], false) := by
  have opened := Hub.outOpen_up h o hi hu
  simp only [Hub.sendOne, opened, ho, hf, decide_true, Bool.not_true, Bool.and_self, Bool.false_eq_true, if_false, if_true]

variable (ho : 3 ≤ o)
include ho

/-- A local output with nothing to send goes idle. -/
theorem Hub.sendOne_idles (hc : (h.cleanHeads o).choose o = none) :
    h.sendOne o = ((h.cleanHeads o).modOut o (fun p => { p with busy := false, drr := ⟨[], false⟩ }), false) := by
  have opened := Hub.outOpen_local h o hi ho
  have notLine : ¬ o < 3 := by omega
  simp only [Hub.sendOne, opened, notLine, hc, decide_false, Bool.not_true, Bool.false_and, Bool.false_eq_true, if_false]

/-- At a local output the scheduler's choice leaves its queue, is charged and goes out, its space coming free (R156, R172). -/
theorem Hub.sendOne_sends (q i : Nat) (qc : QCell) (k : Choice) (x : Hub) (hx : x = h.cleanHeads o) (hk : x.choose o = some k)
    (hq : k.cand = (q, i, qc)) (ha : k.alt = false) :
    h.sendOne o = ((((((x.setVoq i q qc.cell.cls ((x.voq i q qc.cell.cls).drop 1)).charge o k.step qc.cell).modOut o (fun p => { p with
      busy := true, lastInp := i, drr := k.drr })).refreshOut o).freed i qc).emit o q i qc, true) := by
  have opened := Hub.outOpen_local h o hi ho
  have notLine : ¬ o < 3 := by omega
  simp only [Hub.sendOne, opened, notLine, ← hx, hk, hq, ha, decide_false, Bool.not_true, Bool.false_and, Bool.false_eq_true, if_false]

end Output

/-! ## Credit messages and stalls (R155, R156, R160) -/

/-- On a port that is UP credit goes out for both classes. -/
theorem Hub.creditTx_up (h : Hub) (p : Nat) (hu : h.portUp p = true) : h.creditTx p = (h.creditSend p 2).creditSend p 3 := by
  simp only [Hub.creditTx, hu, Bool.not_true, Bool.false_eq_true, if_false, List.foldl_cons, List.foldl_nil]

/-- The message shows G_c + F_c, and what it shows is noted. -/
theorem Hub.creditSend_eq (h : Hub) (p k : Nat) : h.creditSend p k =
    ((h.sendLinkLocal p ([byte (0x10 + k), 0#8, 0#8, 0#8] ++ beBytes 4 (((h.port p).credit k).newLimit))).portEv p 15 1).modPort p
      (fun q => q.modCredit k (fun c => { c with shown := c.freed })) := rfl

/-- Of the heads that wait for credit the one that has waited longest is told, once, when SW_CREDIT_STALL has passed for it. -/
theorem Hub.creditStall_tells (h x : Hub) (p cls : Nat) (c b : Nat × Nat) (l : List (Nat × Nat)) (hu : h.portUp p = true)
    (ht : ((h.port p).credit cls).told = false) (hw : h.creditHeads p cls = c :: l)
    (hb : b = l.foldl (fun b w => if w.1 < b.1 then w else b) c) (hx : x = h.until (b.1 + ms (h.pget P.SW_CREDIT_STALL 0))) :
    h.creditStall p cls = (x.modPort p (fun q => q.modCredit cls (fun c => { c with told := true }))).event .creditStall
      [(0, 1, p), (1, 1, cls), (2, 8, b.2)] := by
  subst hb hx
  simp only [Hub.creditStall, hw, hu, ht, Bool.not_true, Bool.or_self, Bool.false_eq_true, if_false]

/-! ## The commands -/

theorem exec_outputCellSend (o : Nat) (s : State) : exec (.outputCellSend o) s = .next (s.after (s.hub.sendOne o).1) := rfl

theorem exec_creditTx (p : Nat) (s : State) : exec (.creditTx p) s = .next (s.after (s.hub.creditTx p)) := rfl

theorem exec_creditStall (p cls : Nat) (s : State) : exec (.creditStall p cls) s = .next (s.after (s.hub.creditStall p cls)) := rfl

/-- Settles O21, each clause from the lemma on the cell boundary, the message or the stall it speaks of. -/
theorem outputsSendAndCreditFlows : Obligations.OutputsSendAndCreditFlows := by
  unfold Obligations.OutputsSendAndCreditFlows
  refine ⟨?down, ?stalls, ?idles, ?sends, ?inReset, ?creditTx, ?creditSend, ?creditRx, ?creditStall⟩
  case down =>
    intro s o ho hu
    rw [exec_outputCellSend, Hub.sendOne_shut s.hub o (Hub.outOpen_down s.hub o ho hu)]
  case stalls =>
    intro s o ho hu hf hi
    rw [exec_outputCellSend, Hub.sendOne_stalls s.hub o hi ho hu hf]
  case idles =>
    intro s o ho hc hi
    rw [exec_outputCellSend, Hub.sendOne_idles s.hub o hi ho hc]
  case sends =>
    rintro s o q i qc k x ho hk hq ha hx hi
    rw [exec_outputCellSend, Hub.sendOne_sends s.hub o hi ho q i qc k x hx (hx ▸ hk) hq ha]
  case inReset =>
    intro s o hi
    rw [exec_outputCellSend, Hub.sendOne_shut s.hub o (Hub.outOpen_inReset s.hub o hi)]
  case creditTx =>
    intro s p hu
    rw [exec_creditTx, Hub.creditTx_up s.hub p hu]
  case creditSend =>
    rintro h x p k rfl
    exact Hub.creditSend_eq h p k
  case creditRx =>
    intro s p cls l hu hc hl
    rw [exec_creditRx, Hub.creditRx_up s.hub p cls l hu hc hl]
    rfl
  case creditStall =>
    intro s p cls c b l x hu ht hw hb hx
    rw [exec_creditStall, Hub.creditStall_tells s.hub x p cls c b l hu ht hw hb hx]

end Sys2Proof.Machine
end

section
/-!
SUPPORT. Ethernet ports: a receive buffer's head admitted, PAUSE sent and ended, delivered frames sent, links and restarts (O37).
-/
namespace Sys2Proof.Machine

/-! ## The head of a receive buffer (R176, R180, R284) -/

theorem Hub.ethAdmit_empty (h : Hub) (p : Nat) (hx : (h.ethp p).rx = []) : h.ethAdmit p = h := by
  simp only [Hub.ethAdmit, hx]

section Admit
variable (h : Hub) (p : Nat) (f : EthHeld) (rest : List EthHeld) (hx : (h.ethp p).rx = f :: rest)
include hx

/-- A head that its tunnel no longer takes is counted and leaves the buffer. -/
theorem Hub.ethAdmit_noTunnel
    (ht : ((h.tun f.entry).valid && (h.tun f.entry).dir.sends && decide ((h.tun f.entry).type = tEthernet) && h.tunnels) = false) :
    h.ethAdmit p = (h.bump P.EN_RX_NOTUNNEL p).modEth p (fun q => { q with rx := rest }) := by
  simp only [Hub.ethAdmit, hx, ht, Bool.not_false, if_true]

variable (ht : ((h.tun f.entry).valid && (h.tun f.entry).dir.sends && decide ((h.tun f.entry).type = tEthernet) && h.tunnels) = true)
include ht

/-- A head longer than its tunnel's FRAME_LIMIT leaves the buffer. -/
theorem Hub.ethAdmit_overLimit (hl : (h.tun f.entry).limit < f.bytes.length) :
    h.ethAdmit p = h.modEth p (fun q => { q with rx := rest }) := by
  simp only [Hub.ethAdmit, hx, ht, hl, Bool.not_true, Bool.false_eq_true, if_false, if_true]

/-- A policed head for others than the hub itself that no shaper holds and the shared buffer has room for enters its tunnel. -/
theorem Hub.ethAdmit_sent (z : Hub) (hl : f.bytes.length ≤ (h.tun f.entry).limit)
    (ho : (!(h.tun f.entry).mcast && decide ((h.tun f.entry).peer = h.ownId)) = false) (hp : f.policed = true)
    (hs : h.shaped f.entry (h.tun f.entry) = false) (hopen : h.shaperOpen f.entry (h.tun f.entry) = true)
    (hz : h.trySend ⟨4, f.entry, false, f.bytes, f.bytes.length, true⟩ (h.tun f.entry) = (z, .sent)) :
    h.ethAdmit p = z.modEth p (fun q => { q with rx := rest }) := by
  simp only [Hub.ethAdmit, hx, ht, Nat.not_lt.mpr hl, ho, hp, hs, hopen, hz, Bool.not_true, Bool.false_and, Bool.false_eq_true,
    if_false, if_true]

end Admit

/-! ## PAUSE towards the link partner, and from it (R286) -/

/-- Without PAUSE in EN_PAUSE, or with its link down, a port sends none. -/
theorem Hub.pause_off (h : Hub) (p : Nat) (ho : bit (h.pget P.EN_PAUSE p) 1 = false ∨ (h.ethp p).up = false) :
    h.pauseTx p = h ∧ h.pauseRepeat p = h := by
  have off : (!bit (h.pget P.EN_PAUSE p) 1 || !(h.ethp p).up) = true := by
    rcases ho with hb | hu
    · simp [hb]
    · simp [hu]
  constructor
  · simp only [Hub.pauseTx, off, if_true]
  · simp only [Hub.pauseRepeat, off, Bool.true_or, if_true]

section Pause
variable (h : Hub) (p : Nat) (hb : bit (h.pget P.EN_PAUSE p) 1 = true) (hu : (h.ethp p).up = true)
include hb hu

theorem Hub.pauseTx_xoff (ho : h.pget P.EN_PAUSE_XOFF p < (h.ethp p).occupancy) (hx : (h.ethp p).xoff = false) :
    h.pauseTx p = h.sendPause p (h.pget P.EN_PAUSE_QUANTA p) := by
  simp only [Hub.pauseTx, hb, hu, ho, hx, decide_true, Bool.not_true, Bool.not_false, Bool.or_self, Bool.and_self, Bool.false_eq_true,
    if_false, if_true]

theorem Hub.pauseTx_xon (ho : (h.ethp p).occupancy < h.pget P.EN_PAUSE_XON p) (hx : (h.ethp p).xoff = true) :
    h.pauseTx p = h.sendPause p 0 := by
  simp only [Hub.pauseTx, hb, hu, ho, hx, decide_true, Bool.not_true, Bool.or_self, Bool.and_false, Bool.and_self, Bool.false_eq_true,
    if_false, if_true]

theorem Hub.pauseRepeat_inForce (hx : (h.ethp p).xoff = true) :
    h.pauseRepeat p = (h.until ((h.ethp p).pauseAt + quantaTime (h.ethp p).mode (h.pget P.EN_PAUSE_QUANTA p) / 2)).sendPause p
      (h.pget P.EN_PAUSE_QUANTA p) := by
  simp only [Hub.pauseRepeat, hb, hu, hx, Bool.not_true, Bool.or_self, Bool.false_eq_true, if_false]

end Pause

theorem Hub.pauseExpire_drains (h : Hub) (p t : Nat) (hp : (h.ethp p).paused = some t) :
    h.pauseExpire p = ((h.until t).modEth p (fun e => { e with paused := none })).ethDrain p := by
  simp only [Hub.pauseExpire, hp]

/-! ## Delivered frames (R289, R290) -/

/-- A frame waits behind an earlier one of its tunnel. -/
theorem Hub.ethTx_behind (h : Hub) (f : Frame) (hb : h.ethBehind f = true) : h.ethTx f = h := by
  simp only [Hub.ethTx, hb, if_true]

section Tx
variable (h : Hub) (f : Frame) {p : Nat} (hp : p = bits (h.tun f.entry).binding 14 2) (hb : h.ethBehind f = false) (hw : h.works 7 = true)
include hp hb hw

/-- A frame for a port whose link is down is dropped and counted. -/
theorem Hub.ethTx_down (hu : (h.ethp p).up = false) : h.ethTx f = (h.takeFrame 4 f).bump P.EN_TX_DOWN p := by
  subst hp
  simp only [Hub.ethTx, hb, hw, hu, Bool.not_true, Bool.not_false, Bool.false_eq_true, if_false, if_true]

variable {b : List Byte} (he : b = retag (h.tun f.entry).binding f.bytes) (hu : (h.ethp p).up = true)
  (hl : b.length ≤ h.pget P.EN_MAX_FRAME p)
include he hu hl

/-- A frame that the transmit FIFO has no room for waits. -/
theorem Hub.ethTx_full (hf : ethTxSize < (h.ethp p).fifo + b.length) : h.ethTx f = h := by
  subst hp he
  simp only [Hub.ethTx, hb, hw, hu, Nat.not_lt.mpr hl, hf, Bool.not_true, Bool.false_eq_true, if_false, if_true]

/-- A frame that the FIFO takes leaves by its port while no PAUSE holds it. -/
theorem Hub.ethTx_leaves (hf : (h.ethp p).fifo + b.length ≤ ethTxSize) (hn : (h.ethp p).paused = none) :
    h.ethTx f = ((h.takeFrame 4 f).modEth p (fun q => { q with tx := q.tx ++ [b] })).ethDrain p := by
  have free : (h.ethp p).paused.isNone = true := by rw [hn]; rfl
  subst hp he
  simp only [Hub.ethTx, hb, hw, hu, Nat.not_lt.mpr hl, Nat.not_lt.mpr hf, free, Bool.not_true, Bool.false_eq_true, if_false, if_true]

end Tx

/-! ## Links (R280, R291) -/

theorem Hub.ethLink_up (h : Hub) (p : Nat) (hd : (h.ethp p).up = false) (he : h.pget P.EN_ENABLE p ≠ 0) (hm : h.pget P.EN_MODE p ≠ 0)
    (hw : h.works 7 = true) :
    h.ethLink p true = ((h.modEth p (fun q => { q with up := true, mode := h.pget P.EN_MODE p })).raise (2 ^ intLink)).event .ethLink
      [(0, 1, p), (1, 1, 1), (2, 1, h.pget P.EN_MODE p)] := by
  simp [Hub.ethLink, hd, he, hm, hw, b2n]

theorem Hub.ethLink_down (h : Hub) (p : Nat) (hu : (h.ethp p).up = true) :
    h.ethLink p false = (((h.bumpBy P.EN_TX_DOWN p (h.ethp p).tx.length).modEth p (fun q =>
      { q with up := false, mode := 0, tx := [], paused := none, xoff := false })).raise (2 ^ intLink)).event .ethLink
        [(0, 1, p), (1, 1, 0), (2, 1, h.pget P.EN_MODE p)] := by
  simp [Hub.ethLink, hu, b2n]

theorem Hub.ethAdvertise_auto (h : Hub) (p : Nat) (hw : h.works 7 = true) (he : h.pget P.EN_ENABLE p = 1) (hm : h.pget P.EN_MODE p = 4) :
    h.ethAdvertise p = (h.modEth p (fun q => { q with advert := some (h.pget P.EN_PAUSE p) })).out (.ethPause p (h.pget P.EN_PAUSE p)) := by
  simp only [Hub.ethAdvertise, hw, he, hm, decide_true, Bool.and_self, if_true]

/-! ## EN_ENABLE and EN_MODE (R280) -/

/-- A byte within the range of its parameter is well formed. -/
theorem formOf_byteRange (pid inst v top : Nat) (d : ParamDesc) (hd : descOf pid = some d) (ha : d.access ≠ .ro ∧ d.access ≠ .rc)
    (hi : d.first ≤ inst ∧ inst < d.count) (hv : v ≤ top) (ht : top < 256) (hw : d.width = 1) (hg : d.signed = false)
    (hp : pid ≠ P.PW_ISLAND_RESET) (hc : d.check = .range 0 top) : formOf ⟨pid, inst, v⟩ = .ok ⟨pid, inst, v⟩ := by
  have hv' : v < 256 := by omega
  simp [formOf, paramForm, hd, ha.1, ha.2, Nat.not_lt.mpr hi.1, Nat.not_le.mpr hi.2, ParamDesc.norm, hw, hg, hv', hp, ParamDesc.refuses, hc, hv]

/-- A commit of two parameters that act alone: both values are stored, then each has its effect (R60). -/
theorem Hub.applyChange_two (h x : Hub) (i j : ParamItem) (hi : actsAlone i.pid = true) (hj : actsAlone j.pid = true)
    (hx : x = if h.storeChanges i || h.storeChanges j then (h.overlay [i, j] []).modMg (fun m => { m with dirty := true })
      else h.overlay [i, j] []) :
    h.applyChange ⟨[i, j], [], []⟩ = Hub.paramHook h (Hub.paramHook h x i) j := by
  simp only [actsAlone, Change.fuses, List.any_cons, List.any_nil, Bool.or_false, Bool.and_eq_true, Bool.not_eq_true', bne_iff_ne] at hi hj
  obtain ⟨⟨iCycle, iFuse⟩, iFill⟩ := hi
  obtain ⟨⟨jCycle, jFuse⟩, jFill⟩ := hj
  simp only [Hub.applyChange, Change.atCycle, Change.fuses, Change.guards, Hub.paramHooks, iCycle, iFuse, iFill, jCycle, jFuse, jFill,
    beq_eq_false_iff_ne.mpr iFill, beq_eq_false_iff_ne.mpr jFill, List.any_cons, List.any_nil, Bool.or_false, Bool.false_and,
    Bool.false_eq_true, if_false, List.foldl_nil, hx]

/-- The port starts anew once for each of the two fields. -/
theorem Hub.ethWrite_restarts (h x : Hub) (p en mode : Nat) (hp : p < 4) (he : en ≤ 1) (hm : mode ≤ 4)
    (hx : x = if h.storeChanges ⟨P.EN_ENABLE, p, en⟩ || h.storeChanges ⟨P.EN_MODE, p, mode⟩ then
      (h.overlay [⟨P.EN_ENABLE, p, en⟩, ⟨P.EN_MODE, p, mode⟩] []).modMg (fun m => { m with dirty := true })
      else h.overlay [⟨P.EN_ENABLE, p, en⟩, ⟨P.EN_MODE, p, mode⟩] []) :
    h.ethWrite p en mode = (x.ethRestart p).ethRestart p := by
  have formEnable := formOf_flag P.EN_ENABLE p en _ rfl (by decide) ⟨Nat.zero_le p, hp⟩ he rfl rfl (by decide) rfl
  have formMode := formOf_byteRange P.EN_MODE p mode 4 _ rfl (by decide) ⟨Nat.zero_le p, hp⟩ hm (by decide) rfl rfl (by decide) rfl
  have written : h.ethWrite p en mode = h.applyChange ⟨[⟨P.EN_ENABLE, p, en⟩, ⟨P.EN_MODE, p, mode⟩], [], []⟩ := by
    simp [Hub.ethWrite, Hub.takeEffect, formEnable, formMode]
  have aloneEnable : actsAlone P.EN_ENABLE = true := by decide
  have aloneMode : actsAlone P.EN_MODE = true := by decide
  rw [written, Hub.applyChange_two h x _ _ aloneEnable aloneMode hx]
  rfl

/-! ## The commands -/

theorem exec_ethRxAdmit (p : Nat) (s : State) : exec (.ethRxAdmit p) s = .next (s.after (s.hub.ethAdmit p)) := rfl

theorem exec_pauseTx (p : Nat) (s : State) : exec (.pauseTx p) s = .next (s.after (s.hub.pauseTx p)) := rfl

theorem exec_pauseRepeat (p : Nat) (s : State) : exec (.pauseRepeat p) s = .next (s.after (s.hub.pauseRepeat p)) := rfl

theorem exec_pauseExpire (p : Nat) (s : State) : exec (.pauseExpire p) s = .next (s.after (s.hub.pauseExpire p)) := rfl

theorem exec_ethFrameTx (f : Frame) (s : State) : exec (.ethFrameTx f) s = .next (s.after (s.hub.ethTx f)) := rfl

theorem exec_ethLinkUp (p : Nat) (s : State) : exec (.ethLink p true) s = .next (s.after (s.hub.ethLink p true)) := rfl

/-- A port that has lost its link starts anew. -/
theorem exec_ethLinkDown (p : Nat) (s : State) :
    exec (.ethLink p false) s = .next (s.after ((s.hub.ethLink p false).ethAdvertise p)) := rfl

theorem exec_ethPortRestart (p en mode : Nat) (s : State) :
    exec (.ethPortRestart p en mode) s = .next (s.after (s.hub.ethWrite p en mode)) := rfl

/-- Settles O37, each clause from the lemma on the frame, the PAUSE, the link or the restart it speaks of. -/
theorem ethernetFramesLeave : Obligations.EthernetFramesLeave := by
  unfold Obligations.EthernetFramesLeave
  refine ⟨?empty, ?noTunnel, ?overLimit, ?admitted, ?xoff, ?xon, ?pauseOff, ?repeats, ?expires, ?leaves, ?full, ?portDown, ?behind,
    ?linkUp, ?linkDown, ?restart, ?advertises⟩
  case empty =>
    intro s p hx
    rw [exec_ethRxAdmit, Hub.ethAdmit_empty s.hub p hx]
  case noTunnel =>
    rintro s p f rest e hx rfl ht
    rw [exec_ethRxAdmit, Hub.ethAdmit_noTunnel s.hub p f rest hx ht]
  case overLimit =>
    rintro s p f rest e hx rfl ht hl
    rw [exec_ethRxAdmit, Hub.ethAdmit_overLimit s.hub p f rest hx ht hl]
  case admitted =>
    rintro s p f rest e _ z hx rfl ht hl ho hp hs hopen hz
    rw [exec_ethRxAdmit, Hub.ethAdmit_sent s.hub p f rest hx ht z hl ho hp hs hopen hz]
  case xoff =>
    intro s p hb hu ho hx
    rw [exec_pauseTx, Hub.pauseTx_xoff s.hub p hb hu ho hx]
  case xon =>
    intro s p hb hu ho hx
    rw [exec_pauseTx, Hub.pauseTx_xon s.hub p hb hu ho hx]
  case pauseOff =>
    intro s p ho
    obtain ⟨notSent, notRepeated⟩ := Hub.pause_off s.hub p ho
    rw [exec_pauseTx, exec_pauseRepeat, notSent, notRepeated]
    exact ⟨rfl, rfl⟩
  case repeats =>
    intro s p hb hu hx
    rw [exec_pauseRepeat, Hub.pauseRepeat_inForce s.hub p hb hu hx]
  case expires =>
    intro s p t hp
    rw [exec_pauseExpire, Hub.pauseExpire_drains s.hub p t hp]
  case leaves =>
    intro s f p b hp he hb hw hu hl hf hn
    rw [exec_ethFrameTx, Hub.ethTx_leaves s.hub f hp hb hw he hu hl hf hn]
  case full =>
    intro s f p b hp he hb hw hu hl hf
    rw [exec_ethFrameTx, Hub.ethTx_full s.hub f hp hb hw he hu hl hf]
  case portDown =>
    intro s f p hp hb hw hu
    rw [exec_ethFrameTx, Hub.ethTx_down s.hub f hp hb hw hu]
  case behind =>
    intro s f hb
    rw [exec_ethFrameTx, Hub.ethTx_behind s.hub f hb]
  case linkUp =>
    intro s p hd he hm hw
    rw [exec_ethLinkUp, Hub.ethLink_up s.hub p hd he hm hw]
  case linkDown =>
    intro s p hu
    rw [exec_ethLinkDown, Hub.ethLink_down s.hub p hu]
  case restart =>
    intro s p en mode x hp he hm hx
    rw [exec_ethPortRestart, Hub.ethWrite_restarts s.hub x p en mode hp he hm hx]
    rfl
  case advertises =>
    intro h p hw he hm
    exact Hub.ethAdvertise_auto h p hw he hm

end Sys2Proof.Machine
end

section
/-!
SUPPORT. Detour control and release, LINE_STATE frames and node IDs (O28).
-/
namespace Sys2Proof.Machine

/-! ## Detours (R199, R205) -/

theorem Hub.detourCtrlTx_up (h : Hub) (hu : h.portUp 2 = true) :
    h.detourCtrlTx = h.sendSide 2 8 (byte h.detourFlags :: List.replicate 11 0#8) := if_pos hu

theorem Hub.detourCtrlRx_up (h : Hub) (f : List Byte) (hu : h.portUp 2 = true) :
    h.detourCtrlRx f = h.modRail (fun r => { r with twinFlags := byteAt f 0 }) := if_pos hu

/-- A frame on a TW that is not UP leaves the twin's flags. -/
theorem Hub.detourCtrlRx_down (h : Hub) (f : List Byte) (hu : h.portUp 2 = false) : h.detourCtrlRx f = h :=
  if_neg (Bool.eq_false_iff.mp hu)

theorem Hub.releaseStart_active (h x : Hub) (p : Nat) (ha : (h.detour p).active = true) (hr : (h.detour p).releasing = none)
    (hu : h.portUp p = true) (hx : x = h.until ((h.port p).since + ms (h.pget P.RL_DETOUR_RELEASE 0))) :
    h.releaseStart p = x.modDetour p (fun d => { d with releasing := some x.clk.up }) := by
  subst hx
  simp only [Hub.releaseStart, ha, hr, hu, Option.isNone_none, Bool.and_self, if_true]

theorem Hub.quietEnd_releases (h x : Hub) (p t : Nat) (hr : (h.detour p).releasing = some t) (ha : (h.detour p).active = true)
    (hu : h.portUp p = true)
    (hx : x = h.until (if (h.detour p).cells = 0 then t else max t ((h.detour p).lastAt + us (h.pget P.RL_DETOUR_QUIET 0)))) :
    h.quietEnd p = ((x.modDetour p (fun d => { d with active := false, releasing := none })).raise (2 ^ intRail)).event .detourReleased
      [(0, 1, p), (4, 8, (h.detour p).cells)] := by
  subst hx
  simp only [Hub.quietEnd, hr, ha, hu, Bool.and_self, if_true]

/-! ## LINE_STATE (R207, R209, R213) -/

/-- What a LINE_STATE frame says of the partner (R213). -/
def lineStateOf (f : List Byte) : LineState :=
  ⟨bit (byteAt f 0) 7, bit (byteAt f 0) 6, b2n (bit (byteAt f 0) 5), be f 1 2 % 4096, byteAt f 3 / 16, byteAt f 3 % 16, be f 4 2, be f 6 4⟩

theorem Hub.lineStateTx_up (h x : Hub) (p t : Nat) (hu : h.portUp p = true) (hx : x = h.untilLine t) :
    h.lineStateTx p t = x.sendSide p 7 ([byte (b2n x.idValid * 128 + b2n x.isHead * 64 + x.rail * 32)] ++ beBytes 2 x.ownId ++
      [byte (x.rl.ts.code * 16 + x.rl.source)] ++ beBytes 2 x.rl.depth ++ beBytes 4 x.rl.masterTag ++ beBytes 2 0) := by
  subst hx
  simp only [Hub.lineStateTx, hu, Bool.not_true, Bool.false_eq_true, if_false]

section LineState
variable (h x : Hub) (p : Nat) (f : List Byte) (l : LineState) (hu : h.portUp p = true) (hl : l = lineStateOf f)
  (hx : x = h.modTime p (fun q => { q with line := some l }))
include hu hl hx

/-- A partner whose ID fits is remembered, and a hub without an ID may take one from it. -/
theorem Hub.lineStateRx_fits (hc : x.idConflicts p l = false) : h.lineStateRx p f = x.hopId := by
  subst hx hl
  rw [lineStateOf] at hc
  simp only [Hub.lineStateRx, hu, hc, lineStateOf, Bool.not_true, Bool.false_eq_true, if_false]

/-- A partner whose ID contradicts the hub's own takes the port out of UP and holds it with reason 3. -/
theorem Hub.lineStateRx_conflicts (hc : x.idConflicts p l = true) (z : Hub)
    (hz : z = ((x.leaveUp p).enter p .held).modTrain p (fun t => { t with hold := 3 })) :
    h.lineStateRx p f = z.event .nodeIdConflict [(0, 1, p), (2, 2, l.nodeId), (4, 2, z.ownId)] := by
  subst hz hx hl
  rw [lineStateOf] at hc
  simp only [Hub.lineStateRx, hu, hc, lineStateOf, Bool.not_true, Bool.false_eq_true, if_false, if_true]

end LineState

/-! ## Hop IDs (R207, R209) -/

section HopId
variable (h : Hub) (l : LineState) (hh : h.isHead = false) (hi : h.rl.idValid = false) (hm : h.pget P.RL_ID_MODE 0 = 0)
  (hu : h.portUp 0 = true) (hl : (h.port 0).time.line = some l) (hv : l.idValid = true)
include hh hi hm hu hl hv

theorem Hub.hopId_takes (hn : l.nodeId ≤ 4093) : h.hopId = h.takeId (l.nodeId + 1) 0 := by
  simp only [Hub.hopId, hh, hi, hm, hu, hl, hv, hn, ne_eq, not_true_eq_false, decide_false, decide_true, Bool.or_self, Bool.and_self,
    Bool.false_eq_true, if_false, if_true]

/-- Behind the last ID there is none to take, which is told once. -/
theorem Hub.hopId_overflows (hn : l.nodeId = 4094) :
    h.hopId = if h.rl.overTold then h else (h.modRail (fun r => { r with overTold := true })).event .idOverflow [(0, 2, 4094)] := by
  have last : ¬ 4094 ≤ 4093 := by decide
  simp only [Hub.hopId, hh, hi, hm, hu, hl, hv, hn, last, ne_eq, not_true_eq_false, decide_false, decide_true, Bool.or_self, Bool.and_self,
    Bool.and_false, Bool.false_eq_true, if_false, if_true]

end HopId

/-! ## RL_REENUMERATE (R208, R209) -/

theorem Hub.fixedId_takes (h : Hub) (n : Nat) (hn : n = h.pget P.RL_NODE_ID_FIXED 0) (h1 : 1 ≤ n) (h2 : n ≤ 4094) :
    h.fixedId = h.takeId n 2 := by
  subst hn
  simp only [Hub.fixedId, h1, h2, decide_true, Bool.and_self, if_true]

/-- A node in fixed mode gives up its ID and takes the fixed one. -/
theorem Hub.reenumerate_fixed (h x : Hub) (n : Nat) (hh : h.isHead = false)
    (hx : x = h.modRail (fun r => { r with idValid := false, nodeId := 0, overTold := false })) (hm : h.pget P.RL_ID_MODE 0 = 1)
    (hn : n = h.pget P.RL_NODE_ID_FIXED 0) (h1 : 1 ≤ n) (h2 : n ≤ 4094) : h.reenumerate = x.takeId n 2 := by
  have mode : x.pget P.RL_ID_MODE 0 = 1 := by rw [hx]; exact hm
  have fixed : n = x.pget P.RL_NODE_ID_FIXED 0 := by rw [hx]; exact hn
  simp only [Hub.reenumerate, hh, ← hx, mode, x.fixedId_takes n fixed h1 h2, Bool.false_eq_true, if_false, if_true]

/-- Writing 1 to RL_REENUMERATE stores nothing: the ID is taken anew. -/
theorem Hub.writeParam_reenumerate (h : Hub) (mb : Nat) (hc : h.conflictsOutside mb P.RL_REENUMERATE 0 = false) :
    h.writeParam mb P.RL_REENUMERATE 0 1 = h.reenumerate :=
  Hub.writeParam_strobe h mb P.RL_REENUMERATE _ rfl rfl rfl rfl rfl (by decide) (fun v => Hub.ownRefusal_none h v mb _ 0 1 rfl) hc

/-! ## The commands -/

theorem exec_detourCtrlTx (s : State) : exec .detourCtrlTx s = .next (s.after s.hub.detourCtrlTx) := rfl

theorem exec_detourCtrlRx (f : List Byte) (s : State) : exec (.detourCtrlRx f) s = .next (s.after (s.hub.detourCtrlRx f)) := rfl

theorem exec_detourReleaseStart (p : Nat) (s : State) : exec (.detourReleaseStart p) s = .next (s.after (s.hub.releaseStart p)) := rfl

theorem exec_detourQuietEnd (p : Nat) (s : State) : exec (.detourQuietEnd p) s = .next (s.after (s.hub.quietEnd p)) := rfl

theorem exec_lineStateTx (p t : Nat) (s : State) : exec (.lineStateTx p t) s = .next (s.after (s.hub.lineStateTx p t)) := rfl

theorem exec_lineStateRx (p : Nat) (f : List Byte) (s : State) : exec (.lineStateRx p f) s = .next (s.after (s.hub.lineStateRx p f)) := rfl

theorem exec_rlReenumerate (mb v : Nat) (s : State) :
    exec (.rlReenumerate mb v) s = .next (s.after (s.hub.writeParam mb P.RL_REENUMERATE 0 v)) := rfl

/-- Settles O28, each clause from the lemma on the detour, the frame or the ID it speaks of. -/
theorem detoursAndNodeIds : Obligations.DetoursAndNodeIds := by
  unfold Obligations.DetoursAndNodeIds
  refine ⟨?ctrlTx, ?ctrlRx, ?ctrlRxDown, ?release, ?quiet, ?stateTx, ?fits, ?conflicts, ?hop, Hub.hopId_overflows, ?fixed⟩
  case ctrlTx =>
    intro s hu
    rw [exec_detourCtrlTx, Hub.detourCtrlTx_up s.hub hu, Hub.detourFlags]
  case ctrlRx =>
    intro s f hu
    rw [exec_detourCtrlRx, Hub.detourCtrlRx_up s.hub f hu]
  case ctrlRxDown =>
    intro s f hu
    rw [exec_detourCtrlRx, Hub.detourCtrlRx_down s.hub f hu]
  case release =>
    intro s p x ha hr hu hx
    rw [exec_detourReleaseStart, Hub.releaseStart_active s.hub x p ha hr hu hx]
  case quiet =>
    intro s p t x hr ha hu hx
    rw [exec_detourQuietEnd, Hub.quietEnd_releases s.hub x p t hr ha hu hx]
  case stateTx =>
    intro s p t x hu hx
    rw [exec_lineStateTx, Hub.lineStateTx_up s.hub x p t hu hx]
  case fits =>
    intro s p f l x hu hl hx hc
    rw [exec_lineStateRx, Hub.lineStateRx_fits s.hub x p f l hu hl hx hc]
  case conflicts =>
    intro s p f l x hu hl hx hc
    rw [exec_lineStateRx, Hub.lineStateRx_conflicts s.hub x p f l hu hl hx hc _ rfl, Hub.modTrain]
  case hop =>
    intro h l hh hi hm hu hl hv hn
    rw [Hub.hopId_takes h l hh hi hm hu hl hv hn, Hub.takeId]
  case fixed =>
    intro s mb n x hh hc hx hm hn h1 h2
    rw [exec_rlReenumerate, Hub.writeParam_reenumerate s.hub mb hc, Hub.reenumerate_fixed s.hub x n hh hx hm hn h1 h2, Hub.takeId]

end Sys2Proof.Machine
end

section
/-!
SUPPORT. SYNC and delay frames, line time's source and holdover, RL_TIME_STEP, PPS_OUT and captures (O29).
-/
namespace Sys2Proof.Machine

/-! ## SYNC (R213, R214, R216) -/

theorem Hub.syncTx_up (h x : Hub) (p t : Nat) (hu : h.portUp p = true) (hx : x = h.untilLine t) :
    h.syncTx p t = (x.modTime p (fun q => { q with syncSeq := (q.syncSeq + 1) % 256 })).sendSide p 4
      (beBytes 8 x.clk.ns ++ beBytes 2 x.clk.frac ++
        [byte (x.port p).time.syncSeq, byte (128 * b2n (x.rl.ts == .master || x.rl.ts == .locked))]) := by
  subst hx
  simp only [Hub.syncTx, hu, Bool.not_true, Bool.false_eq_true, if_false]

/-- The offset that a SYNC shows (R214), in 2⁻¹⁶ ns: the partner's time, the link's delay and asymmetry, less the instant of arrival. -/
def Hub.syncOffset (h : Hub) (p : Nat) (f : List Byte) (t frac : Nat) : Int :=
  (be f 0 8 : Int) * 65536 + be f 8 2 + (h.port p).time.delay + h.pgetSigned P.RL_ASYM p * 65536 / 2000 - ((t : Int) * 65536 + frac)

section SyncRx
variable (h x : Hub) (p : Nat) (f : List Byte) (t frac : Nat) (hu : h.portUp p = true) (hx : x = h.atPin t frac)
include hu hx

/-- A SYNC of a port that is not the hub's source only brings the clock to its arrival. -/
theorem Hub.syncRx_other (ho : x.timeMaster = true ∨ x.pickSource ≠ some p) : h.syncRx p f t frac = x := by
  subst hx
  have other : ((h.atPin t frac).timeMaster || decide ((h.atPin t frac).pickSource ≠ some p)) = true := by
    rcases ho with master | source
    · rw [master, Bool.true_or]
    · rw [decide_eq_true source, Bool.or_true]
  simp only [Hub.syncRx, hu, other, Bool.not_true, Bool.false_eq_true, if_false, if_true]

/-- A FREE hub that has measured its source's delay steps its time to the source and starts to acquire it. -/
theorem Hub.syncRx_acquires (y : Hub) (o : Int) (ho : o = x.syncOffset p f t frac) (hm : x.timeMaster = false)
    (hs : x.pickSource = some p) (hf : x.rl.ts = .free) (hmode : x.pget P.RL_TIME_SOURCE_MODE 0 ≠ 3)
    (hd : 16 ≤ (x.port p).time.delays.length) (hy : y = x.modRail (fun r => { r with offset := -(toPs o) })) :
    h.syncRx p f t frac =
      ((y.stepTime o).modRail (fun r => { r with inRun := 0 })).setTime .acquire (sourceCode p) (y.depthFrom p) (y.tagFrom p) := by
  have free : y.rl.ts = .free := by rw [hy]; exact hf
  have mode : y.pget P.RL_TIME_SOURCE_MODE 0 ≠ 3 := by rw [hy]; exact hmode
  rw [Hub.syncOffset] at ho
  simp only [Hub.syncRx, hu, ← hx, hm, hs, ← ho, ← hy, free, mode, hd, ne_eq, not_true_eq_false, not_false_eq_true, decide_false,
    decide_true, Bool.not_true, Bool.or_self, Bool.and_self, Bool.false_eq_true, if_false, if_true]

end SyncRx

/-! ## The link's delay (R213, R214) -/

theorem Hub.delayReqTx_up (h x : Hub) (p t q : Nat) (hu : h.portUp p = true) (hx : x = h.untilLine t)
    (hq : q = ((x.port p).time.reqSeq + 1) % 256) :
    h.delayReqTx p t = (x.modTime p (fun y => { y with reqSeq := q, reqAt := some (q, x.clk.ns * 65536 + x.clk.frac) })).sendSide p 5
      (byte q :: List.replicate 11 0#8) := by
  subst hq hx
  simp only [Hub.delayReqTx, hu, Bool.not_true, Bool.false_eq_true, if_false]

theorem Hub.delayReqRx_up (h : Hub) (p : Nat) (f : List Byte) (t frac : Nat) (hu : h.portUp p = true) :
    h.delayReqRx p f t frac = (h.atPin t frac).modTime p (fun q => { q with answer := some (byteAt f 0, t * 65536 + frac) }) := by
  simp only [Hub.delayReqRx, hu, Bool.not_true, Bool.false_eq_true, if_false]

theorem Hub.delayRespTx_owed (h x : Hub) (p t n rx turn : Nat) (hu : h.portUp p = true) (ha : (h.port p).time.answer = some (n, rx))
    (hx : x = h.untilLine t) (ht : turn = x.clk.ns * 65536 + x.clk.frac - rx) :
    h.delayRespTx p t = (x.modTime p (fun q => { q with answer := none })).sendSide p 6
      ([byte n, 0#8] ++ beBytes 4 (turn / 65536) ++ beBytes 2 (turn % 65536) ++ beBytes 4 0) := by
  subst ht hx
  simp only [Hub.delayRespTx, hu, ha, if_true]

/-- The response to the request under way gives one more delay; the last 64 are held. -/
theorem Hub.delayRespRx_measures (h : Hub) (p t frac n t3 : Nat) (f : List Byte) (hu : h.portUp p = true)
    (hr : (h.port p).time.reqAt = some (n, t3)) (hn : byteAt f 0 = n) :
    h.delayRespRx p f t frac = (h.atPin t frac).modTime p (fun q => { q with
      reqAt := none
      delays := (q.delays ++ [(((t * 65536 + frac : Nat) : Int) - t3 - ((be f 2 4 * 65536 + be f 6 2 : Nat) : Int)) / 2]).drop
        (q.delays.length + 1 - 64) }) := by
  simp only [Hub.delayRespRx, hu, hr, hn, ne_eq, not_true_eq_false, if_false, if_true]

/-! ## Holdover and RL_TIME_STEP (R216, R217, R221) -/

theorem Hub.holdoverExpire_holdover (h x : Hub) (hs : h.rl.ts = .holdover)
    (hx : x = h.until (h.rl.holdAt + 1000000000 * h.pget P.RL_HOLDOVER_LIMIT 0)) :
    h.holdoverExpire = if x.isHead && x.isTwinB then x.setTime .master 1 0 ownTag else x.setTime .free 0 0xFFFF 0 := by
  have holds : (h.rl.ts == TimeState.holdover) = true := by rw [hs]; rfl
  subst hx
  simp only [Hub.holdoverExpire, holds, if_true]

/-- On the line's master a step joins those that wait; elsewhere the row's own rule would refuse it. -/
theorem Hub.writeParam_timeStep (h : Hub) (mb v : Nat) (hv : v < 2 ^ 64) (hm : h.timeMaster = true)
    (hc : h.conflictsOutside mb P.RL_TIME_STEP 0 = false) :
    h.writeParam mb P.RL_TIME_STEP 0 v = h.modRail (fun r => { r with steps := r.steps ++ [toSigned 64 v * 65536] }) := by
  have form : formOf ⟨P.RL_TIME_STEP, 0, v⟩ = .ok ⟨P.RL_TIME_STEP, 0, v⟩ :=
    formOf_any P.RL_TIME_STEP 0 v _ rfl (by decide) (by decide) hv (by decide) rfl
  have own : ∀ w : Hub, h.ownRefusal w mb P.RL_TIME_STEP 0 v = none := fun w => by rw [Hub.ownRefusal_timeStep, hm]; rfl
  rw [Hub.writeParam_eq h mb P.RL_TIME_STEP 0 v v form rfl rfl rfl (own _) hc, Hub.stored_wo h P.RL_TIME_STEP 0 v _ rfl rfl rfl]
  rfl

/-! ## PPS_OUT (R219) -/

theorem Hub.setPps_changes (h : Hub) (b : Bool) (hb : h.rl.pps ≠ b) :
    h.setPps b = (h.modRail (fun r => { r with pps := b })).out (.pin "PPS_OUT" b) := if_neg hb

/-- The whole second raises PPS_OUT in mode 2, and in mode 1 where line time is synchronised. -/
theorem Hub.ppsPulse_rises (h x : Hub) (hx : x = h.untilLine (roundUp (h.clk.ns + 1) 1000000000))
    (hm : x.pget P.RL_PPS_MODE 0 = 2 ∨ (x.pget P.RL_PPS_MODE 0 = 1 ∧ x.synced = true)) : h.ppsPulse = x.setPps true := by
  have shown : (decide (x.pget P.RL_PPS_MODE 0 = 2) || (decide (x.pget P.RL_PPS_MODE 0 = 1) && x.synced)) = true := by
    rcases hm with always | ⟨one, synced⟩
    · rw [decide_eq_true always, Bool.true_or]
    · rw [decide_eq_true one, synced, Bool.and_self, Bool.or_true]
  simp only [Hub.ppsPulse, ← hx, shown, if_true]

theorem Hub.ppsEnd_falls (h x : Hub) (hp : h.rl.pps = true)
    (hx : x = h.untilLine (h.clk.ns / 1000000000 * 1000000000 + us (h.pget P.RL_PPS_WIDTH 0))) : h.ppsEnd = x.setPps false := by
  simp only [Hub.ppsEnd, hp, ← hx, if_true]

/-! ## Captures (R220) -/

section Capture
variable (h x : Hub) (i t : Nat) (r : Bool) (hx : x = h.untilLine t) (hs : bit (x.pget P.RL_TCAP_EDGE i) (if r then 0 else 1) = true)
include hx hs

/-- A selected edge is captured, unless 16 captures wait: then only OVERFLOW is set. -/
theorem Hub.tcapEdge_selected :
    h.tcapEdge i r t = x.modRail (fun y =>
      if 16 ≤ (x.rl.tcap i).1.length then y.setTcap i (x.rl.tcap i).1 true
      else y.setTcap i ((x.rl.tcap i).1 ++ [⟨t, r⟩]) (x.rl.tcap i).2) := by
  have sel : (if r then bit (x.pget P.RL_TCAP_EDGE i) 0 else bit (x.pget P.RL_TCAP_EDGE i) 1) = true := by
    rw [← apply_ite (bit (x.pget P.RL_TCAP_EDGE i))]; exact hs
  simp only [Hub.tcapEdge, ← hx, sel, Bool.not_true, Bool.false_eq_true, if_false]

theorem Hub.tcapEdge_captures (hl : (x.rl.tcap i).1.length < 16) :
    h.tcapEdge i r t = x.modRail (fun y => y.setTcap i ((x.rl.tcap i).1 ++ [⟨t, r⟩]) (x.rl.tcap i).2) := by
  simp only [Hub.tcapEdge_selected h x i t r hx hs, Nat.not_le.mpr hl, if_false]

theorem Hub.tcapEdge_overflows (hl : 16 ≤ (x.rl.tcap i).1.length) :
    h.tcapEdge i r t = x.modRail (fun y => y.setTcap i (x.rl.tcap i).1 true) := by
  simp only [Hub.tcapEdge_selected h x i t r hx hs, hl, if_true]

end Capture

/-- Reading RL_TCAP_READ takes the oldest capture. -/
theorem Hub.readEffect_tcap (h : Hub) (i : Nat) : h.readEffect P.RL_TCAP_READ i = h.tcapRead i := rfl

/-! ## The commands -/

theorem exec_syncTx (p t : Nat) (s : State) : exec (.syncTx p t) s = .next (s.after (s.hub.syncTx p t)) := rfl

theorem exec_syncRx (p : Nat) (f : List Byte) (t frac : Nat) (s : State) :
    exec (.syncRx p f t frac) s = .next (s.after (s.hub.syncRx p f t frac)) := rfl

theorem exec_delayReqTx (p t : Nat) (s : State) : exec (.delayReqTx p t) s = .next (s.after (s.hub.delayReqTx p t)) := rfl

theorem exec_delayReqRx (p : Nat) (f : List Byte) (t frac : Nat) (s : State) :
    exec (.delayReqRx p f t frac) s = .next (s.after (s.hub.delayReqRx p f t frac)) := rfl

theorem exec_delayRespTx (p t : Nat) (s : State) : exec (.delayRespTx p t) s = .next (s.after (s.hub.delayRespTx p t)) := rfl

theorem exec_delayRespRx (p : Nat) (f : List Byte) (t frac : Nat) (s : State) :
    exec (.delayRespRx p f t frac) s = .next (s.after (s.hub.delayRespRx p f t frac)) := rfl

theorem exec_holdoverExpire (s : State) : exec .holdoverExpire s = .next (s.after s.hub.holdoverExpire) := rfl

theorem exec_rlTimeStep (mb v : Nat) (s : State) :
    exec (.rlTimeStep mb v) s = .next (s.after (s.hub.writeParam mb P.RL_TIME_STEP 0 v)) := rfl

theorem exec_ppsPulse (s : State) : exec .ppsPulse s = .next (s.after s.hub.ppsPulse) := rfl

theorem exec_ppsEnd (s : State) : exec .ppsEnd s = .next (s.after s.hub.ppsEnd) := rfl

theorem exec_tcapEdge (i : Nat) (r : Bool) (t : Nat) (s : State) : exec (.tcapEdge i r t) s = .next (s.after (s.hub.tcapEdge i r t)) := rfl

theorem exec_tcapRead (i : Nat) (s : State) : exec (.tcapRead i) s = .next (s.after (s.hub.readEffect P.RL_TCAP_READ i)) := rfl

/-- Settles O29, each clause from the lemma on the frame, the clock or the pin it speaks of. -/
theorem lineTimeIsCarriedAndCaptured : Obligations.LineTimeIsCarriedAndCaptured := by
  unfold Obligations.LineTimeIsCarriedAndCaptured
  refine ⟨?syncTx, ?syncAcquires, ?syncOther, ?reqTx, ?reqRx, ?respTx, ?respRx, ?holdover, ?timeStep, ?ppsRises, ?ppsFalls, ?captures,
    ?overflows, ?read⟩
  case syncTx =>
    intro s p t x hu hx
    rw [exec_syncTx, Hub.syncTx_up s.hub x p t hu hx, Hub.modTime]
  case syncAcquires =>
    intro s p t frac f x o hu hx ho hm hs hf hmode hd
    rw [exec_syncRx, Hub.syncRx_acquires s.hub x p f t frac hu hx _ o ho hm hs hf hmode hd rfl]
  case syncOther =>
    intro s p t frac f hu ho
    rw [exec_syncRx, Hub.syncRx_other s.hub _ p f t frac hu rfl ho]
  case reqTx =>
    intro s p t x hu hx
    rw [exec_delayReqTx, Hub.delayReqTx_up s.hub x p t _ hu hx rfl, Hub.modTime]
  case reqRx =>
    intro s p t frac f hu
    rw [exec_delayReqRx, Hub.delayReqRx_up s.hub p f t frac hu, Hub.modTime]
  case respTx =>
    intro s p t n rx x hu ha hx
    rw [exec_delayRespTx, Hub.delayRespTx_owed s.hub x p t n rx _ hu ha hx rfl, Hub.modTime]
  case respRx =>
    intro s p t frac n t3 f hu hr hn
    rw [exec_delayRespRx, Hub.delayRespRx_measures s.hub p t frac n t3 f hu hr hn, Hub.modTime]
  case holdover =>
    intro s x hs hx
    rw [exec_holdoverExpire, Hub.holdoverExpire_holdover s.hub x hs hx, ownTag]
  case timeStep =>
    intro s mb v hv hh hb hc
    have master : s.hub.timeMaster = true := by rw [Hub.timeMaster, hh, hb]; rfl
    rw [exec_rlTimeStep, Hub.writeParam_timeStep s.hub mb v hv master hc]
  case ppsRises =>
    intro s x hx hm hp
    rw [exec_ppsPulse, Hub.ppsPulse_rises s.hub x hx hm, x.setPps_changes true (by simp [hp])]
  case ppsFalls =>
    intro s x hp hx hxp
    rw [exec_ppsEnd, Hub.ppsEnd_falls s.hub x hp hx, x.setPps_changes false (by simp [hxp])]
  case captures =>
    intro s i t r x hx hs hl
    rw [exec_tcapEdge, Hub.tcapEdge_captures s.hub x i t r hx hs hl]
  case overflows =>
    intro s i t r x hx hs hl
    rw [exec_tcapEdge, Hub.tcapEdge_overflows s.hub x i t r hx hs hl]
  case read =>
    intro s i
    rw [exec_tcapRead, Hub.readEffect_tcap, Hub.tcapRead]

end Sys2Proof.Machine
end

section
/-!
SUPPORT. The decision engine: queues, lookups and their actions, frames taken, and edges at the pins (O30).
-/
namespace Sys2Proof.Machine

/-! ## Events enter their queue (R231) -/

/-- An event for an engine that is enabled and works enters a queue that has room. -/
theorem Hub.pushEvent_enters (h : Hub) (e : DEvent) (he : h.pget P.DE_ENABLE 0 ≠ 0) (hw : h.works 5 = true)
    (hl : (nth h.de.queues e.source []).length < 1024) :
    h.pushEvent e = h.modDe (fun d => { d with queues := modAt d.queues e.source (· ++ [e]) }) := by
  simp only [Hub.pushEvent, he, hw, Nat.not_le.mpr hl, decide_false, Bool.not_true, Bool.or_self, Bool.false_eq_true, if_false]

/-- An event is dropped and counted while DE_ENABLE is 0, while the engine does not work, or when its queue is full. -/
theorem Hub.pushEvent_dropped (h : Hub) (e : DEvent)
    (hd : h.pget P.DE_ENABLE 0 = 0 ∨ h.works 5 = false ∨ 1024 ≤ (nth h.de.queues e.source []).length) :
    h.pushEvent e = h.bump P.DE_EVENT_DROP e.source := by
  have drops : (decide (h.pget P.DE_ENABLE 0 = 0) || !h.works 5 || decide (1024 ≤ (nth h.de.queues e.source []).length)) = true := by
    simpa only [Bool.or_eq_true, decide_eq_true_eq, Bool.not_eq_true', or_assoc] using hd
  simp only [Hub.pushEvent, drops, if_true]

/-- An event that enters its queue or is dropped leaves the islands as they are. -/
theorem Hub.isl_pushEvent (h : Hub) (e : DEvent) : (h.pushEvent e).isl = h.isl := by
  simp only [Hub.pushEvent]
  split <;> rfl

theorem Hub.works_pushEvent (h : Hub) (e : DEvent) (i : Nat) : (h.pushEvent e).works i = h.works i := by
  simp only [Hub.works, Hub.island, Hub.isl_pushEvent]

theorem Hub.pw_pushEvent (h : Hub) (e : DEvent) : (h.pushEvent e).pw = h.pw := by
  simp only [Hub.pushEvent]
  split <;> rfl

/-! ## A dispatch (R229, R231, R233, R235, R242) -/

theorem Hub.dispatch_stopped (h : Hub) (hw : h.works 5 = false) : h.dispatch = h := by
  simp only [Hub.dispatch, hw, Bool.not_false, if_true]

section Dispatch
variable (h x y : Hub) (src : Nat) (e : DEvent) (rest : List DEvent) (hw : h.works 5 = true) (hs : h.nextSource = some src)
  (hq : nth h.de.queues src [] = e :: rest) (hy : y = if h.de.lastAt = 0 then h else h.until (h.de.lastAt - 1 + h.dispatchGap))
  (hx : x = (y.modDe (fun d => { d with queues := modAt d.queues src (fun _ => rest), last := src, lastAt := y.clk.up + 1 })).bump
    P.DE_LOOKUPS 0)
include hw hs hq hy hx

/-- A miss is counted, and with the miss action it is forwarded. -/
theorem Hub.dispatch_miss (hl : x.de.active.bind (fun b => x.lookup b (fit 32 e.key) e.source) = none) :
    h.dispatch = if (x.bump P.DE_MISS 0).pget P.DE_MISS_ACTION 0 = 1 then (x.bump P.DE_MISS 0).forwardEvent e true 0 0
      else x.bump P.DE_MISS 0 := by
  simp only [Hub.dispatch, hw, hs, hq, ← hy, ← hx, hl, Bool.not_true, Bool.false_eq_true, if_false]

/-- A hit is counted, enters the key cache, and both actions of its entry run in their order. -/
theorem Hub.dispatch_hit (f : Found) (g : Hub) (cached : Bool)
    (hl : x.de.active.bind (fun b => x.lookup b (fit 32 e.key) e.source) = some f)
    (hg : g = ((x.bump P.DE_HITS 0).cacheHit (fit 32 e.key) f).1) (hc : ((x.bump P.DE_HITS 0).cacheHit (fit 32 e.key) f).2 = cached) :
    h.dispatch = ((if cached then g.bump P.DE_CACHE_HITS 0 else g).action e (slice f.entry 32 12) (le f.entry 60 4)).action e
      (slice f.entry 44 12) (le f.entry 60 4) := by
  simp only [Hub.dispatch, hw, hs, hq, ← hy, ← hx, hl, hc, ← hg, Bool.not_true, Bool.false_eq_true, if_false]

end Dispatch

/-! ## DECISION frames (R232, R235) -/

section DecisionRx
variable (h x : Hub) (f : Frame) (hx : x = h.takeFrame 7 f)
include hx

theorem Hub.decisionRx_malformed (hb : f.control = true ∨ decisionGood f.bytes = false) :
    h.decisionRx f = x.bump P.DE_ACTION_ERR 0 := by
  have bad : (f.control || !decisionGood f.bytes) = true := by
    simpa only [Bool.or_eq_true, Bool.not_eq_true'] using hb
  simp only [Hub.decisionRx, bad, ← hx, if_true]

variable (hc : f.control = false) (hd : decisionGood f.bytes = true)
include hc hd

theorem Hub.decisionRx_event (ht : byteAt f.bytes 0 ≠ 2) :
    h.decisionRx f = x.pushEvent ⟨0, f.bytes.drop 32, be f.bytes 8 8, byteAt f.bytes 6, byteAt f.bytes 3, be f.bytes 4 2⟩ := by
  simp only [Hub.decisionRx, hc, hd, ht, ← hx, Bool.not_true, Bool.or_self, Bool.false_eq_true, if_false]

theorem Hub.decisionRx_forwarded (ht : byteAt f.bytes 0 = 2) : h.decisionRx f = x.ringPut f.bytes := by
  simp only [Hub.decisionRx, hc, hd, ht, ← hx, Bool.not_true, Bool.or_self, Bool.false_eq_true, if_false, if_true]

end DecisionRx

/-- A ring that has room and already holds a frame takes one more, with no new event to the programmer. -/
theorem Hub.ringPut_more (h : Hub) (b : List Byte) (w size used : Nat) (hw : w = h.pget P.DE_FWD_WRITE 0)
    (hs : size = h.pget P.DE_FWD_RING_SIZE 0) (hu : used = (w + 2 ^ 32 - h.pget P.DE_FWD_READ 0) % 2 ^ 32) (hz : size ≠ 0)
    (hroom : used ≠ size) (hheld : used ≠ 0) :
    h.ringPut b = ({ h with dram := writeMem h.dram (h.memt (h.pget P.DE_FWD_RING_BASE 0) + 64 * (w % size)) (fit 64 b) } : Hub).pset
      P.DE_FWD_WRITE 0 ((w + 1) % 2 ^ 32) := by
  simp only [Hub.ringPut, ← hw, ← hs, ← hu, hz, hroom, hheld, if_false]

/-! ## GPIO frames (R230, R238) -/

section GpioRx
variable (h x : Hub) (f : Frame) (hx : x = h.takeFrame 7 f)
include hx

theorem Hub.gpioRx_malformed (hb : f.control = true ∨ gpioGood f.bytes = false) : h.gpioRx f = x.bump P.DE_ACTION_ERR 0 := by
  have bad : (f.control || !gpioGood f.bytes) = true := by
    simpa only [Bool.or_eq_true, Bool.not_eq_true'] using hb
  simp only [Hub.gpioRx, bad, ← hx, if_true]

variable (hc : f.control = false) (hg : gpioGood f.bytes = true)
include hc hg

theorem Hub.gpioRx_edge (ht : byteAt f.bytes 0 ≠ 1) :
    h.gpioRx f = x.pushEvent ⟨3, [byte (byteAt f.bytes 1), byte (byteAt f.bytes 2)], be f.bytes 8 8, 0, 3, f.src⟩ := by
  simp only [Hub.gpioRx, hc, hg, ht, ← hx, Bool.not_true, Bool.or_self, Bool.false_eq_true, if_false]

theorem Hub.gpioRx_command (ht : byteAt f.bytes 0 = 1) :
    h.gpioRx f = x.arm (byteAt f.bytes 1) ⟨be f.bytes 8 8, byteAt f.bytes 2, be f.bytes 4 4⟩ := by
  simp only [Hub.gpioRx, hc, hg, ht, ← hx, Bool.not_true, Bool.or_self, Bool.false_eq_true, if_false, if_true]

end GpioRx

/-! ## Edges at the pins (R237) -/

/-- The event of an edge at a pin of the hub itself. -/
def Hub.edgeEvent (h : Hub) (n t : Nat) (r : Bool) : DEvent := ⟨3, [byte n, byte (if r then 1 else 2)], t, 0, 3, h.ownId⟩

/-- A selected edge for the engine that is not reported, or that the engine cannot report, is an event and nothing else. -/
theorem Hub.keepEdge_event (h : Hub) (n t : Nat) (r : Bool) (hk : (if r then (h.pinCfg n).rising else (h.pinCfg n).falling) = true)
    (hd : (h.pinCfg n).toDe = true) (hr : (h.pinCfg n).report = false ∨ h.works 5 = false) :
    h.keepEdge n t r = h.pushEvent (h.edgeEvent n t r) := by
  simp only [Hub.keepEdge, hk, hd, Hub.edgeEvent, Hub.works_pushEvent, Bool.not_true, Bool.false_eq_true, if_false, if_true]
  rcases hr with unreported | stopped
  · simp only [unreported, Bool.false_and, Bool.false_eq_true, if_false]
  · simp only [stopped, Bool.and_false, Bool.false_eq_true, if_false]

section Edge
variable (h x : Hub) (n t : Nat) (r : Bool) (hx : x = (h.untilLine t).modPin n (fun p => { p with input := r }))
include hx

theorem Hub.gpioEdge_notInput (hd : (x.pinCfg n).dir ≠ 1) : h.gpioEdge n r t = x := by
  simp only [Hub.gpioEdge, ← hx, hd, ne_eq, not_false_eq_true, if_true]

/-- An input without a glitch filter keeps each edge at once. -/
theorem Hub.gpioEdge_unfiltered (hd : (x.pinCfg n).dir = 1) (hg : (x.pinCfg n).glitch = 0) : h.gpioEdge n r t = x.keepEdge n t r := by
  simp only [Hub.gpioEdge, ← hx, hd, hg, ne_eq, not_true_eq_false, if_false, if_true]

end Edge

/-- An edge wakes no hub that is in RUN. -/
theorem Hub.gpioWakes_run (h : Hub) (n : Nat) (r : Bool) (hp : h.pw.state = .run) : h.gpioWakes n r = h := by
  simp only [Hub.gpioWakes, hp, ne_eq, not_true_eq_false, decide_false, Bool.false_and, Bool.false_eq_true, if_false]

/-! ## The commands -/

theorem exec_deDispatch (s : State) : exec .deDispatch s = .next (s.after s.hub.dispatch) := rfl

theorem exec_decisionFrameRx (f : Frame) (s : State) : exec (.decisionFrameRx f) s = .next (s.after (s.hub.decisionRx f)) := rfl

theorem exec_edgeReportRx (f : Frame) (s : State) : exec (.edgeReportRx f) s = .next (s.after (s.hub.gpioRx f)) := rfl

theorem exec_gpioEdge (n : Nat) (r : Bool) (t : Nat) (s : State) :
    exec (.gpioEdge n r t) s = .next (s.after ((s.hub.gpioEdge n r t).gpioWakes n r)) := rfl

/-- An edge at an unfiltered input in RUN that the engine gets and no report goes out for leaves what its event leaves. -/
theorem exec_gpioEdge_event (n t : Nat) (r : Bool) (s : State) (x : Hub)
    (hx : x = (s.hub.untilLine t).modPin n (fun p => { p with input := r })) (hd : (x.pinCfg n).dir = 1) (hg : (x.pinCfg n).glitch = 0)
    (hk : (if r then (x.pinCfg n).rising else (x.pinCfg n).falling) = true) (he : (x.pinCfg n).toDe = true)
    (hr : (x.pinCfg n).report = false ∨ x.works 5 = false) (hp : x.pw.state = .run) :
    exec (.gpioEdge n r t) s = .next (s.after (x.pushEvent (x.edgeEvent n t r))) := by
  have running : (x.pushEvent (x.edgeEvent n t r)).pw.state = .run := by rw [Hub.pw_pushEvent]; exact hp
  rw [exec_gpioEdge, Hub.gpioEdge_unfiltered s.hub x n t r hx hd hg, x.keepEdge_event n t r hk he hr, Hub.gpioWakes_run _ n r running]

/-- Settles O30, each clause from the lemma on the dispatch, the frame or the edge it speaks of. -/
theorem eventsAreDispatchedOneByOne : Obligations.EventsAreDispatchedOneByOne := by
  unfold Obligations.EventsAreDispatchedOneByOne
  refine ⟨?stopped, ?miss, ?missForwarded, ?cacheHit, ?hit, ?malformed, ?event, ?eventDropped, ?forwarded, ?edgeElsewhere, ?edge,
    ?edgeDropped, ?notInput⟩
  case stopped =>
    intro s hw
    rw [exec_deDispatch, s.hub.dispatch_stopped hw]
  case miss =>
    intro s src e rest x y hw hs hq hy hx hl hm
    rw [exec_deDispatch, Hub.dispatch_miss s.hub x y src e rest hw hs hq hy hx hl, if_neg hm]
  case missForwarded =>
    intro s src e rest x y hw hs hq hy hx hl hm
    rw [exec_deDispatch, Hub.dispatch_miss s.hub x y src e rest hw hs hq hy hx hl, if_pos hm]
  case cacheHit =>
    intro s src e rest x y f g hw hs hq hy hx hl hg hc
    rw [exec_deDispatch, Hub.dispatch_hit s.hub x y src e rest hw hs hq hy hx f g true hl hg hc, if_pos rfl]
  case hit =>
    intro s src e rest x y f g hw hs hq hy hx hl hg hc
    rw [exec_deDispatch, Hub.dispatch_hit s.hub x y src e rest hw hs hq hy hx f g false hl hg hc, if_neg Bool.false_ne_true]
  case malformed =>
    intro s f hb
    rw [exec_decisionFrameRx, Hub.decisionRx_malformed s.hub _ f rfl hb]
  case event =>
    intro s f x hc hd ht hx he hw hl
    rw [exec_decisionFrameRx, Hub.decisionRx_event s.hub x f hx hc hd ht, x.pushEvent_enters _ he hw hl]
  case eventDropped =>
    intro s f x hc hd ht hx hdrop
    rw [exec_decisionFrameRx, Hub.decisionRx_event s.hub x f hx hc hd ht, x.pushEvent_dropped _ (hdrop.imp_right .inr)]
  case forwarded =>
    intro s f x w size hc hd ht hx hw hs hz hroom hheld
    rw [exec_decisionFrameRx, Hub.decisionRx_forwarded s.hub x f hx hc hd ht,
      x.ringPut_more f.bytes w size _ hw hs rfl hz hroom hheld]
  case edgeElsewhere =>
    intro s f x hc hg ht hx
    rw [exec_edgeReportRx, Hub.gpioRx_edge s.hub x f hx hc hg ht]
  case edge =>
    intro s n t r x hx hd hw hg hk he hr hen hl hp
    rw [exec_gpioEdge_event n t r s x hx hd hg hk he (.inl hr) hp, x.pushEvent_enters _ hen hw hl, Hub.edgeEvent]
  case edgeDropped =>
    intro s n t r x hx hd hw hg hk he hp
    rw [exec_gpioEdge_event n t r s x hx hd hg hk he (.inr hw) hp, x.pushEvent_dropped _ (.inr (.inl hw)), Hub.edgeEvent]
  case notInput =>
    intro s n t r x hx hd hp
    rw [exec_gpioEdge, Hub.gpioEdge_notInput s.hub x n t r hx hd, x.gpioWakes_run n r hp]

end Sys2Proof.Machine
end

section
/-!
SUPPORT. Timed actuation: a command armed, dropped or late, executed at its due time, and the end of a pulse (O31).
-/
namespace Sys2Proof.Machine

/-! ## A command for a pin (R239, R240) -/

theorem Hub.arm_notOutput (h : Hub) (n : Nat) (c : PinCmd) (hd : (h.pinCfg n).dir ≠ 2) : h.arm n c = h.actDrop n 0 := by
  simp only [Hub.arm, hd, ne_eq, not_false_eq_true, if_true]

section Arm
variable (h : Hub) (n : Nat) (c : PinCmd) (hd : (h.pinCfg n).dir = 2)
include hd

theorem Hub.arm_beyondRange (hb : h.clk.ns + 2 ^ 40 < c.due) : h.arm n c = h.actDrop n 2 := by
  have notLate : ¬ c.due < h.clk.ns := by omega
  have beyond : 2 ^ 40 < c.due - h.clk.ns := by omega
  simp only [Hub.arm, hd, notLate, beyond, ne_eq, not_true_eq_false, if_false, if_true]

section InRange
variable (hn : h.clk.ns ≤ c.due) (hr : c.due - h.clk.ns ≤ 2 ^ 40)
include hn hr

theorem Hub.arm_armed (hl : (h.pin n).queue.length < 16) :
    h.arm n c = h.modPin n (fun p => { p with queue := insertCmd c p.queue }) := by
  simp only [Hub.arm, hd, Nat.not_lt.mpr hn, Nat.not_lt.mpr hr, Nat.not_le.mpr hl, ne_eq, not_true_eq_false, if_false]

theorem Hub.arm_full (hl : 16 ≤ (h.pin n).queue.length) : h.arm n c = h.actDrop n 1 := by
  simp only [Hub.arm, hd, Nat.not_lt.mpr hn, Nat.not_lt.mpr hr, hl, ne_eq, not_true_eq_false, if_false, if_true]

end InRange

section Late
variable (hp : c.due < h.clk.ns)
include hp

/-- A late command within DE_LATE_GRACE executes at once, counts as late, and is told. -/
theorem Hub.arm_late (hg : h.clk.ns - c.due ≤ us (h.pget P.DE_LATE_GRACE 0)) :
    h.arm n c = ((h.actRun n c h.clk.ns).bump P.DE_ACT_LATE n).actEvent n (h.pin n).late (fun t p => { p with late := t }) .actuateLate
      [(0, 1, n), (8, 8, h.clk.ns - c.due)] := by
  simp only [Hub.arm, hd, hp, hg, ne_eq, not_true_eq_false, if_false, if_true]

theorem Hub.arm_expired (hg : us (h.pget P.DE_LATE_GRACE 0) < h.clk.ns - c.due) :
    h.arm n c = (h.bump P.DE_ACT_EXPIRED n).actEvent n (h.pin n).expired (fun t p => { p with expired := t }) .actuateExpired
      [(0, 1, n), (8, 8, h.clk.ns - c.due)] := by
  simp only [Hub.arm, hd, hp, Nat.not_le.mpr hg, ne_eq, not_true_eq_false, if_false, if_true]

end Late
end Arm

/-! ## A command executes, and a pulse ends (R239) -/

/-- A pulse lasts for its width, or to the end of a longer one that runs. -/
theorem Hub.actRun_pulse (h : Hub) (n : Nat) (c : PinCmd) (t : Nat) (hm : c.mode = 0) :
    h.actRun n c t = ((h.modPin n (fun p => { p with pulse := some (max (p.pulse.getD (t + 1000 * c.width)) (t + 1000 * c.width)) })).bump
      P.DE_ACT_DONE n).showPin n := by
  simp only [Hub.actRun, hm, if_true]
  congr 3
  funext p
  cases p.pulse with
  | none => rw [Option.getD_none, Nat.max_self]
  | some e => rfl

theorem Hub.actRun_level (h : Hub) (n : Nat) (c : PinCmd) (t : Nat) (hm : c.mode ≠ 0) :
    h.actRun n c t = ((h.modPin n (fun p => { p with active := decide (c.mode = 1) })).bump P.DE_ACT_DONE n).showPin n := by
  simp only [Hub.actRun, hm, if_false]

theorem Hub.actDue_runs (h x : Hub) (n : Nat) (c : PinCmd) (cs : List PinCmd) (hq : (h.pin n).queue = c :: cs)
    (hx : x = (h.untilLine c.due).modPin n (fun p => { p with queue := cs })) : h.actDue n = x.actRun n c c.due := by
  simp only [Hub.actDue, hq, ← hx]

theorem Hub.pulseEnd_ends (h : Hub) (n e : Nat) (hp : (h.pin n).pulse = some e) :
    h.pulseEnd n = ((h.untilLine e).modPin n (fun p => { p with pulse := none })).showPin n := by
  simp only [Hub.pulseEnd, hp]

/-! ## The commands -/

theorem exec_actuateRx (f : Frame) (s : State) : exec (.actuateRx f) s = .next (s.after (s.hub.gpioRx f)) := rfl

theorem exec_actuateDue (n : Nat) (s : State) : exec (.actuateDue n) s = .next (s.after (s.hub.actDue n)) := rfl

theorem exec_pulseEnd (n : Nat) (s : State) : exec (.pulseEnd n) s = .next (s.after (s.hub.pulseEnd n)) := rfl

/-- A good GPIO command is taken and armed on the pin it names. -/
theorem exec_actuateRx_arms (s : State) (f : Frame) (n : Nat) (x : Hub) (hc : f.control = false) (hg : gpioGood f.bytes = true)
    (ht : byteAt f.bytes 0 = 1) (hn : n = byteAt f.bytes 1) (hx : x = s.hub.takeFrame 7 f) :
    exec (.actuateRx f) s = .next (s.after (x.arm n ⟨be f.bytes 8 8, byteAt f.bytes 2, be f.bytes 4 4⟩)) := by
  rw [exec_actuateRx, Hub.gpioRx_command s.hub x f hx hc hg ht, hn]

/-- Settles O31, each clause from the lemma on the command, its execution or the pulse it speaks of. -/
theorem actuationsKeepTheirDueTime : Obligations.ActuationsKeepTheirDueTime := by
  unfold Obligations.ActuationsKeepTheirDueTime
  refine ⟨?armed, ?full, ?beyond, ?notOutput, ?late, ?expired, ?malformed, ?pulse, ?level, ?pulseEnd⟩
  case armed =>
    intro s f n x hc hg ht hn hx hd hnow hr hl
    rw [exec_actuateRx_arms s f n x hc hg ht hn hx, x.arm_armed n _ hd hnow hr hl]
  case full =>
    intro s f n x hc hg ht hn hx hd hnow hr hl
    rw [exec_actuateRx_arms s f n x hc hg ht hn hx, x.arm_full n _ hd hnow hr hl]
  case beyond =>
    intro s f n x hc hg ht hn hx hd hb
    rw [exec_actuateRx_arms s f n x hc hg ht hn hx, x.arm_beyondRange n _ hd hb]
  case notOutput =>
    intro s f n x hc hg ht hn hx hd
    rw [exec_actuateRx_arms s f n x hc hg ht hn hx, x.arm_notOutput n _ hd]
  case late =>
    intro s f n x hc hg ht hn hx hd hp hgrace
    rw [exec_actuateRx_arms s f n x hc hg ht hn hx, x.arm_late n _ hd hp hgrace]
  case expired =>
    intro s f n x hc hg ht hn hx hd hp hgrace
    rw [exec_actuateRx_arms s f n x hc hg ht hn hx, x.arm_expired n _ hd hp hgrace]
  case malformed =>
    intro s f hb
    rw [exec_actuateRx, exec_edgeReportRx, Hub.gpioRx_malformed s.hub _ f rfl hb]
    exact ⟨rfl, rfl⟩
  case pulse =>
    intro s n c cs x hq hx hm
    rw [exec_actuateDue, Hub.actDue_runs s.hub x n c cs hq hx, x.actRun_pulse n c c.due hm]
  case level =>
    intro s n c cs x hq hx hm
    rw [exec_actuateDue, Hub.actDue_runs s.hub x n c cs hq hx, x.actRun_level n c c.due hm]
  case pulseEnd =>
    intro s n e hp
    rw [exec_pulseEnd, s.hub.pulseEnd_ends n e hp]

end Sys2Proof.Machine
end

section
/-!
SUPPORT. The lookup banks: loads and checks begun and ended, their status, and DE_LOOKUP (O32).
-/
namespace Sys2Proof.Machine

/-! ## Loads and checks begin (R244) -/

theorem Hub.startBank_begins (h : Hub) (r : Request) (work : Pending) (hr : h.bankRefusal = none) (hn : h.ctl.ops.length < 16) :
    h.startBank r work =
      ((h.withOp r.mb r.cmd work).modBank h.shadow (fun k => { k with state := 2 }), .long h.ctl.nextToken) := by
  simp only [Hub.startBank, hr, Hub.startOp_eq h r.mb r.cmd work hn]

theorem Hub.startBank_busy (h : Hub) (r : Request) (work : Pending) (ho : h.bankOp.isSome = true) :
    h.startBank r work = (h, .err .busy) := by
  have busy : h.bankRefusal = some .busy := by rw [Hub.bankRefusal, if_pos ho]
  simp only [Hub.startBank, busy]

/-- A load of a part of the shadow from a part of the memory tunnel area, both in range, is a bank command on the shadow. -/
theorem Hub.bankLoad_inRange (h : Hub) (r : Request) (off n : Nat) (hp : r.payload.length = 24) (ho : off = r.arg 8 4)
    (hn : n = r.arg 12 4) (hz : r.arg 20 4 = 0) (ho256 : off % 256 = 0) (hn256 : n % 256 = 0) (he : off + n ≤ 0x20000000)
    (hm : h.inMemt (r.arg 0 8) n = true) :
    h.bankLoad r = h.startBank r (.bankLoad h.shadow (r.arg 0 8) off n (r.arg 16 4)) := by
  simp only [Hub.bankLoad, r.not_has 24 hp, ← ho, ← hn, hz, ho256, hn256, Nat.not_lt.mpr he, hm, ne_eq, not_true_eq_false, decide_false,
    Bool.not_true, Bool.or_self, Bool.false_eq_true, if_false]

theorem Hub.bankCheck_good (h : Hub) (r : Request) (hp : r.payload.length = 4) (hz : r.arg 0 4 = 0) :
    h.bankCheck r = h.startBank r (.bankCheck h.shadow) := by
  simp only [Hub.bankCheck, r.not_has 4 hp, hz, ne_eq, not_true_eq_false, decide_false, Bool.or_self, Bool.false_eq_true, if_false]

/-! ## Loads and checks end (R243, R245) -/

theorem Hub.bankLoadDone_ends (h x : Hub) (token b src off n crc : Nat) (o : LongOp) (ho : h.op token = some o)
    (hw : o.work = .bankLoad b src off n crc)
    (hx : x = { h with dram := copyMem h.dram (h.memt src) (bankBase b + off) n }) :
    h.bankLoadDone token = (x.modBank b (fun k => { k with state := 1 })).endOp token
      (if crcMem h.dram (h.memt src) n = crc then .ok else .authFail) 0 [] := by
  subst hx
  cases o with
  | mk t cmd mb percent work =>
    cases hw
    simp only [Hub.bankLoadDone, ho]

theorem Hub.bankCheckDone_ends (h : Hub) (token b : Nat) (o : LongOp) (ho : h.op token = some o) (hw : o.work = .bankCheck b) :
    h.bankCheckDone token = (h.bankChecked b 3).endOp token .ok 0 [] := by
  cases o with
  | mk t cmd mb percent work =>
    cases hw
    simp only [Hub.bankCheckDone, ho]

/-- A bank with a fault is FAILED, with the reason and the bucket of the first one. -/
theorem Hub.bankChecked_fails (h : Hub) (b good r bk : Nat) (hf : h.bankFault b = some (r, bk)) :
    h.bankChecked b good = h.modBank b (fun k => { k with state := 5, reason := r, bucket := bk }) := by
  simp only [Hub.bankChecked, hf]

theorem Hub.bankChecked_passes (h : Hub) (b good : Nat) (hf : h.bankFault b = none) :
    h.bankChecked b good = h.modBank b (fun k => { k with
      state := good, count := (h.validSlots b).length, crc := crcMem h.dram (bankBase b) 0x20000000, reason := 0, bucket := 0 }) := by
  simp only [Hub.bankChecked, hf]

/-! ## DE_BANK_STATUS and DE_LOOKUP (R244) -/

/-- What DE_BANK_STATUS answers of one bank. -/
def Hub.bankRecord (h : Hub) (b : Nat) : List Byte :=
  [byte (h.bank b).state, byte (b2n (h.de.active == some b)), byte (h.bank b).reason, 0#8] ++ leBytes 4 (h.bank b).count ++
    leBytes 4 (h.bank b).crc ++ leBytes 4 (h.bank b).bucket

theorem Hub.bankStatus_ok (h : Hub) (r : Request) (hp : r.payload = []) :
    h.bankStatus r = (h, .ok (h.bankRecord 0 ++ h.bankRecord 1)) := by
  simp only [Hub.bankStatus, r.not_has_zero hp, Bool.false_eq_true, if_false, List.flatMap_cons, List.flatMap_nil, List.append_nil,
    Hub.bankRecord]

/-- What DE_LOOKUP answers for a key that a bank holds. -/
theorem Hub.deLookup_found (h : Hub) (r : Request) (n : Nat) (k : List Byte) (f : Found) (hp : r.payload.length = 36)
    (hn : n = r.arg 1 1) (hz : r.arg 3 1 = 0) (hb : r.arg 0 1 ≤ 1) (h1 : 1 ≤ n) (h32 : n ≤ 32) (hs : r.arg 2 1 ≤ 3)
    (hk : k = fit 32 (slice r.payload 4 n))
    (hf : (if r.arg 0 1 = 1 then some h.shadow else h.de.active).bind (fun b => h.lookup b k (r.arg 2 1)) = some f) :
    h.deLookup r = (h, .ok ([1#8, byte (b2n f.second * 16 + f.slot), 0#8, 0#8] ++ (leBytes 4 (hash0 k) ++ leBytes 4 (hash1 k)) ++
      leBytes 4 f.bucket ++ f.entry)) := by
  simp only [Hub.deLookup, r.not_has 36 hp, ← hn, hz, Nat.not_lt.mpr hb, Nat.ne_of_gt h1, Nat.not_lt.mpr h32, Nat.not_lt.mpr hs, ← hk, hf,
    ne_eq, not_true_eq_false, decide_false, Bool.or_self, Bool.false_eq_true, if_false]

/-! ## The commands -/

theorem exec_deBankLoad (q : Req) (s : State) : exec (.deBankLoad q) s = .next (s.after (s.hub.request 0x0501 q Hub.bankLoad)) := rfl

theorem exec_deBankCheck (q : Req) (s : State) : exec (.deBankCheck q) s = .next (s.after (s.hub.request 0x0502 q Hub.bankCheck)) := rfl

theorem exec_deBankStatus (q : Req) (s : State) : exec (.deBankStatus q) s = .next (s.after (s.hub.request 0x0503 q Hub.bankStatus)) := rfl

theorem exec_deLookup (q : Req) (s : State) : exec (.deLookup q) s = .next (s.after (s.hub.request 0x0504 q Hub.deLookup)) := rfl

theorem exec_deBankLoadDone (token : Nat) (s : State) :
    exec (.deBankLoadDone token) s = .next (s.after (s.hub.serveTurn.bankLoadDone token)) := rfl

theorem exec_deBankCheckDone (token : Nat) (s : State) :
    exec (.deBankCheckDone token) s = .next (s.after (s.hub.serveTurn.bankCheckDone token)) := rfl

/-- Settles O32, each clause from what its command's meaning does with the bank. -/
theorem banksAreLoadedCheckedAndRead : Obligations.BanksAreLoadedCheckedAndRead := by
  unfold Obligations.BanksAreLoadedCheckedAndRead
  refine ⟨?load, ?check, ?checkBusy, ?loadDone, ?checkFails, ?checkPasses, ?status, ?lookup⟩
  case load =>
    intro s q a off n ha hA hp ho hn hz ho256 hn256 he hm hr hl
    have hbody := (a.bankLoad_inRange (reqOn q 0x0501) off n hp ho hn hz ho256 hn256 he hm).trans (a.startBank_begins _ _ hr hl)
    rw [exec_deBankLoad, Hub.request_plain s.hub q _ _ a _ _ (by decide) ha hA hbody, reqOn_mb, reqOn_cmd, reqOn_arg, reqOn_arg]
  case check =>
    intro s q a ha hA hp hz hr hl
    have hbody := (a.bankCheck_good (reqOn q 0x0502) hp hz).trans (a.startBank_begins _ _ hr hl)
    rw [exec_deBankCheck, Hub.request_plain s.hub q _ _ a _ _ (by decide) ha hA hbody, reqOn_mb, reqOn_cmd]
  case checkBusy =>
    intro s q a ha hA hp hz ho
    have hbody := (a.bankCheck_good (reqOn q 0x0502) hp hz).trans (a.startBank_busy _ _ ho)
    rw [exec_deBankCheck, Hub.request_plain s.hub q _ _ a a _ (by decide) ha hA hbody]
  case loadDone =>
    rintro s token b src off n crc o x y rfl ho hw hx
    rw [exec_deBankLoadDone, Hub.bankLoadDone_ends _ x token b src off n crc o ho hw hx]
  case checkFails =>
    rintro s token b r bk o y rfl ho hw hf
    rw [exec_deBankCheckDone, Hub.bankCheckDone_ends _ token b o ho hw, Hub.bankChecked_fails _ b 3 r bk hf]
  case checkPasses =>
    rintro s token b o y rfl ho hw hf
    rw [exec_deBankCheckDone, Hub.bankCheckDone_ends _ token b o ho hw, Hub.bankChecked_passes _ b 3 hf]
  case status =>
    intro s q a ha hA hp
    rw [exec_deBankStatus, Hub.request_plain s.hub q _ _ a a _ (by decide) ha hA (a.bankStatus_ok _ hp), Hub.bankRecord, Hub.bankRecord]
  case lookup =>
    intro s q a n k f ha hA hp hn hz hb h1 h32 hs hk hf
    have hbody := a.deLookup_found (reqOn q 0x0504) n k f hp hn hz hb h1 h32 hs hk hf
    rw [exec_deLookup, Hub.request_plain s.hub q _ _ a a _ (by decide) ha hA hbody]

end Sys2Proof.Machine
end

section
/-!
SUPPORT. The bridge at the target: window requests matched, checked, performed and ended (O33).
-/
namespace Sys2Proof.Machine

/-! ## A request frame arrives (R257, R259, R264) -/

/-- A request on the control channel, malformed or no request counts and does nothing else (R259). -/
theorem Hub.targetRx_malformed (h : Hub) (f : Frame) (ecc : Bool)
    (hb : f.control = true ∨ windowGood f.bytes = false ∨ 3 < byteAt f.bytes 0) : h.targetRx f ecc = h.windowBad f := by
  have bad : (f.control || !windowGood f.bytes || 3 < byteAt f.bytes 0) = true := by rcases hb with hb | hb | hb <;> simp [hb]
  simp only [Hub.targetRx, bad, if_true]

theorem Hub.matched_unmapped (h : Hub) (f : Frame) (hn : h.targetWin f.entry (be f.bytes 8 8) (be f.bytes 4 2) = none) :
    h.matched f = none := by
  rw [Hub.matched, hn, Option.map_none]

theorem Hub.matched_of_targetWin (h : Hub) (f : Frame) (i : Nat) (w : Window)
    (hs : h.targetWin f.entry (be f.bytes 8 8) (be f.bytes 4 2) = some (i, w)) : h.matched f = some (h.matchOf i) := by
  rw [Hub.matched, hs, Option.map_some]

/-- With no fill of page colours and nothing the DRAM controller said of it, a frame in its turn runs at once. -/
theorem Hub.targetTurn_runs (h : Hub) (f : Frame) (m : Option Match) (hw : h.ag.waiting = []) (hf : h.ag.fillEnd = none)
    (he : f ∉ h.br.ecc) : h.targetTurn f m = h.targetRun f m false := by
  have unfilled : h.fillHolds 0 = false := by simp [Hub.fillHolds, hf]
  have noEcc : h.br.ecc.contains f = false := by simpa using he
  simp only [Hub.targetTurn, hw, unfilled, List.any_nil, Bool.and_false, Bool.or_self, Bool.false_eq_true, if_false, Hub.targetAs, noEcc]

section Rx
variable {h x : Hub} {f : Frame} (hc : f.control = false) (hg : windowGood f.bytes = true) (hop : byteAt f.bytes 0 ≤ 3)
  (hx : x = h.takeFrame 3 f)
include hc hg hop hx

/-- Behind a write of its tunnel not yet performed a frame waits (R264). -/
theorem Hub.targetRx_behind (hh : x.frameHolds f = true) :
    h.targetRx f false = x.modBr (fun r => { r with behind := r.behind ++ [⟨f, none⟩] }) := by
  subst hx
  simp [Hub.targetRx, hc, hg, hop, hh]

theorem Hub.targetRx_runs (hh : x.frameHolds f = false) (hw : x.ag.waiting = []) (hf : x.ag.fillEnd = none) (he : f ∉ x.br.ecc) :
    h.targetRx f false = x.targetRun f (x.matched f) false := by
  rw [← Hub.targetTurn_runs x f (x.matched f) hw hf he]
  subst hx
  simp [Hub.targetRx, hc, hg, hop, hh]

end Rx

/-! ## The memory tunnel area (R262, R263, R267, R276) -/

theorem Hub.targetRun_unmapped (h : Hub) (f : Frame) (bad : Bool) :
    h.targetRun f none bad = h.targetFail f.entry f.src (h.tun f.entry).tid (byteAt f.bytes 0) (be f.bytes 2 2) (be f.bytes 8 8) 0xFF 1 := rfl

/-- Where a window into the memory tunnel area leads. -/
theorem Hub.localAddr_area (h : Hub) (m : Match) (off : Nat) (hs : m.window.sel = 1) :
    h.localAddr m off = (0, m.base + (m.window.trans + (off - m.window.base))) := by
  simp [Hub.localAddr, hs]

/-- The memory tunnel area needs no link (R278). -/
theorem Hub.noLink_area (h : Hub) (w : Window) (hs : w.sel = 1) : h.noLink w = false := by
  simp [Hub.noLink, hs]

section Area
variable {h : Hub} {f : Frame} {m : Match} (hs : m.window.sel = 1)
include hs

/-- A request into the area whose bytes it holds, in sizes that its window allows, is checked by the guard and then performed: `ex` is how its extra
bytes are read. -/
theorem Hub.targetRun_area {st ex : List (Nat × Nat)} {g : Hub × Bool} (bad : Bool)
    (hin : m.holds (m.window.trans + (be f.bytes 8 8 - m.window.base)) (be f.bytes 4 2) = true)
    (hst : m.window.convert (if byteAt f.bytes 0 = 3 then h.br.mrrs else h.br.mps) (be f.bytes 8 8) (be f.bytes 4 2)
      (byteAt f.bytes 0 ≠ 3) = some st)
    (hex : ex = if byteAt f.bytes 0 = 3 then m.extraSteps (if byteAt f.bytes 0 = 3 then h.br.mrrs else h.br.mps) (be f.bytes 8 8)
      (be f.bytes 4 2) (be f.bytes 6 2) else [])
    (hguard : g = h.guard ⟨0, m.base + (m.window.trans + (be f.bytes 8 8 - m.window.base)), be f.bytes 4 2 + (ex.map (·.2)).sum,
      byteAt f.bytes 0 ≠ 3, 3, f.entry, if m.window.colour = 0 then (h.tun f.entry).colour else m.window.colour⟩ (byteAt f.bytes 0 = 1)) :
    h.targetRun f (some m) bad = if g.2 then g.1.perform f m st ex bad
      else g.1.targetFail f.entry f.src (h.tun f.entry).tid (byteAt f.bytes 0) (be f.bytes 2 2) (be f.bytes 8 8) m.win 2 := by
  have inArea : (m.window.sel = 1 && !m.holds (m.window.trans + (be f.bytes 8 8 - m.window.base)) (be f.bytes 4 2)) = false := by simp [hin]
  simp only [Hub.targetRun, inArea, Hub.noLink_area h _ hs, hst, Hub.localAddr_area h m _ hs, ← hex, ← hguard, Bool.false_eq_true, if_false]
  cases g.2 <;> rfl

variable (st ex : List (Nat × Nat))

theorem Hub.perform_areaRead (hop : byteAt f.bytes 0 = 3) :
    h.perform f m st ex false = h.reply f.entry f.src 3 (be f.bytes 2 2) (be f.bytes 8 8) 0 (swapUnits m.window.unitBytes 4097
      (readMem h.dram (m.base + (m.window.trans + (be f.bytes 8 8 - m.window.base))) (be f.bytes 4 2 + (ex.map (·.2)).sum))) := by
  simp [Hub.perform, hs, hop, Hub.localAddr_area]

/-- What a write into the area leaves in DRAM; a WRITE_NP is answered (R264). -/
theorem Hub.perform_areaWrite {y : Hub} {a : Nat} (bad : Bool) (hop : byteAt f.bytes 0 ≠ 3)
    (ha : a = m.base + (m.window.trans + (be f.bytes 8 8 - m.window.base)))
    (hy : y = { h with dram := writeMem h.dram a (swapUnits m.window.unitBytes 4097 (f.bytes.drop 24)) }) :
    h.perform f m st ex bad = if byteAt f.bytes 0 = 2 then y.reply f.entry f.src 2 (be f.bytes 2 2) (be f.bytes 8 8) 0 [] else y := by
  subst hy ha
  by_cases h2 : byteAt f.bytes 0 = 2 <;> simp [Hub.perform, hs, hop, h2, Hub.localAddr_area]

end Area

/-- A READ of DRAM bytes that are uncorrectable ends POISONED (R260). -/
theorem Hub.perform_poisoned (h : Hub) (f : Frame) (m : Match) (st ex : List (Nat × Nat)) (hop : byteAt f.bytes 0 = 3)
    (hs : m.window.sel = 1 ∨ m.window.sel = 2) :
    h.perform f m st ex true = h.targetFail f.entry f.src (h.tun f.entry).tid 3 (be f.bytes 2 2) (be f.bytes 8 8) m.win 9 := by
  rcases hs with hs | hs <;> simp [Hub.perform, hs, hop]

/-! ## The link answers (R264, R273) -/

section Done
variable {h x : Hub} {id : Nat} {t : Target} (ht : h.br.targets.find? (fun t => t.id == id) = some t)
  (hx : x = h.modBr (fun r => { r with targets := r.targets.filter (fun x => x.id != id) }))
include ht hx

theorem Hub.targetDone_fails (status : Nat) (d : List Byte) (y : Hub) (hs : status ≠ 0)
    (hy : y = x.targetFail t.entry t.src t.tid t.op t.tag t.off t.win status) :
    h.targetDone id status d = Hub.runBehind (y.br.behind.length + 1) t.entry y := by
  subst hy hx
  simp [Hub.targetDone, ht, hs]

/-- A good answer of a WRITE says nothing to its originator. -/
theorem Hub.targetDone_write (d : List Byte) (hop : t.op = 1) :
    h.targetDone id 0 d = Hub.runBehind (x.br.behind.length + 1) t.entry x := by
  subst hx
  simp [Hub.targetDone, ht, hop]

theorem Hub.targetDone_replies (d : List Byte) (y : Hub) (hop : t.op ≠ 1)
    (hy : y = x.reply t.entry t.src t.op t.tag t.off 0 (swapUnits t.unit 4097 (fit (t.len + t.pf) d))) :
    h.targetDone id 0 d = Hub.runBehind (y.br.behind.length + 1) t.entry y := by
  subst hy hx
  simp [Hub.targetDone, ht, hop]

end Done

/-! ## The commands of the target -/

theorem exec_windowWriteRx (f : Frame) (s : State) : exec (.windowWriteRx f) s = .next (s.after (s.hub.targetRx f false)) := rfl

theorem exec_windowWriteNpRx (f : Frame) (s : State) : exec (.windowWriteNpRx f) s = .next (s.after (s.hub.targetRx f false)) := rfl

theorem exec_windowReadRx (f : ReadFrame) (s : State) : exec (.windowReadRx f) s = .next (s.after (s.hub.targetRx f.frame f.ecc)) := rfl

theorem exec_targetCompletion (id st : Nat) (d : List Byte) (s : State) :
    exec (.targetCompletion id st d) s = .next (s.after (s.hub.targetDone id st d)) := rfl

theorem exec_windowFrameBad (f : Frame) (s : State) : exec (.windowFrameBad f) s = .next (s.after (s.hub.windowBad f)) := rfl

/-- The three request commands leave what the arrival of their frame leaves. -/
theorem exec_windowRequests {s : State} {f : Frame} {y : Hub} (hy : s.hub.targetRx f false = y) :
    exec (.windowWriteRx f) s = .next (s.after y) ∧ exec (.windowWriteNpRx f) s = .next (s.after y) ∧
      exec (.windowReadRx ⟨f, false⟩) s = .next (s.after y) := by
  subst hy
  exact ⟨exec_windowWriteRx f s, exec_windowWriteNpRx f s, exec_windowReadRx ⟨f, false⟩ s⟩

/-- Settles O33: what an arriving frame does, then the guard and the area for one that runs, then the link's answers. -/
theorem windowRequestsReachTheirTarget : Obligations.WindowRequestsReachTheirTarget := by
  unfold Obligations.WindowRequestsReachTheirTarget
  refine ⟨?unmapped, ?behind, ?malformed, ?matched, ?refused, ?write, ?writeNp, ?read, ?poisoned, ?linkFails, ?linkWrites, ?linkReplies,
    ?frameBad⟩
  case unmapped =>
    intro s f x hc hg hop hx hh hw hf he hn
    refine exec_windowRequests ?_
    rw [Hub.targetRx_runs hc hg hop hx hh hw hf he, x.matched_unmapped f hn, Hub.targetRun_unmapped]
  case behind =>
    intro s f x hc hg hop hx hh
    exact exec_windowRequests (Hub.targetRx_behind hc hg hop hx hh)
  case malformed =>
    rintro s f x hb rfl
    exact exec_windowRequests (s.hub.targetRx_malformed f false hb)
  case matched => exact Hub.matched_of_targetWin
  case refused =>
    rintro s f x m w st ex g a hc hg hop hx hh hw hf he hm rfl hs hin hst rfl hex hguard hno
    refine exec_windowRequests ?_
    rw [Hub.targetRx_runs hc hg hop hx hh hw hf he, hm, Hub.targetRun_area hs false hin hst hex hguard, hno, if_neg (by decide)]
  case write =>
    rintro s f x m w st ex g a hc hg hop hx hh hw hf he hm rfl hs hin hst rfl hex hguard hyes h1
    rw [exec_windowWriteRx, Hub.targetRx_runs hc hg hop hx hh hw hf he, hm, Hub.targetRun_area hs false hin hst hex hguard, hyes, if_pos rfl,
      Hub.perform_areaWrite hs st ex false (by omega) rfl rfl, if_neg (by omega)]
  case writeNp =>
    rintro s f x m w st ex g a hc hg hop hx hh hw hf he hm rfl hs hin hst rfl hex hguard hyes h2
    rw [exec_windowWriteNpRx, Hub.targetRx_runs hc hg hop hx hh hw hf he, hm, Hub.targetRun_area hs false hin hst hex hguard, hyes, if_pos rfl,
      Hub.perform_areaWrite hs st ex false (by omega) rfl rfl, if_pos h2]
  case read =>
    rintro s f x m w st ex g a hc hg hop hx hh hw hf he hm rfl hs hin hst rfl hex hguard hyes h3
    rw [exec_windowReadRx, Hub.targetRx_runs hc hg hop hx hh hw hf he, hm, Hub.targetRun_area hs false hin hst hex hguard, hyes, if_pos rfl,
      Hub.perform_areaRead hs st ex h3]
  case poisoned => exact Hub.perform_poisoned
  case linkFails =>
    intro s id st d t x ht hx hst
    rw [exec_targetCompletion, Hub.targetDone_fails ht hx st d _ hst rfl]
  case linkWrites =>
    intro s id d t x ht hx hop
    rw [exec_targetCompletion, Hub.targetDone_write ht hx d hop]
  case linkReplies =>
    intro s id d t x y ht hx hop hy
    rw [exec_targetCompletion, Hub.targetDone_replies ht hx d y hop hy]
  case frameBad => exact fun s f => exec_windowFrameBad f s

end Sys2Proof.Machine
end

section
/-!
SUPPORT. Requests of the PCIe port: refused, served at BAR0, or cut at the apertures and offered to them (O34).
-/
namespace Sys2Proof.Machine

/-! ## Which part of the port serves a request (R34, R251) -/

@[simp] theorem Hub.linkPower_isEndpoint (h : Hub) (l1 : Bool) : (h.linkPower l1).isEndpoint = h.isEndpoint := rfl

/-- A port that does not work hears nothing. -/
theorem Hub.pcieRequest_dead (h : Hub) (q : PcieReq) (hw : h.works 6 = false) : h.pcieRequest q = h := by
  simp [Hub.pcieRequest, hw]

section Served
variable {h : Hub} {q : PcieReq} (hw : h.works 6 = true) (hf : h.strapFault = false)
include hw hf

/-- I/O and locked requests are not supported. -/
theorem Hub.pcieRequest_other (hk : q.kind = .other) : h.pcieRequest q = (h.linkPower false).out (.completion q.tag 2 []) := by
  simp [Hub.pcieRequest, hw, hf, hk]

theorem Hub.pcieRequest_bar0 (hk : q.kind = .read ∨ q.kind = .write) (he : h.isEndpoint = true) (hb : q.bar < 2) :
    h.pcieRequest q = (h.linkPower false).barRegister q := by
  rcases hk with hk | hk <;> simp [Hub.pcieRequest, hw, hf, hk, he, hb]

theorem Hub.pcieRequest_rootPort (hk : q.kind = .read) (he : (h.linkPower false).isEndpoint = false) :
    h.pcieRequest q = (h.linkPower false).inbound q := by
  have he : h.isEndpoint = false := he
  simp [Hub.pcieRequest, hw, hf, hk, he]

end Served

theorem Hub.barRegister_read (h : Hub) (q : PcieReq) (hk : q.kind = .read) (hl : q.len = 4) (ha : q.addr % 4 = 0) :
    h.barRegister q = (h.reach.readRegister q.addr).2.out (.completion q.tag 0 (leBytes 4 (h.reach.readRegister q.addr).1)) := by
  simp [Hub.barRegister, hk, hl, ha]

theorem Hub.barRegister_write (h : Hub) (q : PcieReq) (hk : q.kind = .write) (hl : q.data.length = 4) (ha : q.addr % 4 = 0)
    (hn : q.lanes = []) : h.barRegister q = h.reach.writeRegister q.addr (leNat q.data) := by
  simp [Hub.barRegister, hk, hl, ha, hn]

/-! ## Reads meet the apertures (R257) -/

/-- A read that lies whole in one aperture, or whole outside all of them, is one part: it is offered, or refused. -/
theorem Hub.inbound_onePart (h x : Hub) (q : PcieReq) (a n : Nat) (ap : Option Nat) (p : Piece) (hk : q.kind = .read)
    (hcut : cutApertures (h.wins true) 130 q.addr (max 1 q.len) = [(a, n, ap)])
    (hx : x = h.modBr (fun b => { b with nextId := h.br.nextId + 1, reads := b.reads ++ [⟨h.br.nextId, q.tag, 0, [none]⟩] }))
    (hp : p = ⟨ap.getD 64, false, a, n, [], h.br.nextId, 0, x.matchOf (ap.getD 64)⟩) :
    h.inbound q = if ap.isSome then x.offerPiece p else x.refusePart p := by
  subst hp hx
  cases ap <;> simp [Hub.inbound, hk, hcut, nth]

/-- A part of a read that no aperture takes ends Unsupported Request and counts. -/
theorem Hub.refusePart_read (h : Hub) (p : Piece) (hp : p.write = false) :
    h.refusePart p = (h.bump P.BR_NO_WINDOW 0).answerPart p (2, []) := by
  simp [Hub.refusePart, hp]

/-! ## A posted write through an aperture (R261, R265) -/

section Posted
variable {h : Hub} {p : Piece}

/-- A posted write waits only behind a WRITE_NP of its aperture. -/
theorem Hub.pieceHolds_postedWrite (w : Window) (hn : h.npWaits p.ap = false) (hw : w.posted = true) (hp : p.write = true) :
    h.pieceHolds w p = false := by
  simp [Hub.pieceHolds, hn, hw, hp]

theorem Hub.offerPiece_free (hh : h.br.held = []) (hn : h.pieceHolds p.seen.window p = false) : h.offerPiece p = h.servePiece p := by
  simp [Hub.offerPiece, hh, hn]

theorem Hub.servePiece_tunnel (hv : p.seen.window.valid = true) (ha : p.seen.window.isAp = true) (hs : p.seen.window.sel = 0) :
    h.servePiece p = h.tunnelPiece p.seen.window p := by
  simp [Hub.servePiece, hv, ha, hs]

/-- A posted write to a valid two-way WINDOW tunnel leaves as a WRITE, and voids what was read ahead through its aperture (R268). -/
theorem Hub.tunnelPiece_postedWrite (w : Window) (hw : w.posted = true) (hp : p.write = true) (ht : w.tunnel < 1024)
    (hv : (h.tun w.tunnel).valid = true) (hy : (h.tun w.tunnel).type = tWindow) (hd : (h.tun w.tunnel).dir = .both) :
    h.tunnelPiece w p = (h.forgetAhead p.ap).frameSend 3 w.tunnel false (windowFrame 1 0 0 p.len 0 (w.trans + (p.addr - w.base)) 0 0 p.data)
      p.len := by
  simp [Hub.tunnelPiece, hw, hp, ht, hv, hy, hd]

end Posted

/-! ## The command of the port -/

theorem exec_apertureRequest (q : PcieReq) (s : State) : exec (.apertureRequest q) s = .next (s.after (s.hub.pcieRequest q)) := rfl

/-- Settles O34: which part of the port serves the request, then what that part does with it. -/
theorem apertureRequestsCross : Obligations.ApertureRequestsCross := by
  unfold Obligations.ApertureRequestsCross
  refine ⟨?dead, ?other, ?registerRead, ?registerWrite, ?noAperture, ?oneAperture, ?postedWrite⟩
  case dead =>
    intro s q hw
    rw [exec_apertureRequest, Hub.pcieRequest_dead s.hub q hw]
  case other =>
    intro s q hw hf hk
    rw [exec_apertureRequest, Hub.pcieRequest_other hw hf hk]
  case registerRead =>
    intro s q hw hf hk he hb hl ha
    rw [exec_apertureRequest, Hub.pcieRequest_bar0 hw hf (.inl hk) he hb, Hub.barRegister_read _ q hk hl ha]
  case registerWrite =>
    intro s q hw hf hk he hb hl ha hn
    rw [exec_apertureRequest, Hub.pcieRequest_bar0 hw hf (.inr hk) he hb, Hub.barRegister_write _ q hk hl ha hn]
  case noAperture =>
    rintro s q a n x y hw hf hk rfl he hcut hx
    rw [exec_apertureRequest, Hub.pcieRequest_rootPort hw hf hk he, Hub.inbound_onePart _ x q a n none _ hk hcut hx rfl, Option.isSome_none,
      if_neg (by decide), Hub.refusePart_read _ _ rfl, Option.getD_none]
  case oneAperture =>
    rintro s q a n ap x y hw hf hk rfl he hcut hx
    rw [exec_apertureRequest, Hub.pcieRequest_rootPort hw hf hk he, Hub.inbound_onePart _ x q a n (some ap) _ hk hcut hx rfl, Option.isSome_some,
      if_pos rfl, Option.getD_some]
  case postedWrite =>
    rintro x p w e hheld hnp rfl hv ha hs hpo hp ht rfl hev hey hed
    rw [Hub.offerPiece_free hheld (Hub.pieceHolds_postedWrite _ hnp hpo hp), Hub.servePiece_tunnel hv ha hs,
      Hub.tunnelPiece_postedWrite _ hpo hp ht hev hey hed, Hub.forgetAhead]

end Sys2Proof.Machine
end

section
/-!
SUPPORT. Ethernet ports: a received frame checked, its PAUSE obeyed, its filter acted on and its tunnel found (O36).
-/
namespace Sys2Proof.Machine

/-! ## The checks, in their order (R281) -/

section Checks
variable {h x : Hub} {p : Nat} {f : EthFrame} (hx : x = h.untilLine f.time)
include hx

/-- A port whose link is down, or whose island does not work, hears nothing. -/
theorem Hub.ethRx_deaf (hd : (x.ethp p).up = false ∨ x.works 7 = false) : h.ethRx p f = x := by
  subst hx
  rcases hd with hu | hw
  · simp only [Hub.ethRx, hu, Bool.not_false, Bool.true_or, if_true]
  · simp only [Hub.ethRx, hw, Bool.not_false, Bool.or_true, if_true]

variable (hu : (x.ethp p).up = true) (hw : x.works 7 = true)
include hu hw

theorem Hub.ethRx_phyError (hp : f.phyOk = false) : h.ethRx p f = x.bump P.EN_RX_ERR p := by
  subst hx
  simp only [Hub.ethRx, hu, hw, hp, Bool.not_true, Bool.not_false, Bool.or_self, Bool.false_eq_true, if_false, if_true]

variable (hp : f.phyOk = true)
include hp

theorem Hub.ethRx_runt (hl : f.bytes.length < 64) : h.ethRx p f = x.bump P.EN_RX_RUNT p := by
  subst hx
  simp only [Hub.ethRx, hu, hw, hp, hl, Bool.not_true, Bool.or_self, Bool.false_eq_true, if_false, if_true]

variable (hl : 64 ≤ f.bytes.length)
include hl

theorem Hub.ethRx_oversize (hm : x.pget P.EN_MAX_FRAME p < f.bytes.length) : h.ethRx p f = x.bump P.EN_RX_OVERSIZE p := by
  subst hx
  simp only [Hub.ethRx, hu, hw, hp, Nat.not_lt.mpr hl, hm, Bool.not_true, Bool.or_self, Bool.false_eq_true, if_false, if_true]

variable (hm : f.bytes.length ≤ x.pget P.EN_MAX_FRAME p)
include hm

theorem Hub.ethRx_badFcs (hf : fcsGood f.bytes = false) : h.ethRx p f = x.bump P.EN_RX_FCS p := by
  subst hx
  simp only [Hub.ethRx, hu, hw, hp, Nat.not_lt.mpr hl, Nat.not_lt.mpr hm, hf, Bool.not_true, Bool.not_false, Bool.or_self,
    Bool.false_eq_true, if_false, if_true]

variable (hf : fcsGood f.bytes = true)
include hf

/-- A MAC Control frame is consumed; the transmit FIFO leaves unless the port is now paused. -/
theorem Hub.ethRx_macControl (ht : be f.bytes 12 2 = 0x8808) :
    h.ethRx p f = if ((x.macControl p f.bytes).ethp p).paused.isNone then (x.macControl p f.bytes).ethDrain p else x.macControl p f.bytes := by
  subst hx
  simp only [Hub.ethRx, hu, hw, hp, Nat.not_lt.mpr hl, Nat.not_lt.mpr hm, hf, ht, Bool.not_true, Bool.or_self, Bool.false_eq_true,
    if_false, if_true]

variable (ht : be f.bytes 12 2 ≠ 0x8808) {y : Hub} (hy : y = (x.bump P.EN_RX_FRAMES p).bumpBy P.EN_RX_BYTES p f.bytes.length)
include ht hy

/-- A counted frame that no filter matches goes to the mapping. -/
theorem Hub.ethRx_unfiltered (hn : y.filtersOf p f.bytes = []) : h.ethRx p f = y.ethMap p f.bytes false := by
  subst hx hy
  simp only [Hub.ethRx, hu, hw, hp, Nat.not_lt.mpr hl, Nat.not_lt.mpr hm, hf, ht, hn, List.any_nil, Bool.not_true, Bool.or_self,
    Bool.false_eq_true, if_false]

/-- Of the matching filters the first acts, and any of them can consume the frame (R287). -/
theorem Hub.ethRx_filtered {i v : Nat} {fs : List (Nat × Nat)} (hs : y.filtersOf p f.bytes = (i, v) :: fs) :
    h.ethRx p f = (y.filterAct i v f.bytes f.time).ethMap p f.bytes (((i, v) :: fs).any (fun e => bit e.2 30)) := by
  subst hx hy
  simp only [Hub.ethRx, hu, hw, hp, Nat.not_lt.mpr hl, Nat.not_lt.mpr hm, hf, ht, hs, Bool.not_true, Bool.or_self,
    Bool.false_eq_true, if_false]

end Checks

/-! ## PAUSE from the link partner (R286) -/

theorem Hub.ethp_modEth_same (h : Hub) (p : Nat) (f : EthPort → EthPort) (hp : p < h.eth.length) : (h.modEth p f).ethp p = f (h.ethp p) :=
  nth_modAt_same h.eth p f EthPort.reset hp

/-- A PAUSE frame with quanta holds the transmission of a port that honours it. -/
theorem Hub.macControl_holds {h y : Hub} {p : Nat} {b : List Byte} (hop : be b 14 2 = 1) (hy : y = h.bump P.EN_RX_PAUSE p)
    (he : bit (y.pget P.EN_PAUSE p) 0 = true) (hq : be b 16 2 ≠ 0) :
    h.macControl p b = y.modEth p (fun e => { e with paused := some (y.clk.up + quantaTime e.mode (be b 16 2)) }) := by
  subst hy
  simp only [Hub.macControl, hop, he, hq, decide_true, Bool.and_self, if_true, if_false]

/-! ## The mapping (R282, R284) -/

section Mapping
variable {h : Hub} {p : Nat} {b : List Byte}

theorem Hub.ethMap_noEntry (c : Bool) (hv : h.vlanMap p (h.ethVid p b) = none) : h.ethMap p b c = h.bump P.EN_RX_NOMAP p := by
  simp only [Hub.ethMap, hv]

variable {i : Nat}

/-- A consumed frame goes no further than its mapping entry. -/
theorem Hub.ethMap_consumed {on : Bool} (hv : h.vlanMap p (h.ethVid p b) = some (i, on)) : h.ethMap p b true = h := by
  simp only [Hub.ethMap, hv, Bool.or_true, if_true]

variable (hv : h.vlanMap p (h.ethVid p b) = some (i, true)) (ha : (h.tun i).valid = true) (hs : (h.tun i).dir.sends = true)
  (ht : (h.tun i).type = tEthernet)
include hv ha hs ht

theorem Hub.ethMap_full (hf : ethRxSize < (h.ethp p).occupancy + b.length) : h.ethMap p b false = h.bump P.EN_RX_FULL p := by
  simp only [Hub.ethMap, hv, ha, hs, ht, hf, decide_true, Bool.and_self, Bool.not_true, Bool.or_self, Bool.false_eq_true, if_false, if_true]

theorem Hub.ethMap_held (hf : (h.ethp p).occupancy + b.length ≤ ethRxSize) :
    h.ethMap p b false = h.modEth p (fun q => { q with rx := q.rx ++ [⟨i, b, false⟩] }) := by
  simp only [Hub.ethMap, hv, ha, hs, ht, Nat.not_lt.mpr hf, decide_true, Bool.and_self, Bool.not_true, Bool.or_self, Bool.false_eq_true,
    if_false]

end Mapping

/-! ## The command -/

theorem exec_ethFrameRx (p : Nat) (f : EthFrame) (s : State) : exec (.ethFrameRx p f) s = .next (s.after (s.hub.ethRx p f)) := rfl

/-- Settles O36: the check that decides the frame's outcome, then for a good one its PAUSE, its filters and its mapping. -/
theorem ethernetFramesEnter : Obligations.EthernetFramesEnter := by
  unfold Obligations.EthernetFramesEnter
  refine ⟨?deaf, ?phyError, ?runt, ?oversize, ?badFcs, ?pause, ?noEntry, ?held, ?full, ?consumed⟩
  case deaf =>
    intro s p f x hx hd
    rw [exec_ethFrameRx, Hub.ethRx_deaf hx hd]
  case phyError =>
    intro s p f x hx hu hw hp
    rw [exec_ethFrameRx, Hub.ethRx_phyError hx hu hw hp]
  case runt =>
    intro s p f x hx hu hw hp hl
    rw [exec_ethFrameRx, Hub.ethRx_runt hx hu hw hp hl]
  case oversize =>
    intro s p f x hx hu hw hp hl hm
    rw [exec_ethFrameRx, Hub.ethRx_oversize hx hu hw hp hl hm]
  case badFcs =>
    intro s p f x hx hu hw hp hl hm hf
    rw [exec_ethFrameRx, Hub.ethRx_badFcs hx hu hw hp hl hm hf]
  case pause =>
    intro s p f x y hx hu hw hp hl hm hf ht hop hy he hq hlen
    have paused : ((y.modEth p (fun e => { e with paused := some (y.clk.up + quantaTime e.mode (be f.bytes 16 2)) })).ethp p).paused.isNone
        = false := by
      rw [Hub.ethp_modEth_same y p _ hlen, Option.isNone_some]
    rw [exec_ethFrameRx, Hub.ethRx_macControl hx hu hw hp hl hm hf ht, Hub.macControl_holds hop hy he hq, paused, if_neg Bool.false_ne_true]
  case noEntry =>
    intro s p f x y hx hu hw hp hl hm hf ht hy hn hv
    rw [exec_ethFrameRx, Hub.ethRx_unfiltered hx hu hw hp hl hm hf ht hy hn, Hub.ethMap_noEntry false hv]
  case held =>
    intro s p f x y i hx hu hw hp hl hm hf ht hy hn hv ha hs htype hroom
    rw [exec_ethFrameRx, Hub.ethRx_unfiltered hx hu hw hp hl hm hf ht hy hn, Hub.ethMap_held hv ha hs htype hroom]
  case full =>
    intro s p f x y i hx hu hw hp hl hm hf ht hy hn hv ha hs htype hfull
    rw [exec_ethFrameRx, Hub.ethRx_unfiltered hx hu hw hp hl hm hf ht hy hn, Hub.ethMap_full hv ha hs htype hfull]
  case consumed =>
    intro s p f x y i v t fs on hx hu hw hp hl hm hf ht hy hs hc hv
    rw [exec_ethFrameRx, Hub.ethRx_filtered hx hu hw hp hl hm hf ht hy hs, hc, Hub.ethMap_consumed hv]

end Sys2Proof.Machine
end

section
/-!
SUPPORT. The USB ports: messages that arrive, and the port commands and aborts among them (O38).
-/
namespace Sys2Proof.Machine

/-! ## A message arrives (R295, R305) -/

@[simp] theorem Hub.takeFrame_al (h : Hub) (b : Nat) (f : Frame) : (h.takeFrame b f).al = h.al := rfl

/-- A message for an I-USB that does not work is counted by the governor at level 3 alone (R192, R305). -/
theorem Hub.usbRx_gated {h : Hub} {f : Frame} (hw : h.works usbIsland = false) (hl : h.al.gov.level ≠ 3) :
    h.usbRx f = (h.takeFrame 5 f).bump P.US_MSG_ERR 0 := by
  simp only [Hub.usbRx, hw, Bool.not_false, if_true, Hub.usbRefuse, Hub.takeFrame_al, hl, if_false]

section Rx
variable {h y : Hub} {f : Frame} {p : Nat} (hw : h.works usbIsland = true) (hh : h.hostEntry f.entry = false)
include hw hh

theorem Hub.usbRx_malformed (hb : f.control = true ∨ usbGood f.bytes = false) :
    h.usbRx f = (h.takeFrame 5 f).bump P.US_MSG_ERR 0 := by
  have bad : (f.control || !usbGood f.bytes) = true := by rcases hb with hb | hb <;> simp [hb]
  simp only [Hub.usbRx, hw, hh, bad, Bool.not_true, Bool.false_and, Bool.false_eq_true, if_false, if_true]

variable (hc : f.control = false) (hg : usbGood f.bytes = true) (hp : p = byteAt f.bytes 4)
  (hy : y = (h.takeFrame 5 f).modUsb p (fun u => { u with lastAt := (h.takeFrame 5 f).clk.up }))
include hc hg hp hy

theorem Hub.usbRx_transfer (hop : byteAt f.bytes 0 = 1) : h.usbRx f = y.usbTransfer f := by
  subst hy hp
  simp only [Hub.usbRx, hw, hh, hc, hg, hop, Bool.not_true, Bool.false_and, Bool.or_self, Bool.false_eq_true, if_false, if_true]

theorem Hub.usbRx_denied (hop : byteAt f.bytes 0 ≠ 1) (ha : y.usbAllowed f = false) : h.usbRx f = y.portReply f 10 := by
  subst hy hp
  simp only [Hub.usbRx, hw, hh, hc, hg, hop, ha, Bool.not_true, Bool.not_false, Bool.false_and, Bool.or_self, Bool.false_eq_true, if_false,
    if_true]

variable (ha : y.usbAllowed f = true)
include ha

theorem Hub.usbRx_abort (hop : byteAt f.bytes 0 = 6) :
    h.usbRx f = ((y.endXfers p 7 (fun x => byteAt f.bytes 5 == 0xFF || x.ep == byteAt f.bytes 5)).portReply f 0).startXfers p := by
  subst hy hp
  simp [Hub.usbRx, hw, hh, hc, hg, hop, ha]

/-- A PORT_CMD acts by its code, and its reply has the status that came of it (R297). -/
theorem Hub.usbRx_command (hop : byteAt f.bytes 0 = 3) :
    h.usbRx f = (y.portCmd p (byteAt f.bytes 6)).1.portReply f (y.portCmd p (byteAt f.bytes 6)).2 := by
  subst hy hp
  simp [Hub.usbRx, hw, hh, hc, hg, hop, ha]

end Rx

/-! ## The port commands (R297, R301, R302) -/

theorem Hub.portCmd_powerOn_own {h : Hub} {p : Nat} (hp : 4 ≤ p) (hm : h.pget P.US_OC_MODE 0 ≠ 1) :
    h.portCmd p 1 = ((h.modUsb p (fun u => { u with power := true, oc := false })).out (.usb p "POWER_ON" []), 0) := by
  simp [Hub.portCmd, Hub.powerOnPort, Nat.not_lt.mpr hp, hm]

theorem Hub.portCmd_powerOn_latched {h : Hub} {p : Nat} (hp : p < 4) (hl : (h.fuse (p + 1)).state = .latched) :
    h.portCmd p 1 = (h, 6) := by
  simp [Hub.portCmd, Hub.powerOnPort, hp, hl]

theorem Hub.portCmd_powerOff (h : Hub) (p : Nat) : h.portCmd p 2 = (h.powerOffPort p 7, 0) := rfl

section Reset
variable {h z : Hub} {p : Nat} (hz : z = h.endXfers p 7 (fun _ => true))
include hz

theorem Hub.portCmd_reset_live (hs : (z.usbp p).speed ≠ 0) (hp : z.usbPowered p = true) (hv : z.usbServes p = true) :
    h.portCmd p 3 = ((z.modUsb p (fun u =>
      { u with addressed := true, polls := [], suspended := false, byCommand := false, resume := none })).out (.usb p "RESET" [byte (p + 1)]), 0) := by
  subst hz
  simp [Hub.portCmd, Hub.resetPort, hs, hp, hv]

theorem Hub.portCmd_reset_noDevice (hs : (z.usbp p).speed = 0) : h.portCmd p 3 = (z, 8) := by
  subst hz
  simp [Hub.portCmd, Hub.resetPort, hs]

end Reset

section Live
variable {h : Hub} {p : Nat}

/-- SUSPEND and RESUME find no device on a port whose device is not addressed. -/
theorem Hub.portCmd_unaddressed {cmd : Nat} (hc : cmd = 4 ∨ cmd = 5) (ha : (h.usbp p).addressed = false) : h.portCmd p cmd = (h, 8) := by
  rcases hc with rfl | rfl <;> simp [Hub.portCmd, ha]

variable (ha : (h.usbp p).addressed = true) (hp : h.usbPowered p = true) (hv : h.usbServes p = true)
include ha hp hv

theorem Hub.portCmd_suspend : h.portCmd p 4 = (h.suspendPort p true, 0) := by
  simp [Hub.portCmd, ha, hp, hv]

theorem Hub.portCmd_resume (hs : (h.usbp p).suspended = true) : h.portCmd p 5 = (h.hubResume p, 0) := by
  simp [Hub.portCmd, ha, hp, hv, hs]

end Live

/-- Where no resume signalling stands the hub's resume begins it. -/
theorem Hub.hubResume_begins {h : Hub} {p : Nat} (hr : (h.usbp p).resume = none) :
    h.hubResume p = (h.modUsb p (fun u => { u with resume := some h.clk.up })).out (.usb p "RESUME" []) := by
  simp [Hub.hubResume, Hub.resumePort, hr]

/-! ## The commands -/

theorem exec_powerOn (f : Frame) (s : State) : exec (.powerOn f) s = .next (s.after (s.hub.usbRx f)) := rfl

theorem exec_powerOff (f : Frame) (s : State) : exec (.powerOff f) s = .next (s.after (s.hub.usbRx f)) := rfl

theorem exec_reset (f : Frame) (s : State) : exec (.reset f) s = .next (s.after (s.hub.usbRx f)) := rfl

theorem exec_suspend (f : Frame) (s : State) : exec (.suspend f) s = .next (s.after (s.hub.usbRx f)) := rfl

theorem exec_resume (f : Frame) (s : State) : exec (.resume f) s = .next (s.after (s.hub.usbRx f)) := rfl

theorem exec_status (f : Frame) (s : State) : exec (.status f) s = .next (s.after (s.hub.usbRx f)) := rfl

theorem exec_abort (f : Frame) (s : State) : exec (.abort f) s = .next (s.after (s.hub.usbRx f)) := rfl

theorem exec_usbMsgBad (f : Frame) (s : State) : exec (.usbMsgBad f) s = .next (s.after (s.hub.usbRx f)) := rfl

/-- Settles O38, each clause from what the message's arrival and its port command do. -/
theorem portCommandsMoveUsbPorts : Obligations.PortCommandsMoveUsbPorts := by
  unfold Obligations.PortCommandsMoveUsbPorts
  refine ⟨?powerOn, ?latched, ?powerOff, ?reset, ?resetGone, ?suspend, ?resume, ?unaddressed, ?status, ?abort, ?denied, ?bad, ?gated⟩
  case powerOn =>
    intro s f p y hw hh hc hg hp hy ha hop hcmd h4 hm
    rw [exec_powerOn, Hub.usbRx_command hw hh hc hg hp hy ha hop, hcmd, Hub.portCmd_powerOn_own h4 hm]
  case latched =>
    intro s f p y hw hh hc hg hp hy ha hop hcmd h4 hl
    rw [exec_powerOn, Hub.usbRx_command hw hh hc hg hp hy ha hop, hcmd, Hub.portCmd_powerOn_latched h4 hl]
  case powerOff =>
    intro s f p y hw hh hc hg hp hy ha hop hcmd
    rw [exec_powerOff, Hub.usbRx_command hw hh hc hg hp hy ha hop, hcmd, Hub.portCmd_powerOff]
  case reset =>
    intro s f p y z hw hh hc hg hp hy ha hop hcmd hz hs hpow hv
    rw [exec_reset, Hub.usbRx_command hw hh hc hg hp hy ha hop, hcmd, Hub.portCmd_reset_live hz hs hpow hv]
  case resetGone =>
    intro s f p y z hw hh hc hg hp hy ha hop hcmd hz hs
    rw [exec_reset, Hub.usbRx_command hw hh hc hg hp hy ha hop, hcmd, Hub.portCmd_reset_noDevice hz hs]
  case suspend =>
    intro s f p y hw hh hc hg hp hy ha hop hcmd had hpow hv
    rw [exec_suspend, Hub.usbRx_command hw hh hc hg hp hy ha hop, hcmd, Hub.portCmd_suspend had hpow hv, Hub.suspendPort]
  case resume =>
    intro s f p y hw hh hc hg hp hy ha hop hcmd had hpow hv hs hr
    rw [exec_resume, Hub.usbRx_command hw hh hc hg hp hy ha hop, hcmd, Hub.portCmd_resume had hpow hv hs, Hub.hubResume_begins hr]
  case unaddressed =>
    intro s f p y hw hh hc hg hp hy ha hop hcmd had
    rw [exec_suspend, exec_resume, Hub.usbRx_command hw hh hc hg hp hy ha hop, Hub.portCmd_unaddressed hcmd had]
    exact ⟨rfl, rfl⟩
  case status =>
    intro s f p y hw hh hc hg hp hy ha hop hcmd
    rw [exec_status, Hub.usbRx_command hw hh hc hg hp hy ha hop, hcmd]
    rfl
  case abort =>
    intro s f p y hw hh hc hg hp hy ha hop
    rw [exec_abort, Hub.usbRx_abort hw hh hc hg hp hy ha hop]
  case denied =>
    intro s f p y hw hh hc hg hp hy ha hop
    rw [exec_powerOn, exec_powerOff, exec_reset, exec_suspend, exec_resume, exec_status, exec_abort,
      Hub.usbRx_denied hw hh hc hg hp hy hop ha]
    exact ⟨rfl, rfl, rfl, rfl, rfl, rfl, rfl⟩
  case bad =>
    intro s f hw hh hb
    rw [exec_usbMsgBad, Hub.usbRx_malformed hw hh hb]
  case gated =>
    intro s f hw hl
    rw [exec_usbMsgBad, Hub.usbRx_gated hw hl]

end Sys2Proof.Machine
end

section
/-!
SUPPORT. The USB transfers: begun and ended, the reports of polled bindings, and the head's request ring (O39).
-/
namespace Sys2Proof.Machine

/-! ## A TRANSFER begins (R295, R299, R302) -/

/-- The transfer that a TRANSFER message asks for. -/
def xferOf (f : Frame) : Xfer :=
  ⟨f.entry, be f.bytes 2 2, byteAt f.bytes 5, byteAt f.bytes 6, byteAt f.bytes 1, be f.bytes 8 4, slice f.bytes 12 12, f.bytes.drop 32, false⟩

section Begin
variable {h : Hub} {f : Frame} {p : Nat} (hp : p = byteAt f.bytes 4)
include hp

theorem Hub.usbTransfer_refused {st : Nat} (hr : h.xferRefusal f = some st) : h.usbTransfer f = h.complete p (xferOf f) st 0 [] := by
  subst hp
  simp only [Hub.usbTransfer, hr, xferOf]

variable {z : Hub} (hr : h.xferRefusal f = none) (hz : z = h.modUsb p (fun u => { u with xfers := u.xfers ++ [xferOf f] }))
include hr hz

theorem Hub.usbTransfer_starts (hs : (z.usbp p).suspended = false) : h.usbTransfer f = z.startXfers p := by
  subst hp hz
  unfold xferOf at hs ⊢
  simp only [Hub.usbTransfer, hr, hs, Bool.false_eq_true, if_false]

/-- A transfer of a suspended port resumes it first (R302). -/
theorem Hub.usbTransfer_resumes (hs : (z.usbp p).suspended = true) : h.usbTransfer f = z.hubResume p := by
  subst hp hz
  unfold xferOf at hs ⊢
  simp only [Hub.usbTransfer, hr, hs, if_true]

end Begin

/-! ## A transfer ends (R296) -/

section Done
variable {h y : Hub} {p ep : Nat} {x : Xfer} (d : List Byte)
  (hf : (h.usbp p).xfers.find? (fun x => x.ep == ep && x.started) = some x) (hy : y = h.modUsb p (fun u => { u with xfers := u.xfers.erase x }))
include hf hy

/-- A good IN transfer within its length is OK, or SHORT when it is below it and SHORT_OK is not set. -/
theorem Hub.usbDone_in (hi : bit x.ep 7 = true) (hx : x.xtype ≠ 1) (hl : d.length ≤ x.len) :
    h.usbDone p ep 0 d =
      (y.complete p x (if d.length < x.len && !bit x.flags 0 then 2 else 0) d.length (d.take x.len)).startXfers p := by
  subst hy
  simp [Hub.usbDone, hf, hi, hx, Nat.not_lt.mpr hl, Nat.min_eq_left hl]

theorem Hub.usbDone_out (ho : bit x.ep 7 = false) : h.usbDone p ep 0 d = (y.complete p x 0 x.len []).startXfers p := by
  subst hy
  simp [Hub.usbDone, hf, ho]

end Done

/-! ## Bindings (R303) -/

theorem Hub.bindingPoll_polls {h : Hub} {i v : Nat} (hv : v = h.tget 0x40 i) (hp : h.polls v = true) :
    h.bindingPoll i =
      ((h.endPoll i).modUsb (bindPort v) (fun u => { u with polls := u.polls ++ [(i, v)] })).out (.usb (bindPort v) "POLL" [byte (bindEp v)]) := by
  subst hv
  simp only [Hub.bindingPoll, hp, if_true]

theorem Hub.bindingPoll_idle {h : Hub} {i : Nat} (hp : h.polls (h.tget 0x40 i) = false) : h.bindingPoll i = h := by
  simp only [Hub.bindingPoll, hp, Bool.false_eq_true, if_false]

section Report
variable {h x : Hub} {i v : Nat} {b : List Byte} (hv : v = h.pollOf i) (hp : h.polls v = true) (hx : x = h.endPoll i)
  (hid : bit v 5 = false ∨ byteAt b 0 = bits v 24 8)
include hv hp hx hid

/-- A report that is long enough is an event of the decision engine; one that the binding keeps is no COMPLETION. -/
theorem Hub.usbReport_event (hl : bits v 32 16 + bits v 48 8 ≤ b.length) (hk : bit v 6 = true) :
    h.usbReport i b = x.pushEvent ⟨1, slice b (bits v 32 16) (bits v 48 8), x.clk.ns, 0, 1, x.ownId⟩ := by
  subst hv hx
  have wanted : (bit (h.pollOf i) 5 && decide (byteAt b 0 ≠ bits (h.pollOf i) 24 8)) = false := by rcases hid with e | e <;> simp [e]
  simp only [Hub.usbReport, hp, wanted, Nat.not_lt.mpr hl, hk, Bool.not_true, Bool.false_eq_true, if_false, if_true]

/-- A short report counts, and goes to the owning tunnel when the binding does not keep it. -/
theorem Hub.usbReport_short {t : Nat} (hl : b.length < bits v 32 16 + bits v 48 8) (hk : bit v 6 = false)
    (ho : x.usbOwner (bindPort v) = some t) :
    h.usbReport i b = (x.bump P.US_BIND_SHORT i).usbSend t (usbMessage 2 8 0xFFFF (bindPort v) (128 + bindEp v) 3 0 b.length
      (List.replicate 8 0#8 ++ beBytes 4 (bits v 64 11 * 65536 + bits v 56 8)) x.clk.ns b) := by
  subst hv hx
  have wanted : (bit (h.pollOf i) 5 && decide (byteAt b 0 ≠ bits (h.pollOf i) 24 8)) = false := by rcases hid with e | e <;> simp [e]
  simp only [Hub.usbReport, hp, wanted, hl, hk, ho, Bool.not_true, Bool.false_eq_true, if_false, if_true]

end Report

/-! ## The host ring (R300) -/

theorem Hub.ringPoll_takes {h : Hub} (hh : h.isHead = true) (ho : h.pget P.US_RING_ORDER 0 ≠ 0) (hw : h.works usbIsland = true) :
    h.ringPoll = Hub.hostTakeN (min h.hostRing.2 ((h.ringIndex 0 + 2 ^ 32 - h.ringIndex 4) % 2 ^ 32)) h := by
  simp only [Hub.ringPoll, hh, ho, hw, Bool.not_true, decide_false, Bool.or_self, Bool.false_eq_true, if_false]

theorem Hub.ringPoll_noRing {h : Hub} (hn : h.isHead = false ∨ h.pget P.US_RING_ORDER 0 = 0) : h.ringPoll = h := by
  have none : (!h.isHead || decide (h.pget P.US_RING_ORDER 0 = 0) || !h.works usbIsland) = true := by rcases hn with e | e <;> simp [e]
  simp only [Hub.ringPoll, none, if_true]

/-! ## The commands -/

theorem exec_transfer (f : Frame) (s : State) : exec (.transfer f) s = .next (s.after (s.hub.usbRx f)) := rfl

theorem exec_usbTransferComplete (p ep result : Nat) (d : List Byte) (s : State) :
    exec (.usbTransferComplete p ep result d) s = .next (s.after (s.hub.usbDone p ep result d)) := rfl

theorem exec_bindingPoll (i : Nat) (s : State) : exec (.bindingPoll i) s = .next (s.after (s.hub.bindingPoll i)) := rfl

theorem exec_usbReport (i : Nat) (b : List Byte) (s : State) : exec (.usbReport i b) s = .next (s.after (s.hub.usbReport i b)) := rfl

theorem exec_usRingPoll (s : State) : exec .usRingPoll s = .next (s.after s.hub.ringPoll) := rfl

/-- Settles O39, each clause from the lemma on the transfer, the binding or the ring it speaks of. -/
theorem transfersRunAndEnd : Obligations.TransfersRunAndEnd := by
  unfold Obligations.TransfersRunAndEnd
  refine ⟨?refused, ?starts, ?resumes, ?doneIn, ?doneOut, ?poll, ?noPoll, ?report, ?short, ?ring, ?noRing⟩
  case refused =>
    rintro s f p y x st hw hh hc hg hp hy hop rfl hr
    rw [exec_transfer, Hub.usbRx_transfer hw hh hc hg hp hy hop, Hub.usbTransfer_refused hp hr, xferOf]
  case starts =>
    rintro s f p y x z hw hh hc hg hp hy hop rfl hr hz hs
    rw [exec_transfer, Hub.usbRx_transfer hw hh hc hg hp hy hop, Hub.usbTransfer_starts hp hr hz hs]
  case resumes =>
    rintro s f p y x z hw hh hc hg hp hy hop rfl hr hz hs hn
    rw [exec_transfer, Hub.usbRx_transfer hw hh hc hg hp hy hop, Hub.usbTransfer_resumes hp hr hz hs, Hub.hubResume_begins hn]
  case doneIn =>
    rintro s p ep got d x y hf hy hi hx rfl hl
    rw [exec_usbTransferComplete, Hub.usbDone_in d hf hy hi hx hl]
  case doneOut =>
    intro s p ep d x y hf hy ho
    rw [exec_usbTransferComplete, Hub.usbDone_out d hf hy ho]
  case poll =>
    intro s i v hv hp
    rw [exec_bindingPoll, Hub.bindingPoll_polls hv hp]
  case noPoll =>
    intro s i hp
    rw [exec_bindingPoll, Hub.bindingPoll_idle hp]
  case report =>
    rintro s i v o n b x hv hp hx rfl rfl hid hl hk
    rw [exec_usbReport, Hub.usbReport_event hv hp hx hid hl hk]
  case short =>
    intro s i v t b x hv hp hx hid hl hk ho
    rw [exec_usbReport, Hub.usbReport_short hv hp hx hid hl hk ho]
  case ring =>
    rintro s n hh ho hw rfl
    rw [exec_usRingPoll, Hub.ringPoll_takes hh ho hw, Hub.hostRing]
  case noRing =>
    intro s hn
    rw [exec_usRingPoll, Hub.ringPoll_noRing hn]

end Sys2Proof.Machine
end

section
/-!
SUPPORT. The USB ports between transfers, the bus interval, and the service port (O40).
-/
namespace Sys2Proof.Machine

/-! ## Over-current, suspend, wake and attach (R301, R302, R309) -/

theorem Hub.usbOvercurrent_own {h : Hub} {p : Nat} (hw : h.works usbIsland = true) (hp : 4 ≤ p) (hm : h.pget P.US_OC_MODE 0 ≠ 1) :
    h.usbOvercurrent p = h.usbOc [p] p 0 0 := by
  simp only [Hub.usbOvercurrent, hw, Nat.not_lt.mpr hp, hm, decide_false, Bool.not_false, Bool.not_true, Bool.false_eq_true, if_false, if_true]

theorem Hub.usbOvercurrent_ganged {h : Hub} (hw : h.works usbIsland = true) (hm : h.pget P.US_OC_MODE 0 = 1) :
    h.usbOvercurrent 4 = h.usbOc [4, 5, 6, 7] 4 0 1 := by
  simp [Hub.usbOvercurrent, hw, hm]

theorem Hub.usbIdle_suspends {h : Hub} {p : Nat} (ht : h.idleTime ≠ 0) (hw : h.works usbIsland = true) (hs : (h.usbp p).speed ≠ 0)
    (hp : h.usbPowered p = true) (hn : (h.usbp p).suspended = false) (hx : (h.usbp p).xfers = [])
    (hb : h.bindings.any (fun e => bindPort e.2 == p) = false) :
    h.usbIdle p = ((h.until ((h.usbp p).lastAt + ms h.idleTime)).suspendPort p false).portEvent p 5 0 := by
  simp only [Hub.usbIdle, ht, hw, hs, hp, hn, hx, hb, List.isEmpty_nil, decide_false, Bool.not_true, Bool.or_self, Bool.false_eq_true, if_false]

section Wake
variable {h : Hub} {p : Nat} (hw : h.works usbIsland = true) (hs : (h.usbp p).suspended = true)
include hw hs

theorem Hub.usbWake_begins (hr : (h.usbp p).resume = none) :
    h.usbWake p = (((h.resumePort p).modUsb p (fun u => { u with woken := true })).portEvent p 3 0).event .usbRemoteWake
      [(0, 1, p), (1, 1, 0)] := by
  simp [Hub.usbWake, Hub.resuming, hw, hs, hr, b2n]

/-- A wake within the 20 ms of resume signalling is coincident with it. -/
theorem Hub.usbWake_joins {t : Nat} (hr : (h.usbp p).resume = some t) (ht : h.clk.up < t + ms 20) :
    h.usbWake p = ((h.modUsb p (fun u => { u with coincident := true })).portEvent p 3 4).event .usbRemoteWake [(0, 1, p), (1, 1, 1)] := by
  simp [Hub.usbWake, Hub.resuming, hw, hs, hr, ht, b2n]

end Wake

theorem Hub.resumeEnd_runs {h x : Hub} {p t : Nat} (hr : (h.usbp p).resume = some t)
    (hx : x = if 4 ≤ (h.usbp p).speed then h else h.until (t + ms 30)) :
    h.resumeEnd p = ((x.modUsb p (fun u =>
      { u with suspended := false, byCommand := false, woken := false, resume := none })).portEvent p 6 0).startXfers p := by
  subst hx
  simp only [Hub.resumeEnd, hr]

theorem Hub.usbAttach_attaches {h : Hub} {p v sp : Nat} (hw : h.works usbIsland = true) (hv : h.usbServes p = true)
    (hp : h.usbPowered p = true) (he : h.pget P.US_PORT_ENABLE p ≠ 0) (hs : (h.usbp p).speed = 0) (h1 : 1 ≤ v) (h5 : v ≤ 5)
    (hsp : sp = min v (h.usbTop p)) :
    h.usbAttach p true v =
      (((h.modUsb p (fun u => { u with speed := sp, addressed := false, polls := [], suspended := false })).portEvent p 1 0).raise
        (2 ^ intLink)).event .usbAttach [(0, 1, p), (1, 1, 1), (2, 1, sp)] := by
  subst hsp
  simp [Hub.usbAttach, hw, hv, hp, he, hs, Nat.ne_of_gt h1, Nat.not_lt.mpr h5]

theorem Hub.usbAttach_detaches {h : Hub} {p : Nat} (v : Nat) (hs : (h.usbp p).speed ≠ 0) :
    h.usbAttach p false v =
      ((((h.endXfers p 5 (fun _ => true)).modUsb p (fun u =>
        { u with speed := 0, addressed := false, polls := [], suspended := false, byCommand := false, resume := none })).portEvent p 2 0).raise
          (2 ^ intLink)).event .usbAttach [(0, 1, p), (1, 1, 0), (2, 1, 0)] := by
  simp only [Hub.usbAttach, Bool.not_false, if_true, Hub.usbDetach, hs, if_false]

/-- USB_PORT_CONTROL is a port command, and answers CONFLICT where a PORT_CMD would not be answered OK. -/
theorem Hub.usbPortControl_eq (h : Hub) (r : Request) :
    h.usbPortControl r = (Config.usbPortControl r.payload).elim (h, Reply.err .badParam) (fun x =>
      if 8 ≤ x.1 then (h, .err .range) else ((h.portCmd x.1 x.2).1, if (h.portCmd x.1 x.2).2 = 0 then .ok [] else .err .conflict)) := by
  simp only [Hub.usbPortControl]
  cases Config.usbPortControl r.payload <;> rfl

/-! ## The bus interval (R304, R305) -/

/-- Where the microframes do not follow line time, each has the trim that the mode holds. -/
theorem Hub.sof_unlocked {h : Hub} {start : Int} (hw : h.works usbIsland = true) (hm : h.pget P.US_SOF_MODE 0 ≠ 2)
    (hs : start = if h.usb.sofAt = 0 then (h.clk.up * 960 : Int) else h.usb.sofAt) :
    h.sof = (h.until ((start + (microLen + 125 * h.sofTrim)).toNat / 960)).modUsbc (fun u =>
      { u with micro := u.micro + 1, sofAt := (start + (microLen + 125 * h.sofTrim)).toNat, trim := h.sofTrim }) := by
  subst hs
  simp only [Hub.sof, hw, hm, Bool.not_true, decide_false, Bool.false_and, Bool.false_eq_true, if_false]

theorem Hub.sof_gated {h : Hub} (hw : h.works usbIsland = false) : h.sof = h := by
  simp only [Hub.sof, hw, Bool.not_false, if_true]

/-! ## The service port (R306 to R308) -/

theorem Hub.svcPulled_iff (h : Hub) :
    h.svcPulled = true ↔ h.pget P.US_SVC_ENABLE 0 = 1 ∧ h.usb.svc.vbus = true ∧ h.works usbIsland = true := by
  simp only [Hub.svcPulled, Bool.and_eq_true, decide_eq_true_eq, and_assoc]

section Attach
variable {h x : Hub} {b : SvcBus} (hx : x = h.modUsbc (fun u => { u with svc := b, woke := u.woke && b.suspended }))
include hx

theorem Hub.svcAttach_pulled (hp : x.svcPulled = true) : h.svcAttach b = { x with svcHost := true } := by
  subst hx
  simp only [Hub.svcAttach, hp, if_true]

theorem Hub.svcAttach_unpulled (hp : x.svcPulled = false) : h.svcAttach b = x := by
  subst hx
  simp only [Hub.svcAttach, hp, Bool.false_eq_true, if_false]

end Attach

section Host
variable {h : Hub} (hh : h.svcHost = true)
include hh

theorem Hub.svcMessage_taken (bs : List Byte) (hc : h.usb.svc.configured = true) (hs : h.usb.svc.suspended = false) :
    h.svcMessage bs = (h.place 3 bs 1024).examine 3 := by
  simp only [Hub.svcMessage, hh, hc, hs, Bool.not_false, Bool.and_self, if_true]

theorem Hub.svcRead_register {q : Setup} (hq : setupFor q 0xC0 1 = true) :
    h.svcRead q = (h.reach.readRegister q.index).2.out (.svc 0 (leBytes 4 (h.reach.readRegister q.index).1)) := by
  simp only [Hub.svcRead, hh, hq, Bool.not_true, Bool.false_eq_true, if_false, if_true]

theorem Hub.svcRead_descriptor {q : Setup} {d : List Byte} (ht : q.type = 0x80) (hr : q.request = 6) (hv : q.value % 256 = 0)
    (hd : svcDescriptor (q.value / 256) = some d) : h.svcRead q = h.out (.svc 0 (d.take q.length)) := by
  have other : setupFor q 0xC0 1 = false := by simp [setupFor, ht]
  simp [Hub.svcRead, hh, other, ht, hr, hv, hd]

theorem Hub.svcRead_stalls {q : Setup} (hq : setupFor q 0xC0 1 = false) (ht : q.type ≠ 0x80) : h.svcRead q = h.out (.usb 8 "SVC_STALL" []) := by
  simp [Hub.svcRead, hh, hq, ht, Hub.svcStall]

theorem Hub.svcWrite_register {q : Setup} (v : Nat) (hq : setupFor q 0x40 2 = true) : h.svcWrite q v = h.reach.writeRegister q.index v := by
  simp only [Hub.svcWrite, hh, hq, Bool.not_true, Bool.false_eq_true, if_false, if_true]

theorem Hub.svcWrite_stalls {q : Setup} (v : Nat) (hq : setupFor q 0x40 2 = false) : h.svcWrite q v = h.out (.usb 8 "SVC_STALL" []) := by
  simp only [Hub.svcWrite, hh, hq, Bool.not_true, Bool.false_eq_true, if_false, Hub.svcStall]

theorem Hub.svcBusReset_host (c : SvcCut) {x : Hub}
    (hx : x = h.modUsbc (fun u => { u with svc := { Usb.reset.svc with vbus := u.svc.vbus }, woke := false })) :
    h.svcBusReset c = (x.bumpBy P.US_SVC_ABANDON 0 (b2n c.ep1 + b2n c.ep2)).event .svcBusReset
      [(0, 1, c.stage), (1, 1, if c.stage = 0 then 0 else c.request)] := by
  subst hx
  simp only [Hub.svcBusReset, hh, Bool.not_true, Bool.false_eq_true, if_false]

end Host

/-- A message is not taken by a port that its host has not configured, or whose bus is suspended. -/
theorem Hub.svcMessage_deaf {h : Hub} (bs : List Byte) (hc : h.usb.svc.configured = false ∨ h.usb.svc.suspended = true) : h.svcMessage bs = h := by
  have deaf : (h.svcHost && h.usb.svc.configured && !h.usb.svc.suspended) = false := by rcases hc with e | e <;> simp [e]
  simp only [Hub.svcMessage, deaf, Bool.false_eq_true, if_false]

section NoHost
variable {h : Hub} (hn : h.svcHost = false)
include hn

theorem Hub.svcMessage_noHost (bs : List Byte) : h.svcMessage bs = h := by
  simp only [Hub.svcMessage, hn, Bool.false_and, Bool.false_eq_true, if_false]

theorem Hub.svcRead_noHost (q : Setup) : h.svcRead q = h := by
  simp only [Hub.svcRead, hn, Bool.not_false, if_true]

theorem Hub.svcWrite_noHost (q : Setup) (v : Nat) : h.svcWrite q v = h := by
  simp only [Hub.svcWrite, hn, Bool.not_false, if_true]

theorem Hub.svcBusReset_noHost (c : SvcCut) : h.svcBusReset c = h := by
  simp only [Hub.svcBusReset, hn, Bool.not_false, if_true]

end NoHost

/-! ## The commands -/

theorem exec_usbOvercurrent (p : Nat) (s : State) : exec (.usbOvercurrent p) s = .next (s.after (s.hub.usbOvercurrent p)) := rfl

theorem exec_usbIdleSuspend (p : Nat) (s : State) : exec (.usbIdleSuspend p) s = .next (s.after (s.hub.usbIdle p)) := rfl

theorem exec_usbRemoteWake (p : Nat) (s : State) : exec (.usbRemoteWake p) s = .next (s.after (s.hub.usbWake p)) := rfl

theorem exec_resumeRecoveryEnd (p : Nat) (s : State) : exec (.resumeRecoveryEnd p) s = .next (s.after (s.hub.resumeEnd p)) := rfl

theorem exec_usbAttach (p : Nat) (a : Bool) (v : Nat) (s : State) : exec (.usbAttach p a v) s = .next (s.after (s.hub.usbAttach p a v)) := rfl

theorem exec_sofMicroframe (s : State) : exec .sofMicroframe s = .next (s.after s.hub.sof) := rfl

theorem exec_usbPortControl (q : Req) (s : State) :
    exec (.usbPortControl q) s = .next (s.after (s.hub.request 0x0C01 q Hub.usbPortControl)) := rfl

theorem exec_svcAttach (b : SvcBus) (s : State) : exec (.svcAttach b) s = .next (s.after (s.hub.svcAttach b)) := rfl

theorem exec_svcRequest (bs : List Byte) (s : State) : exec (.svcRequest bs) s = .next (s.after (s.hub.svcMessage bs)) := rfl

theorem exec_regRead (q : Setup) (s : State) : exec (.regRead q) s = .next (s.after (s.hub.svcRead q)) := rfl

theorem exec_regWrite (q : Setup) (v : Nat) (s : State) : exec (.regWrite q v) s = .next (s.after (s.hub.svcWrite q v)) := rfl

theorem exec_svcMbReset (s : State) :
    exec .svcMbReset s = .next (s.after (if s.hub.svcHost then (s.hub.mbReset 3).ring 3 else s.hub)) := rfl

theorem exec_getIdentity (s : State) :
    exec .getIdentity s = .next (s.after (if s.hub.svcHost then s.hub.out (.svc 0 s.hub.identity) else s.hub)) := rfl

theorem exec_svcBusReset (c : SvcCut) (s : State) : exec (.svcBusReset c) s = .next (s.after (s.hub.svcBusReset c)) := rfl

/-- Settles O40, each clause from the lemma on the port, the bus interval or the service port it speaks of. -/
theorem usbPortsAndTheServicePort : Obligations.UsbPortsAndTheServicePort := by
  unfold Obligations.UsbPortsAndTheServicePort
  refine ⟨?ocOwn, ?ocGanged, ?idle, ?wake, ?wakeJoins, ?resumeEnd, ?attach, ?detach, ?sof, ?sofGated, ?control, ?svcAttach, ?svcUnpulled,
    Hub.svcPulled_iff, ?message, ?deaf, ?regRead, ?regWrite, ?descriptor, ?writeStalls, ?readStalls, ?vendor, ?busReset, ?noHost⟩
  case ocOwn =>
    intro s p hw hp hm
    rw [exec_usbOvercurrent, Hub.usbOvercurrent_own hw hp hm]
  case ocGanged =>
    intro s hw hm
    rw [exec_usbOvercurrent, Hub.usbOvercurrent_ganged hw hm]
  case idle =>
    intro s p ht hw hs hp hn hx hb
    rw [exec_usbIdleSuspend, Hub.usbIdle_suspends ht hw hs hp hn hx hb]
  case wake =>
    intro s p hw hs hr
    rw [exec_usbRemoteWake, Hub.usbWake_begins hw hs hr]
  case wakeJoins =>
    intro s p t hw hs hr ht
    rw [exec_usbRemoteWake, Hub.usbWake_joins hw hs hr ht]
  case resumeEnd =>
    intro s p t x hr hx
    rw [exec_resumeRecoveryEnd, Hub.resumeEnd_runs hr hx]
  case attach =>
    intro s p v sp hw hv hp he hs h1 h5 hsp
    rw [exec_usbAttach, Hub.usbAttach_attaches hw hv hp he hs h1 h5 hsp]
  case detach =>
    intro s p v hs
    rw [exec_usbAttach, Hub.usbAttach_detaches v hs]
  case sof =>
    intro s start hw hm hs
    rw [exec_sofMicroframe, Hub.sof_unlocked hw hm hs]
  case sofGated =>
    intro s hw
    rw [exec_sofMicroframe, Hub.sof_gated hw]
  case control =>
    intro s q a z ha hA hz
    have hbody : a.usbPortControl (reqOn q 0x0C01) = (z.1, z.2) := (a.usbPortControl_eq _).trans hz.symm
    rw [exec_usbPortControl, Hub.request_plain s.hub q _ _ a _ _ (by decide) ha hA hbody]
  case svcAttach =>
    intro s b x hx hp
    rw [exec_svcAttach, Hub.svcAttach_pulled hx hp]
  case svcUnpulled =>
    intro s b x hx hp
    rw [exec_svcAttach, Hub.svcAttach_unpulled hx hp]
  case message =>
    intro s bs hh hc hs
    rw [exec_svcRequest, Hub.svcMessage_taken hh bs hc hs]
  case deaf =>
    intro s bs _ hc
    rw [exec_svcRequest, Hub.svcMessage_deaf bs hc]
  case regRead =>
    intro s q hh hq
    rw [exec_regRead, Hub.svcRead_register hh hq]
  case regWrite =>
    intro s q v hh hq
    rw [exec_regWrite, Hub.svcWrite_register hh v hq]
  case descriptor =>
    intro s q d hh ht hr hv hd
    rw [exec_regRead, Hub.svcRead_descriptor hh ht hr hv hd]
  case writeStalls =>
    intro s q v hh hq
    rw [exec_regWrite, Hub.svcWrite_stalls hh v hq]
  case readStalls =>
    intro s q hh hq ht
    rw [exec_regRead, Hub.svcRead_stalls hh hq ht]
  case vendor =>
    intro s hh
    rw [exec_svcMbReset, exec_getIdentity, hh, if_pos rfl, if_pos rfl]
    exact ⟨rfl, rfl⟩
  case busReset =>
    intro s c x hh hx
    rw [exec_svcBusReset, Hub.svcBusReset_host hh c hx]
  case noHost =>
    intro s q v c bs hn
    rw [exec_svcRequest, exec_regRead, exec_regWrite, exec_svcMbReset, exec_getIdentity, exec_svcBusReset, Hub.svcMessage_noHost hn,
      Hub.svcRead_noHost hn, Hub.svcWrite_noHost hn, Hub.svcBusReset_noHost hn, hn]
    exact ⟨rfl, rfl, rfl, rfl, rfl, rfl⟩

end Sys2Proof.Machine
end

section
/-!
SUPPORT. The Type-C ports: enabled, attached, detached and recovered (O41).
-/
namespace Sys2Proof.Machine

/-! ## TC_ENABLE (R315) -/

theorem Hub.takeEffect_tcEnable (h : Hub) (n v : Nat) (hn : n < 4) (hv : v ≤ 1) :
    h.takeEffect [⟨P.TC_ENABLE, n, v⟩] = (h.stored P.TC_ENABLE n v).tcEnable n v := by
  have form := formOf_flag P.TC_ENABLE n v _ rfl (by decide) ⟨Nat.zero_le n, hn⟩ hv rfl rfl (by decide) rfl
  have alone : actsAlone P.TC_ENABLE = true := by decide
  rw [Hub.takeEffect_one h _ form, Hub.applyChange_one h _ alone]
  rfl

theorem Hub.tcEnable_presents {h : Hub} {n : Nat} (hs : (h.tcp n).state = .disabled) :
    h.tcEnable n 1 = (h.modTc n (fun t => { t with state := .unattached, since := h.clk.up })).pd n "Rp" [] := by
  simp only [Hub.tcEnable, hs, if_true]

theorem Hub.tcEnable_enabled {h : Hub} {n : Nat} (hs : (h.tcp n).state ≠ .disabled) : h.tcEnable n 1 = h := by
  simp only [Hub.tcEnable, hs, if_true, if_false]

/-- Disabling takes the port down, and a channel in backoff goes off with it. -/
theorem Hub.tcEnable_disables {h y : Hub} {n : Nat} (hs : (h.tcp n).state ≠ .disabled) (hy : y = (h.tcLeave n .disabled).vbusOff n) :
    h.tcEnable n 0 =
      (if (y.fuse (n + 1)).state = .backoff then y.modFuse (n + 1) (fun f => { f with state := .off }) else y).pd n "CC_open" [] := by
  subst hy
  simp only [Hub.tcEnable, hs, Nat.zero_ne_one, if_false]

/-! ## Terminations (R311, R312, R324) -/

section Terminate
variable {h : Hub} {n c1 c2 : Nat}

theorem Hub.tcTerminate_waits (hs : (h.tcp n).state = .unattached) (hc : c1 = 1 ∨ c1 = 2 ∨ c2 = 1 ∨ c2 = 2) :
    h.tcTerminate n c1 c2 = (h.modTc n (fun t => { t with cc1 := c1, cc2 := c2 })).modTc n (fun t =>
      { t with state := .attachWait, since := h.clk.up }) := by
  have seen : (decide (c1 = 1) || decide (c1 = 2) || (decide (c2 = 1) || decide (c2 = 2))) = true := by simpa [or_assoc] using hc
  simp only [Hub.tcTerminate, hs, seen, if_true, Hub.modTc_clk]

theorem Hub.tcTerminate_opens (hs : (h.tcp n).state = .attachWait) (hc : c1 ≠ 1 ∧ c1 ≠ 2 ∧ c2 ≠ 1 ∧ c2 ≠ 2) :
    h.tcTerminate n c1 c2 = (h.modTc n (fun t => { t with cc1 := c1, cc2 := c2 })).modTc n (fun t =>
      { t with state := .unattached, since := h.clk.up }) := by
  simp only [Hub.tcTerminate, hs, hc, decide_false, Bool.or_self, Bool.false_eq_true, if_false, Hub.modTc_clk]

/-- A termination on a port that was unattached at entry wakes the hub. -/
theorem Hub.terminationSeen_wakes (hs : (h.tcp n).state = .unattached) (hc : c1 = 1 ∨ c1 = 2 ∨ c2 = 1 ∨ c2 = 2)
    (hw : h.pw.state = .run ∨ (h.tcp n).wakes = true) : h.terminationSeen n c1 c2 = (h.tcTerminate n c1 c2).wakeEvent 5 := by
  have wakes : (decide (h.pw.state = .run) || (h.tcp n).wakes) = true := by simpa using hw
  have seen : (decide (c1 = 1) || decide (c1 = 2) || decide (c2 = 1) || decide (c2 = 2)) = true := by simpa [or_assoc] using hc
  simp only [Hub.terminationSeen, hs, wakes, seen, decide_true, Bool.and_self, if_true]

theorem Hub.terminationSeen_attachWait (hs : (h.tcp n).state = .attachWait) : h.terminationSeen n c1 c2 = h.tcTerminate n c1 c2 := by
  simp [Hub.terminationSeen, hs]

end Terminate

section Debounced
variable {h x : Hub} {n : Nat} (hs : (h.tcp n).state = .attachWait)
include hs

/-- Rd on one pin attaches a sink, and Ra on the other says that the cable is active. -/
theorem Hub.tcDebounced_sink {cable : Bool} (hc : ((h.tcp n).cc1, (h.tcp n).cc2) = if cable then (1, 2) else (1, 0))
    (hx : x = (h.until ((h.tcp n).since + ms 150)).safe5 n) :
    h.tcDebounced n =
      (((x.modTc n (fun t => { t with state := .attachedSrc, since := x.clk.up, flip := t.cc2 == 1, vconn := cable, dfp := true, snk := false, term := b2n cable, vbus := true, cableMa := 3000, cableEpr := false })).bump
        P.TC_ATTACHES n).vbusLevel n).tcAttach n 1 0 (b2n cable) := by
  subst hx
  cases cable <;> simp [Hub.tcDebounced, hs, hc]

/-- Rd on both pins is a Debug Accessory, honoured where debug is allowed. -/
theorem Hub.tcDebounced_debug {y : Hub} {term : Nat} (hc : ((h.tcp n).cc1, (h.tcp n).cc2) = (1, 1))
    (hx : x = h.until ((h.tcp n).since + ms 150)) (ht : term = if x.debugAllowed then 3 else 4)
    (hy : y = x.modTc n (fun t => { t with state := .accessory, since := x.clk.up, term := term, vbus := term == 3 })) :
    h.tcDebounced n =
      ((if term = 3 then ((y.safe5 n).vbusLevel n).pd n "Debug_port_on_SBU" [] else y).bump P.TC_ATTACHES n).tcAttach n 1 0 term := by
  subst hx ht hy
  simp [Hub.tcDebounced, hs, hc]

theorem Hub.tcDebounced_open (hc : ((h.tcp n).cc1, (h.tcp n).cc2) = (0, 0)) :
    h.tcDebounced n = (h.until ((h.tcp n).since + ms 150)).modTc n (fun t => { t with state := .unattached }) := by
  simp [Hub.tcDebounced, hs, hc]

end Debounced

/-! ## Detach and recovery (R314 to R317) -/

section Open
variable {h : Hub} {n : Nat} (hs : (h.tcp n).state = .attachedSrc)
include hs

theorem Hub.tcOpen_waits (hh : (h.tcp n).high = false) (ho : (h.tcp n).openAt = none) :
    h.tcOpen n = h.modTc n (fun t => { t with openAt := some h.clk.up }) := by
  simp [Hub.tcOpen, hs, hh, ho]

/-- Above vSafe5V, or in a transition, CC open is a detach at once. -/
theorem Hub.tcOpen_high (hh : (h.tcp n).high = true) :
    h.tcOpen n = ((((if (h.fuse (n + 1)).state.gate then h.fuseGateLow (n + 1) .off else h).converter n 5000).out
      (.power "FU_DIS" [n + 1])).bump P.TC_DETACH_TRANSITION n).tcDetach n 2 .unattached := by
  simp [Hub.tcOpen, hs, hh]

theorem Hub.tcOpenDone_detaches {t : Nat} (ho : (h.tcp n).openAt = some t) :
    h.tcOpenDone n = (h.until (t + ms 15)).tcDetach n 0 .unattached := by
  simp [Hub.tcOpenDone, hs, ho]

end Open

section Recover
variable {h : Hub} {n : Nat} (hs : (h.tcp n).state = .errorRecovery)
include hs

theorem Hub.tcRecovered_presents (hf : (h.fuse (n + 1)).state = .off) :
    h.tcRecovered n = ((h.until ((h.tcp n).since + ms 25)).modTc n (fun t => { t with state := .unattached })).pd n "Rp" [] := by
  simp [Hub.tcRecovered, hs, hf]

theorem Hub.tcRecovered_waits (hf : (h.fuse (n + 1)).state ≠ .off) : h.tcRecovered n = h := by
  simp [Hub.tcRecovered, hs, hf]

end Recover

theorem Hub.tcSinkGone_detaches {h : Hub} {n : Nat} (hs : (h.tcp n).state = .attachedSnk) :
    h.tcSinkGone n = (h.tcDetach n 0 .unattached).pd n "Rp" [] := by
  simp [Hub.tcSinkGone, hs]

theorem Hub.tcVconnFault_takes {h x : Hub} {n : Nat} (hv : (h.tcp n).vconn = true)
    (hx : x = ((h.modTc n (fun t => { t with vconn := false, vFault := true, cableMa := 3000, cableEpr := false })).bump
      P.TC_VCONN_TRIP n).event .tcVconnFault [(0, 1, n)]) :
    h.tcVconnFault n = if (x.tcp n).offer.isEmpty && (x.fuse (n + 1)).state == .on then x.tcVbusUp n else x := by
  subst hx
  simp only [Hub.tcVconnFault, hv, Bool.not_true, Bool.false_eq_true, if_false]

theorem Hub.tcVconnFault_off {h : Hub} {n : Nat} (hv : (h.tcp n).vconn = false) : h.tcVconnFault n = h := by
  simp only [Hub.tcVconnFault, hv, Bool.not_false, if_true]

/-! ## The commands -/

theorem exec_tcEnableWrite (n v : Nat) (s : State) :
    exec (.tcEnableWrite n v) s = .next (s.after (s.hub.takeEffect [⟨P.TC_ENABLE, n, v⟩])) := rfl

theorem exec_tcTermination (n c1 c2 : Nat) (s : State) :
    exec (.tcTermination n c1 c2) s = .next (s.after (s.hub.terminationSeen n c1 c2)) := rfl

theorem exec_tcDebounceDone (n : Nat) (s : State) : exec (.tcDebounceDone n) s = .next (s.after (s.hub.tcDebounced n)) := rfl

theorem exec_tcCcOpen (n : Nat) (s : State) : exec (.tcCcOpen n) s = .next (s.after (s.hub.tcOpen n)) := rfl

theorem exec_tcPdDebounceDone (n : Nat) (s : State) : exec (.tcPdDebounceDone n) s = .next (s.after (s.hub.tcOpenDone n)) := rfl

theorem exec_tcVsafe0 (n : Nat) (s : State) : exec (.tcVsafe0 n) s = .next (s.after (s.hub.tcVsafe0 n)) := rfl

theorem exec_tcErrorRecoveryEnd (n : Nat) (s : State) : exec (.tcErrorRecoveryEnd n) s = .next (s.after (s.hub.tcRecovered n)) := rfl

theorem exec_tcSinkDisconnect (n : Nat) (s : State) : exec (.tcSinkDisconnect n) s = .next (s.after (s.hub.tcSinkGone n)) := rfl

theorem exec_tcVconnFault (n : Nat) (s : State) : exec (.tcVconnFault n) s = .next (s.after (s.hub.tcVconnFault n)) := rfl

/-- Settles O41, each clause from the lemma on what its command makes of the port in that state. -/
theorem typeCPortsAttachAndDetach : Obligations.TypeCPortsAttachAndDetach := by
  unfold Obligations.TypeCPortsAttachAndDetach
  refine ⟨?enable, ?enabled, ?disable, ?termination, ?opens, ?sink, ?debug, ?none, ?ccOpen, ?ccOpenHigh, ?pdDebounce, ?vsafe0, ?recovered,
    ?recovering, ?sinkGone, ?vconnFault, ?noVconn⟩
  case enable =>
    rintro s n x hn rfl hs
    rw [exec_tcEnableWrite, Hub.takeEffect_tcEnable _ n 1 hn (Nat.le_refl 1), Hub.tcEnable_presents hs]
  case enabled =>
    rintro s n x hn rfl hs
    rw [exec_tcEnableWrite, Hub.takeEffect_tcEnable _ n 1 hn (Nat.le_refl 1), Hub.tcEnable_enabled hs]
  case disable =>
    rintro s n x y hn rfl hs hy
    rw [exec_tcEnableWrite, Hub.takeEffect_tcEnable _ n 0 hn (Nat.zero_le 1), Hub.tcEnable_disables hs hy]
  case termination =>
    intro s n c1 c2 hs hc hw
    rw [exec_tcTermination, Hub.terminationSeen_wakes hs hc hw, Hub.tcTerminate_waits hs hc]
  case opens =>
    intro s n c1 c2 hs hc
    rw [exec_tcTermination, Hub.terminationSeen_attachWait hs, Hub.tcTerminate_opens hs hc]
  case sink =>
    intro s n cable x hs hc hx
    rw [exec_tcDebounceDone, Hub.tcDebounced_sink hs hc hx]
  case debug =>
    intro s n term x y hs hc hx ht hy
    rw [exec_tcDebounceDone, Hub.tcDebounced_debug hs hc hx ht hy]
  case none =>
    intro s n hs hc
    rw [exec_tcDebounceDone, Hub.tcDebounced_open hs hc]
  case ccOpen =>
    intro s n hs hh ho
    rw [exec_tcCcOpen, Hub.tcOpen_waits hs hh ho]
  case ccOpenHigh =>
    intro s n hs hh
    rw [exec_tcCcOpen, Hub.tcOpen_high hs hh]
  case pdDebounce =>
    intro s n t ho hs
    rw [exec_tcPdDebounceDone, Hub.tcOpenDone_detaches hs ho]
  case vsafe0 =>
    intro s n
    rw [exec_tcVsafe0, Hub.tcVsafe0]
  case recovered =>
    intro s n hs hf
    rw [exec_tcErrorRecoveryEnd, Hub.tcRecovered_presents hs hf]
  case recovering =>
    intro s n hs hf
    rw [exec_tcErrorRecoveryEnd, Hub.tcRecovered_waits hs hf]
  case sinkGone =>
    intro s n hs
    rw [exec_tcSinkDisconnect, Hub.tcSinkGone_detaches hs]
  case vconnFault =>
    intro s n x hv hx
    rw [exec_tcVconnFault, Hub.tcVconnFault_takes hv hx]
  case noVconn =>
    intro s n hv
    rw [exec_tcVconnFault, Hub.tcVconnFault_off hv]

end Sys2Proof.Machine
end

section
/-!
SUPPORT. Power Delivery at the Type-C ports: swaps answered, contracts, Hard Reset, re-offers and Alt Mode (O42).
-/
namespace Sys2Proof.Machine

/-! ## Swaps that this port asked for (R320) -/

theorem Hub.tcSwapped_none {h : Hub} {n : Nat} (h2 : (h.tcp n).swap ≠ 2) (h3 : (h.tcp n).swap ≠ 3) : h.tcSwapped n = h := by
  simp only [Hub.tcSwapped, h2, h3, decide_false, Bool.or_self, Bool.false_eq_true, if_false]

theorem Hub.tcAnswered_none {h : Hub} {n : Nat} (h2 : (h.tcp n).swap ≠ 2) (h3 : (h.tcp n).swap ≠ 3)
    (h1 : (h.tcp n).swap ≠ 1 ∨ (h.tcp n).asked = false) : h.tcAnswered n = h := by
  have open_ : (decide ((h.tcp n).swap = 1) && (h.tcp n).asked) = false := by rcases h1 with e | e <;> simp [e]
  simp only [Hub.tcAnswered, open_, Bool.false_eq_true, if_false, Hub.tcSwapped_none h2 h3]

/-- A PR_Swap that this port asked for did not take place. -/
theorem Hub.tcAnswered_prSwap {h : Hub} {n : Nat} (h1 : (h.tcp n).swap = 1) (ha : (h.tcp n).asked = true) :
    h.tcAnswered n = h.modTc n (fun t => { t with swap := 0, asked := false }) := by
  simp only [Hub.tcAnswered, h1, ha, decide_true, Bool.and_self, if_true]

/-! ## Requests and contracts of a source (R319) -/

section Source
variable {h y : Hub} {n : Nat} (hy : y = h.tcAnswered n) (hw : y.pdWorks = true) (hs : (y.tcp n).state = .attachedSrc)
include hy hw hs

section Request
variable {pos mA : Nat} (hr : (y.tcp n).recover = false)
include hr

theorem Hub.tcRequest_accepted {i mv top : Nat} (ho : (y.tcp n).offer.find? (fun x => x.1 == pos) = some (i, mv, top)) (hm : mA ≤ top) :
    h.tcRequest n pos mA =
      (((y.modTc n (fun t => { t with next := some (mv, mA), offerAt := none })).setBase (n + 1) (mA * 110 / 100)).pd n "Accept" []).converter
        n mv := by
  subst hy
  simp [Hub.tcRequest, hw, hs, hr, ho, Nat.not_lt.mpr hm]

theorem Hub.tcRequest_notOffered (ho : (y.tcp n).offer.find? (fun x => x.1 == pos) = none) : h.tcRequest n pos mA = y.pd n "Reject" [] := by
  subst hy
  simp [Hub.tcRequest, hw, hs, hr, ho]

theorem Hub.tcRequest_overCurrent {i mv top : Nat} (ho : (y.tcp n).offer.find? (fun x => x.1 == pos) = some (i, mv, top)) (hm : top < mA) :
    h.tcRequest n pos mA = y.pd n "Reject" [] := by
  subst hy
  simp [Hub.tcRequest, hw, hs, hr, ho, hm]

end Request

theorem Hub.tcEprEnter_succeeds (he : y.eprAllowed n = true) :
    h.tcEprEnter n = ((y.modTc n (fun t => { t with epr := true })).pd n "EPR_Mode_Enter_Succeeded" []).tcOffer n := by
  subst hy
  simp [Hub.tcEprEnter, hw, hs, he]

theorem Hub.tcEprEnter_fails (he : y.eprAllowed n = false) : h.tcEprEnter n = y.pd n "EPR_Mode_Enter_Failed" [] := by
  subst hy
  simp [Hub.tcEprEnter, hw, hs, he]

/-- A source that may be a sink accepts a PR_Swap: VBUS goes, and it says so. -/
theorem Hub.tcPrSwap_accepted (ha : y.pget P.TC_SINK_ALLOW n = 1) :
    h.tcPrSwap n = (((y.modTc n (fun t => { t with swap := 1, asked := false, offerAt := none })).pd n "Accept" []).vbusOff n).pd n "PS_RDY" [] := by
  subst hy
  simp [Hub.tcPrSwap, hw, hs, ha, TcPort.attached]

theorem Hub.tcPrSwap_rejected (ha : y.pget P.TC_SINK_ALLOW n ≠ 1) : h.tcPrSwap n = y.pd n "Reject" [] := by
  subst hy
  simp [Hub.tcPrSwap, hw, hs, ha, TcPort.attached]

/-- The answer of the cable's plug says what the cable carries, and the capabilities go out (R314). -/
theorem Hub.tcVdm_cable {v : Vdm} (hv : (y.tcp n).vconn = true) (hf : (y.tcp n).vFault = false) (h1 : v.step = 1) :
    h.tcVdm n v = (y.modTc n (fun t => { t with
      cableMa := if v.ack && 5000 ≤ v.cableMa then 5000 else 3000, cableEpr := v.ack && 5000 ≤ v.cableMa && v.epr })).tcOffer n := by
  subst hy
  simp [Hub.tcVdm, hw, hs, hv, hf, h1, TcPort.attached]

end Source

theorem Hub.tcPowerGood_contract {h : Hub} {n mv ma : Nat} (hn : (h.tcp n).next = some (mv, ma)) (hs : (h.tcp n).state = .attachedSrc) :
    h.tcPowerGood n = (((h.modTc n (fun t => { t with next := none, mv := mv, ma := ma })).pd n "PS_RDY" []).event .tcContract
      [(0, 1, n), (1, 1, 0), (2, 1, b2n (h.tcp n).epr), (4, 4, mv), (8, 4, ma)]).altStart n := by
  simp [Hub.tcPowerGood, hn, hs]

/-! ## Messages of a partner of either role (R310, R319, R320, R325) -/

section Attached
variable {h y : Hub} {n : Nat} (hy : y = h.tcAnswered n) (hw : y.pdWorks = true)
include hy hw

theorem Hub.tcKeepAlive_acknowledged (he : (y.tcp n).epr = true) : h.tcKeepAlive n = y.pd n "EPR_KeepAlive_Ack" [] := by
  subst hy
  simp only [Hub.tcKeepAlive, hw, he, Bool.and_self, if_true]

variable (ha : (y.tcp n).attached = true)
include ha

theorem Hub.tcDrSwap_accepted (hd : y.pget P.TC_DR_SWAP_ALLOW n = 1) :
    h.tcDrSwap n = ((((y.altExit n true).pd n "Accept" []).usbDetach n).modTc n (fun t => { t with dfp := !t.dfp })).altStart n := by
  subst hy
  simp [Hub.tcDrSwap, hw, ha, hd, Hub.drFlip]

theorem Hub.tcDrSwap_rejected (hd : y.pget P.TC_DR_SWAP_ALLOW n ≠ 1) : h.tcDrSwap n = y.pd n "Reject" [] := by
  subst hy
  simp [Hub.tcDrSwap, hw, ha, hd]

theorem Hub.tcVconnSwap_accepted : h.tcVconnSwap n = (y.pd n "Accept" []).modTc n (fun t => { t with vconn := !t.vconn }) := by
  subst hy
  simp [Hub.tcVconnSwap, hw, ha]

theorem Hub.tcUnsupported_getSinkCap : h.tcUnsupported n 8 = y.pd n "Sink_Capabilities" (y.sinkCaps n) := by
  subst hy
  simp [Hub.tcUnsupported, hw, ha]

theorem Hub.tcUnsupported_other {msg : Nat} (hm : msg ≠ 8) : h.tcUnsupported n msg = y.pd n "Not_Supported" [msg] := by
  subst hy
  simp [Hub.tcUnsupported, hw, ha, hm]

variable {v : Vdm} (hal : y.altAllowed n = true)
include hal

/-- Enter Mode acknowledged asks the DisplayPort Status. -/
theorem Hub.tcVdm_entered (h4 : v.step = 4) (hs : (y.tcp n).altStep = 4) (hv : v.ack = true) :
    h.tcVdm n v = (y.modTc n (fun t => { t with altStep := 5 })).pd n "DisplayPort_Status" [] := by
  subst hy
  simp [Hub.tcVdm, hw, ha, hal, h4, hs, hv]

/-- The DisplayPort Status sends DisplayPort Configure. -/
theorem Hub.tcVdm_status (h5 : v.step = 5) (hs : (y.tcp n).altStep = 5) :
    h.tcVdm n v = (y.modTc n (fun t => { t with altStep := 6, hpd := v.ack && v.hpd })).pd n "DisplayPort_Configure" [(y.tcp n).altPin] := by
  subst hy
  simp [Hub.tcVdm, hw, ha, hal, h5, hs]

end Attached

/-- What the answer to DisplayPort Configure does (R325). -/
theorem Hub.tcConfigured_eq {h : Hub} {n : Nat} (hs : (h.tcp n).altStep = 6) (ha : h.altAllowed n = true) (ack : Bool) :
    h.tcConfigured n ack =
      if ack then
        let x := ((h.usbDetach n).modTc n (fun t => { t with alt := t.altPin, altStep := 0 })).event .tcAltMode
          [(0, 1, n), (1, 1, 1), (2, 1, (h.tcp n).altPin)]
        if (h.tcp n).hpd then x.hpdOut n else x
      else h.altRefused n := by
  simp [Hub.tcConfigured, hs, ha]

/-! ## Hard Reset (R323) -/

theorem Hub.tcHardReset_unattached {h : Hub} {n : Nat} (sent : Bool) (ha : (h.tcp n).attached = false) : h.tcHardReset n sent = h := by
  simp only [Hub.tcHardReset, ha, Bool.not_false, Bool.true_or, if_true]

/-- A Hard Reset received by a source that no swap is under way at: VBUS goes, and the port recovers as the source. -/
theorem Hub.tcHardReset_source {h x : Hub} {n : Nat} (hs : (h.tcp n).state = .attachedSrc) (hw : h.pdWorks = true)
    (hn : (h.tcp n).swap = 0) (hx : x = (h.altExit n true).vbusOff n) :
    h.tcHardReset n false =
      (((x.modTc n (fun t => { t.void with state := .attachedSrc, dfp := true, swap := 0, asked := false, recover := true, since := x.clk.up, dis := t.dis, snkEn := false })).usbDetach n).bump
        P.TC_HARD_RESETS n).event .tcHardReset [(0, 1, n), (1, 1, 0), (2, 1, 0)] := by
  subst hx
  simp [Hub.tcHardReset, hs, hw, hn, TcPort.attached, b2n]

theorem Hub.tcNoResponse_resets {h : Hub} {n t : Nat} (ho : (h.tcp n).offerAt = some t) :
    h.tcNoResponse n = (h.until (t + ms 30)).tcHardReset n true := by
  simp only [Hub.tcNoResponse, ho]

theorem Hub.tcRecoverEnd_recovers {h : Hub} {n : Nat} (hr : (h.tcp n).recover = true) (hd : (h.tcp n).dis = false) :
    h.tcRecoverEnd n =
      (((h.until ((h.tcp n).since + ms 700)).safe5 n).modTc n (fun t => { t with recover := false, vbus := true })).vbusLevel n := by
  simp [Hub.tcRecoverEnd, hr, hd]

/-! ## Re-offers (R322) -/

theorem Hub.tcCanOffer_idle {h : Hub} {n : Nat} (hs : (h.tcp n).state = .attachedSrc) (hw : h.pdWorks = true) (hn : (h.tcp n).swap = 0)
    (hr : (h.tcp n).recover = false) (hx : (h.tcp n).next = none) (ho : (h.tcp n).offer ≠ []) : h.tcCanOffer n = true := by
  simp [Hub.tcCanOffer, hs, hw, hn, hr, hx, ho]

section Anew
variable {h : Hub} {n : Nat} (hc : h.tcCanOffer n = true)
include hc

theorem Hub.tcOfferAnew_spr (he : (h.tcp n).epr = false) : h.tcOfferAnew n = h.tcOffer n := by
  simp [Hub.tcOfferAnew, hc, he]

/-- EPR Mode that is no longer allowed is left first. -/
theorem Hub.tcOfferAnew_leavesEpr (he : (h.tcp n).epr = true) (ha : h.eprAllowed n = false) :
    h.tcOfferAnew n = ((h.modTc n (fun t => { t with epr := false })).pd n "EPR_Mode_Exit" []).tcOffer n := by
  simp [Hub.tcOfferAnew, hc, he, ha]

end Anew

theorem Hub.tcReoffer_due {h : Hub} {n : Nat} (hd : (h.tcp n).due = true) : h.tcReoffer n = h.tcOfferAnew n := by
  simp only [Hub.tcReoffer, hd, if_true]

theorem Hub.tcReoffer_notDue {h : Hub} {n : Nat} (hd : (h.tcp n).due = false) : h.tcReoffer n = h := by
  simp only [Hub.tcReoffer, hd, Bool.false_eq_true, if_false]

/-! ## A sink, and the end of a PR_Swap (R320, R321) -/

/-- What a sink requests of the PDOs offered: the highest fixed one of 20 V or less with the wanted current, else the 5 V one. -/
def sinkPick (pdos : List (Nat × Nat)) (want : Nat) : Nat × Nat :=
  let best := (pdos.filter (fun x => x.1 ≤ 20000 && want ≤ x.2)).foldl (fun (a : Nat × Nat) x => if a.1 ≤ x.1 then (x.1, want) else a) (0, 0)
  if best.1 ≠ 0 then best else (5000, min want (((pdos.find? (fun x => x.1 == 5000)).map (·.2)).getD 0))

theorem Hub.tcSourceCaps_requests {h y : Hub} {n : Nat} (pdos : List (Nat × Nat)) {c : Nat × Nat} (hy : y = h.tcAnswered n)
    (hw : y.pdWorks = true) (hs : (y.tcp n).state = .attachedSnk) (hc : c = sinkPick pdos (y.pget P.TC_SINK_MAX_CURRENT n)) :
    h.tcSourceCaps n pdos = (y.modTc n (fun t => { t with next := some c })).pd n "Request" [c.1, c.2] := by
  subst hy hc
  simp [Hub.tcSourceCaps, hw, hs, sinkPick]

section PsRdy
variable {h y : Hub} {n : Nat} (hy : y = h.tcSwapped n) (hw : y.pdWorks = true)
include hy hw

/-- A sink takes power at PS_RDY. -/
theorem Hub.tcPsRdy_sink {mv ma : Nat} (hs : (y.tcp n).state = .attachedSnk) (h0 : (y.tcp n).swap = 0) (hn : (y.tcp n).next = some (mv, ma)) :
    h.tcPsRdy n = ((y.modTc n (fun t => { t with next := none, mv := mv, ma := ma, snkEn := true })).pd n "SNK_EN" [1]).event .tcContract
      [(0, 1, n), (1, 1, 1), (2, 1, 0), (4, 4, mv), (8, 4, ma)] := by
  subst hy
  simp [Hub.tcPsRdy, hw, hs, h0, hn, TcPort.attached]

/-- PS_RDY of the partner of a swapping source makes it the sink. -/
theorem Hub.tcPsRdy_swapped {x : Hub} (hs : (y.tcp n).state = .attachedSrc) (h1 : (y.tcp n).swap = 1)
    (hx : x = if (y.tcp n).vbus then (y.vbusOff n).pd n "PS_RDY" [] else y) :
    h.tcPsRdy n = ((x.modTc n (fun t =>
      { t.void with state := .attachedSnk, swap := 0, asked := false, snkEn := true })).pd n "Rd" []).pd n "SNK_EN" [1] := by
  subst hy hx
  simp [Hub.tcPsRdy, hw, hs, h1, TcPort.attached]

end PsRdy

/-! ## The commands -/

theorem exec_tcRequestRx (n pos mA : Nat) (s : State) : exec (.tcRequestRx n pos mA) s = .next (s.after (s.hub.tcRequest n pos mA)) := rfl

theorem exec_tcPowerGood (n : Nat) (s : State) : exec (.tcPowerGood n) s = .next (s.after (s.hub.tcPowerGood n)) := rfl

theorem exec_tcEprEnterRx (n pdp : Nat) (s : State) : exec (.tcEprEnterRx n pdp) s = .next (s.after (s.hub.tcEprEnter n)) := rfl

theorem exec_tcPrSwapRx (n : Nat) (s : State) : exec (.tcPrSwapRx n) s = .next (s.after (s.hub.tcPrSwap n)) := rfl

theorem exec_tcDrSwapRx (n : Nat) (s : State) : exec (.tcDrSwapRx n) s = .next (s.after (s.hub.tcDrSwap n)) := rfl

theorem exec_tcVconnSwapRx (n : Nat) (s : State) : exec (.tcVconnSwapRx n) s = .next (s.after (s.hub.tcVconnSwap n)) := rfl

theorem exec_tcHardResetRx (n : Nat) (s : State) : exec (.tcHardResetRx n) s = .next (s.after (s.hub.tcHardReset n false)) := rfl

theorem exec_tcReoffer (n : Nat) (s : State) : exec (.tcReoffer n) s = .next (s.after (s.hub.tcReoffer n)) := rfl

theorem exec_tcSenderResponseTimeout (n : Nat) (s : State) :
    exec (.tcSenderResponseTimeout n) s = .next (s.after (s.hub.tcNoResponse n)) := rfl

theorem exec_tSrcRecoverEnd (n : Nat) (s : State) : exec (.tSrcRecoverEnd n) s = .next (s.after (s.hub.tcRecoverEnd n)) := rfl

theorem exec_sourceCapabilitiesRx (n : Nat) (p : Pdos) (s : State) :
    exec (.sourceCapabilitiesRx n p) s = .next (s.after (s.hub.tcSourceCaps n p.pdos)) := rfl

theorem exec_psRdyRx (n : Nat) (s : State) : exec (.psRdyRx n) s = .next (s.after (s.hub.tcPsRdy n)) := rfl

theorem exec_eprKeepaliveRx (n : Nat) (s : State) : exec (.eprKeepaliveRx n) s = .next (s.after (s.hub.tcKeepAlive n)) := rfl

theorem exec_unsupportedPdMessageRx (n msg : Nat) (s : State) :
    exec (.unsupportedPdMessageRx n msg) s = .next (s.after (s.hub.tcUnsupported n msg)) := rfl

theorem exec_tcAltMode (n : Nat) (ack : Bool) (s : State) : exec (.tcAltMode n ack) s = .next (s.after (s.hub.tcConfigured n ack)) := rfl

theorem exec_structuredVdmResponseRx (n : Nat) (v : Vdm) (s : State) :
    exec (.structuredVdmResponseRx n v) s = .next (s.after (s.hub.tcVdm n v)) := rfl

/-- HPD without an IRQ is all that an Attention message brings. -/
theorem exec_tcAttentionRx (n : Nat) (hpd : Bool) (s : State) :
    exec (.tcAttentionRx n hpd false) s = .next (s.after (s.hub.tcAttention n hpd)) := rfl

/-- Settles O42, each clause from the lemma on the PD message or the timer it speaks of. -/
theorem powerDeliveryFollowsItsRules : Obligations.PowerDeliveryFollowsItsRules := by
  unfold Obligations.PowerDeliveryFollowsItsRules
  refine ⟨?noSwap, ?prSwapOver, ?request, ?notOffered, ?overCurrent, ?powerGood, ?epr, ?noEpr, ?prSwap, ?noPrSwap, ?drSwap, ?noDrSwap,
    ?vconnSwap, ?resetUnattached, ?resetSource, ?reoffer, ?reofferEpr, ?notDue, ?noResponse, ?recoverEnd, ?sourceCaps, ?psRdySink,
    ?psRdySwapped, ?keepAlive, ?getSinkCap, ?unsupported, ?configured, ?configuredHpd, ?configureRefused, ?cable, ?entered, ?dpStatus,
    ?attention⟩
  case noSwap =>
    intro h n h2 h3 h1
    exact ⟨Hub.tcAnswered_none h2 h3 h1, Hub.tcSwapped_none h2 h3⟩
  case prSwapOver =>
    intro h n h1 ha
    exact Hub.tcAnswered_prSwap h1 ha
  case request =>
    intro s n y pos mA i mv top hy hw hs hr ho hm
    rw [exec_tcRequestRx, Hub.tcRequest_accepted hy hw hs hr ho hm]
  case notOffered =>
    intro s n y pos mA hy hw hs hr ho
    rw [exec_tcRequestRx, Hub.tcRequest_notOffered hy hw hs hr ho]
  case overCurrent =>
    intro s n y pos mA i mv top hy hw hs hr ho hm
    rw [exec_tcRequestRx, Hub.tcRequest_overCurrent hy hw hs hr ho hm]
  case powerGood =>
    intro s n mv ma hn hs
    rw [exec_tcPowerGood, Hub.tcPowerGood_contract hn hs]
  case epr =>
    intro s n y pdp hy hw hs he
    rw [exec_tcEprEnterRx, Hub.tcEprEnter_succeeds hy hw hs he]
  case noEpr =>
    intro s n y pdp hy hw hs he
    rw [exec_tcEprEnterRx, Hub.tcEprEnter_fails hy hw hs he]
  case prSwap =>
    intro s n y hy hw hs ha
    rw [exec_tcPrSwapRx, Hub.tcPrSwap_accepted hy hw hs ha]
  case noPrSwap =>
    intro s n y hy hw hs ha
    rw [exec_tcPrSwapRx, Hub.tcPrSwap_rejected hy hw hs ha]
  case drSwap =>
    intro s n y hy hw ha hd
    rw [exec_tcDrSwapRx, Hub.tcDrSwap_accepted hy hw ha hd]
  case noDrSwap =>
    intro s n y hy hw ha hd
    rw [exec_tcDrSwapRx, Hub.tcDrSwap_rejected hy hw ha hd]
  case vconnSwap =>
    intro s n y hy hw ha
    rw [exec_tcVconnSwapRx, Hub.tcVconnSwap_accepted hy hw ha]
  case resetUnattached =>
    intro s n ha
    rw [exec_tcHardResetRx, Hub.tcHardReset_unattached false ha]
  case resetSource =>
    intro s n x hs hw hn hx
    rw [exec_tcHardResetRx, Hub.tcHardReset_source hs hw hn hx]
  case reoffer =>
    intro s n hd hs hw hn hr hx ho he
    rw [exec_tcReoffer, Hub.tcReoffer_due hd, Hub.tcOfferAnew_spr (Hub.tcCanOffer_idle hs hw hn hr hx ho) he]
  case reofferEpr =>
    intro s n hd hs hw hn hr hx ho he ha
    rw [exec_tcReoffer, Hub.tcReoffer_due hd, Hub.tcOfferAnew_leavesEpr (Hub.tcCanOffer_idle hs hw hn hr hx ho) he ha]
  case notDue =>
    intro s n hd
    rw [exec_tcReoffer, Hub.tcReoffer_notDue hd]
  case noResponse =>
    intro s n t ho
    rw [exec_tcSenderResponseTimeout, Hub.tcNoResponse_resets ho]
  case recoverEnd =>
    intro s n hr hd
    rw [exec_tSrcRecoverEnd, Hub.tcRecoverEnd_recovers hr hd]
  case sourceCaps =>
    rintro s n y pd w b c hy hw hs rfl rfl hc
    rw [exec_sourceCapabilitiesRx, Hub.tcSourceCaps_requests pd hy hw hs hc]
  case psRdySink =>
    intro s n mv ma y hy hw hs h0 hn
    rw [exec_psRdyRx, Hub.tcPsRdy_sink hy hw hs h0 hn]
  case psRdySwapped =>
    intro s n y x hy hw hs h1 hx
    rw [exec_psRdyRx, Hub.tcPsRdy_swapped hy hw hs h1 hx]
  case keepAlive =>
    intro s n y hy hw he
    rw [exec_eprKeepaliveRx, Hub.tcKeepAlive_acknowledged hy hw he]
  case getSinkCap =>
    intro s n y hy hw ha
    rw [exec_unsupportedPdMessageRx, Hub.tcUnsupported_getSinkCap hy hw ha]
  case unsupported =>
    intro s n y msg hy hw ha hm
    rw [exec_unsupportedPdMessageRx, Hub.tcUnsupported_other hy hw ha hm]
  case configured =>
    intro s n hs ha hh
    rw [exec_tcAltMode, Hub.tcConfigured_eq hs ha, hh]
    rfl
  case configuredHpd =>
    intro s n hs ha hh
    rw [exec_tcAltMode, Hub.tcConfigured_eq hs ha, hh]
    rfl
  case configureRefused =>
    intro s n hs ha
    rw [exec_tcAltMode, Hub.tcConfigured_eq hs ha, if_neg Bool.false_ne_true, Hub.altRefused]
  case cable =>
    intro s n y v hy hw hs hv hf h1
    rw [exec_structuredVdmResponseRx, Hub.tcVdm_cable hy hw hs hv hf h1]
  case entered =>
    intro s n y v hy hw hal ha h4 hs hv
    rw [exec_structuredVdmResponseRx, Hub.tcVdm_entered hy hw ha hal h4 hs hv]
  case dpStatus =>
    intro s n y v hy hw hal ha h5 hs
    rw [exec_structuredVdmResponseRx, Hub.tcVdm_status hy hw ha hal h5 hs]
  case attention =>
    rintro s n hpd x rfl
    exact exec_tcAttentionRx n hpd s

end Sys2Proof.Machine
end

section
/-!
SUPPORT. TC_PORT_CONTROL and TC_PORT_STATUS (O43).
-/
namespace Sys2Proof.Machine

/-! ## TC_PORT_CONTROL (R326) -/

/-- The request's action on port n: its payload is well formed and the port exists. -/
structure Request.ControlsPort (r : Request) (n action : Nat) : Prop where
  length   : r.payload.length = 4
  port     : r.arg 0 1 = n
  action   : r.arg 1 1 = action
  reserved : r.arg 2 2 = 0
  exists_  : n ≤ 3

theorem forced_controlsPort {q : Req} {n action : Nat} (ha : action < 256) (hl : q.payload.length = 4) (hn : n = le q.payload 0 1)
    (hz : le q.payload 2 2 = 0) (h3 : n ≤ 3) : (reqOn (force q 1 action) 0x0C02).ControlsPort n action where
  length := (length_force q 1 action).trans hl
  port := by rw [reqOn_arg, le_force_other q 1 action 0 1 (by omega), hn]
  action := by rw [reqOn_arg, le_force_same q 1 action (by omega), Nat.mod_eq_of_lt ha]
  reserved := by rw [reqOn_arg, le_force_other q 1 action 2 2 (by omega), hz]
  exists_ := h3

section Control
variable {h : Hub} {r : Request} {n : Nat}

/-- Nothing is possible on a port that is not attached, and only a Hard Reset during a swap. -/
theorem Hub.tcControl_impossible {action : Nat} (hr : r.ControlsPort n action) (h1 : 1 < action) (h6 : action ≤ 6)
    (hi : (h.tcp n).attached = false ∨ (h.tcp n).swap ≠ 0) : h.tcControl r = (h, .err .conflict) := by
  obtain ⟨hl, hn, ha, hz, h3⟩ := hr
  have impossible : (!(h.tcp n).attached || !h.pdWorks || (decide (action ≠ 1) && (decide ((h.tcp n).swap ≠ 0) || (h.tcp n).recover ||
      (h.tcp n).next.isSome))) = true := by
    rcases hi with e | e <;> simp [e, Nat.ne_of_gt h1]
  simp only [Hub.tcControl, r.not_has 4 hl, hn, ha, hz, Nat.ne_of_gt (Nat.zero_lt_of_lt h1), Nat.not_lt.mpr h6, Nat.not_lt.mpr h3, impossible,
    ne_eq, not_true_eq_false, decide_false, Bool.or_self, Bool.false_eq_true, if_false, if_true]

variable (ha : (h.tcp n).attached = true) (hw : h.pdWorks = true)
include ha hw

theorem Hub.tcControl_hardReset (hr : r.ControlsPort n 1) : h.tcControl r = (h.tcHardReset n true, .ok []) := by
  obtain ⟨hl, hn, hact, hz, h3⟩ := hr
  simp [Hub.tcControl, hl, hn, hact, hz, Nat.not_lt.mpr h3, ha, hw]

variable (hs : (h.tcp n).swap = 0) (hrec : (h.tcp n).recover = false) (hnext : (h.tcp n).next = none)
include hs hrec hnext

theorem Hub.tcControl_prSwap (hr : r.ControlsPort n 2) (hrole : (h.tcp n).state ≠ .attachedSnk ∨ (h.tcp n).snk = false) :
    h.tcControl r = ((h.modTc n (fun t => { t with swap := 1, asked := true, offerAt := none })).pd n "PR_Swap" [], .ok []) := by
  obtain ⟨hl, hn, hact, hz, h3⟩ := hr
  have swaps : (decide ((h.tcp n).state = .attachedSnk) && (h.tcp n).snk) = false := by rcases hrole with e | e <;> simp [e]
  simp [Hub.tcControl, hl, hn, hact, hz, Nat.not_lt.mpr h3, ha, hw, hs, hrec, hnext, swaps]

theorem Hub.tcControl_drSwap (hr : r.ControlsPort n 3) :
    h.tcControl r = (((h.altExit n true).modTc n (fun t => { t with swap := 2, asked := true })).pd n "DR_Swap" [], .ok []) := by
  obtain ⟨hl, hn, hact, hz, h3⟩ := hr
  simp [Hub.tcControl, hl, hn, hact, hz, Nat.not_lt.mpr h3, ha, hw, hs, hrec, hnext]

theorem Hub.tcControl_vconnSwap (hr : r.ControlsPort n 4) :
    h.tcControl r = ((h.modTc n (fun t => { t with swap := 3, asked := true })).pd n "VCONN_Swap" [], .ok []) := by
  obtain ⟨hl, hn, hact, hz, h3⟩ := hr
  simp [Hub.tcControl, hl, hn, hact, hz, Nat.not_lt.mpr h3, ha, hw, hs, hrec, hnext]

theorem Hub.tcControl_reoffer (hr : r.ControlsPort n 5) (hc : h.tcCanOffer n = true) : h.tcControl r = (h.tcOfferAnew n, .ok []) := by
  obtain ⟨hl, hn, hact, hz, h3⟩ := hr
  simp [Hub.tcControl, hl, hn, hact, hz, Nat.not_lt.mpr h3, ha, hw, hs, hrec, hnext, hc]

theorem Hub.tcControl_exit (hr : r.ControlsPort n 6) (halt : (h.tcp n).alt ≠ 0) : h.tcControl r = (h.altExit n true, .ok []) := by
  obtain ⟨hl, hn, hact, hz, h3⟩ := hr
  simp [Hub.tcControl, hl, hn, hact, hz, Nat.not_lt.mpr h3, ha, hw, hs, hrec, hnext, halt]

theorem Hub.tcControl_noMode (hr : r.ControlsPort n 6) (halt : (h.tcp n).alt = 0) : h.tcControl r = (h, .err .conflict) := by
  obtain ⟨hl, hn, hact, hz, h3⟩ := hr
  simp [Hub.tcControl, hl, hn, hact, hz, Nat.not_lt.mpr h3, ha, hw, hs, hrec, hnext, halt]

end Control

/-! ## TC_PORT_STATUS (R326) -/

theorem Hub.tcStatus_ok {h : Hub} {r : Request} {n : Nat} (hl : r.payload.length = 1) (hn : n = r.arg 0 1) (h3 : n ≤ 3) :
    h.tcStatus r = (h, .ok (leBytes 4 (h.tcp n).word ++ leBytes 8 (h.tcp n).contract ++ leBytes 2 (h.tcp n).cableMa ++ leBytes 2 0)) := by
  subst hn
  simp only [Hub.tcStatus, r.not_has 1 hl, Nat.not_lt.mpr h3, Bool.false_eq_true, if_false]

/-! ## The commands -/

theorem exec_tcSendHardReset (q : Req) (s : State) :
    exec (.tcSendHardReset q) s = .next (s.after (s.hub.request 0x0C02 (force q 1 1) Hub.tcControl)) := rfl

theorem exec_tcRequestPrSwap (q : Req) (s : State) :
    exec (.tcRequestPrSwap q) s = .next (s.after (s.hub.request 0x0C02 (force q 1 2) Hub.tcControl)) := rfl

theorem exec_tcRequestDrSwap (q : Req) (s : State) :
    exec (.tcRequestDrSwap q) s = .next (s.after (s.hub.request 0x0C02 (force q 1 3) Hub.tcControl)) := rfl

theorem exec_tcRequestVconnSwap (q : Req) (s : State) :
    exec (.tcRequestVconnSwap q) s = .next (s.after (s.hub.request 0x0C02 (force q 1 4) Hub.tcControl)) := rfl

theorem exec_tcReofferCapabilities (q : Req) (s : State) :
    exec (.tcReofferCapabilities q) s = .next (s.after (s.hub.request 0x0C02 (force q 1 5) Hub.tcControl)) := rfl

theorem exec_tcExitAltMode (q : Req) (s : State) :
    exec (.tcExitAltMode q) s = .next (s.after (s.hub.request 0x0C02 (force q 1 6) Hub.tcControl)) := rfl

theorem exec_tcPortStatus (q : Req) (s : State) : exec (.tcPortStatus q) s = .next (s.after (s.hub.request 0x0C03 q Hub.tcStatus)) := rfl

/-- Settles O43, each clause from what the action does on the port in that state. -/
theorem typeCCommandsAct : Obligations.TypeCCommandsAct := by
  unfold Obligations.TypeCCommandsAct
  refine ⟨?hardReset, ?prSwap, ?drSwap, ?vconnSwap, ?reoffer, ?exit, ?noMode, ?conflict, ?status⟩
  case hardReset =>
    intro s q a n hq hA hl hn hz h3 ha hw
    have hbody := Hub.tcControl_hardReset ha hw (forced_controlsPort (by decide) hl hn hz h3)
    rw [exec_tcSendHardReset, Hub.request_plain s.hub _ _ _ a _ _ (by decide) hq hA hbody]
  case prSwap =>
    intro s q a n hq hA hl hn hz h3 ha hw hs hrec hnext hrole
    have hbody := Hub.tcControl_prSwap ha hw hs hrec hnext (forced_controlsPort (by decide) hl hn hz h3) hrole
    rw [exec_tcRequestPrSwap, Hub.request_plain s.hub _ _ _ a _ _ (by decide) hq hA hbody]
  case drSwap =>
    intro s q a n hq hA hl hn hz h3 ha hw hs hrec hnext
    have hbody := Hub.tcControl_drSwap ha hw hs hrec hnext (forced_controlsPort (by decide) hl hn hz h3)
    rw [exec_tcRequestDrSwap, Hub.request_plain s.hub _ _ _ a _ _ (by decide) hq hA hbody]
  case vconnSwap =>
    intro s q a n hq hA hl hn hz h3 ha hw hs hrec hnext
    have hbody := Hub.tcControl_vconnSwap ha hw hs hrec hnext (forced_controlsPort (by decide) hl hn hz h3)
    rw [exec_tcRequestVconnSwap, Hub.request_plain s.hub _ _ _ a _ _ (by decide) hq hA hbody]
  case reoffer =>
    intro s q a n hq hA hl hn hz h3 ha hw hs hrec hnext hst ho he
    have can := Hub.tcCanOffer_idle hst hw hs hrec hnext ho
    have hbody := Hub.tcControl_reoffer ha hw hs hrec hnext (forced_controlsPort (by decide) hl hn hz h3) can
    rw [exec_tcReofferCapabilities, Hub.request_plain s.hub _ _ _ a _ _ (by decide) hq hA hbody, Hub.tcOfferAnew_spr can he]
  case exit =>
    intro s q a n hq hA hl hn hz h3 ha hw hs hrec hnext halt
    have hbody := Hub.tcControl_exit ha hw hs hrec hnext (forced_controlsPort (by decide) hl hn hz h3) halt
    rw [exec_tcExitAltMode, Hub.request_plain s.hub _ _ _ a _ _ (by decide) hq hA hbody]
  case noMode =>
    intro s q a n hq hA hl hn hz h3 ha hw hs hrec hnext halt
    have hbody := Hub.tcControl_noMode ha hw hs hrec hnext (forced_controlsPort (by decide) hl hn hz h3) halt
    rw [exec_tcExitAltMode, Hub.request_plain s.hub _ _ _ a _ _ (by decide) hq hA hbody]
  case conflict =>
    intro s q a n hq hA hl hn hz h3 hi
    have hbody := a.tcControl_impossible (forced_controlsPort (action := 2) (by decide) hl hn hz h3) (by decide) (by decide) hi
    rw [exec_tcRequestPrSwap, Hub.request_plain s.hub _ _ _ a _ _ (by decide) hq hA hbody]
  case status =>
    intro s q a n hq hA hl hn h3
    have hbody := a.tcStatus_ok (r := reqOn q 0x0C03) hl hn h3
    rw [exec_tcPortStatus, Hub.request_plain s.hub _ _ _ a _ _ (by decide) hq hA hbody]

end Sys2Proof.Machine
end

section
/-!
SUPPORT. The frame stores of the display heads: line packets and PPS cells (O44).
-/
namespace Sys2Proof.Machine

/-! ## A frame opens (R333) -/

section Open
variable {h x : Hub} {d : Nat} {b : List Byte} (pps : List Byte) (hx : x = h.modHead d (fun y => { y with last := some (be b 2 2) }))
include hx

theorem Hub.dsOpen_skips (hf : x.freeBuf d = none) : h.dsOpen d b pps = x.bump P.DS_FRAME_SKIP d := by
  subst hx
  simp only [Hub.dsOpen, hf]

theorem Hub.dsOpen_opens {k : Nat} (hf : x.freeBuf d = some k) :
    h.dsOpen d b pps = x.modHead d (fun y => { y with
      opened := some ⟨k, 0, pps, []⟩
      bufs := modAt y.bufs k (fun _ => ⟨be b 2 2, bit (byteAt b 1) 0, (h.geometry d).1, (h.geometry d).2, false, []⟩) }) := by
  subst hx
  simp only [Hub.dsOpen, hf]

end Open

/-! ## A line of the open frame (R330, R331, R333) -/

section Line
variable {h : Hub} {d y : Nat} {o : DsOpen} {b : List Byte} {q : DsBuf} (hq : q = nth (h.head d).bufs o.buf DsBuf.reset) (hy : y = be b 4 2)
include hq hy

/-- A line that does not fit the geometry abandons the frame. -/
theorem Hub.dsLine_unfit (hu : q.w < be b 6 2 ∨ q.h ≤ y) :
    h.dsLine d o b = (h.modHead d (fun x => { x with opened := none })).bump P.DS_GEOMETRY_DROP d := by
  subst hq hy
  have unfit : (decide ((nth (h.head d).bufs o.buf DsBuf.reset).w < be b 6 2) ||
      decide ((nth (h.head d).bufs o.buf DsBuf.reset).h ≤ be b 4 2)) = true := by simpa using hu
  simp only [Hub.dsLine, unfit, if_true, Hub.dsAbandon]

variable (hw : be b 6 2 ≤ q.w) (hl : packetLength b o.pps = true) (hf : byteAt b 0 / 16 = 0)
include hw hl hf

/-- A line of 8-bit RGB is written at the place of its line. -/
theorem Hub.dsLine_writes (hh : y < q.h) (hm : bit (byteAt b 1) 1 = false) :
    h.dsLine d o b =
      ({ h with dram := writeMem h.dram (pixelAt d o.buf q.w q.h 0 y) ((rgb8 (be b 6 2) (b.drop 16)).flatMap (leBytes 4)) } : Hub).modHead d
        (fun x => { x with opened := some { o with line := y + 1, lines := [] } }) := by
  subst hq hy
  simp [Hub.dsLine, Nat.not_lt.mpr hw, Nat.not_le.mpr hh, hl, hm, hf, packetPixels]

/-- LAST_LINE on the last line completes the frame: it is the newest, with none before it that no head has shown. -/
theorem Hub.dsLine_completes {x : Hub} (hh : y + 1 = q.h) (hm : bit (byteAt b 1) 1 = true)
    (hx : x = { h with dram := writeMem h.dram (pixelAt d o.buf q.w q.h 0 y) ((rgb8 (be b 6 2) (b.drop 16)).flatMap (leBytes 4)) })
    (hn : (x.head d).newest = none) :
    h.dsLine d o b = (x.modHead d (fun z => { z with
      opened := none, newest := some o.buf, bufs := modAt z.bufs o.buf (fun q => { q with done := true }) })).bump P.DS_FRAMES_IN d := by
  have below : ¬ q.h ≤ y := by omega
  subst hq hy hx
  simp [Hub.dsLine, Nat.not_lt.mpr hw, below, hl, hm, hf, hh, packetPixels, hn]

end Line

/-! ## A line packet (R330, R333, R335) -/

section Packet
variable {h x : Hub} {f : Frame} {d : Nat} (hx : x = h.takeFrame 6 f)
include hx

theorem Hub.dsPacket_gated (hw : x.works 9 = false) :
    h.dsPacket f = if x.al.gov.level = 3 then x.bump P.AL_GOV_DROP 6 else x := by
  subst hx
  simp only [Hub.dsPacket, hw, Bool.not_false, if_true]

variable (hd : d = (h.tun f.entry).binding % 2) (hw : x.works 9 = true)
include hd hw

theorem Hub.dsPacket_clone (h1 : d = 1) (hc : x.clone = true) : h.dsPacket f = x.bump P.DS_CLONE_DROP 0 := by
  subst hx
  simp [Hub.dsPacket, hw, ← hd, h1, hc]

variable (hc : (decide (d = 1) && x.clone) = false)
include hc

theorem Hub.dsPacket_malformed {fr : Nat} (hfr : fr = be f.bytes 2 2) (hg : packetGood f.bytes = false) :
    h.dsPacket f =
      ((x.modHead d (fun y => { y with last := some fr })).modHead d (fun y => { y with opened := none })).bump P.DS_FORMAT_ERR d := by
  subst hx hfr
  simp only [Hub.dsPacket, hw, ← hd, hc, hg, Bool.not_true, Bool.not_false, Bool.true_or, Bool.false_eq_true, if_false, if_true, Hub.dsAbandon]

variable {fr : Nat} (hfr : fr = be f.bytes 2 2) (hg : packetGood f.bytes = true) (hdsc : byteAt f.bytes 0 / 16 ≠ 2)
include hfr hg hdsc

/-- The next line of the open frame. -/
theorem Hub.dsPacket_nextLine {o : DsOpen} (ho : (x.head d).opened = some o) (hl : (x.head d).last = some fr) (hn : o.line = be f.bytes 4 2) :
    h.dsPacket f = x.dsLine d o f.bytes := by
  subst hx hfr
  simp [Hub.dsPacket, hw, ← hd, hc, hg, hdsc, ho, hl, hn]

/-- Line 0 of a new frame opens it, and is the first line of the frame that it opened. -/
theorem Hub.dsPacket_newFrame {y : Hub} (ho : (x.head d).opened = none) (h0 : be f.bytes 4 2 = 0) (hl : (x.head d).last ≠ some fr)
    (hy : y = x.dsOpen d f.bytes ((((x.head d).pps.find? (fun e => e.1 == byteAt f.bytes 8 && ppsGood e.2 (x.geometry d))).map (·.2)).getD [])) :
    h.dsPacket f = (y.head d).opened.elim y (fun o => if o.line = 0 then y.dsLine d o f.bytes else y) := by
  subst hx hfr
  simp [Hub.dsPacket, hw, ← hd, hc, hg, hdsc, ho, hl, h0, ← hy]
  cases (y.head d).opened <;> rfl

end Packet

/-! ## A PPS cell (R331) -/

section Pps
variable {h x : Hub} {i d : Nat} {p : List Byte} (hd : d = (h.tun i).binding % 2) (hx : x = h.takeFrame 6 ⟨i, (h.tun i).peer, true, p⟩)
  (hw : x.works 9 = true)
include hd hx hw

theorem Hub.dsPps_malformed (hb : byteAt p 0 ≠ 0x10 ∨ p.length ≠ 140) : h.dsPps i p = x.bump P.DS_FORMAT_ERR d := by
  subst hd hx
  have bad : (decide (byteAt p 0 ≠ 0x10) || decide (p.length ≠ 140) || !allZero (slice (p.drop 8) 1 3)) = true := by
    rcases hb with e | e <;> simp [e]
  simp only [Hub.dsPps, hw, bad, Bool.not_true, Bool.false_eq_true, if_false, if_true]

variable (h0 : byteAt p 0 = 0x10) (hl : p.length = 140) (hz : allZero (slice (p.drop 8) 1 3) = true)
include h0 hl hz

/-- A PPS is stored under its tag, or refused, and then no packet finds its tag. -/
theorem Hub.dsPps_judged :
    h.dsPps i p =
      if ppsGood ((p.drop 8).drop 4) (x.geometry d) then
        x.modHead d (fun y => { y with pps := keep 4 ((byteAt (p.drop 8) 0, (p.drop 8).drop 4) :: y.pps.filter (fun e => e.1 != byteAt (p.drop 8) 0)) })
      else (x.modHead d (fun y => { y with pps := y.pps.filter (fun e => e.1 != byteAt (p.drop 8) 0) })).bump P.DS_FORMAT_ERR d := by
  subst hd hx
  cases hp : ppsGood ((p.drop 8).drop 4) ((h.takeFrame 6 ⟨i, (h.tun i).peer, true, p⟩).geometry ((h.tun i).binding % 2)) <;>
    simp only [Hub.dsPps, hw, h0, hl, hz, hp, Bool.not_true, Bool.not_false, ne_eq, not_true_eq_false, decide_false, Bool.or_self,
      Bool.false_eq_true, if_false, if_true]

end Pps

/-! ## The commands -/

theorem exec_dsLinePacket (f : Frame) (s : State) : exec (.dsLinePacket f) s = .next (s.after (s.hub.dsPacket f)) := rfl

theorem exec_dsPpsRx (i : Nat) (c : Cell) (s : State) : exec (.dsPpsRx i c) s = .next (s.after (s.hub.dsPps i c.payload)) := rfl

/-- Settles O44, each clause from the lemma on the packet, the line or the PPS it speaks of. -/
theorem linePacketsFillFrameStores : Obligations.LinePacketsFillFrameStores := by
  unfold Obligations.LinePacketsFillFrameStores
  refine ⟨?gated, ?clone, ?malformed, ?nextLine, ?opens, ?skips, ?noBuf, ?buf, ?unfit, ?line, ?lastLine, ?pps, ?ppsRefused, ?ppsBad⟩
  case gated =>
    intro s f d x hd hx hw
    rw [exec_dsLinePacket, Hub.dsPacket_gated hx hw]
  case clone =>
    intro s f d x hd hx hw h1 hc
    rw [exec_dsLinePacket, Hub.dsPacket_clone hx hd hw h1 hc]
  case malformed =>
    intro s f d x fr hd hx hw hc hfr hg
    rw [exec_dsLinePacket, Hub.dsPacket_malformed hx hd hw hc hfr hg]
  case nextLine =>
    intro s f d x fr o hd hx hw hc hfr hg ho hl hn hdsc
    rw [exec_dsLinePacket, Hub.dsPacket_nextLine hx hd hw hc hfr hg hdsc ho hl hn]
  case opens =>
    intro s f d x fr y o hd hx hw hc hfr hg hdsc ho h0 hl hy hyo hz
    rw [exec_dsLinePacket, Hub.dsPacket_newFrame hx hd hw hc hfr hg hdsc ho h0 hl hy]
    rw [hyo, Option.elim_some, if_pos hz]
  case skips =>
    intro s f d x fr y hd hx hw hc hfr hg hdsc ho h0 hl hy hyo
    rw [exec_dsLinePacket, Hub.dsPacket_newFrame hx hd hw hc hfr hg hdsc ho h0 hl hy]
    rw [hyo, Option.elim_none]
  case noBuf =>
    intro h d b pps x hx hf
    exact Hub.dsOpen_skips pps hx hf
  case buf =>
    intro h d k b pps x hx hf
    exact Hub.dsOpen_opens pps hx hf
  case unfit =>
    intro h d y o b q hq hy hu
    exact Hub.dsLine_unfit hq hy hu
  case line =>
    intro h d y o b q hq hy hw hh hl hf hm
    exact Hub.dsLine_writes hq hy hw hl hf hh hm
  case lastLine =>
    intro h d y o b q x hq hy hw hh hl hf hm hx hn
    exact Hub.dsLine_completes hq hy hw hl hf hh hm hx hn
  case pps =>
    intro s i d c x hd hx hw h0 hl hz hg
    rw [exec_dsPpsRx, Hub.dsPps_judged hd hx hw h0 hl hz, hg, if_pos rfl]
  case ppsRefused =>
    intro s i d c x hd hx hw h0 hl hz hg
    rw [exec_dsPpsRx, Hub.dsPps_judged hd hx hw h0 hl hz, hg, if_neg Bool.false_ne_true]
  case ppsBad =>
    intro s i d c x hd hx hw hb
    rw [exec_dsPpsRx, Hub.dsPps_malformed hd hx hw hb]

end Sys2Proof.Machine
end

section
/-!
SUPPORT. The display heads: frame boundaries, alarms, links, routes and their requests (O45).
-/
namespace Sys2Proof.Machine

/-! ## The scan that ends and the one that begins (R334, R337, R339, R340) -/

theorem Hub.scanEnd_signs {h : Hub} {d g old : Nat} {sc : DsScan} (hs : (h.head d).scan = some sc) (hg : g = h.signature d sc)
    (ho : (h.head d).sig = some old) :
    h.scanEnd d = h.modHead d (fun x => { x with
      sig := some g, scans := (x.scans + 1) % 2 ^ 32, at_ := h.clk.ns, frame := sc.frame,
      same := if old ≠ g then 0 else if sc.fresh then min 255 ((h.head d).same + 1) else (h.head d).same, under := [] }) := by
  subst hg
  simp only [Hub.scanEnd, hs, ho]

/-- Without a complete frame the fallback pattern is scanned. -/
theorem Hub.scanStart_fallback {h : Hub} {d : Nat} (hn : (h.head (h.storeOf d)).newest = none) :
    h.scanStart d = h.modHead d (fun x => { x with
      scan := some (h.newScan d (h.storeOf d) none 0 false (h.activeSize d)), stale := min 255 (x.stale + 1) }) := by
  simp only [Hub.scanStart, hn, Option.bind_none]

theorem Hub.frozenStep_raises {h : Hub} {d : Nat} (hf : (h.head d).frozen = false) (hs : h.pget P.DS_FREEZE_N d ≤ (h.head d).same) :
    h.frozenStep d = ((h.modHead d (fun x => { x with frozen := true })).bump P.DS_FROZEN_COUNT d).dsAlarm d P.DS_FREEZE_ACTION true := by
  simp only [Hub.frozenStep, hf, hs, Bool.not_false, decide_true, Bool.and_self, if_true]

theorem Hub.starvedStep_clears {h : Hub} {d : Nat} (hs : (h.head d).starved = true) (h0 : (h.head d).stale = 0)
    (hl : bit (h.pget P.DS_ALARM_LATCH d) 1 = false) :
    h.starvedStep d = (h.modHead d (fun x => { x with starved := false })).dsAlarm d P.DS_STARVE_ACTION false := by
  simp only [Hub.starvedStep, hs, h0, hl, Bool.not_true, Bool.not_false, Bool.false_and, decide_true, Bool.and_self, Bool.false_eq_true, if_false,
    if_true]

section Boundary
variable {h x z : Hub} {d : Nat} (hz : z = h.scanEnd d)
include hz

theorem Hub.dsBoundary_scans {y : Hub} (hr : z.pget P.DS_ROUTE d = z.routeOf d) (hx : x = z.dsCarry d) (h0 : x.routeOf d ≠ 0)
    (hu : (x.head d).up = true) (hv : (x.head d).video = true) (ho : x.dsOutput d = true)
    (hy : y = x.modHead d (fun z => { z with half := x.wantHalf d })) :
    h.dsBoundary d = (((y.scanStart d).frozenStep d).starvedStep d).showScan d := by
  subst hz hy hx
  simp only [Hub.dsBoundary, hr, if_true, h0, hu, hv, ho, decide_false, Bool.not_true, Bool.or_self, Bool.false_eq_true, if_false]

/-- A head without a route or a link scans nothing. -/
theorem Hub.dsBoundary_still
    (hx : x = (if z.pget P.DS_ROUTE d = z.routeOf d then z else (z.modHead d (fun y => { y with scan := none })).dsRouted d).dsCarry d)
    (hn : x.routeOf d = 0 ∨ (x.head d).up = false) : h.dsBoundary d = x.dsStill d := by
  subst hz
  have still : (decide (x.routeOf d = 0) || !(x.head d).up || !(x.head d).video || !x.dsOutput d) = true := by rcases hn with e | e <;> simp [e]
  simp only [Hub.dsBoundary, ← hx, still, if_true]

end Boundary

/-! ## Links (R328) -/

/-- A link that no longer carries its pixels blanks its head. -/
theorem Hub.dsCarry_blanks {h : Hub} {d : Nat} (hu : (h.head d).up = true) (hv : (h.head d).video = true) (hf : h.dsFits d = false) :
    h.dsCarry d = ((h.modHead d (fun x => { x with video := false })).dsStill d).dsLink d 0 2 := by
  simp [Hub.dsCarry, hu, hv, hf, Hub.dsVideo]

theorem Hub.dsTrain_noOutput {h : Hub} {d : Nat} (l r : Nat) (ho : h.dsOutput d = false) : h.dsTrain d l r = h := by
  simp only [Hub.dsTrain, ho, Bool.not_false, if_true]

section Train
variable {h : Hub} {d : Nat} (ho : h.dsOutput d = true)
include ho

theorem Hub.dsTrain_fails {l r : Nat} (hn : l = 0 ∨ r = 0) :
    h.dsTrain d l r = ((h.modHead d (fun x => { x with up := false, video := false, lanes := 0, rate := 0 })).dsStill d).dsLink d 0 1 := by
  rcases hn with rfl | rfl <;> simp [Hub.dsTrain, ho, Hub.dsDown]

/-- A link on four lanes takes the lesser rate, and video goes where it carries the pixels. -/
theorem Hub.dsTrain_trains {r n : Nat} {x : Hub} (hn : n = min r (bits (h.pget P.DS_LINK_MAX d) 0 4)) (hl : 4 ≤ h.dsLanes d) (h1 : 1 ≤ n)
    (hx : x = h.modHead d (fun y => { y with up := true, lanes := 4, rate := n })) (hf : x.dsFits d = true) :
    h.dsTrain d 4 r = (x.modHead d (fun y => { y with video := true })).dsLink d 1 0 := by
  have trained : n ≠ 0 := by omega
  simp only [Hub.dsTrain, ho, Nat.min_eq_left hl, ← hn, trained, Nat.le_refl, OfNat.ofNat_ne_zero, decide_false, Bool.or_self, Bool.not_true,
    Bool.false_eq_true, if_false, if_true, ← hx, Hub.dsVideo, hf]

end Train

/-! ## Underruns (R338) -/

section Underrun
variable {h x : Hub} {d line px : Nat} {sc : DsScan} (hs : (h.head d).scan = some sc)
  (hx : x = (h.modHead d (fun y => { y with
    under := y.under ++ [(line, px)], recent := h.clk.up :: y.recent.filter (fun t => h.clk.up < t + ms 1000) })).bump P.DS_UNDERRUN d)
include hs hx

theorem Hub.dsUnderrun_tells (ht : (x.head d).toldAt = 0) :
    h.dsUnderrun d line px = (x.modHead d (fun y => { y with toldAt := h.clk.up + 1 })).event .dsUnderrunEvt
      [(0, 1, d), (2, 2, line), (4, 4, (x.head d).recent.length)] := by
  simp only [Hub.dsUnderrun, hs, ← hx, ht, ne_eq, not_true_eq_false, decide_false, Bool.false_and, Bool.false_eq_true, if_false]

/-- Within a second of one that was told an underrun only counts. -/
theorem Hub.dsUnderrun_counts (ht : (x.head d).toldAt ≠ 0) (hn : h.clk.up < (x.head d).toldAt - 1 + ms 1000) : h.dsUnderrun d line px = x := by
  simp only [Hub.dsUnderrun, hs, ← hx, ht, hn, ne_eq, not_false_eq_true, decide_true, Bool.and_self, if_true]

end Underrun

/-! ## DS_ROUTE (R60, R325, R329) -/

theorem Hub.writeParam_route (h : Hub) (mb d v : Nat) (hd : d ≤ 1) (hv : v ≤ 5) (hc : h.conflictsOutside mb P.DS_ROUTE d = false)
    (hr : (h.overlay [⟨P.DS_ROUTE, d, v⟩] []).routeRefused d v = false) :
    h.writeParam mb P.DS_ROUTE d v = (h.stored P.DS_ROUTE d v).dsRouted d := by
  have form := formOf_byteRange P.DS_ROUTE d v 5 _ rfl (by decide) ⟨Nat.zero_le d, Nat.lt_succ_of_le hd⟩ hv (by decide) rfl rfl (by decide) rfl
  have own : h.ownRefusal (h.overlay [⟨P.DS_ROUTE, d, v⟩] []) mb P.DS_ROUTE d v = none := by
    rw [Hub.ownRefusal_route, hr]
    rfl
  rw [Hub.writeParam_eq h mb P.DS_ROUTE d v v form (by decide) (by decide) (by decide) own hc]
  rfl

section Routed
variable {x : Hub} {d v : Nat} (hv : x.pget P.DS_ROUTE d = v)
include hv

/-- A route that is in force already, or that waits for the end of the scan, changes nothing yet. -/
theorem Hub.dsRouted_waits (hn : x.routeOf d = v ∨ (x.head d).scan.isSome = true) : x.dsRouted d = x := by
  have waits : (decide (v = x.routeOf d) || (x.head d).scan.isSome) = true := by rcases hn with e | e <;> simp [e]
  simp only [Hub.dsRouted, hv, waits, if_true]

variable (hs : (x.head d).scan = none) (hu : (x.head d).up = false)
include hs hu

theorem Hub.dsRouted_typeC (h0 : x.routeOf d = 0) (h2 : 2 ≤ v) :
    x.dsRouted d = (x.modHead d (fun y => { y with route := v })).altStart (v - 2) := by
  have some_ : v ≠ 0 := by omega
  have none_ : ¬ 2 ≤ 0 := by decide
  simp only [Hub.dsRouted, hv, hs, hu, h0, h2, some_, none_, Option.isSome_none, decide_false, Bool.or_self, Bool.false_eq_true, if_false,
    if_true]

theorem Hub.dsRouted_leaves (h0 : v = 0) (h2 : 2 ≤ x.routeOf d) :
    x.dsRouted d = ((x.altExit (x.routeOf d - 2) true).dsStill d).modHead d (fun y => { y with route := 0 }) := by
  have other : 0 ≠ x.routeOf d := by omega
  have none_ : ¬ 2 ≤ 0 := by decide
  subst h0
  simp only [Hub.dsRouted, hv, hs, hu, h2, other, none_, Option.isSome_none, decide_false, Bool.or_self, Bool.false_eq_true, if_false, if_true]

end Routed

/-! ## DS_SIGNATURE_READ and DS_ALARM_CLEAR (R342) -/

theorem Hub.dsSignature_ok {h : Hub} {r : Request} {d : Nat} (hl : r.payload.length = 4) (hd : d = r.arg 0 1) (hz : r.arg 1 3 = 0) (h1 : d ≤ 1) :
    h.dsSignature r = (h, .ok (leBytes 4 ((h.head d).sig.getD 0) ++ leBytes 4 (h.head d).scans ++ leBytes 8 (h.head d).at_ ++
      leBytes 2 (h.head d).frame ++ [byte (h.head d).same, byte (h.head d).stale, byte (h.head d).alarms] ++ List.replicate 11 0#8)) := by
  subst hd
  simp only [Hub.dsSignature, r.not_has 4 hl, hz, Nat.not_lt.mpr h1, ne_eq, not_true_eq_false, decide_false, Bool.or_self, Bool.false_eq_true,
    if_false]

/-- A head with the alarms of a mask cleared, and their counts. -/
def Hub.dsCleared (h : Hub) (d m : Nat) : Hub :=
  h.modHead d (fun x => { x with
    frozen := x.frozen && !bit m 0, starved := x.starved && !bit m 1,
    same := if bit m 0 then 0 else x.same, stale := if bit m 1 then 0 else x.stale })

section Clear
variable {h : Hub} {r : Request} {d m : Nat} (hl : r.payload.length = 4) (hd : d = r.arg 0 1) (hm : m = r.arg 1 1) (hz : r.arg 2 2 = 0)
  (h1 : d ≤ 1) (h3 : m ≤ 3) (hs : ((h.head d).starved && bit m 1) = false)
include hl hd hm hz h1 h3 hs

theorem Hub.dsClear_noAlarm (hf : ((h.head d).frozen && bit m 0) = false) : h.dsClear r = (h.dsCleared d m, .ok []) := by
  subst hd hm
  simp only [Hub.dsClear, r.not_has 4 hl, hz, Nat.not_lt.mpr h1, Nat.not_lt.mpr h3, hf, hs, ne_eq, not_true_eq_false, decide_false, Bool.or_self,
    Bool.false_eq_true, if_false, Hub.dsCleared]

/-- FROZEN cleared has the actions of its clearing. -/
theorem Hub.dsClear_frozen (hf : ((h.head d).frozen && bit m 0) = true) :
    h.dsClear r = (((h.dsCleared d m).dsAlarm d P.DS_FREEZE_ACTION false).showScan d, .ok []) := by
  subst hd hm
  simp only [Hub.dsClear, r.not_has 4 hl, hz, Nat.not_lt.mpr h1, Nat.not_lt.mpr h3, hf, hs, ne_eq, not_true_eq_false, decide_false, Bool.or_self,
    Bool.or_false, Bool.false_eq_true, if_false, if_true, Hub.dsCleared]

end Clear

/-! ## The commands -/

theorem exec_dsFrameBoundary (d : Nat) (s : State) : exec (.dsFrameBoundary d) s = .next (s.after (s.hub.dsBoundary d)) := rfl

theorem exec_dsUnderrun (d line px : Nat) (s : State) : exec (.dsUnderrun d line px) s = .next (s.after (s.hub.dsUnderrun d line px)) := rfl

theorem exec_dsHpd (d : Nat) (irq : Bool) (l r : Nat) (s : State) : exec (.dsHpd d irq l r) s = .next (s.after (s.hub.dsTrain d l r)) := rfl

theorem exec_dsRouteWrite (mb d v : Nat) (s : State) :
    exec (.dsRouteWrite mb d v) s = .next (s.after (s.hub.writeParam mb P.DS_ROUTE d v)) := rfl

theorem exec_dsSignatureRead (q : Req) (s : State) :
    exec (.dsSignatureRead q) s = .next (s.after (s.hub.request 0x0B01 q Hub.dsSignature)) := rfl

theorem exec_dsAlarmClear (q : Req) (s : State) : exec (.dsAlarmClear q) s = .next (s.after (s.hub.request 0x0B02 q Hub.dsClear)) := rfl

/-- Settles O45, each clause from the lemma on the boundary, the alarm, the link, the route or the request it speaks of. -/
theorem headsScanAndAlarm : Obligations.HeadsScanAndAlarm := by
  unfold Obligations.HeadsScanAndAlarm
  refine ⟨?scans, ?still, ?dsStill, ?blanks, ?signs, ?fallback, ?frozen, ?starved, ?underrun, ?underrunAgain, ?noOutput, ?trainFails, ?trains,
    ?routeWaits, ?routeTypeC, ?routeLeaves, ?signature, ?clear, ?clearFrozen⟩
  case scans =>
    intro s d x y z hz hr hx h0 hu hv ho hy
    rw [exec_dsFrameBoundary, Hub.dsBoundary_scans hz hr hx h0 hu hv ho hy]
  case still =>
    intro s d x z hz hx hn
    rw [exec_dsFrameBoundary, Hub.dsBoundary_still hz hx hn]
  case dsStill =>
    intro h d
    rfl
  case blanks =>
    intro h d hu hv hf
    exact Hub.dsCarry_blanks hu hv hf
  case signs =>
    intro h d g old sc hs hg ho
    exact Hub.scanEnd_signs hs hg ho
  case fallback =>
    intro h d hn
    exact Hub.scanStart_fallback hn
  case frozen =>
    intro h d hf hs
    exact Hub.frozenStep_raises hf hs
  case starved =>
    intro h d hs h0 hl
    exact Hub.starvedStep_clears hs h0 hl
  case underrun =>
    intro s d line px sc x hs hx ht
    rw [exec_dsUnderrun, Hub.dsUnderrun_tells hs hx ht]
  case underrunAgain =>
    intro s d line px sc x hs hx ht hn
    rw [exec_dsUnderrun, Hub.dsUnderrun_counts hs hx ht hn]
  case noOutput =>
    intro s d l r irq ho
    rw [exec_dsHpd, Hub.dsTrain_noOutput l r ho]
  case trainFails =>
    intro s d l r irq ho hn
    rw [exec_dsHpd, Hub.dsTrain_fails ho hn]
  case trains =>
    intro s d r n irq x ho hn hl h1 hx hf
    rw [exec_dsHpd, Hub.dsTrain_trains ho hn hl h1 hx hf]
  case routeWaits =>
    rintro s mb d v x hd h5 hc hr rfl hv hn
    rw [exec_dsRouteWrite, Hub.writeParam_route _ mb d v hd h5 hc hr, Hub.dsRouted_waits hv hn]
  case routeTypeC =>
    rintro s mb d v x hd h5 hc hr rfl hv hs h0 h2 hu
    rw [exec_dsRouteWrite, Hub.writeParam_route _ mb d v hd h5 hc hr, Hub.dsRouted_typeC hv hs hu h0 h2]
  case routeLeaves =>
    rintro s mb d v x hd h5 hc hr rfl hv hs h0 h2 hu
    rw [exec_dsRouteWrite, Hub.writeParam_route _ mb d v hd h5 hc hr, Hub.dsRouted_leaves hv hs hu h0 h2]
  case signature =>
    intro s q a d hq hA hl hd hz h1
    rw [exec_dsSignatureRead, Hub.request_plain s.hub q _ _ a _ _ (by decide) hq hA (Hub.dsSignature_ok (r := reqOn q 0x0B01) hl hd hz h1)]
  case clear =>
    intro s q a d m hq hA hl hd hm hz h1 h3 hf hs
    have hbody := Hub.dsClear_noAlarm (r := reqOn q 0x0B02) hl hd hm hz h1 h3 hs hf
    rw [exec_dsAlarmClear, Hub.request_plain s.hub q _ _ a _ _ (by decide) hq hA hbody, Hub.dsCleared]
  case clearFrozen =>
    intro s q a d hq hA hl hd hm hz h1 hf
    have frozen : ((a.head d).frozen && bit 1 0) = true := by rw [hf]; rfl
    have hbody := Hub.dsClear_frozen (r := reqOn q 0x0B02) hl hd hm.symm hz h1 (by decide) (Bool.and_false _) frozen
    rw [exec_dsAlarmClear, Hub.request_plain s.hub q _ _ a _ _ (by decide) hq hA hbody, Hub.dsCleared]

end Sys2Proof.Machine
end

section
/-!
SUPPORT. The 12 V inputs: what a bad sample does, the switch-over and the return (O46).
-/
namespace Sys2Proof.Machine

/-! ## Samples and the judgement (R345) -/

theorem Hub.judge_cases (h : Hub) (i mv : Nat) : h.judge i mv =
    (if mv < h.pget P.FU_SUPPLY_UV i ∨ h.pget P.FU_SUPPLY_OV i < mv then false
     else if h.pget P.FU_SUPPLY_UV i + 300 ≤ mv ∧ mv + 300 ≤ h.pget P.FU_SUPPLY_OV i then true
     else if i = 0 then h.su.mainOk else h.su.backOk) := by
  simp only [Hub.judge, Bool.or_eq_true, Bool.and_eq_true, decide_eq_true_eq]

/-! ## The switch-over (R346) -/

section Bad
variable {h x : Hub} {mv o : Nat}

theorem Hub.inputBad_main (hx : x = (h.seeInput 0 mv).seeInput 1 o) (bad : x.su.mainOk = false) (good : x.su.backOk = true)
    (use : x.su.inUse = 0) : h.inputBad 0 mv o = x.switchOver 1 (b2n (h.pget P.FU_SUPPLY_OV 0 < mv)) := by
  subst hx
  simp [Hub.inputBad, Hub.inputOk, bad, good, use]

theorem Hub.inputBad_back (hx : x = (h.seeInput 1 mv).seeInput 0 o) (bad : x.su.backOk = false) (good : x.su.mainOk = true)
    (use : x.su.inUse = 1) : h.inputBad 1 mv o = x.switchOver 0 3 := by
  subst hx
  simp [Hub.inputBad, Hub.inputOk, bad, good, use]

theorem Hub.inputBad_both (hx : x = (h.seeInput 0 mv).seeInput 1 o) (bad : x.su.mainOk = false) (worse : x.su.backOk = false)
    (use : x.su.inUse = 0) : h.inputBad 0 mv o = x.bothBad := by
  subst hx
  simp [Hub.inputBad, Hub.inputOk, bad, worse, use]

end Bad

/-- The switch-over onto VBACK, with the free value for the instant of its make drawn. -/
theorem Hub.switchOver_back (h : Hub) (cause : Nat) (y x : Hub) (hy : y = { h with free := h.free + 1 })
    (hx : x = (((y.modSu (fun s => { s with busyTo := h.clk.up + 1 + Config.free h.free % us 2 })).modSu
      (fun s => { s with inUse := 1, backCut := false })).out (.power "SUPPLY" [1])).bump P.FU_SWITCHOVERS 1) :
    h.switchOver 1 cause =
      (x.raise (2 ^ intSupply)).event .supplySwitch [(0, 1, 1), (1, 1, cause), (4, 2, x.su.mainMv), (6, 2, x.su.backMv)] := by
  subst hx hy
  rfl

/-! ## The return to VMAIN (R345, R346) -/

theorem Hub.supplyReturn_back {h : Hub} (use : h.su.inUse = 1) (good : h.su.mainOk = true) :
    h.supplyReturn = (h.until (h.su.goodAt + ms (h.pget P.FU_RETURN_DELAY 0))).switchOver 0 2 := by
  simp [Hub.supplyReturn, use, good]

theorem Hub.supplyReturn_none {h : Hub} (why : h.su.inUse = 0 ∨ h.su.mainOk = false) : h.supplyReturn = h := by
  rcases why with use | bad
  · simp [Hub.supplyReturn, use]
  · simp [Hub.supplyReturn, bad]

/-! ## The commands -/

theorem exec_supplySwitch (i mv o : Nat) (s : State) : exec (.supplySwitch i ⟨mv, o⟩) s = .next (s.after (s.hub.inputBad i mv o)) := rfl
theorem exec_supplyBothBad (mv o : Nat) (s : State) :
    exec (.supplyBothBad ⟨mv, o⟩) s = .next (s.after (s.hub.inputBad s.hub.su.inUse mv o)) := rfl
theorem exec_supplyReturn (s : State) : exec .supplyReturn s = .next (s.after s.hub.supplyReturn) := rfl
theorem exec_idealDiodeOff (i : Nat) (s : State) : exec (.idealDiodeOff i) s = .next (s.after (s.hub.diodeOff i)) := rfl

/-- Settles O46, each clause from the lemma on its outcome above. -/
theorem inputsSwitchOver : Obligations.InputsSwitchOver := by
  unfold Obligations.InputsSwitchOver
  refine ⟨?main, ?back, Hub.switchOver_back, Hub.judge_cases, ?both, ?returns, ?stays, ?diode⟩
  case main =>
    intro s mv o x hx bad good use
    rw [exec_supplySwitch, Hub.inputBad_main hx bad good use]
  case back =>
    intro s mv o x hx bad good use
    rw [exec_supplySwitch, Hub.inputBad_back hx bad good use]
  case both =>
    intro s mv o x was hx bad worse use
    rw [exec_supplyBothBad, was, Hub.inputBad_both hx bad worse use, Hub.bothBad]
  case returns =>
    intro s use good
    rw [exec_supplyReturn, Hub.supplyReturn_back use good]
  case stays =>
    intro s why
    rw [exec_supplyReturn, Hub.supplyReturn_none why]
  case diode =>
    intro s i
    rw [exec_idealDiodeOff, Hub.diodeOff]

end Sys2Proof.Machine
end

section
/-!
SUPPORT. The fuse channels: what a trip does, the integrator and the curve, the limit and its timers, power good, retry and input (O47).
-/
namespace Sys2Proof.Machine

/-! ## A trip (R315, R355, R356) -/

theorem Hub.fuse_modFuse_same (h : Hub) (c : Nat) (f : Fuse → Fuse) (hc : c < h.fu.length) : (h.modFuse c f).fuse c = f (h.fuse c) :=
  nth_modAt_same h.fu c f Fuse.reset hc

theorem Hub.fuseTrip_f0 (h : Hub) (cause point : Nat) : h.fuseTrip 0 cause point = (h.fuseTripOf 0 cause point).1 := by
  simp [Hub.fuseTrip]

section Trip
variable {h : Hub} {c : Nat} (on : (h.fuse c).state.gate = true)
include on

/-- A channel whose gate is on trips. -/
theorem Hub.fuseTripOf_trips (cause point : Nat) : (h.fuseTripOf c cause point).2 = true := by
  simp only [Hub.fuseTripOf, on, Bool.not_true, Bool.false_eq_true, if_false]

/-- The trip of a Type-C port's channel is an over-current of its USB port too. -/
theorem Hub.fuseTrip_port (hc : c ≠ 0) (cause point : Nat) :
    h.fuseTrip c cause point = ((h.fuseTripOf c cause point).1.usbOc [c - 1] (c - 1) 1 0).tcTrip (c - 1) := by
  simp only [Hub.fuseTrip, Hub.fuseTripOf_trips on, hc, Bool.not_true, decide_false, Bool.or_self, Bool.false_eq_true, if_false]

/-- A trip that does not latch, of any cause but the fast one. -/
theorem Hub.fuseTripOf_backoff {cause point n mA wait : Nat} {latched : Bool} {y z : Hub} (hn : n = (h.fuse c).n + 1)
    (hl : latched = decide (h.pget P.FU_RETRIES c < n)) (hw : wait = if latched then 0 else 100 * 2 ^ (n - 1))
    (hm : mA = h.fuseCurrent c / 16) (hy : y = h.fuseGateOff c (if latched then .latched else .backoff))
    (hz : z = (y.modFuse c (fun f => { f with n := n, endAt := y.clk.up + ms wait, last := y.clk.ns / 1000 % 2 ^ 48 * 65536 + min 255 (mA / 100) * 256 + point * 16 + cause })).bump P.FU_TRIPS c)
    (slow : cause ≠ 0) (open_ : latched = false) :
    (h.fuseTripOf c cause point).1 =
      (z.raise (2 ^ intSupply)).event .fuseTrip [(0, 1, c), (1, 1, cause), (2, 1, point), (3, 1, n), (4, 4, mA), (8, 4, wait)] := by
  subst hz hy hw hm hn
  rw [hl] at open_
  have retries : ¬ h.pget P.FU_RETRIES c < (h.fuse c).n + 1 := of_decide_eq_false open_
  subst hl
  simp only [Hub.fuseTripOf, on, retries, slow, decide_false, Bool.not_true, Bool.false_eq_true, if_false]

end Trip

/-! ## The fast trip (R354) -/

section Fast
variable {h x : Hub} {c mA : Nat}

theorem Hub.fastTrip_trips (above : h.pget P.FU_FAST_MULT c * h.baseOf c < 16 * mA) (on : (h.fuse c).state.gate = true)
    (hx : x = (h.fuseAmps c mA).modFuse c (fun f => { f with limit := none })) : h.fastTrip c mA = x.fuseTrip c 0 0 := by
  subst hx
  simp only [Hub.fastTrip, Nat.not_le.mpr above, on, decide_false, Bool.not_true, Bool.or_self, Bool.false_eq_true, if_false]

theorem Hub.fastTrip_none (why : 16 * mA ≤ h.pget P.FU_FAST_MULT c * h.baseOf c ∨ (h.fuse c).state.gate = false) : h.fastTrip c mA = h := by
  have holds : (decide (16 * mA ≤ h.pget P.FU_FAST_MULT c * h.baseOf c) || !(h.fuse c).state.gate) = true := by
    rcases why with e | e <;> simp [e]
  simp only [Hub.fastTrip, holds, if_true]

end Fast

/-! ## The integrator, the curve and the fault timer (R351 to R353) -/

theorem Hub.soaTrip_at {h : Hub} {c t : Nat} (due : h.soaAt c = some t) :
    h.soaTrip c = ((h.until t).fuseTrip c 1 0).modFuse c (fun f => { f with soa := h.soaBudget c }) := by
  simp only [Hub.soaTrip, due]

theorem Hub.soaTrip_none {h : Hub} {c : Nat} (due : h.soaAt c = none) : h.soaTrip c = h := by
  simp only [Hub.soaTrip, due]

theorem Hub.curveTrip_at {h z : Hub} {c k mA t : Nat} (hz : z = h.fuseAmps c mA) (due : z.curveAt c k = some t) :
    h.curveTrip c k mA = ((z.until t).fuseTrip c 3 k).modFuse c (fun f => { f with curve := modAt f.curve k (fun _ => (z.curvePoint c k).2) }) := by
  subst hz
  simp only [Hub.curveTrip, due]

theorem Hub.curveTrip_none {h z : Hub} {c k mA : Nat} (hz : z = h.fuseAmps c mA) (due : z.curveAt c k = none) : h.curveTrip c k mA = z := by
  subst hz
  simp only [Hub.curveTrip, due]

/-- An enabled point that the current has reached, in ON or LIMIT, comes due. -/
theorem Hub.curveAt_due {h : Hub} {c k : Nat} (hk : k < 8) (enabled : (h.curvePoint c k).1 ≠ 0)
    (hs : (h.fuse c).state = .on ∨ (h.fuse c).state = .limit) (above : (h.curvePoint c k).1 * h.baseOf c ≤ h.fuseCurrent c) :
    h.curveAt c k = some (us ((h.fuse c).seenAt / us 1 + ((h.curvePoint c k).2 - nth (h.fuse c).curve k 0))) := by
  have runs : h.curveRuns c k = true := by
    have hot : ((h.fuse c).state == .on || (h.fuse c).state == .limit) = true := by rcases hs with e | e <;> rw [e] <;> rfl
    simp only [Hub.curveRuns, hot, Bool.and_true, bne_iff_ne, ne_eq, enabled, not_false_eq_true]
  have reached : h.curveOver c k = true := by simpa only [Hub.curveOver, decide_eq_true_eq] using above
  simp only [Hub.curveAt, hk, runs, reached, decide_true, Bool.and_self, if_true]

section Soa
variable {h : Hub} {c : Nat} (budget : h.soaBudget c ≠ 0)
include budget

theorem Hub.soaNow_falls (out : (h.fuse c).limit = none) :
    h.soaNow c = (h.fuse c).soa - h.samplesSince c 1 * (h.pget P.FU_SOA_DECAY c * us 1) := by
  simp only [Hub.soaNow, budget, out, Option.isSome_none, Bool.false_eq_true, if_false]

theorem Hub.soaNow_rises (limited : (h.fuse c).limit.isSome = true) :
    h.soaNow c = min ((h.fuse c).soa + h.samplesSince c 1 * (((h.fuse c).vin - (h.fuse c).vout) * h.fuseLimit c / 16))
      (max (h.fuse c).soa (h.soaBudget c - 1)) := by
  simp only [Hub.soaNow, Hub.soaRise, Hub.fuseCurrent, budget, limited, if_false, if_true]

end Soa

theorem Hub.fuseLimit_cases (h : Hub) (c : Nat) : h.fuseLimit c =
    (if (h.fuse c).state = .ramp then min (h.pget P.FU_ILIM_MULT c * h.baseOf c) (16 * h.pget P.FU_RAMP_LIMIT c)
     else h.pget P.FU_ILIM_MULT c * h.baseOf c) := rfl

theorem Hub.faultTimeout_at {h : Hub} {c t : Nat} (due : h.faultAt c = some t) : h.faultTimeout c = (h.until t).fuseTrip c 2 0 := by
  simp only [Hub.faultTimeout, due]

/-! ## The output (R350, R358) -/

section Out
variable {f : Fuse} (now : Nat)

theorem Fuse.judgeOut_state (f : Fuse) (now : Nat) : (f.judgeOut now).state = f.state := by
  unfold Fuse.judgeOut
  split
  · rfl
  · split <;> rfl

section On
variable (out : f.limit = none) (on : f.state = .on)
include out on

theorem Fuse.judgeOut_good (good : 9 * f.vin ≤ 10 * f.vout) : f.judgeOut now = { f with goodAt := some (f.goodAt.getD now) } := by
  simp [Fuse.judgeOut, Fuse.outGood, out, on, good]

theorem Fuse.judgeOut_low (low : 10 * f.vout < 9 * f.vin) : f.judgeOut now = { f with pg := false, goodAt := none } := by
  simp [Fuse.judgeOut, Fuse.outGood, out, on, low]

end On
end Out

/-- The ramp ends once the output has reached 90 % of the input. -/
theorem Hub.fuseOutput_on {h y : Hub} {c vin vout : Nat} (hy : y = h.fuseVolts c vin vout) (ramp : (nth y.fu c Fuse.reset).state = .ramp)
    (out : (nth y.fu c Fuse.reset).limit = none) (good : 9 * vin ≤ 10 * vout) (hc : c < y.fu.length)
    (hvin : (nth y.fu c Fuse.reset).vin = vin) (hvout : (nth y.fu c Fuse.reset).vout = vout) :
    ((h.fuseOutput c vin vout).fuse c).state = .on := by
  subst hy
  have reached : (nth (h.fuseVolts c vin vout).fu c Fuse.reset).outGood = true := by
    simpa only [Fuse.outGood, hvin, hvout, decide_eq_true_eq] using good
  rw [Hub.fuseOutput, Hub.fuse_modFuse_same _ _ _ hc, Fuse.judgeOut_state]
  simp only [Hub.fuse, ramp, out, reached, Option.isNone_none, decide_true, Bool.and_self, if_true]

section Up
variable {h x : Hub} {c vin vout : Nat} (hx : x = h.fuseOutput c vin vout)
include hx

theorem Hub.fuseUp_quiet (why : c = 0 ∨ (h.fuse c).state ≠ .ramp ∨ (x.fuse c).state ≠ .on) : h.fuseUp c vin vout = x := by
  subst hx
  have quiet : (decide (c ≠ 0) && decide ((h.fuse c).state = .ramp) && decide (((h.fuseOutput c vin vout).fuse c).state = .on)) = false := by
    rcases why with e | e | e <;> simp [e]
  simp only [Hub.fuseUp, quiet, Bool.false_eq_true, if_false]

theorem Hub.fuseUp_vbus (hc : c ≠ 0) (ramp : (h.fuse c).state = .ramp) (on : (x.fuse c).state = .on) :
    h.fuseUp c vin vout = x.tcVbusUp (c - 1) := by
  subst hx
  simp [Hub.fuseUp, hc, ramp, on]

end Up

/-! ## The limit (R350, R351, R358) -/

section Engage
variable {h x : Hub} {c vin vout mA : Nat} (hx : x = (h.fuseVolts c vin vout).fuseAmps c mA)
include hx

theorem Hub.fuseLimitEngage_on (on : (x.fuse c).state = .on) (out : (x.fuse c).limit = none) (reached : x.fuseLimit c ≤ 16 * mA) :
    h.fuseLimitEngage c vin vout mA = x.modFuse c (fun f => { f.settleTimer x.clk.up with
      state := if (f.settleTimer x.clk.up).state = .on then .limit else .ramp
      limit := some x.clk.up
      goodAt := none
      mA := x.fuseLimit c / 16 }) := by
  subst hx
  simp [Hub.fuseLimitEngage, on, out, Nat.not_lt.mpr reached]

theorem Hub.fuseLimitEngage_none (why : (x.fuse c).limit.isSome = true ∨ 16 * mA < x.fuseLimit c) : h.fuseLimitEngage c vin vout mA = x := by
  subst hx
  rcases why with e | e
  · simp [Hub.fuseLimitEngage, e]
  · simp [Hub.fuseLimitEngage, e]

end Engage

theorem Hub.fuseLimitRelease_at {h x : Hub} {c t vout mA : Nat} (hx : x = h.fuseVolts c (h.fuse c).vin vout) (since : (x.fuse c).limit = some t)
    (below : 16 * mA < x.fuseLimit c) :
    h.fuseLimitRelease c vout mA = x.modFuse c (fun f => Fuse.judgeOut { f with
      state := if f.state = .limit then .on else f.state
      limit := none
      acc := f.acc + (x.clk.up - t)
      outAt := x.clk.up
      pg := f.pg && x.clk.up ≤ t + us 100
      goodAt := none
      mA := mA } x.clk.up) := by
  subst hx
  simp only [Hub.fuseLimitRelease, since, Nat.not_le.mpr below, if_false]

theorem Hub.faultTimerClear_out {h : Hub} {c : Nat} (out : (h.fuse c).limit = none) :
    h.faultTimerClear c = (h.until ((h.fuse c).outAt + ms 1)).modFuse c (fun f => { f with acc := 0 }) := by
  simp only [Hub.faultTimerClear, out, Option.isSome_none, Bool.false_eq_true, if_false]

/-! ## Power good (R356, R358) -/

theorem Hub.fusePgAssert_at {h x : Hub} {c t : Nat} (since : (h.fuse c).goodAt = some t) (on : (h.fuse c).state = .on)
    (low : (h.fuse c).pg = false) (hx : x = h.until (t + ms 1)) :
    h.fusePgAssert c = x.modFuse c (fun f => { f with pg := true, pgAt := x.clk.up }) := by
  subst hx
  simp only [Hub.fusePgAssert, since, on, low, decide_true, Bool.not_false, Bool.and_self, if_true]

theorem Hub.fusePgHoldEnd_at {h : Hub} {c t : Nat} (since : (h.fuse c).limit = some t) :
    h.fusePgHoldEnd c = (h.until (t + us 100)).modFuse c (fun f => { f with pg := false }) := by
  simp only [Hub.fusePgHoldEnd, since]

theorem Hub.fuseRetryClear_held {h : Hub} {c : Nat} (on : (h.fuse c).state = .on) (good : (h.fuse c).pg = true) :
    h.fuseRetryClear c = (h.until ((h.fuse c).pgAt + ms (h.pget P.FU_RETRY_CLEAR c))).modFuse c (fun f => { f with n := 0 }) := by
  simp only [Hub.fuseRetryClear, on, good, decide_true, Bool.and_self, if_true]

/-! ## Backoff, input and FU_ENABLE (R356) -/

theorem Hub.fuseBackoffEnd_f0 {h : Hub} (wait : (h.fuse 0).state = .backoff) : h.fuseBackoffEnd 0 = (h.until (h.fuse 0).endAt).fuseRamp 0 := by
  simp only [Hub.fuseBackoffEnd, wait, ne_eq, not_true_eq_false, if_false, if_true]

theorem Hub.fuseBackoffEnd_port {h : Hub} {c : Nat} (hc : c ≠ 0) (wait : (h.fuse c).state = .backoff) :
    h.fuseBackoffEnd c = (h.until (h.fuse c).endAt).modFuse c (fun f => { f with state := .off }) := by
  simp only [Hub.fuseBackoffEnd, wait, hc, ne_eq, not_true_eq_false, if_false]

section Input
variable {h x : Hub} {mv : Nat} (hx : x = h.fuseVolts 0 mv (h.fuse 0).vout)
include hx

theorem Hub.fuseInputLost_gate (low : x.vinGood = false) (on : (x.fuse 0).state.gate = true) :
    h.fuseInputLost mv = (x.fuseGateLow 0 .noInput).event .fuseInput [(0, 1, 0), (1, 1, 1), (2, 2, mv)] := by
  subst hx
  simp only [Hub.fuseInputLost, low, on, Bool.not_true, Bool.or_self, Bool.false_eq_true, if_false]

theorem Hub.fuseInputRestored_ramps (good : x.vinGood = true) (lost : (x.fuse 0).state = .noInput) (en : x.pget P.FU_ENABLE 0 = 1) :
    h.fuseInputRestored mv = (x.eventClear .fuseInput [(0, 1, 0), (1, 1, 0), (2, 2, mv)]).fuseRamp 0 := by
  subst hx
  simp only [Hub.fuseInputRestored, good, lost, en, Bool.not_true, Bool.false_eq_true, decide_true, Bool.and_self, if_false, if_true]

end Input

theorem Hub.writeParam_fuEnable (h : Hub) (mb v : Nat) (hv : v ≤ 1) (hc : h.conflictsOutside mb P.FU_ENABLE 0 = false) :
    h.writeParam mb P.FU_ENABLE 0 v = (h.stored P.FU_ENABLE 0 v).fuEnable v := by
  have form := formOf_flag P.FU_ENABLE 0 v _ rfl (by decide) (by decide) hv rfl rfl (by decide) rfl
  have own := Hub.ownRefusal_none h (h.overlay [⟨P.FU_ENABLE, 0, v⟩] []) mb P.FU_ENABLE 0 v (by decide)
  rw [Hub.writeParam_eq h mb P.FU_ENABLE 0 v v form (by decide) (by decide) (by decide) own hc]
  rfl

theorem Hub.fuEnable_ramps {x : Hub} (off : (x.fuse 0).state = .off) (en : x.pget P.FU_ENABLE 0 = 1) (good : x.vinGood = true) :
    x.fuEnable 1 = x.fuseRamp 0 := by
  simp only [Hub.fuEnable, Hub.fuseKick, off, en, good, decide_true, Bool.and_self, if_true]

theorem Hub.fuEnable_off {x : Hub} (on : (x.fuse 0).state ≠ .off) (open_ : (x.fuse 0).state ≠ .latched) :
    x.fuEnable 0 = x.fuseGateOff 0 .off := by
  simp [Hub.fuEnable, on, open_]

/-! ## FUSE_RETRY (R357) -/

section Retry
variable {h : Hub} {r : Request} {c : Nat} (hl : r.payload.length = 4) (hc : c = r.arg 0 1) (hz : r.arg 1 3 = 0)
include hl hc hz

theorem Hub.fuseRetry_range (far : 4 < c) : h.fuseRetry r = (h, .err .range) := by
  subst hc
  simp [Hub.fuseRetry, r.not_has 4 hl, hz, far]

theorem Hub.fuseRetry_latched (h4 : c ≤ 4) (h1 : c ≠ 0) (latched : (h.fuse c).state = .latched) :
    h.fuseRetry r = (h.modFuse c (fun f => { f with state := .off, n := 0 }), .ok []) := by
  subst hc
  simp [Hub.fuseRetry, r.not_has 4 hl, hz, Nat.not_lt.mpr h4, latched, h1]

theorem Hub.fuseRetry_count (h4 : c ≤ 4) (open_ : (h.fuse c).state ≠ .latched) :
    h.fuseRetry r = (h.modFuse c (fun f => { f with n := 0 }), .ok []) := by
  subst hc
  simp [Hub.fuseRetry, r.not_has 4 hl, hz, Nat.not_lt.mpr h4, open_]

end Retry

/-! ## The commands -/

theorem exec_fastTrip (c mA : Nat) (s : State) : exec (.fastTrip ⟨c, mA⟩) s = .next (s.after (s.hub.fastTrip c mA)) := rfl
theorem exec_soaTrip (c : Nat) (s : State) : exec (.soaTrip c) s = .next (s.after (s.hub.soaTrip c)) := rfl
theorem exec_curveTrip (c k mA : Nat) (s : State) : exec (.curveTrip c ⟨k, mA⟩) s = .next (s.after (s.hub.curveTrip c k mA)) := rfl
theorem exec_faultTimerTrip (c : Nat) (s : State) : exec (.faultTimerTrip c) s = .next (s.after (s.hub.faultTimeout c)) := rfl
theorem exec_fuseRampDone (c vin vout : Nat) (s : State) :
    exec (.fuseRampDone ⟨c, vin, vout⟩) s = .next (s.after (s.hub.fuseUp c vin vout)) := rfl
theorem exec_fuseLimitEngage (c vin vout mA : Nat) (s : State) :
    exec (.fuseLimitEngage ⟨c, vin, vout, mA⟩) s = .next (s.after (s.hub.fuseLimitEngage c vin vout mA)) := rfl
theorem exec_fuseLimitRelease (c vout mA : Nat) (s : State) :
    exec (.fuseLimitRelease ⟨c, vout, mA⟩) s = .next (s.after (s.hub.fuseLimitRelease c vout mA)) := rfl
theorem exec_faultTimerClear (c : Nat) (s : State) : exec (.faultTimerClear c) s = .next (s.after (s.hub.faultTimerClear c)) := rfl
theorem exec_fusePgAssert (c : Nat) (s : State) : exec (.fusePgAssert c) s = .next (s.after (s.hub.fusePgAssert c)) := rfl
theorem exec_fusePgHoldEnd (c : Nat) (s : State) : exec (.fusePgHoldEnd c) s = .next (s.after (s.hub.fusePgHoldEnd c)) := rfl
theorem exec_fuseRetryClear (c : Nat) (s : State) : exec (.fuseRetryClear c) s = .next (s.after (s.hub.fuseRetryClear c)) := rfl
theorem exec_fuseBackoffEnd (c : Nat) (s : State) : exec (.fuseBackoffEnd c) s = .next (s.after (s.hub.fuseBackoffEnd c)) := rfl
theorem exec_fuseInputLost (mv : Nat) (s : State) : exec (.fuseInputLost mv) s = .next (s.after (s.hub.fuseInputLost mv)) := rfl
theorem exec_fuseInputRestored (mv : Nat) (s : State) : exec (.fuseInputRestored mv) s = .next (s.after (s.hub.fuseInputRestored mv)) := rfl
theorem exec_fuEnableWrite (mb v : Nat) (s : State) :
    exec (.fuEnableWrite mb v) s = .next (s.after (s.hub.writeParam mb P.FU_ENABLE 0 v)) := rfl
theorem exec_fuseRetry (q : Req) (s : State) : exec (.fuseRetry q) s = .next (s.after (s.hub.request 0x0805 q Hub.fuseRetry)) := rfl

/-- Settles O47, each clause from the lemma on its outcome above. -/
theorem fuseChannelsTripAndRecover : Obligations.FuseChannelsTripAndRecover := by
  unfold Obligations.FuseChannelsTripAndRecover
  refine ⟨?fast0, ?fastPort, ?fastNone, ?soa0, ?soaPort, ?soaNone, ?curve0, ?curvePort, ?curveNone, ?curveDue, ?soaFalls, ?soaRises,
    Hub.fuseLimit_cases, ?fault, ?trip, ?upQuiet, ?upVbus, ?good, ?low, ?ramped, ?engage, ?engageNone, ?release, ?timerClear, ?pg, ?pgHold,
    ?retryClear, ?backoff0, ?backoffPort, ?lost, ?restored, ?enable, ?disable, ?retryLatched, ?retryCount, ?retryRange⟩
  case fast0 =>
    rintro s c mA x rfl above on hx
    rw [exec_fastTrip, Hub.fastTrip_trips above on hx, Hub.fuseTrip_f0]
  case fastPort =>
    intro s c mA x hc above was hx on
    rw [exec_fastTrip, Hub.fastTrip_trips above was hx, Hub.fuseTrip_port on hc]
  case fastNone =>
    intro s c mA why
    rw [exec_fastTrip, Hub.fastTrip_none why]
  case soa0 =>
    rintro s c t x rfl due rfl
    rw [exec_soaTrip, Hub.soaTrip_at due, Hub.fuseTrip_f0]
  case soaPort =>
    rintro s c t x hc due rfl on
    rw [exec_soaTrip, Hub.soaTrip_at due, Hub.fuseTrip_port on hc]
  case soaNone =>
    intro s c due
    rw [exec_soaTrip, Hub.soaTrip_none due]
  case curve0 =>
    rintro s c k mA t z x rfl hz due rfl
    rw [exec_curveTrip, Hub.curveTrip_at hz due, Hub.fuseTrip_f0]
  case curvePort =>
    rintro s c k mA t z x hc hz due rfl on
    rw [exec_curveTrip, Hub.curveTrip_at hz due, Hub.fuseTrip_port on hc]
  case curveNone =>
    intro s c k mA z hz due
    rw [exec_curveTrip, Hub.curveTrip_none hz due]
  case curveDue => exact fun h c k => Hub.curveAt_due
  case soaFalls => exact fun h c => Hub.soaNow_falls
  case soaRises => exact fun h c => Hub.soaNow_rises
  case fault =>
    intro s t due _
    rw [exec_faultTimerTrip, Hub.faultTimeout_at due, Hub.fuseTrip_f0]
  case trip => exact fun h c cause point n mA wait latched y z on => Hub.fuseTripOf_backoff on
  case upQuiet =>
    intro s c vin vout x hx why
    rw [exec_fuseRampDone, Hub.fuseUp_quiet hx why]
  case upVbus =>
    intro s c vin vout x hx hc ramp on
    rw [exec_fuseRampDone, Hub.fuseUp_vbus hx hc ramp on]
  case good => exact fun f now out on => Fuse.judgeOut_good now out on
  case low => exact fun f now out on => Fuse.judgeOut_low now out on
  case ramped => exact fun h c vin vout y => Hub.fuseOutput_on
  case engage =>
    intro s c vin vout mA x hx on out reached
    rw [exec_fuseLimitEngage, Hub.fuseLimitEngage_on hx on out reached]
  case engageNone =>
    intro s c vin vout mA x hx why
    rw [exec_fuseLimitEngage, Hub.fuseLimitEngage_none hx why]
  case release =>
    intro s c t vout mA x hx since below
    rw [exec_fuseLimitRelease, Hub.fuseLimitRelease_at hx since below]
  case timerClear =>
    intro s c out
    rw [exec_faultTimerClear, Hub.faultTimerClear_out out]
  case pg =>
    intro s c t x since on low hx
    rw [exec_fusePgAssert, Hub.fusePgAssert_at since on low hx]
  case pgHold =>
    intro s c t since
    rw [exec_fusePgHoldEnd, Hub.fusePgHoldEnd_at since]
  case retryClear =>
    intro s c on good
    rw [exec_fuseRetryClear, Hub.fuseRetryClear_held on good]
  case backoff0 =>
    intro s wait
    rw [exec_fuseBackoffEnd, Hub.fuseBackoffEnd_f0 wait]
  case backoffPort =>
    intro s c hc wait
    rw [exec_fuseBackoffEnd, Hub.fuseBackoffEnd_port hc wait]
  case lost =>
    intro s mv x hx low on
    rw [exec_fuseInputLost, Hub.fuseInputLost_gate hx low on, Hub.fuseGateLow]
  case restored =>
    intro s mv x hx good lost en
    rw [exec_fuseInputRestored, Hub.fuseInputRestored_ramps hx good lost en]
  case enable =>
    rintro s mb x hc rfl off en good
    rw [exec_fuEnableWrite, Hub.writeParam_fuEnable _ mb 1 (by decide) hc, Hub.fuEnable_ramps off en good]
  case disable =>
    rintro s mb x hc rfl on open_
    rw [exec_fuEnableWrite, Hub.writeParam_fuEnable _ mb 0 (by decide) hc, Hub.fuEnable_off on open_]
  case retryLatched =>
    intro s q a c hq hA hl hc hz h1 h4 latched
    have hbody := Hub.fuseRetry_latched (r := reqOn q 0x0805) hl hc hz h4 (Nat.ne_of_gt h1) latched
    rw [exec_fuseRetry, Hub.request_plain s.hub q _ _ a _ _ (by decide) hq hA hbody]
  case retryCount =>
    intro s q a c hq hA hl hc hz h4 open_
    have hbody := Hub.fuseRetry_count (r := reqOn q 0x0805) hl hc hz h4 open_
    rw [exec_fuseRetry, Hub.request_plain s.hub q _ _ a _ _ (by decide) hq hA hbody]
  case retryRange =>
    intro s q a c hq hA hl hc hz far
    have hbody := Hub.fuseRetry_range (h := a) (r := reqOn q 0x0805) hl hc hz far
    rw [exec_fuseRetry, Hub.request_plain s.hub q _ _ a _ _ (by decide) hq hA hbody]

end Sys2Proof.Machine
end

section
/-!
SUPPORT. Islands and crossings: Seams, one side reset, skew, clock requests, the oscillator and PW_ISLAND_RESET (O48).
-/
namespace Sys2Proof.Machine

/-! ## Data, Pulse and Count Seams (R364 to R366) -/

section Seams
variable {c : Crossing} {d : Nat} {m : RawMsg}

theorem Crossing.put_taken (room : c.items.length < d) (none_ : c.behind = []) : c.put d m = { c with items := c.items ++ [m] } := by
  simp only [Crossing.put, room, none_, decide_true, List.isEmpty_nil, Bool.and_self, if_true]

theorem Crossing.put_waits (full : d ≤ c.items.length) : c.put d m = { c with behind := c.behind ++ [m] } := by
  simp only [Crossing.put, Nat.not_lt.mpr full, decide_false, Bool.false_and, Bool.false_eq_true, if_false]

theorem Crossing.pulse_launched (idle : c.toggle = false) : c.pulse = { c with toggle := true } := by
  simp only [Crossing.pulse, idle, Bool.false_eq_true, if_false]

theorem Crossing.pulse_merged (busy : c.toggle = true) : c.pulse = { c with pending := true } := by
  simp only [Crossing.pulse, busy, if_true]

/-- A pulse that meets a pending one merges with it. -/
theorem Crossing.pulse_pulse (busy : c.toggle = true) : c.pulse.pulse = c.pulse := by
  rw [Crossing.pulse_merged busy, Crossing.pulse_merged (c := { c with pending := true }) busy]

end Seams

/-- A destination that has taken all there was is due what is added. -/
theorem CountSeam.due_add {n : Nat} {k : CountSeam} (hn : n < 65536) (hd : k.due = 0) : (k.add n).due = n := by
  have taken : k.source = k.taken := by
    have zero : k.source - k.taken = 0#16 := BitVec.eq_of_toNat_eq hd
    bv_omega
  have diff : k.source + BitVec.ofNat 16 n - k.taken = BitVec.ofNat 16 n := by rw [taken]; bv_omega
  rw [CountSeam.due, CountSeam.add, diff, BitVec.toNat_ofNat, Nat.mod_eq_of_lt hn]

theorem CountSeam.due_take (k : CountSeam) : k.take.due = 0 := by simp [CountSeam.due, CountSeam.take]

/-! ## GPIO banks (R478) -/

/-- Each bank takes its mode from the free value of its supply. -/
theorem Hub.gpioModes_modes {h : Hub} {a b c d : Bool} (hm : h.de.modes = [a, b, c, d]) : h.gpioModes.de.modes =
    [decide (2500 < Config.free h.free), decide (2500 < Config.free (h.free + 1)), decide (2500 < Config.free (h.free + 2)),
     decide (2500 < Config.free (h.free + 3))] := by
  simp only [Hub.gpioModes, List.foldl_cons, List.foldl_nil, Hub.fresh, Hub.modDe, hm]
  rfl

/-! ## One side reset (R371, R372) -/

section Lost
variable {h : Hub} {x i items : Nat}

/-- The live side sees its partner go: what was in flight is discarded, counted and told. -/
theorem Hub.seamLost_told {n : Nat} {r : Nat × Hub} {z : Hub} (new : (h.seam x).lost ≠ some i)
    (hn : n = (h.seam x).items.length + min items (2 * seamDepth x - (h.seam x).items.length)) (hr : r = h.lastCount x)
    (hz : z = ((r.2.modSeam x (fun _ => { Crossing.reset with lost := some i })).bump P.PW_SEAM_RESETS x).bumpBy P.PW_SEAM_DISCARD x n) :
    h.seamLost x i items = z.event .seamReset [(0, 1, x), (1, 1, i), (2, 1, 1), (4, 2, min n 65535), (8, 4, r.1)] := by
  subst hz hr hn
  simp only [Hub.seamLost, new, if_false]
  rfl

/-- A reset that the live side has seen is told once. -/
theorem Hub.seamLost_seen (seen : (h.seam x).lost = some i) : h.seamLost x i items = h := by
  simp only [Hub.seamLost, seen, if_true]

theorem Hub.lastCount_line (hx : x < 3) : h.lastCount x = (((h.seam x).counts.headD ⟨0#16, 0#16⟩).taken.toNat, h) := by
  simp only [Hub.lastCount, hx, if_true]

section Reset
variable (cross : (crossingsOf i).contains x = true)
include cross

/-- An island that works is reset for its own recovery. -/
theorem Hub.seamReset_holds (live : h.works i = true) (hi : i ≠ 11) :
    h.seamReset x i items = h.islandHold i (fun y => if y = x then items else 0) := by
  simp [Hub.seamReset, cross, live, hi, -List.contains_eq_mem]

theorem Hub.seamReset_lost (dead : h.works i = false) (live : h.works (otherSide x i) = true) : h.seamReset x i items = h.seamLost x i items := by
  simp only [Hub.seamReset, cross, dead, live, Bool.not_true, Bool.false_and, Bool.false_eq_true, if_false, if_true]

end Reset

section Release
variable (hi : i = if (h.island (crossing x).1).inReset then (crossing x).1 else (crossing x).2)
include hi

theorem Hub.seamRelease_releases (held : (h.island i).inReset = true) (even : (h.island i).skew = false) :
    h.seamRelease x = h.islandRelease i := by
  subst hi
  simp only [Hub.seamRelease, held, even, Bool.not_true, Bool.or_self, Bool.false_eq_true, if_false]

/-- An island that is not in reset, or that skew holds, stays as it is. -/
theorem Hub.seamRelease_none (why : (h.island i).inReset = false ∨ (h.island i).skew = true) : h.seamRelease x = h := by
  subst hi
  rcases why with e | e
  · simp only [Hub.seamRelease, e, Bool.not_false, Bool.true_or, if_true]
  · simp only [Hub.seamRelease, e, Bool.or_true, if_true]

end Release
end Lost

/-- Of the islands but I-MGMT, what the live sides have seen is told to have ended. -/
theorem Hub.seamsBack_aon (h : Hub) : h.seamsBack 11 = (crossingsOf 11).foldl (fun h x =>
    if (h.seam x).lost = some 11 then (h.modSeam x (fun _ => Crossing.reset)).eventClear .seamReset [(0, 1, x), (1, 1, 11), (2, 1, 0)] else h) h := rfl

/-! ## Skew (R375) -/

section Skew
variable {h y : Hub} {x i a b : Nat}

/-- Over 200 mV the island further from nominal is held in reset. -/
theorem Hub.supplySkew_holds (hy : y = h.skewSeen x a b)
    (hi : i = if skewOf (crossing x).2 b ≤ skewOf (crossing x).1 a then (crossing x).1 else (crossing x).2) (far : 200 < (a - b) + (b - a))
    (h11 : i ≠ 11) (even : (y.island i).skew = false) :
    h.supplySkew x a b = (((y.islandHold i (fun _ => 0)).modIsland i (fun s => { s with skew := true })).bump P.PW_SKEW_RESETS i).event .supplySkew
      [(0, 1, i), (1, 1, otherSide x i), (2, 2, (a - b) + (b - a)), (4, 1, 1)] := by
  subst hy hi
  simp only [Hub.supplySkew, Nat.not_le.mpr far, h11, even, decide_false, Bool.or_self, Bool.false_eq_true, if_false]

theorem Hub.supplySkew_near (near : (a - b) + (b - a) ≤ 200) : h.supplySkew x a b = h.skewSeen x a b := by
  simp only [Hub.supplySkew, near, decide_true, Bool.true_or, if_true]

theorem Hub.skewRelease_releases (hy : y = h.skewSeen x a b) (hi : i = if (y.island (crossing x).1).skew then (crossing x).1 else (crossing x).2)
    (near : (a - b) + (b - a) ≤ 150) (held : (y.island i).skew = true) :
    h.skewRelease x a b = (y.islandRelease i).eventClear .supplySkew
      [(0, 1, i), (1, 1, otherSide x i), (2, 2, (a - b) + (b - a)), (4, 1, 0)] := by
  subst hy hi
  simp only [Hub.skewRelease, Nat.not_lt.mpr near, held, decide_false, Bool.not_true, Bool.or_self, Bool.false_eq_true, if_false]

end Skew

/-! ## Clocks (R370, R376) -/

theorem Hub.clockRequest_restarts {h y : Hub} {i : Nat} (wanted : h.clockWanted i = true)
    (hy : y = Hub.until { h with free := h.free + 1 } (h.clk.up + Config.free h.free % 1001)) :
    h.clockRequest i = y.modIsland i (fun s => { s with clock := true }) := by
  subst hy
  simp only [Hub.clockRequest, wanted, if_true]
  rfl

theorem Hub.clockRequest_none {h : Hub} {i : Nat} (idle : h.clockWanted i = false) : h.clockRequest i = h := by
  simp only [Hub.clockRequest, idle, Bool.false_eq_true, if_false]

theorem Hub.aonTrim_crystal {h : Hub} (mode : h.pget P.PW_AON_TRIM_MODE 0 = 1) (ppm : Int) :
    h.aonTrim true ppm = h.pset P.PW_AON_TRIM_STATE 0 (1 + 65536 * ofSigned 16 ppm) := by
  simp only [Hub.aonTrim, mode, decide_true, Bool.and_self, if_true]

/-- Without the crystal, or in the factory mode, only LOCKED goes. -/
theorem Hub.aonTrim_factory {h : Hub} {p : Bool} (why : p = false ∨ h.pget P.PW_AON_TRIM_MODE 0 ≠ 1) (ppm : Int) :
    h.aonTrim p ppm = h.pset P.PW_AON_TRIM_STATE 0 (h.pget P.PW_AON_TRIM_STATE 0 / 2 * 2) := by
  have free : (decide (h.pget P.PW_AON_TRIM_MODE 0 = 1) && p) = false := by rcases why with e | e <;> simp [e]
  simp only [Hub.aonTrim, free, Bool.false_eq_true, if_false]

/-! ## PW_ISLAND_RESET (R388) -/

section Island
variable {i : Nat} (h5 : 5 ≤ i) (h9 : i ≤ 9)
include h5 h9

/-- The islands that a host may reset. -/
theorem formOf_islandReset : formOf ⟨P.PW_ISLAND_RESET, 0, i⟩ = .ok ⟨P.PW_ISLAND_RESET, 0, i⟩ := by
  have desc : descOf P.PW_ISLAND_RESET = some ⟨P.PW_ISLAND_RESET, 0, 1, .wo, 0, 1, false, [0], (.range 5 9), 0, 0x0000⟩ := rfl
  have byte : i < 256 := by omega
  simp [formOf, paramForm, desc, ParamDesc.norm, byte, ParamDesc.refuses, Nat.not_lt.mpr h5, Nat.not_lt.mpr h9, h5, h9]

theorem Hub.writeParam_islandReset (h : Hub) (mb : Nat) (hc : h.conflictsOutside mb P.PW_ISLAND_RESET 0 = false) :
    h.writeParam mb P.PW_ISLAND_RESET 0 i = h.islandReset i := by
  have own := Hub.ownRefusal_none h (h.overlay [⟨P.PW_ISLAND_RESET, 0, i⟩] []) mb P.PW_ISLAND_RESET 0 i (by decide)
  rw [Hub.writeParam_eq h mb P.PW_ISLAND_RESET 0 i i (formOf_islandReset h5 h9) (by decide) (by decide) (by decide) own hc,
    Hub.stored_wo h P.PW_ISLAND_RESET 0 i _ rfl rfl (by decide)]
  rfl

theorem Hub.islandReset_hosted (h : Hub) : h.islandReset i =
    if i = 7 then (((h.islandLoss i).partnersSee i (fun _ => 0)).seamsBack i).ethStart
    else ((h.islandLoss i).partnersSee i (fun _ => 0)).seamsBack i := by
  have line : ¬ i < 3 := by omega
  have core : ¬ i = 3 := by omega
  simp only [Hub.islandReset, line, core, if_false]

end Island

/-! ## The commands -/

theorem exec_seamReset (x i items : Nat) (s : State) : exec (.seamReset x i items) s = .next (s.after (s.hub.seamReset x i items)) := rfl
theorem exec_seamRelease (x : Nat) (s : State) : exec (.seamRelease x) s = .next (s.after (s.hub.seamRelease x)) := rfl
theorem exec_supplySkew (x a b : Nat) (s : State) : exec (.supplySkew x a b) s = .next (s.after (s.hub.supplySkew x a b)) := rfl
theorem exec_skewRelease (x a b : Nat) (s : State) : exec (.skewRelease x a b) s = .next (s.after (s.hub.skewRelease x a b)) := rfl
theorem exec_clockRequest (i : Nat) (s : State) : exec (.clockRequest i) s = .next (s.after (s.hub.clockRequest i).seamFlow) := rfl
theorem exec_aonTrim (p : Bool) (ppm : Int) (s : State) : exec (.aonTrim p ppm) s = .next (s.after (s.hub.aonTrim p ppm)) := rfl
theorem exec_pwIslandReset (mb i : Nat) (s : State) :
    exec (.pwIslandReset mb i) s = .next (s.after (s.hub.writeParam mb P.PW_ISLAND_RESET 0 i)) := rfl

/-- Settles O48, each clause from the lemma on its outcome above. -/
theorem islandsResetAndCross : Obligations.IslandsResetAndCross := by
  unfold Obligations.IslandsResetAndCross
  refine ⟨?seams, ?modes, ?lost, ?seen, ?count, ?holds, ?sees, ?releases, ?stays, Hub.seamsBack_aon, ?skew, ?near, ?even, ?clock, ?idle,
    ?trim, ?factory, ?reset⟩
  case seams =>
    intro d n c m k
    exact ⟨Crossing.put_taken, Crossing.put_waits, Crossing.pulse_launched,
      fun busy => ⟨Crossing.pulse_merged busy, Crossing.pulse_pulse busy⟩, rfl, CountSeam.due_add, rfl, k.due_take, rfl⟩
  case modes => exact fun h a b c d => Hub.gpioModes_modes
  case lost => exact fun h x i items n r z => Hub.seamLost_told
  case seen => exact fun h x i items => Hub.seamLost_seen
  case count => exact fun h x => Hub.lastCount_line
  case holds =>
    intro s x i items cross live hi
    rw [exec_seamReset, Hub.seamReset_holds cross live hi]
  case sees =>
    intro s x i items cross dead live
    rw [exec_seamReset, Hub.seamReset_lost cross dead live]
  case releases =>
    intro s x i hi held even
    rw [exec_seamRelease, Hub.seamRelease_releases hi held even]
  case stays =>
    intro s x i hi why
    rw [exec_seamRelease, Hub.seamRelease_none hi why]
  case skew =>
    intro s x i a b y hy hi far h11 even
    rw [exec_supplySkew, Hub.supplySkew_holds hy hi far h11 even]
  case near =>
    intro s x a b near
    rw [exec_supplySkew, Hub.supplySkew_near near]
  case even =>
    intro s x i a b y hy hi near held
    rw [exec_skewRelease, Hub.skewRelease_releases hy hi near held]
  case clock =>
    intro s i y wanted hy
    rw [exec_clockRequest, Hub.clockRequest_restarts wanted hy]
  case idle =>
    intro s i idle
    rw [exec_clockRequest, Hub.clockRequest_none idle]
  case trim =>
    intro s ppm mode
    rw [exec_aonTrim, Hub.aonTrim_crystal mode]
  case factory =>
    intro s p ppm why
    rw [exec_aonTrim, Hub.aonTrim_factory why]
  case reset =>
    intro s mb i h5 h9 hc
    rw [exec_pwIslandReset, Hub.writeParam_islandReset h5 h9 s.hub mb hc, Hub.islandReset_hosted h5 h9]

end Sys2Proof.Machine
end

section
/-!
SUPPORT. PWR_ENTER and PWR_STATUS, the end of an entry, wakes and WAKE_OUT (O49).
-/
namespace Sys2Proof.Machine

/-! ## PWR_ENTER (R380) -/

/-- A well-formed PWR_ENTER payload. -/
structure Request.EntersState (r : Request) (target fl : Nat) : Prop where
  length : r.payload.length = 4
  target : r.arg 0 1 = target
  flags : r.arg 1 1 = fl
  flag : fl ≤ 1
  reserved : r.arg 2 2 = 0

theorem forced_entersState {q : Req} {target : Nat} (ht : target < 256) (hl : q.payload.length = 4) (hf : le q.payload 1 1 ≤ 1)
    (hz : le q.payload 2 2 = 0) : (reqOn (force q 0 target) 0x0801).EntersState target (le q.payload 1 1) where
  length := (length_force q 0 target).trans hl
  target := by rw [reqOn_arg, le_force_same q 0 target (by omega), Nat.mod_eq_of_lt ht]
  flags := by rw [reqOn_arg, le_force_other q 0 target 1 1 (by omega)]
  flag := hf
  reserved := by rw [reqOn_arg, le_force_other q 0 target 2 2 (by omega), hz]

/-- An entry that finds a token: the wake latch is armed. -/
theorem Hub.startEntry_long {h : Hub} {mb cmd target : Nat} (room : h.ctl.ops.length < 16) :
    h.startEntry mb cmd target = (((h.withOp mb cmd (.power target)).modPw (fun p => { p with
      prior := h.pw.state
      entryAt := h.clk.up
      timer := h.pget P.PW_WAKE_TIMER 0
      token := h.ctl.nextToken
      quiet := false
      latched := none })).toPState (if target = 1 then .enterDoze else .enterRest), .long h.ctl.nextToken) := by
  simp only [Hub.startEntry, Hub.startOp_eq h mb cmd _ room]
  rfl

theorem Hub.disarmFold_none {h : Hub} (none_ : h.pw.armed = none) : h.disarmFold = h := by
  simp only [Hub.disarmFold, none_]

section Enter
variable {h : Hub} {r : Request} {fl : Nat}

section Run
variable (hr : r.EntersState 0 fl) (free : h.pw.armed = none)
include hr free

theorem Hub.pwrEnter_run (hs : h.pw.state = .run) : h.pwrEnter r = (h, .ok []) := by
  simp [Hub.pwrEnter, r.not_has 4 hr.length, hr.target, hr.flags, Nat.not_lt.mpr hr.flag, hr.reserved, hs, Hub.disarmFold_none free]

theorem Hub.pwrEnter_wakes (hs : h.pw.state = .doze) : h.pwrEnter r = (h.wakeEvent 9, .ok []) := by
  simp [Hub.pwrEnter, r.not_has 4 hr.length, hr.target, hr.flags, Nat.not_lt.mpr hr.flag, hr.reserved, hs, Hub.disarmFold_none free]

end Run

section Low
variable {target : Nat} (hr : r.EntersState target fl) (h1 : 1 ≤ target) (h2 : target ≤ 2)
include hr h1 h2

theorem Hub.pwrEnter_busy (hs : h.pw.state = .enterDoze ∨ h.pw.state = .enterRest) : h.pwrEnter r = (h, .err .busy) := by
  have under : (h.pw.state.entering || decide (h.pw.state = .exiting)) = true := by rcases hs with e | e <;> rw [e] <;> rfl
  simp only [Hub.pwrEnter, r.not_has 4 hr.length, hr.target, hr.flags, Nat.not_lt.mpr h2, Nat.not_lt.mpr hr.flag, hr.reserved,
    Nat.ne_of_gt h1, under, ne_eq, not_true_eq_false, decide_false, Bool.or_self, Bool.false_eq_true, if_false, if_true]

section Settled
variable (hs : h.pw.state = .run ∨ h.pw.state = .doze)
include hs

/-- With nothing under way and no open transaction, what PWR_ENTER of a lower state does. -/
theorem Hub.pwrEnter_settled (idle : h.ctl.txns = []) : h.pwrEnter r =
    if target = 1 then if h.pw.state = .doze then (h, .ok []) else h.startEntry r.mb r.cmd 1
    else if h.isTail then h.disarmFold.startEntry r.mb r.cmd 2
    else if fl = 0 then (h, .err .denied)
    else if h.pw.armed.isSome then (h, .err .busy)
    else match h.startOp r.mb r.cmd (.power 2) with
      | (h, .long t) => (h.modPw (fun p => { p with armed := some t }), .long t)
      | x => x := by
  have none_ : (h.pw.state.entering || decide (h.pw.state = .exiting)) = false := by rcases hs with e | e <;> rw [e] <;> rfl
  simp only [Hub.pwrEnter, r.not_has 4 hr.length, hr.target, hr.flags, Nat.not_lt.mpr h2, Nat.not_lt.mpr hr.flag, hr.reserved,
    Nat.ne_of_gt h1, none_, idle, ne_eq, not_true_eq_false, decide_false, Bool.or_self, List.isEmpty_nil, Bool.not_true, Bool.false_eq_true,
    if_false] <;> rfl

theorem Hub.pwrEnter_conflict (open_ : h.ctl.txns ≠ []) : h.pwrEnter r = (h, .err .conflict) := by
  have none_ : (h.pw.state.entering || decide (h.pw.state = .exiting)) = false := by rcases hs with e | e <;> rw [e] <;> rfl
  have some_ : (!h.ctl.txns.isEmpty) = true := by simpa using open_
  simp only [Hub.pwrEnter, r.not_has 4 hr.length, hr.target, hr.flags, Nat.not_lt.mpr h2, Nat.not_lt.mpr hr.flag, hr.reserved,
    Nat.ne_of_gt h1, none_, some_, ne_eq, not_true_eq_false, decide_false, Bool.or_self, Bool.false_eq_true, if_false, if_true]

end Settled
end Low

section Doze
variable (hr : r.EntersState 1 fl) (idle : h.ctl.txns = [])
include hr idle

theorem Hub.pwrEnter_doze (hs : h.pw.state = .run) : h.pwrEnter r = h.startEntry r.mb r.cmd 1 := by
  rw [Hub.pwrEnter_settled hr (Nat.le_refl 1) (by decide) (.inl hs) idle, hs]
  rfl

theorem Hub.pwrEnter_dozing (hs : h.pw.state = .doze) : h.pwrEnter r = (h, .ok []) := by
  rw [Hub.pwrEnter_settled hr (Nat.le_refl 1) (by decide) (.inr hs) idle, hs]
  rfl

end Doze

section Rest
variable (hr : r.EntersState 2 fl) (idle : h.ctl.txns = []) (hs : h.pw.state = .run)
include hr idle hs

theorem Hub.pwrEnter_rest (tail : h.isTail = true) (free : h.pw.armed = none) : h.pwrEnter r = h.startEntry r.mb r.cmd 2 := by
  rw [Hub.pwrEnter_settled hr (by decide) (Nat.le_refl 2) (.inl hs) idle, tail, Hub.disarmFold_none free]
  rfl

theorem Hub.pwrEnter_denied (inner : h.isTail = false) (plain : fl = 0) : h.pwrEnter r = (h, .err .denied) := by
  rw [Hub.pwrEnter_settled hr (by decide) (Nat.le_refl 2) (.inl hs) idle, inner, plain]
  rfl

/-- A hub that is not the tail waits armed. -/
theorem Hub.pwrEnter_arms (inner : h.isTail = false) (fold : fl = 1) (free : h.pw.armed = none) (room : h.ctl.ops.length < 16) :
    h.pwrEnter r = ((h.withOp r.mb r.cmd (.power 2)).modPw (fun p => { p with armed := some h.ctl.nextToken }), .long h.ctl.nextToken) := by
  rw [Hub.pwrEnter_settled hr (by decide) (Nat.le_refl 2) (.inl hs) idle, inner, fold, free, Hub.startOp_eq h _ _ _ room]
  rfl

end Rest
end Enter

/-! ## The end of an entry (R380, R382) -/

theorem Hub.entryDone_doze {h : Hub} (hs : h.pw.state = .enterDoze) : h.entryDone = (h.within (h.pw.entryAt + ms 1)).dozeDone := by
  simp only [Hub.entryDone, hs]

theorem Hub.entryDone_rest {h : Hub} (hs : h.pw.state = .enterRest) : h.entryDone = (h.within (h.pw.entryAt + ms 5)).restDone := by
  simp only [Hub.entryDone, hs]

/-- An armed hub that has become the tail enters REST. -/
theorem Hub.foldEntry_enters {h : Hub} {t : Nat} (armed : h.pw.armed = some t) (tail : h.isTail = true) (idle : h.ctl.txns = [])
    (hs : h.pw.state = .run) : h.foldEntry = (h.modPw (fun p => { p with
      armed := none
      prior := .run
      entryAt := h.clk.up
      timer := h.pget P.PW_WAKE_TIMER 0
      token := t
      quiet := false
      latched := none })).toPState .enterRest := by
  simp only [Hub.foldEntry, armed, tail, idle, hs, List.isEmpty_nil, decide_true, Bool.true_or, Bool.and_self, if_true]

/-! ## Wakes (R382, R383) -/

theorem Hub.wakeEvent_noTimer {h : Hub} (off : h.pw.timer = 0) : h.wakeEvent 7 = h := by
  simp only [Hub.wakeEvent, off, decide_true, Bool.and_self, if_true]

section Wake
variable {h : Hub} {c : Nat} (hc : c ≠ 7)
include hc

theorem Hub.wakeEvent_doze (hs : h.pw.state = .doze) (counts : h.wakeCounts c false = true) : h.wakeEvent c = (h.tellWake c 1).toRun := by
  simp only [Hub.wakeEvent, hc, hs, counts, decide_false, Bool.false_and, Bool.false_eq_true, if_false, if_true]

theorem Hub.wakeEvent_rest (hs : h.pw.state = .rest) (counts : h.wakeCounts c true = true) : h.wakeEvent c = h.restWake c := by
  simp only [Hub.wakeEvent, hc, hs, counts, decide_false, Bool.false_and, Bool.false_eq_true, if_false, if_true]

theorem Hub.wakeEvent_masked (hs : h.pw.state = .rest) (counts : h.wakeCounts c true = false) : h.wakeEvent c = h := by
  simp only [Hub.wakeEvent, hc, hs, counts, decide_false, Bool.false_and, Bool.false_eq_true, if_false]

theorem Hub.wakeEvent_entersRest (hs : h.pw.state = .enterRest) (counts : h.wakeCounts c true = true) : h.wakeEvent c = h.abortEntry c := by
  simp only [Hub.wakeEvent, hc, hs, counts, decide_false, Bool.false_and, Bool.false_eq_true, if_false, if_true]

/-- An entry into DOZE whose last switch has opened is complete, and left again. -/
theorem Hub.wakeEvent_entersDoze (hs : h.pw.state = .enterDoze) (counts : h.wakeCounts c false = true) : h.wakeEvent c =
    if 2 ≤ h.entryReached 2 then ((Hub.dozeDone { h with free := h.free + 1 }).tellWake c 1).toRun else h.abortEntry c := by
  simp only [Hub.wakeEvent, hc, hs, counts, decide_false, Bool.false_and, Bool.false_eq_true, if_false, if_true]
  rfl

end Wake

/-- Past the bound of its last switch an entry has reached its last stage. -/
theorem Hub.entryReached_due {h : Hub} {top : Nat} (due : top ≤ h.stageDue) : top ≤ h.entryReached top := by
  simp only [Hub.entryReached, Nat.min_eq_left due, Nat.le_add_right]

/-- WAKE_OUT falls after its width. -/
theorem Hub.wakeOutEnd_falls {h x : Hub} (hx : x = h.until (h.pw.outAt + us h.pw.width)) (high : h.pw.wakeOut = true) (still : x.pw.wakeOut = true) :
    h.wakeOutEnd = (x.modPw (fun p => { p with wakeOut := false })).out (.pin "WAKE_OUT" false) := by
  subst hx
  simp only [Hub.wakeOutEnd, Hub.setWakeOut, high, still, Bool.true_eq_false, if_false, if_true]

/-! ## PWR_STATUS (R381) -/

theorem Hub.pwrStatus_ok {h : Hub} {r : Request} (hp : r.payload = []) : h.pwrStatus r = (h, .ok (leBytes 2 h.pw.word ++
    leBytes 1 (h.pget P.PW_LAST_WAKE 0) ++ [0#8] ++ leBytes 4 (h.pget P.PW_RESET_CAUSE 0) ++ leBytes 8 h.pw.lastExit)) := by
  simp only [Hub.pwrStatus, r.not_has_zero hp, Bool.false_eq_true, if_false]

/-! ## The commands -/

theorem exec_pwrEnterRun (q : Req) (s : State) :
    exec (.pwrEnterRun q) s = .next (s.after (s.hub.request 0x0801 (force q 0 0) Hub.pwrEnter)) := rfl
theorem exec_pwrEnterDoze (q : Req) (s : State) :
    exec (.pwrEnterDoze q) s = .next (s.after (s.hub.request 0x0801 (force q 0 1) Hub.pwrEnter)) := rfl
theorem exec_pwrEnterRest (q : Req) (s : State) :
    exec (.pwrEnterRest q) s = .next (s.after (s.hub.request 0x0801 (force q 0 2) Hub.pwrEnter)) := rfl
theorem exec_pwrEntryDone (s : State) : exec .pwrEntryDone s = .next (s.after s.hub.entryDone) := rfl
theorem exec_foldArmedEntry (s : State) : exec .foldArmedEntry s = .next (s.after s.hub.foldEntry) := rfl
theorem exec_wakeEvent (c : Nat) (s : State) : exec (.wakeEvent c) s = .next (s.after (s.hub.wakeEvent c)) := rfl
theorem exec_wakeOutEnd (s : State) : exec .wakeOutEnd s = .next (s.after s.hub.wakeOutEnd) := rfl
theorem exec_pwrStatus (q : Req) (s : State) : exec (.pwrStatus q) s = .next (s.after (s.hub.request 0x0802 q Hub.pwrStatus)) := rfl

/-- Settles O49, each clause from the lemma on its outcome above. -/
theorem powerStatesAreEnteredAndLeft : Obligations.PowerStatesAreEnteredAndLeft := by
  unfold Obligations.PowerStatesAreEnteredAndLeft
  refine ⟨?doze, ?dozing, ?rest, ?denied, ?arms, ?run, ?wakes, ?conflict, ?busy, ?dozeDone, ?restDone, ?fold, ?wakeDoze, ?wakeRest,
    ?wakeEntering, ?wakeDue, ?wakeEnteringRest, ?masked, ?noTimer, ?wakeOut, ?status⟩
  case doze =>
    intro s q a hq hA hl hf hz hs room idle
    have hbody := (Hub.pwrEnter_doze (forced_entersState (by decide) hl hf hz) idle hs).trans (Hub.startEntry_long room)
    rw [exec_pwrEnterDoze, Hub.request_plain s.hub _ _ _ a _ _ (by decide) hq hA hbody]
    rfl
  case dozing =>
    intro s q a hq hA hl hf hz hs idle
    have hbody := Hub.pwrEnter_dozing (forced_entersState (by decide) hl hf hz) idle hs
    rw [exec_pwrEnterDoze, Hub.request_plain s.hub _ _ _ a _ _ (by decide) hq hA hbody]
  case rest =>
    intro s q a hq hA hl hf hz hs tail free room idle
    have hbody := (Hub.pwrEnter_rest (forced_entersState (by decide) hl hf hz) idle hs tail free).trans (Hub.startEntry_long room)
    rw [exec_pwrEnterRest, Hub.request_plain s.hub _ _ _ a _ _ (by decide) hq hA hbody]
    rfl
  case denied =>
    intro s q a hq hA hl hf hz hs inner plain idle
    have hbody := Hub.pwrEnter_denied (forced_entersState (by decide) hl hf hz) idle hs inner plain
    rw [exec_pwrEnterRest, Hub.request_plain s.hub _ _ _ a _ _ (by decide) hq hA hbody]
  case arms =>
    intro s q a hq hA hl hf hz hs inner fold free room idle
    have hbody := Hub.pwrEnter_arms (forced_entersState (by decide) hl hf hz) idle hs inner fold free room
    rw [exec_pwrEnterRest, Hub.request_plain s.hub _ _ _ a _ _ (by decide) hq hA hbody]
    rfl
  case run =>
    intro s q a hq hA hl hf hz hs free
    have hbody := Hub.pwrEnter_run (forced_entersState (by decide) hl hf hz) free hs
    rw [exec_pwrEnterRun, Hub.request_plain s.hub _ _ _ a _ _ (by decide) hq hA hbody]
  case wakes =>
    intro s q a hq hA hl hf hz hs free
    have hbody := Hub.pwrEnter_wakes (forced_entersState (by decide) hl hf hz) free hs
    rw [exec_pwrEnterRun, Hub.request_plain s.hub _ _ _ a _ _ (by decide) hq hA hbody]
  case conflict =>
    intro s q a hq hA hl hf hz hs open_
    have hbody := Hub.pwrEnter_conflict (forced_entersState (target := 1) (by decide) hl hf hz) (by decide) (by decide) hs open_
    rw [exec_pwrEnterDoze, Hub.request_plain s.hub _ _ _ a _ _ (by decide) hq hA hbody]
  case busy =>
    intro s q a hq hA hl hf hz hs _
    have hbody := Hub.pwrEnter_busy (forced_entersState (target := 1) (by decide) hl hf hz) (by decide) (by decide) hs
    rw [exec_pwrEnterDoze, Hub.request_plain s.hub _ _ _ a _ _ (by decide) hq hA hbody]
  case dozeDone =>
    intro s hs
    rw [exec_pwrEntryDone, Hub.entryDone_doze hs]
  case restDone =>
    intro s hs
    rw [exec_pwrEntryDone, Hub.entryDone_rest hs]
  case fold =>
    intro s t armed tail idle hs
    rw [exec_foldArmedEntry, Hub.foldEntry_enters armed tail idle hs]
  case wakeDoze =>
    intro s c hc hs counts
    rw [exec_wakeEvent, Hub.wakeEvent_doze hc hs counts]
  case wakeRest =>
    intro s c hc hs counts
    rw [exec_wakeEvent, Hub.wakeEvent_rest hc hs counts]
  case wakeEntering =>
    intro s c hc hs counts
    rw [exec_wakeEvent, Hub.wakeEvent_entersDoze hc hs counts]
  case wakeDue =>
    intro s c hc hs counts due
    rw [exec_wakeEvent, Hub.wakeEvent_entersDoze hc hs counts, if_pos (Hub.entryReached_due due)]
  case wakeEnteringRest =>
    intro s c hc hs counts
    rw [exec_wakeEvent, Hub.wakeEvent_entersRest hc hs counts]
  case masked =>
    intro s c hc hs counts
    rw [exec_wakeEvent, Hub.wakeEvent_masked hc hs counts]
  case noTimer =>
    intro s off
    rw [exec_wakeEvent, Hub.wakeEvent_noTimer off]
  case wakeOut =>
    intro s high still
    rw [exec_wakeOutEnd, Hub.wakeOutEnd_falls rfl high still]
  case status =>
    intro s q a hq hA hp
    rw [exec_pwrStatus, Hub.request_plain s.hub q _ _ a _ _ (by decide) hq hA (Hub.pwrStatus_ok (r := reqOn q 0x0802) hp)]

end Sys2Proof.Machine
end

section
/-!
SUPPORT. LINE_FOLD with its pace and its time-out, and LINE_UNFOLD (O50).
-/
namespace Sys2Proof.Machine

/-! ## LINE_FOLD (R384) -/

theorem Hub.lineFold_denied {h : Hub} {r : Request} (inner : h.isHead = false) : h.lineFold r = (h, .err .denied) := by
  simp only [Hub.lineFold, inner, Bool.not_false, if_true]

section Fold
variable {h : Hub} {r : Request} {first : Nat} (head : h.isHead = true) (hl : r.payload.length = 4) (hf : first = r.arg 0 2) (hz : r.arg 2 2 = 0)
  (h1 : 1 ≤ first) (hn : first ≤ 4094)
include head hl hf hz h1 hn

theorem Hub.lineFold_busy (under : h.pw.fold ≠ none) : h.lineFold r = (h, .err .busy) := by
  subst hf
  have some_ : h.pw.fold.isSome = true := Option.isSome_iff_ne_none.mpr under
  simp [Hub.lineFold, head, r.not_has 4 hl, hz, Nat.ne_of_gt h1, Nat.not_lt.mpr hn, some_]

/-- A fold from node 4094 down to its first node is held. -/
theorem Hub.lineFold_long (free : h.pw.fold = none) (room : h.ctl.ops.length < 16) :
    h.lineFold r = ((h.withOp r.mb r.cmd .fold).modPw (fun p =>
      { p with fold := some ⟨h.ctl.nextToken, first, 4094, false, h.clk.up, h.clk.up + 1000 * ms (h.pget P.PW_FOLD_TIMEOUT 0)⟩ }),
      .long h.ctl.nextToken) := by
  subst hf
  simp only [Hub.lineFold, head, r.not_has 4 hl, hz, Nat.ne_of_gt h1, Nat.not_lt.mpr hn, free, Option.isSome_none,
    Hub.startOp_eq h _ _ _ room, Bool.not_true, ne_eq, not_true_eq_false, decide_false, Bool.or_self, Bool.false_eq_true, if_false]
  rfl

end Fold

/-- At each pace the highest managed node left is sent its PWR_ENTER. -/
theorem Hub.foldPace_sends {h x : Hub} {f : Fold} {n e : Nat} (under : h.pw.fold = some f) (hx : x = h.until f.paceAt)
    (next : x.foldNext f.first f.next = some (n, e)) :
    h.foldPace = (x.modPw (fun p => { p with fold := some { f with next := n - 1, sent := true, paceAt := x.clk.up + us (x.pget P.PW_FOLD_PACE 0) } })).frameSend
      8 e false (foldMessage (n % 65536)) 20 := by
  subst hx
  simp only [Hub.foldPace, under, next]

theorem Hub.foldPace_none {h : Hub} (free : h.pw.fold = none) : h.foldPace = h := by
  simp only [Hub.foldPace, free]

theorem Hub.foldTimeout_none {h : Hub} (free : h.pw.fold = none) : h.foldTimeout = h := by
  simp only [Hub.foldTimeout, free]

theorem Hub.foldTimeout_ends {h x : Hub} {f : Fold} (under : h.pw.fold = some f) (hx : x = h.until f.endAt) (still : x.pw.fold = some f) :
    h.foldTimeout = (x.modPw (fun p => { p with fold := none })).endOp f.token .timeout 0 [] := by
  subst hx
  simp only [Hub.foldTimeout, under, Hub.foldEnd, still]

/-! ## LINE_UNFOLD (R385) -/

theorem Hub.lineUnfold_denied {h : Hub} {r : Request} (inner : h.isHead = false) : h.lineUnfold r = (h, .err .denied) := by
  simp only [Hub.lineUnfold, inner, Bool.not_false, if_true]

/-- The silent DETECT of the head's L1 ends. -/
theorem Hub.lineUnfold_long {h : Hub} {r : Request} (head : h.isHead = true) (hp : r.payload = []) (free : h.pw.unfold = none)
    (room : h.ctl.ops.length < 16) (detect : (h.port 1).state = .detect) (silent : (h.port 1).train.silent = true) :
    h.lineUnfold r = (((h.withOp r.mb r.cmd .unfold).toDetect 1).modPw (fun p => { p with unfold := some h.ctl.nextToken }),
      .long h.ctl.nextToken) := by
  have waits : (decide (((h.withOp r.mb r.cmd .unfold).port 1).state = .detect) && ((h.withOp r.mb r.cmd .unfold).port 1).train.silent) = true := by
    have same : (h.withOp r.mb r.cmd .unfold).port 1 = h.port 1 := rfl
    simp [same, detect, silent]
  simp only [Hub.lineUnfold, head, r.not_has_zero hp, free, Option.isSome_none, Hub.startOp_eq h _ _ _ room, waits, Bool.not_true,
    Bool.false_eq_true, if_false, if_true]

/-! ## The commands -/

theorem exec_lineFold (q : Req) (s : State) : exec (.lineFold q) s = .next (s.after (s.hub.request 0x0803 q Hub.lineFold)) := rfl
theorem exec_foldPace (s : State) : exec .foldPace s = .next (s.after s.hub.foldPace) := rfl
theorem exec_foldTimeout (s : State) : exec .foldTimeout s = .next (s.after s.hub.foldTimeout) := rfl
theorem exec_lineUnfold (q : Req) (s : State) : exec (.lineUnfold q) s = .next (s.after (s.hub.request 0x0804 q Hub.lineUnfold)) := rfl

/-- Settles O50, each clause from the lemma on its outcome above. -/
theorem theLineFoldsAndUnfolds : Obligations.TheLineFoldsAndUnfolds := by
  unfold Obligations.TheLineFoldsAndUnfolds
  refine ⟨?denied, ?fold, ?busy, ?pace, ?idle, ?timeout, ?unfoldDenied, ?unfold⟩
  case denied =>
    intro s q a hq hA inner
    rw [exec_lineFold, Hub.request_plain s.hub q _ _ a _ _ (by decide) hq hA (Hub.lineFold_denied (r := reqOn q 0x0803) inner)]
  case fold =>
    intro s q a first hq hA head hl hf hz h1 hn free room
    have hbody := Hub.lineFold_long (r := reqOn q 0x0803) head hl hf hz h1 hn free room
    rw [exec_lineFold, Hub.request_plain s.hub q _ _ a _ _ (by decide) hq hA hbody]
    rfl
  case busy =>
    intro s q a hq hA head hl hz h1 hn under
    have hbody := Hub.lineFold_busy (r := reqOn q 0x0803) head hl rfl hz h1 hn under
    rw [exec_lineFold, Hub.request_plain s.hub q _ _ a _ _ (by decide) hq hA hbody]
  case pace =>
    intro s f n e x under hx next
    rw [exec_foldPace, Hub.foldPace_sends under hx next]
  case idle =>
    intro s free
    rw [exec_foldPace, exec_foldTimeout, Hub.foldPace_none free, Hub.foldTimeout_none free]
    exact ⟨rfl, rfl⟩
  case timeout =>
    intro s f x under hx still
    rw [exec_foldTimeout, Hub.foldTimeout_ends under hx still]
  case unfoldDenied =>
    intro s q a hq hA inner
    rw [exec_lineUnfold, Hub.request_plain s.hub q _ _ a _ _ (by decide) hq hA (Hub.lineUnfold_denied (r := reqOn q 0x0804) inner)]
  case unfold =>
    intro s q a hq hA head hp free room detect silent
    have hbody := Hub.lineUnfold_long (r := reqOn q 0x0804) head hp free room detect silent
    rw [exec_lineUnfold, Hub.request_plain s.hub q _ _ a _ _ (by decide) hq hA hbody]
    rfl

end Sys2Proof.Machine
end

section
/-!
SUPPORT. Tamper: policies, the alarm and what follows it, the end of a condition, the Rinse and KY_TAMPER_CLEAR (O54).
-/
namespace Sys2Proof.Machine

/-! ## Policies (R425) -/

/-- ZEROISE_ALL takes the volatile keys, opens the Rinse of every slot and keeps the RESET of a Rinse still open. -/
theorem Hub.applyPolicy_all (h : Hub) (s : Nat) (r : Bool) :
    (h.applyPolicy s 2 r).ky.erase = List.range 32 ∧
      (h.applyPolicy s 2 r).ky.rinse = some (s, r || (h.ky.rinse.map (·.2)).getD false) ∧ (h.applyPolicy s 2 r).ky.measured = false :=
  ⟨rfl, rfl, rfl⟩

/-! ## Deglitch (R424) -/

theorem Hub.tamperHolds_deglitch (h : Hub) {s : Nat} (hs : s < 2) : h.tamperHolds s = us (h.pget P.KY_TAMPER_DEGLITCH s) := by
  simp only [Hub.tamperHolds, hs, if_true]

theorem Hub.tamperCondition_short {h : Hub} {src held : Nat} (short : held < h.tamperHolds src) : h.tamperCondition src held = h := by
  simp only [Hub.tamperCondition, short, if_true]

theorem Hub.tamperCondition_alarms {h : Hub} {src held : Nat} (long : h.tamperHolds src ≤ held) : h.tamperCondition src held = h.tamperSeen src := by
  simp only [Hub.tamperCondition, Nat.not_lt.mpr long, if_false]

/-! ## The alarm (R426, R428, R383) -/

section Alarm
variable {h : Hub} {s : Nat} {force : Bool}

theorem Hub.tamperAlarm_none (far : 5 < s) : h.tamperAlarm s force = h := by
  simp only [Hub.tamperAlarm, far, if_true]

/-- An alarm: latch, count and record; the chapter's operations and an unlock end; the policy applies, and the event is delivered. -/
theorem Hub.tamperAlarm_told {a : List Byte} {x y z w : Hub} (hs : s ≤ 5)
    (hx : x = (((h.modKy (fun y => { y with alarms := setBit y.alarms s true })).pset P.KY_TAMPER_LATCH 0
      (setBit (h.pget P.KY_TAMPER_LATCH 0) s true)).bump P.KY_TAMPER_EVENTS s).raise (2 ^ intTamper))
    (ha : a = fields 16 [(0, 1, s), (1, 1, (h.tamperPolicy s).1), (2, 1, 1), (3, 1, x.alarmState), (8, 8, h.clk.ns)])
    (hy : y = if x.pw.state = .rest ∨ x.pw.state = .doze then (x.lintRec Ev.tamperAlarm.code Ev.tamperAlarm.severity a true).lintEstimated
      else x.lintRec Ev.tamperAlarm.code Ev.tamperAlarm.severity a true)
    (hz : z = (y.modKy (fun k => { k with heard := modAt k.heard s (fun _ => ((h.tamperPolicy s).1, y.alarmState, h.clk.ns)) })).abortKeyOps.unlockEnd 3)
    (hw : w = (z.applyPolicy s (h.tamperPolicy s).1 ((h.tamperPolicy s).2 || force)).deliver .tamperAlarm Ev.tamperAlarm.severity 0 a) :
    h.tamperAlarm s force =
      if (h.tamperPolicy s).1 = 0 ∧ w.mg.ready = true then w.pset P.KY_TAMPER_LATCH 0 (setBit (w.pget P.KY_TAMPER_LATCH 0) s false) else w := by
  subst hw hz hy ha hx
  simp only [Hub.tamperAlarm, Nat.not_lt.mpr hs, if_false, Bool.or_eq_true, Bool.and_eq_true, decide_eq_true_eq]

end Alarm

section Seen
variable {h x : Hub} {src : Nat} (hx : x = h.tamperAlarm src false)
include hx

theorem Hub.tamperSeen_running (run : x.pw.state = .run) : h.tamperSeen src = x := by
  subst hx
  simp only [Hub.tamperSeen, run, if_true]

section Woken
variable {y : Hub} (rest : x.pw.state ≠ .run)
  (hy : y = (if x.ky.rinse.isSome then (x.within (x.clk.up + ms 25)).tamperRinsed else x).wakeEvent 8)
include rest hy

/-- A RESET that the alarm made due comes before any service. -/
theorem Hub.tamperSeen_resets {c : Nat} (run : y.pw.state = .run) (due : y.pw.resetDue = some c) : h.tamperSeen src = y.warmReset c y.straps := by
  subst hy hx
  simp only [Hub.tamperSeen, rest, if_false, run, due]

theorem Hub.tamperSeen_wakes (why : y.pw.state ≠ .run ∨ y.pw.resetDue = none) : h.tamperSeen src = y := by
  subst hy hx
  simp only [Hub.tamperSeen, rest, if_false]
  split
  next run due =>
    rcases why with e | e
    · exact absurd run e
    · exact absurd (due.symm.trans e) (Option.some_ne_none _)
  next => rfl

end Woken
end Seen

/-! ## The end of a condition, and of a Rinse (R425, R430) -/

theorem Hub.tamperEnd_none {h : Hub} {src : Nat} (idle : bit h.ky.alarms src = false) : h.tamperEnd src = h := by
  simp only [Hub.tamperEnd, idle, Bool.not_false, Bool.true_or, if_true]

theorem Hub.tamperEnd_told {h x : Hub} {src : Nat} {a : Nat × Nat × Nat} (hs : src ≤ 5) (active : bit h.ky.alarms src = true)
    (hx : x = h.modKy (fun y => { y with alarms := setBit y.alarms src false })) (ha : a = nth h.ky.heard src (0, 0, 0)) :
    h.tamperEnd src = x.eventClear .tamperAlarm [(0, 1, src), (1, 1, a.1), (2, 1, 0), (3, 1, a.2.1), (8, 8, a.2.2)] := by
  subst ha hx
  simp only [Hub.tamperEnd, active, Nat.not_lt.mpr hs, Bool.not_true, decide_false, Bool.or_self, Bool.false_eq_true, if_false]

theorem Hub.tamperRinsed_none {h : Hub} (none_ : h.ky.rinse = none) : h.tamperRinsed = h := by
  simp only [Hub.tamperRinsed, none_]

/-- The Rinse of every slot the erase-intent record names, and the RESET that waited for it. -/
theorem Hub.tamperRinsed_done {h x : Hub} {s : Nat} {reset : Bool} (under : h.ky.rinse = some (s, reset))
    (hx : x = ((h.rinseSlots h.ky.erase).eraseIntent []).modKy (fun y => { y with rinse := none })) :
    h.tamperRinsed = if reset then { x with pw := { x.pw with resetDue := some 9 } } else x := by
  subst hx
  simp only [Hub.tamperRinsed, under, Hub.rinseIntent]

/-! ## KY_TAMPER_CLEAR (R426) -/

section Clear
variable {h : Hub} {mb v : Nat} (hv : v < 64)
include hv

theorem formOf_tamperClear : formOf ⟨P.KY_TAMPER_CLEAR, 0, v⟩ = .ok ⟨P.KY_TAMPER_CLEAR, 0, v⟩ := by
  have desc : descOf P.KY_TAMPER_CLEAR = some ⟨P.KY_TAMPER_CLEAR, 0, 1, .wo, 0, 1, false, [0], (.mask 0x3F), 0, 0x0000⟩ := rfl
  have byte_ : v < 256 := by omega
  have sources : v ||| 63 = 63 := (by decide : ∀ v < 64, v ||| 63 = 63) v hv
  have other : P.KY_TAMPER_CLEAR ≠ P.PW_ISLAND_RESET := by decide
  simp [formOf, paramForm, desc, ParamDesc.norm, byte_, ParamDesc.refuses, sources, other]

theorem Hub.writeParam_tamperClear (hm : 2 ≤ mb) (free : v &&& h.ky.alarms = 0) (hc : h.conflictsOutside mb P.KY_TAMPER_CLEAR 0 = false) :
    h.writeParam mb P.KY_TAMPER_CLEAR 0 v = h.tamperClear v := by
  have own : h.ownRefusal (h.overlay [⟨P.KY_TAMPER_CLEAR, 0, v⟩] []) mb P.KY_TAMPER_CLEAR 0 v = none := by
    rw [Hub.ownRefusal_tamperClear, Hub.tamperClearRefusal, if_neg (Nat.not_lt.mpr hm), if_neg (not_not_intro free)]
  rw [Hub.writeParam_eq h mb P.KY_TAMPER_CLEAR 0 v v (formOf_tamperClear hv) (by decide) (by decide) (by decide) own hc,
    Hub.stored_wo h P.KY_TAMPER_CLEAR 0 v _ rfl rfl (by decide)]
  rfl

/-- MB0 and MB1 may not, and a source whose condition still holds stays. -/
theorem Hub.writeParam_tamperClear_refused {st : Status} (refused : h.tamperClearRefusal mb v = some st) (hs : st ≠ .ok) :
    h.writeParam mb P.KY_TAMPER_CLEAR 0 v = h := by
  have own : h.ownRefusal (h.overlay [⟨P.KY_TAMPER_CLEAR, 0, v⟩] []) mb P.KY_TAMPER_CLEAR 0 v = some st := by
    rw [Hub.ownRefusal_tamperClear, refused]
  exact Hub.writeParam_refused h mb P.KY_TAMPER_CLEAR 0 v v st (formOf_tamperClear hv) (by decide) (by decide) own hs

end Clear

/-! ## The commands -/

theorem exec_tamperAlarm (src held : Nat) (s : State) : exec (.tamperAlarm ⟨src, held⟩) s = .next (s.after (s.hub.tamperCondition src held)) := rfl
theorem exec_tamperConditionEnd (src : Nat) (s : State) : exec (.tamperConditionEnd src) s = .next (s.after (s.hub.tamperEnd src)) := rfl
theorem exec_tamperRinseDone (s : State) : exec .tamperRinseDone s = .next (s.after s.hub.tamperRinsed) := rfl
theorem exec_kyTamperClear (mb v : Nat) (s : State) :
    exec (.kyTamperClear mb v) s = .next (s.after (s.hub.writeParam mb P.KY_TAMPER_CLEAR 0 v)) := rfl

/-- Settles O54, each clause from the lemma on its outcome above. -/
theorem tamperAlarmsApplyTheirPolicy : Obligations.TamperAlarmsApplyTheirPolicy := by
  unfold Obligations.TamperAlarmsApplyTheirPolicy
  refine ⟨?policies, ?holds, ?short, ?running, ?resets, ?wakes, ?alarm, ?unknown, ?idle, ?ended, ?noRinse, ?rinsed, ?rinsedReset, ?clear,
    ?denied, ?busy⟩
  case policies => exact fun h s r => ⟨rfl, rfl, rfl, rfl, h.applyPolicy_all s r⟩
  case holds => exact fun h s => ⟨h.tamperHolds_deglitch, rfl, rfl⟩
  case short =>
    intro s src held short
    rw [exec_tamperAlarm, Hub.tamperCondition_short short]
  case running =>
    intro s src held x long hx run
    rw [exec_tamperAlarm, Hub.tamperCondition_alarms long, Hub.tamperSeen_running hx run]
  case resets =>
    intro s src held x y c long hx rest hy run due
    rw [exec_tamperAlarm, Hub.tamperCondition_alarms long, Hub.tamperSeen_resets hx rest hy run due]
  case wakes =>
    intro s src held x y long hx rest hy why
    rw [exec_tamperAlarm, Hub.tamperCondition_alarms long, Hub.tamperSeen_wakes hx rest hy why]
  case alarm => exact fun h s force a x y z w => Hub.tamperAlarm_told
  case unknown =>
    intro s src held far run
    by_cases short : held < s.hub.tamperHolds src
    · rw [exec_tamperAlarm, Hub.tamperCondition_short short]
    · have none_ : s.hub = s.hub.tamperAlarm src false := (Hub.tamperAlarm_none far).symm
      rw [exec_tamperAlarm, Hub.tamperCondition_alarms (Nat.not_lt.mp short), Hub.tamperSeen_running none_ run]
  case idle =>
    intro s src idle
    rw [exec_tamperConditionEnd, Hub.tamperEnd_none idle]
  case ended =>
    intro s src x a hs active hx ha
    rw [exec_tamperConditionEnd, Hub.tamperEnd_told hs active hx ha]
  case noRinse =>
    intro s none_
    rw [exec_tamperRinseDone, Hub.tamperRinsed_none none_]
  case rinsed =>
    intro s s0 x under hx
    rw [exec_tamperRinseDone, Hub.tamperRinsed_done under hx]
    rfl
  case rinsedReset =>
    intro s s0 x under hx
    rw [exec_tamperRinseDone, Hub.tamperRinsed_done under hx]
    rfl
  case clear =>
    intro s mb v hm hv clear hc
    rw [exec_kyTamperClear, Hub.writeParam_tamperClear hv hm clear hc]
  case denied =>
    intro s mb v hv hm
    have refused : s.hub.tamperClearRefusal mb v = some .denied := if_pos hm
    rw [exec_kyTamperClear, Hub.writeParam_tamperClear_refused hv refused (by decide)]
  case busy =>
    intro s mb v hv hm still
    have refused : s.hub.tamperClearRefusal mb v = some .busy := by
      rw [Hub.tamperClearRefusal, if_neg (Nat.not_lt.mpr hm), if_pos still]
    rw [exec_kyTamperClear, Hub.writeParam_tamperClear_refused hv refused (by decide)]

end Sys2Proof.Machine
end

section
/-!
SUPPORT. Key updates, KEY_STATUS, life-cycle transitions and debug unlocks (O53).
-/
namespace Sys2Proof.Machine

/-! ## KEY_UPDATE (R414 to R417) -/

theorem Hub.keyUpdate_long {h : Hub} {r : Request} (room : h.ctl.ops.length < 16) :
    h.keyUpdate r = (h.withOp r.mb r.cmd (.keyUpdate r.payload), .long h.ctl.nextToken) := Hub.startOp_eq h _ _ _ room

/-- The package of a KEY_UPDATE is well formed. -/
def keyFormOk (b : List Byte) : Bool :=
  pkgGood 2 296 b && byteAt (slice b 136 64) 3 == 0 && decide (le (slice b 136 64) 4 4 ≤ 7) && allZero (slice (slice b 136 64) 48 16) &&
    decide (byteAt (slice b 136 64) 0 ≤ 31) && (byteAt (slice b 136 64) 2 == 1 || byteAt (slice b 136 64) 2 == 2)

/-- The life cycle and the key store allow a KEY_UPDATE. -/
def Hub.takesKeys (h : Hub) : Bool := (h.lc == 1 || h.lc == 2) && !h.ky.hold && h.ky.unlock.isNone

/-- The checks of KEY_UPDATE by what they test. -/
theorem Hub.keyRefusal_eq (h : Hub) (b : List Byte) : h.keyRefusal b =
    if h.onVback then some .powerState
    else if h.takesKeys = false then some .denied
    else if keyFormOk b = false then some .badParam
    else if h.pkgAuth b = false then some .authFail
    else if pkgCounter b ≤ (h.slot (byteAt (slice b 136 64) 0)).counter then some .replay
    else (h.kek (byteAt (slice b 136 64) 1) (pkgSigner b)).elim (some .denied)
      (fun kk => if byteAt (slice b 136 64) 2 = 1 ∧ Config.unwrap kk (slice (slice b 136 64) 8 40) = none then some .authFail else none) := by
  have allowed : (!(decide (h.lc = 1) || decide (h.lc = 2)) || h.ky.hold || h.ky.unlock.isSome) = !h.takesKeys := by
    simp [Hub.takesKeys, Bool.not_and, beq_eq_decide]
  have form : (!pkgGood 2 296 b || decide (byteAt (slice b 136 64) 3 ≠ 0) || decide (7 < le (slice b 136 64) 4 4) ||
      !allZero (slice (slice b 136 64) 48 16) || decide (31 < byteAt (slice b 136 64) 0) ||
      !(decide (byteAt (slice b 136 64) 2 = 1) || decide (byteAt (slice b 136 64) 2 = 2))) = !keyFormOk b := by
    have wide (n m : Nat) : decide (m < n) = !decide (n ≤ m) := by rw [← decide_not, decide_eq_decide, not_le]
    simp only [keyFormOk, Bool.not_and, Bool.not_or, beq_eq_decide, wide, decide_not, ne_eq]
  simp only [Hub.keyRefusal, allowed, form, Bool.not_eq_true']
  cases h.kek (byteAt (slice b 136 64) 1) (pkgSigner b) <;>
    simp only [Option.elim, Bool.and_eq_true, decide_eq_true_eq, Option.isNone_iff_eq_none]

theorem Hub.pkgFails_other {h : Hub} {t : Nat} {st : Status} (ha : st ≠ .authFail) (hr : st ≠ .replay) : h.pkgFails t st = h.endOp t st 0 [] := by
  simp only [Hub.pkgFails, ha, hr, if_false]

theorem Hub.newKey_erased {h : Hub} {b : List Byte} (erase : byteAt (slice b 136 64) 2 = 2) : h.newKey b = emptyKey := by
  simp only [Hub.newKey, erase, if_true]

theorem Hub.newKey_written {h : Hub} {b : List Byte} (write : byteAt (slice b 136 64) 2 ≠ 2) : h.newKey b =
    ((h.kek (byteAt (slice b 136 64) 1) (pkgSigner b)).bind (fun kk => Config.unwrap kk (slice (slice b 136 64) 8 40))).elim emptyKey
      (Config.wrap storageKey) := by
  simp only [Hub.newKey, write, if_false]
  cases (h.kek (byteAt (slice b 136 64) 1) (pkgSigner b)).bind (fun kk => Config.unwrap kk (slice (slice b 136 64) 8 40)) <;> rfl

/-- The commit: the copy that ACTIVE does not name, the commit record, KEY_CHANGED, and the entries of the slot change key. -/
theorem Hub.keyCommit_eq {h x y : Hub} {t k copy : Nat} {b : List Byte} {n : KeySlot} (hk : k = byteAt (slice b 136 64) 0)
    (hc : copy = 1 - (h.slot k).active)
    (hn : n = ⟨b2n (byteAt (slice b 136 64) 2 == 1), le (slice b 136 64) 4 4, pkgCounter b, copy, if copy = 0 then h.newKey b else (h.slot k).copyA,
      if copy = 0 then (h.slot k).copyB else h.newKey b⟩)
    (hx : x = ((h.nvCopy k copy (h.newKey b) n.policy).nvCommit k n).modKy (fun y => { y with slots := modAt y.slots k (fun _ => n) }))
    (hy : y = (x.endOp t .ok 0 []).event .keyChanged [(0, 1, k), (1, 1, n.state), (4, 4, n.policy), (8, 8, n.counter)]) :
    h.keyCommit t b = (y.entriesOfSlot k).foldl Hub.tunnelChanged y := by
  subst hy hx hn hc hk
  rfl

theorem Hub.keyUpdateDone_eq {g : Hub} {t : Nat} {b : List Byte} (work : (g.op t).map LongOp.work = some (.keyUpdate b)) :
    g.keyUpdateDone t = (g.keyRefusal b).elim (g.keyCommit t b) (g.pkgFails t) := by
  simp only [Hub.keyUpdateDone, work]
  cases g.keyRefusal b <;> rfl

theorem Hub.keyUpdateDone_none {g : Hub} {t : Nat} (none_ : g.op t = none) : g.keyUpdateDone t = g := by
  simp only [Hub.keyUpdateDone, none_, Option.map_none]

/-! ## KEY_STATUS (R418) -/

theorem Hub.keyStatus_ok {h : Hub} {r : Request} (hp : r.payload = []) : h.keyStatus r = (h,
    .ok ([byte h.lc, byte (b2n h.ky.hold + 2 * b2n h.ky.unlock.isSome + 4 * b2n h.ky.measured), 0#8, 0#8] ++ leBytes 4 (h.pget P.KY_TAMPER_LATCH 0) ++
      leBytes 8 h.ky.debugCtr ++ leBytes 4 (h.ky.unlock.elim 0 (fun t => (t - h.clk.up) / 1000000000)) ++ leBytes 4 0 ++ romMeasure ++ h.imageMeasure ++
      devicePubkey ++ h.ky.slots.flatMap (fun s => [byte s.state, 0#8, 0#8, 0#8] ++ leBytes 4 s.policy ++ leBytes 8 s.counter))) := by
  simp only [Hub.keyStatus, r.not_has_zero hp, Bool.false_eq_true, if_false]
  cases h.ky.unlock <;> rfl

/-! ## LC_TRANSITION (R420, R421) -/

theorem Hub.lcTransition_long {h : Hub} {r : Request} (room : h.ctl.ops.length < 16) :
    h.lcTransition r = (h.withOp r.mb r.cmd (.lifeCycle r.payload), .long h.ctl.nextToken) := Hub.startOp_eq h _ _ _ room

section Refusal
variable {h : Hub} {b : List Byte}

theorem Hub.lcRefusal_vback (back : h.onVback = true) : h.lcRefusal b = some .powerState := by
  simp only [Hub.lcRefusal, back, if_true]

section Main
variable (main : h.onVback = false)
include main

theorem Hub.lcRefusal_form (form : (pkgGood 4 240 b && allZero (slice b 137 7)) = false) : h.lcRefusal b = some .badParam := by
  have bad : (!pkgGood 4 240 b || !allZero (slice b 137 7)) = true := by rw [← Bool.not_and, form, Bool.not_false]
  simp only [Hub.lcRefusal, main, bad, Bool.false_eq_true, if_false, if_true]

theorem Hub.lcRefusal_wellFormed (form : (pkgGood 4 240 b && allZero (slice b 137 7)) = true) : h.lcRefusal b =
    if lcAllowed h.lc (byteAt b 136) then if h.pkgAuth b then none else some .authFail else some .denied := by
  have good : (!pkgGood 4 240 b || !allZero (slice b 137 7)) = false := by rw [← Bool.not_and, form, Bool.not_true]
  simp only [Hub.lcRefusal, main, good, Bool.false_eq_true, if_false]
  cases lcAllowed h.lc (byteAt b 136) <;> cases h.pkgAuth b <;> rfl

end Main
end Refusal

/-- A transition: the fuse, the signer's hash with PROVISION, the end of an unlock with SCRAP, the Rinse, LC_CHANGED, and a warm reset made due. -/
theorem Hub.lcCommit_eq {h x y z : Hub} {t s : Nat} {b : List Byte} (hs : s = byteAt b 136)
    (hx : x = if h.lc = 0 ∧ s = 1 then (h.pset P.KY_LIFE_CYCLE 0 s).modKy (fun y =>
        { y with auth := some (BitVec.ofNat 384 (beNat (sha384 (pkgSigner b)))) })
      else h.pset P.KY_LIFE_CYCLE 0 s)
    (hy : y = if s = 4 then x.unlockEnd 1 else x)
    (hz : z = ((y.lcRinse s).endOp t .ok 0 []).event .lcChanged [(0, 1, s), (1, 1, h.lc)]) :
    h.lcCommit t b = { z with pw := { z.pw with resetDue := some 5 } } := by
  subst hz hy hx hs
  simp only [Hub.lcCommit, Bool.and_eq_true, decide_eq_true_eq]

theorem Hub.lcDone_eq (h : Hub) (t : Nat) (b : List Byte) : h.lcDone t b = (h.lcRefusal b).elim (h.lcCommit t b) (h.pkgFails t) := by
  simp only [Hub.lcDone]
  cases h.lcRefusal b <;> rfl

/-! ## DEBUG_UNLOCK (R422, R423) -/

section Unlock
variable {h : Hub} {r : Request}

theorem Hub.debugUnlock_open (lc : h.lc = 0 ∨ h.lc = 3) : h.debugUnlock r = (h, .ok []) := by
  have opened : (decide (h.lc = 0) || decide (h.lc = 3)) = true := by simpa using lc
  simp only [Hub.debugUnlock, opened, if_true]

theorem Hub.debugUnlock_scrap (lc : 4 ≤ h.lc) : h.debugUnlock r = (h, .err .denied) := by
  have closed : (decide (h.lc = 0) || decide (h.lc = 3)) = false := by simp; omega
  simp only [Hub.debugUnlock, closed, lc, Bool.false_eq_true, if_false, if_true]

theorem Hub.debugUnlock_long (lc : h.lc = 1 ∨ h.lc = 2) (room : h.ctl.ops.length < 16) :
    h.debugUnlock r = (h.withOp r.mb r.cmd (.debugUnlock r.payload), .long h.ctl.nextToken) := by
  have closed : (decide (h.lc = 0) || decide (h.lc = 3)) = false := by simp; omega
  have fielded : ¬ 4 ≤ h.lc := by omega
  simp only [Hub.debugUnlock, closed, fielded, Bool.false_eq_true, if_false, Hub.startOp_eq h _ _ _ room]

end Unlock

/-- The package of a DEBUG_UNLOCK is well formed. -/
def debugFormOk (b : List Byte) : Bool :=
  pkgGood 3 248 b && allZero (slice b 140 12) && !(le b 136 4 == 0) && decide (le b 136 4 ≤ 86400)

/-- The checks of DEBUG_UNLOCK by what they test. -/
theorem Hub.debugRefusal_eq (h : Hub) (b : List Byte) : h.debugRefusal b =
    if h.onVback then some .powerState
    else if h.ky.hold || h.ky.unlock.isSome then some .denied
    else if debugFormOk b = false then some .badParam
    else if h.pkgAuth b = false then some .authFail
    else if pkgCounter b ≤ h.ky.debugCtr then some .replay else none := by
  have form : (!pkgGood 3 248 b || !allZero (slice b 140 12) || decide (le b 136 4 = 0) || decide (86400 < le b 136 4)) = !debugFormOk b := by
    have long : decide (86400 < le b 136 4) = !decide (le b 136 4 ≤ 86400) := by rw [← decide_not, decide_eq_decide, not_le]
    simp only [debugFormOk, Bool.not_and, beq_eq_decide, long, Bool.not_not]
  simp only [Hub.debugRefusal, form, Bool.not_eq_true']

/-- The unlock takes place. -/
theorem Hub.debugCommit_eq {h x : Hub} {t d : Nat} {b : List Byte} (hd : d = le b 136 4)
    (hx : x = (h.nvPair 196 (leBytes 8 (pkgCounter b))).modKy (fun y =>
      { y with debugCtr := pkgCounter b, measured := false, debugged := true, unlock := some (h.clk.up + ms 1000 * d), duration := d })) :
    h.debugCommit t b = (x.endOp t .ok 0 []).event .debugUnlocked [(0, 1, 1), (1, 1, 0), (4, 4, d)] := by
  subst hx hd
  rfl

section Done
variable {h : Hub} {t : Nat} {b : List Byte}

theorem Hub.debugUnlockDone_open (lc : h.lc = 0 ∨ h.lc = 3) : h.debugUnlockDone t b = h.endOp t .ok 0 [] := by
  have opened : (decide (h.lc = 0) || decide (h.lc = 3)) = true := by simpa using lc
  simp only [Hub.debugUnlockDone, opened, if_true]

theorem Hub.debugUnlockDone_scrap (lc : 4 ≤ h.lc) : h.debugUnlockDone t b = h.endOp t .denied 0 [] := by
  have closed : (decide (h.lc = 0) || decide (h.lc = 3)) = false := by simp; omega
  simp only [Hub.debugUnlockDone, closed, lc, Bool.false_eq_true, if_false, if_true]

theorem Hub.debugUnlockDone_checks (lc : h.lc = 1 ∨ h.lc = 2) :
    h.debugUnlockDone t b = (h.debugRefusal b).elim (h.debugCommit t b) (h.pkgFails t) := by
  have closed : (decide (h.lc = 0) || decide (h.lc = 3)) = false := by simp; omega
  have fielded : ¬ 4 ≤ h.lc := by omega
  simp only [Hub.debugUnlockDone, closed, fielded, Bool.false_eq_true, if_false]
  cases h.debugRefusal b <;> rfl

theorem Hub.unlockEnd_told {cause : Nat} (under : h.ky.unlock = some t) :
    h.unlockEnd cause = (h.modKy (fun y => { y with unlock := none, duration := 0 })).eventClear .debugUnlocked
      [(0, 1, 0), (1, 1, cause), (4, 4, h.ky.duration)] := by
  simp only [Hub.unlockEnd, under]

theorem Hub.unlockElapsed_ends (under : h.ky.unlock = some t) : h.unlockElapsed = (h.until t).unlockEnd 0 := by
  simp only [Hub.unlockElapsed, under]

theorem Hub.unlockElapsed_none (none_ : h.ky.unlock = none) : h.unlockElapsed = h := by
  simp only [Hub.unlockElapsed, none_]

end Done

/-! ## The commands -/

theorem exec_keyUpdateWrite (q : Req) (s : State) :
    exec (.keyUpdateWrite q) s = .next (s.after (s.hub.request 0x0601 (force q 138 1) Hub.keyUpdate)) := rfl
theorem exec_keyUpdateErase (q : Req) (s : State) :
    exec (.keyUpdateErase q) s = .next (s.after (s.hub.request 0x0601 (force q 138 2) Hub.keyUpdate)) := rfl
theorem exec_keyUpdateDone (t : Nat) (s : State) : exec (.keyUpdateDone t) s = .next (s.after (s.hub.serveTurn.keyUpdateDone t)) := rfl
theorem exec_keyStatus (q : Req) (s : State) : exec (.keyStatus q) s = .next (s.after (s.hub.request 0x0602 q Hub.keyStatus)) := rfl
theorem exec_lcTransition (q : Req) (s : State) : exec (.lcTransition q) s = .next (s.after (s.hub.request 0x0603 q Hub.lcTransition)) := rfl
theorem exec_debugUnlock (q : Req) (s : State) : exec (.debugUnlock q) s = .next (s.after (s.hub.request 0x0604 q Hub.debugUnlock)) := rfl
theorem exec_debugUnlockEnd (s : State) : exec .debugUnlockEnd s = .next (s.after s.hub.unlockElapsed) := rfl

/-- Settles O53, each clause from the lemma on its outcome above. -/
theorem keysAndLifeCycleFollowTheRules : Obligations.KeysAndLifeCycleFollowTheRules := by
  unfold Obligations.KeysAndLifeCycleFollowTheRules
  refine ⟨?write, ?erase, ?keyChecks, ?fails, ?newKey, ?keyCommit, ?keyDone, ?noOp, ?status, ?lc, ?lcChecks, ?lcCommit, ?rinse, ?open_, ?scrap,
    ?unlock, ?unlockChecks, ?unlockCommit, ?steps, ?told, ?elapsed, ?locked⟩
  case write =>
    intro s q a hq hA room
    rw [exec_keyUpdateWrite, Hub.request_plain s.hub _ _ _ a _ _ (by decide) hq hA (Hub.keyUpdate_long room)]
    rfl
  case erase =>
    intro s q a hq hA room
    rw [exec_keyUpdateErase, Hub.request_plain s.hub _ _ _ a _ _ (by decide) hq hA (Hub.keyUpdate_long room)]
    rfl
  case keyChecks =>
    intro h b ok form hok hform
    have takes : h.takesKeys = ok := hok.symm
    have formed : keyFormOk b = form := hform.symm
    rw [Hub.keyRefusal_eq, takes, formed]
    refine ⟨fun back => if_pos back, fun main no => ?_, fun main yes bad => ?_, fun main yes good => ?_⟩
    · rw [main, no]; rfl
    · rw [main, yes, bad]; rfl
    · rw [main, yes, good]; rfl
  case fails => exact fun h t => ⟨rfl, rfl, fun st => Hub.pkgFails_other⟩
  case newKey => exact fun h b => ⟨Hub.newKey_erased, Hub.newKey_written⟩
  case keyCommit => exact fun h x y t k copy b n => Hub.keyCommit_eq
  case keyDone =>
    rintro s t b g rfl work
    rw [exec_keyUpdateDone, Hub.keyUpdateDone_eq work]
  case noOp =>
    intro s t none_
    rw [exec_keyUpdateDone, Hub.keyUpdateDone_none none_]
  case status =>
    intro s q a hq hA hp
    rw [exec_keyStatus, Hub.request_plain s.hub q _ _ a _ _ (by decide) hq hA (Hub.keyStatus_ok (r := reqOn q 0x0602) hp)]
  case lc =>
    intro s q a hq hA room
    rw [exec_lcTransition, Hub.request_plain s.hub q _ _ a _ _ (by decide) hq hA (Hub.lcTransition_long room)]
    rfl
  case lcChecks =>
    intro h b
    refine ⟨Hub.lcRefusal_vback, Hub.lcRefusal_form, fun main form no => ?_, fun main form yes => ?_⟩
    · rw [Hub.lcRefusal_wellFormed main form, no]; rfl
    · rw [Hub.lcRefusal_wellFormed main form, yes]; rfl
  case lcCommit => exact fun h x y z t s b => Hub.lcCommit_eq
  case rinse => exact fun h ks => ⟨rfl, rfl, rfl, rfl, rfl, rfl⟩
  case open_ =>
    intro s q a hq hA lc
    rw [exec_debugUnlock, Hub.request_plain s.hub q _ _ a _ _ (by decide) hq hA (Hub.debugUnlock_open lc)]
  case scrap =>
    intro s q a hq hA lc
    rw [exec_debugUnlock, Hub.request_plain s.hub q _ _ a _ _ (by decide) hq hA (Hub.debugUnlock_scrap lc)]
  case unlock =>
    intro s q a hq hA lc room
    rw [exec_debugUnlock, Hub.request_plain s.hub q _ _ a _ _ (by decide) hq hA (Hub.debugUnlock_long lc room)]
    rfl
  case unlockChecks =>
    intro h b form hform
    have formed : debugFormOk b = form := hform.symm
    rw [Hub.debugRefusal_eq, formed]
    refine ⟨fun back => if_pos back, fun main busy => ?_, fun main free bad => ?_, fun main free good => ?_⟩
    · rw [main, busy]; rfl
    · rw [main, free, bad]; rfl
    · rw [main, free, good]; rfl
  case unlockCommit => exact fun h x t d b => Hub.debugCommit_eq
  case steps => exact fun h t b => ⟨h.lcDone_eq t b, Hub.debugUnlockDone_open, Hub.debugUnlockDone_scrap, Hub.debugUnlockDone_checks⟩
  case told => exact fun h cause t => Hub.unlockEnd_told
  case elapsed =>
    intro s t under
    rw [exec_debugUnlockEnd, Hub.unlockElapsed_ends under]
  case locked =>
    intro s none_
    rw [exec_debugUnlockEnd, Hub.unlockElapsed_none none_]

end Sys2Proof.Machine
end

section
/-!
SUPPORT. The boot ROM, a boot attempt, Horest's starts, full service, the watchdog and the configuration store (O55).
-/
namespace Sys2Proof.Machine

/-! ## The boot ROM (R436 to R439) -/

/-- Once an image is loaded, or the hub is in ROM-hold, the boot ROM has run. -/
theorem Hub.bootRom_none {h : Hub} (why : h.mg.loaded = true ∨ h.mg.romHold = true) : h.bootRom = h := by
  have ran : (h.mg.loaded || h.mg.romHold) = true := by rcases why with e | e <;> simp [e]
  simp only [Hub.bootRom, ran, if_true]

section Choose
variable {h : Hub} {x : Hub × Bool} (hx : x = h.nvLoad.finishErase.forbidRinse.readLatch.applyStore.bootLoad.chooseImage)
include hx

/-- An image that boots is copied and measured. -/
theorem Hub.bootChoose_boots (boots : x.2 = true) :
    h.bootChoose = (x.1.modMg (fun m => { m with tellFall := m.tellFall.map (fun f => (f.1, m.running)) })).copyImage.imageReady.showPins := by
  subst hx
  simp only [Hub.bootChoose, boots, if_true]

/-- With none that boots the hub holds in ROM. -/
theorem Hub.bootChoose_holds (none_ : x.2 = false) :
    h.bootChoose = (x.1.modMg (fun m => { m with romHold := true, express := true })).showPins := by
  subst hx
  simp only [Hub.bootChoose, none_, Bool.false_eq_true, if_false]

end Choose

section Rom
variable {h : Hub} (fresh : h.mg.loaded = false) (free : h.mg.romHold = false)
include fresh free

theorem Hub.bootRom_run (hs : h.pw.state = .run) : h.bootRom = (h.within (h.mg.startAt + ms 1)).bootChoose := by
  simp only [Hub.bootRom, fresh, free, hs, Bool.or_self, Bool.false_eq_true, if_false]

section Resume
variable (hs : h.pw.state = .exiting)
include hs

theorem Hub.bootRom_resumes (good : h.copyGood = true) : h.bootRom = h.nvLoad.finishErase.forbidRinse.readLatch.rejoin.imageReady := by
  simp only [Hub.bootRom, fresh, free, hs, good, Bool.or_self, Bool.false_eq_true, if_false, if_true]

/-- A resume without a good copy writes a record and starts in full. -/
theorem Hub.bootRom_restarts {x : Hub} (bad : h.copyGood = false) (hx : x = (h.lintRec lintCopy 3 [] true).toRun) : h.bootRom =
    ({ x with tables := [], tn := Tunnel.reset, al := Allot.reset, ag := x.ag.afterLoss, mg := { x.mg with startAt := x.clk.up } } : Hub).bootChoose := by
  simp only [Hub.bootRom, fresh, free, hs, bad, Bool.or_self, Bool.false_eq_true, if_false]
  unfold Hub.fullStart
  rw [← hx]

end Resume
end Rom

theorem Hub.copyGood_eq {h : Hub} {c : List Byte} (hc : c = readMem h.dram fwArea (h.fw h.mg.running).image.length) :
    h.copyGood = (((h.fw h.mg.running).good && c == (h.fw h.mg.running).image && imgHash (h.fw h.mg.running).head == h.mg.mImage) ||
      sha384 c == h.mg.mImage) := by
  subst hc
  rfl

/-! ## A boot attempt (R434, R436) -/

section Try
variable {h g : Hub} {s : Nat} (hg : g = h.modMg (fun m => { m with running := s }))
include hg

/-- A TRIAL slot without a try left becomes INVALID. -/
theorem Hub.bootTry_exhausted (trial : (h.fw s).state = 4) (spent : (h.fw s).tries = 0) : h.bootTry s =
    ((g.modFw s (fun x => { x with state := 6 })).modMg (fun m => { m with fallback := true, tellFall := some (s, 0) }), false) := by
  subst hg
  simp only [Hub.bootTry, trial, spent, decide_true, Bool.and_self, if_true]

theorem Hub.bootTry_invalid (other : (h.fw s).state ≠ 4) (bad : g.fwPasses s = false) :
    h.bootTry s = (g.modFw s (fun x => { x with state := 6 }), false) := by
  subst hg
  simp only [Hub.bootTry, other, bad, decide_false, Bool.false_and, Bool.false_eq_true, Bool.not_false, if_false, if_true]

section Passes
variable (good : g.fwPasses s = true)
include good

/-- A PENDING slot becomes TRIAL with one try used. -/
theorem Hub.bootTry_pending (pending : (h.fw s).state = 3) : h.bootTry s =
    (g.modFw s (fun x => { x with state := 4, tries := g.pget P.MG_FW_TRIAL_TRIES 0 - 1, time := 0 }), true) := by
  subst hg
  simp [Hub.bootTry, pending, good]

/-- A TRIAL slot loses a try. -/
theorem Hub.bootTry_trial (trial : (h.fw s).state = 4) (left : 0 < (h.fw s).tries) :
    h.bootTry s = (g.modFw s (fun x => { x with tries := x.tries - 1 }), true) := by
  subst hg
  simp [Hub.bootTry, trial, Nat.ne_of_gt left, good]

theorem Hub.bootTry_plain (h3 : (h.fw s).state ≠ 3) (h4 : (h.fw s).state ≠ 4) : h.bootTry s = (g, true) := by
  subst hg
  simp [Hub.bootTry, h3, h4, good]

end Passes
end Try

/-! ## Horest starts (R428, R438, R439) -/

theorem Hub.horestStart_none {h : Hub} (why : h.mg.loaded = false ∨ h.mg.ready = true) : h.horestStart = h := by
  have past : (!h.mg.loaded || h.mg.ready) = true := by rcases why with e | e <;> simp [e]
  simp only [Hub.horestStart, past, if_true]

section Horest
variable {h : Hub} (loaded : h.mg.loaded = true) (early : h.mg.ready = false)
include loaded early

theorem Hub.horestStart_run (hs : h.pw.state = .run) : h.horestStart = ((h.within (h.mg.startAt + ms 50)).nextEpoch).horestReady := by
  simp only [Hub.horestStart, loaded, early, hs, Bool.not_true, Bool.or_self, Bool.false_eq_true, if_false]

theorem Hub.horestStart_resumes (hs : h.pw.state = .exiting) : h.horestStart = (h.within (h.mg.startAt + ms 18)).resumeServe := by
  simp only [Hub.horestStart, loaded, early, hs, Bool.not_true, Bool.or_self, Bool.false_eq_true, if_false]

end Horest

theorem Hub.resumeServe_done {x : Hub} (clear : x.pw.resetDue = none) : x.resumeServe = x.resumeDone := by
  simp only [Hub.resumeServe, clear]

/-- On a resume a reset that is due comes first. -/
theorem Hub.resumeServe_resets {x : Hub} {c : Nat} (due : x.pw.resetDue = some c) : x.resumeServe = x.warmReset c x.straps := by
  simp only [Hub.resumeServe, due]

/-! ## Full service (R438) -/

theorem Hub.fullService_none {h : Hub} (why : h.mg.ready = false ∨ h.mg.full = true) : h.fullService = h := by
  have past : (!h.mg.ready || h.mg.full) = true := by rcases why with e | e <;> simp [e]
  simp only [Hub.fullService, past, if_true]

/-- The guard starts, the active bank is checked again, and BOOT is told. -/
theorem Hub.fullService_told {h x y : Hub} (ready : h.mg.ready = true) (early : h.mg.full = false)
    (hy : y = ((if h.mg.guarded then h else h.within (h.mg.startAt + ms 120)).guardStart.within (h.mg.startAt + ms 400)).deRecheck)
    (hx : x = y.modMg (fun m => { m with full := true, fullAt := y.clk.up })) :
    h.fullService = x.event .boot [(0, 1, x.mg.running), (1, 1, bits x.straps 5 2), (2, 1, x.fwFlags), (4, 4, imgVersion (x.fw x.mg.running).head),
      (8, 4, x.pget P.PW_RESET_CAUSE 0), (12, 4, (x.mg.fullAt - x.mg.startAt) / 1000)] := by
  subst hx hy
  simp only [Hub.fullService, ready, early, Bool.not_true, Bool.or_self, Bool.false_eq_true, if_false]

/-! ## The watchdog and the configuration store (R432, R446) -/

theorem Hub.watchdog_none {h : Hub} (why : h.mg.wdtArmed = false ∨ (h.island 10).clock = false) (pc : Nat) : h.watchdog pc = h := by
  have still : (!h.mg.wdtArmed || !(h.island 10).clock) = true := by rcases why with e | e <;> simp [e]
  simp only [Hub.watchdog, still, if_true]

/-- The watchdog records, tells and warm-resets. -/
theorem Hub.watchdog_resets {h x : Hub} {pc : Nat} (armed : h.mg.wdtArmed = true) (runs : (h.island 10).clock = true)
    (hx : x = ((h.lintRec Ev.watchdog.code Ev.watchdog.severity (fields 16 [(8, 8, pc)]) true).deliver .watchdog Ev.watchdog.severity 0
      (fields 16 [(8, 8, pc)])).bump P.MG_WDT_RESETS 0) : h.watchdog pc = x.warmReset causeWatchdog x.straps := by
  have bumped (g : Hub) : (g.bump P.MG_WDT_RESETS 0).straps = g.straps := rfl
  subst hx
  simp only [Hub.watchdog, armed, runs, bumped, Bool.not_true, Bool.or_self, Bool.false_eq_true, if_false]

theorem Hub.storeWrite_none {h : Hub} (why : h.mg.ready = false ∨ h.mg.dirty = false ∨ h.onVback = true) : h.storeWrite = h := by
  have waits : (!h.mg.ready || !h.mg.dirty || h.onVback) = true := by rcases why with e | e | e <;> simp [e]
  simp only [Hub.storeWrite, waits, if_true]

/-- The configuration store takes its values at most once a second. -/
theorem Hub.storeWrite_writes {h x : Hub} (ready : h.mg.ready = true) (dirty : h.mg.dirty = true) (main : h.onVback = false)
    (hx : x = h.until (h.mg.storedAt + ms 1000)) :
    h.storeWrite = { x with nvStore := flashWrite storeBytes x.nvStore x.storeValues, mg := { x.mg with dirty := false, storedAt := x.clk.up } } := by
  subst hx
  simp only [Hub.storeWrite, ready, dirty, main, Bool.not_true, Bool.or_self, Bool.false_eq_true, if_false]

/-! ## The commands -/

theorem exec_bootRomStart (s : State) : exec .bootRomStart s = .next (s.after s.hub.bootRom) := rfl
theorem exec_horestStart (s : State) : exec .horestStart s = .next (s.after s.hub.horestStart) := rfl
theorem exec_fullService (s : State) : exec .fullService s = .next (s.after s.hub.fullService) := rfl
theorem exec_watchdog (pc : Nat) (s : State) : exec (.watchdog pc) s = .next (s.after (s.hub.watchdog pc)) := rfl
theorem exec_configStoreWrite (s : State) : exec .configStoreWrite s = .next (s.after s.hub.storeWrite) := rfl

/-- Settles O55, each clause from the lemma on its outcome above. -/
theorem bootStartsTheHub : Obligations.BootStartsTheHub := by
  unfold Obligations.BootStartsTheHub
  refine ⟨?ran, ?boots, ?holds, ?images, ?copyGood, ?resumes, ?restarts, ?tries, ?started, ?starts, ?done, ?resets, ?inService, ?service,
    ?watchdog, ?noWatchdog, ?store, ?noStore⟩
  case ran =>
    intro s why
    rw [exec_bootRomStart, Hub.bootRom_none why]
  case boots =>
    rintro s x g fresh free hs hx boots rfl
    rw [exec_bootRomStart, Hub.bootRom_run fresh free hs, Hub.bootChoose_boots hx boots]
  case holds =>
    intro s x fresh free hs hx none_
    rw [exec_bootRomStart, Hub.bootRom_run fresh free hs, Hub.bootChoose_holds hx none_]
  case images =>
    intro h x
    refine ⟨fun hx => ?_, fun hx => ?_⟩ <;> subst hx
    · exact ⟨rfl, rfl⟩
    · exact ⟨rfl, rfl, rfl⟩
  case copyGood => exact fun h c => Hub.copyGood_eq
  case resumes =>
    intro s fresh free hs good
    rw [exec_bootRomStart, Hub.bootRom_resumes fresh free hs good]
  case restarts =>
    intro s x fresh free hs bad hx
    rw [exec_bootRomStart, Hub.bootRom_restarts fresh free hs bad hx]
  case tries =>
    intro h s g hg
    exact ⟨Hub.bootTry_exhausted hg, Hub.bootTry_invalid hg, fun pending good => Hub.bootTry_pending hg good pending,
      fun trial left good => Hub.bootTry_trial hg good trial left, fun h3 h4 good => Hub.bootTry_plain hg good h3 h4⟩
  case started =>
    intro s why
    rw [exec_horestStart, Hub.horestStart_none why]
  case starts =>
    intro s loaded early hs
    rw [exec_horestStart, Hub.horestStart_run loaded early hs]
  case done =>
    intro s x loaded early hs hx clear
    rw [exec_horestStart, Hub.horestStart_resumes loaded early hs, ← hx, Hub.resumeServe_done clear]
  case resets =>
    intro s x c loaded early hs hx due
    rw [exec_horestStart, Hub.horestStart_resumes loaded early hs, ← hx, Hub.resumeServe_resets due]
  case inService =>
    intro s why
    rw [exec_fullService, Hub.fullService_none why]
  case service =>
    intro s x y ready early hy hx
    rw [exec_fullService, Hub.fullService_told ready early hy hx]
  case watchdog =>
    intro s pc x armed runs hx
    rw [exec_watchdog, Hub.watchdog_resets armed runs hx]
  case noWatchdog =>
    intro s pc why
    rw [exec_watchdog, Hub.watchdog_none why]
  case store =>
    intro s x ready dirty main hx
    rw [exec_configStoreWrite, Hub.storeWrite_writes ready dirty main hx]
  case noStore =>
    intro s why
    rw [exec_configStoreWrite, Hub.storeWrite_none why]

end Sys2Proof.Machine
end

section
/-!
SUPPORT. Samples of the sensors, the tamper sources that follow them, SENSOR_READ, and the Lint log's reading, clearing and flash mirror (O57).
-/
namespace Sys2Proof.Machine

/-! ## Samples (R424, R450) -/

section Sample
variable {h : Hub} {kind idx : Nat} {v : Int}

/-- A sensor that does not exist changes nothing. -/
theorem Hub.sensorSample_none (why : 2 < kind ∨ sensorCount kind ≤ idx) : h.sensorSample kind idx v = h := by
  have absent : (decide (2 < kind) || decide (sensorCount kind ≤ idx)) = true := by simpa using why
  simp only [Hub.sensorSample, absent, if_true]

section Analog
variable (h1 : 1 ≤ kind) (h2 : kind ≤ 2) (hi : idx < sensorCount kind)
include h1 h2 hi

/-- A voltage or a current is the sensor's value from then on; of an input it is judged, of a channel it is its current. -/
theorem Hub.sensorSample_analog : h.sensorSample kind idx v =
    if kind = 1 ∧ idx < 2 then (h.modSensor kind idx (fun s => { s with value := v, valid := true })).seeInput idx v.toNat
    else if kind = 2 ∧ idx < 5 then (h.modSensor kind idx (fun s => { s with value := v, valid := true })).fuseAmps idx v.toNat
    else h.modSensor kind idx (fun s => { s with value := v, valid := true }) := by
  simp only [Hub.sensorSample, Nat.not_lt.mpr h2, Nat.not_le.mpr hi, Nat.ne_of_gt h1, decide_false, Bool.or_self, Bool.false_eq_true, if_false,
    Bool.and_eq_true, decide_eq_true_eq]

theorem Hub.sensorSample_plain (other : 2 ≤ idx ∧ (kind = 2 → 5 ≤ idx)) :
    h.sensorSample kind idx v = h.modSensor kind idx (fun s => { s with value := v, valid := true }) := by
  have input : ¬ (kind = 1 ∧ idx < 2) := by omega
  have channel : ¬ (kind = 2 ∧ idx < 5) := by omega
  rw [Hub.sensorSample_analog h1 h2 hi, if_neg input, if_neg channel]

theorem Hub.sensorSample_channel (channel : kind = 2 ∧ idx < 5) :
    h.sensorSample kind idx v = (h.modSensor kind idx (fun s => { s with value := v, valid := true })).fuseAmps idx v.toNat := by
  have input : ¬ (kind = 1 ∧ idx < 2) := by omega
  rw [Hub.sensorSample_analog h1 h2 hi, if_neg input, if_pos channel]

end Analog

section Temp
variable (hi : idx < 23)
include hi

theorem Hub.sensorSample_temp (hr : h.pw.state ≠ .rest) (ht : h.pw.state ≠ .thermalOff) :
    h.sensorSample 0 idx v = (h.sampleTemp idx v).tempTamper := by
  have exists_ : ¬ sensorCount 0 ≤ idx := Nat.not_le.mpr (Nat.lt_trans hi (by decide))
  have cool : (h.sampleTemp idx v).coolWatch idx v = h.sampleTemp idx v := by
    simp only [Hub.coolWatch, Nat.ne_of_lt hi, decide_false, Bool.and_false, Bool.false_eq_true, if_false]
  simp [Hub.sensorSample, exists_, hr, ht, cool]

/-- In REST and THERMAL_OFF only the sensor of I-AON is read. -/
theorem Hub.sensorSample_off (hs : h.pw.state = .rest ∨ h.pw.state = .thermalOff) : h.sensorSample 0 idx v = h := by
  have exists_ : ¬ sensorCount 0 ≤ idx := Nat.not_le.mpr (Nat.lt_trans hi (by decide))
  rcases hs with e | e <;> simp [Hub.sensorSample, exists_, e, Nat.ne_of_lt hi]

end Temp

theorem Hub.sensorSample_aon : h.sensorSample 0 23 v = ((h.sampleTemp 23 v).coolWatch 23 v).tempTamper := by
  have exists_ : ¬ sensorCount 0 ≤ 23 := by decide
  simp [Hub.sensorSample, exists_]

end Sample

theorem Hub.coolWatch_off {x : Hub} {v : Int} (hs : x.pw.state = .thermalOff) :
    x.coolWatch 23 v = x.modPw (fun p => { p with coolAt := if v < 140000 then some (p.coolAt.getD x.clk.up) else none }) := by
  simp only [Hub.coolWatch, hs, decide_true, Bool.and_self, if_true]

theorem Hub.coolWatch_none {x : Hub} {v : Int} (hs : x.pw.state ≠ .thermalOff) : x.coolWatch 23 v = x := by
  simp only [Hub.coolWatch, hs, decide_false, Bool.false_and, Bool.false_eq_true, if_false]

/-- Source 4 follows the sensors, and then source 5. -/
theorem Hub.tempTamper_eq {h g : Hub} (hg : g = if bit h.ky.alarms 4 then (if h.temps.all (fun x => decide (x < 155000)) then h.tamperEnd 4 else h)
      else if h.temps.any (fun x => decide (160000 ≤ x)) then h.tamperSeen 4 else h) :
    h.tempTamper = if bit g.ky.alarms 5 then (if h.temps.all (fun x => decide (-50000 < x)) then g.tamperEnd 5 else g)
      else if h.temps.any (fun x => decide (x ≤ -55000)) then g.tamperSeen 5 else g := by
  unfold Hub.tempTamper
  rw [hg]

section Plausible
variable {h : Hub} {idx : Nat} {v : Int} (hi : 20 ≤ idx) (sound : (h.sensor 0 idx).fault = false) (first : (h.sensor 0 idx).valid = false)
include hi sound first

/-- A first sample out of range faults the sensor. -/
theorem Hub.sampleTemp_faults (out : v < -60000 ∨ 200000 < v) : h.sampleTemp idx v =
    (h.modSensor 0 idx (fun _ => { h.sensor 0 idx with value := v, valid := true, moved := h.clk.up, other := 0, goodAt := 0, fault := true })).event
      .sensorFault [(0, 1, 0), (1, 1, idx), (2, 1, 1), (4, 4, ofSigned 32 v)] := by
  have alone : neighbour idx = none := if_neg (Nat.not_lt.mpr hi)
  have bad : plausible v = false := by simp only [plausible, Bool.and_eq_false_iff, decide_eq_false_iff_not]; omega
  simp only [Hub.sampleTemp, alone, first, sound, bad, Bool.not_false, Bool.true_or, Bool.and_self, if_true]

/-- A plausible first sample is the sensor's value. -/
theorem Hub.sampleTemp_valid (low : -60000 ≤ v) (high : v ≤ 200000) : h.sampleTemp idx v =
    h.modSensor 0 idx (fun _ => { h.sensor 0 idx with value := v, valid := true, moved := h.clk.up, other := 0 }) := by
  have alone : neighbour idx = none := if_neg (Nat.not_lt.mpr hi)
  have good : plausible v = true := by simp only [plausible, low, high, decide_true, Bool.and_self]
  simp only [Hub.sampleTemp, Hub.stuck, alone, first, sound, good, Bool.not_false, Bool.not_true, Bool.true_or, Bool.false_and, Bool.and_false,
    Bool.or_self, Bool.false_eq_true, if_true, if_false]

end Plausible

/-! ## SENSOR_READ (R451) -/

section Read
variable {h : Hub} {r : Request} (hl : r.payload.length = 4) (hz : r.arg 3 1 = 0)
include hl hz

theorem Hub.sensorRead_ok (hk : r.arg 0 1 ≤ 2) (h1 : 1 ≤ r.arg 2 1) (hn : r.arg 2 1 ≤ 24)
    (hr : r.arg 1 1 + r.arg 2 1 ≤ sensorCount (r.arg 0 1)) :
    h.sensorRead r = (h, .ok (leBytes 8 h.clk.ns ++ (List.range (r.arg 2 1)).flatMap (fun i =>
      leBytes 4 (ofSigned 32 (h.sensor (r.arg 0 1) (r.arg 1 1 + i)).value) ++
        leBytes 2 (b2n (h.sensor (r.arg 0 1) (r.arg 1 1 + i)).valid + 2 * b2n (h.sensor (r.arg 0 1) (r.arg 1 1 + i)).fault) ++ leBytes 2 0))) := by
  simp only [Hub.sensorRead, r.not_has 4 hl, hz, Nat.not_lt.mpr hk, Nat.ne_of_gt h1, Nat.not_lt.mpr hn, Nat.not_lt.mpr hr, ne_eq,
    not_true_eq_false, decide_false, Bool.or_self, Bool.false_eq_true, if_false]

theorem Hub.sensorRead_range (why : 2 < r.arg 0 1 ∨ r.arg 2 1 = 0 ∨ sensorCount (r.arg 0 1) < r.arg 1 1 + r.arg 2 1) :
    h.sensorRead r = (h, .err .range) := by
  have far : (decide (2 < r.arg 0 1) || decide (r.arg 2 1 = 0) || decide (24 < r.arg 2 1) ||
      decide (sensorCount (r.arg 0 1) < r.arg 1 1 + r.arg 2 1)) = true := by rcases why with e | e | e <;> simp [e]
  simp only [Hub.sensorRead, r.not_has 4 hl, hz, far, ne_eq, not_true_eq_false, decide_false, Bool.or_self, Bool.false_eq_true, if_false, if_true]

end Read

/-! ## LOG_READ and LOG_CLEAR (R449) -/

section Log
variable {h : Hub} {r : Request}

section Records
variable (hl : r.payload.length = 8) (hz : r.arg 7 1 = 0) (h3 : r.arg 6 1 ≤ 3)
include hl hz h3

theorem Hub.logRead_ok {rs : List LintRec} (h1 : 1 ≤ r.arg 4 2) (hn : r.arg 4 2 ≤ 127)
    (hrs : rs = (((h.lint.copy (r.arg 6 1)).filter (fun x => (x.seq + 2 ^ 32 - r.arg 0 4) % 2 ^ 32 < 2 ^ 31)).reverse).take (r.arg 4 2)) :
    h.logRead r = (h, .ok (leBytes 4 ((rs.head?.map (·.seq)).getD (r.arg 0 4)) ++
      leBytes 4 ((rs.getLast?.map (fun x => (x.seq + 1) % 2 ^ 32)).getD (r.arg 0 4)) ++ leBytes 2 rs.length ++ leBytes 6 0 ++
      rs.flatMap LintRec.bytes)) := by
  subst hrs
  simp only [Hub.logRead, r.not_has 8 hl, hz, Nat.not_lt.mpr h3, Nat.ne_of_gt h1, Nat.not_lt.mpr hn, ne_eq, not_true_eq_false, decide_false,
    Bool.or_self, Bool.false_eq_true, if_false]

theorem Hub.logRead_range (why : r.arg 4 2 = 0 ∨ 127 < r.arg 4 2) : h.logRead r = (h, .err .range) := by
  have far : (decide (r.arg 4 2 = 0) || decide (127 < r.arg 4 2)) = true := by simpa using why
  simp only [Hub.logRead, r.not_has 8 hl, hz, Nat.not_lt.mpr h3, far, ne_eq, not_true_eq_false, decide_false, Bool.or_self, Bool.false_eq_true,
    if_false, if_true]

end Records

section Clear
variable {t : Nat} (hl : r.payload.length = 4) (hz : r.arg 1 3 = 0) (ht : t = r.arg 0 1) (hm : t &&& 0xF2 = 0)
include hl hz ht hm

/-- The copies asked are emptied. -/
theorem Hub.logClear_ok (can : bit t 3 = false ∨ h.onVback = false) : h.logClear r = ({ h with
    lint := { h.lint with
      sram := if bit t 0 then [] else h.lint.sram
      dram := if bit t 2 then [] else h.lint.dram
      flash := if bit t 3 then [] else h.lint.flash } }, .ok []) := by
  subst ht
  have main : (bit (r.arg 0 1) 3 && h.onVback) = false := by rcases can with e | e <;> simp [e]
  simp only [Hub.logClear, r.not_has 4 hl, hz, hm, main, ne_eq, not_true_eq_false, decide_false, Bool.or_self, Bool.false_eq_true, if_false]

theorem Hub.logClear_vback (flash : bit t 3 = true) (back : h.onVback = true) : h.logClear r = (h, .err .powerState) := by
  subst ht
  simp only [Hub.logClear, r.not_has 4 hl, hz, hm, flash, back, ne_eq, not_true_eq_false, decide_false, Bool.or_self, Bool.and_self,
    Bool.false_eq_true, if_false, if_true]

end Clear
end Log

/-! ## The flash mirror (R448) -/

theorem Hub.lintFlash_empty {h : Hub} (none_ : h.lint.queue = []) : h.lintFlash = h := by
  simp only [Hub.lintFlash, none_]

section Flash
variable {h : Hub} {x : LintRec} {rest : List LintRec} (hq : h.lint.queue = x :: rest)
include hq

theorem Hub.lintFlash_waits (why : h.onVback = true ∨ h.mg.ready = false) : h.lintFlash = h := by
  have waits : (h.onVback || !h.mg.ready) = true := by rcases why with e | e <;> simp [e]
  simp only [Hub.lintFlash, hq, waits, if_true]

section Main
variable {n : Nat} (main : h.onVback = false) (ready : h.mg.ready = true)
  (hn : n = if h.lint.second = h.clk.up / 1000000000 then h.lint.written else 0)
include main ready hn

theorem Hub.lintFlash_writes (within : n < h.pget P.MG_LOG_FLASH_RATE 0) : h.lintFlash = { h with
    lint := { h.lint with
      queue := rest
      flash := keep 622592 (x :: h.lint.flash)
      second := h.clk.up / 1000000000
      written := n + 1 } } := by
  subst hn
  simp only [Hub.lintFlash, hq, main, ready, within, Bool.not_true, Bool.or_self, Bool.false_eq_true, if_false, if_true]

/-- A record above the rate is counted. -/
theorem Hub.lintFlash_skips (above : h.pget P.MG_LOG_FLASH_RATE 0 ≤ n) : h.lintFlash = Hub.bump { h with
    lint := { h.lint with
      queue := rest
      second := h.clk.up / 1000000000
      written := n } } P.MG_LOG_FLASH_SKIP 0 := by
  subst hn
  simp only [Hub.lintFlash, hq, main, ready, Nat.not_lt.mpr above, Bool.not_true, Bool.or_self, Bool.false_eq_true, if_false]

end Main
end Flash

/-! ## The commands -/

theorem exec_sensorSample (kind idx : Nat) (v : Int) (s : State) :
    exec (.sensorSample kind idx v) s = .next (s.after (s.hub.sensorSample kind idx v)) := rfl
theorem exec_sensorRead (q : Req) (s : State) : exec (.sensorRead q) s = .next (s.after (s.hub.request 0x0A03 q Hub.sensorRead)) := rfl
theorem exec_logRead (q : Req) (s : State) : exec (.logRead q) s = .next (s.after (s.hub.request 0x0A01 q Hub.logRead)) := rfl
theorem exec_logClear (q : Req) (s : State) : exec (.logClear q) s = .next (s.after (s.hub.request 0x0A02 q Hub.logClear)) := rfl
theorem exec_lintFlashWrite (s : State) : exec .lintFlashWrite s = .next (s.after s.hub.lintFlash) := rfl

/-- Settles O57, each clause from the lemma on its outcome above. -/
theorem sensorsAndTheLintLogAreRead : Obligations.SensorsAndTheLintLogAreRead := by
  unfold Obligations.SensorsAndTheLintLogAreRead
  refine ⟨?absent, ?plain, ?input, ?channel, ?temp, ?off, ?cooling, ?aon, ?tamper, ?faults, ?valid, ?read, ?readRange, ?log, ?logRange, ?clear,
    ?clearVback, ?flashEmpty, ?flashWaits, ?flashWrites, ?flashSkips⟩
  case absent =>
    intro s kind idx v why
    rw [exec_sensorSample, Hub.sensorSample_none why]
  case plain =>
    intro s kind idx v h1 h2 hi other
    rw [exec_sensorSample, Hub.sensorSample_plain h1 h2 hi other]
  case input =>
    intro s kind idx v h1 h2 hi input
    rw [exec_sensorSample, Hub.sensorSample_analog h1 h2 hi, if_pos input]
  case channel =>
    intro s kind idx v h1 h2 hi channel
    rw [exec_sensorSample, Hub.sensorSample_channel h1 h2 hi channel]
  case temp =>
    intro s idx v hi hr ht
    rw [exec_sensorSample, Hub.sensorSample_temp hi hr ht]
  case off =>
    intro s idx v hi hs
    rw [exec_sensorSample, Hub.sensorSample_off hi hs]
  case cooling =>
    intro s v x hx hs
    rw [exec_sensorSample, Hub.sensorSample_aon, ← hx, Hub.coolWatch_off hs]
  case aon =>
    intro s v x hx hs
    rw [exec_sensorSample, Hub.sensorSample_aon, ← hx, Hub.coolWatch_none hs]
  case tamper => exact fun h g => Hub.tempTamper_eq
  case faults => exact fun h idx v hi out sound first => Hub.sampleTemp_faults hi sound first out
  case valid => exact fun h idx v hi low high sound first => Hub.sampleTemp_valid hi sound first low high
  case read =>
    intro s q a hq hA hl hz hk h1 hn hr
    have hbody := Hub.sensorRead_ok (h := a) (r := reqOn q 0x0A03) hl hz hk h1 hn hr
    rw [exec_sensorRead, Hub.request_plain s.hub q _ _ a _ _ (by decide) hq hA hbody]
    rfl
  case readRange =>
    intro s q a hq hA hl hz why
    rw [exec_sensorRead, Hub.request_plain s.hub q _ _ a _ _ (by decide) hq hA (Hub.sensorRead_range (r := reqOn q 0x0A03) hl hz why)]
  case log =>
    intro s q a rs hq hA hl hz h3 h1 hn hrs
    have hbody := Hub.logRead_ok (r := reqOn q 0x0A01) hl hz h3 h1 hn hrs
    rw [exec_logRead, Hub.request_plain s.hub q _ _ a _ _ (by decide) hq hA hbody]
    rfl
  case logRange =>
    intro s q a hq hA hl hz h3 why
    rw [exec_logRead, Hub.request_plain s.hub q _ _ a _ _ (by decide) hq hA (Hub.logRead_range (r := reqOn q 0x0A01) hl hz h3 why)]
  case clear =>
    intro s q a t hq hA hl hz ht hm can
    have hbody := Hub.logClear_ok (h := a) (r := reqOn q 0x0A02) hl hz ht hm can
    rw [exec_logClear, Hub.request_plain s.hub q _ _ a _ _ (by decide) hq hA hbody]
  case clearVback =>
    intro s q a t hq hA hl hz ht hm flash back
    have hbody := Hub.logClear_vback (r := reqOn q 0x0A02) hl hz ht hm flash back
    rw [exec_logClear, Hub.request_plain s.hub q _ _ a _ _ (by decide) hq hA hbody]
  case flashEmpty =>
    intro s none_
    rw [exec_lintFlashWrite, Hub.lintFlash_empty none_]
  case flashWaits =>
    intro s x rest hq why
    rw [exec_lintFlashWrite, Hub.lintFlash_waits hq why]
  case flashWrites =>
    intro s x rest n hq main ready hn within
    rw [exec_lintFlashWrite, Hub.lintFlash_writes hq main ready hn within]
  case flashSkips =>
    intro s x rest n hq main ready hn above
    rw [exec_lintFlashWrite, Hub.lintFlash_skips hq main ready hn above]

end Sys2Proof.Machine
end

section
/-!
SUPPORT. Firmware: staging, its data and its end, activation, confirmation and FW_STATUS (O56).
-/
namespace Sys2Proof.Machine

/-! ## FW_STAGE_BEGIN (R440, R441) -/

section Begin
variable {h : Hub} {r : Request}

theorem Hub.fwBegin_length (hl : r.payload.length ≠ 204) : h.fwBegin r = (h, .err .badParam) := by
  have short : (!r.has 204) = true := by rw [Bool.not_eq_true', ← Bool.not_eq_true, r.has_iff]; exact hl
  simp only [Hub.fwBegin, short, if_true]

section Whole
variable (hl : r.payload.length = 204)
include hl

theorem Hub.fwBegin_vback (back : h.onVback = true) : h.fwBegin r = (h, .err .powerState) := by
  simp only [Hub.fwBegin, r.not_has 204 hl, back, Bool.false_eq_true, if_false, if_true]

section Main
variable (main : h.onVback = false)
include main

theorem Hub.fwBegin_range (far : 2 < r.arg 0 1) : h.fwBegin r = (h, .err .range) := by
  simp only [Hub.fwBegin, r.not_has 204 hl, main, far, Bool.false_eq_true, if_false, if_true]

/-- The running slot, a PENDING one and any in tamper-hold. -/
theorem Hub.fwBegin_denied (h2 : r.arg 0 1 ≤ 2)
    (why : (r.arg 0 1 = h.mg.running ∧ h.mg.romHold = false) ∨ (h.fw (r.arg 0 1)).state = 3 ∨ h.ky.hold = true) :
    h.fwBegin r = (h, .err .denied) := by
  have kept : (decide (r.arg 0 1 = h.mg.running) && !h.mg.romHold || decide ((h.fw (r.arg 0 1)).state = 3) ||
      decide (r.arg 0 1 = 2) && (h.mg.romHold || decide (h.lc = 2) || decide (h.lc = 4)) || h.ky.hold) = true := by
    rcases why with ⟨e, f⟩ | e | e
    · simp [e, f]
    · simp [e]
    · simp [e]
  simp only [Hub.fwBegin, r.not_has 204 hl, main, Nat.not_lt.mpr h2, kept, Bool.false_eq_true, if_false, if_true]

section Free
variable (h2 : r.arg 0 1 < 2) (idle : r.arg 0 1 ≠ h.mg.running) (notPending : (h.fw (r.arg 0 1)).state ≠ 3) (calm : h.ky.hold = false)
include h2 idle notPending calm

theorem Hub.fwBegin_busy (staging : h.mg.staging ≠ none) : h.fwBegin r = (h, .err .busy) := by
  have some_ : h.mg.staging.isSome = true := Option.isSome_iff_ne_none.mpr staging
  simp only [Hub.fwBegin, r.not_has 204 hl, main, Nat.not_lt.mpr (Nat.le_of_lt h2), Nat.ne_of_lt h2, idle, notPending, calm, some_, decide_false,
    Bool.false_and, Bool.or_self, Bool.false_eq_true, if_false, if_true]

/-- By format, identity, authority and rollback floor; else the staging is open. -/
theorem Hub.fwBegin_checks {b : List Byte} (free : h.mg.staging = none) (hz : r.arg 1 3 = 0) (hb : b = r.payload.drop 4) :
    h.fwBegin r =
      if fwFormat (r.arg 0 1) b = false then (h, .err .badParam)
      else if (!(slice b 16 16 == deviceId || allZero (slice b 16 16)) || sha384 (pkgSigner b) != beBytes 48 Config.firmwareAuthority.toNat) = true
        then (h, .err .authFail)
      else if imgCounter b < h.floorOf then (h, .err .replay)
      else
        ((if (h.fw (r.arg 0 1)).state = 1 then h.modFw (r.arg 0 1) (fun x => { x with image := [] }) else h).modMg (fun m =>
          { m with staging := some (r.arg 0 1, (if (h.fw (r.arg 0 1)).state = 1 then h.modFw (r.arg 0 1) (fun x => { x with image := [] }) else h).clk.up)
                   stageHead := b }), .ok []) := by
  subst hb
  simp only [Hub.fwBegin, r.not_has 204 hl, main, Nat.not_lt.mpr (Nat.le_of_lt h2), Nat.ne_of_lt h2, idle, notPending, calm, free, hz,
    Option.isSome_none, ne_eq, not_true_eq_false, decide_false, Bool.false_and, Bool.or_self, Bool.false_or, Bool.not_eq_true',
    Bool.false_eq_true, if_false]

end Free
end Main
end Whole
end Begin

/-! ## FW_STAGE_DATA and FW_STAGE_END (R442, R443) -/

section Data
variable {h : Hub} {r : Request}

section Piece
variable (some_ : r.payload.drop 4 ≠ []) (hn : (r.payload.drop 4).length ≤ 4072)
include some_ hn

theorem Hub.fwData_conflict (none_ : h.mg.staging = none) : h.fwData r = (h, .err .conflict) := by
  have full : (r.payload.drop 4).isEmpty = false := List.isEmpty_eq_false_iff.mpr some_
  simp only [Hub.fwData, full, Nat.not_lt.mpr hn, none_, decide_false, Bool.or_self, Bool.false_eq_true, if_false]

/-- The data are a step of a long operation. -/
theorem Hub.fwData_long {s t : Nat} (staging : h.mg.staging = some (s, t)) (main : h.onVback = false) (room : h.ctl.ops.length < 16) :
    h.fwData r = ((h.modMg (fun m => { m with staging := some (s, h.clk.up) })).withOp r.mb r.cmd (.fwData r.payload), .long h.ctl.nextToken) := by
  have full : (r.payload.drop 4).isEmpty = false := List.isEmpty_eq_false_iff.mpr some_
  simp only [Hub.fwData, full, Nat.not_lt.mpr hn, staging, main, decide_false, Bool.or_self, Bool.false_eq_true, if_false]
  exact Hub.startOp_eq _ _ _ _ room

end Piece

section End
variable (hl : r.payload.length = 96)
include hl

theorem Hub.fwEnd_vback (back : h.onVback = true) : h.fwEnd r = (h, .err .powerState) := by
  simp only [Hub.fwEnd, r.not_has 96 hl, back, Bool.false_eq_true, if_false, if_true]

section Open
variable {s t : Nat} (staging : h.mg.staging = some (s, t)) (main : h.onVback = false)
include staging main

theorem Hub.fwEnd_range (part : h.staged s ≠ imgLength h.mg.stageHead) : h.fwEnd r = (h, .err .range) := by
  simp only [Hub.fwEnd, r.not_has 96 hl, main, staging, part, ne_eq, not_false_eq_true, Bool.false_eq_true, if_false, if_true]

theorem Hub.fwEnd_long (whole : h.staged s = imgLength h.mg.stageHead) (room : h.ctl.ops.length < 16) :
    h.fwEnd r = ((h.modMg (fun m => { m with staging := some (s, h.clk.up) })).withOp r.mb r.cmd (.fwEnd r.payload), .long h.ctl.nextToken) := by
  simp only [Hub.fwEnd, r.not_has 96 hl, main, staging, whole, ne_eq, not_true_eq_false, Bool.false_eq_true, if_false]
  exact Hub.startOp_eq _ _ _ _ room

end Open
end End
end Data

section Step
variable {h : Hub} {token s t : Nat} {p d : List Byte} (staging : h.mg.staging = some (s, t))
include staging

theorem Hub.fwDataDone_vback (back : h.onVback = true) : h.fwDataDone token p = h.endOp token .powerState 0 [] := by
  simp only [Hub.fwDataDone, staging, back, if_true]

section Main
variable (hd : d = p.drop 4) (main : h.onVback = false)
include hd main

theorem Hub.fwDataDone_range (why : le p 0 4 ≠ h.staged s ∨ imgLength h.mg.stageHead < h.staged s + d.length) :
    h.fwDataDone token p = h.endOp token .range 0 [] := by
  subst hd
  have far : (decide (le p 0 4 ≠ h.staged s) || decide (imgLength h.mg.stageHead < h.staged s + (p.drop 4).length)) = true := by
    rcases why with e | e
    · rw [decide_eq_true e, Bool.true_or]
    · rw [decide_eq_true e, Bool.or_true]
  simp only [Hub.fwDataDone, staging, main, far, Bool.false_eq_true, if_false, if_true]

/-- The bytes at the next offset are programmed. -/
theorem Hub.fwDataDone_programs (next : le p 0 4 = h.staged s) (fits : h.staged s + d.length ≤ imgLength h.mg.stageHead) :
    h.fwDataDone token p =
      ((h.modFw s (fun _ => ⟨1, 0, h.mg.stageHead, (if (h.fw s).state = 1 then (h.fw s).image else []) ++ d, 0, false⟩)).modMg
        (fun m => { m with staging := some (s, h.clk.up) })).endOp token .ok 0 [] := by
  subst hd
  have near : (decide (le p 0 4 ≠ h.staged s) || decide (imgLength h.mg.stageHead < h.staged s + (p.drop 4).length)) = false := by
    rw [decide_eq_false (not_not_intro next), decide_eq_false (Nat.not_lt.mpr fits), Bool.or_self]
  simp only [Hub.fwDataDone, staging, main, near, Bool.false_eq_true, if_false]

end Main

/-- A staging left idle, with no operation pending, is abandoned. -/
theorem Hub.fwTimeout_ends {x : Hub} (idle : h.ctl.ops = []) (hx : x = h.until (t + ms (h.pget P.MG_TXN_TIMEOUT 0))) :
    h.fwTimeout = (x.modFw s (fun y => { y with state := 6, good := false })).modMg (fun m => { m with staging := none, stageHead := [] }) := by
  subst hx
  simp only [Hub.fwTimeout, staging, Hub.opWhere, idle, List.find?_nil, Option.isSome_none, Bool.false_eq_true, if_false]

end Step

theorem Hub.fwTimeout_none {h : Hub} (none_ : h.mg.staging = none) : h.fwTimeout = h := by
  simp only [Hub.fwTimeout, none_]

section Staged
variable {h : Hub} {s : Nat}

/-- A staging that has programmed nothing yet. -/
theorem Hub.staged_zero (open_ : h.stagingAt s = true) (old : (h.fw s).state ≠ 1) : h.staged s = 0 := by
  simp [Hub.staged, open_, old]

theorem Hub.staged_image (why : h.stagingAt s = false ∨ (h.fw s).state = 1) : h.staged s = (h.fw s).image.length := by
  rcases why with e | e <;> simp [Hub.staged, e]

end Staged

/-! ## FW_ACTIVATE (R444) -/

/-- A well-formed FW_ACTIVATE payload. -/
structure Request.Activates (r : Request) (s m t : Nat) : Prop where
  length : r.payload.length = 12
  slot : r.arg 0 1 = s
  mode : r.arg 1 1 = m
  reserved : r.arg 2 2 = 0
  time : r.arg 4 8 = t
  inRange : s ≤ 2

theorem forced_activates {q : Req} {m : Nat} (hm : m < 256) (hl : q.payload.length = 12) (hz : le q.payload 2 2 = 0) (h2 : le q.payload 0 1 ≤ 2) :
    (reqOn (force q 1 m) 0x0704).Activates (le q.payload 0 1) m (le q.payload 4 8) where
  length := (length_force q 1 m).trans hl
  slot := by rw [reqOn_arg, le_force_other q 1 m 0 1 (by omega)]
  mode := by rw [reqOn_arg, le_force_same q 1 m (by omega), Nat.mod_eq_of_lt hm]
  reserved := by rw [reqOn_arg, le_force_other q 1 m 2 2 (by omega), hz]
  time := by rw [reqOn_arg, le_force_other q 1 m 4 8 (by omega)]
  inRange := h2

section Pend
variable {h : Hub} {s : Nat} (main : h.onVback = false)
include main

/-- A STAGED slot with no staging open, and no other PENDING. -/
theorem Hub.pendRefusal_none (staged : (h.fw s).state = 2) (others : ∀ k, k ∈ [0, 1, 2] → k ≠ s → (h.fw k).state ≠ 3)
    (closed : h.stagingAt s = false) : h.pendRefusal s = none := by
  have alone : [0, 1, 2].any (fun k => k != s && (h.fw k).state == 3) = false := by
    rw [List.any_eq_false]
    intro k hk
    by_cases e : k = s
    · simp [e]
    · simp [e, others k hk e]
  simp only [Hub.pendRefusal, main, staged, closed, alone, ne_eq, not_true_eq_false, decide_false, Bool.or_self, Bool.false_eq_true, if_false]

theorem Hub.pendRefusal_conflict (why : (h.fw s).state ≠ 2 ∨ h.stagingAt s = true) : h.pendRefusal s = some .conflict := by
  rcases why with e | e <;> simp [Hub.pendRefusal, main, e]

end Pend

section Activate
variable {h : Hub} {r : Request} {s m t : Nat}

section Modes
variable (hr : r.Activates s m t) (hm : m ≤ 2)
include hr hm

theorem Hub.fwActivate_refused {e : Status} (refused : h.pendRefusal s = some e) : h.fwActivate r = (h, .err e) := by
  have known : ¬ 5 < m := by omega
  simp only [Hub.fwActivate, r.not_has 12 hr.length, hr.slot, hr.mode, hr.reserved, known, Nat.not_lt.mpr hr.inRange, hm, refused, ne_eq,
    not_true_eq_false, decide_false, Bool.or_self, Bool.false_eq_true, if_false, if_true]

/-- A slot becomes PENDING, at once, with a reset, or at a time that fits. -/
theorem Hub.fwActivate_pends (can : h.pendRefusal s = none) (fits : (if m = 2 then h.timeRefusal t else none) = none) :
    h.fwActivate r = (if m = 1 then (h.pend s m (if m = 2 then t else 0)).modPw (fun p => { p with resetDue := some causeSystem })
      else h.pend s m (if m = 2 then t else 0), .ok []) := by
  have known : ¬ 5 < m := by omega
  simp only [Hub.fwActivate, r.not_has 12 hr.length, hr.slot, hr.mode, hr.reserved, hr.time, known, Nat.not_lt.mpr hr.inRange, hm, can, fits, ne_eq,
    not_true_eq_false, decide_false, Bool.or_self, Bool.false_eq_true, if_false, if_true]

end Modes

section Staged
variable (can : h.pendRefusal s = none)
include can

theorem Hub.fwActivate_next (hr : r.Activates s 0 t) : h.fwActivate r = (h.pend s 0 0, .ok []) :=
  Hub.fwActivate_pends hr (by decide) can (if_neg (by decide))

theorem Hub.fwActivate_reset (hr : r.Activates s 1 t) :
    h.fwActivate r = ((h.pend s 1 0).modPw (fun p => { p with resetDue := some causeSystem }), .ok []) := by
  rw [Hub.fwActivate_pends hr (by decide) can (if_neg (by decide)), if_pos rfl, if_neg (by decide)]

theorem Hub.fwActivate_at (hr : r.Activates s 2 t) (fits : h.timeRefusal t = none) : h.fwActivate r = (h.pend s 2 t, .ok []) := by
  have due : (if 2 = 2 then h.timeRefusal t else none) = none := by rw [if_pos rfl, fits]
  rw [Hub.fwActivate_pends hr (by decide) can due, if_neg (by decide), if_pos rfl]

end Staged

theorem Hub.timeRefusal_fits (late : h.clk.ns + us 100 ≤ t) (early : t ≤ h.clk.ns + 60000000000) : h.timeRefusal t = none := by
  simp only [Hub.timeRefusal, Nat.not_lt.mpr late, Nat.not_lt.mpr early, if_false]

theorem Hub.fwActivate_late (hr : r.Activates s 2 t) (can : h.pendRefusal s = none) (late : t < h.clk.ns + us 100) :
    h.fwActivate r = (h, .err .lateEpoch) := by
  have refused : h.timeRefusal t = some .lateEpoch := if_pos late
  simp [Hub.fwActivate, r.not_has 12 hr.length, hr.slot, hr.mode, hr.reserved, hr.time, Nat.not_lt.mpr hr.inRange, can, refused]

section Confirm
variable (hr : r.Activates s 3 t)
include hr

theorem Hub.fwActivate_confirms (trial : (h.fw h.mg.running).state = 4) : h.fwActivate r = (h.confirm, .ok []) := by
  simp [Hub.fwActivate, r.not_has 12 hr.length, hr.slot, hr.mode, hr.reserved, Nat.not_lt.mpr hr.inRange, trial]

theorem Hub.fwActivate_noTrial (other : (h.fw h.mg.running).state ≠ 4) : h.fwActivate r = (h, .err .conflict) := by
  simp [Hub.fwActivate, r.not_has 12 hr.length, hr.slot, hr.mode, hr.reserved, Nat.not_lt.mpr hr.inRange, other]

end Confirm

section Floor
variable (hr : r.Activates s 4 t) (main : h.onVback = false)
include hr main

/-- The floor follows a running CONFIRMED image. -/
theorem Hub.fwActivate_floor (confirmed : (h.fw h.mg.running).state = 5) : h.fwActivate r =
    (h.pset P.MG_ROLLBACK_FLOOR 0 (max h.floorOf (min 128 (imgCounter (h.fw h.mg.running).head))), .ok []) := by
  simp [Hub.fwActivate, r.not_has 12 hr.length, hr.slot, hr.mode, hr.reserved, Nat.not_lt.mpr hr.inRange, main, confirmed]

theorem Hub.fwActivate_noFloor (other : (h.fw h.mg.running).state ≠ 5) : h.fwActivate r = (h, .err .denied) := by
  simp [Hub.fwActivate, r.not_has 12 hr.length, hr.slot, hr.mode, hr.reserved, Nat.not_lt.mpr hr.inRange, main, other]

end Floor

section Cancel
variable (hr : r.Activates s 5 t)
include hr

theorem Hub.fwActivate_cancels (pending : (h.fw s).state = 3) :
    h.fwActivate r = (h.modFw s (fun x => { x with state := 2, time := 0 }), .ok []) := by
  simp [Hub.fwActivate, r.not_has 12 hr.length, hr.slot, hr.mode, hr.reserved, Nat.not_lt.mpr hr.inRange, pending]

theorem Hub.fwActivate_nonePending (other : (h.fw s).state ≠ 3) : h.fwActivate r = (h, .err .conflict) := by
  simp [Hub.fwActivate, r.not_has 12 hr.length, hr.slot, hr.mode, hr.reserved, Nat.not_lt.mpr hr.inRange, other]

end Cancel
end Activate

/-! ## Scheduled activation and confirmation (R434, R444) -/

theorem Hub.fwTime_none {h : Hub} (none_ : [0, 1, 2].find? (fun k => (h.fw k).state == 3 && (h.fw k).time != 0) = none) : h.fwTime = h := by
  simp only [Hub.fwTime, none_]

theorem Hub.fwTime_resets {h x y : Hub} {k : Nat} (due : [0, 1, 2].find? (fun k => (h.fw k).state == 3 && (h.fw k).time != 0) = some k)
    (hx : x = h.modFw k (fun x => { x with time := 0 })) (hs : h.pw.state = .run ∨ h.pw.state = .doze)
    (hy : y = x.untilLine (boundaryAt (h.fw k).time)) : h.fwTime = y.warmReset causeSystem h.straps := by
  have awake : (decide (x.pw.state = .rest) || decide (x.pw.state = .thermalOff) || decide (x.pw.state = .off)) = false := by
    have same : x.pw = h.pw := by rw [hx]; rfl
    rcases hs with e | e <;> simp [same, e]
  have straps : x.straps = h.straps := by rw [hx]; rfl
  simp only [Hub.fwTime, due, ← hx, awake, Bool.false_eq_true, if_false, ← hy, straps]

/-- A TRIAL image in full service is confirmed after its time. -/
theorem Hub.confirmTimer_confirms {h : Hub} (time : h.pget P.MG_FW_CONFIRM_TIME 0 ≠ 0) (full : h.mg.full = true)
    (trial : (h.fw h.mg.running).state = 4) :
    h.confirmTimer = (h.until (h.mg.fullAt + ms (1000 * h.pget P.MG_FW_CONFIRM_TIME 0))).confirm := by
  simp only [Hub.confirmTimer, time, full, trial, ne_eq, not_true_eq_false, decide_false, Bool.not_true, Bool.or_self, Bool.false_eq_true, if_false]

theorem Hub.confirmTimer_none {h : Hub} (why : h.pget P.MG_FW_CONFIRM_TIME 0 = 0 ∨ h.mg.full = false ∨ (h.fw h.mg.running).state ≠ 4) :
    h.confirmTimer = h := by
  rcases why with e | e | e <;> simp [Hub.confirmTimer, e]

/-! ## FW_STATUS (R445) -/

theorem Hub.fwStatus_ok {h : Hub} {r : Request} (hp : r.payload = []) : h.fwStatus r =
    (h, .ok ([byte h.mg.running, byte (bits h.straps 5 2), byte h.fwFlags, 0#8] ++ leBytes 4 h.floorOf ++ leBytes 8 0 ++
      h.fwRecord 0 ++ h.fwRecord 1 ++ h.fwRecord 2)) := by
  simp only [Hub.fwStatus, r.not_has_zero hp, Bool.false_eq_true, if_false]

/-! ## The commands -/

theorem exec_fwStageBegin (q : Req) (s : State) : exec (.fwStageBegin q) s = .next (s.after (s.hub.request 0x0701 q Hub.fwBegin)) := rfl
theorem exec_fwStageData (q : Req) (s : State) : exec (.fwStageData q) s = .next (s.after (s.hub.request 0x0702 q Hub.fwData)) := rfl
theorem exec_fwStageEnd (q : Req) (s : State) : exec (.fwStageEnd q) s = .next (s.after (s.hub.request 0x0703 q Hub.fwEnd)) := rfl
theorem exec_fwStageTimeout (s : State) : exec .fwStageTimeout s = .next (s.after s.hub.fwTimeout) := rfl
theorem exec_fwActivatePending (q : Req) (s : State) :
    exec (.fwActivatePending q) s = .next (s.after (s.hub.request 0x0704 (force q 1 0) Hub.fwActivate)) := rfl
theorem exec_fwActivateReset (q : Req) (s : State) :
    exec (.fwActivateReset q) s = .next (s.after (s.hub.request 0x0704 (force q 1 1) Hub.fwActivate)) := rfl
theorem exec_fwActivateAt (q : Req) (s : State) :
    exec (.fwActivateAt q) s = .next (s.after (s.hub.request 0x0704 (force q 1 2) Hub.fwActivate)) := rfl
theorem exec_fwActivateConfirm (q : Req) (s : State) :
    exec (.fwActivateConfirm q) s = .next (s.after (s.hub.request 0x0704 (force q 1 3) Hub.fwActivate)) := rfl
theorem exec_fwActivateFloor (q : Req) (s : State) :
    exec (.fwActivateFloor q) s = .next (s.after (s.hub.request 0x0704 (force q 1 4) Hub.fwActivate)) := rfl
theorem exec_fwActivateCancel (q : Req) (s : State) :
    exec (.fwActivateCancel q) s = .next (s.after (s.hub.request 0x0704 (force q 1 5) Hub.fwActivate)) := rfl
theorem exec_fwActivateTimeReached (s : State) : exec .fwActivateTimeReached s = .next (s.after s.hub.fwTime) := rfl
theorem exec_fwConfirmTimer (s : State) : exec .fwConfirmTimer s = .next (s.after s.hub.confirmTimer) := rfl
theorem exec_fwStatus (q : Req) (s : State) : exec (.fwStatus q) s = .next (s.after (s.hub.request 0x0705 q Hub.fwStatus)) := rfl

/-- Settles O56, each clause from the lemma on its outcome above. -/
theorem firmwareIsStagedAndActivated : Obligations.FirmwareIsStagedAndActivated := by
  unfold Obligations.FirmwareIsStagedAndActivated
  refine ⟨?length, ?vback, ?range, ?denied, ?begins, ?busy, ?data, ?noStaging, ?step, ?staged, ?ends, ?part, ?endVback, ?noTimeout, ?timeout,
    ?pending, ?reset, ?at_, ?late, ?pendConflict, ?resetConflict, ?atConflict, ?confirm, ?noTrial, ?floor, ?noFloor, ?cancel, ?nonePending,
    ?time, ?noTime, ?timer, ?noTimer, ?status⟩
  case length =>
    intro s q a hq hA hl
    rw [exec_fwStageBegin, Hub.request_plain s.hub q _ _ a _ _ (by decide) hq hA (Hub.fwBegin_length (r := reqOn q 0x0701) hl)]
  case vback =>
    intro s q a hq hA hl back
    rw [exec_fwStageBegin, Hub.request_plain s.hub q _ _ a _ _ (by decide) hq hA (Hub.fwBegin_vback (r := reqOn q 0x0701) hl back)]
  case range =>
    intro s q a hq hA hl main far
    rw [exec_fwStageBegin, Hub.request_plain s.hub q _ _ a _ _ (by decide) hq hA (Hub.fwBegin_range (r := reqOn q 0x0701) hl main far)]
  case denied =>
    intro s q a hq hA hl main h2 why
    rw [exec_fwStageBegin, Hub.request_plain s.hub q _ _ a _ _ (by decide) hq hA (Hub.fwBegin_denied (r := reqOn q 0x0701) hl main h2 why)]
  case begins =>
    rintro s q a s0 b x hq hA hl main rfl h2 idle notPending calm free hz hb hx
    have hbody := (Hub.fwBegin_checks (r := reqOn q 0x0701) hl main h2 idle notPending calm free hz hb).trans hx.symm
    rw [exec_fwStageBegin, Hub.request_plain s.hub q _ _ a x.1 x.2 (by decide) hq hA hbody]
  case busy =>
    intro s q a hq hA hl main h2 idle notPending calm staging
    have hbody := Hub.fwBegin_busy (r := reqOn q 0x0701) hl main h2 idle notPending calm staging
    rw [exec_fwStageBegin, Hub.request_plain s.hub q _ _ a _ _ (by decide) hq hA hbody]
  case data =>
    rintro s q a s0 t d hq hA rfl some_ hn staging main room
    have hbody := Hub.fwData_long (r := reqOn q 0x0702) some_ hn staging main room
    rw [exec_fwStageData, Hub.request_plain s.hub q _ _ a _ _ (by decide) hq hA hbody]
    rfl
  case noStaging =>
    intro s q a hq hA none_ some_ hn
    rw [exec_fwStageData, Hub.request_plain s.hub q _ _ a _ _ (by decide) hq hA (Hub.fwData_conflict (r := reqOn q 0x0702) some_ hn none_)]
  case step =>
    intro h token s0 t p d staging hd
    exact ⟨Hub.fwDataDone_vback staging, Hub.fwDataDone_range staging hd, Hub.fwDataDone_programs staging hd⟩
  case staged => exact fun h s0 => ⟨Hub.staged_zero, Hub.staged_image⟩
  case ends =>
    intro s q a s0 t hq hA hl staging whole room main
    have hbody := Hub.fwEnd_long (r := reqOn q 0x0703) hl staging main whole room
    rw [exec_fwStageEnd, Hub.request_plain s.hub q _ _ a _ _ (by decide) hq hA hbody]
    rfl
  case part =>
    intro s q a s0 t hq hA hl staging part main
    rw [exec_fwStageEnd, Hub.request_plain s.hub q _ _ a _ _ (by decide) hq hA (Hub.fwEnd_range (r := reqOn q 0x0703) hl staging main part)]
  case endVback =>
    intro s q a hq hA hl back
    rw [exec_fwStageEnd, Hub.request_plain s.hub q _ _ a _ _ (by decide) hq hA (Hub.fwEnd_vback (r := reqOn q 0x0703) hl back)]
  case noTimeout =>
    intro s none_
    rw [exec_fwStageTimeout, Hub.fwTimeout_none none_]
  case timeout =>
    intro s s0 t x staging idle hx
    rw [exec_fwStageTimeout, Hub.fwTimeout_ends staging idle hx]
  case pending =>
    intro s q a hq hA hl hz h2 main staged others closed
    have can := Hub.pendRefusal_none main staged others closed
    have hbody := Hub.fwActivate_next can (forced_activates (by decide) hl hz h2)
    rw [exec_fwActivatePending, Hub.request_plain s.hub _ _ _ a _ _ (by decide) hq hA hbody]
  case reset =>
    intro s q a hq hA hl hz h2 main staged others closed
    have can := Hub.pendRefusal_none main staged others closed
    have hbody := Hub.fwActivate_reset can (forced_activates (by decide) hl hz h2)
    rw [exec_fwActivateReset, Hub.request_plain s.hub _ _ _ a _ _ (by decide) hq hA hbody]
  case at_ =>
    intro s q a hq hA hl hz h2 main staged others closed late early
    have can := Hub.pendRefusal_none main staged others closed
    have hbody := Hub.fwActivate_at can (forced_activates (by decide) hl hz h2) (Hub.timeRefusal_fits late early)
    rw [exec_fwActivateAt, Hub.request_plain s.hub _ _ _ a _ _ (by decide) hq hA hbody]
  case late =>
    intro s q a hq hA hl hz h2 main staged others closed late
    have can := Hub.pendRefusal_none main staged others closed
    have hbody := Hub.fwActivate_late (forced_activates (by decide) hl hz h2) can late
    rw [exec_fwActivateAt, Hub.request_plain s.hub _ _ _ a _ _ (by decide) hq hA hbody]
  case pendConflict =>
    intro s q a hq hA hl hz h2 main why
    have hbody := Hub.fwActivate_refused (forced_activates (m := 0) (by decide) hl hz h2) (by decide) (Hub.pendRefusal_conflict main why)
    rw [exec_fwActivatePending, Hub.request_plain s.hub _ _ _ a _ _ (by decide) hq hA hbody]
  case resetConflict =>
    intro s q a hq hA hl hz h2 main why
    have hbody := Hub.fwActivate_refused (forced_activates (m := 1) (by decide) hl hz h2) (by decide) (Hub.pendRefusal_conflict main why)
    rw [exec_fwActivateReset, Hub.request_plain s.hub _ _ _ a _ _ (by decide) hq hA hbody]
  case atConflict =>
    intro s q a hq hA hl hz h2 main why
    have hbody := Hub.fwActivate_refused (forced_activates (m := 2) (by decide) hl hz h2) (by decide) (Hub.pendRefusal_conflict main why)
    rw [exec_fwActivateAt, Hub.request_plain s.hub _ _ _ a _ _ (by decide) hq hA hbody]
  case confirm =>
    intro s q a hq hA hl hz h2 trial
    have hbody := Hub.fwActivate_confirms (forced_activates (by decide) hl hz h2) trial
    rw [exec_fwActivateConfirm, Hub.request_plain s.hub _ _ _ a _ _ (by decide) hq hA hbody]
  case noTrial =>
    intro s q a hq hA hl hz h2 other
    have hbody := Hub.fwActivate_noTrial (forced_activates (by decide) hl hz h2) other
    rw [exec_fwActivateConfirm, Hub.request_plain s.hub _ _ _ a _ _ (by decide) hq hA hbody]
  case floor =>
    intro s q a hq hA hl hz h2 main confirmed
    have hbody := Hub.fwActivate_floor (forced_activates (by decide) hl hz h2) main confirmed
    rw [exec_fwActivateFloor, Hub.request_plain s.hub _ _ _ a _ _ (by decide) hq hA hbody]
  case noFloor =>
    intro s q a hq hA hl hz h2 main other
    have hbody := Hub.fwActivate_noFloor (forced_activates (by decide) hl hz h2) main other
    rw [exec_fwActivateFloor, Hub.request_plain s.hub _ _ _ a _ _ (by decide) hq hA hbody]
  case cancel =>
    intro s q a hq hA hl hz h2 pending
    have hbody := Hub.fwActivate_cancels (forced_activates (by decide) hl hz h2) pending
    rw [exec_fwActivateCancel, Hub.request_plain s.hub _ _ _ a _ _ (by decide) hq hA hbody]
  case nonePending =>
    intro s q a hq hA hl hz h2 other
    have hbody := Hub.fwActivate_nonePending (forced_activates (by decide) hl hz h2) other
    rw [exec_fwActivateCancel, Hub.request_plain s.hub _ _ _ a _ _ (by decide) hq hA hbody]
  case time =>
    intro s k x y due hx hs hy
    rw [exec_fwActivateTimeReached, Hub.fwTime_resets due hx hs hy]
  case noTime =>
    intro s none_
    rw [exec_fwActivateTimeReached, Hub.fwTime_none none_]
  case timer =>
    intro s time full trial
    rw [exec_fwConfirmTimer, Hub.confirmTimer_confirms time full trial]
  case noTimer =>
    intro s why
    rw [exec_fwConfirmTimer, Hub.confirmTimer_none why]
  case status =>
    intro s q a hq hA hp
    rw [exec_fwStatus, Hub.request_plain s.hub q _ _ a _ _ (by decide) hq hA (Hub.fwStatus_ok (r := reqOn q 0x0705) hp)]

end Sys2Proof.Machine
end

section
/-!
SUPPORT. PRESS_CONTROL, the Press instants, bandwidth windows and samplers (O59).
-/
namespace Sys2Proof.Machine

/-! ## PRESS_CONTROL (R459) -/

section Control
variable {h : Hub} {r : Request} (ht : r.txn = 0)
include ht

theorem Hub.pressControl_refused {st : Status} (refused : h.pressRefusal r.payload = some st) : h.pressControl r = (h, .err st) := by
  simp only [Hub.pressControl, ht, if_true, refused]

theorem Hub.pressControl_applies (can : h.pressRefusal r.payload = none) :
    h.pressControl r = ((h.pressApply r.payload).1, .ok (h.pressApply r.payload).2) := by
  simp only [Hub.pressControl, ht, if_true, can]

end Control

section Apply
variable (h : Hub) {p : List Byte}

theorem Hub.pressApply_stop (op : byteAt p 0 = 0) : h.pressApply p = (h.modPress (fun x => { x with running := false }), []) := by
  simp only [Hub.pressApply, op]

theorem Hub.pressApply_start (op : byteAt p 0 = 1) : h.pressApply p = (h.modPress (fun x =>
    ⟨true, byteAt p 1, le p 2 2, le p 8 8, le p 16 4, le p 20 4, le p 24 8, 0, 0, false, false, x.toldAt, 0, []⟩), []) := by
  simp only [Hub.pressApply, op]

/-- Up to 4,064 bytes of a record. -/
theorem Hub.pressApply_read (op : byteAt p 0 = 2) : h.pressApply p =
    (h, readMem h.dram (pressArea + le p 20 4 * h.slotSize + le p 24 8)
      (min 4064 (16 + 8 * le (readMem h.dram (pressArea + le p 20 4 * h.slotSize + 12) 2) 0 2 - le p 24 8))) := by
  simp only [Hub.pressApply, op]

end Apply

/-- The operation that a row's fixed payload byte names. -/
theorem byteAt_forced_op {q : Req} {op : Nat} (ho : op < 256) (hl : q.payload.length = 32) : byteAt (force q 0 op).payload 0 = op := by
  rw [byteAt_force q 0 op (by omega), Nat.mod_eq_of_lt ho]

/-! ## A Press instant (R460) -/

theorem Hub.pressLatch_none {h : Hub} (why : h.ct.press.running = false ∨ h.profile = 0) : h.pressLatch = h := by
  have off : (!h.ct.press.running || decide (h.profile = 0)) = true := by rcases why with e | e <;> simp [e]
  simp only [Hub.pressLatch, off, if_true]

section Latch
variable {h x y : Hub} {r : List Byte × Hub} (running : h.ct.press.running = true) (profile : h.profile ≠ 0) (plain : h.ct.press.stepped = false)
  (hx : x = h.untilLine h.ct.press.next) (hy : y = x.modPress (fun p => { p with k := p.k + 1, stepped := false }))
  (hr : r = y.pressRecord h.ct.press.gap false)
include running profile plain hx hy hr

/-- An instant whose previous record is still being written loses its record. -/
theorem Hub.pressLatch_writing (writing : r.2.pressWriting = true) : h.pressLatch = r.2.pressLost 1 := by
  simp only [Hub.pressLatch, running, profile, plain, Bool.not_true, decide_false, Bool.or_self, Bool.false_eq_true, if_false, ← hx, ← hy,
    Nat.lt_irrefl, Bool.or_false, ← hr, writing, if_true]

section Dram
variable (dram : h.ct.press.dest = 0)
include dram

/-- One that finds its slot unread loses its record too. -/
theorem Hub.pressLatch_unread (full : h.ct.press.slots ≤ (x.pget P.CT_PRESS_WRITE 0 + 2 ^ 32 - x.pget P.CT_PRESS_READ 0) % 2 ^ 32) :
    h.pressLatch = r.2.pressLost 1 := by
  simp only [Hub.pressLatch, running, profile, plain, Bool.not_true, decide_false, Bool.or_self, Bool.false_eq_true, if_false, ← hx, ← hy,
    Nat.lt_irrefl, Bool.or_false, ← hr, dram, full, decide_true, Bool.true_or, if_true, ite_self]

/-- One with room writes its record and steps CT_PRESS_WRITE. -/
theorem Hub.pressLatch_writes {slot : Nat} {z : Hub} (hs : slot = h.ct.press.seq % max 1 h.ct.press.slots)
    (room : (x.pget P.CT_PRESS_WRITE 0 + 2 ^ 32 - x.pget P.CT_PRESS_READ 0) % 2 ^ 32 < h.ct.press.slots)
    (fits : (slot + 1) * r.2.slotSize ≤ 0x4000000) (done : r.2.pressWriting = false)
    (hz : z = { r.2 with dram := writeMem r.2.dram (pressArea + slot * r.2.slotSize) r.1 }) :
    h.pressLatch = (z.pset P.CT_PRESS_WRITE 0 ((z.pget P.CT_PRESS_WRITE 0 + 1) % 2 ^ 32)).pressBegun [] := by
  simp only [Hub.pressLatch, running, profile, plain, Bool.not_true, decide_false, Bool.or_self, Bool.false_eq_true, if_false, ← hx, ← hy,
    Nat.lt_irrefl, Bool.or_false, ← hr, dram, done, ← hs, Nat.not_le.mpr room, Nat.not_lt.mpr fits, if_true, ← hz]

end Dram
end Latch

/-- With no counter enabled a record is its header. -/
theorem Hub.pressRecord_header {h : Hub} {gap stepped : Bool} (none_ : h.ct.enabled = []) : h.pressRecord gap stepped =
    (leBytes 8 h.clk.ns ++ leBytes 4 h.ct.press.seq ++ leBytes 2 0 ++ [byte (h.pget P.CT_LIST_GEN 0), byte (b2n gap + 2 * b2n stepped)], h) := by
  simp only [Hub.pressRecord, none_, List.foldl_nil, List.length_nil]

/-! ## Bandwidth windows and samplers (R461, R462) -/

/-- The end of a window: its counts start again, and the peaks too where the window restarts. -/
def Bandwidth.ended (b : Bandwidth) (on : Nat → Bool) (now : Nat) : Bandwidth :=
  if b.restart then { b with curIn := 0, curOut := 0, peakIn := 0, peakOut := 0, restart := false, endAt := now }
  else { b with curIn := 0, curOut := 0, endAt := now,
                lastIn := if on 0 then b.curIn else b.lastIn, peakIn := if on 1 then max b.peakIn b.curIn else b.peakIn,
                lastOut := if on 16 then b.curOut else b.lastOut, peakOut := if on 17 then max b.peakOut b.curOut else b.peakOut }

theorem Hub.windowEnd_eq {h x : Hub} {port w : Nat} {b : Bandwidth} (hw : w = us (h.pget P.CT_BW_WINDOW 0))
    (hb : b = nth h.ct.bw port Bandwidth.reset) (hx : x = h.untilLine (roundUp (b.endAt + 1) (max 1 w))) :
    h.windowEnd port = x.modCt (fun c => { c with bw := modAt c.bw port (fun b =>
      b.ended (fun k => x.ct.enabled.contains (0x40000000 + port * 256 + k)) (x.clk.ns / max 1 w * w)) }) := by
  simp only [Hub.windowEnd, ← hw, ← hb, ← hx]
  rfl

theorem Hub.sampleCapture_none {h : Hub} {k hdr : Nat} (idle : (h.ct.wanted.drop k).headD false = false) : h.sampleCapture k hdr = h := by
  simp only [Hub.sampleCapture, idle, Bool.not_false, if_true]

section Capture
variable {h x : Hub} {k hdr : Nat} (wanted : (h.ct.wanted.drop k).headD false = true)
  (hx : x = h.modCt (fun c => { c with wanted := c.wanted.set k false }))
include wanted hx

theorem Hub.sampleCapture_lost (full : 16 ≤ (nth x.ct.samples k []).length) : h.sampleCapture k hdr = x.bump P.CT_SAMPLE_LOST k := by
  simp only [Hub.sampleCapture, wanted, Bool.not_true, Bool.false_eq_true, if_false, ← hx, full, if_true]

theorem Hub.sampleCapture_ready (room : (nth x.ct.samples k []).length < 16) : h.sampleCapture k hdr =
    (x.modCt (fun c => { c with samples := modAt c.samples k (fun l => l ++ [⟨hdr % 2 ^ 128, x.clk.ns⟩]) })).event .sampleReady
      [(0, 1, k), (1, 1, (nth x.ct.samples k []).length + 1)] := by
  simp only [Hub.sampleCapture, wanted, Bool.not_true, Bool.false_eq_true, if_false, ← hx, Nat.not_le.mpr room]

end Capture

/-! ## The commands -/

theorem exec_pressStop (q : Req) (s : State) :
    exec (.pressStop q) s = .next (s.after (s.hub.request 0x0904 (force q 0 0) Hub.pressControl)) := rfl
theorem exec_pressStart (q : Req) (s : State) :
    exec (.pressStart q) s = .next (s.after (s.hub.request 0x0904 (force q 0 1) Hub.pressControl)) := rfl
theorem exec_pressRead (q : Req) (s : State) :
    exec (.pressRead q) s = .next (s.after (s.hub.request 0x0904 (force q 0 2) Hub.pressControl)) := rfl
theorem exec_pressLatch (s : State) : exec .pressLatch s = .next (s.after s.hub.pressLatch) := rfl
theorem exec_bwWindowEnd (port : Nat) (s : State) : exec (.bwWindowEnd port) s = .next (s.after (s.hub.windowEnd port)) := rfl
theorem exec_sampleCapture (k hdr : Nat) (s : State) : exec (.sampleCapture k hdr) s = .next (s.after (s.hub.sampleCapture k hdr)) := rfl

/-- Settles O59, each clause from the lemma on its outcome above. -/
theorem pressAndWindowsRecordCounters : Obligations.PressAndWindowsRecordCounters := by
  unfold Obligations.PressAndWindowsRecordCounters
  refine ⟨?stopRefused, ?startRefused, ?readRefused, ?stop, ?start, ?read, ?idle, ?writes, ?unread, ?writing, ?begun, ?header, ?window, ?unwanted,
    ?lost, ?ready⟩
  case stopRefused =>
    intro s q a st hq hA ht refused
    have hbody := Hub.pressControl_refused (r := reqOn (force q 0 0) 0x0904) ht refused
    rw [exec_pressStop, Hub.request_zero s.hub (force q 0 0) _ _ a _ _ ht hq hA hbody]
  case startRefused =>
    intro s q a st hq hA ht refused
    have hbody := Hub.pressControl_refused (r := reqOn (force q 0 1) 0x0904) ht refused
    rw [exec_pressStart, Hub.request_zero s.hub (force q 0 1) _ _ a _ _ ht hq hA hbody]
  case readRefused =>
    intro s q a st hq hA ht refused
    have hbody := Hub.pressControl_refused (r := reqOn (force q 0 2) 0x0904) ht refused
    rw [exec_pressRead, Hub.request_zero s.hub (force q 0 2) _ _ a _ _ ht hq hA hbody]
  case stop =>
    intro s q a hq hA ht hl can
    have hbody := Hub.pressControl_applies (r := reqOn (force q 0 0) 0x0904) ht can
    rw [reqOn_payload, a.pressApply_stop (byteAt_forced_op (by decide) hl)] at hbody
    rw [exec_pressStop, Hub.request_zero s.hub (force q 0 0) _ _ a _ _ ht hq hA hbody]
  case start =>
    intro s q a hq hA ht hl can
    have hbody := Hub.pressControl_applies (r := reqOn (force q 0 1) 0x0904) ht can
    rw [reqOn_payload, a.pressApply_start (byteAt_forced_op (by decide) hl)] at hbody
    rw [exec_pressStart, Hub.request_zero s.hub (force q 0 1) _ _ a _ _ ht hq hA hbody]
  case read =>
    intro s q a hq hA ht hl can
    have hbody := Hub.pressControl_applies (r := reqOn (force q 0 2) 0x0904) ht can
    rw [reqOn_payload, a.pressApply_read (byteAt_forced_op (by decide) hl)] at hbody
    rw [exec_pressRead, Hub.request_zero s.hub (force q 0 2) _ _ a _ _ ht hq hA hbody]
  case idle =>
    intro s why
    rw [exec_pressLatch, Hub.pressLatch_none why]
  case writes =>
    intro s x y slot r running profile plain dram hx hy hr hs room fits done
    rw [exec_pressLatch, Hub.pressLatch_writes running profile plain hx hy hr dram hs room fits done rfl]
  case unread =>
    intro s x y r running profile plain dram hx hy hr full
    rw [exec_pressLatch, Hub.pressLatch_unread running profile plain hx hy hr dram full]
  case writing =>
    intro s x y r running profile plain hx hy hr writing
    rw [exec_pressLatch, Hub.pressLatch_writing running profile plain hx hy hr writing]
  case begun => exact fun h tail => rfl
  case header => exact fun h gap stepped => Hub.pressRecord_header
  case window =>
    intro s port w b x hw hb hx
    rw [exec_bwWindowEnd, Hub.windowEnd_eq hw hb hx]
    rfl
  case unwanted =>
    intro s k hdr idle
    rw [exec_sampleCapture, Hub.sampleCapture_none idle]
  case lost =>
    intro s k hdr x wanted hx full
    rw [exec_sampleCapture, Hub.sampleCapture_lost wanted hx full]
  case ready =>
    intro s k hdr x wanted hx room
    rw [exec_sampleCapture, Hub.sampleCapture_ready wanted hx room]

end Sys2Proof.Machine
end

section
/-!
SUPPORT. Counters: COUNTER_READ, COUNTER_SELECT and COUNTER_CLEAR, and the value of a counter that is cleared (O58).
-/
namespace Sys2Proof.Machine

/-! ## COUNTER_READ (R457) -/

section Read
variable {h : Hub} {r : Request}

theorem Hub.counterReadCmd_ok {id : Nat} {x : Nat × Hub} (hl : r.payload.length = 4) (hid : id = r.arg 0 4) (valid : validId id = true)
    (hx : x = h.counterRead id) : h.counterReadCmd r = (x.2, .ok (leBytes 4 id ++
      leBytes 4 (b2n (h.ct.enabled.contains id) + 2 * b2n (x.1 == counterMax)) ++ leBytes 8 x.1 ++ leBytes 8 h.clk.ns)) := by
  subst hx hid
  simp only [Hub.counterReadCmd, r.not_has 4 hl, valid, Bool.not_true, Bool.or_self, Bool.false_eq_true, if_false]

theorem Hub.counterReadCmd_bad (why : r.payload.length ≠ 4 ∨ validId (r.arg 0 4) = false) : h.counterReadCmd r = (h, .err .badParam) := by
  have bad : (!r.has 4 || !validId (r.arg 0 4)) = true := by
    rcases why with e | e
    · rw [Bool.eq_false_iff.mpr (mt (r.has_iff 4).mp e), Bool.not_false, Bool.true_or]
    · rw [e, Bool.not_false, Bool.or_true]
  simp only [Hub.counterReadCmd, bad, if_true]

end Read

/-! ## COUNTER_SELECT (R455, R456) -/

section Select
variable {h : Hub} {r : Request} (ht : r.txn = 0)
include ht

theorem Hub.counterSelect_applies (can : h.selectRefusal r.payload = none) :
    h.counterSelect r = ((h.selectApply r.payload).modMg (fun m => { m with dirty := true }), .ok []) := by
  simp only [Hub.counterSelect, ht, if_true, can]

theorem Hub.counterSelect_refused {st : Status} {d : Nat} (refused : h.selectRefusal r.payload = some (st, d)) :
    h.counterSelect r = (h, .at st d) := by
  simp only [Hub.counterSelect, ht, if_true, refused]

end Select

theorem mem_addId (id j : Nat) (l : List Nat) : j ∈ addId id l ↔ j = id ∨ j ∈ l := by
  induction l with
  | nil => simp [addId]
  | cons x l ih =>
    simp only [addId]
    split
    · exact List.mem_cons
    · split
      · next e => simp [e]
      · simp only [List.mem_cons, ih]
        exact or_left_comm

theorem mem_foldl_addId (ids : List Nat) (j : Nat) (l : List Nat) : j ∈ ids.foldl (fun s i => addId i s) l ↔ j ∈ ids ∨ j ∈ l := by
  induction ids generalizing l with
  | nil => simp
  | cons i ids ih =>
    rw [List.foldl_cons, ih, mem_addId, List.mem_cons]
    exact ⟨fun m => by rcases m with m | m | m <;> simp [m], fun m => by rcases m with (m | m) | m <;> simp [m]⟩

/-- The enabled set after each of the three operations. -/
theorem Hub.mem_selected (h : Hub) (p : List Byte) (id : Nat) :
    (byteAt p 0 = 0 → (id ∈ h.selected p ↔ id ∈ idsAt p 4 (le p 2 2))) ∧
    (byteAt p 0 = 1 → (id ∈ h.selected p ↔ id ∈ idsAt p 4 (le p 2 2) ∨ id ∈ h.ct.enabled)) ∧
    (byteAt p 0 = 2 → (id ∈ h.selected p ↔ id ∈ h.ct.enabled ∧ id ∉ idsAt p 4 (le p 2 2))) := by
  refine ⟨fun op => ?_, fun op => ?_, fun op => ?_⟩
  · simp only [Hub.selected, op, mem_foldl_addId, List.not_mem_nil, or_false]
  · simp only [Hub.selected, op, mem_foldl_addId]
  · simp only [Hub.selected, op, List.mem_filter, Bool.not_eq_true', List.contains_iff_mem, ← Bool.not_eq_true]

/-! ## COUNTER_CLEAR (R458) -/

/-- The clears of more than one counter take a free time below 5 ms. -/
def Hub.clearing (h : Hub) (n : Nat) : Hub :=
  if n = 1 then h else h.fresh.2.until (h.fresh.2.clk.up + 1 + h.fresh.1 % (ms 5 - 1))

/-- A well-formed COUNTER_CLEAR of a list. -/
structure Request.ClearsList (r : Request) (ids : List Nat) : Prop where
  mode : byteAt r.payload 0 = 0
  reserved : byteAt r.payload 1 = 0
  some_ : 1 ≤ le r.payload 2 2
  length : r.payload.length = 4 + 4 * le r.payload 2 2
  ids_ : ids = idsAt r.payload 4 (le r.payload 2 2)

theorem forced_clearsList {q : Req} (hl : q.payload.length = 4 + 4 * le q.payload 2 2) (h1 : 1 ≤ le q.payload 2 2) (hz : byteAt q.payload 1 = 0) :
    (reqOn (force q 0 0) 0x0902).ClearsList (idsAt (force q 0 0).payload 4 (le (force q 0 0).payload 2 2)) where
  mode := byteAt_force q 0 0 (by omega)
  reserved := (byteAt_force_other q 0 0 1 (by omega)).trans hz
  some_ := by rw [reqOn_payload, le_force_other q 0 0 2 2 (by omega)]; exact h1
  length := by rw [reqOn_payload, length_force, le_force_other q 0 0 2 2 (by omega)]; exact hl
  ids_ := rfl

section List
variable {h : Hub} {r : Request} {ids : List Nat} (hr : r.ClearsList ids)
include hr

/-- What COUNTER_CLEAR of a list tests, and in which order. -/
theorem Hub.counterClear_list : h.counterClear r =
    match ids.findIdx? (fun i => !validId i), ids.findIdx? (fun i => groupOf i = 0 && !isCounter (i % 65536)) with
    | some i, _ => (h, .at .badParam i)
    | none, some i => (h, .at .denied i)
    | none, none =>
      match h.startOp r.mb r.cmd (.bankCheck 2) with
      | (h, .long t) =>
        (((ids.foldl Hub.counterZero h).clearing ids.length).endOp t .ok 0
          [(8, 4, h.clk.ns), (12, 4, ((ids.foldl Hub.counterZero h).clearing ids.length).clk.ns)], .long t)
      | x => x := by
  obtain ⟨mode, reserved, some_, length, rfl⟩ := hr
  have whole : ¬ r.payload.length < 4 := by omega
  have many : ¬ le r.payload 2 2 = 0 := by omega
  simp only [Hub.counterClear, mode, reserved, whole, many, ← length, ne_eq, not_true_eq_false, decide_false, decide_true, Nat.not_lt_zero,
    Nat.zero_ne_one, Bool.or_self, Bool.and_false, Bool.false_and, Bool.false_eq_true, if_false, if_true] <;> rfl

theorem Hub.counterClear_invalid {i : Nat} (bad : ids.findIdx? (fun i => !validId i) = some i) : h.counterClear r = (h, .at .badParam i) := by
  rw [Hub.counterClear_list hr, bad]

section Valid
variable (valid : ids.findIdx? (fun i => !validId i) = none)
include valid

theorem Hub.counterClear_denied {i : Nat} (bad : ids.findIdx? (fun i => groupOf i = 0 && !isCounter (i % 65536)) = some i) :
    h.counterClear r = (h, .at .denied i) := by
  rw [Hub.counterClear_list hr, valid, bad]

theorem Hub.counterClear_clears {x y z : Hub} (counters : ids.findIdx? (fun i => groupOf i = 0 && !isCounter (i % 65536)) = none)
    (room : h.ctl.ops.length < 16) (hx : x = h.withOp r.mb r.cmd (.bankCheck 2)) (hy : y = ids.foldl Hub.counterZero x)
    (hz : z = y.clearing ids.length) :
    h.counterClear r = (z.endOp h.ctl.nextToken .ok 0 [(8, 4, x.clk.ns), (12, 4, z.clk.ns)], .long h.ctl.nextToken) := by
  rw [Hub.counterClear_list hr, valid, counters, Hub.startOp_eq h _ _ _ room, ← hx]
  simp only [← hy, ← hz]

end Valid
end List

/-- A COUNTER_CLEAR of whole groups. -/
theorem Hub.counterClear_groups {h x y z : Hub} {r : Request} (mode : byteAt r.payload 0 = 1) (length : r.payload.length = 4)
    (none_ : le r.payload 2 2 = 0) (mask : byteAt r.payload 1 ≤ 31) (room : h.ctl.ops.length < 16)
    (hx : x = h.withOp r.mb r.cmd (.bankCheck 2))
    (hy : y = ([0, 1, 2, 3, 4].filter (bit (byteAt r.payload 1))).foldl Hub.groupZero x) (hz : z = y.clearing 0) :
    h.counterClear r = (z.endOp h.ctl.nextToken .ok 0 [(8, 4, x.clk.ns), (12, 4, z.clk.ns)], .long h.ctl.nextToken) := by
  have later : z = y.fresh.2.until (y.fresh.2.clk.up + 1 + y.fresh.1 % (ms 5 - 1)) := by rw [hz, Hub.clearing, if_neg (by decide)]
  simp only [Hub.counterClear, mode, length, none_, Nat.not_lt.mpr mask, Nat.lt_irrefl, ne_eq, not_true_eq_false, one_ne_zero, decide_false,
    Bool.or_self, Bool.and_false, Bool.false_and, Bool.false_eq_true, if_false, List.findIdx?_nil, List.length_nil, Nat.zero_ne_one,
    Hub.startOp_eq h _ _ _ room, ← hx, ← hy, ← later]

/-! ## A cleared counter (R453, R458) -/

section Zero
variable {p k : Nat} (hp : p < 10) (hk : k < 24)
include hp hk

theorem groupOf_event : groupOf (0x10000000 + p * 256 + k) = 1 := by
  simp only [groupOf]
  omega

theorem validId_event : validId (0x10000000 + p * 256 + k) = true := by
  have bank : bits (0x10000000 + p * 256 + k) 8 4 = p := by simp only [bits]; omega
  have kind : bits (0x10000000 + p * 256 + k) 0 5 = k := by simp only [bits]; omega
  have high : bits (0x10000000 + p * 256 + k) 12 16 = 0 := by simp only [bits]; omega
  have gap : bits (0x10000000 + p * 256 + k) 5 3 = 0 := by simp only [bits]; omega
  simp only [validId, groupOf_event hp hk, bank, kind, high, gap, hp, hk, decide_true, Bool.and_self]

theorem Hub.counterRead_counterZero {h : Hub} (rising : mrising h.ct.events = true) :
    ((h.counterZero (0x10000000 + p * 256 + k)).counterRead (0x10000000 + p * 256 + k)).1 = 0 := by
  simp only [Hub.counterRead, Hub.counterZero, groupOf_event hp hk]
  exact mget_mset_same 0 h.ct.events _ 0 rising

end Zero

/-! ## The commands -/

theorem exec_counterRead (q : Req) (s : State) : exec (.counterRead q) s = .next (s.after (s.hub.request 0x0901 q Hub.counterReadCmd)) := rfl
theorem exec_counterClearList (q : Req) (s : State) :
    exec (.counterClearList q) s = .next (s.after (s.hub.request 0x0902 (force q 0 0) Hub.counterClear)) := rfl
theorem exec_counterClearGroups (q : Req) (s : State) :
    exec (.counterClearGroups q) s = .next (s.after (s.hub.request 0x0902 (force q 0 1) Hub.counterClear)) := rfl
theorem exec_counterSelectReplace (q : Req) (s : State) :
    exec (.counterSelectReplace q) s = .next (s.after (s.hub.request 0x0903 (force q 0 0) Hub.counterSelect)) := rfl
theorem exec_counterSelectAdd (q : Req) (s : State) :
    exec (.counterSelectAdd q) s = .next (s.after (s.hub.request 0x0903 (force q 0 1) Hub.counterSelect)) := rfl
theorem exec_counterSelectRemove (q : Req) (s : State) :
    exec (.counterSelectRemove q) s = .next (s.after (s.hub.request 0x0903 (force q 0 2) Hub.counterSelect)) := rfl

/-- Settles O58, each clause from the lemma on its outcome above. -/
theorem countersAreSelectedReadAndCleared : Obligations.CountersAreSelectedReadAndCleared := by
  unfold Obligations.CountersAreSelectedReadAndCleared
  refine ⟨?read, ?readBad, ?replace, ?replaceRefused, ?add, ?addRefused, ?remove, ?removeRefused, Hub.mem_selected, ?list, ?invalid, ?denied,
    ?groups, ?zero⟩
  case read =>
    intro s q a id x hq hA hl hid valid hx
    have hbody := Hub.counterReadCmd_ok (r := reqOn q 0x0901) hl hid valid hx
    rw [exec_counterRead, Hub.request_plain s.hub q _ _ a _ _ (by decide) hq hA hbody]
  case readBad =>
    intro s q a hq hA why
    rw [exec_counterRead, Hub.request_plain s.hub q _ _ a _ _ (by decide) hq hA (Hub.counterReadCmd_bad (r := reqOn q 0x0901) why)]
  case replace =>
    intro s q a hq hA ht can
    have hbody := Hub.counterSelect_applies (r := reqOn (force q 0 0) 0x0903) ht can
    rw [exec_counterSelectReplace, Hub.request_zero s.hub (force q 0 0) _ _ a _ _ ht hq hA hbody]
    rfl
  case replaceRefused =>
    intro s q a st d hq hA ht refused
    have hbody := Hub.counterSelect_refused (r := reqOn (force q 0 0) 0x0903) ht refused
    rw [exec_counterSelectReplace, Hub.request_zero s.hub (force q 0 0) _ _ a _ _ ht hq hA hbody]
  case add =>
    intro s q a hq hA ht can
    have hbody := Hub.counterSelect_applies (r := reqOn (force q 0 1) 0x0903) ht can
    rw [exec_counterSelectAdd, Hub.request_zero s.hub (force q 0 1) _ _ a _ _ ht hq hA hbody]
    rfl
  case addRefused =>
    intro s q a st d hq hA ht refused
    have hbody := Hub.counterSelect_refused (r := reqOn (force q 0 1) 0x0903) ht refused
    rw [exec_counterSelectAdd, Hub.request_zero s.hub (force q 0 1) _ _ a _ _ ht hq hA hbody]
  case remove =>
    intro s q a hq hA ht can
    have hbody := Hub.counterSelect_applies (r := reqOn (force q 0 2) 0x0903) ht can
    rw [exec_counterSelectRemove, Hub.request_zero s.hub (force q 0 2) _ _ a _ _ ht hq hA hbody]
    rfl
  case removeRefused =>
    intro s q a st d hq hA ht refused
    have hbody := Hub.counterSelect_refused (r := reqOn (force q 0 2) 0x0903) ht refused
    rw [exec_counterSelectRemove, Hub.request_zero s.hub (force q 0 2) _ _ a _ _ ht hq hA hbody]
  case list =>
    intro s q a x y z hq hA hl h1 hz valid counters room hx hy hzz
    have hbody := Hub.counterClear_clears (forced_clearsList hl h1 hz) valid counters room hx hy hzz
    rw [exec_counterClearList, Hub.request_plain s.hub _ _ _ a _ _ (by decide) hq hA hbody]
  case invalid =>
    intro s q a i hq hA hl h1 hz bad
    have hbody := Hub.counterClear_invalid (h := a) (forced_clearsList hl h1 hz) bad
    rw [exec_counterClearList, Hub.request_plain s.hub _ _ _ a _ _ (by decide) hq hA hbody]
  case denied =>
    intro s q a i hq hA hl h1 hz valid bad
    have hbody := Hub.counterClear_denied (h := a) (forced_clearsList hl h1 hz) valid bad
    rw [exec_counterClearList, Hub.request_plain s.hub _ _ _ a _ _ (by decide) hq hA hbody]
  case groups =>
    intro s q a x y z hq hA hl hn hm room hx hy hz
    have hbody := Hub.counterClear_groups (h := a) (r := reqOn (force q 0 1) 0x0902) (byteAt_force q 0 1 (by omega)) ((length_force q 0 1).trans hl)
      ((le_force_other q 0 1 2 2 (by omega)).trans hn) ((byteAt_force_other q 0 1 1 (by omega)).trans_le hm) room hx
      (by rw [reqOn_payload, byteAt_force_other q 0 1 1 (by omega)]; exact hy) hz
    rw [exec_counterClearGroups, Hub.request_plain s.hub _ _ _ a _ _ (by decide) hq hA hbody]
  case zero => exact fun h p k hp hk rising => ⟨validId_event hp hk, Hub.counterRead_counterZero hp hk rising⟩

end Sys2Proof.Machine
end
